-- ==== Sys2Proof/Word.lean ====
section
/-! DEFINITION. The word types of the machine: bytes, 32-bit words, 64-bit words (R2, R3, R157, R293). -/

namespace Sys2Proof

/-- One byte of memory (R4). -/
abbrev Byte := BitVec 8

/-- A 32-bit word: a fibre register, a slot, a group register. -/
abbrev Word := BitVec 32

/-- A 64-bit word: a register pair, a notify cell, a tail word. -/
abbrev DWord := BitVec 64

end Sys2Proof
end

