-- ==== Sys2Proof/Config.lean ====
section
/-! DEFINITION. What one part fixes (counts and addresses of the manual's tables) and the free values: opaque constants that stand where the manual leaves a value open, and the external functions (hashes, signatures, ciphers) that the manual names but does not define. -/

namespace Sys2Proof.Config

/-- End of device memory: physical addresses run from 0 to 0x8F_FFFF_FFFF (R12, R13). -/
def memTop : Nat := 0x9000000000

/-- Bytes of one die's quarter of memory (R12). -/
def dieBytes : Nat := 0x2400000000

/-- OFFER0 of this part: bits [13:0] set (R102). -/
def offer0 : Word := 0x3FFF#32

/-- First 16 bytes of SHA-512 over the 31 identity bytes, in byte order (R133). -/
def stamp : List Byte :=
  [0xda#8, 0xa1#8, 0xc7#8, 0x2f#8, 0xd1#8, 0xa0#8, 0x1e#8, 0x7a#8,
   0xeb#8, 0x84#8, 0x8a#8, 0x38#8, 0x6d#8, 0x16#8, 0xa9#8, 0x9c#8]

/-- IDENT: the ASCII bytes `IKIRVO ESOLMYON E840 FENID-2 A0` and a zero byte (R96). -/
def ident : List Byte :=
  [0x49#8, 0x4B#8, 0x49#8, 0x52#8, 0x56#8, 0x4F#8, 0x20#8, 0x45#8,
   0x53#8, 0x4F#8, 0x4C#8, 0x4D#8, 0x59#8, 0x4F#8, 0x4E#8, 0x20#8,
   0x45#8, 0x38#8, 0x34#8, 0x30#8, 0x20#8, 0x46#8, 0x45#8, 0x4E#8,
   0x49#8, 0x44#8, 0x2D#8, 0x32#8, 0x20#8, 0x41#8, 0x30#8, 0x00#8]

/-- FREE VALUE (log entry 2): the n-th choice that the manual leaves open (a free segment, an order). -/
opaque freeNat : Nat → Nat

/-- FREE VALUE (log entry 2): the set of a home slice in which a line of memory, by its number, or of an RC peer object, by position, ASID, object and line, is placed (R223 gives the sets no index). -/
opaque homeSet : Nat → Nat
opaque rcSet : Nat → Nat → Nat → Nat → Nat

/-- FREE VALUE (log entry 2): the set of the object cache in which the entry of an ASID's object is placed (R212). -/
opaque objSet : Nat → Nat → Nat

/-- FREE VALUE (log entry 3): the n-th undefined byte (a TLD destination before its token completes). -/
opaque freeByte : Nat → Byte

/-- FREE VALUE (log entry 3): the n-th undefined word (an accumulator element after lost data). -/
opaque freeWord : Nat → Word

/-- FREE VALUE (log entry 47): what WHERE of ERRLOG names for an error in the scratchpad of a core (R108 gives no such place). -/
opaque scratchWhere : Nat → Nat

/-- FREE VALUE (log entry 2): the flit credit that a fabric pair's receiver grants per virtual channel when it is trained (R31 gives no number). -/
opaque linkCredit : Nat

/-- EXTERNAL FUNCTION (log entry 4): SHA-512 of a byte string, as R97, R99 and R133 use it. -/
opaque sha512 : List Byte → BitVec 512

/-- EXTERNAL FUNCTION (log entry 4): the version, signature and body of a firmware image, whose layout the manual does not give (R97). -/
opaque imageParts : List Byte → Nat × List Byte × List Byte

/-- FREE VALUE (log entry 4): the bytes of the boot ROM (R99). -/
opaque bootRom : List Byte

/-- EXTERNAL FUNCTION (log entry 4): Ed25519 verification of a signature by the vendor key whose digest is given (R97). -/
opaque ed25519Verify : BitVec 512 → BitVec 512 → List Byte → Bool

/-- EXTERNAL FUNCTION (log entry 4): the device's Ed25519 signature with its identity key (R99). -/
opaque ed25519Sign : List Byte → List Byte

/-- FREE VALUE (log entry 4): the 512 bits of the n-th key pair that the device supervisor makes (R92: it cannot be read). -/
opaque aesKeyPair : Nat → BitVec 512

/-- EXTERNAL FUNCTION (log entry 4): AES-256-XTS of one 16-byte block of a data unit (R93): the key pair, the tweak (the sector's physical address / 64), the block's place in the unit and its plaintext. -/
opaque xtsEncrypt : BitVec 512 → Nat → Nat → List Byte → List Byte

/-- EXTERNAL FUNCTION (log entry 4): payload bytes sealed under the AES-GCM-256 key of a number that binds a tray link to an ASID (R92), from the device to the host or back. -/
opaque gcmSeal : Nat → List Byte → List Byte

/-- EXTERNAL FUNCTION (log entry 4): the bytes opened under such a key. -/
opaque gcmOpen : Nat → List Byte → List Byte

/-- FREE VALUE (log entry 5): the byte that an owner reads where another ASID stored in the clear (R93: unpredictable). -/
opaque xtsDecryptForeign : Nat → Nat → Byte → Byte

end Sys2Proof.Config
end

