-- ==== Sys2Proof/Syntax.lean ====
section
/-! DEFINITION. The operations of the machine: one constructor per row of the opcode table. The 192 Fenid-2 instructions carry their encoded operand fields under the table's field names (R290); the 120 events carry what the outside, a timer or a unit supplies. -/

namespace Sys2Proof

/-- One fibre of one workgroup of one launch: the launch's number, %wgid and %fid. -/
structure FibId where
  launch : Nat
  wgid : Nat
  fid : Nat
  deriving DecidableEq, Repr

/-- A fabric or tray-link packet: the header fields of R29 and its payload bytes. gtags are the granule tags that a CMIG packet carries (R200); sched is no header field: the sending port's note that the packet belongs to a window (R58, R61). -/
structure Packet where
  kind : BitVec 5
  src : Fin 16
  dst : Fin 16
  via : Fin 16
  hop2 : Bool
  vc : Bool
  rcok : Bool
  epoch : Bool
  replay : Bool
  asid : BitVec 12
  tag : BitVec 12
  op : BitVec 8
  len : Nat
  obj : BitVec 20
  off : BitVec 48
  cobj : BitVec 20
  coff : BitVec 48
  payload : List Byte
  gtags : List Bool
  sched : Bool
  deriving DecidableEq, Repr

/-- A scale-out packet: the header fields of R79 and its payload. -/
structure SoPacket where
  kind : Byte
  flags : Byte
  dstEp : Word
  srcEp : Word
  dstCon : BitVec 16
  srcCon : BitVec 16
  psn : Word
  msn : Word
  moff : Word
  mlen : Word
  ackpsn : Word
  sack : DWord
  crc : Word
  payload : List Byte
  deriving DecidableEq, Repr

/-- A 20-bit sideband message (R28). -/
structure Sideband where
  type : BitVec 4
  body : BitVec 16
  deriving DecidableEq, Repr

/-- One codeword of a lane: its sequence number, up to 20 flits and one sideband message (R25). -/
structure Codeword where
  seq : BitVec 12
  replay : Bool
  flits : List (BitVec 256)
  msg : Sideband
  deriving DecidableEq, Repr

/-- One sampling of the sensors: degrees Celsius and watts (R20, R21). -/
structure Readings where
  junction : List Nat
  hbm : List Nat
  optical : List Nat
  power : Nat
  average : Nat
  deriving DecidableEq, Repr

/-- What power-on finds (R97, R98): the pairs that compute a wrong digest of the firmware image, whether every clock locks, the optical pairs that do not lock, the HBM stacks that cannot be trained, and the windows that the device supervisor sets, in ns, none for the defaults (R46, R214). -/
structure BootReport where
  wrong : BitVec 4
  clocks : Bool
  dark : BitVec 64
  untrained : BitVec 12
  collection : Option Nat
  hamper : Option Nat
  deriving DecidableEq, Repr

/-- What power-good starts with: the service pairs that pass their lock-step check (R97, R109), and what power-on finds. -/
structure PowerUp where
  healthy : BitVec 4
  found : BootReport
  deriving DecidableEq, Repr

/-- A pair that fails, and its lanes that have lost wavelength lock (R16, R26). -/
structure PairLoss where
  pair : Fin 64
  lanes : BitVec 16
  deriving DecidableEq, Repr

/-- The address space that the device supervisor makes for a TDI (R92, R207): its number, object table, objects, heap object and segments of the heap. -/
structure AsidSetup where
  asid : Nat
  otroot : Nat
  objects : Nat
  heapObj : Nat
  segs : List Nat
  deriving DecidableEq, Repr

/-- A message to the DOE mailbox (R91, R92, R99): a request for a signed measurement, with the requester's nonce, the keys of an IDE stream set or taken away (0 the link stream, 1 to 4 the selective ones), a TDI locked or unlocked, or a TDI in error. -/
inductive DoeRequest where
  | measure (index : Nat)
  | ide (stream : Fin 5) (on : Bool)
  | lock (tdi : Fin 64) (on : Bool)
  | fail (tdi : Fin 64)
  deriving DecidableEq, Repr

/-- One finding of patrol scrubbing: where, in which unit, and whether it was corrected (R105, R108). -/
structure Finding where
  pa : Nat
  unit : BitVec 4
  corrected : Bool
  asid : BitVec 12
  deriving DecidableEq, Repr

/-- New page-list words for one region of one object (R209, R215, R217). -/
structure PageGrant where
  asid : Nat
  obj : Nat
  region : Nat
  pages : List DWord
  deriving DecidableEq, Repr

/-- The binding of a launch queue (R111). -/
structure Binding where
  asid : Nat
  ringObj : Nat
  ringOff : Nat
  log2size : Nat
  ctlObj : Nat
  ctlOff : Nat
  pcap : Nat
  trusted : Bool
  deriving DecidableEq, Repr

/-- The rows of the opcode table. -/
inductive Instr where
  /-- ACCEPT_WRITE (R102): A write to ACCEPT0 to ACCEPT3 records the accepted features while FULL is clear; bits whose OFFER bit is 0 read back 0. -/
  | acceptWrite (i : Fin 4) (v : Word)
  /-- MGMT_REGISTER_WRITE (R94): A write to any other management register (W1C bits of PWRSTAT, FWSTAGE, unlisted offsets) acts per its access code; an access that is not an aligned 32-bit access completes with Completer Abort. -/
  | mgmtRegisterWrite (off size : Nat) (v : Word)
  /-- POWER_GOOD (R97): Power-good starts each die's service pair on the power-on sequence, which elects the leader and runs the ROM step. -/
  | powerGood (up : PowerUp)
  /-- DIE_MEMORY_INITIALISED (R97): Completion of a die's memory initialisation; after die 0's the leader sets LIMITED, and after every die's it waits for RAISE. -/
  | dieMemoryInitialised (die : Fin 4) (ok : Bool)
  /-- LOCKSTEP_MISMATCH (R109): A service pair whose two cores disagree stops at once and is unhealthy until the next power-on. -/
  | lockstepMismatch (die : Fin 4)
  /-- SENSOR_SAMPLING (R21): In slot 57 every junction, HBM, optical and power sensor is sampled. -/
  | sensorSampling (r : Readings)
  /-- PATROL_SCRUB (R105): In slots 41 to 52 patrol scrubbing writes back corrected data and logs uncorrectable errors in ERRLOG. -/
  | patrolScrub (findings : List Finding)
  /-- PAIR_FAILURE (R16): Loss of wavelength lock, or 16 uncorrectable codewords in a house frame, fails a pair; unacknowledged codewords are resent with REPLAY and spare substitution starts. -/
  | pairFailure (loss : PairLoss)
  /-- SPARE_SUBSTITUTION (R16): Completion of substitution makes a hot spare take over the failed pair's use and number. -/
  | spareSubstitution (pair : Fin 64)
  /-- LANE_CODEWORD_SEND (R25): Every 85 ns a lane sends one RS(544,514) codeword of 20 flits and one sideband message, keeping it in the replay buffer. -/
  | laneCodewordSend (pair : Fin 64) (lane : Fin 16)
  /-- CODEWORD_RECEIVE (R25): A received codeword is corrected and delivered, or, if uncorrectable, discarded with later codewords of the lane and a lane replay is sent. -/
  | codewordReceive (pair : Fin 64) (lane : Fin 16) (cw : Codeword) (ok : Bool)
  /-- PEER_DEAD (R24): 50 µs without a sideband message from a peer declares it dead, fails its outstanding requests and records the death. -/
  | peerDead (pos : Fin 16)
  /-- SHOOT_DOWN_OVERDUE (R38): A shoot-down acknowledgement not received 100 µs after SHOOT declares that peer dead. -/
  | shootDownOverdue (asid obj region : Nat)
  /-- REMOTE_REQUEST_TIMEOUT (R35): A remote request unanswered after 100 µs performs 0x0D0 for a load or atomic, or at the next wide release for a store. -/
  | remoteRequestTimeout (dst : Fin 16) (tag : BitVec 12)
  /-- FABRIC_TIMEOUT (R40): A fabric command with no acknowledgement for 100 µs from a live peer ends with token code 0x15. -/
  | fabricTimeout (cmd : Nat)
  /-- COLLECTION_CLOSE (R46): At first issue + W collection closes; the Folding Table computes the calendar and, as acting primary, sends it. -/
  | collectionClose (exid : Word)
  /-- DPOST_TIMEOUT (R49): No calendar within W + 200 µs of the issue stamp ends the DPOST with code 0x20. -/
  | dpostTimeout (exid : Word)
  /-- FOLD_WINDOW_START (R58): At BASE + START the fabric port starts sending a window's queued exchange bytes, up to BUDGET. -/
  | foldWindowStart (exid : Word) (fold : Nat)
  /-- FOLD_WINDOW_END (R58): At the window's end the bytes it granted but not yet sent become overflow. -/
  | foldWindowEnd (exid : Word) (fold : Nat)
  /-- CLOSE_SEND (R63): Once BASE + END has passed and every exchange byte is acknowledged, the package sends CLOSE to every other posted member. -/
  | closeSend (exid : Word)
  /-- CLOSE_TIMEOUT (R64): An awaited close missing 100 µs after the later of BASE + END and the member's last packet completes the close token with code 0x15. -/
  | closeTimeout (exid : Word)
  /-- LATE_CLOSE_COMPLETION (R64): At BASE + END a late poster's close token, or one with no close still missing, completes. -/
  | lateCloseCompletion (exid : Word)
  /-- RNR_RESEND (R76): 20 µs after an RNR the sender resends from the refused PSN. -/
  | rnrResend (conn : Nat)
  /-- DELAYED_ACK (R81): Within 1 µs of accepting a DATA packet the receiver sends an ACK carrying E and SACK. -/
  | delayedAck (conn : Nat)
  /-- RETRANSMISSION_TIMER (R81): On expiry the sender resends every unacknowledged packet with RETRY, doubles the timer, and after eight expiries moves the connection to ERROR. -/
  | retransmissionTimer (conn : Nat)
  /-- CONTEXT_FETCH (R83): Completion of a connection-context fetch processes the staged packets and waiting commands of that context. -/
  | contextFetch (port conn : Nat)
  /-- CONNECTION_OPEN (R71): The device supervisor opens a connection at management's request, moving it from CLOSED to OPEN. -/
  | connectionOpen (conn asid : Nat) (peerEp : Word) (peerConn : BitVec 16)
  /-- CONNECTION_CLOSE (R71): The device supervisor closes a connection once its commands have completed, pending ones with code 0x31. -/
  | connectionClose (conn : Nat)
  /-- PEER_CLOSE (R71): When the supervisor learns that the peer has closed its side, the connection enters ERROR. -/
  | peerClose (conn : Nat)
  /-- HOST_REQUEST_TIMEOUT (R86): A host request unanswered after 100 µs performs 0x0D0 or ends its copy with code 0x15. -/
  | hostRequestTimeout (link : Fin 4) (tag : BitVec 10)
  /-- TDI_RUN (R92): A TDI in RUN state creates a confidential ASID, installing its XTS key and tray-link keys. -/
  | tdiRun (tdi : Fin 64) (space : AsidSetup) (links : BitVec 4)
  /-- TDI_LEAVE_RUN (R92): When a TDI leaves RUN state its key, bindings and connections are destroyed and its gangs ended. -/
  | tdiLeaveRun (tdi : Fin 64)
  /-- DOE_MESSAGE (R99): A CMA/SPDM request over the DOE mailbox is answered, including signed measurements. -/
  | doeMessage (m : DoeRequest) (nonce : List Byte)
  /-- RECORD_CONSUMPTION (R115): When HEAD = n, TAIL > n and READY matches, the dispatcher acquires, copies record n and advances HEAD. -/
  | recordConsumption (q : Fin 1024)
  /-- DEPENDENCE_MET (R128): When both dependences and, with EARLY clear, the previous launch are satisfied, the count is read and checked and the launch moves to hand-over. -/
  | dependenceMet (q : Fin 1024)
  /-- LAUNCH_HANDOVER (R136): When the placer's launch table has a free entry the launch is entered, or a CORES launch that cannot be placed is refused with 0x6B. -/
  | launchHandover (q : Fin 1024)
  /-- LAUNCH_COMPLETION (R127): A completed launch releases at system scope and updates its completion event word atomically, waking its waiters, or writes LASTERR. -/
  | launchCompletion (launch : Nat)
  /-- QUANTUM_EXPIRY (R143): At the end of a 2 ms quantum the gang is pre-empted for an equal-priority candidate of another queue, or starts a new quantum. -/
  | quantumExpiry (launch gang : Nat)
  /-- CORE_HALT (R145): When every core of a halting gang has halted at an instruction boundary the gang enters SAVING. -/
  | coreHalt (launch gang : Nat)
  /-- CONTEXT_IMAGE_SAVED (R146): When the context image has been written the gang becomes SAVED and its cores free. -/
  | contextImageSaved (launch gang : Nat)
  /-- GANG_RESTORATION (R147): When a restored image is loaded, stopped commands continue and the pickers start; the gang is RUNNING. -/
  | gangRestoration (launch gang : Nat)
  /-- WORKGROUP_RETIREMENT (R148): When all fibres have ended and all scratchpad commands and pending loads are done, the workgroup retires and its segments return to the heap. -/
  | workgroupRetirement (launch wgid : Nat)
  /-- HAMPER_WINDOW_END (R214): When the Hamper window ends, its records are handed to the die's service pair as one batch. -/
  | hamperWindowEnd (die : Fin 4)
  /-- HAMPER_RELEASE (R215): When a batch has been served each record is released: parked fibres reissue their faulting instructions and attached engines continue, or they are ended if the region cannot be made resident. -/
  | hamperRelease (die : Fin 4) (grants : List PageGrant)
  /-- REGION_MIGRATION (R217): The service pair migrates a region: blocks writes, writes back dirty bytes, copies, installs new pages and invalidates. -/
  | regionMigration (g : PageGrant)
  /-- TRANSLATION_WALK (R212): Completion of an object-cache or region-cache walk answers every access that joined it. -/
  | translationWalk (die asid obj : Nat) (page : Option Nat)
  /-- L1_WRITE_BACK (R221): A dirty-FIFO drain or eviction sends a line's masked bytes to the home slice, one write per sector. -/
  | l1WriteBack (core : Nat)
  /-- RELEASE_COMPLETE (R229): When the dirty FIFO has drained to a release's marker and the scope's other requirements hold, the release completes. -/
  | releaseComplete (f : FibId)
  /-- RESULT_WRITEBACK (R160): A scoreboarded result, such as load data, is written to its register, which leaves pending. -/
  | resultWriteback (f : FibId)
  /-- ICACHE_FILL (R180): An instruction-cache fill arrives and is delivered to every joined core, releasing the held fibres. -/
  | icacheFill (core asid obj line : Nat)
  /-- CUPBOARD_FILL (R178): A Cupboard miss fetches a 1 KiB segment from the Attic, after the previous holder writes it back. -/
  | cupboardFill (core asid seg : Nat)
  /-- TILE_LATCH_GRANT (R243): A home slice grants a tile access's footprint lines once grantable, letting the next slice's request go. -/
  | tileLatchGrant (tile : Nat)
  /-- TILE_UNLATCH (R243): After every slice has returned data or acknowledged its commit, the port unlatches all slices and the token completes. -/
  | tileUnlatch (tile : Nat)
  /-- TOKEN_COMPLETION (R239): An engine command that has finished has its writes performed, the core acquires at its scope, and the token register is written. -/
  | tokenCompletion (cmd : Nat)
  /-- BRA (R306): Branches each executing fibre to slot 1 of the target packet. -/
  | bra (o : BitVec 24)
  /-- BRU (R307): Branches as BRA while declaring the bundle uniform; divergence sets DIVU or under CHECK performs 0x0E5. -/
  | bru (o : BitVec 24)
  /-- BWAY (R308): Four-way branch on predicates to the first matching way's packet, filling a whole packet. -/
  | bway (w0 w1 w2 w3 : BitVec 4) (t0 t1 t2 t3 : BitVec 16)
  /-- CALL (R310): Pushes a frame header and branches to the target packet. -/
  | call (o : BitVec 24)
  /-- CALLI (R311): Checks a code capability and calls through it, saving the caller's capability when the object differs. -/
  | calli (c : BitVec 4) (x : BitVec 6) (i : BitVec 8)
  /-- JMPI (R311): Checks a code capability and jumps through it without pushing a frame. -/
  | jmpi (c : BitVec 4) (x : BitVec 6) (i : BitVec 8)
  /-- MEET (R320): Arrives at the crew rendezvous and resumes all members together at equal age. -/
  | meet (i : BitVec 12)
  /-- FRAME (R315): Grows the current frame's local space, zeroing it and moving to a fresh segment if needed. -/
  | frame (i : BitVec 12)
  /-- LOOP (R309): Decrements a counter and branches while it is not zero. -/
  | loop (d : BitVec 6) (i : BitVec 12)
  /-- ASSERT (R322): Performs 0x0E6 in each executing fibre where the predicate test fails. -/
  | assert (n : Bool) (p : BitVec 3)
  /-- ADD (R324): Integer addition, optionally unsigned and saturating. -/
  | add (d a b : BitVec 6) (g s u : Bool)
  /-- ADDI (R327): Adds a sign-extended 12-bit immediate. -/
  | addi (d a : BitVec 6) (i : BitVec 12)
  /-- SUB (R324): Integer subtraction, optionally unsigned and saturating. -/
  | sub (d a b : BitVec 6) (g s u : Bool)
  /-- ADDC (R324): Writes the carry of the unsigned sum. -/
  | addc (d a b : BitVec 6) (g : Bool)
  /-- MUL (R324): Integer multiplication, optionally saturating. -/
  | mul (d a b : BitVec 6) (g s u : Bool)
  /-- MULHI (R324): High 32 bits of the signed or unsigned product. -/
  | mulhi (d a b : BitVec 6) (g u : Bool)
  /-- MAD (R326): Multiply-add, low 32 bits. -/
  | mad (d a b c : BitVec 6)
  /-- MADW (R326): Unsigned multiply with 64-bit accumulate into a register pair. -/
  | madw (d a b c : BitVec 6)
  /-- DIV (R325): Integer division truncating towards zero, with divide-by-zero and overflow rules. -/
  | div (d a b : BitVec 6) (g s u : Bool)
  /-- REM (R325): Integer remainder with the sign of the dividend. -/
  | rem (d a b : BitVec 6) (g u : Bool)
  /-- MIN (R324): Signed or unsigned minimum. -/
  | min (d a b : BitVec 6) (g u : Bool)
  /-- MAX (R324): Signed or unsigned maximum. -/
  | max (d a b : BitVec 6) (g u : Bool)
  /-- ABS (R324): Absolute value, optionally saturating. -/
  | abs (d a : BitVec 6) (g s : Bool)
  /-- NEG (R324): Negation, optionally saturating. -/
  | neg (d a : BitVec 6) (g s : Bool)
  /-- AND (R324): Bitwise AND. -/
  | and (d a b : BitVec 6) (g : Bool)
  /-- ANDI (R327): Bitwise AND with a zero-extended immediate. -/
  | andi (d a : BitVec 6) (i : BitVec 12)
  /-- OR (R324): Bitwise OR. -/
  | or (d a b : BitVec 6) (g : Bool)
  /-- ORI (R327): Bitwise OR with a zero-extended immediate. -/
  | ori (d a : BitVec 6) (i : BitVec 12)
  /-- XOR (R324): Bitwise XOR. -/
  | xor (d a b : BitVec 6) (g : Bool)
  /-- XORI (R327): Bitwise XOR with a zero-extended immediate. -/
  | xori (d a : BitVec 6) (i : BitVec 12)
  /-- ANDN (R324): A AND NOT B. -/
  | andn (d a b : BitVec 6) (g : Bool)
  /-- SHL (R324): Left shift, optionally saturating. -/
  | shl (d a b : BitVec 6) (g s u : Bool)
  /-- SHLI (R327): Left shift by an immediate. -/
  | shli (d a : BitVec 6) (k : BitVec 5)
  /-- SHR (R324): Arithmetic or logical right shift. -/
  | shr (d a b : BitVec 6) (g u : Bool)
  /-- SHRI (R327): Arithmetic or logical right shift by an immediate. -/
  | shri (d a : BitVec 6) (z : Bool) (k : BitVec 5)
  /-- ROT (R324): Rotate left. -/
  | rot (d a b : BitVec 6) (g : Bool)
  /-- FUNNEL (R326): Funnel shift of a register pair right. -/
  | funnel (d a b c : BitVec 6)
  /-- BFX (R324): Bit-field extract, sign- or zero-extended. -/
  | bfx (d a b : BitVec 6) (g u : Bool)
  /-- BFI (R326): Bit-field insert. -/
  | bfi (d a b c : BitVec 6)
  /-- POPC (R324): Population count. -/
  | popc (d a : BitVec 6) (g : Bool)
  /-- CLZ (R324): Count leading zeros. -/
  | clz (d a : BitVec 6) (g : Bool)
  /-- CTZ (R324): Count trailing zeros. -/
  | ctz (d a : BitVec 6) (g : Bool)
  /-- BREV (R324): Bit reversal. -/
  | brev (d a : BitVec 6) (g : Bool)
  /-- SEL (R331): Selects A or B by a predicate. -/
  | sel (d a b : BitVec 6) (g n : Bool) (p : BitVec 3)
  /-- CMP (R328): Integer compare combined into a predicate. -/
  | cmp (k p : BitVec 3) (a b : BitVec 6) (g : Bool) (n : BitVec 3)
  /-- CMPI (R328): Integer compare with a 9-bit immediate combined into a predicate. -/
  | cmpi (k p : BitVec 3) (a : BitVec 6) (i : BitVec 9) (n : BitVec 3)
  /-- PLOG (R330): Predicate logic by truth table combined into a predicate. -/
  | plog (k p a b : BitVec 3) (t : BitVec 4)
  /-- MOV (R324): Copies a fibre or group register. -/
  | mov (d a : BitVec 6) (g : Bool)
  /-- MOVI (R327): Loads a sign-extended 18-bit immediate. -/
  | movi (d : BitVec 6) (i : BitVec 18)
  /-- MOVL (R327): Loads a 32-bit immediate from its extension slot. -/
  | movl (d : BitVec 6) (i : BitVec 32)
  /-- ADDL (R327): Adds a 32-bit immediate from its extension slot. -/
  | addl (d a : BitVec 6) (i : BitVec 32)
  /-- MULI (R327): Multiplies by a sign-extended 12-bit immediate. -/
  | muli (d a : BitVec 6) (i : BitVec 12)
  /-- FADD (R333): Floating-point addition in FP32 or packed halves. -/
  | fadd (d a b : BitVec 6) (g : Bool) (t : BitVec 2) (r : BitVec 3)
  /-- FSUB (R333): Floating-point subtraction. -/
  | fsub (d a b : BitVec 6) (g : Bool) (t : BitVec 2) (r : BitVec 3)
  /-- FMUL (R333): Floating-point multiplication. -/
  | fmul (d a b : BitVec 6) (g : Bool) (t : BitVec 2) (r : BitVec 3)
  /-- FFMA (R336): FP32 fused multiply-add rounded once. -/
  | ffma (d a b c : BitVec 6)
  /-- HFMA2 (R336): Packed FP16 fused multiply-add. -/
  | hfma2 (d a b c : BitVec 6)
  /-- BFMA2 (R336): Packed BF16 fused multiply-add. -/
  | bfma2 (d a b c : BitVec 6)
  /-- FMIN (R333): minimumNumber. -/
  | fmin (d a b : BitVec 6) (g : Bool) (t : BitVec 2)
  /-- FMAX (R333): maximumNumber. -/
  | fmax (d a b : BitVec 6) (g : Bool) (t : BitVec 2)
  /-- FABS (R333): Clears the sign. -/
  | fabs (d a : BitVec 6) (g : Bool) (t : BitVec 2)
  /-- FNEG (R333): Inverts the sign. -/
  | fneg (d a : BitVec 6) (g : Bool) (t : BitVec 2)
  /-- FCMP (R334): Floating-point compare combined into a predicate. -/
  | fcmp (k p : BitVec 3) (a b : BitVec 6) (g : Bool) (t : BitVec 2) (n : BitVec 3)
  /-- FCLASS (R335): Writes a one-hot class word. -/
  | fclass (d a : BitVec 6) (g : Bool) (t : BitVec 2)
  /-- FRCP (R256): Reciprocal rounded to nearest even. -/
  | frcp (d a : BitVec 6) (g : Bool) (t : BitVec 2) (r : BitVec 3)
  /-- FRSQ (R256): Reciprocal square root. -/
  | frsq (d a : BitVec 6) (g : Bool) (t : BitVec 2) (r : BitVec 3)
  /-- FSQRT (R256): Square root. -/
  | fsqrt (d a : BitVec 6) (g : Bool) (t : BitVec 2) (r : BitVec 3)
  /-- FDIV (R256): Division, scoreboarded. -/
  | fdiv (d a b : BitVec 6) (g : Bool) (t : BitVec 2) (r : BitVec 3)
  /-- FEXP2 (R256): Base-2 exponential. -/
  | fexp2 (d a : BitVec 6) (g : Bool) (t : BitVec 2) (r : BitVec 3)
  /-- FLOG2 (R256): Base-2 logarithm. -/
  | flog2 (d a : BitVec 6) (g : Bool) (t : BitVec 2) (r : BitVec 3)
  /-- FSINPI (R256): sin(πx). -/
  | fsinpi (d a : BitVec 6) (g : Bool) (t : BitVec 2) (r : BitVec 3)
  /-- FCOSPI (R256): cos(πx). -/
  | fcospi (d a : BitVec 6) (g : Bool) (t : BitVec 2) (r : BitVec 3)
  /-- FTANH (R256): Hyperbolic tangent. -/
  | ftanh (d a : BitVec 6) (g : Bool) (t : BitVec 2) (r : BitVec 3)
  /-- FROUND (R333): Rounds to an integral value in its own format. -/
  | fround (d a : BitVec 6) (g : Bool) (t : BitVec 2) (r : BitVec 3)
  /-- FSCALE (R333): Multiplies by a power of two. -/
  | fscale (d a b : BitVec 6) (g : Bool) (t : BitVec 2) (r : BitVec 3)
  /-- FDOT2 (R336): FP16 pair dot product with FP32 addend. -/
  | fdot2 (d a b c : BitVec 6)
  /-- BDOT2 (R336): BF16 pair dot product with FP32 addend. -/
  | bdot2 (d a b c : BitVec 6)
  /-- CVT (R337): Converts one element between format slots. -/
  | cvt (d a : BitVec 6) (s f r : BitVec 3) (t : Bool)
  /-- QPACK (R339): Quantises four FP32 values into packed narrow elements, with a block scale in modes 3 to 5. -/
  | qpack (d a b : BitVec 6) (t : Bool) (s : BitVec 3)
  /-- QPACK4 (R340): Quantises eight FP32 values into 4-bit elements. -/
  | qpack4 (d a b : BitVec 6) (t : Bool) (s : BitVec 3)
  /-- QUNPK (R341): Decodes a group of packed narrow elements into four FP32 values. -/
  | qunpk (d a b : BitVec 6) (h : BitVec 2) (s : BitVec 3)
  /-- DOT4 (R342): Signed 8-bit dot product with accumulate. -/
  | dot4 (d a b c : BitVec 6)
  /-- DOT8 (R342): Signed 4-bit dot product with accumulate. -/
  | dot8 (d a b c : BitVec 6)
  /-- FDOT4 (R342): E4M3 dot product with FP32 accumulate. -/
  | fdot4 (d a b c : BitVec 6)
  /-- MAC2 (R342): INT16 pair multiply-accumulate saturating to INT32. -/
  | mac2 (d a b c : BitVec 6)
  /-- SHRR (R343): Rounding right shift, optionally clamped to 16 bits. -/
  | shrr (d a b : BitVec 6) (g s u : Bool)
  /-- PK16 (R344): Packs two 16-bit halves, optionally saturating. -/
  | pk16 (d a b : BitVec 6) (g s u : Bool)
  /-- SCALEP (R346): Contributes magnitudes to a scale ring's pending maximum. -/
  | scalep (a : BitVec 6) (s : BitVec 3)
  /-- SCALEC (R346): Pushes the pending maximum into the scale ring. -/
  | scalec (s : BitVec 3)
  /-- SCALEG (R346): Reads the ring exponent. -/
  | scaleg (d : BitVec 6) (s : BitVec 3)
  /-- ADD2 (R345): Per-half 16-bit addition. -/
  | add2 (d a b : BitVec 6) (g s u : Bool)
  /-- SUB2 (R345): Per-half 16-bit subtraction. -/
  | sub2 (d a b : BitVec 6) (g s u : Bool)
  /-- MUL2 (R345): Per-half 16-bit multiplication. -/
  | mul2 (d a b : BitVec 6) (g s u : Bool)
  /-- SHFL (R349): Crew shuffle by source index. -/
  | shfl (d a b : BitVec 6)
  /-- SHFLX (R349): Crew shuffle by XOR of position. -/
  | shflx (d a b : BitVec 6)
  /-- SLIDE (R349): Crew slide up or down by k with a fill value. -/
  | slide (d a b : BitVec 6) (u : Bool) (k : BitVec 5)
  /-- VOTE_BALLOT (R350): Crew ballot of a predicate into a bit mask. -/
  | voteBallot (d : BitVec 6) (s : BitVec 3)
  /-- VOTE_ANY (R350): Crew OR of a predicate combined into a predicate. -/
  | voteAny (k p s : BitVec 3)
  /-- VOTE_ALL (R350): Crew AND of a predicate combined into a predicate. -/
  | voteAll (k p s : BitVec 3)
  /-- VOTE_COUNT (R350): Crew count of true predicates. -/
  | voteCount (d : BitVec 6) (s : BitVec 3)
  /-- CRED (R352): Crew reduction in a fixed pairwise tree. -/
  | cred (d a : BitVec 6) (o : BitVec 4)
  /-- CSCAN (R353): Crew inclusive or exclusive scan in position order. -/
  | cscan (d a : BitVec 6) (x : Bool) (o : BitVec 4)
  /-- CMASK (R356): Sets, ANDs or ORs %cmask without a rendezvous. -/
  | cmask (a : BitVec 6) (m : BitVec 2)
  /-- ELECT (R354): Elects the lowest executing arrived position. -/
  | elect (p : BitVec 3) (a : BitVec 6)
  /-- MATCH (R355): Returns the mask of positions holding an equal value. -/
  | matchv (d a : BitVec 6)
  /-- LD8S (R358): Loads a sign-extended byte. -/
  | ld8s (t : BitVec 6) (c : BitVec 4) (x : BitVec 6) (i : BitVec 8)
  /-- LD8Z (R358): Loads a zero-extended byte. -/
  | ld8z (t : BitVec 6) (c : BitVec 4) (x : BitVec 6) (i : BitVec 8)
  /-- LD16S (R358): Loads a sign-extended halfword. -/
  | ld16s (t : BitVec 6) (c : BitVec 4) (x : BitVec 6) (i : BitVec 8)
  /-- LD16Z (R358): Loads a zero-extended halfword. -/
  | ld16z (t : BitVec 6) (c : BitVec 4) (x : BitVec 6) (i : BitVec 8)
  /-- LD32 (R358): Loads a word. -/
  | ld32 (t : BitVec 6) (c : BitVec 4) (x : BitVec 6) (i : BitVec 8)
  /-- LD64 (R358): Loads a register pair. -/
  | ld64 (t : BitVec 6) (c : BitVec 4) (x : BitVec 6) (i : BitVec 8)
  /-- LD128 (R358): Loads a register quad. -/
  | ld128 (t : BitVec 6) (c : BitVec 4) (x : BitVec 6) (i : BitVec 8)
  /-- ST8 (R358): Stores a byte. -/
  | st8 (t : BitVec 6) (c : BitVec 4) (x : BitVec 6) (i : BitVec 8)
  /-- ST16 (R358): Stores a halfword. -/
  | st16 (t : BitVec 6) (c : BitVec 4) (x : BitVec 6) (i : BitVec 8)
  /-- ST32 (R358): Stores a word. -/
  | st32 (t : BitVec 6) (c : BitVec 4) (x : BitVec 6) (i : BitVec 8)
  /-- ST64 (R358): Stores a register pair. -/
  | st64 (t : BitVec 6) (c : BitVec 4) (x : BitVec 6) (i : BitVec 8)
  /-- ST128 (R358): Stores a register quad. -/
  | st128 (t : BitVec 6) (c : BitVec 4) (x : BitVec 6) (i : BitVec 8)
  /-- LDA (R368): Loads a word at the home slice and then acquires. -/
  | lda (d : BitVec 6) (c : BitVec 4) (x : BitVec 6) (e : BitVec 2)
  /-- STL (R368): Releases and then stores a word at the home slice. -/
  | stl (c : BitVec 4) (x s : BitVec 6) (e : BitVec 2)
  /-- PREF (R359): Prefetches a sector, line or home-slice line, discarding silently on any failure. -/
  | pref (t : BitVec 2) (c : BitVec 4) (x : BitVec 6) (i : BitVec 8)
  /-- LDC (R360): Loads a capability with its tag ANDed with right K. -/
  | ldc (t c : BitVec 4) (x : BitVec 6) (i : BitVec 8)
  /-- STC (R360): Stores a capability with its tag. -/
  | stc (t c : BitVec 4) (x : BitVec 6) (i : BitVec 8)
  /-- CMOV (R361): Copies a capability register with its tag. -/
  | cmov (d a : BitVec 4)
  /-- CADD (R361): Advances a capability's base, shrinking its length. -/
  | cadd (d a : BitVec 4) (b : BitVec 6)
  /-- CNARROW (R361): Narrows a capability to a sub-range. -/
  | cnarrow (d a : BitVec 4) (b c : BitVec 6)
  /-- CDROP (R361): Clears rights in a capability. -/
  | cdrop (d a : BitVec 4) (m : BitVec 8)
  /-- CGET (R361): Reads a field of a capability. -/
  | cget (d : BitVec 6) (a : BitVec 4) (f : BitVec 3)
  /-- CTEST (R361): Tests a capability's tag, rights and kind into a predicate. -/
  | ctest (k p : BitVec 3) (a : BitVec 4) (b : BitVec 6)
  /-- TLD (R363): Loads a tile of up to 16 KiB from memory into scratchpad atomically against a token. -/
  | tld (g q : BitVec 5) (c : BitVec 4) (x : BitVec 6) (r : Bool) (s : BitVec 3)
  /-- TST (R363): Stores a tile of up to 16 KiB from scratchpad to memory atomically against a token. -/
  | tst (g q : BitVec 5) (c : BitVec 4) (x : BitVec 6) (r : Bool) (s : BitVec 3)
  /-- AADD (R365): Atomic add returning the old value. -/
  | aadd (d : BitVec 6) (c : BitVec 4) (x s : BitVec 6) (e : BitVec 2)
  /-- AAND (R365): Atomic AND. -/
  | aand (d : BitVec 6) (c : BitVec 4) (x s : BitVec 6) (e : BitVec 2)
  /-- AOR (R365): Atomic OR. -/
  | aor (d : BitVec 6) (c : BitVec 4) (x s : BitVec 6) (e : BitVec 2)
  /-- AXOR (R365): Atomic XOR. -/
  | axor (d : BitVec 6) (c : BitVec 4) (x s : BitVec 6) (e : BitVec 2)
  /-- AMINS (R365): Atomic signed minimum. -/
  | amins (d : BitVec 6) (c : BitVec 4) (x s : BitVec 6) (e : BitVec 2)
  /-- AMINZ (R365): Atomic unsigned minimum. -/
  | aminz (d : BitVec 6) (c : BitVec 4) (x s : BitVec 6) (e : BitVec 2)
  /-- AMAXS (R365): Atomic signed maximum. -/
  | amaxs (d : BitVec 6) (c : BitVec 4) (x s : BitVec 6) (e : BitVec 2)
  /-- AMAXZ (R365): Atomic unsigned maximum. -/
  | amaxz (d : BitVec 6) (c : BitVec 4) (x s : BitVec 6) (e : BitVec 2)
  /-- AXCHG (R365): Atomic exchange. -/
  | axchg (d : BitVec 6) (c : BitVec 4) (x s : BitVec 6) (e : BitVec 2)
  /-- ACAS (R365): Atomic compare and swap. -/
  | acas (d : BitVec 6) (c : BitVec 4) (x s : BitVec 6) (e : BitVec 2)
  /-- AADD64 (R365): Atomic 64-bit add. -/
  | aadd64 (d : BitVec 6) (c : BitVec 4) (x s : BitVec 6) (e : BitVec 2)
  /-- RFADD (R367): Floating-point add reduction at memory, with no result. -/
  | rfadd (t : BitVec 2) (c : BitVec 4) (x s : BitVec 6) (e : BitVec 2) (r : BitVec 3)
  /-- RFMIN (R367): Floating-point minimum reduction at memory. -/
  | rfmin (t : BitVec 2) (c : BitVec 4) (x s : BitVec 6) (e : BitVec 2) (r : BitVec 3)
  /-- RFMAX (R367): Floating-point maximum reduction at memory. -/
  | rfmax (t : BitVec 2) (c : BitVec 4) (x s : BitVec 6) (e : BitVec 2) (r : BitVec 3)
  /-- RADD (R365): Integer add reduction at memory, with no result. -/
  | radd (c : BitVec 4) (x s : BitVec 6) (e : BitVec 2)
  /-- AFADD (R367): FP32 atomic add returning the old word. -/
  | afadd (d : BitVec 6) (c : BitVec 4) (x s : BitVec 6) (e : BitVec 2) (r : BitVec 3)
  /-- REL (R229): Releases at a scope by draining the dirty FIFO to a marker. -/
  | rel (s : BitVec 3)
  /-- ACQ (R230): Acquires at a scope, invalidating clean L1 sectors. -/
  | acq (s : BitVec 3)
  /-- PHASE (R233): Release followed by acquire at one scope. -/
  | phase (s : BitVec 3)
  /-- QFENCE (R370): Places a join in the named engine queues. -/
  | qfence (e : BitVec 6) (m : BitVec 16)
  /-- BAR (R372): Arrives at a barrier and waits for the round. -/
  | bar (l : BitVec 4) (n : BitVec 8)
  /-- BARA (R372): Releases and arrives at a barrier without waiting. -/
  | bara (l : BitVec 4) (n : BitVec 8)
  /-- BARW (R372): Waits for the outstanding barrier round and acquires. -/
  | barw (l : BitVec 4) (n : BitVec 8)
  /-- WAITM (R373): Waits on a memory cell's condition, parking through effect 0x003. -/
  | waitm (k : BitVec 2) (c : BitVec 4) (x s : BitVec 6) (e : BitVec 2)
  /-- NOTIFY (R375): Releases at system scope, writes 8 bytes and wakes the cell's waiters. -/
  | notify (t : BitVec 6) (c : BitVec 4) (x : BitVec 6) (i : BitVec 8)
  /-- WAITT (R376): Reads a token, performing 0x002 while it is pending. -/
  | waitt (d : BitVec 6) (a : BitVec 5)
  /-- SLEEP (R377): Makes the fibre not ready for 16 × imm12 ticks. -/
  | sleep (i : BitVec 12)
  /-- HANDLE (R183): Installs a handler frame and a body segment. -/
  | handle (k m : BitVec 12) (h j : BitVec 16)
  /-- PERFORM (R380): Raises an effect tag, capturing a continuation or taking the root action. -/
  | perform (t : BitVec 12) (a : BitVec 6)
  /-- PERFORMR (R380): Raises an effect whose tag is in a register. -/
  | performr (a b : BitVec 6)
  /-- RESUME (R190): Claims a LIVE continuation and resumes it, plain or tail. -/
  | resume (a : BitVec 4) (b : BitVec 6) (t : Bool)
  /-- RESUMEX (R192): Resumes a continuation and raises an effect in it. -/
  | resumex (t : Bool) (a : BitVec 4) (b c : BitVec 6)
  /-- DISCARD (R193): Claims a continuation DISCARDED and frees its segments. -/
  | discard (a : BitVec 4)
  /-- HRET (R184): Sets v0 and returns from a body or clause frame to JOIN. -/
  | hret (a : BitVec 6)
  /-- SPAWN (R382): Creates a LIVE continuation that calls code with an argument. -/
  | spawn (d a : BitVec 4) (b c : BitVec 6)
  /-- CMIGR (R200): Moves a LIVE continuation to a peer package. -/
  | cmigr (g q : BitVec 5) (c : BitVec 4) (x : BitVec 6) (m : BitVec 4)
  /-- MMA (R270): Gathers A rows, multiplies by B and adds into the accumulator chunk by chunk. -/
  | mma (g : BitVec 5) (q : BitVec 2) (c : BitVec 4) (x : BitVec 6)
  /-- MZERO (R271): Zeroes an accumulator tile. -/
  | mzero (g : BitVec 5) (q : BitVec 2) (c : BitVec 4) (x : BitVec 6)
  /-- MDRAIN (R277): Converts the accumulator tile into a scratchpad tile. -/
  | mdrain (g : BitVec 5) (q : BitVec 2) (c : BitVec 4) (x : BitVec 6) (t : Bool) (r : BitVec 3)
  /-- COPY (R386): Copies bytes by a copy engine in ascending 4 KiB pieces. -/
  | copy (g : BitVec 5) (q c : BitVec 4) (x : BitVec 6) (r : Bool) (s : BitVec 3)
  /-- COPYT (R387): Copies strided rows by a copy engine. -/
  | copyt (g : BitVec 5) (q c : BitVec 4) (x : BitVec 6) (r : Bool) (s : BitVec 3)
  /-- XPUT (R39): Bulk-writes a local range to a peer object, counting on an arrival counter. -/
  | xput (g : BitVec 5) (q c : BitVec 4) (x : BitVec 6) (r : Bool) (s : BitVec 3)
  /-- XGET (R39): Bulk-reads a peer object into a local range. -/
  | xget (g : BitVec 5) (q c : BitVec 4) (x : BitVec 6) (r : Bool) (s : BitVec 3)
  /-- DPOST (R389): Posts this package's demand for a scheduled exchange, with a close token. -/
  | dpost (g : BitVec 5) (q c : BitVec 4) (x : BitVec 6)
  /-- SEND (R74): Sends one scale-out message on a connection. -/
  | send (g : BitVec 5) (q c : BitVec 4) (x : BitVec 6) (r : Bool) (s : BitVec 3)
  /-- RPOST (R75): Posts a receive buffer on a connection. -/
  | rpost (g : BitVec 5) (q c : BitVec 4) (x : BitVec 6) (r : Bool) (s : BitVec 3)
  /-- RCALL (R392): Sends a request to the host over a tray link and raises 0x004 to await the reply. -/
  | rcall (g : BitVec 5) (c : BitVec 4) (x : BitVec 6)
  /-- TOKQ (R394): Reads a token without waiting. -/
  | tokq (d : BitVec 6) (a : BitVec 5)
  /-- GETS (R395): Reads a system register. -/
  | gets (d : BitVec 6) (n : BitVec 12)
  /-- SETS (R395): Writes a system register. -/
  | sets (d : BitVec 6) (n : BitVec 12)
  /-- GETG (R396): Reads a group register through the scoreboard. -/
  | getg (d : BitVec 6) (a : BitVec 5)
  /-- SETG (R396): Writes a group register; the lowest %fid wins among simultaneous writers. -/
  | setg (d : BitVec 5) (a : BitVec 6)
  /-- SVC (R397): Performs the service call 0x0F1 with v0 = imm12. -/
  | svc (i : BitVec 12)
  /-- OINV (R398): Invalidates cached translations of an object or of a whole ASID. -/
  | oinv (a : BitVec 4) (b : BitVec 6)
  /-- LINK_TRAINING_COMPLETE (R24): Link training with a peer completes and the peer becomes live. -/
  | linkTrainingComplete (pos : Fin 16)
  /-- QUEUE_BIND (R111): At management's request the device supervisor binds a hardware queue, fixing its binding and writing zero to TAIL, HEAD and LASTERR. -/
  | queueBind (q : Fin 1024) (b : Binding)
  /-- QUEUE_UNBIND (R111): The device supervisor unbinds a queue that holds no record between consumption and completion. -/
  | queueUnbind (q : Fin 1024)
  /-- OBJECT_TABLE_UPDATE (R213): The device supervisor writes an object-table entry or page list, raises GEN and issues OINV, for example to set RC again. -/
  | objectTableUpdate (asid obj : Nat) (words : List DWord) (pages : List DWord)
  /-- ASID_CREATE (R207): The device supervisor creates an ordinary ASID, setting its descriptor LIVE with SERIAL 1. -/
  | asidCreate (asid otroot objects heapObj : Nat) (segs : List Nat)
  /-- ASID_DESTROY (R193): The device supervisor destroys an ASID, freeing its held continuations and making its pending residency requests unserviceable. -/
  | asidDestroy (asid : Nat)
  /-- CTRL_RESET (R96): A management write of CTRL.RESET stops every gang without a context image and restarts the power-on sequence at step 1. -/
  | ctrlReset
  /-- CTRL_FWGO (R96): A management write of CTRL.FWGO verifies and starts the firmware image in FWSTAGE; it is honoured only while STEP is 1 or 15. -/
  | ctrlFwgo
  /-- CTRL_RAISE (R96): A management write of CTRL.RAISE raises FULL and clears LIMITED; it is honoured only while STEP is 4 and every ACCEPT word has been written. -/
  | ctrlRaise
  /-- PCIE_LINK_TRAINED (R97): When the PCI Express link has trained, the boot ROM sets MGMT and enters step 1. -/
  | pcieLinkTrained
  /-- LEADER_BEAT (R109): Every 100 µs the leader sends a beat over the die bridges to every other pair. -/
  | leaderBeat
  /-- LEADER_TAKEOVER (R110): 300 µs without a beat makes the next healthy pair stop the old leader, fence, reload the object-table roots, restart migrations, re-arm the dispatcher and write LEADER. -/
  | leaderTakeover
  /-- THROTTLE_EVALUATION (R20): In slot 0 of each house frame the triggers are evaluated and a target throttle state is chosen. -/
  | throttleEvaluation
  /-- THROTTLE_STEP (R20): When 1 ms has passed since the last move, or the triggers have stayed clear for 20 ms, the device moves one throttle state towards the target. -/
  | throttleStep
  /-- HBM_REFRESH (R104): In slots 1 to 40 an HBM4 refresh batch runs, doubled above 85 °C. -/
  | hbmRefresh
  /-- RECALIBRATION (R104): In slots 53 to 56 wavelength trim, clock trim and HBM read-eye tracking run. -/
  | recalibration
  /-- TELEMETRY_COLLECTION (R104): In slots 58 and 59 telemetry is collected and ERRLOG is updated. -/
  | telemetryCollection
  /-- LINKSTAT_REFRESH (R104): In slots 60 to 62 link status and LINKSTAT are refreshed and substituted spares are recalibrated. -/
  | linkstatRefresh
  /-- NODE_TIME_SYNC (R106): In slot 0 the time master starts a time run carrying T1 to each peer. -/
  | nodeTimeSync
  /-- TIME_SYNCHRONISATION (R106): A received run of four type-0x6 sideband messages records a time stamp, answers with T3 or T4, or corrects %ftime by the computed offset. -/
  | timeSynchronisation
  /-- IDLE (R28): A received Idle sideband message carries nothing but keeps the sender's liveness. -/
  | idle
  /-- LANE_ACKNOWLEDGEMENT (R25): A received lane acknowledgement frees replay-buffer codewords up to the sequence named. -/
  | laneAcknowledgement
  /-- LANE_REPLAY (R25): A received lane replay makes the sender resend from the named codeword. -/
  | laneReplay
  /-- CREDIT_RETURN (R31): A received credit return adds flit credit for one virtual channel of the pair. -/
  | creditReturn
  /-- BARRIER_ARRIVAL (R43): A received barrier arrival counts a member for a node or grid barrier round, is relayed, or is held for an unbound unit; the round releases when every member's arrival is seen. -/
  | barrierArrival
  /-- LIVENESS_AND_LINK_STATE (R41): A received liveness message records the sender's working pairs and, when it changes, recomputes detour intermediates. -/
  | livenessAndLinkState
  /-- LIVENESS_SEND (R28): At least once per microsecond a package sends a liveness message on every working pair. -/
  | livenessSend
  /-- FOLDING_TABLE_HEARTBEAT (R51): A received Folding Table heartbeat refreshes the standby's view of the primary, or, with ROLE 1, silences this Folding Table. -/
  | foldingTableHeartbeat
  /-- HEARTBEAT_SEND (R51): Every 10 µs the primary and the standby send heartbeats with their ROLE and SEQ. -/
  | heartbeatSend
  /-- STANDBY_TAKEOVER (R65): 30 µs without a primary heartbeat makes the standby acting primary, which resends unfinished calendars with FLAGS bit 3 and computes exchanges in collection. -/
  | standbyTakeover
  /-- LDREQ (R34): A received load request, or RC line fill, is translated at the peer and answered with LDRSP or NACK. -/
  | ldreq
  /-- LDRSP (R34): Received load data is written to the waiting register, and cached when RCOK is set. -/
  | ldrsp
  /-- STREQ (R34): A received store request is performed at the home slice and answered with ACK, or refused with NACK. -/
  | streq
  /-- ATREQ (R34): A received atomic request is performed at the home slice and answered with ATRSP. -/
  | atreq
  /-- ATRSP (R34): A received atomic result is written to the waiting register. -/
  | atrsp
  /-- ACK (R40): A received acknowledgement completes a store, tile store, put packet, shoot-down or migration, and may complete the command's token. -/
  | ack
  /-- NACK (R35): A received refusal makes the issuing fibre perform 0x0C2 or 0x0D1, or stalls or ends the engine command. -/
  | nack
  /-- TLDREQ (R36): A received tile load request latches the tile's lines at the peer and returns up to 32 TLDDAT packets. -/
  | tldreq
  /-- TLDDAT (R36): Received tile load data is written to scratchpad, or reports a fault. -/
  | tlddat
  /-- TSTDAT (R36): Received tile store data is staged and committed at the peer once the last packet under its tag has arrived. -/
  | tstdat
  /-- PUT (R39): A received bulk put packet translates the counter, is performed at the home slices, adds LEN to the arrival counter and is acknowledged. -/
  | put
  /-- GETREQ (R39): A received bulk get request reads the peer object and answers with GETDAT packets. -/
  | getreq
  /-- GETDAT (R39): Received bulk get data is written locally and counted on the arrival counter. -/
  | getdat
  /-- SHOOT (R38): A received shoot-down stops caching the region, invalidates its lines, waits out outstanding loads and answers ACK. -/
  | shoot
  /-- CMIG (R200): Received continuation migration data is taken into new segments, renumbered, stamped LIVE under a new serial, and a capability is stored at the destination. -/
  | cmig
  /-- NOTE (R30): A received message between service pairs asks for residency, releases parked writers, or reports a member's refusal or completion. -/
  | note
  /-- DETOUR_RELAY (R41): An intermediate forwards a packet addressed to another position, setting HOP2 and moving it to virtual channel 1. -/
  | detourRelay
  /-- EXCHANGE_DPOST (R46): A Folding Table receives a posted demand vector, opening an exchange or joining its collection. -/
  | exchangeDpost
  /-- CALENDAR (R66): A received calendar piece is assembled; the first complete calendar for a pending DPOST lands in scratchpad and completes the DPOST token, and later ones are ignored. -/
  | calendar
  /-- CLOSE (R64): A received fold close is counted; the last awaited close completes the close token with release at node scope. -/
  | close
  /-- SCALEOUT_DATA (R80): A received scale-out DATA packet is judged new, duplicate or beyond the window, and new ones are placed in the buffer bound to its MSN or refused with RNR. -/
  | scaleoutData
  /-- SCALEOUT_ACK (R81): A received scale-out ACK frees covered packets, resets the retransmission timer, adjusts the byte window and may complete SEND tokens. -/
  | scaleoutAck
  /-- RNR (R76): A received RNR stops new packets on the connection and schedules a resend from the refused PSN. -/
  | rnr
  /-- HRDR (R86): Received host read data is delivered to the waiting load or copy. -/
  | hrdr
  /-- HWRA (R86): A received host write acknowledgement completes an HWR, allowing system-scope releases to complete. -/
  | hwra
  /-- DRD (R87): A host read of device memory is checked and answered with DRDR or NACK. -/
  | drd
  /-- DWR (R87): A host write of device memory is checked, performed at the home slices with tags cleared and acknowledged with DWRA. -/
  | dwr
  /-- TRAY_NOTE (R89): A host NOTE stores, adds or takes the unsigned maximum on a notify cell and wakes its waiters. -/
  | trayNote
  /-- RPLY (R90): A host reply, if the record is LIVE with matching SERIAL and REPLY awaited, fills the reply slot and makes the continuation runnable; otherwise it is refused with 0x44. -/
  | rply
  /-- TRAY_NACK (R84): A received tray-link refusal ends the device's request with the status given. -/
  | trayNack
  /-- GANG_PLACEMENT (R139): Free cores are offered to candidates in R140 order and a gang is placed on an aligned group, its fibres starting or its image restoring. -/
  | gangPlacement
  /-- PARK_EVICTION (R142): A gang whose live fibres have all been parked for 20 µs while its launch has a waiting candidate is pre-empted into the asleep state. -/
  | parkEviction
  /-- SLEEP_EXPIRY (R377): When %ftime reaches the sleeping fibre's wake time it becomes ready. -/
  | sleepExpiry
  /-- SERVICE_CALL_REPLY (R397): The device supervisor writes v0 for a service call that reached the root frame, and the fibre continues. -/
  | serviceCallReply
  /-- RET (R313): Pops the current frame, returning to the caller, ending the fibre, or closing a handler. -/
  | ret
  /-- EXIT (R317): Ends the fibre and returns its segments to the heap. -/
  | exit
  /-- NOP (R318): Has no effect; under control byte 0x0F it is an empty slot. -/
  | nop
  /-- UNFRAME (R316): Releases the current frame's local space. -/
  | unframe
  /-- FENCE (R228): Orders the fibre's own accesses. -/
  | fence
  /-- IFENCE (R240): Releases at die scope and drops the instruction cache. -/
  | ifence
  /-- UNHANDLE (R184): Marks the current handler REMOVED and unlinks it from the chain. -/
  | unhandle
  /-- BRK (R397): Performs the debug break 0x0F0. -/
  | brk
  /-- ILLEGAL_INSTRUCTION (R292): A fibre reaches a slot whose opcode is 0x00 or unassigned, or any slot of an illegal packet, and performs 0x0E7 with nothing written. -/
  | illegalInstruction
  /-- INSTRUCTION_FETCH_FAULT (R285): A fibre whose program counter has bad bits [3:0], names an extension slot or lies outside CODE performs 0x0E7 or 0x0C1 at that address. -/
  | instructionFetchFault
  deriving DecidableEq, Repr

end Sys2Proof
end

