-- ==== Sys2Proof/WellFormed.lean ====
section
/-! DEFINITION. Well-formed instructions: the decode checks of R292 that need no state (group-register numbers, even pairs and quads of R154, selector values each entry admits, capability destinations of R175). The checks that need the launch (REGS, features, format slots) stand in Machine/Operands.lean. -/

namespace Sys2Proof

/-- A group-register operand a with m[5] = 1 must be below 32 (R291, R292). -/
def gOk (g : Bool) (a : BitVec 6) : Bool := !g || a.toNat < 32

/-- The first register of a pair is even (R154). -/
def ev (r : BitVec 6) : Bool := r.toNat % 2 == 0

/-- The first register of a quad is a multiple of 4 (R154). -/
def q4 (r : BitVec 6) : Bool := r.toNat % 4 == 0

/-- System-register numbers that are assigned (R293). -/
def sysRegKnown (n : Nat) : Bool :=
  n < 0x00A || n == 0x010 || n == 0x011 || n == 0x020 || n == 0x021 || n == 0x030 || n == 0x031

/-- The 64-bit system registers (R293). -/
def sysRegWide (n : Nat) : Bool := n == 0x010 || n == 0x030 || n == 0x031

/-- The system registers that SETS may name (R293, R395). -/
def sysRegWritable (n : Nat) : Bool := n == 0x010 || n == 0x020 || n == 0x021

/-- The static decode checks of R292; an event is always well formed. -/
def Instr.wf : Instr → Bool
  | .ctrlReset => true
  | .ctrlFwgo => true
  | .ctrlRaise => true
  | .acceptWrite _ _ => true
  | .mgmtRegisterWrite _ _ _ => true
  | .powerGood _ => true
  | .pcieLinkTrained => true
  | .dieMemoryInitialised _ _ => true
  | .lockstepMismatch _ => true
  | .leaderBeat => true
  | .leaderTakeover => true
  | .throttleEvaluation => true
  | .throttleStep => true
  | .sensorSampling _ => true
  | .hbmRefresh => true
  | .patrolScrub _ => true
  | .recalibration => true
  | .telemetryCollection => true
  | .linkstatRefresh => true
  | .nodeTimeSync => true
  | .timeSynchronisation => true
  | .pairFailure _ => true
  | .spareSubstitution _ => true
  | .laneCodewordSend _ _ => true
  | .codewordReceive _ _ _ _ => true
  | .idle => true
  | .laneAcknowledgement => true
  | .laneReplay => true
  | .creditReturn => true
  | .barrierArrival => true
  | .livenessAndLinkState => true
  | .livenessSend => true
  | .peerDead _ => true
  | .foldingTableHeartbeat => true
  | .heartbeatSend => true
  | .standbyTakeover => true
  | .ldreq => true
  | .ldrsp => true
  | .streq => true
  | .atreq => true
  | .atrsp => true
  | .ack => true
  | .nack => true
  | .tldreq => true
  | .tlddat => true
  | .tstdat => true
  | .put => true
  | .getreq => true
  | .getdat => true
  | .shoot => true
  | .shootDownOverdue _ _ _ => true
  | .cmig => true
  | .note => true
  | .detourRelay => true
  | .remoteRequestTimeout _ _ => true
  | .fabricTimeout _ => true
  | .exchangeDpost => true
  | .collectionClose _ => true
  | .calendar => true
  | .dpostTimeout _ => true
  | .foldWindowStart _ _ => true
  | .foldWindowEnd _ _ => true
  | .closeSend _ => true
  | .close => true
  | .closeTimeout _ => true
  | .lateCloseCompletion _ => true
  | .scaleoutData => true
  | .scaleoutAck => true
  | .rnr => true
  | .rnrResend _ => true
  | .delayedAck _ => true
  | .retransmissionTimer _ => true
  | .contextFetch _ _ => true
  | .connectionOpen _ _ _ _ => true
  | .connectionClose _ => true
  | .peerClose _ => true
  | .hrdr => true
  | .hwra => true
  | .drd => true
  | .dwr => true
  | .trayNote => true
  | .rply => true
  | .trayNack => true
  | .hostRequestTimeout _ _ => true
  | .tdiRun _ _ _ => true
  | .tdiLeaveRun _ => true
  | .doeMessage _ _ => true
  | .recordConsumption _ => true
  | .dependenceMet _ => true
  | .launchHandover _ => true
  | .launchCompletion _ => true
  | .gangPlacement => true
  | .parkEviction => true
  | .quantumExpiry _ _ => true
  | .coreHalt _ _ => true
  | .contextImageSaved _ _ => true
  | .gangRestoration _ _ => true
  | .workgroupRetirement _ _ => true
  | .hamperWindowEnd _ => true
  | .hamperRelease _ _ => true
  | .regionMigration _ => true
  | .translationWalk _ _ _ _ => true
  | .l1WriteBack _ => true
  | .releaseComplete _ => true
  | .resultWriteback _ => true
  | .icacheFill _ _ _ _ => true
  | .cupboardFill _ _ _ => true
  | .tileLatchGrant _ => true
  | .tileUnlatch _ => true
  | .tokenCompletion _ => true
  | .sleepExpiry => true
  | .serviceCallReply => true
  | .bra _ => true
  | .bru _ => true
  | .bway _ _ _ _ _ _ _ _ => true
  | .call _ => true
  | .calli _ _ _ => true
  | .jmpi _ _ _ => true
  | .ret => true
  | .meet _ => true
  | .exit => true
  | .nop => true
  | .frame _ => true
  | .unframe => true
  | .loop _ _ => true
  | .assert _ _ => true
  | .add _ a _ g _ _ => gOk g a
  | .addi _ _ _ => true
  | .sub _ a _ g _ _ => gOk g a
  | .addc _ a _ g => gOk g a
  | .mul _ a _ g _ _ => gOk g a
  | .mulhi _ a _ g _ => gOk g a
  | .mad _ _ _ _ => true
  | .madw d _ _ c => ev d && ev c
  | .div _ a _ g _ _ => gOk g a
  | .rem _ a _ g _ => gOk g a
  | .min _ a _ g _ => gOk g a
  | .max _ a _ g _ => gOk g a
  | .abs _ a g _ => gOk g a
  | .neg _ a g _ => gOk g a
  | .and _ a _ g => gOk g a
  | .andi _ _ _ => true
  | .or _ a _ g => gOk g a
  | .ori _ _ _ => true
  | .xor _ a _ g => gOk g a
  | .xori _ _ _ => true
  | .andn _ a _ g => gOk g a
  | .shl _ a _ g _ _ => gOk g a
  | .shli _ _ _ => true
  | .shr _ a _ g _ => gOk g a
  | .shri _ _ _ _ => true
  | .rot _ a _ g => gOk g a
  | .funnel _ _ _ _ => true
  | .bfx _ a _ g _ => gOk g a
  | .bfi _ _ _ _ => true
  | .popc _ a g => gOk g a
  | .clz _ a g => gOk g a
  | .ctz _ a g => gOk g a
  | .brev _ a g => gOk g a
  | .sel _ a _ g _ _ => gOk g a
  | .cmp k _ a _ g _ => gOk g a && k.toNat != 7
  | .cmpi k _ _ _ _ => k.toNat != 7
  | .plog k _ _ _ _ => k.toNat != 7
  | .mov _ a g => gOk g a
  | .movi _ _ => true
  | .movl _ _ => true
  | .addl _ _ _ => true
  | .muli _ _ _ => true
  | .fadd _ a _ g t r => gOk g a && t.toNat != 3 && r.toNat < 5
  | .fsub _ a _ g t r => gOk g a && t.toNat != 3 && r.toNat < 5
  | .fmul _ a _ g t r => gOk g a && t.toNat != 3 && r.toNat < 5
  | .ffma _ _ _ _ => true
  | .hfma2 _ _ _ _ => true
  | .bfma2 _ _ _ _ => true
  | .fmin _ a _ g t => gOk g a && t.toNat != 3
  | .fmax _ a _ g t => gOk g a && t.toNat != 3
  | .fabs _ a g t => gOk g a && t.toNat != 3
  | .fneg _ a g t => gOk g a && t.toNat != 3
  | .fcmp k _ a _ g t _ => gOk g a && t.toNat != 3 && k.toNat != 7
  | .fclass _ a g t => gOk g a && t.toNat != 3
  | .frcp _ a g t r => gOk g a && t.toNat != 3 && r.toNat < 5
  | .frsq _ a g t r => gOk g a && t.toNat != 3 && r.toNat < 5
  | .fsqrt _ a g t r => gOk g a && t.toNat != 3 && r.toNat < 5
  | .fdiv _ a _ g t r => gOk g a && t.toNat != 3 && r.toNat < 5
  | .fexp2 _ a g t r => gOk g a && t.toNat != 3 && r.toNat < 5
  | .flog2 _ a g t r => gOk g a && t.toNat != 3 && r.toNat < 5
  | .fsinpi _ a g t r => gOk g a && t.toNat != 3 && r.toNat < 5
  | .fcospi _ a g t r => gOk g a && t.toNat != 3 && r.toNat < 5
  | .ftanh _ a g t r => gOk g a && t.toNat != 3 && r.toNat < 5
  | .fround _ a g t r => gOk g a && t.toNat != 3 && r.toNat < 5
  | .fscale _ a _ g t r => gOk g a && t.toNat != 3 && r.toNat < 5
  | .fdot2 _ _ _ _ => true
  | .bdot2 _ _ _ _ => true
  | .cvt _ _ _ _ r _ => r.toNat < 5
  | .qpack _ a _ _ _ => q4 a
  | .qpack4 _ a b _ _ => q4 a && q4 b
  | .qunpk d _ _ _ _ => q4 d
  | .dot4 _ _ _ _ => true
  | .dot8 _ _ _ _ => true
  | .fdot4 _ _ _ _ => true
  | .mac2 _ _ _ _ => true
  | .shrr _ a _ g _ _ => gOk g a
  | .pk16 _ a _ g _ _ => gOk g a
  | .scalep _ _ => true
  | .scalec _ => true
  | .scaleg _ _ => true
  | .add2 _ a _ g _ _ => gOk g a
  | .sub2 _ a _ g _ _ => gOk g a
  | .mul2 _ a _ g _ _ => gOk g a
  | .shfl _ _ _ => true
  | .shflx _ _ _ => true
  | .slide _ _ _ _ _ => true
  | .voteBallot _ _ => true
  | .voteAny k _ _ => k.toNat != 7
  | .voteAll k _ _ => k.toNat != 7
  | .voteCount _ _ => true
  | .cred _ _ o => o.toNat < 12
  | .cscan _ _ _ o => o.toNat < 12
  | .cmask _ m => m.toNat != 3
  | .elect _ _ => true
  | .matchv _ _ => true
  | .ld8s _ _ _ _ => true
  | .ld8z _ _ _ _ => true
  | .ld16s _ _ _ _ => true
  | .ld16z _ _ _ _ => true
  | .ld32 _ _ _ _ => true
  | .ld64 t _ _ _ => ev t
  | .ld128 t _ _ _ => q4 t
  | .st8 _ _ _ _ => true
  | .st16 _ _ _ _ => true
  | .st32 _ _ _ _ => true
  | .st64 t _ _ _ => ev t
  | .st128 t _ _ _ => q4 t
  | .lda _ _ _ _ => true
  | .stl _ _ _ _ => true
  | .pref t _ _ _ => t.toNat != 3
  | .ldc t _ _ _ => t.toNat != 12
  | .stc _ _ _ _ => true
  | .cmov d _ => d.toNat != 12
  | .cadd d _ _ => d.toNat != 12
  | .cnarrow d _ _ _ => d.toNat != 12
  | .cdrop d _ _ => d.toNat != 12
  | .cget _ _ _ => true
  | .ctest k _ _ _ => k.toNat != 7
  | .tld _ q _ _ _ s => q.toNat < 29 && 1 ≤ s.toNat && s.toNat < 6
  | .tst _ q _ _ _ s => q.toNat < 29 && 1 ≤ s.toNat && s.toNat < 6
  | .aadd _ _ _ _ _ => true
  | .aand _ _ _ _ _ => true
  | .aor _ _ _ _ _ => true
  | .axor _ _ _ _ _ => true
  | .amins _ _ _ _ _ => true
  | .aminz _ _ _ _ _ => true
  | .amaxs _ _ _ _ _ => true
  | .amaxz _ _ _ _ _ => true
  | .axchg _ _ _ _ _ => true
  | .acas _ _ _ s _ => ev s
  | .aadd64 d _ _ s _ => ev d && ev s
  | .rfadd t _ _ _ _ _ => t.toNat != 3
  | .rfmin t _ _ _ _ _ => t.toNat != 3
  | .rfmax t _ _ _ _ _ => t.toNat != 3
  | .radd _ _ _ _ => true
  | .afadd _ _ _ _ _ _ => true
  | .rel s => s.toNat < 6
  | .acq s => s.toNat < 6
  | .phase s => s.toNat < 6
  | .fence => true
  | .ifence => true
  | .qfence e m => e.toNat < 9 && m.toNat != 0 && (e.toNat != 0 || m.toNat < 16)
  | .bar l _ => 2 ≤ l.toNat && l.toNat < 9
  | .bara l _ => 2 ≤ l.toNat && l.toNat < 9
  | .barw l _ => 2 ≤ l.toNat && l.toNat < 9
  | .waitm k _ _ s _ => ev s && k.toNat != 3
  | .notify t _ _ _ => ev t
  | .waitt _ _ => true
  | .sleep _ => true
  | .handle _ _ _ _ => true
  | .unhandle => true
  | .perform _ _ => true
  | .performr _ _ => true
  | .resume _ _ _ => true
  | .resumex _ _ _ _ => true
  | .discard _ => true
  | .hret _ => true
  | .spawn d _ _ _ => d.toNat != 12
  | .cmigr _ q _ _ m => q.toNat < 16 && 4 ≤ m.toNat % 8 && m.toNat % 8 < 6
  | .mma _ _ _ _ => true
  | .mzero _ _ _ _ => true
  | .mdrain _ _ _ _ _ r => r.toNat < 5
  | .copy _ _ _ _ _ s => s.toNat < 6
  | .copyt _ _ _ _ _ s => s.toNat < 6
  | .xput _ _ _ _ _ s => 4 ≤ s.toNat && s.toNat < 6
  | .xget _ _ _ _ _ s => 4 ≤ s.toNat && s.toNat < 6
  | .dpost _ _ _ _ => true
  | .send _ _ _ _ _ s => 3 ≤ s.toNat && s.toNat < 6
  | .rpost _ _ _ _ _ s => 3 ≤ s.toNat && s.toNat < 6
  | .rcall _ _ _ => true
  | .tokq _ _ => true
  | .gets d n => sysRegKnown n.toNat && (!sysRegWide n.toNat || ev d)
  | .sets d n => sysRegWritable n.toNat && (!sysRegWide n.toNat || ev d)
  | .getg _ _ => true
  | .setg _ _ => true
  | .brk => true
  | .svc _ => true
  | .oinv _ _ => true
  | .illegalInstruction => true
  | .instructionFetchFault => true
  | .linkTrainingComplete _ => true
  | .queueBind _ _ => true
  | .queueUnbind _ => true
  | .objectTableUpdate _ _ _ _ => true
  | .asidCreate _ _ _ _ _ => true
  | .asidDestroy _ => true

end Sys2Proof
end

