-- ==== Sys2Proof/Decode.lean ====
section
/-! DEFINITION. Decode and encode: slot words to instructions and back, from the encoding tables of R290, R294 and the instruction entries; packets (R283, R284). Decoding is total and rejects by name. -/

namespace Sys2Proof

/-- Why a slot word is no instruction (R292); the fibre then performs 0x0E7. -/
inductive DecodeReject where
  /-- Opcode 0x00. -/
  | opcodeZero
  /-- An opcode that the opcode map does not assign. -/
  | unassigned (op : Nat)
  /-- A field that the instruction's entry does not name is not zero, or a selector value is not admitted. -/
  | reservedField (op : Nat)
  deriving DecidableEq, Repr

/-- n bits of w from bit lo. -/
def bv (n w lo : Nat) : BitVec n := BitVec.ofNat n (w / 2 ^ lo)

/-- One bit of w. -/
def bit (w lo : Nat) : Bool := w / 2 ^ lo % 2 == 1

/-- The n bits of w from bit lo hold v. -/
def fv (w lo n v : Nat) : Bool := w / 2 ^ lo % 2 ^ n == v

/-- The n bits of w from bit lo are zero. -/
def zf (w lo n : Nat) : Bool := w / 2 ^ lo % 2 ^ n == 0

/-- Opcodes 0x00 to 0x0F (R294): w is the slot, x and y the words of the two following slots. -/
def decodeRow0 (w x y : Nat) : Except DecodeReject Instr :=
  match w / 2 ^ 24 % 16 with
  | 1 => .ok (.bra (bv 24 w 0))
  | 2 => .ok (.bru (bv 24 w 0))
  | 3 => if zf w 0 8 then .ok (.bway (bv 4 w 20) (bv 4 w 16) (bv 4 w 12) (bv 4 w 8) (bv 16 x 0) (bv 16 x 16) (bv 16 y 0) (bv 16 y 16)) else .error (.reservedField 3)
  | 4 => .ok (.call (bv 24 w 0))
  | 5 => if zf w 18 6 then .ok (.calli (bv 4 w 14) (bv 6 w 8) (bv 8 w 0)) else .error (.reservedField 5)
  | 6 => if zf w 18 6 then .ok (.jmpi (bv 4 w 14) (bv 6 w 8) (bv 8 w 0)) else .error (.reservedField 6)
  | 7 => if zf w 0 24 then .ok (.ret) else .error (.reservedField 7)
  | 8 => if zf w 12 12 then .ok (.meet (bv 12 w 0)) else .error (.reservedField 8)
  | 9 => if zf w 0 24 then .ok (.exit) else .error (.reservedField 9)
  | 10 => if zf w 0 24 then .ok (.nop) else .error (.reservedField 10)
  | 11 => if zf w 12 12 then .ok (.frame (bv 12 w 0)) else .error (.reservedField 11)
  | 12 => if zf w 0 24 then .ok (.unframe) else .error (.reservedField 12)
  | 13 => if zf w 12 6 then .ok (.loop (bv 6 w 18) (bv 12 w 0)) else .error (.reservedField 13)
  | 14 => if zf w 4 20 then .ok (.assert (bit w 3) (bv 3 w 0)) else .error (.reservedField 14)
  | _ => if w / 2 ^ 24 % 256 = 0 then .error .opcodeZero else .error (.unassigned (w / 2 ^ 24 % 256))

/-- Opcodes 0x10 to 0x1F (R294): w is the slot, x and y the words of the two following slots. -/
def decodeRow1 (w _x _y : Nat) : Except DecodeReject Instr :=
  match w / 2 ^ 24 % 16 with
  | 0 => if zf w 0 3 then .ok (.add (bv 6 w 18) (bv 6 w 12) (bv 6 w 6) (bit w 5) (bit w 4) (bit w 3)) else .error (.reservedField 16)
  | 1 => .ok (.addi (bv 6 w 18) (bv 6 w 12) (bv 12 w 0))
  | 2 => if zf w 0 3 then .ok (.sub (bv 6 w 18) (bv 6 w 12) (bv 6 w 6) (bit w 5) (bit w 4) (bit w 3)) else .error (.reservedField 18)
  | 3 => if zf w 0 5 then .ok (.addc (bv 6 w 18) (bv 6 w 12) (bv 6 w 6) (bit w 5)) else .error (.reservedField 19)
  | 4 => if zf w 0 3 then .ok (.mul (bv 6 w 18) (bv 6 w 12) (bv 6 w 6) (bit w 5) (bit w 4) (bit w 3)) else .error (.reservedField 20)
  | 5 => if zf w 0 3 && zf w 4 1 then .ok (.mulhi (bv 6 w 18) (bv 6 w 12) (bv 6 w 6) (bit w 5) (bit w 3)) else .error (.reservedField 21)
  | 6 => .ok (.mad (bv 6 w 18) (bv 6 w 12) (bv 6 w 6) (bv 6 w 0))
  | 7 => .ok (.madw (bv 6 w 18) (bv 6 w 12) (bv 6 w 6) (bv 6 w 0))
  | 8 => if zf w 0 3 then .ok (.div (bv 6 w 18) (bv 6 w 12) (bv 6 w 6) (bit w 5) (bit w 4) (bit w 3)) else .error (.reservedField 24)
  | 9 => if zf w 0 3 && zf w 4 1 then .ok (.rem (bv 6 w 18) (bv 6 w 12) (bv 6 w 6) (bit w 5) (bit w 3)) else .error (.reservedField 25)
  | 10 => if zf w 0 3 && zf w 4 1 then .ok (.min (bv 6 w 18) (bv 6 w 12) (bv 6 w 6) (bit w 5) (bit w 3)) else .error (.reservedField 26)
  | 11 => if zf w 0 3 && zf w 4 1 then .ok (.max (bv 6 w 18) (bv 6 w 12) (bv 6 w 6) (bit w 5) (bit w 3)) else .error (.reservedField 27)
  | 12 => if zf w 0 4 && zf w 6 6 then .ok (.abs (bv 6 w 18) (bv 6 w 12) (bit w 5) (bit w 4)) else .error (.reservedField 28)
  | 13 => if zf w 0 4 && zf w 6 6 then .ok (.neg (bv 6 w 18) (bv 6 w 12) (bit w 5) (bit w 4)) else .error (.reservedField 29)
  | 14 => if zf w 0 5 then .ok (.and (bv 6 w 18) (bv 6 w 12) (bv 6 w 6) (bit w 5)) else .error (.reservedField 30)
  | 15 => .ok (.andi (bv 6 w 18) (bv 6 w 12) (bv 12 w 0))
  | _ => .error (.unassigned (w / 2 ^ 24 % 256))

/-- Opcodes 0x20 to 0x2F (R294): w is the slot, x and y the words of the two following slots. -/
def decodeRow2 (w _x _y : Nat) : Except DecodeReject Instr :=
  match w / 2 ^ 24 % 16 with
  | 0 => if zf w 0 5 then .ok (.or (bv 6 w 18) (bv 6 w 12) (bv 6 w 6) (bit w 5)) else .error (.reservedField 32)
  | 1 => .ok (.ori (bv 6 w 18) (bv 6 w 12) (bv 12 w 0))
  | 2 => if zf w 0 5 then .ok (.xor (bv 6 w 18) (bv 6 w 12) (bv 6 w 6) (bit w 5)) else .error (.reservedField 34)
  | 3 => .ok (.xori (bv 6 w 18) (bv 6 w 12) (bv 12 w 0))
  | 4 => if zf w 0 5 then .ok (.andn (bv 6 w 18) (bv 6 w 12) (bv 6 w 6) (bit w 5)) else .error (.reservedField 36)
  | 5 => if zf w 0 3 then .ok (.shl (bv 6 w 18) (bv 6 w 12) (bv 6 w 6) (bit w 5) (bit w 4) (bit w 3)) else .error (.reservedField 37)
  | 6 => if zf w 5 7 then .ok (.shli (bv 6 w 18) (bv 6 w 12) (bv 5 w 0)) else .error (.reservedField 38)
  | 7 => if zf w 0 3 && zf w 4 1 then .ok (.shr (bv 6 w 18) (bv 6 w 12) (bv 6 w 6) (bit w 5) (bit w 3)) else .error (.reservedField 39)
  | 8 => if zf w 6 6 then .ok (.shri (bv 6 w 18) (bv 6 w 12) (bit w 5) (bv 5 w 0)) else .error (.reservedField 40)
  | 9 => if zf w 0 5 then .ok (.rot (bv 6 w 18) (bv 6 w 12) (bv 6 w 6) (bit w 5)) else .error (.reservedField 41)
  | 10 => .ok (.funnel (bv 6 w 18) (bv 6 w 12) (bv 6 w 6) (bv 6 w 0))
  | 11 => if zf w 0 3 && zf w 4 1 then .ok (.bfx (bv 6 w 18) (bv 6 w 12) (bv 6 w 6) (bit w 5) (bit w 3)) else .error (.reservedField 43)
  | 12 => .ok (.bfi (bv 6 w 18) (bv 6 w 12) (bv 6 w 6) (bv 6 w 0))
  | 13 => if zf w 0 5 && zf w 6 6 then .ok (.popc (bv 6 w 18) (bv 6 w 12) (bit w 5)) else .error (.reservedField 45)
  | 14 => if zf w 0 5 && zf w 6 6 then .ok (.clz (bv 6 w 18) (bv 6 w 12) (bit w 5)) else .error (.reservedField 46)
  | 15 => if zf w 0 5 && zf w 6 6 then .ok (.ctz (bv 6 w 18) (bv 6 w 12) (bit w 5)) else .error (.reservedField 47)
  | _ => .error (.unassigned (w / 2 ^ 24 % 256))

/-- Opcodes 0x30 to 0x3F (R294): w is the slot, x and y the words of the two following slots. -/
def decodeRow3 (w x _y : Nat) : Except DecodeReject Instr :=
  match w / 2 ^ 24 % 16 with
  | 0 => if zf w 0 5 && zf w 6 6 then .ok (.brev (bv 6 w 18) (bv 6 w 12) (bit w 5)) else .error (.reservedField 48)
  | 1 => if zf w 4 1 then .ok (.sel (bv 6 w 18) (bv 6 w 12) (bv 6 w 6) (bit w 5) (bit w 3) (bv 3 w 0)) else .error (.reservedField 49)
  | 2 => if zf w 3 2 then .ok (.cmp (bv 3 w 21) (bv 3 w 18) (bv 6 w 12) (bv 6 w 6) (bit w 5) (bv 3 w 0)) else .error (.reservedField 50)
  | 3 => .ok (.cmpi (bv 3 w 21) (bv 3 w 18) (bv 6 w 12) (bv 9 w 3) (bv 3 w 0))
  | 4 => if zf w 4 2 && zf w 9 3 && zf w 15 3 then .ok (.plog (bv 3 w 21) (bv 3 w 18) (bv 3 w 12) (bv 3 w 6) (bv 4 w 0)) else .error (.reservedField 52)
  | 5 => if zf w 0 5 && zf w 6 6 then .ok (.mov (bv 6 w 18) (bv 6 w 12) (bit w 5)) else .error (.reservedField 53)
  | 6 => .ok (.movi (bv 6 w 18) (bv 18 w 0))
  | 7 => if zf w 0 18 then .ok (.movl (bv 6 w 18) (bv 32 x 0)) else .error (.reservedField 55)
  | 8 => if zf w 0 12 then .ok (.addl (bv 6 w 18) (bv 6 w 12) (bv 32 x 0)) else .error (.reservedField 56)
  | 9 => .ok (.muli (bv 6 w 18) (bv 6 w 12) (bv 12 w 0))
  | _ => .error (.unassigned (w / 2 ^ 24 % 256))

/-- Opcodes 0x40 to 0x4F (R294): w is the slot, x and y the words of the two following slots. -/
def decodeRow4 (w _x _y : Nat) : Except DecodeReject Instr :=
  match w / 2 ^ 24 % 16 with
  | 0 => .ok (.fadd (bv 6 w 18) (bv 6 w 12) (bv 6 w 6) (bit w 5) (bv 2 w 3) (bv 3 w 0))
  | 1 => .ok (.fsub (bv 6 w 18) (bv 6 w 12) (bv 6 w 6) (bit w 5) (bv 2 w 3) (bv 3 w 0))
  | 2 => .ok (.fmul (bv 6 w 18) (bv 6 w 12) (bv 6 w 6) (bit w 5) (bv 2 w 3) (bv 3 w 0))
  | 3 => .ok (.ffma (bv 6 w 18) (bv 6 w 12) (bv 6 w 6) (bv 6 w 0))
  | 4 => .ok (.hfma2 (bv 6 w 18) (bv 6 w 12) (bv 6 w 6) (bv 6 w 0))
  | 5 => .ok (.bfma2 (bv 6 w 18) (bv 6 w 12) (bv 6 w 6) (bv 6 w 0))
  | 6 => if zf w 0 3 then .ok (.fmin (bv 6 w 18) (bv 6 w 12) (bv 6 w 6) (bit w 5) (bv 2 w 3)) else .error (.reservedField 70)
  | 7 => if zf w 0 3 then .ok (.fmax (bv 6 w 18) (bv 6 w 12) (bv 6 w 6) (bit w 5) (bv 2 w 3)) else .error (.reservedField 71)
  | 8 => if zf w 0 3 && zf w 6 6 then .ok (.fabs (bv 6 w 18) (bv 6 w 12) (bit w 5) (bv 2 w 3)) else .error (.reservedField 72)
  | 9 => if zf w 0 3 && zf w 6 6 then .ok (.fneg (bv 6 w 18) (bv 6 w 12) (bit w 5) (bv 2 w 3)) else .error (.reservedField 73)
  | 10 => .ok (.fcmp (bv 3 w 21) (bv 3 w 18) (bv 6 w 12) (bv 6 w 6) (bit w 5) (bv 2 w 3) (bv 3 w 0))
  | 11 => if zf w 0 3 && zf w 6 6 then .ok (.fclass (bv 6 w 18) (bv 6 w 12) (bit w 5) (bv 2 w 3)) else .error (.reservedField 75)
  | 12 => if zf w 6 6 then .ok (.frcp (bv 6 w 18) (bv 6 w 12) (bit w 5) (bv 2 w 3) (bv 3 w 0)) else .error (.reservedField 76)
  | 13 => if zf w 6 6 then .ok (.frsq (bv 6 w 18) (bv 6 w 12) (bit w 5) (bv 2 w 3) (bv 3 w 0)) else .error (.reservedField 77)
  | 14 => if zf w 6 6 then .ok (.fsqrt (bv 6 w 18) (bv 6 w 12) (bit w 5) (bv 2 w 3) (bv 3 w 0)) else .error (.reservedField 78)
  | 15 => .ok (.fdiv (bv 6 w 18) (bv 6 w 12) (bv 6 w 6) (bit w 5) (bv 2 w 3) (bv 3 w 0))
  | _ => .error (.unassigned (w / 2 ^ 24 % 256))

/-- Opcodes 0x50 to 0x5F (R294): w is the slot, x and y the words of the two following slots. -/
def decodeRow5 (w _x _y : Nat) : Except DecodeReject Instr :=
  match w / 2 ^ 24 % 16 with
  | 0 => if zf w 6 6 then .ok (.fexp2 (bv 6 w 18) (bv 6 w 12) (bit w 5) (bv 2 w 3) (bv 3 w 0)) else .error (.reservedField 80)
  | 1 => if zf w 6 6 then .ok (.flog2 (bv 6 w 18) (bv 6 w 12) (bit w 5) (bv 2 w 3) (bv 3 w 0)) else .error (.reservedField 81)
  | 2 => if zf w 6 6 then .ok (.fsinpi (bv 6 w 18) (bv 6 w 12) (bit w 5) (bv 2 w 3) (bv 3 w 0)) else .error (.reservedField 82)
  | 3 => if zf w 6 6 then .ok (.fcospi (bv 6 w 18) (bv 6 w 12) (bit w 5) (bv 2 w 3) (bv 3 w 0)) else .error (.reservedField 83)
  | 4 => if zf w 6 6 then .ok (.ftanh (bv 6 w 18) (bv 6 w 12) (bit w 5) (bv 2 w 3) (bv 3 w 0)) else .error (.reservedField 84)
  | 5 => if zf w 6 6 then .ok (.fround (bv 6 w 18) (bv 6 w 12) (bit w 5) (bv 2 w 3) (bv 3 w 0)) else .error (.reservedField 85)
  | 6 => .ok (.fscale (bv 6 w 18) (bv 6 w 12) (bv 6 w 6) (bit w 5) (bv 2 w 3) (bv 3 w 0))
  | 7 => .ok (.fdot2 (bv 6 w 18) (bv 6 w 12) (bv 6 w 6) (bv 6 w 0))
  | 8 => .ok (.bdot2 (bv 6 w 18) (bv 6 w 12) (bv 6 w 6) (bv 6 w 0))
  | _ => .error (.unassigned (w / 2 ^ 24 % 256))

/-- Opcodes 0x60 to 0x6F (R294): w is the slot, x and y the words of the two following slots. -/
def decodeRow6 (w _x _y : Nat) : Except DecodeReject Instr :=
  match w / 2 ^ 24 % 16 with
  | 0 => if zf w 0 2 then .ok (.cvt (bv 6 w 18) (bv 6 w 12) (bv 3 w 9) (bv 3 w 6) (bv 3 w 3) (bit w 2)) else .error (.reservedField 96)
  | 1 => if zf w 4 2 then .ok (.qpack (bv 6 w 18) (bv 6 w 12) (bv 6 w 6) (bit w 3) (bv 3 w 0)) else .error (.reservedField 97)
  | 2 => if zf w 4 2 then .ok (.qpack4 (bv 6 w 18) (bv 6 w 12) (bv 6 w 6) (bit w 3) (bv 3 w 0)) else .error (.reservedField 98)
  | 3 => if zf w 3 1 then .ok (.qunpk (bv 6 w 18) (bv 6 w 12) (bv 6 w 6) (bv 2 w 4) (bv 3 w 0)) else .error (.reservedField 99)
  | 4 => .ok (.dot4 (bv 6 w 18) (bv 6 w 12) (bv 6 w 6) (bv 6 w 0))
  | 5 => .ok (.dot8 (bv 6 w 18) (bv 6 w 12) (bv 6 w 6) (bv 6 w 0))
  | 6 => .ok (.fdot4 (bv 6 w 18) (bv 6 w 12) (bv 6 w 6) (bv 6 w 0))
  | 7 => .ok (.mac2 (bv 6 w 18) (bv 6 w 12) (bv 6 w 6) (bv 6 w 0))
  | 8 => if zf w 0 3 then .ok (.shrr (bv 6 w 18) (bv 6 w 12) (bv 6 w 6) (bit w 5) (bit w 4) (bit w 3)) else .error (.reservedField 104)
  | 9 => if zf w 0 3 then .ok (.pk16 (bv 6 w 18) (bv 6 w 12) (bv 6 w 6) (bit w 5) (bit w 4) (bit w 3)) else .error (.reservedField 105)
  | 10 => if zf w 3 9 && zf w 18 6 then .ok (.scalep (bv 6 w 12) (bv 3 w 0)) else .error (.reservedField 106)
  | 11 => if zf w 3 21 then .ok (.scalec (bv 3 w 0)) else .error (.reservedField 107)
  | 12 => if zf w 3 15 then .ok (.scaleg (bv 6 w 18) (bv 3 w 0)) else .error (.reservedField 108)
  | 13 => if zf w 0 3 then .ok (.add2 (bv 6 w 18) (bv 6 w 12) (bv 6 w 6) (bit w 5) (bit w 4) (bit w 3)) else .error (.reservedField 109)
  | 14 => if zf w 0 3 then .ok (.sub2 (bv 6 w 18) (bv 6 w 12) (bv 6 w 6) (bit w 5) (bit w 4) (bit w 3)) else .error (.reservedField 110)
  | 15 => if zf w 0 3 then .ok (.mul2 (bv 6 w 18) (bv 6 w 12) (bv 6 w 6) (bit w 5) (bit w 4) (bit w 3)) else .error (.reservedField 111)
  | _ => .error (.unassigned (w / 2 ^ 24 % 256))

/-- Opcodes 0x80 to 0x8F (R294): w is the slot, x and y the words of the two following slots. -/
def decodeRow8 (w _x _y : Nat) : Except DecodeReject Instr :=
  match w / 2 ^ 24 % 16 with
  | 0 => if zf w 0 6 then .ok (.shfl (bv 6 w 18) (bv 6 w 12) (bv 6 w 6)) else .error (.reservedField 128)
  | 1 => if zf w 0 6 then .ok (.shflx (bv 6 w 18) (bv 6 w 12) (bv 6 w 6)) else .error (.reservedField 129)
  | 2 => .ok (.slide (bv 6 w 18) (bv 6 w 12) (bv 6 w 6) (bit w 5) (bv 5 w 0))
  | 3 => if zf w 0 3 && zf w 6 12 then .ok (.voteBallot (bv 6 w 18) (bv 3 w 3)) else if fv w 0 3 1 && zf w 6 12 then .ok (.voteAny (bv 3 w 21) (bv 3 w 18) (bv 3 w 3)) else if fv w 0 3 2 && zf w 6 12 then .ok (.voteAll (bv 3 w 21) (bv 3 w 18) (bv 3 w 3)) else if fv w 0 3 3 && zf w 6 12 then .ok (.voteCount (bv 6 w 18) (bv 3 w 3)) else .error (.reservedField 131)
  | 4 => if zf w 4 8 then .ok (.cred (bv 6 w 18) (bv 6 w 12) (bv 4 w 0)) else .error (.reservedField 132)
  | 5 => if zf w 5 7 then .ok (.cscan (bv 6 w 18) (bv 6 w 12) (bit w 4) (bv 4 w 0)) else .error (.reservedField 133)
  | 6 => if zf w 2 10 && zf w 18 6 then .ok (.cmask (bv 6 w 12) (bv 2 w 0)) else .error (.reservedField 134)
  | 7 => if zf w 0 12 && zf w 21 3 then .ok (.elect (bv 3 w 18) (bv 6 w 12)) else .error (.reservedField 135)
  | 8 => if zf w 0 12 then .ok (.matchv (bv 6 w 18) (bv 6 w 12)) else .error (.reservedField 136)
  | _ => .error (.unassigned (w / 2 ^ 24 % 256))

/-- Opcodes 0x90 to 0x9F (R294): w is the slot, x and y the words of the two following slots. -/
def decodeRow9 (w _x _y : Nat) : Except DecodeReject Instr :=
  match w / 2 ^ 24 % 16 with
  | 0 => .ok (.ld8s (bv 6 w 18) (bv 4 w 14) (bv 6 w 8) (bv 8 w 0))
  | 1 => .ok (.ld8z (bv 6 w 18) (bv 4 w 14) (bv 6 w 8) (bv 8 w 0))
  | 2 => .ok (.ld16s (bv 6 w 18) (bv 4 w 14) (bv 6 w 8) (bv 8 w 0))
  | 3 => .ok (.ld16z (bv 6 w 18) (bv 4 w 14) (bv 6 w 8) (bv 8 w 0))
  | 4 => .ok (.ld32 (bv 6 w 18) (bv 4 w 14) (bv 6 w 8) (bv 8 w 0))
  | 5 => .ok (.ld64 (bv 6 w 18) (bv 4 w 14) (bv 6 w 8) (bv 8 w 0))
  | 6 => .ok (.ld128 (bv 6 w 18) (bv 4 w 14) (bv 6 w 8) (bv 8 w 0))
  | 7 => .ok (.st8 (bv 6 w 18) (bv 4 w 14) (bv 6 w 8) (bv 8 w 0))
  | 8 => .ok (.st16 (bv 6 w 18) (bv 4 w 14) (bv 6 w 8) (bv 8 w 0))
  | 9 => .ok (.st32 (bv 6 w 18) (bv 4 w 14) (bv 6 w 8) (bv 8 w 0))
  | 10 => .ok (.st64 (bv 6 w 18) (bv 4 w 14) (bv 6 w 8) (bv 8 w 0))
  | 11 => .ok (.st128 (bv 6 w 18) (bv 4 w 14) (bv 6 w 8) (bv 8 w 0))
  | 12 => if zf w 2 6 then .ok (.lda (bv 6 w 18) (bv 4 w 14) (bv 6 w 8) (bv 2 w 0)) else .error (.reservedField 156)
  | 13 => if zf w 18 6 then .ok (.stl (bv 4 w 14) (bv 6 w 8) (bv 6 w 2) (bv 2 w 0)) else .error (.reservedField 157)
  | 14 => if zf w 20 4 then .ok (.pref (bv 2 w 18) (bv 4 w 14) (bv 6 w 8) (bv 8 w 0)) else .error (.reservedField 158)
  | 15 => if zf w 22 2 then .ok (.ldc (bv 4 w 18) (bv 4 w 14) (bv 6 w 8) (bv 8 w 0)) else .error (.reservedField 159)
  | _ => .error (.unassigned (w / 2 ^ 24 % 256))

/-- Opcodes 0xA0 to 0xAF (R294): w is the slot, x and y the words of the two following slots. -/
def decodeRowA (w _x _y : Nat) : Except DecodeReject Instr :=
  match w / 2 ^ 24 % 16 with
  | 0 => if zf w 22 2 then .ok (.stc (bv 4 w 18) (bv 4 w 14) (bv 6 w 8) (bv 8 w 0)) else .error (.reservedField 160)
  | 1 => if zf w 0 12 && zf w 16 2 && zf w 22 2 then .ok (.cmov (bv 4 w 18) (bv 4 w 12)) else .error (.reservedField 161)
  | 2 => if zf w 0 6 && zf w 16 2 && zf w 22 2 then .ok (.cadd (bv 4 w 18) (bv 4 w 12) (bv 6 w 6)) else .error (.reservedField 162)
  | 3 => if zf w 16 2 && zf w 22 2 then .ok (.cnarrow (bv 4 w 18) (bv 4 w 12) (bv 6 w 6) (bv 6 w 0)) else .error (.reservedField 163)
  | 4 => if zf w 8 4 && zf w 16 2 && zf w 22 2 then .ok (.cdrop (bv 4 w 18) (bv 4 w 12) (bv 8 w 0)) else .error (.reservedField 164)
  | 5 => if zf w 3 9 && zf w 16 2 then .ok (.cget (bv 6 w 18) (bv 4 w 12) (bv 3 w 0)) else .error (.reservedField 165)
  | 6 => if zf w 0 6 && zf w 16 2 then .ok (.ctest (bv 3 w 21) (bv 3 w 18) (bv 4 w 12) (bv 6 w 6)) else .error (.reservedField 166)
  | 7 => .ok (.tld (bv 5 w 19) (bv 5 w 14) (bv 4 w 10) (bv 6 w 4) (bit w 3) (bv 3 w 0))
  | 8 => .ok (.tst (bv 5 w 19) (bv 5 w 14) (bv 4 w 10) (bv 6 w 4) (bit w 3) (bv 3 w 0))
  | _ => .error (.unassigned (w / 2 ^ 24 % 256))

/-- Opcodes 0xB0 to 0xBF (R294): w is the slot, x and y the words of the two following slots. -/
def decodeRowB (w x _y : Nat) : Except DecodeReject Instr :=
  match w / 2 ^ 24 % 16 with
  | 0 => .ok (.aadd (bv 6 w 18) (bv 4 w 14) (bv 6 w 8) (bv 6 w 2) (bv 2 w 0))
  | 1 => .ok (.aand (bv 6 w 18) (bv 4 w 14) (bv 6 w 8) (bv 6 w 2) (bv 2 w 0))
  | 2 => .ok (.aor (bv 6 w 18) (bv 4 w 14) (bv 6 w 8) (bv 6 w 2) (bv 2 w 0))
  | 3 => .ok (.axor (bv 6 w 18) (bv 4 w 14) (bv 6 w 8) (bv 6 w 2) (bv 2 w 0))
  | 4 => .ok (.amins (bv 6 w 18) (bv 4 w 14) (bv 6 w 8) (bv 6 w 2) (bv 2 w 0))
  | 5 => .ok (.aminz (bv 6 w 18) (bv 4 w 14) (bv 6 w 8) (bv 6 w 2) (bv 2 w 0))
  | 6 => .ok (.amaxs (bv 6 w 18) (bv 4 w 14) (bv 6 w 8) (bv 6 w 2) (bv 2 w 0))
  | 7 => .ok (.amaxz (bv 6 w 18) (bv 4 w 14) (bv 6 w 8) (bv 6 w 2) (bv 2 w 0))
  | 8 => .ok (.axchg (bv 6 w 18) (bv 4 w 14) (bv 6 w 8) (bv 6 w 2) (bv 2 w 0))
  | 9 => .ok (.acas (bv 6 w 18) (bv 4 w 14) (bv 6 w 8) (bv 6 w 2) (bv 2 w 0))
  | 10 => .ok (.aadd64 (bv 6 w 18) (bv 4 w 14) (bv 6 w 8) (bv 6 w 2) (bv 2 w 0))
  | 11 => if zf w 20 4 && zf x 3 29 then .ok (.rfadd (bv 2 w 18) (bv 4 w 14) (bv 6 w 8) (bv 6 w 2) (bv 2 w 0) (bv 3 x 0)) else .error (.reservedField 187)
  | 12 => if zf w 20 4 && zf x 3 29 then .ok (.rfmin (bv 2 w 18) (bv 4 w 14) (bv 6 w 8) (bv 6 w 2) (bv 2 w 0) (bv 3 x 0)) else .error (.reservedField 188)
  | 13 => if zf w 20 4 && zf x 3 29 then .ok (.rfmax (bv 2 w 18) (bv 4 w 14) (bv 6 w 8) (bv 6 w 2) (bv 2 w 0) (bv 3 x 0)) else .error (.reservedField 189)
  | 14 => if zf w 18 6 then .ok (.radd (bv 4 w 14) (bv 6 w 8) (bv 6 w 2) (bv 2 w 0)) else .error (.reservedField 190)
  | 15 => if zf x 3 29 then .ok (.afadd (bv 6 w 18) (bv 4 w 14) (bv 6 w 8) (bv 6 w 2) (bv 2 w 0) (bv 3 x 0)) else .error (.reservedField 191)
  | _ => .error (.unassigned (w / 2 ^ 24 % 256))

/-- Opcodes 0xC0 to 0xCF (R294): w is the slot, x and y the words of the two following slots. -/
def decodeRowC (w _x _y : Nat) : Except DecodeReject Instr :=
  match w / 2 ^ 24 % 16 with
  | 0 => if zf w 3 21 then .ok (.rel (bv 3 w 0)) else .error (.reservedField 192)
  | 1 => if zf w 3 21 then .ok (.acq (bv 3 w 0)) else .error (.reservedField 193)
  | 2 => if zf w 3 21 then .ok (.phase (bv 3 w 0)) else .error (.reservedField 194)
  | 3 => if zf w 0 24 then .ok (.fence) else .error (.reservedField 195)
  | 4 => if zf w 0 24 then .ok (.ifence) else .error (.reservedField 196)
  | 5 => if zf w 16 2 then .ok (.qfence (bv 6 w 18) (bv 16 w 0)) else .error (.reservedField 197)
  | 6 => if zf w 12 12 then .ok (.bar (bv 4 w 8) (bv 8 w 0)) else .error (.reservedField 198)
  | 7 => if zf w 12 12 then .ok (.bara (bv 4 w 8) (bv 8 w 0)) else .error (.reservedField 199)
  | 8 => if zf w 12 12 then .ok (.barw (bv 4 w 8) (bv 8 w 0)) else .error (.reservedField 200)
  | 9 => if zf w 20 4 then .ok (.waitm (bv 2 w 18) (bv 4 w 14) (bv 6 w 8) (bv 6 w 2) (bv 2 w 0)) else .error (.reservedField 201)
  | 10 => .ok (.notify (bv 6 w 18) (bv 4 w 14) (bv 6 w 8) (bv 8 w 0))
  | 11 => if zf w 0 12 && zf w 17 1 then .ok (.waitt (bv 6 w 18) (bv 5 w 12)) else .error (.reservedField 203)
  | 12 => if zf w 12 12 then .ok (.sleep (bv 12 w 0)) else .error (.reservedField 204)
  | _ => .error (.unassigned (w / 2 ^ 24 % 256))

/-- Opcodes 0xD0 to 0xDF (R294): w is the slot, x and y the words of the two following slots. -/
def decodeRowD (w x _y : Nat) : Except DecodeReject Instr :=
  match w / 2 ^ 24 % 16 with
  | 0 => .ok (.handle (bv 12 w 12) (bv 12 w 0) (bv 16 x 16) (bv 16 x 0))
  | 1 => if zf w 0 24 then .ok (.unhandle) else .error (.reservedField 209)
  | 2 => if zf w 0 6 then .ok (.perform (bv 12 w 12) (bv 6 w 6)) else .error (.reservedField 210)
  | 3 => if zf w 0 6 && zf w 18 6 then .ok (.performr (bv 6 w 12) (bv 6 w 6)) else .error (.reservedField 211)
  | 4 => if zf w 1 5 && zf w 16 8 then .ok (.resume (bv 4 w 12) (bv 6 w 6) (bit w 0)) else .error (.reservedField 212)
  | 5 => if zf w 16 2 && zf w 19 5 then .ok (.resumex (bit w 18) (bv 4 w 12) (bv 6 w 6) (bv 6 w 0)) else .error (.reservedField 213)
  | 6 => if zf w 0 12 && zf w 16 8 then .ok (.discard (bv 4 w 12)) else .error (.reservedField 214)
  | 7 => if zf w 0 12 && zf w 18 6 then .ok (.hret (bv 6 w 12)) else .error (.reservedField 215)
  | 8 => if zf w 16 2 && zf w 22 2 then .ok (.spawn (bv 4 w 18) (bv 4 w 12) (bv 6 w 6) (bv 6 w 0)) else .error (.reservedField 216)
  | 9 => .ok (.cmigr (bv 5 w 19) (bv 5 w 14) (bv 4 w 10) (bv 6 w 4) (bv 4 w 0))
  | _ => .error (.unassigned (w / 2 ^ 24 % 256))

/-- Opcodes 0xE0 to 0xEF (R294): w is the slot, x and y the words of the two following slots. -/
def decodeRowE (w _x _y : Nat) : Except DecodeReject Instr :=
  match w / 2 ^ 24 % 16 with
  | 0 => if zf w 0 4 && zf w 16 3 then .ok (.mma (bv 5 w 19) (bv 2 w 14) (bv 4 w 10) (bv 6 w 4)) else .error (.reservedField 224)
  | 1 => if zf w 0 4 && zf w 16 3 then .ok (.mzero (bv 5 w 19) (bv 2 w 14) (bv 4 w 10) (bv 6 w 4)) else .error (.reservedField 225)
  | 2 => if zf w 16 3 then .ok (.mdrain (bv 5 w 19) (bv 2 w 14) (bv 4 w 10) (bv 6 w 4) (bit w 3) (bv 3 w 0)) else .error (.reservedField 226)
  | 3 => if zf w 18 1 then .ok (.copy (bv 5 w 19) (bv 4 w 14) (bv 4 w 10) (bv 6 w 4) (bit w 3) (bv 3 w 0)) else .error (.reservedField 227)
  | 4 => if zf w 18 1 then .ok (.copyt (bv 5 w 19) (bv 4 w 14) (bv 4 w 10) (bv 6 w 4) (bit w 3) (bv 3 w 0)) else .error (.reservedField 228)
  | 5 => if zf w 18 1 then .ok (.xput (bv 5 w 19) (bv 4 w 14) (bv 4 w 10) (bv 6 w 4) (bit w 3) (bv 3 w 0)) else .error (.reservedField 229)
  | 6 => if zf w 18 1 then .ok (.xget (bv 5 w 19) (bv 4 w 14) (bv 4 w 10) (bv 6 w 4) (bit w 3) (bv 3 w 0)) else .error (.reservedField 230)
  | 7 => if zf w 0 4 && zf w 18 1 then .ok (.dpost (bv 5 w 19) (bv 4 w 14) (bv 4 w 10) (bv 6 w 4)) else .error (.reservedField 231)
  | 8 => if zf w 18 1 then .ok (.send (bv 5 w 19) (bv 4 w 14) (bv 4 w 10) (bv 6 w 4) (bit w 3) (bv 3 w 0)) else .error (.reservedField 232)
  | 9 => if zf w 18 1 then .ok (.rpost (bv 5 w 19) (bv 4 w 14) (bv 4 w 10) (bv 6 w 4) (bit w 3) (bv 3 w 0)) else .error (.reservedField 233)
  | 10 => if zf w 0 4 && zf w 14 5 then .ok (.rcall (bv 5 w 19) (bv 4 w 10) (bv 6 w 4)) else .error (.reservedField 234)
  | 11 => if zf w 0 12 && zf w 17 1 then .ok (.tokq (bv 6 w 18) (bv 5 w 12)) else .error (.reservedField 235)
  | _ => .error (.unassigned (w / 2 ^ 24 % 256))

/-- Opcodes 0xF0 to 0xFF (R294): w is the slot, x and y the words of the two following slots. -/
def decodeRowF (w _x _y : Nat) : Except DecodeReject Instr :=
  match w / 2 ^ 24 % 16 with
  | 0 => if zf w 0 6 then .ok (.gets (bv 6 w 18) (bv 12 w 6)) else .error (.reservedField 240)
  | 1 => if zf w 0 6 then .ok (.sets (bv 6 w 18) (bv 12 w 6)) else .error (.reservedField 241)
  | 2 => if zf w 0 12 && zf w 17 1 then .ok (.getg (bv 6 w 18) (bv 5 w 12)) else .error (.reservedField 242)
  | 3 => if zf w 0 12 && zf w 23 1 then .ok (.setg (bv 5 w 18) (bv 6 w 12)) else .error (.reservedField 243)
  | 4 => if zf w 0 24 then .ok (.brk) else .error (.reservedField 244)
  | 5 => if zf w 12 12 then .ok (.svc (bv 12 w 0)) else .error (.reservedField 245)
  | 6 => if zf w 0 6 && zf w 16 8 then .ok (.oinv (bv 4 w 12) (bv 6 w 6)) else .error (.reservedField 246)
  | _ => .error (.unassigned (w / 2 ^ 24 % 256))

/-- The instruction of a slot word (R292): w is the slot, x and y the words of the two following slots, read only by the L and W forms (R286). -/
def decodeSlot (w x y : Nat) : Except DecodeReject Instr :=
  match w / 2 ^ 28 % 16 with
  | 0 => decodeRow0 w x y
  | 1 => decodeRow1 w x y
  | 2 => decodeRow2 w x y
  | 3 => decodeRow3 w x y
  | 4 => decodeRow4 w x y
  | 5 => decodeRow5 w x y
  | 6 => decodeRow6 w x y
  | 8 => decodeRow8 w x y
  | 9 => decodeRow9 w x y
  | 10 => decodeRowA w x y
  | 11 => decodeRowB w x y
  | 12 => decodeRowC w x y
  | 13 => decodeRowD w x y
  | 14 => decodeRowE w x y
  | 15 => decodeRowF w x y
  | _ => .error (.unassigned (w / 2 ^ 24 % 256))

/-- A flag as a number. -/
def b2n (b : Bool) : Nat := if b then 1 else 0

/-- A word from its fixed bits and its fields, each a value and its lowest bit. -/
def enc (base : Nat) : List (Nat × Nat) → Nat
  | [] => base
  | (v, lo) :: fs => v * 2 ^ lo + enc base fs

/-- The 32-bit words of an instruction: the slot and its extension words; an event has none (R290). -/
def encode : Instr → List Nat
  | .ctrlReset => []
  | .ctrlFwgo => []
  | .ctrlRaise => []
  | .acceptWrite _ _ => []
  | .mgmtRegisterWrite _ _ _ => []
  | .powerGood _ => []
  | .pcieLinkTrained => []
  | .dieMemoryInitialised _ _ => []
  | .lockstepMismatch _ => []
  | .leaderBeat => []
  | .leaderTakeover => []
  | .throttleEvaluation => []
  | .throttleStep => []
  | .sensorSampling _ => []
  | .hbmRefresh => []
  | .patrolScrub _ => []
  | .recalibration => []
  | .telemetryCollection => []
  | .linkstatRefresh => []
  | .nodeTimeSync => []
  | .timeSynchronisation => []
  | .pairFailure _ => []
  | .spareSubstitution _ => []
  | .laneCodewordSend _ _ => []
  | .codewordReceive _ _ _ _ => []
  | .idle => []
  | .laneAcknowledgement => []
  | .laneReplay => []
  | .creditReturn => []
  | .barrierArrival => []
  | .livenessAndLinkState => []
  | .livenessSend => []
  | .peerDead _ => []
  | .foldingTableHeartbeat => []
  | .heartbeatSend => []
  | .standbyTakeover => []
  | .ldreq => []
  | .ldrsp => []
  | .streq => []
  | .atreq => []
  | .atrsp => []
  | .ack => []
  | .nack => []
  | .tldreq => []
  | .tlddat => []
  | .tstdat => []
  | .put => []
  | .getreq => []
  | .getdat => []
  | .shoot => []
  | .shootDownOverdue _ _ _ => []
  | .cmig => []
  | .note => []
  | .detourRelay => []
  | .remoteRequestTimeout _ _ => []
  | .fabricTimeout _ => []
  | .exchangeDpost => []
  | .collectionClose _ => []
  | .calendar => []
  | .dpostTimeout _ => []
  | .foldWindowStart _ _ => []
  | .foldWindowEnd _ _ => []
  | .closeSend _ => []
  | .close => []
  | .closeTimeout _ => []
  | .lateCloseCompletion _ => []
  | .scaleoutData => []
  | .scaleoutAck => []
  | .rnr => []
  | .rnrResend _ => []
  | .delayedAck _ => []
  | .retransmissionTimer _ => []
  | .contextFetch _ _ => []
  | .connectionOpen _ _ _ _ => []
  | .connectionClose _ => []
  | .peerClose _ => []
  | .hrdr => []
  | .hwra => []
  | .drd => []
  | .dwr => []
  | .trayNote => []
  | .rply => []
  | .trayNack => []
  | .hostRequestTimeout _ _ => []
  | .tdiRun _ _ _ => []
  | .tdiLeaveRun _ => []
  | .doeMessage _ _ => []
  | .recordConsumption _ => []
  | .dependenceMet _ => []
  | .launchHandover _ => []
  | .launchCompletion _ => []
  | .gangPlacement => []
  | .parkEviction => []
  | .quantumExpiry _ _ => []
  | .coreHalt _ _ => []
  | .contextImageSaved _ _ => []
  | .gangRestoration _ _ => []
  | .workgroupRetirement _ _ => []
  | .hamperWindowEnd _ => []
  | .hamperRelease _ _ => []
  | .regionMigration _ => []
  | .translationWalk _ _ _ _ => []
  | .l1WriteBack _ => []
  | .releaseComplete _ => []
  | .resultWriteback _ => []
  | .icacheFill _ _ _ _ => []
  | .cupboardFill _ _ _ => []
  | .tileLatchGrant _ => []
  | .tileUnlatch _ => []
  | .tokenCompletion _ => []
  | .sleepExpiry => []
  | .serviceCallReply => []
  | .bra o => [enc 0x1000000 [(o.toNat, 0)]]
  | .bru o => [enc 0x2000000 [(o.toNat, 0)]]
  | .bway w0 w1 w2 w3 t0 t1 t2 t3 => [enc 0x3000000 [(w0.toNat, 20), (w1.toNat, 16), (w2.toNat, 12), (w3.toNat, 8)], enc 0 [(t0.toNat, 0), (t1.toNat, 16)], enc 0 [(t2.toNat, 0), (t3.toNat, 16)]]
  | .call o => [enc 0x4000000 [(o.toNat, 0)]]
  | .calli c x i => [enc 0x5000000 [(c.toNat, 14), (x.toNat, 8), (i.toNat, 0)]]
  | .jmpi c x i => [enc 0x6000000 [(c.toNat, 14), (x.toNat, 8), (i.toNat, 0)]]
  | .ret => [enc 0x7000000 []]
  | .meet i => [enc 0x8000000 [(i.toNat, 0)]]
  | .exit => [enc 0x9000000 []]
  | .nop => [enc 0xa000000 []]
  | .frame i => [enc 0xb000000 [(i.toNat, 0)]]
  | .unframe => [enc 0xc000000 []]
  | .loop d i => [enc 0xd000000 [(d.toNat, 18), (i.toNat, 0)]]
  | .assert n p => [enc 0xe000000 [(b2n n, 3), (p.toNat, 0)]]
  | .add d a b g s u => [enc 0x10000000 [(d.toNat, 18), (a.toNat, 12), (b.toNat, 6), (b2n g, 5), (b2n s, 4), (b2n u, 3)]]
  | .addi d a i => [enc 0x11000000 [(d.toNat, 18), (a.toNat, 12), (i.toNat, 0)]]
  | .sub d a b g s u => [enc 0x12000000 [(d.toNat, 18), (a.toNat, 12), (b.toNat, 6), (b2n g, 5), (b2n s, 4), (b2n u, 3)]]
  | .addc d a b g => [enc 0x13000000 [(d.toNat, 18), (a.toNat, 12), (b.toNat, 6), (b2n g, 5)]]
  | .mul d a b g s u => [enc 0x14000000 [(d.toNat, 18), (a.toNat, 12), (b.toNat, 6), (b2n g, 5), (b2n s, 4), (b2n u, 3)]]
  | .mulhi d a b g u => [enc 0x15000000 [(d.toNat, 18), (a.toNat, 12), (b.toNat, 6), (b2n g, 5), (b2n u, 3)]]
  | .mad d a b c => [enc 0x16000000 [(d.toNat, 18), (a.toNat, 12), (b.toNat, 6), (c.toNat, 0)]]
  | .madw d a b c => [enc 0x17000000 [(d.toNat, 18), (a.toNat, 12), (b.toNat, 6), (c.toNat, 0)]]
  | .div d a b g s u => [enc 0x18000000 [(d.toNat, 18), (a.toNat, 12), (b.toNat, 6), (b2n g, 5), (b2n s, 4), (b2n u, 3)]]
  | .rem d a b g u => [enc 0x19000000 [(d.toNat, 18), (a.toNat, 12), (b.toNat, 6), (b2n g, 5), (b2n u, 3)]]
  | .min d a b g u => [enc 0x1a000000 [(d.toNat, 18), (a.toNat, 12), (b.toNat, 6), (b2n g, 5), (b2n u, 3)]]
  | .max d a b g u => [enc 0x1b000000 [(d.toNat, 18), (a.toNat, 12), (b.toNat, 6), (b2n g, 5), (b2n u, 3)]]
  | .abs d a g s => [enc 0x1c000000 [(d.toNat, 18), (a.toNat, 12), (b2n g, 5), (b2n s, 4)]]
  | .neg d a g s => [enc 0x1d000000 [(d.toNat, 18), (a.toNat, 12), (b2n g, 5), (b2n s, 4)]]
  | .and d a b g => [enc 0x1e000000 [(d.toNat, 18), (a.toNat, 12), (b.toNat, 6), (b2n g, 5)]]
  | .andi d a i => [enc 0x1f000000 [(d.toNat, 18), (a.toNat, 12), (i.toNat, 0)]]
  | .or d a b g => [enc 0x20000000 [(d.toNat, 18), (a.toNat, 12), (b.toNat, 6), (b2n g, 5)]]
  | .ori d a i => [enc 0x21000000 [(d.toNat, 18), (a.toNat, 12), (i.toNat, 0)]]
  | .xor d a b g => [enc 0x22000000 [(d.toNat, 18), (a.toNat, 12), (b.toNat, 6), (b2n g, 5)]]
  | .xori d a i => [enc 0x23000000 [(d.toNat, 18), (a.toNat, 12), (i.toNat, 0)]]
  | .andn d a b g => [enc 0x24000000 [(d.toNat, 18), (a.toNat, 12), (b.toNat, 6), (b2n g, 5)]]
  | .shl d a b g s u => [enc 0x25000000 [(d.toNat, 18), (a.toNat, 12), (b.toNat, 6), (b2n g, 5), (b2n s, 4), (b2n u, 3)]]
  | .shli d a k => [enc 0x26000000 [(d.toNat, 18), (a.toNat, 12), (k.toNat, 0)]]
  | .shr d a b g u => [enc 0x27000000 [(d.toNat, 18), (a.toNat, 12), (b.toNat, 6), (b2n g, 5), (b2n u, 3)]]
  | .shri d a z k => [enc 0x28000000 [(d.toNat, 18), (a.toNat, 12), (b2n z, 5), (k.toNat, 0)]]
  | .rot d a b g => [enc 0x29000000 [(d.toNat, 18), (a.toNat, 12), (b.toNat, 6), (b2n g, 5)]]
  | .funnel d a b c => [enc 0x2a000000 [(d.toNat, 18), (a.toNat, 12), (b.toNat, 6), (c.toNat, 0)]]
  | .bfx d a b g u => [enc 0x2b000000 [(d.toNat, 18), (a.toNat, 12), (b.toNat, 6), (b2n g, 5), (b2n u, 3)]]
  | .bfi d a b c => [enc 0x2c000000 [(d.toNat, 18), (a.toNat, 12), (b.toNat, 6), (c.toNat, 0)]]
  | .popc d a g => [enc 0x2d000000 [(d.toNat, 18), (a.toNat, 12), (b2n g, 5)]]
  | .clz d a g => [enc 0x2e000000 [(d.toNat, 18), (a.toNat, 12), (b2n g, 5)]]
  | .ctz d a g => [enc 0x2f000000 [(d.toNat, 18), (a.toNat, 12), (b2n g, 5)]]
  | .brev d a g => [enc 0x30000000 [(d.toNat, 18), (a.toNat, 12), (b2n g, 5)]]
  | .sel d a b g n p => [enc 0x31000000 [(d.toNat, 18), (a.toNat, 12), (b.toNat, 6), (b2n g, 5), (b2n n, 3), (p.toNat, 0)]]
  | .cmp k p a b g n => [enc 0x32000000 [(k.toNat, 21), (p.toNat, 18), (a.toNat, 12), (b.toNat, 6), (b2n g, 5), (n.toNat, 0)]]
  | .cmpi k p a i n => [enc 0x33000000 [(k.toNat, 21), (p.toNat, 18), (a.toNat, 12), (i.toNat, 3), (n.toNat, 0)]]
  | .plog k p a b t => [enc 0x34000000 [(k.toNat, 21), (p.toNat, 18), (a.toNat, 12), (b.toNat, 6), (t.toNat, 0)]]
  | .mov d a g => [enc 0x35000000 [(d.toNat, 18), (a.toNat, 12), (b2n g, 5)]]
  | .movi d i => [enc 0x36000000 [(d.toNat, 18), (i.toNat, 0)]]
  | .movl d i => [enc 0x37000000 [(d.toNat, 18)], enc 0 [(i.toNat, 0)]]
  | .addl d a i => [enc 0x38000000 [(d.toNat, 18), (a.toNat, 12)], enc 0 [(i.toNat, 0)]]
  | .muli d a i => [enc 0x39000000 [(d.toNat, 18), (a.toNat, 12), (i.toNat, 0)]]
  | .fadd d a b g t r => [enc 0x40000000 [(d.toNat, 18), (a.toNat, 12), (b.toNat, 6), (b2n g, 5), (t.toNat, 3), (r.toNat, 0)]]
  | .fsub d a b g t r => [enc 0x41000000 [(d.toNat, 18), (a.toNat, 12), (b.toNat, 6), (b2n g, 5), (t.toNat, 3), (r.toNat, 0)]]
  | .fmul d a b g t r => [enc 0x42000000 [(d.toNat, 18), (a.toNat, 12), (b.toNat, 6), (b2n g, 5), (t.toNat, 3), (r.toNat, 0)]]
  | .ffma d a b c => [enc 0x43000000 [(d.toNat, 18), (a.toNat, 12), (b.toNat, 6), (c.toNat, 0)]]
  | .hfma2 d a b c => [enc 0x44000000 [(d.toNat, 18), (a.toNat, 12), (b.toNat, 6), (c.toNat, 0)]]
  | .bfma2 d a b c => [enc 0x45000000 [(d.toNat, 18), (a.toNat, 12), (b.toNat, 6), (c.toNat, 0)]]
  | .fmin d a b g t => [enc 0x46000000 [(d.toNat, 18), (a.toNat, 12), (b.toNat, 6), (b2n g, 5), (t.toNat, 3)]]
  | .fmax d a b g t => [enc 0x47000000 [(d.toNat, 18), (a.toNat, 12), (b.toNat, 6), (b2n g, 5), (t.toNat, 3)]]
  | .fabs d a g t => [enc 0x48000000 [(d.toNat, 18), (a.toNat, 12), (b2n g, 5), (t.toNat, 3)]]
  | .fneg d a g t => [enc 0x49000000 [(d.toNat, 18), (a.toNat, 12), (b2n g, 5), (t.toNat, 3)]]
  | .fcmp k p a b g t n => [enc 0x4a000000 [(k.toNat, 21), (p.toNat, 18), (a.toNat, 12), (b.toNat, 6), (b2n g, 5), (t.toNat, 3), (n.toNat, 0)]]
  | .fclass d a g t => [enc 0x4b000000 [(d.toNat, 18), (a.toNat, 12), (b2n g, 5), (t.toNat, 3)]]
  | .frcp d a g t r => [enc 0x4c000000 [(d.toNat, 18), (a.toNat, 12), (b2n g, 5), (t.toNat, 3), (r.toNat, 0)]]
  | .frsq d a g t r => [enc 0x4d000000 [(d.toNat, 18), (a.toNat, 12), (b2n g, 5), (t.toNat, 3), (r.toNat, 0)]]
  | .fsqrt d a g t r => [enc 0x4e000000 [(d.toNat, 18), (a.toNat, 12), (b2n g, 5), (t.toNat, 3), (r.toNat, 0)]]
  | .fdiv d a b g t r => [enc 0x4f000000 [(d.toNat, 18), (a.toNat, 12), (b.toNat, 6), (b2n g, 5), (t.toNat, 3), (r.toNat, 0)]]
  | .fexp2 d a g t r => [enc 0x50000000 [(d.toNat, 18), (a.toNat, 12), (b2n g, 5), (t.toNat, 3), (r.toNat, 0)]]
  | .flog2 d a g t r => [enc 0x51000000 [(d.toNat, 18), (a.toNat, 12), (b2n g, 5), (t.toNat, 3), (r.toNat, 0)]]
  | .fsinpi d a g t r => [enc 0x52000000 [(d.toNat, 18), (a.toNat, 12), (b2n g, 5), (t.toNat, 3), (r.toNat, 0)]]
  | .fcospi d a g t r => [enc 0x53000000 [(d.toNat, 18), (a.toNat, 12), (b2n g, 5), (t.toNat, 3), (r.toNat, 0)]]
  | .ftanh d a g t r => [enc 0x54000000 [(d.toNat, 18), (a.toNat, 12), (b2n g, 5), (t.toNat, 3), (r.toNat, 0)]]
  | .fround d a g t r => [enc 0x55000000 [(d.toNat, 18), (a.toNat, 12), (b2n g, 5), (t.toNat, 3), (r.toNat, 0)]]
  | .fscale d a b g t r => [enc 0x56000000 [(d.toNat, 18), (a.toNat, 12), (b.toNat, 6), (b2n g, 5), (t.toNat, 3), (r.toNat, 0)]]
  | .fdot2 d a b c => [enc 0x57000000 [(d.toNat, 18), (a.toNat, 12), (b.toNat, 6), (c.toNat, 0)]]
  | .bdot2 d a b c => [enc 0x58000000 [(d.toNat, 18), (a.toNat, 12), (b.toNat, 6), (c.toNat, 0)]]
  | .cvt d a s f r t => [enc 0x60000000 [(d.toNat, 18), (a.toNat, 12), (s.toNat, 9), (f.toNat, 6), (r.toNat, 3), (b2n t, 2)]]
  | .qpack d a b t s => [enc 0x61000000 [(d.toNat, 18), (a.toNat, 12), (b.toNat, 6), (b2n t, 3), (s.toNat, 0)]]
  | .qpack4 d a b t s => [enc 0x62000000 [(d.toNat, 18), (a.toNat, 12), (b.toNat, 6), (b2n t, 3), (s.toNat, 0)]]
  | .qunpk d a b h s => [enc 0x63000000 [(d.toNat, 18), (a.toNat, 12), (b.toNat, 6), (h.toNat, 4), (s.toNat, 0)]]
  | .dot4 d a b c => [enc 0x64000000 [(d.toNat, 18), (a.toNat, 12), (b.toNat, 6), (c.toNat, 0)]]
  | .dot8 d a b c => [enc 0x65000000 [(d.toNat, 18), (a.toNat, 12), (b.toNat, 6), (c.toNat, 0)]]
  | .fdot4 d a b c => [enc 0x66000000 [(d.toNat, 18), (a.toNat, 12), (b.toNat, 6), (c.toNat, 0)]]
  | .mac2 d a b c => [enc 0x67000000 [(d.toNat, 18), (a.toNat, 12), (b.toNat, 6), (c.toNat, 0)]]
  | .shrr d a b g s u => [enc 0x68000000 [(d.toNat, 18), (a.toNat, 12), (b.toNat, 6), (b2n g, 5), (b2n s, 4), (b2n u, 3)]]
  | .pk16 d a b g s u => [enc 0x69000000 [(d.toNat, 18), (a.toNat, 12), (b.toNat, 6), (b2n g, 5), (b2n s, 4), (b2n u, 3)]]
  | .scalep a s => [enc 0x6a000000 [(a.toNat, 12), (s.toNat, 0)]]
  | .scalec s => [enc 0x6b000000 [(s.toNat, 0)]]
  | .scaleg d s => [enc 0x6c000000 [(d.toNat, 18), (s.toNat, 0)]]
  | .add2 d a b g s u => [enc 0x6d000000 [(d.toNat, 18), (a.toNat, 12), (b.toNat, 6), (b2n g, 5), (b2n s, 4), (b2n u, 3)]]
  | .sub2 d a b g s u => [enc 0x6e000000 [(d.toNat, 18), (a.toNat, 12), (b.toNat, 6), (b2n g, 5), (b2n s, 4), (b2n u, 3)]]
  | .mul2 d a b g s u => [enc 0x6f000000 [(d.toNat, 18), (a.toNat, 12), (b.toNat, 6), (b2n g, 5), (b2n s, 4), (b2n u, 3)]]
  | .shfl d a b => [enc 0x80000000 [(d.toNat, 18), (a.toNat, 12), (b.toNat, 6)]]
  | .shflx d a b => [enc 0x81000000 [(d.toNat, 18), (a.toNat, 12), (b.toNat, 6)]]
  | .slide d a b u k => [enc 0x82000000 [(d.toNat, 18), (a.toNat, 12), (b.toNat, 6), (b2n u, 5), (k.toNat, 0)]]
  | .voteBallot d s => [enc 0x83000000 [(d.toNat, 18), (s.toNat, 3)]]
  | .voteAny k p s => [enc 0x83000001 [(k.toNat, 21), (p.toNat, 18), (s.toNat, 3)]]
  | .voteAll k p s => [enc 0x83000002 [(k.toNat, 21), (p.toNat, 18), (s.toNat, 3)]]
  | .voteCount d s => [enc 0x83000003 [(d.toNat, 18), (s.toNat, 3)]]
  | .cred d a o => [enc 0x84000000 [(d.toNat, 18), (a.toNat, 12), (o.toNat, 0)]]
  | .cscan d a x o => [enc 0x85000000 [(d.toNat, 18), (a.toNat, 12), (b2n x, 4), (o.toNat, 0)]]
  | .cmask a m => [enc 0x86000000 [(a.toNat, 12), (m.toNat, 0)]]
  | .elect p a => [enc 0x87000000 [(p.toNat, 18), (a.toNat, 12)]]
  | .matchv d a => [enc 0x88000000 [(d.toNat, 18), (a.toNat, 12)]]
  | .ld8s t c x i => [enc 0x90000000 [(t.toNat, 18), (c.toNat, 14), (x.toNat, 8), (i.toNat, 0)]]
  | .ld8z t c x i => [enc 0x91000000 [(t.toNat, 18), (c.toNat, 14), (x.toNat, 8), (i.toNat, 0)]]
  | .ld16s t c x i => [enc 0x92000000 [(t.toNat, 18), (c.toNat, 14), (x.toNat, 8), (i.toNat, 0)]]
  | .ld16z t c x i => [enc 0x93000000 [(t.toNat, 18), (c.toNat, 14), (x.toNat, 8), (i.toNat, 0)]]
  | .ld32 t c x i => [enc 0x94000000 [(t.toNat, 18), (c.toNat, 14), (x.toNat, 8), (i.toNat, 0)]]
  | .ld64 t c x i => [enc 0x95000000 [(t.toNat, 18), (c.toNat, 14), (x.toNat, 8), (i.toNat, 0)]]
  | .ld128 t c x i => [enc 0x96000000 [(t.toNat, 18), (c.toNat, 14), (x.toNat, 8), (i.toNat, 0)]]
  | .st8 t c x i => [enc 0x97000000 [(t.toNat, 18), (c.toNat, 14), (x.toNat, 8), (i.toNat, 0)]]
  | .st16 t c x i => [enc 0x98000000 [(t.toNat, 18), (c.toNat, 14), (x.toNat, 8), (i.toNat, 0)]]
  | .st32 t c x i => [enc 0x99000000 [(t.toNat, 18), (c.toNat, 14), (x.toNat, 8), (i.toNat, 0)]]
  | .st64 t c x i => [enc 0x9a000000 [(t.toNat, 18), (c.toNat, 14), (x.toNat, 8), (i.toNat, 0)]]
  | .st128 t c x i => [enc 0x9b000000 [(t.toNat, 18), (c.toNat, 14), (x.toNat, 8), (i.toNat, 0)]]
  | .lda d c x e => [enc 0x9c000000 [(d.toNat, 18), (c.toNat, 14), (x.toNat, 8), (e.toNat, 0)]]
  | .stl c x s e => [enc 0x9d000000 [(c.toNat, 14), (x.toNat, 8), (s.toNat, 2), (e.toNat, 0)]]
  | .pref t c x i => [enc 0x9e000000 [(t.toNat, 18), (c.toNat, 14), (x.toNat, 8), (i.toNat, 0)]]
  | .ldc t c x i => [enc 0x9f000000 [(t.toNat, 18), (c.toNat, 14), (x.toNat, 8), (i.toNat, 0)]]
  | .stc t c x i => [enc 0xa0000000 [(t.toNat, 18), (c.toNat, 14), (x.toNat, 8), (i.toNat, 0)]]
  | .cmov d a => [enc 0xa1000000 [(d.toNat, 18), (a.toNat, 12)]]
  | .cadd d a b => [enc 0xa2000000 [(d.toNat, 18), (a.toNat, 12), (b.toNat, 6)]]
  | .cnarrow d a b c => [enc 0xa3000000 [(d.toNat, 18), (a.toNat, 12), (b.toNat, 6), (c.toNat, 0)]]
  | .cdrop d a m => [enc 0xa4000000 [(d.toNat, 18), (a.toNat, 12), (m.toNat, 0)]]
  | .cget d a f => [enc 0xa5000000 [(d.toNat, 18), (a.toNat, 12), (f.toNat, 0)]]
  | .ctest k p a b => [enc 0xa6000000 [(k.toNat, 21), (p.toNat, 18), (a.toNat, 12), (b.toNat, 6)]]
  | .tld g q c x r s => [enc 0xa7000000 [(g.toNat, 19), (q.toNat, 14), (c.toNat, 10), (x.toNat, 4), (b2n r, 3), (s.toNat, 0)]]
  | .tst g q c x r s => [enc 0xa8000000 [(g.toNat, 19), (q.toNat, 14), (c.toNat, 10), (x.toNat, 4), (b2n r, 3), (s.toNat, 0)]]
  | .aadd d c x s e => [enc 0xb0000000 [(d.toNat, 18), (c.toNat, 14), (x.toNat, 8), (s.toNat, 2), (e.toNat, 0)]]
  | .aand d c x s e => [enc 0xb1000000 [(d.toNat, 18), (c.toNat, 14), (x.toNat, 8), (s.toNat, 2), (e.toNat, 0)]]
  | .aor d c x s e => [enc 0xb2000000 [(d.toNat, 18), (c.toNat, 14), (x.toNat, 8), (s.toNat, 2), (e.toNat, 0)]]
  | .axor d c x s e => [enc 0xb3000000 [(d.toNat, 18), (c.toNat, 14), (x.toNat, 8), (s.toNat, 2), (e.toNat, 0)]]
  | .amins d c x s e => [enc 0xb4000000 [(d.toNat, 18), (c.toNat, 14), (x.toNat, 8), (s.toNat, 2), (e.toNat, 0)]]
  | .aminz d c x s e => [enc 0xb5000000 [(d.toNat, 18), (c.toNat, 14), (x.toNat, 8), (s.toNat, 2), (e.toNat, 0)]]
  | .amaxs d c x s e => [enc 0xb6000000 [(d.toNat, 18), (c.toNat, 14), (x.toNat, 8), (s.toNat, 2), (e.toNat, 0)]]
  | .amaxz d c x s e => [enc 0xb7000000 [(d.toNat, 18), (c.toNat, 14), (x.toNat, 8), (s.toNat, 2), (e.toNat, 0)]]
  | .axchg d c x s e => [enc 0xb8000000 [(d.toNat, 18), (c.toNat, 14), (x.toNat, 8), (s.toNat, 2), (e.toNat, 0)]]
  | .acas d c x s e => [enc 0xb9000000 [(d.toNat, 18), (c.toNat, 14), (x.toNat, 8), (s.toNat, 2), (e.toNat, 0)]]
  | .aadd64 d c x s e => [enc 0xba000000 [(d.toNat, 18), (c.toNat, 14), (x.toNat, 8), (s.toNat, 2), (e.toNat, 0)]]
  | .rfadd t c x s e r => [enc 0xbb000000 [(t.toNat, 18), (c.toNat, 14), (x.toNat, 8), (s.toNat, 2), (e.toNat, 0)], enc 0 [(r.toNat, 0)]]
  | .rfmin t c x s e r => [enc 0xbc000000 [(t.toNat, 18), (c.toNat, 14), (x.toNat, 8), (s.toNat, 2), (e.toNat, 0)], enc 0 [(r.toNat, 0)]]
  | .rfmax t c x s e r => [enc 0xbd000000 [(t.toNat, 18), (c.toNat, 14), (x.toNat, 8), (s.toNat, 2), (e.toNat, 0)], enc 0 [(r.toNat, 0)]]
  | .radd c x s e => [enc 0xbe000000 [(c.toNat, 14), (x.toNat, 8), (s.toNat, 2), (e.toNat, 0)]]
  | .afadd d c x s e r => [enc 0xbf000000 [(d.toNat, 18), (c.toNat, 14), (x.toNat, 8), (s.toNat, 2), (e.toNat, 0)], enc 0 [(r.toNat, 0)]]
  | .rel s => [enc 0xc0000000 [(s.toNat, 0)]]
  | .acq s => [enc 0xc1000000 [(s.toNat, 0)]]
  | .phase s => [enc 0xc2000000 [(s.toNat, 0)]]
  | .fence => [enc 0xc3000000 []]
  | .ifence => [enc 0xc4000000 []]
  | .qfence e m => [enc 0xc5000000 [(e.toNat, 18), (m.toNat, 0)]]
  | .bar l n => [enc 0xc6000000 [(l.toNat, 8), (n.toNat, 0)]]
  | .bara l n => [enc 0xc7000000 [(l.toNat, 8), (n.toNat, 0)]]
  | .barw l n => [enc 0xc8000000 [(l.toNat, 8), (n.toNat, 0)]]
  | .waitm k c x s e => [enc 0xc9000000 [(k.toNat, 18), (c.toNat, 14), (x.toNat, 8), (s.toNat, 2), (e.toNat, 0)]]
  | .notify t c x i => [enc 0xca000000 [(t.toNat, 18), (c.toNat, 14), (x.toNat, 8), (i.toNat, 0)]]
  | .waitt d a => [enc 0xcb000000 [(d.toNat, 18), (a.toNat, 12)]]
  | .sleep i => [enc 0xcc000000 [(i.toNat, 0)]]
  | .handle k m h j => [enc 0xd0000000 [(k.toNat, 12), (m.toNat, 0)], enc 0 [(h.toNat, 16), (j.toNat, 0)]]
  | .unhandle => [enc 0xd1000000 []]
  | .perform t a => [enc 0xd2000000 [(t.toNat, 12), (a.toNat, 6)]]
  | .performr a b => [enc 0xd3000000 [(a.toNat, 12), (b.toNat, 6)]]
  | .resume a b t => [enc 0xd4000000 [(a.toNat, 12), (b.toNat, 6), (b2n t, 0)]]
  | .resumex t a b c => [enc 0xd5000000 [(b2n t, 18), (a.toNat, 12), (b.toNat, 6), (c.toNat, 0)]]
  | .discard a => [enc 0xd6000000 [(a.toNat, 12)]]
  | .hret a => [enc 0xd7000000 [(a.toNat, 12)]]
  | .spawn d a b c => [enc 0xd8000000 [(d.toNat, 18), (a.toNat, 12), (b.toNat, 6), (c.toNat, 0)]]
  | .cmigr g q c x m => [enc 0xd9000000 [(g.toNat, 19), (q.toNat, 14), (c.toNat, 10), (x.toNat, 4), (m.toNat, 0)]]
  | .mma g q c x => [enc 0xe0000000 [(g.toNat, 19), (q.toNat, 14), (c.toNat, 10), (x.toNat, 4)]]
  | .mzero g q c x => [enc 0xe1000000 [(g.toNat, 19), (q.toNat, 14), (c.toNat, 10), (x.toNat, 4)]]
  | .mdrain g q c x t r => [enc 0xe2000000 [(g.toNat, 19), (q.toNat, 14), (c.toNat, 10), (x.toNat, 4), (b2n t, 3), (r.toNat, 0)]]
  | .copy g q c x r s => [enc 0xe3000000 [(g.toNat, 19), (q.toNat, 14), (c.toNat, 10), (x.toNat, 4), (b2n r, 3), (s.toNat, 0)]]
  | .copyt g q c x r s => [enc 0xe4000000 [(g.toNat, 19), (q.toNat, 14), (c.toNat, 10), (x.toNat, 4), (b2n r, 3), (s.toNat, 0)]]
  | .xput g q c x r s => [enc 0xe5000000 [(g.toNat, 19), (q.toNat, 14), (c.toNat, 10), (x.toNat, 4), (b2n r, 3), (s.toNat, 0)]]
  | .xget g q c x r s => [enc 0xe6000000 [(g.toNat, 19), (q.toNat, 14), (c.toNat, 10), (x.toNat, 4), (b2n r, 3), (s.toNat, 0)]]
  | .dpost g q c x => [enc 0xe7000000 [(g.toNat, 19), (q.toNat, 14), (c.toNat, 10), (x.toNat, 4)]]
  | .send g q c x r s => [enc 0xe8000000 [(g.toNat, 19), (q.toNat, 14), (c.toNat, 10), (x.toNat, 4), (b2n r, 3), (s.toNat, 0)]]
  | .rpost g q c x r s => [enc 0xe9000000 [(g.toNat, 19), (q.toNat, 14), (c.toNat, 10), (x.toNat, 4), (b2n r, 3), (s.toNat, 0)]]
  | .rcall g c x => [enc 0xea000000 [(g.toNat, 19), (c.toNat, 10), (x.toNat, 4)]]
  | .tokq d a => [enc 0xeb000000 [(d.toNat, 18), (a.toNat, 12)]]
  | .gets d n => [enc 0xf0000000 [(d.toNat, 18), (n.toNat, 6)]]
  | .sets d n => [enc 0xf1000000 [(d.toNat, 18), (n.toNat, 6)]]
  | .getg d a => [enc 0xf2000000 [(d.toNat, 18), (a.toNat, 12)]]
  | .setg d a => [enc 0xf3000000 [(d.toNat, 18), (a.toNat, 12)]]
  | .brk => [enc 0xf4000000 []]
  | .svc i => [enc 0xf5000000 [(i.toNat, 0)]]
  | .oinv a b => [enc 0xf6000000 [(a.toNat, 12), (b.toNat, 6)]]
  | .illegalInstruction => []
  | .instructionFetchFault => []
  | .linkTrainingComplete _ => []
  | .queueBind _ _ => []
  | .queueUnbind _ => []
  | .objectTableUpdate _ _ _ _ => []
  | .asidCreate _ _ _ _ _ => []
  | .asidDestroy _ => []

/-- Little-endian value of a list of bytes (R4). -/
def leNat : List Byte → Nat
  | [] => 0
  | b :: bs => b.toNat + 256 * leNat bs

/-- The n low bytes of w, least significant first (R4). -/
def leBytes : Nat → Nat → List Byte
  | 0, _ => []
  | n + 1, w => BitVec.ofNat 8 w :: leBytes n (w / 256)

/-- The decoder over the bytes of an instruction as memory holds them: the slot word and up to two words after it. -/
def decodeBytes (bs : List Byte) : Except DecodeReject Instr :=
  decodeSlot (leNat (bs.take 4)) (leNat ((bs.drop 4).take 4)) (leNat ((bs.drop 8).take 4))

/-- The instruction the decoder reads from a table word: the slot is bits [31:0], its extension words follow. -/
def decodeTableWord (_nbits w : Nat) : Option Instr :=
  match decodeBytes (leBytes 12 w) with
  | .ok i => some i
  | .error _ => none

/-- An opcode of the L form, which takes the next slot as its extension (R286, R294). -/
def isLOp (op : Nat) : Bool :=
  op == 0x37 || op == 0x38 || op == 0xBB || op == 0xBC || op == 0xBD || op == 0xBF || op == 0xD0

/-- The W form: BWAY. -/
def isWOp (op : Nat) : Bool := op == 0x03

/-- The pipes of R155. -/
inductive Pipe where
  | alu | fpu | sfu | xln | mem | ctl | eng
  deriving DecidableEq, Repr

/-- The pipe of an opcode; none for an opcode that is not assigned (R155, R294). -/
def pipeOf (op : Nat) : Option Pipe :=
  if (0x10 ≤ op && op ≤ 0x39) || op == 0x64 || op == 0x65 || (0x67 ≤ op && op ≤ 0x69) || (0x6D ≤ op && op ≤ 0x6F) then some .alu
  else if (0x40 ≤ op && op ≤ 0x4B) || (0x55 ≤ op && op ≤ 0x58) || (0x60 ≤ op && op ≤ 0x63) || op == 0x66 then some .fpu
  else if 0x4C ≤ op && op ≤ 0x54 then some .sfu
  else if (0x6A ≤ op && op ≤ 0x6C) || (0x80 ≤ op && op ≤ 0x88) then some .xln
  else if (0x90 ≤ op && op ≤ 0xA8) || (0xB0 ≤ op && op ≤ 0xBF) || (0xC0 ≤ op && op ≤ 0xC5) || op == 0xC9 || op == 0xCA then some .mem
  else if (0x01 ≤ op && op ≤ 0x0E) || (0xC6 ≤ op && op ≤ 0xC8) || op == 0xCB || op == 0xCC || (0xD0 ≤ op && op ≤ 0xD8) || (0xF0 ≤ op && op ≤ 0xF6) then some .ctl
  else if op == 0xD9 || (0xE0 ≤ op && op ≤ 0xEB) then some .eng
  else none

/-- A packet: the control word and three slot words (R283). -/
structure CodePacket where
  ctl : Nat
  s1 : Nat
  s2 : Nat
  s3 : Nat
  deriving DecidableEq, Repr

/-- The packet in 16 bytes of code. -/
def packetOf (bs : List Byte) : CodePacket :=
  { ctl := leNat (bs.take 4), s1 := leNat ((bs.drop 4).take 4),
    s2 := leNat ((bs.drop 8).take 4), s3 := leNat ((bs.drop 12).take 4) }


/-- Slot 1 chained to slot 2. -/
def CodePacket.c1 (p : CodePacket) : Bool := bit p.ctl 28
/-- Slot 2 chained to slot 3. -/
def CodePacket.c2 (p : CodePacket) : Bool := bit p.ctl 29
/-- Slot 2 extends slot 1. -/
def CodePacket.e2 (p : CodePacket) : Bool := bit p.ctl 30
/-- Slot 3 extends slot 2. -/
def CodePacket.e3 (p : CodePacket) : Bool := bit p.ctl 31
/-- Control byte of slot k (R283). -/
def CodePacket.ctlByte (p : CodePacket) (k : Nat) : Nat := p.ctl / 2 ^ (8 * (k - 1)) % 256
/-- Word of slot k. -/
def CodePacket.slot (p : CodePacket) (k : Nat) : Nat := if k = 1 then p.s1 else if k = 2 then p.s2 else if k = 3 then p.s3 else 0
/-- Slot k is an extension slot (R286). -/
def CodePacket.isExt (p : CodePacket) (k : Nat) : Bool := (k == 2 && p.e2) || (k == 3 && p.e3)
/-- Slot k is empty: NOP under control byte 0x0F (R287). -/
def CodePacket.isEmpty (p : CodePacket) (k : Nat) : Bool := !p.isExt k && p.slot k == 0x0A000000 && p.ctlByte k == 0x0F
/-- Opcode byte of slot k. -/
def CodePacket.op (p : CodePacket) (k : Nat) : Nat := p.slot k / 2 ^ 24 % 256
/-- Slots k and k+1 share a pipe (R289). -/
def CodePacket.samePipe (p : CodePacket) (j k : Nat) : Bool :=
  match pipeOf (p.op j), pipeOf (p.op k) with
  | some a, some b => a == b
  | _, _ => false

/-- The packet breaks a condition of R289. -/
def CodePacket.illegal (p : CodePacket) : Bool :=
  !zf p.ctl 24 4
  || (p.e2 && !(isLOp (p.op 1) || isWOp (p.op 1)))
  || (p.e3 && !((!p.e2 && isLOp (p.op 2)) || isWOp (p.op 1)))
  || (isLOp (p.op 1) && !p.e2)
  || (!p.e2 && isLOp (p.op 2) && !p.e3)
  || (!p.e3 && isLOp (p.op 3))
  || (isWOp (p.op 1) && !(p.e2 && p.e3))
  || (!p.e2 && isWOp (p.op 2)) || (!p.e3 && isWOp (p.op 3))
  || (p.c1 && p.e2) || (p.c2 && (p.e2 || p.e3))
  || (p.c1 && (p.isEmpty 1 || p.isEmpty 2)) || (p.c2 && (p.isEmpty 2 || p.isEmpty 3))
  || (p.c1 && p.samePipe 1 2) || (p.c2 && p.samePipe 2 3) || (p.c1 && p.c2 && p.samePipe 1 3)
  || (p.e2 && p.ctlByte 2 != 0) || (p.e3 && p.ctlByte 3 != 0)

/-- The instruction in slot k with its extension words. -/
def CodePacket.decode (p : CodePacket) (k : Nat) : Except DecodeReject Instr :=
  decodeSlot (p.slot k) (p.slot (k + 1)) (p.slot (k + 2))



end Sys2Proof
end

