-- ==== Sys2Proof/Machine/State.lean ====
section
/-! DEFINITION. The state of one E840 package as plain data: every piece of state that the manual names (see INVENTORY.md), the machine's faults and refusals, and the state after reset. -/

namespace Sys2Proof.Machine

/-! ## Capabilities and memory -/

/-- A capability register: the fields of R201 and its validity tag. rights holds R in bit 7, then W, X, A, T, K, M and G in bit 0. -/
structure Cap where
  tag : Bool
  obj : BitVec 20
  rights : BitVec 8
  kind : BitVec 4
  base : BitVec 48
  len : BitVec 48
  deriving DecidableEq, Repr

/-- A capability with its tag clear and all bits zero (R132). -/
def Cap.null : Cap := ⟨false, 0, 0, 0, 0, 0⟩

/-- Bytes by address in canonical form (addresses rising, no zero byte listed: an unlisted byte reads zero) and the rising list of 16-byte granules whose tag is set (R203). -/
structure Mem where
  cells : List Host.Cell
  tags : List Nat
  deriving DecidableEq, Repr

/-- Memory in which every byte is zero and every tag clear (R97 step 4). -/
def Mem.empty : Mem := ⟨[], []⟩

/-! ## Fibres and workgroups -/

/-- One register write: a fibre register, a predicate, a capability register, or the crew mask. -/
inductive WB where
  | v (r : Nat) (x : Word)
  | p (r : Nat) (b : Bool)
  | c (r : Nat) (x : Cap)
  | cmask (x : DWord)
  deriving DecidableEq, Repr

/-- A fixed-latency write not yet covered: readable from issue count due on (R165). -/
structure OutWrite where
  wb : WB
  due : Nat
  deriving DecidableEq, Repr

/-- The key of a Hamper record: ASID, object, region and write (R214). A software-raised 0x0D1 or 0x0D2 names no access: region none. -/
structure HamperKey where
  asid : Nat
  obj : Nat
  region : Option Nat
  write : Bool
  deriving DecidableEq, Repr

/-- Why a fibre is not ready (R162). In every case but barrier or rendezvous with a successor, reply and supervisor its pc stands at the instruction that will be issued again. -/
inductive Wait where
  | none
  /-- A translation walk is outstanding (R211, R212). -/
  | walk (die asid obj : Nat) (page : Option Nat)
  /-- An instruction-cache fill is outstanding (R180). -/
  | icache (asid obj line : Nat)
  /-- A Cupboard fill is outstanding (R178). -/
  | cupboard (asid seg : Nat)
  /-- The 256-byte line at this line number is latched by a tile access (R242). -/
  | latch (line : Nat)
  /-- A remote request awaits its response (R34, R35). -/
  | remote (dst : Nat) (tag : Nat)
  /-- A host request awaits its response (R86). -/
  | host (link : Nat) (tag : Nat)
  /-- A release or a same-line access waits for remote or host acknowledgements (R34, R86, R229). -/
  | unacked
  /-- The engine queue holds 32 commands, or a token is pending (R383, R158). -/
  | queue
  /-- A barrier instruction waits for a round; next is the successor of a BAR that has arrived, none when the instruction will be issued again (R372). -/
  | barrier (level num : Nat) (next : Option Word)
  /-- Arrived at the crew rendezvous: the instruction, its mask, whether the guard held, the two operand values carried, and the successor, none when the chain it stands in will be issued again (R167, R170, R288). -/
  | rendezvous (i : Instr) (mask : DWord) (exe : Bool) (xa xb : Word) (next : Option Word)
  /-- Parked in WAITM on the cell at this physical address; always: it is a notify cell, which every write wakes (R196, R373, R374). -/
  | cell (pa : Nat) (always : Bool)
  /-- Parked on the reply slot of the record in this segment (R199). -/
  | reply (seg : Nat)
  /-- WAITT under the root action STALL (R196, R376). -/
  | token (g : Nat)
  /-- SLEEP until this fabric time (R377). -/
  | sleep (til : Nat)
  /-- Parked in the die's Hamper on the record with this number and key (R214). -/
  | hamper (die rec : Nat) (key : HamperKey) (tag : BitVec 12)
  /-- SVC at the root frame: waits for the device supervisor (R196, R397). -/
  | supervisor (imm : Word)
  /-- A handler is to capture the fibre, and the release that the capture makes waits for a latched line (R186, R242); the effect stands in pend. -/
  | capture
  deriving DecidableEq, Repr

/-- What an RCALL of one fibre sends once its record is written: the RCALL's command, the link and host address, CALLID, the WAKE word and the request bytes (R199, R392). -/
structure Call where
  cmd : Nat
  link : Nat
  host : Nat
  callid : DWord
  wake : DWord
  req : List Byte
  deriving DecidableEq, Repr

/-- An effect to perform: tag and argument, full or partial record, resume address, the access it reports to the Hamper (for lost data, the ASID and as region the MiB that ERRLOG names, R107), where its fibre waits under the root actions STALL and PARK, and the request of an RCALL. -/
structure Eff where
  tag : BitVec 12
  arg : Word
  full : Bool
  resume : Word
  key : Option HamperKey
  wait : Wait
  call : Option Call
  deriving DecidableEq, Repr

/-- One outstanding barrier arrival of a fibre: its level, number, and whether its round has completed (R372). -/
structure Arrival where
  level : Nat
  num : Nat
  done : Bool
  deriving DecidableEq, Repr

/-- A fibre (R132, R154, R165, R174 to R176, R181, R253, R293). v holds REGS registers, p holds p0 to p6, c holds c0 to c15; resp holds the answer of the remote or host request for which its instruction waits, lost marks a remote (bit 0) or host (bit 1) store that was never answered (R35, R86), mark is the marker of the release that its instruction waits for (R221, R229), pend the effect whose capture waits (R186), copy the reply bytes still to be copied to their destination before the next instruction (R199), and met the result of a completed rendezvous that a chain has still to write (R167, R288). -/
structure Fibre where
  fid : Nat
  pc : Word
  code : Cap
  v : List Word
  p : List Bool
  c : List Cap
  cmask : DWord
  hchain : Word
  fmode : Word
  fflags : Word
  seg : Nat
  frameOff : Nat
  spare : Option Nat
  age : Nat
  k : Nat
  readyAt : Nat
  out : List OutWrite
  infl : List (List WB)
  wait : Wait
  parked : Option Nat
  arr : List Arrival
  resp : Option (List Byte)
  lost : BitVec 2
  mark : Option Nat
  pend : Option Eff
  copy : Option (Cap × List Byte)
  met : Option (List WB × Word)
  deriving DecidableEq, Repr

/-- A group register: its value, whether a command's completion is pending on it, the cycle and fibre of the last SETG, and whether it holds an unread code-0x01 MMA token (R157 to R159, R195, R279). -/
structure GReg where
  val : Word
  pending : Bool
  setAt : Option (Nat × Nat)
  badMeta : Bool
  deriving DecidableEq, Repr

/-- A workgroup (R132, R153, R156, R171, R268, R278). fibres holds the fibres that have not ended. -/
structure Wg where
  launch : Nat
  wgid : Nat
  gang : Nat
  core : Nat
  placed : Bool
  total : Nat
  fibres : List Fibre
  scratch : Mem
  acc : List (Nat × Word)
  g : List GReg
  retired : Bool
  deriving DecidableEq, Repr

/-! ## Launches, gangs, queues -/

/-- One HIERARCHY entry (R124). -/
structure Level where
  domain : Nat
  scope : Nat
  barriers : Nat
  extent : Nat
  deriving DecidableEq, Repr

/-- A scale ring: 16 entries with valid bits, a write index and a pending maximum (R263). -/
structure Ring where
  entries : List (Option Word)
  index : Nat
  pendMax : Word
  deriving DecidableEq, Repr

/-- A launch as its record gives it (R118 to R131, R136, R263). count is the workgroup count, nextGang the lowest UNPLACED gang, placedLaunch that it stands in the placer's table; stall and unfit are those of its completion word (R127). -/
structure Launch where
  id : Nat
  queue : Nat
  slot : Nat
  asid : Nat
  prio : Nat
  schk : Bool
  check : Bool
  early : Bool
  cores : Bool
  indirect : Bool
  regs : Nat
  crew : Nat
  gangLog : Nat
  fibres : Nat
  rf : Nat
  sp : Nat
  ac : Nat
  gridX : Nat
  gridY : Nat
  gridZ : Nat
  count : Nat
  entry : Nat
  code : Cap
  args : Cap
  event : Cap
  compOff : Nat
  compVal : Word
  dep0 : Nat × Word
  dep1 : Nat × Word
  indOff : Nat
  indMax : Nat
  formats : List DWord
  hier : List Level
  accept : Word
  placedLaunch : Bool
  nextGang : Nat
  aborted : Nat
  abortTag : BitVec 12
  lost : Bool
  refusal : BitVec 8
  rings : List Ring
  stall : Option (Nat × Nat)
  unfit : Bool
  deriving DecidableEq, Repr

/-- The states of a placed gang (R137); a gang at or above nextGang of its launch is UNPLACED. -/
inductive GangSt where
  | running | halting | saving | saved | restoring | retiring | retired
  deriving DecidableEq, Repr

/-- The gang's commands and tile accesses go on: it is on its cores and not being halted (R145, R148). -/
def GangSt.live (st : GangSt) : Bool := st == .running || st == .retiring

/-- A gang that has been placed (R137, R142, R143), kept until its launch completes: its cores (those it had last, once saved or retired), whether it sleeps, has been woken while it was being saved, and is to sleep once saved, the end of its quantum, and when it last entered RUNNING. -/
structure Gang where
  launch : Nat
  index : Nat
  st : GangSt
  cores : List Nat
  asleep : Bool
  woken : Bool
  toSleep : Bool
  quantumEnd : Nat
  since : Nat
  deriving DecidableEq, Repr

/-- Cores held for a candidate (R141). -/
structure Hold where
  cores : List Nat
  launch : Nat
  gang : Nat
  deriving DecidableEq, Repr

/-- The dispatcher states of R135. -/
inductive QSt where
  | idle | waitReady | check | depWait | handover
  deriving DecidableEq, Repr

/-- A bound queue and its dispatcher (R111, R135): n is HEAD; raw and rawTags are the consumed record (of slot n - 1) and its granule tags, cur its launch, last the launch before it. stall names the Hamper record (die, number) that a read of the dispatcher waits for, unfit that its region could not be made resident (R131), told that the loss of READY or of a dependence word has been reported (R107). -/
structure Queue where
  q : Nat
  binding : Binding
  st : QSt
  n : Nat
  raw : List Byte
  rawTags : List Bool
  cur : Option Launch
  last : Option Nat
  stall : Option (Nat × Nat)
  unfit : Bool
  told : Bool
  deriving DecidableEq, Repr

/-- A die, package, node or grid barrier unit bound to a launch (R43, R150). seen holds the positions whose arrival of this phase has come. -/
structure BarUnit where
  level : Nat
  num : Nat
  die : Nat
  launch : Nat
  mask : BitVec 16
  phase : Bool
  seen : BitVec 16
  failed : Bool
  deriving DecidableEq, Repr

/-- A barrier arrival held for a unit that is not bound (R150). -/
structure HeldArrival where
  level : Nat
  num : Nat
  phase : Bool
  origin : Nat
  deriving DecidableEq, Repr

/-! ## Cores and caches -/

/-- One 256-byte L1 line (R219, R220): data as a 2048-bit number, sector valid bits, byte mask, WRITABLE, RC and granule tags; used orders lines by last access, dirtied numbers the last time its mask ceased to be empty, and a leaving line stands in the eviction buffer, replaced but for its write-back (R242). -/
structure L1Line where
  asid : Nat
  obj : Nat
  line : Nat
  data : BitVec 2048
  valid : BitVec 4
  mask : BitVec 256
  writable : Bool
  rc : Bool
  tags : BitVec 16
  used : Nat
  dirtied : Nat
  leaving : Bool
  deriving DecidableEq, Repr

/-- One instruction-cache line of 128 bytes (R180). -/
structure ILine where
  asid : Nat
  obj : Nat
  line : Nat
  bytes : List Byte
  deriving DecidableEq, Repr

/-- A segment held by a Cupboard (R178, R179). -/
structure CupSeg where
  asid : Nat
  seg : Nat
  dirty : Bool
  deriving DecidableEq, Repr

/-- A core: its L1 and dirty FIFO, Cupboard (least recently accessed first), instruction cache, the Mangle queue last served, the quarter the ENG pipe served last, and the pipes held: quarter, pipe number and the cycle from which it is free (R155, R178, R180, R219, R221, R268). A core not listed has all of them empty. -/
structure Core where
  id : Nat
  l1 : List L1Line
  fifo : List (Nat × Nat × Nat)
  cupboard : List CupSeg
  icache : List ILine
  mangleLast : Nat
  engLast : Nat
  busy : List (Nat × Nat × Nat)
  deriving DecidableEq, Repr

/-- A home-slice line: its physical line number, sector valid and dirty bits (R223). Its bytes are those of mem, which every access reaches through the slice. -/
structure HomeLine where
  slice : Nat
  line : Nat
  valid : BitVec 4
  dirty : BitVec 4
  deriving DecidableEq, Repr

/-- A line of an RC peer object held in a home slice of the requesting die (R37, R224); len counts its bytes, fewer than 256 where the object ends in it. -/
structure RcLine where
  slice : Nat
  pos : Nat
  pasid : Nat
  pobj : Nat
  line : Nat
  data : BitVec 2048
  len : Nat
  deriving DecidableEq, Repr

/-! ## Address spaces and translation -/

/-- A decoded object-table entry (R208, R209). -/
structure OEntry where
  typ : Nat
  ro : Bool
  rc : Bool
  wb : Bool
  host : Bool
  use : Nat
  size : Nat
  gen : Nat
  t0 : DWord
  t1 : DWord
  deriving DecidableEq, Repr

/-- An ASID descriptor (R207), the number of its key in the key table (R92; 0 for none) and the free segments of the ASID's frame heap (R176). -/
structure AsidDesc where
  asid : Nat
  otroot : Nat
  objects : Nat
  heapObj : Nat
  serial : Word
  live : Bool
  conf : Bool
  key : Nat
  free : List Nat
  deriving DecidableEq, Repr

/-- An object-cache entry of a die (R212). -/
structure ObjCached where
  die : Nat
  asid : Nat
  obj : Nat
  entry : OEntry
  deriving DecidableEq, Repr

/-- A region-cache entry of a die: one page-list word (R212). -/
structure RegCached where
  die : Nat
  asid : Nat
  obj : Nat
  page : Nat
  word : DWord
  gen : Nat
  deriving DecidableEq, Repr

/-- A walk in flight or waiting for a walker (R212). -/
structure Walk where
  die : Nat
  asid : Nat
  obj : Nat
  page : Option Nat
  deriving DecidableEq, Repr

/-- A Hamper record: its number and key; the parked fibres and the stalled commands are those whose state names it (R214). -/
structure HamperRec where
  num : Nat
  key : HamperKey
  deriving DecidableEq, Repr

/-- A die's Hamper: the records of the open window, the batches handed over and the window's end (R214, R215). -/
structure Hamper where
  recs : List HamperRec
  windowEnd : Option Nat
  batches : List (List HamperRec)
  deriving DecidableEq, Repr

/-! ## Engines -/

/-- The engines that hold queues (R10, R39, R73, R268). -/
inductive Eng where
  | mangle (core : Nat)
  | copy (n : Nat)
  | port (die : Nat)
  | scale (die : Nat)
  deriving DecidableEq, Repr

/-- What a command does; rcall stands for the requests of one RCALL bundle until they have left (R392), join is the mark that QFENCE places (R370, R384). -/
inductive CmdKind where
  | mma | mzero
  | mdrain (sat : Bool) (rnd : BitVec 3)
  | copy | copyt | xput | xget | dpost | send | rpost | cmigr | rcall | join
  deriving DecidableEq, Repr

/-- The progress of a command (R145, R218). -/
inductive CmdSt where
  | queued | running
  | stalled (die rec : Nat) (key : HamperKey)
  | finished
  deriving DecidableEq, Repr

/-- An engine command (R383): its queue, token, block with granule tags, and progress. deps are the commands that a join waits for; exps are the ring exponents sampled at issue for slots A, B and C or the destination (R260, R281); prog and sent count rows, chunks, pieces or bytes reached, acked what has been answered, cuts the ranges answered (of a copy) or held for the windows of an exchange, todo the ranges to be sent as soon as may be, win those granted by a window in progress (R58), fault the faulting byte offset of a stall (R218), phase and buf the step and the bytes of the piece being moved, and mark the marker of the release that its first access waits for (R238). -/
structure Command where
  id : Nat
  eng : Eng
  q : Nat
  kind : CmdKind
  launch : Nat
  wgid : Nat
  g : Nat
  asid : Nat
  core : Nat
  scope : Nat
  blk : List Byte
  caps : List Cap
  st : CmdSt
  prog : Nat
  sent : Nat
  acked : Nat
  cuts : List (Nat × Nat)
  code : BitVec 8
  err : Bool
  count : Nat
  deps : List Nat
  exps : List Int
  phase : Nat
  buf : List (Nat × List Byte)
  todo : List (Nat × Nat)
  win : List (Nat × Nat)
  fault : Nat
  mark : Option Nat
  deriving DecidableEq, Repr

/-- Where the memory side of a tile lies: device memory, a scratchpad reached by a kind-local capability, a host object behind a tray link, or a peer object under a transaction tag (R36, R86, R202, R363). -/
inductive TilePlace where
  | mem | scratch
  | host (link obj : Nat)
  | peer (pos tag : Nat)
  deriving DecidableEq, Repr

/-- A tile access in flight (R241 to R243): bytes pairs each memory byte's physical address (a host address, or its place in the tile, where the tile is not in device memory) with its scratchpad offset; slices are those still to be latched, granted the lines latched so far; data are the tile's bytes as far as read or staged, count how many of them have moved; seq orders requests at a slice; ready: the token is pending on it; code is the completion code, and mark the marker of the release that its first access waits for (R238). -/
structure TileOp where
  id : Nat
  load : Bool
  launch : Nat
  wgid : Nat
  g : Nat
  core : Nat
  scope : Nat
  bytes : List (Nat × Nat)
  slices : List Nat
  granted : List Nat
  data : List Byte
  ready : Bool
  count : Nat
  seq : Nat
  place : TilePlace
  code : BitVec 8
  mark : Option Nat
  deriving DecidableEq, Repr

/-! ## Fabric -/

/-- A peer position (R23, R24, R41). -/
structure Peer where
  populated : Bool
  live : Bool
  died : Bool
  lastHeard : Nat
  lastPkt : Nat
  pairsTo : BitVec 16
  deriving DecidableEq, Repr

/-- A lane of an optical pair: the sender's replay buffer and next sequence, the receiver's next sequence, flits waiting and flits being assembled, and the packets not yet acknowledged with the sequence of the codeword that ends them (R25, R26). -/
structure Lane where
  nextSeq : BitVec 12
  replay : List Codeword
  txFlits : List (BitVec 256)
  carried : List (Nat × List (BitVec 256))
  rxSeq : BitVec 12
  discarding : Bool
  rxFlits : List (BitVec 256)
  sbQ : List Sideband
  locked : Bool
  deriving DecidableEq, Repr

/-- An optical pair: its LINKSTAT register, its current condition, the uncorrectable codewords of the house frame that is numbered and of the one before it, credits of both channels, its lanes (R14, R16, R26, R27, R31). -/
structure Pair where
  failedNow : Bool
  spareNow : Bool
  uncNow : Nat
  uncLast : Nat
  frame : Nat
  substituting : Option Nat
  credit0 : Nat
  credit1 : Nat
  linkstat : Word
  lanes : List (Nat × Lane)
  deriving DecidableEq, Repr

/-- What a remote transaction is for (R31, R34 to R36, R38 to R40, R200): an access of a fibre with its effective offset, a packet of a command with its byte range, or a shoot-down; gone: what asked has ended, and only the tag is kept until its response has come. -/
inductive TxKind where
  | load (f : FibId) (off : Word)
  | store (f : FibId) (off : Word)
  | atomic (f : FibId) (off : Word)
  | tile (f : FibId) (tile : Nat) (off : Word)
  | put (cmd : Nat) (off len : Nat)
  | get (cmd : Nat) (off len : Nat)
  | shoot (asid obj region : Nat)
  | cmig (cmd : Nat)
  | gone
  deriving DecidableEq, Repr

/-- An outstanding remote transaction (R31). key names the object and region here; pkts are its packets as sent, for a resend over another path (R42), and seq numbers it for the markers of releases (R229) and for OINV (R213). -/
structure Tx where
  dst : Nat
  tag : Nat
  kind : TxKind
  core : Nat
  issued : Nat
  key : HamperKey
  pkts : List Packet
  seq : Nat
  deriving DecidableEq, Repr

/-- What a host request is for (R85, R86, R392): an access of a fibre with its effective offset, part of a command or tile access, or the request of a remote call (its RCALL, and its record's ASID and segment); gone as in TxKind. -/
inductive HTxKind where
  | load (f : FibId) (off : Word)
  | store (f : FibId) (off : Word)
  | engine (cmd : Nat) (off len : Nat)
  | tile (tile : Nat) (off len : Nat)
  | rcall (cmd asid seg : Nat)
  | gone
  deriving DecidableEq, Repr

/-- An outstanding tray-link request (R85); key names the object and region, seq numbers it as in Tx. -/
structure HTx where
  link : Nat
  tag : Nat
  kind : HTxKind
  core : Nat
  issued : Nat
  len : Nat
  key : HamperKey
  seq : Nat
  deriving DecidableEq, Repr

/-- A packet staged by the peer side of TST, waiting for the rest under its tag (R36). -/
structure StagedTile where
  src : Nat
  tag : Nat
  got : List (Nat × List Byte)
  deriving DecidableEq, Repr

/-- A packet received in the last 100 µs, its routing fields cleared, when, and what was answered (R26); link names the tray link, none for the fabric (R84). -/
structure Performed where
  link : Option Nat
  packet : Packet
  time : Nat
  replies : List Packet
  deriving DecidableEq, Repr

/-- A peer's request that this package make a region of one of its objects resident, or release its RC: who asked, the region here, and the die and record of the peer's Hamper (R35, R38). -/
structure Ask where
  pos : Nat
  key : HamperKey
  die : Nat
  num : Nat
  deriving DecidableEq, Repr

/-- A shoot-down that the owner runs (R38): the peers that have not answered, and of them those to which SHOOT is still to be sent, no tag being free (R31). -/
structure Shoot where
  asid : Nat
  obj : Nat
  region : Nat
  waiting : BitVec 16
  unsent : BitVec 16
  started : Nat
  deriving DecidableEq, Repr

/-! ## Exchange -/

/-- A DPOST that a Folding Table holds, with the fabric time at which it arrived (R45, R46). -/
structure Post where
  pos : Nat
  stamp : Nat
  arrived : Nat
  mask : BitVec 16
  demand : List Nat
  deriving DecidableEq, Repr

/-- One fold of a node schedule: its matching, its length in units and its phase (0 direct, 1 first leg, 2 second leg) (R53). -/
structure Fold where
  pairs : List (Nat × Nat)
  len : Nat
  phase : Nat
  deriving DecidableEq, Repr

/-- An exchange at a Folding Table (R46 to R48, R53); sample is what was so at the close of its collection: the live positions, and for each position those to which it reports no working pair. -/
structure Exch where
  exid : Word
  posts : List Post
  first : Nat
  closed : Bool
  posted : BitVec 16
  base : Nat
  endt : Nat
  folds : List Fold
  circ : Nat
  rest : List (List Nat)
  partner : List (Nat × Nat × Nat)
  crc : DWord
  calendars : List (Nat × List Byte)
  sample : Option (List Nat × List (BitVec 16))
  deriving DecidableEq, Repr

/-- This package's Folding Table (R46, R50, R51, R65). silenced names the acting primary that this table has heard. -/
structure FoldTable where
  window : Nat
  exchs : List Exch
  acting : Bool
  silenced : Option Nat
  seq : BitVec 12
  lastPrimary : Nat
  deriving DecidableEq, Repr

/-- This package's part of an exchange: its DPOST, the calendar once taken, and the close bookkeeping (R49, R58, R63, R64, R66). pieces are calendar pieces by CRC and offset; granted lists the windows in progress: fold, final destination and bytes left; sentTo counts the bytes sent to each member, seen are the CRCs of differing calendars that have been counted. -/
structure MyExch where
  exid : Word
  cmd : Nat
  launch : Nat
  wgid : Nat
  g : Nat
  closeG : Nat
  calOff : Nat
  stamp : Nat
  mask : BitVec 16
  pieces : List (DWord × Nat × List Byte)
  calendar : Option (List Byte)
  landed : Bool
  failed : Bool
  granted : List (Nat × Nat × Nat)
  closeSent : Bool
  closes : BitVec 16
  closeDone : Bool
  late : Bool
  sentTo : List (Nat × Nat)
  seen : List DWord
  deriving DecidableEq, Repr

/-! ## Scale-out and host -/

/-- Connection states (R71). -/
inductive ConnSt where
  | closed | opened | error
  deriving DecidableEq, Repr

/-- A SEND in progress on a connection (R74, R77). -/
structure SendOp where
  cmd : Nat
  msn : Word
  len : Nat
  asid : Nat
  obj : Nat
  base : Nat
  formed : Nat
  acked : Nat
  deriving DecidableEq, Repr

/-- A posted receive buffer (R75 to R77); code is the code it will complete with when writing it has failed. -/
structure RecvBuf where
  cmd : Nat
  msn : Word
  asid : Nat
  obj : Nat
  base : Nat
  len : Nat
  placed : Nat
  mlen : Option Nat
  done : Bool
  code : BitVec 8
  deriving DecidableEq, Repr

/-- A connection context (R70, R80 to R83): expect and accepted are the receiver's E and bitmap, heard the E of the last acknowledgement that advanced it. -/
structure Conn where
  num : Nat
  st : ConnSt
  asid : Nat
  peerEp : Word
  peerCon : BitVec 16
  nextMsn : Word
  nextPsn : Word
  expect : Word
  accepted : List Word
  heard : Word
  window : Nat
  timer : Nat
  timerDue : Option Nat
  expiries : Nat
  rnr : Option Word
  unacked : List SoPacket
  sends : List SendOp
  bufs : List RecvBuf
  nextBuf : Word
  sinceAck : Nat
  echo : Bool
  lastHalved : Option Nat
  onChip : Bool
  used : Nat
  deriving DecidableEq, Repr

/-- A tray link (R84, R85, R86): whether it has failed and has not been spared, what waits to be sent, and the packets received whose turn has not come: the sequence of the codeword that ended each, and its lane. -/
structure TrayLink where
  failed : Bool
  txq : List Packet
  rx : List (BitVec 12 × Nat × Packet)
  deriving DecidableEq, Repr

/-- The states of a TDI, as the TDISP specification has them (R91). -/
inductive TdiSt where
  | unlocked | locked | run | error
  deriving DecidableEq, Repr

/-- A TDI (R91, R92): its state, the confidential ASID it holds, the tray links bound to it, and the number of the keys that bind them. -/
structure Tdi where
  st : TdiSt
  asid : Nat
  links : BitVec 4
  linkKey : Nat
  deriving DecidableEq, Repr

/-! ## Bring-up and management -/

/-- A service pair (R95, R109). -/
structure SvcPair where
  healthy : Bool
  lastBeat : Nat
  fenced : Bool
  deriving DecidableEq, Repr

/-- A die's bring-up condition (R97, R98). -/
structure DieState where
  initialised : Bool
  unusable : Bool
  deriving DecidableEq, Repr

/-- The management registers and the bring-up state (R22, R94 to R103, R108); noFull: a die made unusable after LIMITED keeps FULL from being set until RESET or power-on (R98). -/
structure Mgmt where
  mgmt : Bool
  limited : Bool
  full : Bool
  step : BitVec 4
  leader : BitVec 2
  booterr : Word
  accept : List Word
  acceptWritten : List Bool
  inForce : Word
  errlog : List DWord
  errhead : Nat
  pwrstat : Word
  fwstage : List (Nat × Byte)
  fromStage : Bool
  flash : List Byte
  vendorKeys : List (BitVec 512)
  rollback : Nat
  imageVersion : Nat
  imageDigest : BitVec 512
  raised : Bool
  noFull : Bool
  deriving DecidableEq, Repr

/-- Power and throttle state (R20, R21). Times are fabric times in ns. -/
structure Power where
  target : BitVec 2
  readings : Readings
  lastMove : Nat
  clearSince : Option Nat
  p1Since : Option Nat
  hbmSince : Option Nat
  hbmDemand : Bool
  stopped : Bool
  deriving DecidableEq, Repr

/-- Housekeeping bookkeeping (R104, R105): refresh batches of each HBM stack, the sector that patrol scrubbing visits next, trims run, telemetry taken. -/
structure House where
  refreshed : List Nat
  scrubbed : Nat
  trims : Nat
  telemetry : Nat
  deriving DecidableEq, Repr

/-- Node time (R106): the correction still to be slewed and the last T1, T2, T3 of a run; run holds the runs being received, by pair, with the time each began. -/
structure TimeSync where
  slew : Int
  slewTicks : Nat
  t1 : Option Nat
  t2 : Option Nat
  t3 : Option Nat
  epoch : Option Nat
  run : List (Nat × Nat × List (BitVec 16))
  deriving DecidableEq, Repr

/-- A region migration under way (R217): step 1 has been taken, and mark numbers the tile accesses that its OINV waits for (R245). -/
structure Migr where
  grant : PageGrant
  mark : Nat
  deriving DecidableEq, Repr

/-! ## The machine -/

/-- An effect raised inside a chain and not yet performed: by which slot, and whether it is raised at the instruction or after its result (R288). -/
structure Raised where
  fid : Nat
  slot : Nat
  atInstr : Bool
  eff : Eff
  deriving DecidableEq, Repr

/-- The issue in progress: the workgroup, the bundle's fibres in ascending order, the packet offset and slot, the control byte, the fall-through successor, the chain's first program counter, the effects raised and the fibres held so far, and the fibres of the whole bundle, those that a chain has left out among them (R284, R288, R303, R307). -/
structure Cur where
  launch : Nat
  wgid : Nat
  fids : List Nat
  packet : Word
  slot : Nat
  ctl : BitVec 8
  next : Word
  first : Word
  inChain : Bool
  raised : List Raised
  held : List (Nat × Wait)
  whole : List Nat
  deriving DecidableEq, Repr

/-- An entry of the agenda: an operation of the outside or of a unit, and the earliest fabric time at which it happens. -/
structure Timed where
  due : Nat
  ev : Instr
  deriving DecidableEq, Repr

/-- What the package has sent to management: MSI-X events by their vector, which the manual assigns to none of them (R91, R110, R127, R131; log entry 23), attestation answers (R99), completions of management accesses (R94), CLOSE of DOE. -/
inductive MgmtOut where
  | msix (vector : Fin 64)
  | completerAbort (off : Nat)
  | attest (digest : BitVec 512) (sig : List Byte)
  | deadPeer (pos : Nat)
  | debugStop (f : FibId)
  deriving DecidableEq, Repr

/-- Where an uncorrectable error lies on the package (R107, R108): a 64-byte sector of memory in its home slice, with the owning ASID; a sector (offset / 64) of an object in a core's L1; a segment in a Cupboard; a byte of a workgroup's scratchpad; and a gang whose dirty line or context image is lost, which ends (R137, R147). -/
inductive Hurt where
  | home (sector asid : Nat)
  | l1 (core asid obj sector : Nat)
  | segment (asid seg : Nat)
  | scratch (launch wgid byte : Nat)
  | gang (launch index : Nat)
  deriving DecidableEq, Repr

/-- One E840 package. keyed lists the bytes that a confidential ASID wrote, with its key number (R93); keys are the numbers of the key pairs in the memory-port key table (R92); unrc lists the regions whose RC a shoot-down has revoked, by owner, ASID, object and region (R38); boot is what power-on found; takeover is the die of the pair that is taking over (R110); ide are the IDE streams that have keys (R91); bad lists the 64-byte sectors whose data is uncorrectable, hurts the errors in on-chip memories (R105, R107); detoured are the packets sent through an intermediate in the last 100 µs, with their times (R42), and wakes the WAKE words, by ASID, whose notify cell has still to be raised, a tile access holding its line or its region not being there (R199, R242). -/
structure State where
  mem : Mem
  keyed : List (Nat × Nat)
  keys : List Nat
  unrc : List (Nat × Nat × Nat × Nat)
  migrs : List Migr
  boot : BootReport
  takeover : Option Nat
  ide : BitVec 5
  bad : List Nat
  hurts : List Hurt
  homeLines : List HomeLine
  rcLines : List RcLine
  now : Nat
  ftime : DWord
  clock : DWord
  turn : Nat
  fresh : Nat
  freeCount : Nat
  cur : Cur
  agenda : List Timed
  rxq : List Packet
  trayRx : List (Nat × Packet)
  soRx : List SoPacket
  sbRx : List (Nat × Nat × Sideband)
  nodeNum : BitVec 28
  pos : Nat
  endpoint : Word
  mg : Mgmt
  power : Power
  house : House
  sync : TimeSync
  svc : List SvcPair
  dies : List DieState
  wgs : List Wg
  launches : List Launch
  gangs : List Gang
  holds : List Hold
  cursors : List Nat
  queues : List Queue
  units : List BarUnit
  heldArrivals : List HeldArrival
  cores : List Core
  asids : List AsidDesc
  objCache : List ObjCached
  regCache : List RegCached
  walks : List Walk
  hampers : List Hamper
  hamperWindow : Nat
  cmds : List Command
  tiles : List TileOp
  peers : List Peer
  pairs : List (Nat × Pair)
  spares : Nat
  txq : List Packet
  detoured : List (Nat × Packet)
  txs : List Tx
  epochs : List (Nat × Nat)
  performed : List Performed
  staged : List StagedTile
  shoots : List Shoot
  shootsIn : List Packet
  asks : List Ask
  linkErrors : Nat
  detours : List (Option Nat)
  ft : FoldTable
  exchs : List MyExch
  calMismatch : Nat
  relay : List Packet
  wakes : List (Nat × Nat)
  conns : List Conn
  soTx : List SoPacket
  staging : List (Nat × SoPacket)
  tray : List TrayLink
  htxs : List HTx
  tdis : List Tdi
  mgmtOut : List MgmtOut
  deriving DecidableEq, Repr

/-- Why the machine stops. -/
inductive Fault where
  /-- Raised by step: a thermal trip has stopped every arithmetic clock (R21), and nothing stands on the agenda or in a receive queue. Safe: the manual says the device does nothing until power-on. -/
  | clocksStopped
  deriving DecidableEq, Repr

/-- Why an instruction has no meaning. -/
inductive Refusal where
  /-- Raised by exec for a row whose meaning is not written yet. Safe: nothing is claimed of it. -/
  | notModelled (mnemonic : String)
  deriving DecidableEq, Repr

/-! ## Reset -/

/-- A lane before calibration. -/
def Lane.reset : Lane := ⟨0, [], [], [], 0, false, [], [], false⟩

/-- A pair before calibration: LINKSTAT reads zero (R27). -/
def Pair.reset : Pair := ⟨false, false, 0, 0, 0, none, 0, 0, 0, []⟩

/-- The management registers at power-on (R22, R94 to R96, R102). The flash image and the fuses are empty: log entry 7. -/
def Mgmt.reset : Mgmt :=
  { mgmt := false, limited := false, full := false, step := 0, leader := 0, booterr := 0,
    accept := [0, 0, 0, 0], acceptWritten := [false, false, false, false], inForce := 0,
    errlog := List.replicate 32 0, errhead := 0, pwrstat := 0, fwstage := [], fromStage := false,
    flash := [], vendorKeys := [], rollback := 0, imageVersion := 0, imageDigest := 0, raised := false, noFull := false }

/-- No issue in progress. -/
def Cur.reset : Cur := ⟨0, 0, [], 0, 1, 0x07#8, 0, 0, false, [], [], []⟩

/-- The machine right after reset, before power-good has started the service pairs (R97, R132, R140, R214, R46). -/
def State.reset : State :=
  { mem := Mem.empty, keyed := [], keys := [], unrc := [], migrs := [], boot := ⟨0, true, 0, 0, none, none⟩, takeover := none, ide := 0, bad := [], hurts := [], homeLines := [], rcLines := [], now := 0, ftime := 0, clock := 0, turn := 0, fresh := 1, freeCount := 0,
    cur := Cur.reset, agenda := [], rxq := [], trayRx := [], soRx := [], sbRx := [],
    nodeNum := 0, pos := 0, endpoint := 0, mg := Mgmt.reset,
    power := ⟨0, ⟨[], [], [], 0, 0⟩, 0, none, none, none, false, false⟩,
    house := ⟨List.replicate 12 0, 0, 0, 0⟩, sync := ⟨0, 0, none, none, none, none, []⟩,
    svc := List.replicate 4 ⟨false, 0, false⟩, dies := List.replicate 4 ⟨false, false⟩,
    wgs := [], launches := [], gangs := [], holds := [], cursors := List.replicate 8 1023, queues := [], units := [], heldArrivals := [],
    cores := [], asids := [], objCache := [], regCache := [], walks := [],
    hampers := List.replicate 4 ⟨[], none, []⟩, hamperWindow := 20000,
    cmds := [], tiles := [],
    peers := List.replicate 16 ⟨false, false, false, 0, 0, 0⟩, pairs := [], spares := 0, txq := [], detoured := [], txs := [], epochs := [], performed := [],
    staged := [], shoots := [], shootsIn := [], asks := [], linkErrors := 0, detours := List.replicate 16 none,
    ft := ⟨200000, [], false, none, 0, 0⟩, exchs := [], calMismatch := 0, relay := [], wakes := [],
    conns := [], soTx := [], staging := [], tray := List.replicate 4 ⟨false, [], []⟩, htxs := [], tdis := List.replicate 64 ⟨.unlocked, 0, 0, 0⟩, mgmtOut := [] }

end Sys2Proof.Machine
end

