-- ==== Sys2Proof/Machine/Mem.lean ====
section
/-! DEFINITION. Named operations over byte memories in canonical form (device memory by physical address, scratchpads by offset), granule tags (R203) and the bits of a capability (R201). -/

namespace Sys2Proof.Machine

/-! ## Bytes and numbers -/

/-- The little-endian bytes of a number (R4). -/
def natBytes : Nat → Nat → List Byte
  | 0, _ => []
  | n + 1, x => BitVec.ofNat 8 x :: natBytes n (x / 256)

/-- The number of little-endian bytes (R4). -/
def bytesNat : List Byte → Nat
  | [] => 0
  | b :: bs => b.toNat + 256 * bytesNat bs

/-- Bits lo .. lo + n - 1 of a number. -/
def bitsOf (x lo n : Nat) : Nat := x / 2 ^ lo % 2 ^ n

/-! ## Cells -/

/-- Write one byte into a rising list of cells, dropping a zero. -/
def cellsSet : List Host.Cell → Nat → Byte → List Host.Cell
  | [], a, b => if b = 0#8 then [] else [(a, b)]
  | c :: cs, a, b =>
    if a < c.1 then (if b = 0#8 then c :: cs else (a, b) :: c :: cs)
    else if a = c.1 then (if b = 0#8 then cs else (a, b) :: cs)
    else c :: cellsSet cs a b

/-- Read one byte; an unlisted byte is zero. -/
def cellsGet : List Host.Cell → Nat → Byte
  | [], _ => 0#8
  | c :: cs, a => if a = c.1 then c.2 else cellsGet cs a

/-- Set or clear membership in a rising list. -/
def risingSet : List Nat → Nat → Bool → List Nat
  | [], a, b => if b then [a] else []
  | c :: cs, a, b =>
    if a < c then (if b then a :: c :: cs else c :: cs)
    else if a = c then (if b then c :: cs else cs)
    else c :: risingSet cs a b

/-- Every address of a list of cells is above a bound and the addresses rise with no zero byte. -/
def cellsOk : Option Nat → List Host.Cell → Bool
  | _, [] => true
  | lo, c :: cs => (match lo with | none => true | some l => decide (l < c.1)) && c.2 != 0#8 && cellsOk (some c.1) cs

/-- A strictly rising list of numbers above a bound. -/
def risingOk : Option Nat → List Nat → Bool
  | _, [] => true
  | lo, c :: cs => (match lo with | none => true | some l => decide (l < c)) && risingOk (some c) cs

/-- The canonical form of memory. -/
def Mem.wf (m : Mem) : Bool := cellsOk none m.cells && risingOk none m.tags

/-- One byte of memory. -/
def Mem.get (m : Mem) (a : Nat) : Byte := cellsGet m.cells a

/-- Write one byte and clear its granule's tag (R203). -/
def Mem.set (m : Mem) (a : Nat) (b : Byte) : Mem := ⟨cellsSet m.cells a b, risingSet m.tags (a / 16) false⟩

/-- The tag of the granule that holds a byte. -/
def Mem.tag (m : Mem) (a : Nat) : Bool := m.tags.contains (a / 16)

/-- Set the tag of the granule that holds a byte. -/
def Mem.setTag (m : Mem) (a : Nat) (t : Bool) : Mem := ⟨m.cells, risingSet m.tags (a / 16) t⟩

/-- n bytes from an address up. -/
def Mem.read (m : Mem) (a n : Nat) : List Byte := (List.range n).map (fun k => m.get (a + k))

/-- Write bytes from an address up, clearing their granules' tags. -/
def Mem.write (m : Mem) (a : Nat) : List Byte → Mem
  | [] => m
  | b :: bs => (m.set a b).write (a + 1) bs

/-- Write (address, byte) pairs in order. -/
def Mem.writeAt (m : Mem) (ps : List (Nat × Byte)) : Mem := ps.foldl (fun m p => m.set p.1 p.2) m

/-- A little-endian number of n bytes. -/
def Mem.num (m : Mem) (a n : Nat) : Nat := bytesNat (m.read a n)

/-- Write a little-endian number of n bytes. -/
def Mem.setNum (m : Mem) (a n x : Nat) : Mem := m.write a (natBytes n x)

/-! ## Capabilities -/

/-- Rights of a capability by bit of the rights byte (R201, R361). -/
def rR : Nat := 7
def rW : Nat := 6
def rX : Nat := 5
def rA : Nat := 4
def rT : Nat := 3
def rK : Nat := 2
def rM : Nat := 1
def rG : Nat := 0

/-- The capability holds every right of a list. -/
def Cap.has (c : Cap) (rs : List Nat) : Bool := rs.all (fun r => c.rights.getLsbD r)

/-- The 128 bits of a capability (R201). -/
def Cap.bits (c : Cap) : Nat :=
  c.obj.toNat * 2 ^ 108 + c.rights.toNat * 2 ^ 100 + c.kind.toNat * 2 ^ 96 + c.base.toNat * 2 ^ 48 + c.len.toNat

/-- The capability of 128 bits and a tag (R201). -/
def Cap.ofBits (tag : Bool) (x : Nat) : Cap :=
  ⟨tag, BitVec.ofNat 20 (x / 2 ^ 108), BitVec.ofNat 8 (x / 2 ^ 100), BitVec.ofNat 4 (x / 2 ^ 96),
   BitVec.ofNat 48 (x / 2 ^ 48), BitVec.ofNat 48 x⟩

/-- The granule at an address as a capability, with its tag. -/
def Mem.cap (m : Mem) (a : Nat) : Cap := Cap.ofBits (m.tag a) (m.num a 16)

/-- Store a capability with its tag. -/
def Mem.setCap (m : Mem) (a : Nat) (c : Cap) : Mem := (m.write a (natBytes 16 c.bits)).setTag a c.tag

end Sys2Proof.Machine
end

