-- ==== Sys2Proof/Machine/Numbers.lean ====
section
/-! DEFINITION. Number formats, exact values, rounding and conversion (R248 to R256, R259, R260, R262): exact values are dyadic, one rounding ends each operation. -/

namespace Sys2Proof.Machine

/-! ## Flags of %fflags (R253) -/

def flagNV : Word := 1#32
def flagDZ : Word := 2#32
def flagOF : Word := 4#32
def flagUF : Word := 8#32
def flagNX : Word := 16#32
def flagSAT : Word := 32#32
def flagXLN : Word := 64#32
def flagNUV : Word := 128#32
def flagDIVU : Word := 256#32

/-- A flag word that is set when a condition holds. -/
def flagIf (c : Bool) (f : Word) : Word := if c then f else 0#32

/-! ## Formats -/

/-- The rounding modes (R250). -/
inductive RM where
  | rne | rz | rup | rdn
  deriving DecidableEq, Repr

/-- The mode of a two-bit code: 0 RNE, 1 RZ, 2 RUP, 3 RDN (R253, R257). -/
def rmOf (n : Nat) : RM := if n % 4 = 0 then .rne else if n % 4 = 1 then .rz else if n % 4 = 2 then .rup else .rdn

/-- What the patterns above the largest finite value mean (R248): IEEE infinities and NaNs, E4M3's two NaNs, or nothing. -/
inductive Special where
  | ieee | e4m3 | none
  deriving DecidableEq, Repr

/-- A floating-point format (R248): exponent and mantissa widths, bias, the largest finite magnitude as a bit pattern. -/
structure Fmt where
  eb : Nat
  mb : Nat
  bias : Nat
  top : Nat
  special : Special
  deriving DecidableEq, Repr

def fp32 : Fmt := ⟨8, 23, 127, 0x7F7FFFFF, .ieee⟩
def bf16 : Fmt := ⟨8, 7, 127, 0x7F7F, .ieee⟩
def fp16 : Fmt := ⟨5, 10, 15, 0x7BFF, .ieee⟩
def e4m3 : Fmt := ⟨4, 3, 7, 0x7E, .e4m3⟩
def e5m2 : Fmt := ⟨5, 2, 15, 0x7B, .ieee⟩
def e3m2 : Fmt := ⟨3, 2, 3, 0x1F, .none⟩
def e2m3 : Fmt := ⟨2, 3, 1, 0x1F, .none⟩
def e2m1 : Fmt := ⟨2, 1, 1, 0x7, .none⟩

/-- The floating-point format of an element code 0 to 7 (R248). -/
def fmtOf (code : Nat) : Fmt :=
  if code = 0 then fp32 else if code = 1 then bf16 else if code = 2 then fp16 else if code = 3 then e4m3
  else if code = 4 then e5m2 else if code = 5 then e3m2 else if code = 6 then e2m3 else e2m1

/-- The width in bits of an element code (R248, R337). -/
def elemBits (code : Nat) : Nat :=
  if code = 0 ∨ code = 11 then 32 else if code = 1 ∨ code = 2 ∨ code = 10 then 16
  else if code = 5 ∨ code = 6 then 6 else if code = 7 ∨ code = 9 then 4 else 8

/-- An integer element code. -/
def isIntCode (code : Nat) : Bool := 8 ≤ code && code ≤ 11

/-- The format's weight of the sign bit. -/
def Fmt.sign (f : Fmt) : Nat := 2 ^ (f.eb + f.mb)

/-- The infinity's magnitude bits in an IEEE format. -/
def Fmt.infBits (f : Fmt) : Nat := (2 ^ f.eb - 1) * 2 ^ f.mb

/-- The canonical NaN (R255): quiet, positive; 0x7F for E4M3. -/
def Fmt.nan (f : Fmt) : Nat :=
  match f.special with
  | .e4m3 => 0x7F
  | _ => (2 ^ f.eb - 1) * 2 ^ f.mb + 2 ^ (f.mb - 1)

/-- A decoded value: a NaN, an infinity, or the finite value (-1)^neg × m × 2^e (R249). -/
inductive FV where
  | nan (sig : Bool)
  | inf (neg : Bool)
  | fin (neg : Bool) (m : Nat) (e : Int)
  deriving DecidableEq, Repr

/-- Put a sign on magnitude bits. -/
def Fmt.withSign (f : Fmt) (neg : Bool) (mag : Nat) : Nat := if neg then f.sign + mag else mag

/-- The value of a bit pattern (R249). -/
def Fmt.decode (f : Fmt) (b : Nat) : FV :=
  let neg := b / f.sign % 2 == 1
  let e := b / 2 ^ f.mb % 2 ^ f.eb
  let m := b % 2 ^ f.mb
  let v : FV := if e = 0 then .fin neg m (1 - (f.bias : Int) - f.mb) else .fin neg (m + 2 ^ f.mb) ((e : Int) - f.bias - f.mb)
  match f.special with
  | .ieee => if e = 2 ^ f.eb - 1 then (if m = 0 then .inf neg else .nan (m / 2 ^ (f.mb - 1) % 2 == 0)) else v
  | .e4m3 => if e = 15 ∧ m = 7 then .nan false else v
  | .none => v

/-- The pattern is a non-zero subnormal. -/
def Fmt.isSub (f : Fmt) (b : Nat) : Bool := b / 2 ^ f.mb % 2 ^ f.eb == 0 && b % 2 ^ f.mb != 0

/-- A subnormal replaced by zero of the same sign. -/
def Fmt.flush (f : Fmt) (b : Nat) : Nat := if f.isSub b then f.withSign (b / f.sign % 2 == 1) 0 else b

/-! ## Exact dyadic values -/

/-- The exact value m × 2^e. -/
structure Dy where
  m : Int
  e : Int
  deriving DecidableEq, Repr

def Dy.zero : Dy := ⟨0, 0⟩

/-- Exact sum. -/
def Dy.add (a b : Dy) : Dy :=
  if a.m = 0 then b else if b.m = 0 then a
  else if a.e ≤ b.e then ⟨a.m + b.m * 2 ^ (b.e - a.e).toNat, a.e⟩ else ⟨a.m * 2 ^ (a.e - b.e).toNat + b.m, b.e⟩

/-- Exact product. -/
def Dy.mul (a b : Dy) : Dy := ⟨a.m * b.m, a.e + b.e⟩

/-- The exact value of a finite FV. -/
def Dy.of (neg : Bool) (m : Nat) (e : Int) : Dy := ⟨if neg then -(m : Int) else m, e⟩

/-! ## Rounding -/

/-- A rounded result: bits, flags, and whether saturation replaced it. -/
structure RRes where
  bits : Nat
  flags : Word
  sat : Bool
  deriving DecidableEq, Repr

/-- floor(log2(num / den)), num and den positive. -/
def ilog2Q (num den : Nat) : Int :=
  let l : Int := (Nat.log2 num : Int) - Nat.log2 den
  let ge : Bool := if 0 ≤ l then den * 2 ^ l.toNat ≤ num else den ≤ num * 2 ^ (-l).toNat
  if ge then l else l - 1

/-- num / den × 2^e counted in units of 2^u: the rounded count and whether it is inexact (R250 step 1). -/
def roundAt (mode : RM) (neg : Bool) (num den : Nat) (e u : Int) : Nat × Bool :=
  let sc := e - u
  let n := if 0 ≤ sc then num * 2 ^ sc.toNat else num
  let d := if 0 ≤ sc then den else den * 2 ^ (-sc).toNat
  let q := n / d
  let r := n % d
  let up : Bool := match mode with
    | .rne => decide (d < 2 * r) || (2 * r == d && q % 2 == 1)
    | .rz => false
    | .rup => !neg && r != 0
    | .rdn => neg && r != 0
  (if up then q + 1 else q, r != 0)

/-- Overflow under a mode goes to the overflow value rather than the largest finite value (R250 step 2). -/
def toOverflow (mode : RM) (neg : Bool) : Bool :=
  match mode with
  | .rne => true
  | .rz => false
  | .rup => !neg
  | .rdn => neg

/-- Round(fmt, ±num/den × 2^e, mode), with saturation and the flags OF, UF, NX and SAT (R250, R251, R253). num = 0 gives zero of the sign. -/
def Fmt.roundQ (f : Fmt) (mode : RM) (sat : Bool) (neg : Bool) (num den : Nat) (e : Int) : RRes :=
  if num = 0 then ⟨f.withSign neg 0, 0, false⟩ else
  let ex := ilog2Q num den + e
  let emin : Int := 1 - (f.bias : Int)
  let u := max (ex - f.mb) (emin - f.mb)
  let (n0, inexact) := roundAt mode neg num den e u
  let (n, u') := if n0 = 2 ^ (f.mb + 1) then (2 ^ f.mb, u + 1) else (n0, u)
  let mag := if n < 2 ^ f.mb then n else (u' + f.mb + f.bias).toNat * 2 ^ f.mb + (n - 2 ^ f.mb)
  let (nu, _) := roundAt mode neg num den e (ex - f.mb)
  let tiny : Bool := decide (ex < emin) && !(nu == 2 ^ (f.mb + 1) && ex + 1 == emin)
  if f.top < mag then
    match f.special with
    | .none => ⟨f.withSign neg f.top, flagOF ||| flagNX ||| flagSAT, true⟩
    | .ieee =>
      if toOverflow mode neg then
        (if sat then ⟨f.withSign neg f.top, flagOF ||| flagNX ||| flagSAT, true⟩ else ⟨f.withSign neg f.infBits, flagOF ||| flagNX, false⟩)
      else ⟨f.withSign neg f.top, flagOF ||| flagNX, false⟩
    | .e4m3 =>
      if toOverflow mode neg then
        (if sat then ⟨f.withSign neg f.top, flagOF ||| flagNX ||| flagSAT, true⟩ else ⟨f.withSign neg 0x7F, flagOF ||| flagNX, false⟩)
      else ⟨f.withSign neg f.top, flagOF ||| flagNX, false⟩
  else ⟨f.withSign neg mag, flagIf inexact flagNX ||| flagIf (inexact && tiny) flagUF, false⟩

/-- Round an exact dyadic value; an exact zero takes the sign zneg. -/
def Fmt.roundDy (f : Fmt) (mode : RM) (sat zneg : Bool) (x : Dy) : RRes :=
  if x.m = 0 then ⟨f.withSign zneg 0, 0, false⟩ else f.roundQ mode sat (decide (x.m < 0)) x.m.natAbs 1 x.e

/-! ## IEEE operations on decoded values -/

/-- An exact term of a sum: its value, and NV when forming it was invalid. -/
structure Term where
  v : FV
  nv : Bool
  deriving DecidableEq, Repr

/-- A plain operand as a term: a signalling NaN is invalid. -/
def Term.ofFV (x : FV) : Term := ⟨x, match x with | .nan s => s | _ => false⟩

/-- The exact product of two operands; infinity times zero is invalid (R336). -/
def Term.mul (a b : FV) : Term :=
  match a, b with
  | .nan s, .nan t => ⟨.nan false, s || t⟩
  | .nan s, _ => ⟨.nan false, s⟩
  | _, .nan t => ⟨.nan false, t⟩
  | .inf s, .inf t => ⟨.inf (s != t), false⟩
  | .inf s, .fin t m _ => if m = 0 then ⟨.nan false, true⟩ else ⟨.inf (s != t), false⟩
  | .fin t m _, .inf s => if m = 0 then ⟨.nan false, true⟩ else ⟨.inf (s != t), false⟩
  | .fin s m e, .fin t n g => ⟨.fin (s != t) (m * n) (e + g), false⟩

def FV.isNaN : FV → Bool
  | .nan _ => true
  | _ => false

def FV.isInf (neg : Bool) : FV → Bool
  | .inf s => s == neg
  | _ => false

/-- The sign of a zero or finite term. -/
def FV.neg : FV → Bool
  | .nan _ => false
  | .inf s => s
  | .fin s _ _ => s

def FV.isZero : FV → Bool
  | .fin _ m _ => m == 0
  | _ => false

def FV.dy : FV → Dy
  | .fin s m e => Dy.of s m e
  | _ => Dy.zero

/-- Round the exact sum of the terms once (R255, R336): NaN and opposite infinities give the canonical NaN; an exact zero of terms that are not all zeros of one sign is +0, or -0 under RDN. -/
def Fmt.sum (f : Fmt) (mode : RM) (ts : List Term) : RRes :=
  let nv := ts.any (·.nv)
  let opp := ts.any (·.v.isInf true) && ts.any (·.v.isInf false)
  if ts.any (·.v.isNaN) || opp then ⟨f.nan, flagIf (nv || opp) flagNV, false⟩
  else if ts.any (·.v.isInf true) then ⟨f.withSign true f.infBits, 0, false⟩
  else if ts.any (·.v.isInf false) then ⟨f.infBits, 0, false⟩
  else
    let s := ts.foldl (fun acc t => acc.add t.v.dy) Dy.zero
    let zneg := if ts.all (fun t => t.v.isZero && t.v.neg) then true
      else if ts.all (fun t => t.v.isZero && !t.v.neg) then false else mode == .rdn
    f.roundDy mode false zneg s

def Fmt.addBits (f : Fmt) (mode : RM) (x y : Nat) : RRes := f.sum mode [Term.ofFV (f.decode x), Term.ofFV (f.decode y)]

/-- The pattern with its sign inverted. -/
def Fmt.negBits (f : Fmt) (x : Nat) : Nat := if x / f.sign % 2 == 1 then x - f.sign else x + f.sign

def Fmt.subBits (f : Fmt) (mode : RM) (x y : Nat) : RRes := f.addBits mode x (f.negBits y)

def Fmt.mulBits (f : Fmt) (mode : RM) (x y : Nat) : RRes := f.sum mode [Term.mul (f.decode x) (f.decode y)]

def Fmt.fmaBits (f : Fmt) (mode : RM) (x y z : Nat) : RRes :=
  f.sum mode [Term.mul (f.decode x) (f.decode y), Term.ofFV (f.decode z)]

/-- IEEE division (R256). -/
def Fmt.divBits (f : Fmt) (mode : RM) (x y : Nat) : RRes :=
  match f.decode x, f.decode y with
  | .nan s, .nan t => ⟨f.nan, flagIf (s || t) flagNV, false⟩
  | .nan s, _ => ⟨f.nan, flagIf s flagNV, false⟩
  | _, .nan t => ⟨f.nan, flagIf t flagNV, false⟩
  | .inf _, .inf _ => ⟨f.nan, flagNV, false⟩
  | .inf s, .fin t _ _ => ⟨f.withSign (s != t) f.infBits, 0, false⟩
  | .fin s _ _, .inf t => ⟨f.withSign (s != t) 0, 0, false⟩
  | .fin s m e, .fin t n g =>
    if n = 0 then (if m = 0 then ⟨f.nan, flagNV, false⟩ else ⟨f.withSign (s != t) f.infBits, flagDZ, false⟩)
    else f.roundQ mode false (s != t) m n (e - g)

/-- Integer square root by bits, from bit k down. -/
def isqrtGo : Nat → Nat → Nat → Nat
  | 0, n, r => if (r + 1) * (r + 1) ≤ n then r + 1 else r
  | k + 1, n, r => isqrtGo k n (if (r + 2 ^ (k + 1)) * (r + 2 ^ (k + 1)) ≤ n then r + 2 ^ (k + 1) else r)

/-- floor(sqrt n). -/
def isqrt (n : Nat) : Nat := isqrtGo (Nat.log2 n / 2 + 1) n 0

/-- Round the square root of num/den × 2^e, nearest even: the root is taken with 80 more bits than the format and a sticky bit. -/
def Fmt.sqrtQ (f : Fmt) (num den : Nat) (e : Int) : RRes :=
  let e2 := if e % 2 = 0 then e else e - 1
  let n := if e % 2 = 0 then num else num * 2
  let sh := 2 * (80 + Nat.log2 den + 1)
  let t := n * 2 ^ sh / den
  let r := isqrt t
  let exact : Bool := r * r * den == n * 2 ^ sh
  f.roundQ .rne false false (if exact then 2 * r else 2 * r + 1) 1 (e2 / 2 - (sh / 2 : Nat) - 1)

def Fmt.sqrtBits (f : Fmt) (x : Nat) : RRes :=
  match f.decode x with
  | .nan s => ⟨f.nan, flagIf s flagNV, false⟩
  | .inf s => if s then ⟨f.nan, flagNV, false⟩ else ⟨f.infBits, 0, false⟩
  | .fin s m e => if m = 0 then ⟨x, 0, false⟩ else if s then ⟨f.nan, flagNV, false⟩ else f.sqrtQ m 1 e

/-- FRCP (R256). -/
def Fmt.rcpBits (f : Fmt) (x : Nat) : RRes :=
  match f.decode x with
  | .nan s => ⟨f.nan, flagIf s flagNV, false⟩
  | .inf s => ⟨f.withSign s 0, 0, false⟩
  | .fin s m e => if m = 0 then ⟨f.withSign s f.infBits, flagDZ, false⟩ else f.roundQ .rne false s 1 m (-e)

/-- FRSQ (R256). -/
def Fmt.rsqBits (f : Fmt) (x : Nat) : RRes :=
  match f.decode x with
  | .nan s => ⟨f.nan, flagIf s flagNV, false⟩
  | .inf s => if s then ⟨f.nan, flagNV, false⟩ else ⟨0, 0, false⟩
  | .fin s m e => if m = 0 then ⟨f.withSign s f.infBits, flagDZ, false⟩ else if s then ⟨f.nan, flagNV, false⟩ else f.sqrtQ 1 m (-e)

/-- A key that orders the non-NaN patterns of a format by value, both zeros equal. -/
def Fmt.key (f : Fmt) (x : Nat) : Int :=
  let mag := x % f.sign
  if x / f.sign % 2 == 1 then -(mag : Int) else mag

/-- x is below y, with -0 below +0 (R255). -/
def Fmt.below (f : Fmt) (x y : Nat) : Bool :=
  decide (f.key x < f.key y) || (f.key x == f.key y && x / f.sign % 2 == 1 && y / f.sign % 2 == 0)

def Fmt.isNaN (f : Fmt) (x : Nat) : Bool := (f.decode x).isNaN

def Fmt.isSNaN (f : Fmt) (x : Nat) : Bool := match f.decode x with | .nan s => s | _ => false

/-- minimumNumber, or maximumNumber with big set (R255). -/
def Fmt.minMax (f : Fmt) (big : Bool) (x y : Nat) : RRes :=
  let nv := flagIf (f.isSNaN x || f.isSNaN y) flagNV
  if f.isNaN x && f.isNaN y then ⟨f.nan, nv, false⟩
  else if f.isNaN x then ⟨y, nv, false⟩
  else if f.isNaN y then ⟨x, nv, false⟩
  else ⟨if f.below x y != big then x else y, nv, false⟩

/-- x rounded to an integral value in its own format; NX is not set (R333). -/
def Fmt.roundInt (f : Fmt) (mode : RM) (x : Nat) : RRes :=
  match f.decode x with
  | .nan s => ⟨f.nan, flagIf s flagNV, false⟩
  | .inf _ => ⟨x, 0, false⟩
  | .fin s m e => if 0 ≤ e then ⟨x, 0, false⟩ else
    let (n, _) := roundAt mode s m 1 e 0
    ⟨(f.roundQ mode false s n 1 0).bits, 0, false⟩

/-- x × 2^n (R333). Scales beyond ±1,000 overflow or underflow as 1,000 does in these formats. -/
def Fmt.scale (f : Fmt) (mode : RM) (x : Nat) (n : Int) : RRes :=
  match f.decode x with
  | .nan s => ⟨f.nan, flagIf s flagNV, false⟩
  | .inf _ => ⟨x, 0, false⟩
  | .fin s m e => f.roundQ mode false s m 1 (e + max (-1000) (min 1000 n))

/-- The class bit of FCLASS (R335). -/
def Fmt.classBit (f : Fmt) (x : Nat) : Nat :=
  let neg := x / f.sign % 2 == 1
  match f.decode x with
  | .nan s => if s then 8 else 9
  | .inf s => if s then 0 else 7
  | .fin _ m _ =>
    if m = 0 then (if neg then 3 else 4)
    else if f.isSub x then (if neg then 2 else 5) else (if neg then 1 else 6)

/-! ## Slots and conversion (R257 to R260) -/

/-- Fields of a format slot (R257). -/
def slotElem (s : DWord) : Nat := s.toNat % 16
def slotScale (s : DWord) : Nat := s.toNat / 16 % 16
def slotRing (s : DWord) : Nat := s.toNat / 256 % 64
def slotRound (s : DWord) : Nat := s.toNat / 2 ^ 14 % 4
def slotSat (s : DWord) : Bool := s.toNat / 2 ^ 16 % 2 == 1
def slotFlush (s : DWord) : Bool := s.toNat / 2 ^ 17 % 2 == 1
def slotMargin (s : DWord) : Int :=
  let m : Nat := s.toNat / 2 ^ 18 % 64
  if m < 32 then (m : Int) else (m : Int) - 64
def slotStatic (s : DWord) : Nat := s.toNat / 2 ^ 32 % 2 ^ 32

/-- The slot's combination of element code and scale mode may be used (R258). -/
def slotUsable (s : DWord) : Bool :=
  if slotElem s = 12 then slotScale s == 0
  else if slotScale s ≤ 2 then slotElem s ≤ 11
  else slotScale s ≤ 5 && 3 ≤ slotElem s && slotElem s ≤ 9

/-- The block size of scale modes 3 to 5 (R257). -/
def blockSize (mode : Nat) : Nat := if mode = 3 then 32 else 16

/-- Sign-extend an n-bit number. -/
def sx (n x : Nat) : Int :=
  let y : Nat := x % 2 ^ n
  if y < 2 ^ (n - 1) then (y : Int) else (y : Int) - ((2 ^ n : Nat) : Int)

/-- The value of an element's bits, before its decode factor (R249). -/
def elemDecode (code : Nat) (bits : Nat) : FV :=
  if code = 12 then (if bits % 256 = 255 then .nan false else .fin false 1 ((bits % 256 : Nat) - 127))
  else if isIntCode code then
    let v := sx (elemBits code) bits
    .fin (decide (v < 0)) v.natAbs 0
  else (fmtOf code).decode (bits % 2 ^ elemBits code)

/-- An element with a subnormal replaced by zero when flush is set (R257, R259). -/
def elemDecodeFlush (flush : Bool) (code bits : Nat) : FV :=
  if flush && code < 8 then elemDecode code ((fmtOf code).flush (bits % 2 ^ elemBits code)) else elemDecode code bits

/-- The largest value of a format as an integer multiple of 2^e: for R262 and R265. -/
def elemLargest (code : Nat) : Dy :=
  if isIntCode code then ⟨2 ^ (elemBits code - 1) - 1, 0⟩
  else if code = 12 then ⟨1, 127⟩
  else ((fmtOf code).decode (fmtOf code).top).dy

/-- Writing x ÷ F into an integer format: round, then clamp (R252, R260). Both flags are set when both steps change the value (log entry 11). -/
def writeInt (bits : Nat) (mode : RM) (x F : FV) : RRes :=
  let hi : Int := 2 ^ (bits - 1) - 1
  let lo : Int := -(2 ^ (bits - 1))
  let enc (v : Int) : Nat := (v % 2 ^ bits).toNat
  match x, F with
  | .nan _, _ => ⟨0, flagNV, false⟩
  | _, .nan _ => ⟨0, flagNV, false⟩
  | .inf _, .inf _ => ⟨0, flagNV, false⟩
  | .fin _ _ _, .inf _ => ⟨0, 0, false⟩
  | .inf s, .fin t n _ => if n = 0 then ⟨0, flagNV, false⟩ else ⟨enc (if s != t then lo else hi), flagNV, true⟩
  | .fin s m e, .fin t n g =>
    if n = 0 then ⟨0, flagNV, false⟩ else
    let (q, inexact) := roundAt mode (s != t) m n (e - g) 0
    let v : Int := if s != t then -(q : Int) else q
    if v < lo then ⟨enc lo, flagNV ||| flagIf inexact flagNX, true⟩
    else if hi < v then ⟨enc hi, flagNV ||| flagIf inexact flagNX, true⟩
    else ⟨enc v, flagIf inexact flagNX, false⟩

/-- Conversion into E8M0 (R251). -/
def writeE8M0 (mode : RM) (x F : FV) : RRes :=
  match x, F with
  | .nan _, _ => ⟨0xFF, flagNV, false⟩
  | _, .nan _ => ⟨0xFF, flagNV, false⟩
  | .inf _, .inf _ => ⟨0xFF, flagNV, false⟩
  | .inf s, .fin t n _ => if n = 0 ∨ s != t then ⟨0xFF, flagNV, false⟩ else ⟨0xFE, flagSAT, true⟩
  | .fin _ _ _, .inf _ => ⟨0xFF, flagNV, false⟩
  | .fin s m e, .fin t n g =>
    if m = 0 ∨ n = 0 ∨ s != t then ⟨0xFF, flagNV, false⟩ else
    let ex := ilog2Q m n + (e - g)
    let (q, inexact) := roundAt mode false m n (e - g) ex
    let p := if q = 2 then ex + 1 else ex
    if p < -127 then ⟨0, flagSAT ||| flagNX, true⟩
    else if 127 < p then ⟨0xFE, flagSAT ||| flagNX, true⟩
    else ⟨(p + 127).toNat, flagIf inexact flagNX, false⟩

/-- Writing x ÷ F into a floating-point format (R250, R251, R260), with saturation and result flushing. -/
def writeFloat (code : Nat) (mode : RM) (sat flush : Bool) (x F : FV) : RRes :=
  let f := fmtOf code
  let nanRes (neg nv : Bool) : RRes :=
    match f.special with
    | .none => ⟨0, flagNV, false⟩
    | .e4m3 => ⟨f.withSign neg 0x7F, flagIf nv flagNV, false⟩
    | .ieee => ⟨f.nan, flagIf nv flagNV, false⟩
  let infRes (neg : Bool) : RRes :=
    match f.special with
    | .none => ⟨f.withSign neg f.top, flagSAT, true⟩
    | .e4m3 => if sat then ⟨f.withSign neg f.top, flagSAT, true⟩ else nanRes neg true
    | .ieee => if sat then ⟨f.withSign neg f.top, flagSAT, true⟩ else ⟨f.withSign neg f.infBits, 0, false⟩
  match x, F with
  | _, .nan _ => nanRes false true
  | .nan s, .inf _ => nanRes false s
  | .nan s, .fin _ n _ => nanRes false (s || n == 0)
  | .inf _, .inf _ => nanRes false true
  | .inf s, .fin t n _ => if n = 0 then nanRes false true else infRes (s != t)
  | .fin s _ _, .inf t => ⟨f.withSign (s != t) 0, 0, false⟩
  | .fin s m e, .fin t n g =>
    if n = 0 then nanRes false true else
    let r := f.roundQ mode sat (s != t) m n (e - g)
    if flush && f.isSub r.bits then ⟨f.flush r.bits, flagUF ||| flagNX, r.sat⟩ else r

/-- Write the exact value x ÷ F in an element format (R259, R260). -/
def elemWrite (code : Nat) (mode : RM) (sat flush : Bool) (x F : FV) : RRes :=
  if code = 12 then writeE8M0 mode x F
  else if isIntCode code then writeInt (elemBits code) mode x F
  else writeFloat code mode sat flush x F

/-- Direct integer conversion (R252): wrap, or clamp with SAT. -/
def writeDirect (bits : Nat) (sat : Bool) (v : Int) : RRes :=
  let hi : Int := 2 ^ (bits - 1) - 1
  let lo : Int := -(2 ^ (bits - 1))
  let enc (v : Int) : Nat := (v % 2 ^ bits).toNat
  if sat && v < lo then ⟨enc lo, flagSAT, true⟩ else if sat && hi < v then ⟨enc hi, flagSAT, true⟩ else ⟨enc v, 0, false⟩

/-- The product q × F as an exact value or special (R260). -/
def timesFactor (q F : FV) : FV := (Term.mul q F).v

/-- 2^n as a decode factor. -/
def pow2FV (n : Int) : FV := .fin false 1 n

/-- The factor F of scale modes 0 to 2: 1, STATIC, or 2^-e (R260). -/
def slotFactor (s : DWord) (e : Int) : FV :=
  if slotScale s = 1 then fp32.decode (slotStatic s) else if slotScale s = 2 then pow2FV (-e) else pow2FV 0

/-- Two factors are the same number, however each is written. -/
def FV.same (x y : FV) : Bool :=
  match x, y with
  | .fin s m e, .fin t n d => s == t && m * 2 ^ (e - d).toNat == n * 2 ^ (d - e).toNat
  | _, _ => x == y

/-- A conversion through slots (R259, R337, R252): source slot and bits, destination slot, mode, saturation, both ring exponents. Between formats of one code with one factor it is exact (R251). -/
def convert (src : DWord) (srcE : Int) (bits : Nat) (dst : DWord) (dstE : Int) (mode : RM) (satBit : Bool) : RRes :=
  let sc := slotElem src
  let dc := slotElem dst
  let sat := satBit || slotSat dst
  let Fs := slotFactor src srcE
  let Fd := slotFactor dst dstE
  if sc = dc && Fs.same Fd then ⟨bits % 2 ^ elemBits sc, 0, false⟩
  else if isIntCode sc && isIntCode dc && slotScale src == 0 && slotScale dst == 0 then
    writeDirect (elemBits dc) sat (sx (elemBits sc) bits)
  else
    let q := elemDecodeFlush (slotFlush src) sc bits
    let x := match q, Fs with
      | .nan s, _ => FV.nan s
      | _, _ => timesFactor q Fs
    elemWrite dc mode sat (slotFlush dst) x Fd

/-- floor(log2 of a positive dyadic value). -/
def Dy.log2 (x : Dy) : Int := (Nat.log2 x.m.natAbs : Int) + x.e

/-- emax of R262. -/
def blockEmax (code : Nat) : Int :=
  if code = 3 then 8 else if code = 4 then 15 else if code = 5 then 4 else if code = 6 then 2 else if code = 7 then 2
  else if code = 8 then 6 else 2

/-- The computed block scale byte of R262 from amax, an FP32 magnitude or special. -/
def blockScale (mode code : Nat) (amax : FV) : Nat :=
  match amax with
  | .nan _ => if mode = 5 then 0x7F else 0xFF
  | .inf _ => if mode = 5 then 0x7F else 0xFF
  | .fin _ m e =>
    if m = 0 then (if mode = 5 then 0x38 else 0x7F)
    else if mode = 5 then
      let l := elemLargest code
      let r := e4m3.roundQ .rup true false m l.m.natAbs (e - l.e)
      max 1 (min 0x7E r.bits)
    else (max 0 (min 254 ((Dy.of false m e).log2 - blockEmax code + 127))).toNat

/-- The decode factor of a block scale byte (R260, R341). -/
def blockFactor (mode byte : Nat) : FV := if mode = 5 then e4m3.decode (byte % 256) else elemDecode 12 byte

/-- The ring exponent (R265): m is the largest valid entry, or none. -/
def ringExponent (slot : DWord) (m : Option FV) : Int :=
  match m with
  | none => 0
  | some (.fin _ n e) =>
    if n = 0 then 0 else
    let l := elemLargest (slotElem slot)
    max (-127) (min 127 (ilog2Q l.m.natAbs n + (l.e - e) - slotMargin slot))
  | some (.inf _) => -127
  | some (.nan _) => 0

end Sys2Proof.Machine
end

