-- ==== Sys2Proof/Machine/Look.lean ====
section
/-! DEFINITION. Named reads and updates of the state: workgroups, fibres, launches, gangs, queues, cores, commands; the agenda; and the free choices. -/

namespace Sys2Proof.Machine

/-! ## Workgroups and fibres -/

/-- A workgroup by launch number and %wgid. -/
def State.wg (s : State) (l w : Nat) : Option Wg := s.wgs.find? (fun g => g.launch == l && g.wgid == w)

/-- Change one workgroup. -/
def State.modWg (s : State) (l w : Nat) (f : Wg → Wg) : State :=
  { s with wgs := s.wgs.map (fun g => if g.launch == l && g.wgid == w then f g else g) }

/-- A live fibre of a workgroup. -/
def Wg.fib (g : Wg) (fid : Nat) : Option Fibre := g.fibres.find? (fun f => f.fid == fid)

/-- Change one fibre of a workgroup. -/
def Wg.modFib (g : Wg) (fid : Nat) (f : Fibre → Fibre) : Wg :=
  { g with fibres := g.fibres.map (fun x => if x.fid == fid then f x else x) }

/-- A live fibre. -/
def State.fib (s : State) (id : FibId) : Option Fibre := (s.wg id.launch id.wgid).bind (fun g => g.fib id.fid)

/-- Change one fibre. -/
def State.modFib (s : State) (id : FibId) (f : Fibre → Fibre) : State :=
  s.modWg id.launch id.wgid (fun g => g.modFib id.fid f)

/-- Every live fibre with its name. -/
def State.allFibres (s : State) : List (FibId × Fibre) :=
  s.wgs.flatMap (fun g => g.fibres.map (fun f => (⟨g.launch, g.wgid, f.fid⟩, f)))

/-- Change every fibre. -/
def State.mapFibres (s : State) (f : FibId → Fibre → Fibre) : State :=
  { s with wgs := s.wgs.map (fun g => { g with fibres := g.fibres.map (fun x => f ⟨g.launch, g.wgid, x.fid⟩ x) }) }

/-- A launch by number. -/
def State.launch (s : State) (l : Nat) : Option Launch := s.launches.find? (fun x => x.id == l)

/-- Change one launch. -/
def State.modLaunch (s : State) (l : Nat) (f : Launch → Launch) : State :=
  { s with launches := s.launches.map (fun x => if x.id == l then f x else x) }

/-- A placed gang. -/
def State.gang (s : State) (l k : Nat) : Option Gang := s.gangs.find? (fun g => g.launch == l && g.index == k)

/-- Change one gang. -/
def State.modGang (s : State) (l k : Nat) (f : Gang → Gang) : State :=
  { s with gangs := s.gangs.map (fun g => if g.launch == l && g.index == k then f g else g) }

/-- A bound queue. -/
def State.queue (s : State) (q : Nat) : Option Queue := s.queues.find? (fun x => x.q == q)

/-- Change one queue. -/
def State.modQueue (s : State) (q : Nat) (f : Queue → Queue) : State :=
  { s with queues := s.queues.map (fun x => if x.q == q then f x else x) }

/-- A core with nothing in it. -/
def Core.empty (n : Nat) : Core := ⟨n, [], [], [], [], 3, 3, []⟩

/-- A core. -/
def State.core (s : State) (n : Nat) : Core := (s.cores.find? (fun c => c.id == n)).getD (Core.empty n)

/-- Replace or add a core. -/
def State.setCore (s : State) (c : Core) : State :=
  { s with cores := if s.cores.any (fun x => x.id == c.id) then s.cores.map (fun x => if x.id == c.id then c else x) else c :: s.cores }

/-- Change one core. -/
def State.modCore (s : State) (n : Nat) (f : Core → Core) : State := s.setCore (f (s.core n))

/-- An engine command. -/
def State.cmd (s : State) (n : Nat) : Option Command := s.cmds.find? (fun c => c.id == n)

/-- Change one command. -/
def State.modCmd (s : State) (n : Nat) (f : Command → Command) : State :=
  { s with cmds := s.cmds.map (fun c => if c.id == n then f c else c) }

/-- An ASID descriptor. -/
def State.asid (s : State) (a : Nat) : Option AsidDesc := s.asids.find? (fun d => d.asid == a)

/-- Change one ASID descriptor. -/
def State.modAsid (s : State) (a : Nat) (f : AsidDesc → AsidDesc) : State :=
  { s with asids := s.asids.map (fun d => if d.asid == a then f d else d) }

/-- A peer position. -/
def State.peer (s : State) (p : Nat) : Peer := s.peers.getD p ⟨false, false, false, 0, 0, 0⟩

/-- Change one peer. -/
def State.modPeer (s : State) (p : Nat) (f : Peer → Peer) : State :=
  { s with peers := s.peers.set p (f (s.peer p)) }

/-- Replace an element of a list by position, or leave the list. -/
def setAt {α : Type} (xs : List α) (n : Nat) (x : α) : List α := xs.set n x

/-! ## Time and the agenda -/

/-- Fabric time in ticks (R19). -/
def State.ticks (s : State) : Nat := s.ftime.toNat

/-- Insert an entry behind every entry that is not later. -/
def agendaInsert : List Timed → Timed → List Timed
  | [], t => [t]
  | x :: xs, t => if x.due ≤ t.due then x :: agendaInsert xs t else t :: x :: xs

/-- Put an operation on the agenda. -/
def State.at (s : State) (due : Nat) (ev : Instr) : State := { s with agenda := agendaInsert s.agenda ⟨due, ev⟩ }

/-- Put an operation on the agenda so many ticks from now. -/
def State.later (s : State) (ns : Nat) (ev : Instr) : State := s.at (s.ticks + ns) ev

/-- The node time epoch: the count at which this node first raised FULL, 0 before (R106, log entry 22). -/
def State.epoch (s : State) : Nat := s.sync.epoch.getD 0

/-- %ftime: fabric ticks since the node time epoch (R19). -/
def State.fabric (s : State) : Nat := s.ticks - s.epoch

/-- Put an operation on the agenda at a value of %ftime. -/
def State.atFabric (s : State) (due : Nat) (ev : Instr) : State := s.at (due + s.epoch) ev

/-- A number never used before. -/
def State.stamp (s : State) : State := { s with fresh := s.fresh + 1 }

/-- A free choice below n (log entry 2). -/
def State.choice (s : State) (n : Nat) : Nat × State :=
  (if n = 0 then 0 else Config.freeNat s.freeCount % n, { s with freeCount := s.freeCount + 1 })

/-- n free bytes (log entry 3). -/
def State.freeBytes (s : State) (n : Nat) : List Byte × State :=
  ((List.range n).map (fun k => Config.freeByte (s.freeCount + k)), { s with freeCount := s.freeCount + n })

/-! ## Numbers of the package -/

/-- The die of a core (R10). -/
def dieOf (core : Nat) : Nat := core / 128

/-- The core block of a core (R10). -/
def blockOf (core : Nat) : Nat := core / 8

/-- The 4 KiB stack granule of a physical address within its die (R12). -/
def granuleOf (pa : Nat) : Nat := pa % Config.dieBytes / 4096

/-- The HBM4 stack of a physical address: 3 × die + s (R10, R12). -/
def stackOf (pa : Nat) : Nat := 3 * (pa / Config.dieBytes) + granuleOf pa % 3

/-- The address within the stack (R12). -/
def stackAddr (pa : Nat) : Nat := granuleOf pa / 3 * 4096 + pa % Config.dieBytes % 4096

/-- The stack channel, one of 32 (R12). -/
def channelOf (pa : Nat) : Nat := bitsOf (stackAddr pa) 8 5 ^^^ bitsOf (stackAddr pa) 13 5

/-- The home slice of a physical address (R12). -/
def homeSlice (pa : Nat) : Nat :=
  64 * (pa / Config.dieBytes) + (bitsOf pa 8 6 ^^^ bitsOf pa 14 6 ^^^ bitsOf pa 20 6)

/-- The quarter of a fibre (R153). -/
def quarterOf (fid : Nat) : Nat := fid / 64 % 4

/-- The crew of a fibre (R153). -/
def crewOf (L : Launch) (fid : Nat) : Nat := fid / L.crew

/-- LIMITED is set and FULL is clear (R100). -/
def State.limitedOnly (s : State) : Bool := s.mg.limited && !s.mg.full

/-- The device supervisor serves: in limited or full service (R100), on a leader that has not stopped and that no other pair is replacing (R109, R110). -/
def State.supervised (s : State) : Bool :=
  (s.mg.limited || s.mg.full) && s.takeover.isNone && (s.svc.getD s.mg.leader.toNat ⟨false, 0, false⟩).healthy

/-- The ACCEPT0 word that counts now (R103). -/
def State.acceptNow (s : State) : Word := if s.mg.full then s.mg.inForce else s.mg.accept.getD 0 0

/-- Append an ERRLOG entry (R108). -/
def State.logError (s : State) (asid whr unit kind : Nat) : State :=
  let e : DWord := BitVec.ofNat 64 ((s.fabric / 1024 % 2 ^ 24) * 2 ^ 40 + asid % 4096 * 2 ^ 28 + whr % 2 ^ 20 * 256 + unit % 16 * 16 + kind % 16)
  { s with mg := { s.mg with errlog := s.mg.errlog.set s.mg.errhead e, errhead := (s.mg.errhead + 1) % 32 } }

/-- Send an event to management. -/
def State.toMgmt (s : State) (m : MgmtOut) : State := { s with mgmtOut := s.mgmtOut ++ [m] }

/-- Fold a state over a list. -/
def State.over {α : Type} (s : State) (xs : List α) (f : State → α → State) : State := xs.foldl f s

end Sys2Proof.Machine
end

