-- ==== Sys2Proof/Machine/Clock.lean ====
section
/-! DEFINITION. Time: the arithmetic clock at its throttle state (R18, R20, R100), fabric time with its slewing (R19, R106), and the advance by one cycle. -/

namespace Sys2Proof.Machine

/-- The throttle state shown in PWRSTAT (R22). -/
def Mgmt.throttle (m : Mgmt) : Nat := m.pwrstat.toNat % 4

/-- The length of a cycle of the arithmetic clock, in units of 1/105 ns: 1.75, 1.50, 1.25 and 0.875 GHz (R20); 0.875 GHz in limited service (R100). -/
def State.cycleUnits (s : State) : Nat :=
  if s.limitedOnly then 120
  else match s.mg.throttle with
    | 0 => 60
    | 1 => 70
    | 2 => 84
    | _ => 120

/-- One tick of the fabric clock: the count rises by one, and by one more or one less at every 1,024th tick while a correction is being slewed (R106). -/
def State.tick (s : State) : State :=
  let y := s.sync
  if y.slew = 0 then { s with ftime := s.ftime + 1, sync := { y with slewTicks := 0 } }
  else if y.slewTicks + 1 < 1024 then { s with ftime := s.ftime + 1, sync := { y with slewTicks := y.slewTicks + 1 } }
  else if 0 < y.slew then { s with ftime := s.ftime + 2, sync := { y with slewTicks := 0, slew := y.slew - 1 } }
  else { s with sync := { y with slewTicks := 0, slew := y.slew + 1 } }

/-- So many ticks. -/
def State.ticksOn : Nat → State → State
  | 0, s => s
  | n + 1, s => ticksOn n s.tick

/-- The next cycle of the arithmetic clock: the pickers start again at the first quarter (R19, R162). -/
def State.advance (s : State) : State :=
  let u := s.cycleUnits
  let n := (s.now + u) / 105 - s.now / 105
  ticksOn n { s with now := s.now + u, clock := s.clock + 1, turn := 0 }

end Sys2Proof.Machine
end

