-- ==== Sys2Proof/Machine/CrewOps.lean ====
section
/-! DEFINITION. What a crew operation computes once its rendezvous has completed (R347 to R355): pure functions of the contributions. -/

namespace Sys2Proof.Machine

/-- The predicate that a combine mode writes: c is the result, q the old value (R329). -/
def combine (k : BitVec 3) (q c : Bool) : Bool :=
  match k.toNat with
  | 0 => c
  | 1 => q && c
  | 2 => q || c
  | 3 => q != c
  | 4 => !c
  | 5 => q && !c
  | _ => q || !c

/-- A word from a truth value. -/
def wordOf (b : Bool) : Word := if b then 1#32 else 0#32

/-- A crew operand: at each position, the two words carried by a member that has arrived and executes. -/
abbrev CrewIn := List (Option (Word × Word))

/-- The contribution at a position, or the identity (R347). -/
def CrewIn.x (m : CrewIn) (id : Word) (n : Nat) : Word :=
  match m.getD n none with
  | none => id
  | some v => v.1

/-- The identity of a reduction (R351). -/
def credId (o : BitVec 4) : Word :=
  match o.toNat with
  | 2 => 0x7FFFFFFF#32
  | 3 => 0x80000000#32
  | 4 => 0xFFFFFFFF#32
  | 6 => 0xFFFFFFFF#32
  | 10 => 0x7FC00000#32
  | 11 => 0x7FC00000#32
  | _ => 0#32

/-- One step of a reduction with its flags (R348, R351). -/
def credOp (o : BitVec 4) (x y : Word) : Word × Word :=
  match o.toNat with
  | 0 => (x + y, 0)
  | 1 =>
    let v := x.toInt + y.toInt
    if v < -2147483648 then (0x80000000#32, flagSAT) else if 2147483647 < v then (0x7FFFFFFF#32, flagSAT) else (x + y, 0)
  | 2 => (if x.toInt ≤ y.toInt then x else y, 0)
  | 3 => (if x.toInt ≤ y.toInt then y else x, 0)
  | 4 => (if x.toNat ≤ y.toNat then x else y, 0)
  | 5 => (if x.toNat ≤ y.toNat then y else x, 0)
  | 6 => (x &&& y, 0)
  | 7 => (x ||| y, 0)
  | 8 => (x ^^^ y, 0)
  | 9 =>
    let r := fp32.addBits .rne x.toNat y.toNat
    (BitVec.ofNat 32 r.bits, r.flags &&& (flagNV ||| flagOF ||| flagNX))
  | 10 =>
    let r := fp32.minMax false x.toNat y.toNat
    (BitVec.ofNat 32 r.bits, r.flags)
  | _ =>
    let r := fp32.minMax true x.toNat y.toNat
    (BitVec.ofNat 32 r.bits, r.flags)

/-- One level of the tree of R352. -/
def credPairs (o : BitVec 4) : List Word → List Word × Word
  | x :: y :: rest =>
    let r := credOp o x y
    let t := credPairs o rest
    (r.1 :: t.1, r.2 ||| t.2)
  | xs => (xs, 0)

/-- The pairwise tree of R352 over 2^n words. -/
def credTree (o : BitVec 4) : Nat → List Word → Word × Word
  | 0, xs => (xs.headD 0, 0)
  | n + 1, xs =>
    let l := credPairs o xs
    let t := credTree o n l.1
    (t.1, l.2 ||| t.2)

/-- The running folds of R353 from a value on. -/
def scanGo (o : BitVec 4) (acc : Word) : List Word → List Word × Word
  | [] => ([], 0)
  | x :: xs =>
    let r := credOp o acc x
    let t := scanGo o r.1 xs
    (r.1 :: t.1, r.2 ||| t.2)

/-- The folds s[0], s[1], ... of R353 with their flags. -/
def scanAll (o : BitVec 4) : List Word → List Word × Word
  | [] => ([], 0)
  | x :: xs =>
    let t := scanGo o x xs
    (x :: t.1, t.2)

/-- A mask as a number from the positions where a test holds. -/
def maskOf (W : Nat) (p : Nat → Bool) : Nat := (List.range W).foldl (fun acc k => if p k then acc + 2 ^ k else acc) 0

/-- A mask written to a register, or to a pair in a crew of 64 (R347). -/
def maskWB (W : Nat) (d : Nat) (x : Nat) : List WB :=
  if W = 64 then [.v d (BitVec.ofNat 32 x), .v (d + 1) (BitVec.ofNat 32 (x / 2 ^ 32))] else [.v d (BitVec.ofNat 32 x)]

/-- What the member at position L receives, and the flags of the whole operation, in a crew of width W; live lists the positions that the mask names and that have not exited (R347 to R355). -/
def crewResult (i : Instr) (W : Nat) (m : CrewIn) (live : List Bool) (L : Nat) : List WB × Word :=
  let own : Word × Word := (m.getD L none).getD (0, 0)
  match i with
  | .shfl d _ _ => ([.v d.toNat (m.x 0 (own.2.toNat % W))], 0)
  | .shflx d _ _ => ([.v d.toNat (m.x 0 (L ^^^ (own.2.toNat % W)))], 0)
  | .slide d _ _ u k =>
    if u then ([.v d.toNat (if L + k.toNat < W then m.x 0 (L + k.toNat) else own.2)], 0)
    else ([.v d.toNat (if k.toNat ≤ L then m.x 0 (L - k.toNat) else own.2)], 0)
  | .voteBallot d _ => (maskWB W d.toNat (maskOf W (fun n => m.x 0 n != 0)), 0)
  | .voteAny k p _ => ([.p p.toNat (combine k (own.2 != 0) ((List.range W).any (fun n => m.x 0 n != 0)))], 0)
  | .voteAll k p _ => ([.p p.toNat (combine k (own.2 != 0) ((List.range W).all (fun n => !live.getD n false || m.x 0 n != 0)))], 0)
  | .voteCount d _ => ([.v d.toNat (BitVec.ofNat 32 ((List.range W).filter (fun n => m.x 0 n != 0)).length)], 0)
  | .cred d _ o =>
    let t := credTree o (Nat.log2 W) ((List.range W).map (m.x (credId o)))
    ([.v d.toNat t.1], t.2)
  | .cscan d _ x o =>
    let t := scanAll o ((List.range W).map (m.x (credId o)))
    ([.v d.toNat (if x then (if L = 0 then credId o else t.1.getD (L - 1) 0) else t.1.getD L 0)], t.2)
  | .elect p a =>
    let e := (List.range W).find? (fun n => (m.getD n none).isSome)
    ([.p p.toNat (e == some L), .v a.toNat (BitVec.ofNat 32 (e.getD 0))], 0)
  | .matchv d _ => (maskWB W d.toNat (maskOf W (fun n => match m.getD n none with
      | none => false
      | some v => v.1 == own.1)), 0)
  | _ => ([], 0)

end Sys2Proof.Machine
end

