-- ==== Sys2Proof/Machine/Xlat.lean ====
section
/-! DEFINITION. Object tables and translation (R207 to R213), reads and writes at the home slices with the confidential keys (R93), the tail rule (R113) and the wake-ups of watched cells (R89, R374). -/

namespace Sys2Proof.Machine

/-! ## Uncorrectable errors in memory (R107) -/

/-- The sectors whose copy in a home slice is uncorrectable. -/
def State.homeHurts (s : State) : List Nat := s.hurts.filterMap (fun h => match h with
  | .home b _ => some b
  | _ => none)

/-- A sector reaches into n bytes from an address. -/
def sectorIn (a n b : Nat) : Bool := decide (a < 64 * b + 64) && decide (64 * b < a + n)

/-- An uncorrectable sector, of memory or of a home slice, holds one of n bytes (R107). -/
def State.isBad (s : State) (a n : Nat) : Bool := s.bad.any (sectorIn a n) || s.homeHurts.any (sectorIn a n)

/-- A table in memory cannot be read: an uncorrectable sector, or an address outside memory (R13, R107). -/
def State.wordLost (s : State) (a n : Nat) : Bool := s.isBad a n || decide (Config.memTop < a + n)

/-! ## Object-table entries -/

/-- The 32-byte entry at a physical address (R208). -/
def OEntry.read (m : Mem) (a : Nat) : OEntry :=
  let w := m.num a 8
  ⟨bitsOf w 60 4, bitsOf w 59 1 == 1, bitsOf w 58 1 == 1, bitsOf w 57 1 == 1, bitsOf w 56 1 == 1, bitsOf w 54 2, bitsOf w 0 48,
   bitsOf (m.num (a + 8) 8) 32 32, BitVec.ofNat 64 (m.num (a + 16) 8), BitVec.ofNat 64 (m.num (a + 24) 8)⟩

/-- The physical address of an object's entry. -/
def AsidDesc.entryPA (d : AsidDesc) (obj : Nat) : Nat := d.otroot + 32 * obj

/-- The entry of an object, read from memory; none when the descriptor is not LIVE or the number is at or above OBJECTS. -/
def State.entry (s : State) (asid obj : Nat) : Option OEntry :=
  (s.asid asid).bind (fun d => if d.live && decide (obj < d.objects) then some (OEntry.read s.mem (d.entryPA obj)) else none)

/-- Where the entry of an object stands. -/
def State.entryAt (s : State) (asid obj : Nat) : Nat := ((s.asid asid).map (fun d => d.entryPA obj)).getD 0

/-- The page size of a page list. -/
def OEntry.pageSize (e : OEntry) : Nat := if e.typ = 2 then 65536 else 2097152

/-- The entry is a page list. -/
def OEntry.paged (e : OEntry) : Bool := e.typ == 2 || e.typ == 3

/-- The physical address of a page-list word. -/
def OEntry.wordPA (e : OEntry) (page : Nat) : Nat := e.t0.toNat % 2 ^ 40 + 8 * page

/-- P, MIG and the page address of a page-list word (R209). -/
def pageP (w : DWord) : Bool := w.getLsbD 63
def pageMig (w : DWord) : Bool := w.getLsbD 62
def pageAddr (w : DWord) : Nat := w.toNat % 2 ^ 40

/-- The peer position, ASID and object of a peer entry (R209). -/
def OEntry.peerPos (e : OEntry) : Nat := bitsOf e.t1.toNat 0 4
def OEntry.peerAsid (e : OEntry) : Nat := bitsOf e.t1.toNat 16 12
def OEntry.peerObj (e : OEntry) : Nat := bitsOf e.t1.toNat 32 20

/-! ## Translation -/

/-- What a translation answers (R210): a physical address (and whether it lies in a notify object), a fault, data lost at an address of memory or of a table in it, or an address outside memory (R13, R107), a host address, a peer object, or a cache miss on the entry or on one page word. -/
inductive XOut where
  | pa (a : Nat) (notify : Bool)
  | fault (tag : BitVec 12)
  | lost (a : Nat)
  | host (link addr : Nat)
  | peer (pos pasid pobj : Nat) (rc : Bool)
  | miss (page : Option Nat)
  deriving DecidableEq, Repr

/-- An access to translate: address space, object, offset, size, direction, and whether it comes through a capability of kind notify. -/
structure XReq where
  asid : Nat
  obj : Nat
  off : Nat
  size : Nat
  write : Bool
  viaNotify : Bool
  deriving DecidableEq, Repr

/-- The address that translation found, or the faults of R13 and R100. -/
def State.landed (s : State) (a size : Nat) (notify : Bool) : XOut :=
  if s.limitedOnly && decide (Config.dieBytes < a + size) then .fault 0x0D1#12
  else if Config.memTop < a + size then .lost a
  else .pa a notify

/-- The tray link that carries requests to a host range: the entry's own, or, once that has failed and is not spared, the next one that works (R16, log entry 26). -/
def State.trayLink (s : State) (k : Nat) : Nat :=
  (((List.range 4).map (fun j => (k + j) % 4)).find? (fun j => !(s.tray.getD j ⟨false, [], []⟩).failed)).getD k

/-- RC holds for a region of an object: its entry has RC, and no shoot-down has revoked it since RC was set (R37, R38). -/
def State.rcOn (s : State) (e : OEntry) (asid obj off : Nat) : Bool :=
  e.rc && !s.unrc.contains (if e.typ = 5 then (e.peerPos, e.peerAsid, e.peerObj, off / 2097152) else (s.pos, asid, obj, off / 2097152))

/-- The decision table of R210 over an entry and a lookup of page words. tray: TRAY is accepted; a peer's line is cached only where RCACHE is (R103). -/
def State.decide210 (s : State) (tray : Bool) (e : OEntry) (word : Nat → Option DWord) (r : XReq) : XOut :=
  if e.typ = 0 ∨ 5 < e.typ ∨ (e.typ = 5 ∧ e.peerPos = s.pos) ∨ e.size < r.off + r.size then .fault 0x0C1#12
  else if r.viaNotify && e.use != 2 then .fault 0x0C4#12
  else if r.write && e.ro then .fault 0x0C2#12
  else if r.write && s.rcOn e r.asid r.obj r.off then .fault 0x0D2#12
  else if e.typ = 1 then s.landed (e.t0.toNat % 2 ^ 40 + r.off) r.size (e.use == 2)
  else if e.paged then
    match word (r.off / e.pageSize) with
    | none => if s.wordLost (e.wordPA (r.off / e.pageSize)) 8 then .lost (e.wordPA (r.off / e.pageSize)) else .miss (some (r.off / e.pageSize))
    | some w =>
      if r.write && e.wb && pageMig w then .fault 0x0D2#12
      else if !pageP w then .fault 0x0D1#12
      else s.landed (pageAddr w + r.off % e.pageSize) r.size (e.use == 2)
  else if e.typ = 4 then
    (if tray then .host (s.trayLink (bitsOf e.t1.toNat 0 2)) (e.t0.toNat + r.off) else .fault 0x0C2#12)
  else .peer e.peerPos e.peerAsid e.peerObj (s.rcOn e r.asid r.obj r.off && s.acceptNow.getLsbD 9)

/-- Translation that walks the table at once: for units that wait for their own walk. -/
def State.xlatNow (s : State) (tray : Bool) (r : XReq) : XOut :=
  match s.entry r.asid r.obj with
  | none => .fault 0x0C1#12
  | some e =>
    if s.wordLost (s.entryAt r.asid r.obj) 32 then .lost (s.entryAt r.asid r.obj)
    else s.decide210 tray e (fun p => if s.wordLost (e.wordPA p) 8 then none else some (BitVec.ofNat 64 (s.mem.num (e.wordPA p) 8))) r

/-- Translation at a die's memory port, through its object cache and region cache (R211, R212). -/
def State.xlatPort (s : State) (die : Nat) (tray : Bool) (r : XReq) : XOut :=
  match s.asid r.asid with
  | none => .fault 0x0C1#12
  | some d =>
    if !d.live || decide (d.objects ≤ r.obj) then .fault 0x0C1#12 else
    match s.objCache.find? (fun c => c.die == die && c.asid == r.asid && c.obj == r.obj) with
    | none => if s.wordLost (d.entryPA r.obj) 32 then .lost (d.entryPA r.obj) else .miss none
    | some c =>
      s.decide210 tray c.entry (fun p =>
        (s.regCache.find? (fun x => x.die == die && x.asid == r.asid && x.obj == r.obj && x.page == p)).map (·.word)) r

/-- Start a walk, or join the walk already in flight; 32 walkers serve a die in order of arrival (R212). -/
def State.startWalk (s : State) (w : Walk) : State :=
  if s.walks.contains w then s
  else
    let busy := (s.walks.filter (fun x => x.die == w.die)).length
    let s := { s with walks := s.walks ++ [w] }
    if busy < 32 then s.later 1 (.translationWalk w.die w.asid w.obj w.page) else s

/-- An address of device memory; none outside it (R13). -/
def inMemory (a : Nat) : Option Nat := if a < Config.memTop then some a else none

/-- The address of an object's byte whatever its permissions: for write-backs, the frame heap and units that act for the supervisor. -/
def State.paOf (s : State) (asid obj off : Nat) : Option Nat :=
  match s.entry asid obj with
  | none => none
  | some e =>
    if e.size ≤ off then none
    else if e.typ = 1 then inMemory (e.t0.toNat % 2 ^ 40 + off)
    else if e.paged then
      let w : DWord := BitVec.ofNat 64 (s.mem.num (e.wordPA (off / e.pageSize)) 8)
      if pageP w then inMemory (pageAddr w + off % e.pageSize) else none
    else none

/-! ## Confidential keys (R92, R93) -/

/-- The key of an ASID in the key table; 0 for an ordinary ASID. -/
def State.keyOf (s : State) (asid : Nat) : Nat :=
  match s.asid asid with
  | none => 0
  | some d => if d.conf then d.key else 0

/-- Record or clear the key under which a byte was written. -/
def keyedSet : List (Nat × Nat) → Nat → Nat → List (Nat × Nat)
  | [], a, k => if k = 0 then [] else [(a, k)]
  | x :: xs, a, k =>
    if a < x.1 then (if k = 0 then x :: xs else (a, k) :: x :: xs)
    else if a = x.1 then (if k = 0 then xs else (a, k) :: xs)
    else x :: keyedSet xs a k

/-- The key under which a byte was written; 0 for none. -/
def State.byteKey (s : State) (a : Nat) : Nat := ((s.keyed.find? (fun x => x.1 == a)).map (·.2)).getD 0

/-- One byte as the owner of a key reads it: what it wrote, and an unpredictable value where another ASID wrote (R93). -/
def State.ownByte (s : State) (key a : Nat) : Byte :=
  if s.byteKey a = key then s.mem.get a else Config.xtsDecryptForeign key a (s.mem.get a)

/-- One byte as it stands at rest: ciphertext of its 16-byte block where a confidential ASID wrote it (R93). -/
def State.restByte (s : State) (a : Nat) : Byte :=
  let k := s.byteKey a
  if k = 0 then s.mem.get a
  else (Config.xtsEncrypt (Config.aesKeyPair k) (a / 64) (a % 64 / 16) ((List.range 16).map (fun j => s.ownByte k (a / 16 * 16 + j)))).getD (a % 16) 0

/-- One byte of device memory as read under a key (R93). -/
def State.rdByte (s : State) (key a : Nat) : Byte :=
  if s.byteKey a = key then s.mem.get a
  else if key = 0 then s.restByte a
  else Config.xtsDecryptForeign key a (s.restByte a)

/-- n bytes of device memory as read under a key. -/
def State.rd (s : State) (key a n : Nat) : List Byte := (List.range n).map (fun k => s.rdByte key (a + k))

/-- Store bytes at physical addresses under a key, clearing the granules' tags. -/
def State.put (s : State) (key : Nat) (ps : List (Nat × Byte)) : State :=
  { s with mem := s.mem.writeAt ps, keyed := ps.foldl (fun k p => keyedSet k p.1 key) s.keyed }

/-- The consumer that detects lost data in some ranges reports it: one ERRLOG entry of KIND 1, UNIT 0 for memory and 1 for a home slice, with the owning ASID and the MiB of memory; an address outside memory counts as memory (R13, R107, R108). -/
def State.logLost (s : State) (asid : Nat) (segs : List (Nat × Nat)) : State :=
  match s.bad.find? (fun b => segs.any (fun x => sectorIn x.1 x.2 b)) with
  | some b => s.logError asid (b / 16384) 0 1
  | none => match s.homeHurts.find? (fun b => segs.any (fun x => sectorIn x.1 x.2 b)) with
    | some b => s.logError asid (b / 16384) 1 1
    | none => match segs.find? (fun x => decide (Config.memTop < x.1 + x.2)) with
      | some x => s.logError asid (x.1 / 1048576) 0 1
      | none => s

/-- A gang that is to end because a dirty line or its context image is lost (R107, R137, R147); WORKGROUP_RETIREMENT ends it before anything issues again. -/
def State.doom (s : State) (l k : Nat) : State := if s.hurts.contains (.gang l k) then s else { s with hurts := s.hurts ++ [.gang l k] }

/-- A gang of the ASID, with its dirty data on the package: which of several owns a line of a home slice is left open (log entry 2). -/
def State.doomOwner (s : State) (asid : Nat) : State :=
  let gs := s.gangs.filter (fun g => g.st != .retired && (s.launch g.launch).any (fun L => L.asid == asid))
  let (k, s) := s.choice gs.length
  match gs[k]? with
  | none => s
  | some g => s.doom g.launch g.index

/-- A home-slice line has gone: its uncorrectable clean sectors are forgotten, and each dirty one is lost, is reported with KIND 2, and ends the gang that owns it (R107, R223, log entry 47). -/
def State.homeGone (s : State) (h : HomeLine) : State :=
  let here (x : Hurt) : Bool := match x with
    | .home b _ => b / 4 == h.line
    | _ => false
  let mine := s.hurts.filter here
  State.over { s with hurts := s.hurts.filter (fun x => !here x) } mine (fun s x => match x with
    | .home b asid => if h.dirty.getLsbD (b % 4) then ({ s with bad := if s.bad.contains b then s.bad else s.bad ++ [b] }.logError asid (b / 16384) 1 2).doomOwner asid else s
    | _ => s)

/-! ## Wake-ups -/

/-- The gang index of a workgroup of a launch. -/
def Launch.gangOf (L : Launch) (wgid : Nat) : Nat := wgid / 2 ^ L.gangLog

/-- A wake for a gang: an asleep SAVED gang becomes runnable, and a wake while HALTING or SAVING is kept (R137). -/
def State.wakeGang (s : State) (id : FibId) : State :=
  match s.launch id.launch with
  | none => s
  | some L => s.modGang id.launch (L.gangOf id.wgid) (fun g =>
      match g.st with
      | .saved => { g with asleep := false }
      | .halting => { g with woken := true }
      | .saving => { g with woken := true }
      | _ => g)

/-- An acquire of gang scope or wider by a core: the sector valid bits of every L1 line but RC lines are cleared (R230). -/
def Core.acquire (c : Core) : Core := { c with l1 := c.l1.map (fun l => if l.rc then l else { l with valid := 0 }) }

/-- Acquire at a core. -/
def State.acquire (s : State) (n : Nat) : State := s.modCore n Core.acquire

/-- End the waits that satisfy a test: those fibres issue their instructions again. -/
def State.endWaits (s : State) (p : Wait → Bool) : State :=
  s.mapFibres (fun _ f => if p f.wait then { f with wait := .none } else f)

/-- Make a parked fibre ready again; it acquires at system scope first (R234). -/
def State.wake (s : State) (id : FibId) : State :=
  let s := s.modFib id (fun f => { f with wait := .none })
  let s := s.wakeGang id
  match s.wg id.launch id.wgid with
  | none => s
  | some g => if g.placed then s.acquire g.core else s

/-- Wake every fibre whose wait satisfies a test. -/
def State.wakeAll (s : State) (p : Wait → Bool) : State :=
  s.over ((s.allFibres.filter (fun x => p x.2.wait)).map (·.1)) State.wake

/-- A write of these bytes wakes a waiter on the cell (R89, R374). -/
def cellWoken (old : Mem) (ps : List (Nat × Byte)) (pa : Nat) (always : Bool) : Bool :=
  ps.any (fun p => decide (pa ≤ p.1) && decide (p.1 < pa + 8) && (always || old.get p.1 != p.2))

/-! ## Writes at the home slices -/

/-- The lines of RC peer objects in one set of a home slice (R223, R224). -/
def State.rcIn (s : State) (slice set : Nat) : List RcLine :=
  s.rcLines.filter (fun r => r.slice == slice && Config.rcSet r.pos r.pasid r.pobj r.line % 512 == set)

/-- The lines of memory in one set of a home slice. -/
def State.linesIn (s : State) (slice set : Nat) : List HomeLine :=
  s.homeLines.filter (fun h => h.slice == slice && Config.homeSet h.line % 512 == set)

/-- Make room in a set of 16 ways: of the lines of memory and of RC peer objects there, one that the manual leaves open gives way (R223, R224, log entry 2). -/
def State.homeRoom (s : State) (slice set : Nat) : State :=
  let hs := s.linesIn slice set
  let rs := s.rcIn slice set
  if hs.length + rs.length < 16 then s
  else
    let (k, s) := s.choice (hs.length + rs.length)
    match hs[k]? with
    | some h => State.homeGone { s with homeLines := s.homeLines.filter (fun x => x != h) } h
    | none => match rs[k - hs.length]? with
      | some r => { s with rcLines := s.rcLines.filter (fun x => x != r) }
      | none => s

/-- Note that a home slice holds the sector of a physical address: its line is taken into its set (R223). -/
def State.homeTouch (s : State) (pa : Nat) (dirty : Bool) : State :=
  let sl := homeSlice pa
  let bit : BitVec 4 := (1 : BitVec 4) <<< (pa / 64 % 4)
  let upd (h : HomeLine) : HomeLine := { h with valid := h.valid ||| bit, dirty := if dirty then h.dirty ||| bit else h.dirty }
  if s.homeLines.any (fun h => h.slice == sl && h.line == pa / 256) then
    { s with homeLines := s.homeLines.map (fun h => if h.slice == sl && h.line == pa / 256 then upd h else h) }
  else
    let s := s.homeRoom sl (Config.homeSet (pa / 256) % 512)
    { s with homeLines := s.homeLines ++ [upd ⟨sl, pa / 256, 0, 0⟩] }

/-- The physical addresses of the TAIL words of bound queues. -/
def State.tailWords (s : State) : List Nat :=
  s.queues.filterMap (fun q => s.paOf q.binding.asid q.binding.ctlObj q.binding.ctlOff)

/-- The tail rule (R113) for one TAIL word: a write of all eight bytes becomes a maximum, and the bytes of a partial write are discarded. -/
def tailRule (m : Mem) (ps : List (Nat × Byte)) (t : Nat) : List (Nat × Byte) :=
  let inside := ps.filter (fun p => decide (t ≤ p.1) && decide (p.1 < t + 8))
  if inside = [] then ps
  else
    let rest := ps.filter (fun p => !(decide (t ≤ p.1) && decide (p.1 < t + 8)))
    if inside.length < 8 then rest
    else
      let val := bytesNat ((List.range 8).map (fun k => ((inside.reverse.find? (fun p => p.1 == t + k)).map (·.2)).getD 0#8))
      rest ++ ((List.range 8).map (t + ·)).zip (natBytes 8 (max val (m.num t 8)))

/-- A write at the home slices of the given bytes under a key: the tail rule, the write, and the wake-ups (R89, R113, R374). A sector written whole is correctable again. -/
def State.homeWrite (s : State) (key : Nat) (ps : List (Nat × Byte)) : State :=
  let ps := s.tailWords.foldl (tailRule s.mem) ps
  let old := s.mem
  let s := s.put key ps
  let whole (b : Nat) : Bool := (List.range 64).all (fun k => ps.any (fun p => p.1 == 64 * b + k))
  let s := { s with bad := s.bad.filter (fun b => !whole b),
                    hurts := s.hurts.filter (fun h => match h with
                      | .home b _ => !whole b
                      | _ => true) }
  let s := s.over ((ps.map (fun p => p.1 / 64)).dedup) (fun s k => s.homeTouch (64 * k) true)
  s.wakeAll (fun w => match w with
    | .cell pa always => cellWoken old ps pa always
    | _ => false)

/-- Bytes from an address up, as (address, byte) pairs. -/
def addrs (a : Nat) (bs : List Byte) : List (Nat × Byte) := ((List.range bs.length).map (a + ·)).zip bs

/-- A write of consecutive bytes at the home slice. -/
def State.homeStore (s : State) (key a : Nat) (bs : List Byte) : State := s.homeWrite key (addrs a bs)

/-- A capability written at the home slice with its tag (R203). -/
def State.homeCap (s : State) (key a : Nat) (c : Cap) : State :=
  let s := s.homeStore key a (natBytes 16 c.bits)
  { s with mem := s.mem.setTag a c.tag }

/-! ## Tile latches (R242) -/

/-- Some tile access holds the line exclusively. -/
def State.latchedX (s : State) (pa : Nat) : Bool := s.tiles.any (fun t => !t.load && t.granted.contains (pa / 256))

/-- Some tile access holds the line. -/
def State.latched (s : State) (pa : Nat) : Bool := s.tiles.any (fun t => t.granted.contains (pa / 256))

end Sys2Proof.Machine
end

