-- ==== Sys2Proof/Machine/Cache.lean ====
section
/-! DEFINITION. The L1 data cache and its dirty FIFO (R219 to R222), releases and acquires (R229, R230), the Cupboard (R178, R179) and the instruction cache (R180). -/

namespace Sys2Proof.Machine

/-! ## One line -/

/-- Byte i of an L1 line. -/
def L1Line.byte (l : L1Line) (i : Nat) : Byte := l.data.extractLsb' (8 * i) 8

/-- The line with byte i replaced. -/
def L1Line.setByte (l : L1Line) (i : Nat) (b : Byte) : L1Line :=
  { l with data := (l.data &&& ~~~((255 : BitVec 2048) <<< (8 * i))) ||| (b.setWidth 2048 <<< (8 * i)) }

/-- A store of one byte: the byte, its mask bit and its granule's tag (R203, R220). -/
def L1Line.store (l : L1Line) (i : Nat) (b : Byte) : L1Line :=
  let l := l.setByte i b
  { l with mask := l.mask ||| ((1 : BitVec 256) <<< i), tags := l.tags &&& ~~~((1 : BitVec 16) <<< (i / 16)) }

/-- The masked bytes of a sector as (index, byte) pairs. -/
def L1Line.masked (l : L1Line) (sector : Nat) : List (Nat × Byte) :=
  ((List.range 64).filter (fun k => l.mask.getLsbD (64 * sector + k))).map (fun k => (64 * sector + k, l.byte (64 * sector + k)))

/-- The line answers a read of n bytes from byte i: its sector is valid, or every byte is masked. -/
def L1Line.answers (l : L1Line) (i n : Nat) : Bool :=
  l.valid.getLsbD (i / 64) || (List.range n).all (fun k => l.mask.getLsbD (i + k))

/-- Set the tag bits of a sector's four granules. -/
def L1Line.setTags (l : L1Line) (sector : Nat) (ts : List Bool) : L1Line :=
  { l with tags := ((List.range 4).zip ts).foldl (fun (w : BitVec 16) (p : Nat × Bool) =>
      let bit : BitVec 16 := (1 : BitVec 16) <<< (4 * sector + p.1)
      if p.2 then w ||| bit else w &&& ~~~bit) l.tags }

/-- Merge a sector's bytes under the masked bytes, take its granules' tags and set its valid bit (R220). -/
def L1Line.fill (l : L1Line) (sector : Nat) (bs : List Byte) (ts : List Bool) : L1Line :=
  let l := l.setTags sector ts
  let l := ((List.range 64).zip bs).foldl (fun (l : L1Line) (p : Nat × Byte) => if l.mask.getLsbD (64 * sector + p.1) then l else l.setByte (64 * sector + p.1) p.2) l
  { l with valid := l.valid ||| ((1 : BitVec 4) <<< sector) }

/-- The line of a key. -/
def L1Line.is (l : L1Line) (asid obj line : Nat) : Bool := l.asid == asid && l.obj == obj && l.line == line

/-- The line of a core's L1 with this key. -/
def Core.line (c : Core) (asid obj line : Nat) : Option L1Line := c.l1.find? (fun l => l.is asid obj line)

/-- Change the line with this key. -/
def Core.modLine (c : Core) (asid obj line : Nat) (f : L1Line → L1Line) : Core :=
  { c with l1 := c.l1.map (fun l => if l.is asid obj line then f l else l) }

/-! ## Write-back -/

/-- A sector of a core's L1 is uncorrectable. -/
def State.l1Hurt (s : State) (core asid obj sector : Nat) : Bool := s.hurts.contains (.l1 core asid obj sector)

/-- A sector leaves a core's L1 or is taken anew, and its error with it. -/
def State.l1Heal (s : State) (core asid obj sector : Nat) : State := { s with hurts := s.hurts.filter (fun h => h != .l1 core asid obj sector) }

/-- The gangs that have the core and an ASID. -/
def State.gangsOn (s : State) (core asid : Nat) : List Gang :=
  s.gangs.filter (fun g => g.cores.contains core && g.st != .saved && g.st != .retired && (s.launch g.launch).any (fun L => L.asid == asid))

/-- A dirty sector of an L1 that is uncorrectable when it is to be written back: nothing is written, KIND 2 is reported, and the gang that owns the line ends (R107, log entry 47). -/
def State.sectorLost (s : State) (core asid obj sector pa : Nat) : State :=
  let s := (s.l1Heal core asid obj sector).logError asid (pa / 1048576) 2 2
  let s := s.modCore core (fun c => c.modLine asid obj (sector / 4) (fun l => { l with valid := l.valid &&& ~~~((1 : BitVec 4) <<< (sector % 4)) }))
  s.over (s.gangsOn core asid) (fun s g => s.doom g.launch g.index)

/-- Write back the masked bytes of one line, one write per sector, and clear the mask; its FIFO entry goes, and a line of the eviction buffer with it (R220, R221, R242). Bytes of an object that no longer has an address are dropped. -/
def State.writeBack (s : State) (core asid obj line : Nat) : State :=
  match (s.core core).line asid obj line with
  | none => s
  | some l =>
    let s := s.modCore core (fun c =>
      { (if l.leaving then { c with l1 := c.l1.filter (fun x => !x.is asid obj line) } else c.modLine asid obj line (fun l => { l with mask := 0 })) with
        fifo := c.fifo.filter (fun x => x != (asid, obj, line)) })
    match s.paOf asid obj (256 * line) with
    | none => s
    | some pa => s.over [0, 1, 2, 3] (fun s k =>
        if l.masked k = [] then s
        else if s.l1Hurt core asid obj (4 * line + k) then s.sectorLost core asid obj (4 * line + k) pa
        else s.homeWrite (s.keyOf asid) ((l.masked k).map (fun p => (pa + p.1, p.2))))

/-- The line's home line is latched by a tile access, so that its write-back waits (R242). -/
def State.lineLatched (s : State) (asid obj line : Nat) : Bool :=
  match s.paOf asid obj (256 * line) with
  | none => false
  | some pa => s.latched pa

/-- Write back the FIFO's entries in order, as far as no latched line stands in the way; the flag says that it is empty (R221). -/
def State.drainGo (s : State) (core : Nat) : List (Nat × Nat × Nat) → State × Bool
  | [] => (s, true)
  | (a, o, l) :: rest => if s.lineLatched a o l then (s, false) else (s.writeBack core a o l).drainGo core rest

/-- Drain a core's dirty FIFO (R229). -/
def State.drain (s : State) (core : Nat) : State × Bool := s.drainGo core (s.core core).fifo

/-- The entry of a line stands in the FIFO ahead of a marker (R221). -/
def Core.ahead (c : Core) (mark : Nat) (x : Nat × Nat × Nat) : Bool := (c.line x.1 x.2.1 x.2.2).all (fun l => decide (l.dirtied < mark))

/-- Drain a core's dirty FIFO to a marker (R221). -/
def State.drainTo (s : State) (core mark : Nat) : State × Bool := s.drainGo core ((s.core core).fifo.takeWhile ((s.core core).ahead mark))

/-! ## Allocation -/

/-- Drop the line and write back its masked bytes. -/
def State.evict (s : State) (core : Nat) (l : L1Line) : State :=
  (s.writeBack core l.asid l.obj l.line).modCore core (fun c => { c with l1 := c.l1.filter (fun x => !(x.is l.asid l.obj l.line)) })

/-- The lines of a set, without those in the eviction buffer. -/
def Core.setOf (c : Core) (line : Nat) : List L1Line := c.l1.filter (fun l => l.line % 64 == line % 64 && !l.leaving)

/-- Make room in a set of eight ways: the line least recently accessed goes; where its home line is latched, its masked bytes wait in the eviction buffer (R219, R242). -/
def State.makeRoom (s : State) (core line : Nat) : State :=
  let set := (s.core core).setOf line
  if set.length < 8 then s
  else match set.foldl (fun (m : Option L1Line) (l : L1Line) => match m with
      | none => some l
      | some x => if l.used < x.used then some l else some x) none with
    | none => s
    | some v =>
      if v.mask != 0 && s.lineLatched v.asid v.obj v.line then s.modCore core (fun c => c.modLine v.asid v.obj v.line (fun l => { l with valid := 0, leaving := true }))
      else s.evict core v

/-- Have a line with this key, marked as just accessed. -/
def State.haveLine (s : State) (core asid obj line : Nat) : State :=
  let n := s.fresh
  let s := s.stamp
  match (s.core core).line asid obj line with
  | some _ => s.modCore core (fun c => c.modLine asid obj line (fun l => { l with used := n }))
  | none => (s.makeRoom core line).modCore core (fun c => { c with l1 := ⟨asid, obj, line, 0, 0, 0, false, false, 0, n, 0, false⟩ :: c.l1 })

/-- Write back the lines of every eviction buffer whose home lines are latched no more (R242). -/
def State.emptyBuffers (s : State) : State :=
  s.over s.cores (fun s c => s.over (c.l1.filter (·.leaving)) (fun s l => if s.lineLatched l.asid l.obj l.line then s else s.writeBack c.id l.asid l.obj l.line))

/-- A load that the L1 answers (R219). -/
def State.l1Hit (s : State) (core asid obj off n : Nat) : Option (List Byte) :=
  match (s.core core).line asid obj (off / 256) with
  | none => none
  | some l => if l.answers (off % 256) n then some ((List.range n).map (fun k => l.byte (off % 256 + k))) else none

/-- Mark the line as just accessed. -/
def State.l1Touch (s : State) (core asid obj off : Nat) : State := s.haveLine core asid obj (off / 256)

/-- The line holds nothing of the sector: no valid bit, no masked byte. -/
def L1Line.bare (l : L1Line) (sector : Nat) : Bool := !l.valid.getLsbD sector && (l.masked sector).isEmpty

/-- A sector of which the L1 holds nothing has no error. -/
def State.l1Fresh (s : State) (core asid obj off : Nat) : State :=
  match (s.core core).line asid obj (off / 256) with
  | none => s.l1Heal core asid obj (off / 64)
  | some l => if l.bare (off / 64 % 4) then s.l1Heal core asid obj (off / 64) else s

/-- Fill the sector that holds an offset, whose physical address is pa (R219). -/
def State.l1Fill (s : State) (core asid obj off pa : Nat) : State :=
  let s := (s.l1Fresh core asid obj off).haveLine core asid obj (off / 256)
  let a := pa - off % 64
  let bs := s.rd (s.keyOf asid) a 64
  let ts := (List.range 4).map (fun k => s.mem.tag (a + 16 * k))
  let s := s.homeTouch a false
  s.modCore core (fun c => c.modLine asid obj (off / 256) (fun l => l.fill (off % 256 / 64) bs ts))

/-- The dirty FIFO is full, the line is not in it, and its oldest entry may not be written back yet: the latched line that a store must wait for (R221, R242). -/
def State.fifoStuck (s : State) (core asid obj off : Nat) : Option Nat :=
  match (s.core core).fifo with
  | x :: rest =>
    if 256 ≤ (x :: rest).length && !(x :: rest).contains (asid, obj, off / 256) && s.lineLatched x.1 x.2.1 x.2.2 then (s.paOf x.1 x.2.1 (256 * x.2.2)).map (· / 256) else none
  | [] => none

/-- A store into the L1 (R220): the bytes, their mask bits, WRITABLE, and the FIFO entry when the mask was empty (R221). -/
def State.l1Store (s : State) (core asid obj off : Nat) (bs : List Byte) : State :=
  let s := (s.l1Fresh core asid obj off).haveLine core asid obj (off / 256)
  let key := (asid, obj, off / 256)
  let s := match (s.core core).fifo with
    | x :: rest =>
      if 256 ≤ (x :: rest).length && !(x :: rest).contains key && !s.lineLatched x.1 x.2.1 x.2.2 then s.writeBack core x.1 x.2.1 x.2.2 else s
    | [] => s
  s.modCore core (fun c =>
    let fresh := !c.fifo.contains key
    let c := { c with fifo := if fresh then c.fifo ++ [key] else c.fifo }
    c.modLine asid obj (off / 256) (fun l =>
      { ((List.range bs.length).zip bs).foldl (fun l p => l.store (off % 256 + p.1) p.2) l with writable := true, dirtied := if fresh then l.used else l.dirtied }))

/-- The line has a copy with WRITABLE set (R211). -/
def State.l1Writable (s : State) (core asid obj off : Nat) : Bool :=
  match (s.core core).line asid obj (off / 256) with
  | none => false
  | some l => l.writable

/-- Before an access at the home slice: write back the line's masked bytes (R222). -/
def State.l1Sync (s : State) (core asid obj off : Nat) : State := s.writeBack core asid obj (off / 256)

/-- Drop the L1 copy of the bytes just accessed at the home slice (R222). -/
def State.l1Drop (s : State) (core asid obj off : Nat) : State :=
  s.modCore core (fun c => c.modLine asid obj (off / 256) (fun l => { l with valid := l.valid &&& ~~~((1 : BitVec 4) <<< (off % 256 / 64)) }))

/-! ## Scopes (R227) -/

/-- Some remote store, atomic or tile store of the core made before a marker is not acknowledged (R34). -/
def State.unackedRemote (s : State) (core mark : Nat) : Bool :=
  s.txs.any (fun t => t.core == core && decide (t.seq < mark) && match t.kind with
    | .store .. => true
    | .atomic .. => true
    | .tile .. => true
    | _ => false) || s.tiles.any (fun t => t.core == core && !t.load && decide (t.id < mark) && match t.place with
    | .peer .. => true
    | _ => false)

/-- Some HWR of the core made before a marker, or of a tile store begun before it, has no HWRA (R86). -/
def State.unackedHost (s : State) (core mark : Nat) : Bool :=
  s.htxs.any (fun t => t.core == core && decide (t.seq < mark) && match t.kind with
    | .store .. => true
    | .tile n .. => s.tiles.any (fun x => x.id == n && !x.load)
    | _ => false) || s.tiles.any (fun t => t.core == core && !t.load && decide (t.id < mark) && match t.place with
    | .host .. => true
    | _ => false)

/-- The requirements of a release scope beyond the FIFO: codes 4 and 5 (R227). -/
def State.scopeClear (s : State) (core scope mark : Nat) : Bool :=
  (scope < 4 || !s.unackedRemote core mark) && (scope < 5 || !s.unackedHost core mark)

/-- A release by a core at a scope code: the state after draining to the marker, and whether it has completed (R229). -/
def State.release (s : State) (core scope mark : Nat) : State × Bool :=
  if scope = 0 then (s, true)
  else
    let (s, ok) := s.drainTo core mark
    (s, ok && s.scopeClear core scope mark)

/-- A release of everything that a core has stored: its marker stands behind every entry. -/
def State.releaseAll (s : State) (core scope : Nat) : State × Bool :=
  if scope = 0 then (s, true)
  else
    let (s, ok) := s.drain core
    (s, ok && s.scopeClear core scope s.fresh)

/-- An acquire by a core at a scope code (R230). -/
def State.acquireAt (s : State) (core scope : Nat) : State := if scope = 0 then s else s.acquire core

/-! ## Cupboards (R178, R179) -/

/-- The core's Cupboard holds the segment. -/
def State.inCupboard (s : State) (core asid seg : Nat) : Bool := (s.core core).cupboard.any (fun x => x.asid == asid && x.seg == seg)

/-- Give a segment to a core's Cupboard: the holder drops it, the least recently accessed of 256 goes to the Attic, and the segment stands last, as the most recently accessed. The bytes themselves are those of mem throughout. -/
def State.cupboardTake (s : State) (core asid seg : Nat) (dirty : Bool) : State :=
  let was := s.cores.any (fun c => c.id == core && c.cupboard.any (fun x => x.asid == asid && x.seg == seg && x.dirty))
  let s := { s with cores := s.cores.map (fun (c : Core) => { c with cupboard := c.cupboard.filter (fun x => !(x.asid == asid && x.seg == seg)) }) }
  s.modCore core (fun c =>
    let kept := if 256 ≤ c.cupboard.length then c.cupboard.drop 1 else c.cupboard
    { c with cupboard := kept ++ [⟨asid, seg, dirty || was⟩] })

/-- A segment returns to the heap: no Cupboard holds it. -/
def State.cupboardDrop (s : State) (asid seg : Nat) : State :=
  { s with hurts := s.hurts.filter (fun h => h != .segment asid seg), cores := s.cores.map (fun (c : Core) => { c with cupboard := c.cupboard.filter (fun x => !(x.asid == asid && x.seg == seg)) }) }

/-! ## Instruction cache (R180) -/

/-- The 16 bytes of the packet at an offset of a code object, when the cache holds its line. -/
def Core.packet (c : Core) (asid obj off : Nat) : Option (List Byte) :=
  (c.icache.find? (fun l => l.asid == asid && l.obj == obj && l.line == off / 128)).map (fun l => (l.bytes.drop (off % 128)).take 16)

/-- Put a line into a core's cache of 512 lines; the oldest goes first. -/
def Core.addLine (c : Core) (l : ILine) : Core :=
  let rest := c.icache.filter (fun x => !(x.asid == l.asid && x.obj == l.obj && x.line == l.line))
  { c with icache := (if 512 ≤ rest.length then rest.drop 1 else rest) ++ [l] }

end Sys2Proof.Machine
end

