-- ==== Sys2Proof/Machine/Links.lean ====
section
/-! DEFINITION. Optical pairs and what they are used for (R14, R15), which peers are reached directly or by a detour (R41), and the sending of packets and sideband messages. -/

namespace Sys2Proof.Machine

/-- The optical pair of a fabric pair number (R14). -/
def fabricPair (f : Nat) : Nat :=
  if f < 11 then f else if f < 22 then 16 + (f - 11) else if f < 33 then 32 + (f - 22) else 48 + (f - 33)

/-- The peer slot of a package seen from position m (R15). -/
def peerSlot (m q : Nat) : Nat := (q + 16 - m) % 16 - 1

/-- The three optical pairs to a peer (R15). -/
def pairsOf (m q : Nat) : List Nat := [0, 15, 30].map (fun k => fabricPair (peerSlot m q + k))

/-- The position that an optical pair of package m leads to, when it is a fabric pair. -/
def peerOfPair (m p : Nat) : Option Nat := ((List.range 16).filter (fun q => q != m % 16)).find? (fun q => (pairsOf m q).contains p)

/-- The optical pair of a scale-out port (R68). -/
def portPair (p : Nat) : Nat :=
  if p < 3 then 11 + p else if p < 7 then 27 + (p - 3) else if p < 10 then 43 + (p - 7) else 60 + (p - 10)

/-- The optical pair of a tray link (R84). -/
def trayPair (k : Nat) : Nat := if k = 0 then 14 else if k = 1 then 31 else if k = 2 then 46 else 63

/-- The record of a pair, dark when it has none. -/
def State.pair (s : State) (p : Nat) : Pair := ((s.pairs.find? (fun x => x.1 == p)).map (·.2)).getD Pair.reset

/-- Replace the record of a pair. -/
def State.setPair (s : State) (p : Nat) (v : Pair) : State :=
  { s with pairs := if s.pairs.any (fun x => x.1 == p) then s.pairs.map (fun x => if x.1 == p then (p, v) else x) else s.pairs ++ [(p, v)] }

/-- A pair works: its lanes are locked and it is not failed. -/
def Pair.works (v : Pair) : Bool := !v.failedNow && !v.lanes.isEmpty && v.lanes.all (fun l => l.2.locked)

/-- This package's position is a peer's, the peer is populated and has not died, and the package is not in limited service (R23, R24, R100). -/
def State.reachable (s : State) (q : Nat) : Bool :=
  q != s.pos && (s.peer q).populated && (s.peer q).live && !(s.peer q).died && !s.limitedOnly

/-- Some direct pair to a peer works. -/
def State.direct (s : State) (q : Nat) : Bool := (pairsOf s.pos q).any (fun p => (s.pair p).works)

/-- The intermediate to a peer (R41). -/
def State.intermediate (s : State) (q : Nat) : Option Nat :=
  (((List.range 15).map (fun k => (s.pos + 1 + k) % 16)).find? (fun v =>
    v != q && s.reachable v && s.direct v && (s.peer v).pairsTo.getLsbD q))

/-- A spare is taking the place of a failed pair to a peer: its traffic waits for it (R16). -/
def State.spareDue (s : State) (q : Nat) : Bool := (pairsOf s.pos q).any (fun p => (s.pair p).substituting.isSome)

/-- The position named by VIA for a destination: direct, by detour, or none when the peer counts as dead (R16, R41). -/
def State.via (s : State) (q : Nat) : Option Nat :=
  if !s.reachable q then none else if s.direct q then some q
  else (s.intermediate q).orElse (fun _ => if s.spareDue q then some q else none)

/-- The live positions of the node, this package's own among them, ascending (R46, R50, R100). -/
def State.livePositions (s : State) : List Nat := (List.range 16).filter (fun q => q == s.pos || s.reachable q)

/-- A packet with every field zero. -/
def Packet.zero : Packet := ⟨0, 0, 0, 0, false, false, false, false, false, 0, 0, 0, 0, 0, 0, 0, 0, [], [], false⟩

/-- A position as the header holds it. -/
def posF (n : Nat) : Fin 16 := ⟨n % 16, Nat.mod_lt n (by decide)⟩

/-- A packet as it leaves for a peer: SRC, VIA and virtual channel 0 are set (R29, R41); none when the peer counts as dead. -/
def State.routed (s : State) (p : Packet) : Option Packet :=
  (s.via p.dst.val).map (fun v => { p with src := posF s.pos, via := posF v, vc := false, hop2 := false })

/-- Send a packet to a peer. -/
def State.send (s : State) (p : Packet) : State :=
  match s.routed p with
  | none => s
  | some p => { s with txq := s.txq ++ [p] }

/-- Queue a sideband message on the first lane of every working pair to a position; the flag says that there is one. -/
def State.sbTo (s : State) (q : Nat) (m : Sideband) : State × Bool :=
  let ps := (pairsOf s.pos q).filter (fun p => (s.pair p).works)
  (s.over ps (fun s p =>
    let v := s.pair p
    s.setPair p { v with lanes := match v.lanes with
      | [] => []
      | l :: rest => (l.1, { l.2 with sbQ := l.2.sbQ ++ [m] }) :: rest }), !ps.isEmpty)

/-- The barrier-arrival message (R28). -/
def barrierMsg (grid : Bool) (num : Nat) (phase : Bool) (origin relayed : Nat) : Sideband :=
  ⟨4, BitVec.ofNat 16 ((if grid then 2 ^ 15 else 0) + num % 2 * 2 ^ 14 + (if phase then 2 ^ 13 else 0) + origin % 16 * 16 + relayed % 16)⟩

/-- Send a barrier arrival to every member but this package; a member without a direct pair is reached through its intermediate (R43). Every arrival names as relayed-for the position that it is meant for, a direct one too: the manual gives that field no value there (log entry 31). -/
def State.sendBarrier (s : State) (grid : Bool) (num : Nat) (phase : Bool) (mask : BitVec 16) : State :=
  s.over ((List.range 16).filter (fun q => mask.getLsbD q && s.reachable q)) (fun s q =>
    match s.via q with
    | none => s
    | some v => (s.sbTo v (barrierMsg grid num phase s.pos q)).1)

/-- A free transaction tag to a destination (R31): the lowest, since the manual names no order (log entry 2). -/
def State.freeTag (s : State) (dst : Nat) : Option Nat :=
  (List.range 4096).find? (fun t => !s.txs.any (fun x => x.dst == dst && x.tag == t))

/-- The EPOCH bit of a (destination, tag) pair: it inverts at each reuse (R31). -/
def State.epochOf (s : State) (dst tag : Nat) : Bool := s.epochs.contains (dst, tag)

/-- Invert the EPOCH bit of a tag. -/
def State.flipEpoch (s : State) (dst tag : Nat) : State :=
  { s with epochs := if s.epochs.contains (dst, tag) then s.epochs.filter (fun x => x != (dst, tag)) else (dst, tag) :: s.epochs }

/-- A packet of a KIND that asks for a response under its tag (R30, R31). -/
def isRequest (kind : BitVec 5) : Bool := [0x01, 0x03, 0x04, 0x08, 0x0A, 0x0B, 0x0C, 0x0E, 0x10].contains kind.toNat

/-- A packet is a request of a transaction. -/
def Tx.owns (t : Tx) (k : Packet) : Bool := isRequest k.kind && k.dst.val == t.dst && k.tag.toNat == t.tag && t.pkts.head?.any (fun x => x.epoch == k.epoch)

/-- What asked for some transactions has ended: their packets that have not left are not sent, and a transaction of which a packet has left keeps its tag until the response has come (R31, R40). -/
def State.abandon (s : State) (p : Tx → Bool) : State :=
  let mine := s.txs.filter p
  let unsent (t : Tx) : Bool := decide (t.pkts.length ≤ (s.txq.filter t.owns).length)
  { s with txq := s.txq.filter (fun k => !(k.src.val == s.pos && mine.any (fun t => t.owns k))),
           txs := (s.txs.filter (fun t => !(p t && unsent t))).map (fun t => if p t then { t with kind := .gone } else t) }

/-- Open a transaction and send its first packet; none when every tag is in use. Unanswered, an access ends after 100 µs (R35). -/
def State.request (s : State) (p : Packet) (kind : TxKind) (core : Nat) (key : HamperKey) : Option (State × Nat) :=
  (s.freeTag p.dst.val).map (fun t =>
    let p := { p with tag := BitVec.ofNat 12 t, epoch := s.epochOf p.dst.val t }
    let s := { s with txs := s.txs ++ [Tx.mk p.dst.val t kind core s.ticks key (s.routed p).toList s.fresh], fresh := s.fresh + 1 }
    let s := (s.flipEpoch p.dst.val t).send p
    let s := match kind with
      | .put .. => s
      | .get .. => s
      | .shoot .. => s
      | .cmig .. => s
      | _ => s.later 100000 (.remoteRequestTimeout p.dst (BitVec.ofNat 12 t))
    (s, t))

/-- Send a further packet of an open transaction, under its tag and EPOCH bit. -/
def State.sendMore (s : State) (dst tag : Nat) (p : Packet) : State :=
  let p := { p with tag := BitVec.ofNat 12 tag, epoch := !s.epochOf dst tag }
  State.send { s with txs := s.txs.map (fun (t : Tx) => if t.dst == dst && t.tag == tag then { t with pkts := t.pkts ++ (s.routed p).toList } else t) } p

/-- The TDI whose keys bind a tray link to an ASID (R92). -/
def State.bindOf (s : State) (asid k : Nat) : Option Tdi := s.tdis.find? (fun t => t.st == .run && t.asid == asid && t.links.getLsbD k)

/-- As many bytes as before. -/
def sameLength (old new : List Byte) : List Byte := (List.range old.length).map (fun i => new.getD i 0)

/-- The payload that an ASID's packet carries on a tray link: sealed when the link is bound to it (R92). -/
def State.sealTo (s : State) (asid k : Nat) (bs : List Byte) : List Byte :=
  match s.bindOf asid k with
  | none => bs
  | some t => sameLength bs (Config.gcmSeal t.linkKey bs)

/-- The payload of a packet from a tray link, opened when the link is bound to its ASID (R92). -/
def State.openFrom (s : State) (asid k : Nat) (bs : List Byte) : List Byte :=
  match s.bindOf asid k with
  | none => bs
  | some t => sameLength bs (Config.gcmOpen (t.linkKey + 1) bs)

/-- Send a packet on a tray link (R84). -/
def State.traySend (s : State) (k : Nat) (p : Packet) : State :=
  { s with tray := s.tray.set k { (s.tray.getD k ⟨false, [], []⟩) with txq := (s.tray.getD k ⟨false, [], []⟩).txq ++ [p] } }

/-- A free tag of a tray link, within the window of 768 KiB (R85): the lowest, since the manual names no order (log entry 2). -/
def State.trayTag (s : State) (k len : Nat) : Option Nat :=
  let open_ := s.htxs.filter (fun t => t.link == k)
  if 786432 < (open_.map (·.len)).sum + len then none
  else (List.range 1024).find? (fun t => !open_.any (fun x => x.tag == t))

/-- Open a host request and send it; none while no tag is free or the window is full (R85, R86). A failed link ends it as a time-out at once (R86). -/
def State.hostRequest (s : State) (k : Nat) (p : Packet) (kind : HTxKind) (core len : Nat) (key : HamperKey) : Option (State × Nat) :=
  (s.trayTag k len).map (fun t =>
    let s := { s with htxs := s.htxs ++ [HTx.mk k t kind core s.ticks len key s.fresh], fresh := s.fresh + 1 }
    let failed := (s.tray.getD k ⟨false, [], []⟩).failed
    let s := if failed then s else s.traySend k { p with tag := BitVec.ofNat 12 t, payload := s.sealTo key.asid k p.payload }
    (s.later (if failed then 0 else 100000) (.hostRequestTimeout ⟨k % 4, Nat.mod_lt k (by decide)⟩ (BitVec.ofNat 10 t)), t))

end Sys2Proof.Machine
end

