-- ==== Sys2Proof/Machine/Stack.lean ====
section
/-! DEFINITION. A fibre's registers and outstanding results (R154, R165, R166), and its segmented stack in the frame heap: segments, frames, handler frames and records (R172 to R187). -/

namespace Sys2Proof.Machine

/-! ## Registers of one fibre -/

/-- A fibre register; a number the fibre does not have reads zero (the decode checks keep such numbers out). -/
def Fibre.reg (f : Fibre) (n : Nat) : Word := f.v.getD n 0

/-- A predicate; p7 always reads true (R154). -/
def Fibre.pred (f : Fibre) (n : Nat) : Bool := n == 7 || f.p.getD n false

/-- A capability register. -/
def Fibre.cap (f : Fibre) (n : Nat) : Cap := f.c.getD n Cap.null

/-- Two registers as one 64-bit number, the low word first (R154). -/
def Fibre.pair (f : Fibre) (n : Nat) : DWord := f.reg (n + 1) ++ f.reg n

/-- Perform one register write; a write to p7 is discarded, since no such predicate is held (R154). -/
def Fibre.apply (f : Fibre) (w : WB) : Fibre :=
  match w with
  | .v r x => { f with v := f.v.set r x }
  | .p r b => { f with p := f.p.set r b }
  | .c r x => { f with c := f.c.set r x }
  | .cmask x => { f with cmask := x }

/-- Two writes name the same register. -/
def WB.same (a b : WB) : Bool :=
  match a, b with
  | .v r _, .v t _ => r == t
  | .p r _, .p t _ => r == t
  | .c r _, .c t _ => r == t
  | .cmask _, .cmask _ => true
  | _, _ => false

/-- Take up the outstanding writes that are covered at issue count k, in program order; a covered write removes the earlier writes to its register (R165). -/
def settleGo (k : Nat) (f : Fibre) (kept : List OutWrite) : List OutWrite → Fibre
  | [] => { f with out := kept }
  | w :: ws =>
    if w.due ≤ k then settleGo k (f.apply w.wb) (kept.filter (fun x => !x.wb.same w.wb)) ws
    else settleGo k f (kept ++ [w]) ws

/-- The fibre with every write covered at its issue count performed. -/
def Fibre.settle (f : Fibre) : Fibre := settleGo f.k f [] f.out

/-- The fibre with every fixed-latency write performed (R166). -/
def Fibre.settleFixed (f : Fibre) : Fibre := { f.out.foldl (fun f w => f.apply w.wb) f with out := [] }

/-- Perform scoreboarded writes: each removes the older outstanding writes to its register. -/
def Fibre.applyScored (f : Fibre) (ws : List WB) : Fibre :=
  ws.foldl (fun f w => { f.apply w with out := f.out.filter (fun x => !x.wb.same w) }) f

/-- The fibre with every outstanding result performed, the scoreboarded ones included: for capture and for a halt. -/
def Fibre.settleAll (f : Fibre) : Fibre := { f.infl.foldl Fibre.applyScored f with infl := [] }.settleFixed

/-- Set flags of %fflags (R253). -/
def Fibre.flag (f : Fibre) (w : Word) : Fibre := { f with fflags := f.fflags ||| w }

/-- The bits of %fmode and %fflags that exist; the others read zero (R5, R253). -/
def fmodeBits : Word := 0xE07#32
def fflagsBits : Word := 0x1FF#32

/-! ## The frame heap -/

/-- The ASID of a launch. -/
def State.asidOf (s : State) (l : Nat) : Nat :=
  match s.launch l with
  | none => 0
  | some L => L.asid

/-- The core of a workgroup. -/
def State.coreOf (s : State) (id : FibId) : Nat :=
  match s.wg id.launch id.wgid with
  | none => 0
  | some g => g.core

/-- The object number of an ASID's frame heap (R207). -/
def State.heapObj (s : State) (a : Nat) : Nat :=
  match s.asid a with
  | none => 0
  | some d => d.heapObj

/-- The physical address of a segment (R181). -/
def State.segPA (s : State) (a seg : Nat) : Option Nat := s.paOf a (s.heapObj a) (1024 * seg)

/-- A number of n bytes in a segment. -/
def State.segNum (s : State) (a seg off n : Nat) : Nat :=
  match s.segPA a seg with
  | none => 0
  | some pa => bytesNat (s.rd (s.keyOf a) (pa + off) n)

/-- Write a number of n bytes in a segment. -/
def State.segSet (s : State) (a seg off n x : Nat) : State :=
  match s.segPA a seg with
  | none => s
  | some pa => s.put (s.keyOf a) (addrs (pa + off) (natBytes n x))

/-- A capability with its tag in a segment. -/
def State.segCap (s : State) (a seg off : Nat) : Cap :=
  match s.segPA a seg with
  | none => Cap.null
  | some pa => Cap.ofBits (s.mem.tag (pa + off)) (bytesNat (s.rd (s.keyOf a) (pa + off) 16))

/-- Write a capability with its tag in a segment. -/
def State.segSetCap (s : State) (a seg off : Nat) (c : Cap) : State :=
  match s.segPA a seg with
  | none => s
  | some pa =>
    let s := s.put (s.keyOf a) (addrs (pa + off) (natBytes 16 c.bits))
    { s with mem := s.mem.setTag (pa + off) c.tag }

/-- LINK of the bottom segment and of a record (R172). -/
def noLink : Nat := 0xFFFFFFFFFFFFFFFF

/-- The root frame's number (R182). -/
def rootFrame : Nat := 0xFFFFFFFF

/-- Fields of the segment header (R172). -/
def State.link (s : State) (a seg : Nat) : Nat := s.segNum a seg 0 8
def State.used (s : State) (a seg : Nat) : Nat := s.segNum a seg 8 2
def State.setLink (s : State) (a seg x : Nat) : State := s.segSet a seg 0 8 x
def State.setUsed (s : State) (a seg x : Nat) : State := s.segSet a seg 8 2 x
def State.setSegFlags (s : State) (a seg x : Nat) : State := s.segSet a seg 10 2 x

/-- Write the header of a fresh segment. -/
def State.initSeg (s : State) (a seg lnk usd flags : Nat) : State :=
  (((s.setLink a seg lnk).setUsed a seg usd).setSegFlags a seg flags).segSet a seg 12 4 0

/-- Take a segment for a fibre: its spare first, then any free segment of the heap (R176). -/
def State.takeSeg (s : State) (id : FibId) : Option (Nat × State) :=
  match s.fib id with
  | none => none
  | some f =>
    let a := s.asidOf id.launch
    match f.spare with
    | some n => some (n, (s.modFib id (fun f => { f with spare := none })).cupboardTake (s.coreOf id) a n true)
    | none =>
      match s.asid a with
      | none => none
      | some d =>
        match d.free with
        | [] => none
        | n :: rest => some (n, (s.modAsid a (fun d => { d with free := rest })).cupboardTake (s.coreOf id) a n true)

/-- Return a segment to the heap: it joins the free segments at a place that the model leaves open (R176, log entry 2). -/
def State.giveSeg (s : State) (a seg : Nat) : State :=
  match s.asid a with
  | none => s
  | some d =>
    let (k, s) := s.choice (d.free.length + 1)
    (s.cupboardDrop a seg).modAsid a (fun d => { d with free := d.free.take k ++ seg :: d.free.drop k })

/-- An emptied segment becomes the fibre's spare, or returns to the heap (R176). -/
def State.dropSeg (s : State) (id : FibId) (seg : Nat) : State :=
  match s.fib id with
  | none => s
  | some f =>
    match f.spare with
    | none => s.modFib id (fun f => { f with spare := some seg })
    | some _ => s.giveSeg (s.asidOf id.launch) seg

/-! ## Frames -/

/-- A frame header (R173). -/
structure Hdr where
  ret : Nat
  prev : Nat
  mode : Nat
  loc : Nat
  deriving DecidableEq, Repr

def Hdr.xc (h : Hdr) : Bool := h.mode % 2 == 1
def Hdr.below (h : Hdr) : Bool := h.mode / 2 % 2 == 1
def Hdr.hb (h : Hdr) : Bool := h.mode / 4 % 2 == 1

/-- Bytes from a frame header to its local space. -/
def Hdr.head (h : Hdr) : Nat := if h.xc then 32 else 16

/-- Read the header at an offset of a segment. -/
def State.hdr (s : State) (a seg off : Nat) : Hdr :=
  ⟨s.segNum a seg off 4, s.segNum a seg (off + 4) 2, s.segNum a seg (off + 6) 1, s.segNum a seg (off + 8) 2⟩

/-- Write a header. -/
def State.setHdr (s : State) (a seg off : Nat) (h : Hdr) : State :=
  ((((s.segSet a seg off 4 h.ret).segSet a seg (off + 4) 2 h.prev).segSet a seg (off + 6) 2 h.mode).segSet a seg (off + 8) 2 h.loc).segSet a seg (off + 10) 6 0

/-- c12: the local space of the frame at an offset of a segment (R175). -/
def State.localCap (s : State) (a seg off : Nat) : Cap :=
  let h := s.hdr a seg off
  ⟨true, BitVec.ofNat 20 (s.heapObj a), 0xC4#8, 0#4, BitVec.ofNat 48 (1024 * seg + off + h.head), BitVec.ofNat 48 h.loc⟩

/-- Make a frame the current one: segment, header offset and c12. -/
def State.setFrame (s : State) (id : FibId) (seg off : Nat) : State :=
  let cap := s.localCap (s.asidOf id.launch) seg off
  s.modFib id (fun f => { f with seg := seg, frameOff := off, c := f.c.set 12 cap })

/-- Push a frame that returns to ret, saving the code capability when one is given (R174, R310, R311); none when a fresh segment is needed and missing. -/
def State.pushFrame (s : State) (id : FibId) (ret : Nat) (xc : Option Cap) : Option State :=
  match s.fib id with
  | none => none
  | some f =>
    let a := s.asidOf id.launch
    let size := if xc.isSome then 32 else 16
    let h := s.used a f.seg
    let fits : Bool := h + size ≤ 0x400
    let place : Option (Nat × Nat × State) :=
      if fits then some (f.seg, h, s)
      else match s.takeSeg id with
        | none => none
        | some (n, s) => some (n, 0x010, s.initSeg a n f.seg 0x010 0)
    match place with
    | none => none
    | some (seg, off, s) =>
      let s := s.setHdr a seg off ⟨ret, f.frameOff, (if fits then 0 else 2) + (if xc.isSome then 1 else 0), 0⟩
      let s := match xc with
        | none => s
        | some c => s.segSetCap a seg (off + 16) c
      some ((s.setUsed a seg (off + size)).setFrame id seg off)

/-- Copy n bytes of granules with their tags between segments. -/
def State.moveGranules (s : State) (a seg off seg' off' n : Nat) : State :=
  s.over (List.range (n / 16)) (fun s k => s.segSetCap a seg' (off' + 16 * k) (s.segCap a seg (off + 16 * k)))

/-- Move the current frame into a fresh segment and set BELOW (R174). -/
def State.moveFrame (s : State) (id : FibId) : Option State :=
  match s.fib id with
  | none => none
  | some f =>
    let a := s.asidOf id.launch
    match s.takeSeg id with
    | none => none
    | some (n, s) =>
      let h := s.hdr a f.seg f.frameOff
      let s := s.initSeg a n f.seg (0x010 + h.head + h.loc) 0
      let s := s.moveGranules a f.seg f.frameOff n 0x010 (h.head + h.loc)
      let s := s.setHdr a n 0x010 { h with mode := if h.below then h.mode else h.mode + 2 }
      let s := s.setUsed a f.seg f.frameOff
      some (s.setFrame id n 0x010)

/-- The segments of a stack from one segment down by LINK to a segment whose LINK is the stop value, top first. -/
def State.chain (s : State) (a : Nat) (stop : Nat) : Nat → Nat → List Nat
  | 0, _ => []
  | n + 1, seg => seg :: (if s.link a seg = stop ∨ s.link a seg = noLink then [] else s.chain a stop n (s.link a seg))

/-- The longest stack that a record can count (R187). -/
def maxSegs : Nat := 65536

/-! ## Handler frames (R181) -/

/-- A handler frame. -/
structure HFrame where
  hentry : Nat
  join : Nat
  key : Nat
  mask : Nat
  outer : Nat
  frameOff : Nat
  state : Nat
  code : Cap
  deriving DecidableEq, Repr

/-- The offset of the handler frame at the top of a segment. -/
def State.hOff (s : State) (a seg : Nat) : Nat := s.used a seg - 48

/-- Read the handler frame at the top of a segment. -/
def State.hframe (s : State) (a seg : Nat) : HFrame :=
  let o := s.hOff a seg
  ⟨s.segNum a seg o 4, s.segNum a seg (o + 4) 4, s.segNum a seg (o + 8) 2, s.segNum a seg (o + 10) 2, s.segNum a seg (o + 12) 4,
   s.segNum a seg (o + 16) 2, s.segNum a seg (o + 18) 1, s.segCap a seg (o + 32)⟩

/-- Write STATE of a handler frame. -/
def State.setHState (s : State) (a seg x : Nat) : State := s.segSet a seg (s.hOff a seg + 18) 1 x

/-- Write OUTER of a handler frame. -/
def State.setHOuter (s : State) (a seg x : Nat) : State := s.segSet a seg (s.hOff a seg + 12) 4 x

/-- Write a handler frame at an offset of a segment. -/
def State.setHFrame (s : State) (a seg o : Nat) (h : HFrame) : State :=
  let s := (((s.segSet a seg o 4 h.hentry).segSet a seg (o + 4) 4 h.join).segSet a seg (o + 8) 2 h.key).segSet a seg (o + 10) 2 h.mask
  let s := (((s.segSet a seg (o + 12) 4 h.outer).segSet a seg (o + 16) 2 h.frameOff).segSet a seg (o + 18) 1 h.state).segSet a seg (o + 19) 13 0
  s.segSetCap a seg (o + 32) h.code

/-- Write a body or clause frame into a fresh segment above a handler's segment (R183, R186). -/
def State.bodyFrame (s : State) (a seg h : Nat) (H : HFrame) : State :=
  let s := s.initSeg a seg h 0x030 0
  let s := s.setHdr a seg 0x010 ⟨H.join + 4, H.frameOff, 7, 0⟩
  s.segSetCap a seg 0x020 H.code

/-- Close a body or clause frame: the handler frame below goes, its segment above is emptied, and control is at JOIN with the installing frame current (R184). The caller has checked HB. -/
def State.closeHandler (s : State) (id : FibId) : State :=
  match s.fib id with
  | none => s
  | some f =>
    let a := s.asidOf id.launch
    let b := s.hdr a f.seg f.frameOff
    let code := s.segCap a f.seg (f.frameOff + 16)
    let h := s.link a f.seg
    let H := s.hframe a h
    let s := (s.setUsed a h (s.hOff a h)).setSegFlags a h 0
    let s := s.modFib id (fun f => { f with pc := BitVec.ofNat 32 b.ret, code := code, hchain := if f.hchain.toNat = h then BitVec.ofNat 32 H.outer else f.hchain })
    (s.setFrame id h b.prev).dropSeg id f.seg

/-! ## Continuation records (R187) -/

/-- STATE values. -/
def stLive : Nat := 1
def stConsumed : Nat := 2
def stDiscarded : Nat := 3
def stMigrating : Nat := 4

/-- The state word: SERIAL, REPLY and STATE. -/
def State.recWord (s : State) (a r : Nat) : Nat := s.segNum a r 0x10 8
def State.setRecWord (s : State) (a r serial reply st : Nat) : State := s.segSet a r 0x10 8 (serial * 2 ^ 32 + reply * 256 + st)
def recSerial (w : Nat) : Nat := w / 2 ^ 32
def recReply (w : Nat) : Nat := w / 256 % 4
def recState (w : Nat) : Nat := w % 256

/-- The segment is a continuation record: FLAGS.RECORD (R172). -/
def State.isRecord (s : State) (a r : Nat) : Bool := s.segNum a r 10 2 / 2 % 2 == 1

/-- The capability of a record (R189). -/
def State.contCap (s : State) (a r serial : Nat) : Cap :=
  ⟨true, BitVec.ofNat 20 (s.heapObj a), 0x03#8, 3#4, BitVec.ofNat 48 (1024 * r), BitVec.ofNat 48 (serial * 2 ^ 16 + 0x0400)⟩

/-- The next capture serial: the current value, then one more, passing from all ones to 1 (R189). -/
def State.nextSerial (s : State) (a : Nat) : Nat × State :=
  match s.asid a with
  | none => (1, s)
  | some d => (d.serial.toNat, s.modAsid a (fun d => { d with serial := if d.serial = 0xFFFFFFFF#32 then 1#32 else d.serial + 1#32 }))

/-- Zero the whole of a record segment and write its header (R187). -/
def State.initRecord (s : State) (a r : Nat) : State := (s.segSet a r 16 1008 0).initSeg a r noLink 0x400 2

/-- Write the register areas of a record from a fibre: full, or partial (R188). -/
def State.recRegs (s : State) (a r : Nat) (f : Fibre) (full : Bool) : State :=
  let s := s.over (List.range 64) (fun s n => if full || 32 ≤ n then s.segSet a r (0x170 + 4 * n) 4 (f.reg n).toNat else s)
  let s := s.over (List.range 12) (fun s n => if full || 8 ≤ n then s.segSetCap a r (0x0B0 + 16 * n) (f.cap n) else s)
  let s := s.segSet a r 0x4C 4 (maskOf 7 (fun n => (full || 4 ≤ n) && f.p.getD n false))
  ((s.segSet a r 0x44 4 f.fmode.toNat).segSet a r 0x48 4 f.fflags.toNat).segSet a r 0x50 8 f.cmask.toNat

/-- Restore a fibre's registers from a record (R188, R190). -/
def State.recRestore (s : State) (a r : Nat) (full : Bool) (f : Fibre) : Fibre :=
  let v := (List.range f.v.length).map (fun n => if full || 32 ≤ n then BitVec.ofNat 32 (s.segNum a r (0x170 + 4 * n) 4) else f.reg n)
  let c := (List.range f.c.length).map (fun n => if n < 12 && (full || 8 ≤ n) then s.segCap a r (0x0B0 + 16 * n) else f.cap n)
  let pw := s.segNum a r 0x4C 4
  let p := (List.range f.p.length).map (fun n => if full || 4 ≤ n then pw / 2 ^ n % 2 == 1 else f.p.getD n false)
  { f with v := v, c := c, p := p, fmode := BitVec.ofNat 32 (s.segNum a r 0x44 4) &&& fmodeBits, fflags := BitVec.ofNat 32 (s.segNum a r 0x48 4) &&& fflagsBits,
           cmask := BitVec.ofNat 64 (s.segNum a r 0x50 8) }

end Sys2Proof.Machine
end

