-- ==== Sys2Proof/Machine/Ops.lean ====
section
/-! DEFINITION. The shared operations that change a fibre's course: performing an effect (the search, the capture and the root actions, R185 to R196), resuming a continuation (R190 to R192), the Hamper (R214), the end of a fibre (R176, R317), and the completion of crew rendezvous and barrier rounds (R167, R372). -/

namespace Sys2Proof.Machine

/-! ## The end of a fibre -/

/-- Every segment that a fibre holds: its stack, its spare, and the record it is parked on (R176, R199). -/
def State.heldSegs (s : State) (id : FibId) (f : Fibre) : List Nat :=
  let a := s.asidOf id.launch
  s.chain a noLink maxSegs f.seg ++ f.spare.toList ++ (match f.wait with
    | .reply r => [r]
    | _ => [])

/-- End a fibre: its segments return to the heap, a record it was parked on is marked DISCARDED, and an ABORT is counted with its tag (R126, R176, R196, R199, R317). -/
def State.endFibre (s : State) (id : FibId) (abort : Option (BitVec 12)) : State :=
  match s.fib id with
  | none => s
  | some f =>
    let a := s.asidOf id.launch
    let segs := s.heldSegs id f
    let s := match f.wait with
      | .reply r => s.setRecWord a r (recSerial (s.recWord a r)) (recReply (s.recWord a r)) stDiscarded
      | _ => s
    let s := s.over segs (fun s n => s.giveSeg a n)
    let s := s.modWg id.launch id.wgid (fun g => { g with fibres := g.fibres.filter (fun x => x.fid != id.fid) })
    match abort with
    | none => s
    | some t => s.modLaunch id.launch (fun L => { L with abortTag := if L.aborted = 0 then t else L.abortTag, aborted := L.aborted + 1 })

/-! ## The Hamper (R214) -/

/-- The record of a key in the open window. -/
def Hamper.recOf (h : Hamper) (k : HamperKey) : Option HamperRec := h.recs.find? (fun r => r.key == k)

/-- Enter a key in a die's Hamper as record n: join the open window's record or open one; a new record that finds 4,096 in use first hands the batch over. -/
def Hamper.enter (h : Hamper) (now window n : Nat) (k : HamperKey) : Hamper :=
  if (h.recOf k).isSome then h
  else
    let h := if 4096 ≤ h.recs.length then ⟨[], none, h.batches ++ [h.recs]⟩ else h
    { h with recs := h.recs ++ [⟨n, k⟩], windowEnd := match h.windowEnd with
        | none => some (now + window)
        | some e => some e }

/-- The Hamper of a die. -/
def State.hamper (s : State) (die : Nat) : Hamper := s.hampers.getD die ⟨[], none, []⟩

/-- Enter a key in the Hamper of a die. -/
def State.hamperEnter (s : State) (die : Nat) (k : HamperKey) : State :=
  { s.stamp with hampers := s.hampers.set die ((s.hamper die).enter s.ticks s.hamperWindow s.fresh k) }

/-- The number of the open record of a key. -/
def State.hamperNum (s : State) (die : Nat) (k : HamperKey) : Nat := (((s.hamper die).recOf k).map (·.num)).getD 0

/-- Park a fibre: the park starts now unless it goes on without a break (R142). -/
def Fibre.park (f : Fibre) (now : Nat) (w : Wait) : Fibre :=
  { f.settleAll with wait := w, parked := some (f.parked.getD now) }

/-! ## Performing an effect -/

/-- An effect raised by the machine: full record (R195). -/
def Eff.fault (tag : BitVec 12) (arg : Word) (resume : Word) (key : Option HamperKey) : Eff := ⟨tag, arg, true, resume, key, .none, none⟩

/-- The search of R185: the segment of the innermost matching ACTIVE handler, and the outermost handler frame passed over. -/
def State.search (s : State) (a : Nat) (tag : Nat) : Nat → Nat → Nat → Option Nat × Nat
  | 0, _, oc => (none, oc)
  | n + 1, h, oc =>
    if h = rootFrame then (none, oc)
    else
      let H := s.hframe a h
      if H.state = 0 ∧ tag &&& H.mask = H.key &&& H.mask then (some h, oc) else s.search a tag n H.outer h

/-- The capture of R186 into two new segments: the state after it and the record's segment; none when the two cannot be obtained. reply is the REPLY field, wake the WAKE field. -/
def State.capture (s : State) (id : FibId) (e : Eff) (h oc reply wake : Nat) : Option (State × Nat) :=
  match s.takeSeg id with
  | none => none
  | some (r, s1) =>
    match s1.takeSeg id with
    | none => none
    | some (cl, s2) =>
      let a := s.asidOf id.launch
      let s := (s2.releaseAll (s2.coreOf id) 3).1
      let s := s.modFib id Fibre.settleAll
      match s.fib id with
      | none => none
      | some f =>
        let segs := s.chain a h maxSegs f.seg
        let H := s.hframe a h
        let s := s.initRecord a r
        let s := (s.segSet a r 0x18 4 (e.tag.toNat + if e.full then 0x1000 else 0)).segSet a r 0x1C 4 e.resume.toNat
        let s := s.segSetCap a r 0x20 f.code
        let s := (s.segSet a r 0x30 4 f.seg).segSet a r 0x34 4 (segs.getLastD f.seg)
        let s := (s.segSet a r 0x38 4 (if oc = rootFrame then rootFrame else f.hchain.toNat)).segSet a r 0x3C 4 oc
        let s := (s.segSet a r 0x40 2 f.frameOff).segSet a r 0x42 2 segs.length
        let s := (s.recRegs a r f e.full).segSet a r 0x58 8 wake
        let (serial, s) := s.nextSerial a
        let s := s.setRecWord a r serial reply stLive
        let s := (s.bodyFrame a cl h H).setHState a h 1
        let cap := s.contCap a r serial
        let s := s.modFib id (fun f =>
          let f := ((f.apply (.v 0 e.arg)).apply (.v 1 (e.tag.setWidth 32))).apply (.c 0 cap)
          { f with pc := BitVec.ofNat 32 (H.hentry + 4), code := H.code, hchain := BitVec.ofNat 32 h, wait := .none, parked := none, mark := none })
        some (s.setFrame id cl 0x010, r)

/-- The ROOTPARK record of an RCALL that reaches the root frame: NSEG 0, and the fibre parks on its reply slot (R199); none when no segment can be obtained. -/
def State.rootPark (s : State) (id : FibId) (e : Eff) (wake : Nat) : Option (State × Nat) :=
  match s.takeSeg id with
  | none => none
  | some (r, s) =>
    let a := s.asidOf id.launch
    let s := s.modFib id Fibre.settleAll
    match s.fib id with
    | none => none
    | some f =>
      let s := s.initRecord a r
      let s := (s.segSet a r 0x18 4 (e.tag.toNat + 0x3000)).segSet a r 0x1C 4 e.resume.toNat
      let s := s.segSetCap a r 0x20 f.code
      let s := (s.segSet a r 0x30 4 f.seg).segSet a r 0x34 4 f.seg
      let s := (s.segSet a r 0x38 4 rootFrame).segSet a r 0x3C 4 rootFrame
      let s := (s.segSet a r 0x40 2 f.frameOff).segSet a r 0x42 2 0
      let s := (s.recRegs a r f true).segSet a r 0x58 8 wake
      let (serial, s) := s.nextSerial a
      let s := s.setRecWord a r serial 1 stLive
      some (s.modFib id (fun f => { f.park s.ticks (.reply r) with pc := e.resume }), r)

/-- The root action HAMPER: the fibre parks on the record of its access; a software-raised tag names none (log entry 12). -/
def State.hamperPark (s : State) (id : FibId) (e : Eff) : State :=
  let die := dieOf (s.coreOf id)
  let k := e.key.getD ⟨s.asidOf id.launch, 0, none, false⟩
  let s := s.hamperEnter die k
  s.modFib id (fun f => { f.park s.ticks (.hamper die (s.hamperNum die k) k e.tag) with pc := e.resume })

/-- The root action of an effect (R195, R196). Tags 0x002 to 0x004 raised by PERFORM, PERFORMR or RESUMEX go on at once. -/
def State.rootAction (s : State) (id : FibId) (e : Eff) : State :=
  let goOn := s.modFib id (fun f => { f.settleFixed with pc := e.resume })
  match e.tag.toNat with
  | 0x001 => goOn
  | 0x002 => if e.full then s.modFib id (fun f => { f.settleAll with pc := e.resume, wait := e.wait }) else goOn
  | 0x003 => if e.full then s.modFib id (fun f => { f.park s.ticks e.wait with pc := e.resume }) else goOn
  | 0x004 => goOn
  | 0x0D1 => s.hamperPark id e
  | 0x0D2 => s.hamperPark id e
  | 0x0F0 => (s.toMgmt (.debugStop id)).endFibre id (some e.tag)
  | 0x0F1 => (s.modFib id (fun f => { f.settleAll with pc := e.resume, wait := .supervisor e.arg })).later 1 .serviceCallReply
  | _ => s.endFibre id (some e.tag)

/-- Send the request of an RCALL whose record is segment r; its fibres' token counts it once it has left the link (R392). The caller has seen that a tag is free. -/
def State.sendCall (s : State) (id : FibId) (c : Call) (r : Nat) : State :=
  let a := s.asidOf id.launch
  let pay := natBytes 4 a ++ natBytes 4 (s.heapObj a) ++ natBytes 8 (1024 * r) ++ natBytes 8 c.callid.toNat ++ natBytes 2 c.req.length
    ++ natBytes 4 (recSerial (s.recWord a r)) ++ natBytes 2 0 ++ c.req
  match s.hostRequest c.link { Packet.zero with kind := 0x0B#5, off := BitVec.ofNat 48 c.host, len := pay.length, payload := pay } (.rcall c.cmd a r) (s.coreOf id) pay.length ⟨a, s.heapObj a, none, false⟩ with
  | none => s
  | some (s, t) => s.modCmd c.cmd (fun x => { x with cuts := x.cuts ++ [(c.link, t)] })

/-- The WAKE word of an effect's record, and its REPLY field (R186). -/
def Eff.wake (e : Eff) : Nat :=
  match e.call with
  | none => noLink
  | some c => c.wake.toNat
def Eff.reply (e : Eff) : Nat := if e.call.isSome then 1 else 0

/-- Send what an effect has to send, now that its record stands. -/
def State.callOut (s : State) (id : FibId) (e : Eff) (r : Nat) : State :=
  match e.call with
  | none => s
  | some c => s.sendCall id c r

/-- Lost data that a fibre detects writes one ERRLOG entry (R107). -/
def State.logEff (s : State) (e : Eff) : State :=
  match e.key with
  | none => s
  | some k => if e.tag = 0x0D0#12 then s.logError k.asid (k.region.getD 0) k.obj 1 else s

/-- The release at package scope that a capture makes cannot complete yet, since a dirty line is latched: the fibre waits with its effect (R186, R229, R242). -/
def State.captureWaits (s : State) (id : FibId) (e : Eff) : State :=
  s.modFib id (fun f => { f.settleAll with wait := .capture, pend := some e })

/-- Perform an effect that has been reported. -/
def State.performGo (s : State) (id : FibId) (e : Eff) : State :=
  match s.fib id with
  | none => s
  | some f =>
    let a := s.asidOf id.launch
    let r := s.releaseAll (s.coreOf id) 3
    let found := s.search a e.tag.toNat maxSegs f.hchain.toNat rootFrame
    if found.1.isSome && !r.2 then r.1.captureWaits id e
    else match match found with
      | (none, _) => if e.call.isSome then s.rootPark id e e.wake else some (s.rootAction id e, 0)
      | (some h, oc) => s.capture id e h oc e.reply e.wake with
    | some (s, r) => s.callOut id e r
    | none =>
      if e.tag = 0x0E9#12 then s.endFibre id (some 0x0E9#12)
      else
        let e9 := Eff.fault 0x0E9#12 (e.tag.setWidth 32) e.resume none
        match s.search a 0x0E9 maxSegs f.hchain.toNat rootFrame with
        | (none, _) => s.rootAction id e9
        | (some h, oc) =>
          if !r.2 then r.1.captureWaits id e9
          else match s.capture id e9 h oc 0 noLink with
          | some (s, _) => s
          | none => s.endFibre id (some 0x0E9#12)

/-- PERFORM AN EFFECT: the one way by which a fibre takes a fault, a trap, a wait or a call (R185, R186). The handler found captures the stack and its clause is entered; with none, the root action applies. A capture that lacks its segments performs 0x0E9 in place of the effect, and one that lacks them while raising 0x0E9 ends the fibre by ABORT. -/
def State.perform (s : State) (id : FibId) (e : Eff) : State :=
  match s.fib id with
  | none => s
  | some _ => (s.logEff e).performGo id e

/-! ## Crew rendezvous (R167 to R170, R320) -/

/-- The wait of an arrival. -/
def Wait.isMeeting : Wait → Bool
  | .rendezvous .. => true
  | _ => false

/-- A fibre that has arrived at its crew's rendezvous. -/
def Fibre.arrived (f : Fibre) : Bool := f.wait.isMeeting

/-- The mask that an arrival carries. -/
def Fibre.arrivalMask (f : Fibre) : DWord :=
  match f.wait with
  | .rendezvous _ m _ _ _ _ => m
  | _ => 0

/-- The instruction that an arrival carries: the slot word, compared field by field. -/
def Fibre.arrivalInstr (f : Fibre) : Option Instr :=
  match f.wait with
  | .rendezvous i _ _ _ _ _ => some i
  | _ => none

/-- The members of a crew that have arrived and those live, when the rendezvous is complete: every live member that an arriving mask names has arrived. -/
def crewComplete (W crew : Nat) (fs : List Fibre) : Option (List Fibre) :=
  let mem := fs.filter (fun f => f.fid / W == crew)
  let arr := mem.filter Fibre.arrived
  if arr.isEmpty then none
  else
    let m := arr.foldl (fun acc f => acc ||| f.arrivalMask) (0 : DWord)
    if mem.all (fun f => f.arrived || !m.getLsbD (f.fid % W)) then some arr else none

/-- Complete a rendezvous whose arrivals agree: results to the members that execute, flags, and every arrived member goes on (R167, R347, R348). A member that arrived in a chain issues its chain, with its result in hand: until the rendezvous has completed no slot of the chain writes anything (R288). -/
def State.crewFinish (s : State) (l w W crew : Nat) (i : Instr) (mask : DWord) (arr : List Fibre) : State :=
  match s.wg l w with
  | none => s
  | some g =>
    let at_ (n : Nat) : Option Fibre := arr.find? (fun f => f.fid == W * crew + n)
    let m : CrewIn := (List.range W).map (fun n => (at_ n).bind (fun f => match f.wait with
      | .rendezvous _ _ true xa xb _ => some (xa, xb)
      | _ => none))
    let live := (List.range W).map (fun n => mask.getLsbD n && g.fibres.any (fun f => f.fid == W * crew + n))
    let isMeet : Bool := match i with
      | .meet _ => true
      | _ => false
    let exited := !isMeet && (List.range W).any (fun n => mask.getLsbD n && !live.getD n false)
    let age := arr.foldl (fun a f => max a f.age) 0
    s.over arr (fun s f =>
      let id : FibId := ⟨l, w, f.fid⟩
      match f.wait with
      | .rendezvous _ _ exe _ _ next =>
        let (ws, fl) := if exe then crewResult i W m live (f.fid % W) else ([], 0)
        let fl := fl ||| flagIf (exited && exe) flagXLN
        match next with
        | none => s.modFib id (fun f => { f with wait := .none, age := if isMeet then age else f.age, met := some (ws, fl) })
        | some pc =>
          let s := s.modFib id (fun f => { (f.flag fl) with wait := .none, pc := pc, age := if isMeet then age else f.age,
                                                            infl := if ws = [] then f.infl else f.infl ++ [ws] })
          let s := if ws = [] then s else s.later 1 (.resultWriteback id)
          if exe && fl.getLsbD 0 && f.fmode.getLsbD 9 then
            (s.modFib id Fibre.settleAll).perform id (Eff.fault 0x0E1#12 0 pc none)
          else s
      | _ => s)

/-- Complete one crew's rendezvous if every named live member has arrived: arrivals that differ all perform 0x0E3 (R167). -/
def State.crewCheck (s : State) (l w crew : Nat) : State :=
  match s.launch l, s.wg l w with
  | some L, some g =>
    match crewComplete L.crew crew g.fibres with
    | none => s
    | some [] => s
    | some (f :: rest) =>
      match f.wait with
      | .rendezvous i mask _ _ _ _ =>
        if rest.all (fun x => x.arrivalInstr == some i && x.arrivalMask == mask) then
          s.crewFinish l w L.crew crew i mask (f :: rest)
        else
          s.over (f :: rest) (fun s x =>
            let id : FibId := ⟨l, w, x.fid⟩
            (s.modFib id (fun y => { y with wait := .none })).perform id (Eff.fault 0x0E3#12 0 x.pc none))
      | _ => s
  | _, _ => s

/-- Complete every rendezvous of a workgroup that can complete; ends of fibres on the way may let further ones complete. -/
def State.settleCrewsGo (l w : Nat) : Nat → State → State
  | 0, s => s
  | n + 1, s =>
    match s.launch l, s.wg l w with
    | some L, some g =>
      let crews := ((g.fibres.filter Fibre.arrived).map (fun f => f.fid / L.crew)).dedup
      match crews.find? (fun c => (crewComplete L.crew c g.fibres).isSome) with
      | none => s
      | some c => settleCrewsGo l w n (s.crewCheck l w c)
    | _, _ => s

/-! ## Barrier rounds (R43, R150, R372) -/

/-- The entry of a launch's hierarchy for a level (R124, R371). -/
def Launch.level (L : Launch) (lvl : Nat) : Option Level := L.hier.find? (fun x => x.domain == lvl)

/-- Two fibres of a launch belong to one unit of a barrier level (R371). -/
def sameUnit (s : State) (L : Launch) (lvl : Nat) (a b : FibId) : Bool :=
  match lvl with
  | 2 => a.wgid == b.wgid && a.fid / L.crew == b.fid / L.crew
  | 3 => a.wgid == b.wgid
  | 4 => L.gangOf a.wgid == L.gangOf b.wgid
  | 5 => dieOf (s.coreOf a) == dieOf (s.coreOf b)
  | _ => true

/-- The fibre has an outstanding arrival of a barrier whose round has not completed. -/
def Fibre.pendingAt (f : Fibre) (lvl num : Nat) : Bool := f.arr.any (fun a => a.level == lvl && a.num == num && !a.done)

/-- The live members of a fibre's barrier. -/
def State.barMembers (s : State) (L : Launch) (lvl : Nat) (id : FibId) : List (FibId × Fibre) :=
  s.allFibres.filter (fun x => x.1.launch == L.id && sameUnit s L lvl id x.1)

/-- Release the members of a completed round: a waiting fibre acquires at the level's scope and goes on, the others learn that their round is done (R372). -/
def State.roundDone (s : State) (scope lvl num : Nat) (ms : List (FibId × Fibre)) : State :=
  s.over ms (fun s m =>
    if !m.2.pendingAt lvl num then s
    else
      let others := m.2.arr.filter (fun a => !(a.level == lvl && a.num == num))
      match m.2.wait with
      | .barrier l n next =>
        if l = lvl ∧ n = num then
          (s.modFib m.1 (fun f => { f with arr := others, wait := .none, pc := next.getD f.pc })).acquireAt (s.coreOf m.1) scope
        else s.modFib m.1 (fun f => { f with arr := others ++ [⟨lvl, num, true⟩] })
      | _ => s.modFib m.1 (fun f => { f with arr := others ++ [⟨lvl, num, true⟩] }))

/-- The node or grid barrier unit of a launch. -/
def State.unitOf (s : State) (l lvl num : Nat) : Option BarUnit := s.units.find? (fun u => u.launch == l && u.level == lvl && u.num == num)

/-- Change a node or grid barrier unit. -/
def State.modUnit (s : State) (l lvl num : Nat) (f : BarUnit → BarUnit) : State :=
  { s with units := s.units.map (fun u => if u.launch == l && u.level == lvl && u.num == num then f u else u) }

/-- The arrivals held for a unit in a phase, as positions (R150). -/
def State.heldFor (s : State) (lvl num : Nat) (phase : Bool) : BitVec 16 :=
  BitVec.ofNat 16 ((((s.heldArrivals.filter (fun a => a.level == lvl && a.num == num && a.phase == phase)).map (·.origin % 16)).dedup.map (2 ^ ·)).sum)

/-- The next round of a unit: the phase inverts, and arrivals of it that have come early count. -/
def State.nextRound (s : State) (l lvl num : Nat) (phase : Bool) : State :=
  let early := s.heldFor lvl num (!phase)
  { s.modUnit l lvl num (fun u => { u with seen := early, phase := !phase }) with
    heldArrivals := s.heldArrivals.filter (fun a => !(a.level == lvl && a.num == num && a.phase == !phase)) }

/-- Complete the round of a fibre's barrier if every live member has arrived in it; at node and grid level the package then sends its arrival, and the round completes when every member package has sent its own (R43). -/
def State.barrierCheck (s : State) (id : FibId) (lvl num : Nat) : State :=
  match s.launch id.launch with
  | none => s
  | some L =>
    match L.level lvl with
    | none => s
    | some e =>
      let ms := s.barMembers L lvl id
      if ms = [] ∨ !ms.all (fun m => m.2.pendingAt lvl num) then s
      else if lvl < 7 then s.roundDone e.scope lvl num ms
      else
        match s.unitOf L.id lvl num with
        | none => s
        | some u =>
          let me : BitVec 16 := (1 : BitVec 16) <<< s.pos
          let s := if u.seen.getLsbD s.pos then s
            else (s.modUnit L.id lvl num (fun u => { u with seen := u.seen ||| me })).sendBarrier (lvl == 8) num u.phase u.mask
          if (u.seen ||| me) &&& u.mask = u.mask then
            (s.nextRound L.id lvl num u.phase).roundDone e.scope lvl num ms
          else s

/-- Complete every barrier round of a launch that can complete. -/
def State.settleBarriers (s : State) (l : Nat) : State :=
  s.over ((s.allFibres.filter (fun x => x.1.launch == l)).flatMap (fun x => (x.2.arr.filter (fun a => !a.done)).map (fun a => (x.1, a.level, a.num))))
    (fun s x => s.barrierCheck x.1 x.2.1 x.2.2)

/-- After a fibre has arrived somewhere or ended: complete the rendezvous of its workgroup and the barrier rounds of its launch. -/
def State.settle (s : State) (l w : Nat) : State :=
  let n := match s.wg l w with
    | none => 0
    | some g => g.fibres.length
  (settleCrewsGo l w n s).settleBarriers l

/-- Perform an effect, and complete what the end of a fibre may complete. -/
def State.raise (s : State) (id : FibId) (e : Eff) : State := (s.perform id e).settle id.launch id.wgid

/-! ## Resuming a continuation (R190 to R193) -/

/-- The claim: the checks of R190 on a capability, and the state word moved from LIVE to a claimed state. The error is the tag to perform at the instruction. -/
def State.claim (s : State) (a : Nat) (k : Cap) (dest : Nat) : Except (BitVec 12) (Nat × State) :=
  if !k.tag then .error 0x0C3#12
  else if k.kind != 3#4 then .error 0x0C4#12
  else if !k.has [rM] then .error 0x0C2#12
  else
    let r := k.base.toNat / 1024
    let w := s.recWord a r
    if s.isRecord a r && recSerial w == k.len.toNat / 2 ^ 16 && recState w == stLive then
      .ok (r, s.setRecWord a r (recSerial w) (recReply w) dest)
    else .error 0x0C5#12

/-- The captured segments of a record, top first. -/
def State.captured (s : State) (a r : Nat) : List Nat :=
  (s.chain a noLink (s.segNum a r 0x42 2) (s.segNum a r 0x30 4))

/-- An uncorrectable error lies in a record or in a segment it captured (R197). -/
def State.recBad (s : State) (a r : Nat) : Bool :=
  (r :: s.captured a r).any (fun n => s.hurts.contains (.segment a n) || (match s.segPA a n with
    | none => false
    | some pa => s.isBad pa 1024))

/-- The report of that error: of memory, of a home slice, or of a Cupboard (R107). -/
def State.logRec (s : State) (a r : Nat) : State :=
  let segs := r :: s.captured a r
  match segs.find? (fun n => s.hurts.contains (.segment a n)) with
  | some n => s.logError a (((s.segPA a n).getD 0) / 1048576) 3 1
  | none => s.logLost a (segs.filterMap (fun n => (s.segPA a n).map (fun pa => (pa, 1024))))

/-- Bytes of a workgroup's scratchpad have been written: their errors are gone (R107, log entry 47). -/
def State.scratchWrote (s : State) (l w : Nat) (p : Nat → Bool) : State :=
  { s with hurts := s.hurts.filter (fun h => match h with
      | .scratch l' w' b => !(l' == l && w' == w && p b)
      | _ => true) }

/-- How far the copy of reply bytes has come: done, or what is left of it and what the fibre waits for. -/
inductive Left where
  | done
  | more (k : Nat) (w : Wait)
  deriving DecidableEq, Repr

/-- Copy reply bytes through a capability of kind data, from byte k on (R199, R392): to device memory, a host or a peer. A line that is latched, a tag that is not free and a region that is not resident are waited for; bytes that cannot be written for another reason are lost (log entry 26). -/
def State.deliverGo (id : FibId) (dst : Cap) (bs : List Byte) : Nat → Nat → State → State × Left
  | 0, _, s => (s, .done)
  | n + 1, k, s =>
    if bs.length ≤ k then (s, .done)
    else
      let a := s.asidOf id.launch
      let o := dst.base.toNat + k
      let key : HamperKey := ⟨a, dst.obj.toNat, some (o / 2097152), true⟩
      match s.xlatNow ((s.launch id.launch).any (fun L => L.accept.getLsbD 12)) ⟨a, dst.obj.toNat, o, 1, true, false⟩ with
      | .pa p _ => if s.latched p then (s, .more k (.latch (p / 256))) else deliverGo id dst bs n (k + 1) (s.homeStore (s.keyOf a) p (bs.drop k |>.take 1))
      | .host link addr =>
        let m := min (bs.length - k) (1024 - addr % 1024)
        let pay := (bs.drop k).take m
        (match s.hostRequest link { Packet.zero with kind := 0x03#5, off := BitVec.ofNat 48 addr, len := m, payload := pay } (.store id (BitVec.ofNat 32 o)) (s.coreOf id) m key with
          | none => (s, .more k .unacked)
          | some (s, _) => deliverGo id dst bs n (k + m) s)
      | .peer pos pasid pobj _ =>
        let m := if o % 16 = 0 ∧ 16 ≤ bs.length - k then 16 else 1
        let pay := (bs.drop k).take m
        (match s.request { Packet.zero with kind := 0x03#5, dst := posF pos, asid := BitVec.ofNat 12 pasid, obj := BitVec.ofNat 20 pobj, off := BitVec.ofNat 48 o, len := m,
                                            op := BitVec.ofNat 8 (2 ^ min m 8 - 1), payload := pay } (.store id (BitVec.ofNat 32 o)) (s.coreOf id) key with
          | none => (s, .more k .unacked)
          | some (s, _) => deliverGo id dst bs n (k + m) s)
      | .fault t =>
        if t = 0x0D1#12 ∨ t = 0x0D2#12 then
          let die := dieOf (s.coreOf id)
          let s := s.hamperEnter die key
          (s, .more k (.hamper die (s.hamperNum die key) key t))
        else (s, .done)
      | _ => (s, .done)

/-- Write reply bytes through the destination capability c7 (R199, R392): to the scratchpad of the running workgroup for kind local, through translation for kind data; what must wait holds the fibre before its next instruction. -/
def State.deliver (s : State) (id : FibId) (dst : Cap) (bs : List Byte) : State :=
  if bs = [] then s
  else if dst.kind = 2#4 then
    (s.modWg id.launch id.wgid (fun g => { g with scratch := g.scratch.write dst.base.toNat bs })).scratchWrote id.launch id.wgid
      (fun b => decide (dst.base.toNat ≤ b) && decide (b < dst.base.toNat + bs.length))
  else match State.deliverGo id dst bs bs.length 0 s with
    | (s, .done) => s
    | (s, .more k w) => s.modFib id (fun f => { f with wait := w, copy := some ({ dst with base := dst.base + BitVec.ofNat 48 k }, bs.drop k) })

/-- v0 of a filled or failed reply (R190, R199). -/
def replyV0 (reply len : Nat) : Word := if reply = 2 then BitVec.ofNat 32 len else if reply = 3 then 0xFFFFFFFE#32 else 0xFFFFFFFF#32

/-- The link of a claimed record to its resumer and the restoration of the resumed computation, with v0 taking the value operand after a partial record (R190, R191). next is the address after RESUME. -/
def State.linkResume (s : State) (id : FibId) (r : Nat) (tail : Bool) (value next : Word) : State :=
  let a := s.asidOf id.launch
  let s := s.modFib id Fibre.settleAll
  match s.fib id with
  | none => s
  | some f =>
    let s := s.acquire (s.coreOf id)
    let cur := s.hdr a f.seg f.frameOff
    let bot := s.segNum a r 0x34 4
    let below := if tail then s.link a f.seg else f.seg
    let ret := if tail then cur.ret else next.toNat
    let prev := if tail then cur.prev else f.frameOff
    let code := if tail then s.segCap a f.seg (f.frameOff + 16) else f.code
    let s := if tail then s.dropSeg id f.seg else s
    let s := (s.setLink a bot below).setHdr a bot 0x010 { s.hdr a bot 0x010 with ret := ret, prev := prev, mode := if tail then 7 else 3 }
    let s := s.segSetCap a bot 0x020 code
    let hc := f.hchain.toNat
    let s := if hc ≠ rootFrame ∧ (s.hframe a hc).state = 1 then s.setHState a hc 0 else s
    let outerh := s.segNum a r 0x3C 4
    let innerh := s.segNum a r 0x38 4
    let s := if outerh ≠ rootFrame then s.setHOuter a outerh hc else s
    let tw := s.segNum a r 0x18 4
    let full := tw / 0x1000 % 2 == 1
    let rw := s.recWord a r
    let top := s.segNum a r 0x30 4
    let off := s.segNum a r 0x40 2
    let rcode := s.segCap a r 0x20
    let rpc := s.segNum a r 0x1C 4
    let len := s.segNum a r 0x60 2
    let reply := recReply rw
    let dst := s.segCap a r (0x0B0 + 16 * 7)
    let bytes := match s.segPA a r with
      | none => []
      | some pa => s.rd (s.keyOf a) (pa + 0x70) len
    let snap := s
    let s := s.modFib id (fun f =>
      let f := snap.recRestore a r full f
      let f := if full then f else f.apply (.v 0 value)
      let f := if tw % 0x1000 = 4 ∧ reply ≠ 0 then f.apply (.v 0 (replyV0 reply len)) else f
      { f with pc := BitVec.ofNat 32 rpc, code := rcode, hchain := if innerh ≠ rootFrame then BitVec.ofNat 32 innerh else f.hchain, parked := none })
    let s := (s.cupboardTake (s.coreOf id) a top true).setFrame id top off
    let s := s.dropSeg id r
    if tw % 0x1000 = 4 ∧ reply = 2 then s.deliver id dst bytes else s

/-! ## Holding a fibre -/

/-- Hold a fibre at an instruction: every fixed-latency write is performed and the fibre waits (R166). -/
def State.holdAt (s : State) (id : FibId) (pc : Word) (w : Wait) : State :=
  s.modFib id (fun f => { f.settleFixed with wait := w, pc := pc })

end Sys2Proof.Machine
end

