-- ==== Sys2Proof/Machine/Operands.lean ====
section
/-! DEFINITION. Every operand form: the registers an instruction names, the decode checks that need the launch (R292), the uncovered reads of R165, uniform operands (R164), and the frame of every instruction: who executes, what is raised, what is held, and how results are written (R155, R284, R288, R303). -/

namespace Sys2Proof.Machine

/-! ## Registers named -/

/-- A register of a fibre. -/
inductive RReg where
  | v (n : Nat)
  | p (n : Nat)
  | c (n : Nat)
  | cmask
  deriving DecidableEq, Repr

/-- The registers an instruction reads and writes, the group registers it reads through the scoreboard, and those it names as a token or as the target of SETG. -/
structure Uses where
  reads : List RReg
  writes : List RReg
  g : List Nat
  tok : List Nat
  deriving DecidableEq, Repr

def Uses.none : Uses := ⟨[], [], [], []⟩

/-- Only fibre registers. -/
def use (reads writes : List RReg) : Uses := ⟨reads, writes, [], []⟩

def vr (r : BitVec 6) : RReg := .v r.toNat
def pr (p : BitVec 3) : RReg := .p p.toNat

/-- n registers from r up. -/
def vrs (r : BitVec 6) (n : Nat) : List RReg := (List.range n).map (fun k => RReg.v (r.toNat + k))

/-- Operand a of an R form: a fibre register, or a group register under G (R291). -/
def opA (g : Bool) (a : BitVec 6) : List RReg := if g then [] else [vr a]

/-- The group register that operand a names under G. -/
def gA (g : Bool) (a : BitVec 6) : List Nat := if g then [a.toNat] else []

/-- An R form with two operands. -/
def useR (d a b : BitVec 6) (g : Bool) : Uses := ⟨vr b :: opA g a, [vr d], gA g a, []⟩

/-- A unary R form. -/
def useU (d a : BitVec 6) (g : Bool) : Uses := ⟨opA g a, [vr d], gA g a, []⟩

/-- The old value of a predicate, where the combine mode uses it (R329). -/
def oldP (k p : BitVec 3) : List RReg := if k = 0#3 ∨ k = 4#3 then [] else [pr p]

/-- A format slot of the launch (R257). -/
def Launch.fmt (L : Launch) (n : BitVec 3) : DWord := L.formats.getD n.toNat 0

/-- The registers that an instruction names, and its group registers (R155, R158, R160; the instruction entries). -/
def usesOf (L : Launch) : Instr → Uses
  | .bra _ => Uses.none
  | .bru _ => Uses.none
  | .bway w0 w1 w2 w3 _ _ _ _ => use [pr (w0.setWidth 3), pr (w1.setWidth 3), pr (w2.setWidth 3), pr (w3.setWidth 3)] []
  | .call _ => Uses.none
  | .calli c x _ => use [.c c.toNat, vr x] []
  | .jmpi c x _ => use [.c c.toNat, vr x] []
  | .ret => Uses.none
  | .meet _ => use [.cmask] []
  | .exit => Uses.none
  | .nop => Uses.none
  | .frame _ => Uses.none
  | .unframe => Uses.none
  | .loop d _ => use [vr d] [vr d]
  | .assert _ p => use [pr p] []
  | .add d a b g _ _ => useR d a b g
  | .addi d a _ => use [vr a] [vr d]
  | .sub d a b g _ _ => useR d a b g
  | .addc d a b g => useR d a b g
  | .mul d a b g _ _ => useR d a b g
  | .mulhi d a b g _ => useR d a b g
  | .mad d a b c => use [vr a, vr b, vr c] [vr d]
  | .madw d a b c => use ([vr a, vr b] ++ vrs c 2) (vrs d 2)
  | .div d a b g _ _ => useR d a b g
  | .rem d a b g _ => useR d a b g
  | .min d a b g _ => useR d a b g
  | .max d a b g _ => useR d a b g
  | .abs d a g _ => useU d a g
  | .neg d a g _ => useU d a g
  | .and d a b g => useR d a b g
  | .andi d a _ => use [vr a] [vr d]
  | .or d a b g => useR d a b g
  | .ori d a _ => use [vr a] [vr d]
  | .xor d a b g => useR d a b g
  | .xori d a _ => use [vr a] [vr d]
  | .andn d a b g => useR d a b g
  | .shl d a b g _ _ => useR d a b g
  | .shli d a _ => use [vr a] [vr d]
  | .shr d a b g _ => useR d a b g
  | .shri d a _ _ => use [vr a] [vr d]
  | .rot d a b g => useR d a b g
  | .funnel d a b c => use [vr a, vr b, vr c] [vr d]
  | .bfx d a b g _ => useR d a b g
  | .bfi d a b c => use [vr a, vr b, vr c] [vr d]
  | .popc d a g => useU d a g
  | .clz d a g => useU d a g
  | .ctz d a g => useU d a g
  | .brev d a g => useU d a g
  | .sel d a b g _ p => ⟨vr b :: pr p :: opA g a, [vr d], gA g a, []⟩
  | .cmp k p a b g _ => ⟨vr b :: oldP k p ++ opA g a, [pr p], gA g a, []⟩
  | .cmpi k p a _ _ => use (vr a :: oldP k p) [pr p]
  | .plog k p a b _ => use ([pr a, pr b] ++ oldP k p) [pr p]
  | .mov d a g => useU d a g
  | .movi d _ => use [] [vr d]
  | .movl d _ => use [] [vr d]
  | .addl d a _ => use [vr a] [vr d]
  | .muli d a _ => use [vr a] [vr d]
  | .fadd d a b g _ _ => useR d a b g
  | .fsub d a b g _ _ => useR d a b g
  | .fmul d a b g _ _ => useR d a b g
  | .ffma d a b c => use [vr a, vr b, vr c] [vr d]
  | .hfma2 d a b c => use [vr a, vr b, vr c] [vr d]
  | .bfma2 d a b c => use [vr a, vr b, vr c] [vr d]
  | .fmin d a b g _ => useR d a b g
  | .fmax d a b g _ => useR d a b g
  | .fabs d a g _ => useU d a g
  | .fneg d a g _ => useU d a g
  | .fcmp k p a b g _ _ => ⟨vr b :: oldP k p ++ opA g a, [pr p], gA g a, []⟩
  | .fclass d a g _ => useU d a g
  | .frcp d a g _ _ => useU d a g
  | .frsq d a g _ _ => useU d a g
  | .fsqrt d a g _ _ => useU d a g
  | .fdiv d a b g _ _ => useR d a b g
  | .fexp2 d a g _ _ => useU d a g
  | .flog2 d a g _ _ => useU d a g
  | .fsinpi d a g _ _ => useU d a g
  | .fcospi d a g _ _ => useU d a g
  | .ftanh d a g _ _ => useU d a g
  | .fround d a g _ _ => useU d a g
  | .fscale d a b g _ _ => useR d a b g
  | .fdot2 d a b c => use [vr a, vr b, vr c] [vr d]
  | .bdot2 d a b c => use [vr a, vr b, vr c] [vr d]
  | .cvt d a _ _ _ _ => use [vr a] [vr d]
  | .qpack d a b _ s => use (vrs a 4 ++ if 3 ≤ slotScale (L.fmt s) then [vr b] else []) (vrs d (if 3 ≤ slotScale (L.fmt s) then 2 else 1))
  | .qpack4 d a b _ _ => use (vrs a 4 ++ vrs b 4) [vr d]
  | .qunpk d a b _ s => use (vr a :: if 3 ≤ slotScale (L.fmt s) then [vr b] else []) (vrs d 4)
  | .dot4 d a b c => use [vr a, vr b, vr c] [vr d]
  | .dot8 d a b c => use [vr a, vr b, vr c] [vr d]
  | .fdot4 d a b c => use [vr a, vr b, vr c] [vr d]
  | .mac2 d a b c => use [vr a, vr b, vr c] [vr d]
  | .shrr d a b g _ _ => useR d a b g
  | .pk16 d a b g _ _ => useR d a b g
  | .scalep a _ => use [vr a] []
  | .scalec _ => Uses.none
  | .scaleg d _ => use [] [vr d]
  | .add2 d a b g _ _ => useR d a b g
  | .sub2 d a b g _ _ => useR d a b g
  | .mul2 d a b g _ _ => useR d a b g
  | .shfl d a b => use [vr a, vr b, .cmask] [vr d]
  | .shflx d a b => use [vr a, vr b, .cmask] [vr d]
  | .slide d a b _ _ => use [vr a, vr b, .cmask] [vr d]
  | .voteBallot d s => use [pr s, .cmask] (vrs d (L.crew / 32))
  | .voteAny k p s => use (pr s :: .cmask :: oldP k p) [pr p]
  | .voteAll k p s => use (pr s :: .cmask :: oldP k p) [pr p]
  | .voteCount d s => use [pr s, .cmask] [vr d]
  | .cred d a _ => use [vr a, .cmask] [vr d]
  | .cscan d a _ _ => use [vr a, .cmask] [vr d]
  | .cmask a _ => use (.cmask :: vrs a (L.crew / 32)) [.cmask]
  | .elect p a => use [.cmask] [pr p, vr a]
  | .matchv d a => use [vr a, .cmask] (vrs d (L.crew / 32))
  | .ld8s t c x _ => use [.c c.toNat, vr x] [vr t]
  | .ld8z t c x _ => use [.c c.toNat, vr x] [vr t]
  | .ld16s t c x _ => use [.c c.toNat, vr x] [vr t]
  | .ld16z t c x _ => use [.c c.toNat, vr x] [vr t]
  | .ld32 t c x _ => use [.c c.toNat, vr x] [vr t]
  | .ld64 t c x _ => use [.c c.toNat, vr x] (vrs t 2)
  | .ld128 t c x _ => use [.c c.toNat, vr x] (vrs t 4)
  | .st8 t c x _ => use [.c c.toNat, vr x, vr t] []
  | .st16 t c x _ => use [.c c.toNat, vr x, vr t] []
  | .st32 t c x _ => use [.c c.toNat, vr x, vr t] []
  | .st64 t c x _ => use (.c c.toNat :: vr x :: vrs t 2) []
  | .st128 t c x _ => use (.c c.toNat :: vr x :: vrs t 4) []
  | .lda d c x _ => use [.c c.toNat, vr x] [vr d]
  | .stl c x s _ => use [.c c.toNat, vr x, vr s] []
  | .pref _ c x _ => use [.c c.toNat, vr x] []
  | .ldc t c x _ => use [.c c.toNat, vr x] [.c t.toNat]
  | .stc t c x _ => use [.c c.toNat, vr x, .c t.toNat] []
  | .cmov d a => use [.c a.toNat] [.c d.toNat]
  | .cadd d a b => use [.c a.toNat, vr b] [.c d.toNat]
  | .cnarrow d a b c => use [.c a.toNat, vr b, vr c] [.c d.toNat]
  | .cdrop d a _ => use [.c a.toNat] [.c d.toNat]
  | .cget d a _ => use [.c a.toNat] [vr d]
  | .ctest k p a b => use (.c a.toNat :: vr b :: oldP k p) [pr p]
  | .tld g q c x _ _ => ⟨[.c c.toNat, vr x], [], (List.range 4).map (q.toNat + ·), [g.toNat]⟩
  | .tst g q c x _ _ => ⟨[.c c.toNat, vr x], [], (List.range 4).map (q.toNat + ·), [g.toNat]⟩
  | .aadd d c x s _ => use [.c c.toNat, vr x, vr s] [vr d]
  | .aand d c x s _ => use [.c c.toNat, vr x, vr s] [vr d]
  | .aor d c x s _ => use [.c c.toNat, vr x, vr s] [vr d]
  | .axor d c x s _ => use [.c c.toNat, vr x, vr s] [vr d]
  | .amins d c x s _ => use [.c c.toNat, vr x, vr s] [vr d]
  | .aminz d c x s _ => use [.c c.toNat, vr x, vr s] [vr d]
  | .amaxs d c x s _ => use [.c c.toNat, vr x, vr s] [vr d]
  | .amaxz d c x s _ => use [.c c.toNat, vr x, vr s] [vr d]
  | .axchg d c x s _ => use [.c c.toNat, vr x, vr s] [vr d]
  | .acas d c x s _ => use (.c c.toNat :: vr x :: vrs s 2) [vr d]
  | .aadd64 d c x s _ => use (.c c.toNat :: vr x :: vrs s 2) (vrs d 2)
  | .rfadd _ c x s _ _ => use [.c c.toNat, vr x, vr s] []
  | .rfmin _ c x s _ _ => use [.c c.toNat, vr x, vr s] []
  | .rfmax _ c x s _ _ => use [.c c.toNat, vr x, vr s] []
  | .radd c x s _ => use [.c c.toNat, vr x, vr s] []
  | .afadd d c x s _ _ => use [.c c.toNat, vr x, vr s] [vr d]
  | .rel _ => Uses.none
  | .acq _ => Uses.none
  | .phase _ => Uses.none
  | .fence => Uses.none
  | .ifence => Uses.none
  | .qfence _ _ => Uses.none
  | .bar _ _ => Uses.none
  | .bara _ _ => Uses.none
  | .barw _ _ => Uses.none
  | .waitm _ c x s _ => use (.c c.toNat :: vr x :: vrs s 2) []
  | .notify t c x _ => use (.c c.toNat :: vr x :: vrs t 2) []
  | .waitt d _ => use [] [vr d]
  | .sleep _ => Uses.none
  | .handle _ _ _ _ => Uses.none
  | .unhandle => Uses.none
  | .perform _ a => use [vr a] []
  | .performr a b => use [vr a, vr b] []
  | .resume a b _ => use [.c a.toNat, vr b] []
  | .resumex _ a b c => use [.c a.toNat, vr b, vr c] []
  | .discard a => use [.c a.toNat] []
  | .hret a => use [vr a] [.v 0]
  | .spawn d a b c => use [.c a.toNat, vr b, vr c] [.c d.toNat]
  | .cmigr g _ c x _ => ⟨[.c c.toNat, vr x], [], [], [g.toNat]⟩
  | .mma g _ c x => ⟨[.c c.toNat, vr x], [], [], [g.toNat]⟩
  | .mzero g _ c x => ⟨[.c c.toNat, vr x], [], [], [g.toNat]⟩
  | .mdrain g _ c x _ _ => ⟨[.c c.toNat, vr x], [], [], [g.toNat]⟩
  | .copy g _ c x _ _ => ⟨[.c c.toNat, vr x], [], [], [g.toNat]⟩
  | .copyt g _ c x _ _ => ⟨[.c c.toNat, vr x], [], [], [g.toNat]⟩
  | .xput g _ c x _ _ => ⟨[.c c.toNat, vr x], [], [], [g.toNat]⟩
  | .xget g _ c x _ _ => ⟨[.c c.toNat, vr x], [], [], [g.toNat]⟩
  | .dpost g _ c x => ⟨[.c c.toNat, vr x], [], [], [g.toNat]⟩
  | .send g _ c x _ _ => ⟨[.c c.toNat, vr x], [], [], [g.toNat]⟩
  | .rpost g _ c x _ _ => ⟨[.c c.toNat, vr x], [], [], [g.toNat]⟩
  | .rcall g c x => ⟨[.c c.toNat, vr x], [], [], [g.toNat]⟩
  | .tokq d _ => use [] [vr d]
  | .gets d n => use (if n.toNat = 0x010 then [.cmask] else []) (vrs d (if sysRegWide n.toNat then 2 else 1))
  | .sets d n => use (vrs d (if sysRegWide n.toNat then 2 else 1)) (if n.toNat = 0x010 then [.cmask] else [])
  | .getg d a => ⟨[], [vr d], [a.toNat], []⟩
  | .setg d a => ⟨[vr a], [], [], [d.toNat]⟩
  | .brk => Uses.none
  | .svc _ => Uses.none
  | .oinv a b => use [.c a.toNat, vr b] []
  | _ => Uses.none

/-- The register that a write names. -/
def WB.reg : WB → RReg
  | .v r _ => .v r
  | .p r _ => .p r
  | .c r _ => .c r
  | .cmask _ => .cmask

/-! ## Decode checks that need the launch (R292) -/

/-- Every fibre register named is below REGS (R154). -/
def Uses.regsOk (u : Uses) (regs : Nat) : Bool :=
  (u.reads ++ u.writes).all (fun r => match r with
    | .v n => decide (n < regs)
    | _ => true)

/-- The feature bit an instruction belongs to, when it belongs to one (R102, R103). -/
def featureOf : Instr → Option Nat
  | .mma .. => some 0
  | .mzero .. => some 0
  | .mdrain .. => some 0
  | .cmigr .. => some 8
  | .dpost .. => some 10
  | .send .. => some 11
  | .rpost .. => some 11
  | .rcall .. => some 12
  | _ => none

/-- The format slots and pairs that an entry admits (R258, R337, R338, R339, R341, R346, R347, R356). -/
def slotsOk (L : Launch) : Instr → Bool
  | .cvt _ _ s f _ _ =>
    slotUsable (L.fmt s) && slotUsable (L.fmt f) && slotScale (L.fmt s) < 3 && slotScale (L.fmt f) < 3
  | .qpack d _ b _ s =>
    let t := L.fmt s
    slotUsable t && 3 ≤ slotElem t && slotElem t ≤ 9 && (if 3 ≤ slotScale t then ev d else b == 0#6)
  | .qpack4 _ _ _ _ s =>
    let t := L.fmt s
    slotUsable t && (slotElem t == 7 || slotElem t == 9) && slotScale t < 3
  | .qunpk _ _ b h s =>
    let t := L.fmt s
    slotUsable t && 3 ≤ slotElem t && slotElem t ≤ 9 && (3 ≤ slotScale t || b == 0#6)
      && (h == 0#2 || (h == 1#2 && elemBits (slotElem t) == 4))
  | .scalep _ s => slotUsable (L.fmt s) && slotScale (L.fmt s) == 2
  | .scalec s => slotUsable (L.fmt s) && slotScale (L.fmt s) == 2
  | .scaleg _ s => slotUsable (L.fmt s) && slotScale (L.fmt s) == 2
  | .voteBallot d _ => L.crew != 64 || ev d
  | .matchv d _ => L.crew != 64 || ev d
  | .cmask a _ => L.crew != 64 || ev a
  | _ => true

/-- The decode checks of R292 pass: those of Instr.wf and those that need the launch. -/
def legalIn (L : Launch) (i : Instr) : Bool :=
  i.wf && (usesOf L i).regsOk L.regs && slotsOk L i && (match featureOf i with
    | none => true
    | some n => L.accept.getLsbD n)

/-! ## The bundle -/

/-- The name of a fibre of the current bundle. -/
def State.curId (s : State) (fid : Nat) : FibId := ⟨s.cur.launch, s.cur.wgid, fid⟩

/-- The guard of a control byte holds in a fibre (R284). -/
def Fibre.guard (f : Fibre) (ctl : BitVec 8) : Bool := f.pred (ctl.toNat % 8) != ctl.getLsbD 3

/-- The live fibres among a list of numbers, in its order. -/
def State.curFibs (s : State) (fids : List Nat) : List Fibre := fids.filterMap (fun n => s.fib (s.curId n))

/-- A group register of a workgroup. -/
def State.greg (s : State) (l w n : Nat) : GReg :=
  match s.wg l w with
  | none => ⟨0, false, none, false⟩
  | some g => g.g.getD n ⟨0, false, none, false⟩

/-- Change a group register. -/
def State.modG (s : State) (l w n : Nat) (f : GReg → GReg) : State :=
  s.modWg l w (fun g => { g with g := g.g.set n (f (g.g.getD n ⟨0, false, none, false⟩)) })

/-- The launch of the current issue. -/
def State.curLaunch (s : State) : Option Launch := s.launch s.cur.launch

/-- The value of a group register of the current workgroup. -/
def State.gval (s : State) (n : Nat) : Word := (s.greg s.cur.launch s.cur.wgid n).val

/-- Operand A of an R form (R323, R332). -/
def State.valA (s : State) (f : Fibre) (g : Bool) (a : BitVec 6) : Word := if g then s.gval a.toNat else f.reg a.toNat

/-- Do something for each fibre of a list that is still live. -/
def State.each (s : State) (xs : List Nat) (f : State → FibId → Fibre → State) : State :=
  xs.foldl (fun s n => match s.fib (s.curId n) with
    | none => s
    | some x => f s (s.curId n) x) s

/-! ## Effects, waits and results of one fibre -/

/-- Raise an effect at the instruction: nothing is written, and the resume address is the instruction, or the chain's first slot (R195, R288). In a chain it is recorded. -/
def State.effAtW (s : State) (id : FibId) (tag : BitVec 12) (arg : Word) (key : Option HamperKey) (w : Wait) : State :=
  let e : Eff := ⟨tag, arg, true, s.cur.first, key, w, none⟩
  if s.cur.inChain then { s with cur := { s.cur with raised := s.cur.raised ++ [⟨id.fid, s.cur.slot, true, e⟩] } } else s.raise id e

/-- Raise an effect at the instruction that waits on nothing. -/
def State.effAt (s : State) (id : FibId) (tag : BitVec 12) (arg : Word) : State := s.effAtW id tag arg none .none

/-- Raise an effect after the instruction, with the next instruction as its resume address (R195, R288). In a chain it is recorded. -/
def State.effAfterR (s : State) (id : FibId) (tag : BitVec 12) (arg : Word) (full : Bool) (w : Wait) : State :=
  let e : Eff := ⟨tag, arg, full, s.cur.next, none, w, none⟩
  if s.cur.inChain then { s with cur := { s.cur with raised := s.cur.raised ++ [⟨id.fid, s.cur.slot, false, e⟩] } } else s.raise id e

/-- Raise the effect of an RCALL after the instruction: its record is written and its request sent when it is performed (R199, R392). -/
def State.effCall (s : State) (id : FibId) (c : Call) : State :=
  let e : Eff := ⟨0x004#12, 0, true, s.cur.next, none, .none, some c⟩
  if s.cur.inChain then { s with cur := { s.cur with raised := s.cur.raised ++ [⟨id.fid, s.cur.slot, false, e⟩] } } else s.raise id e

/-- Raise an effect with a full record after the instruction. -/
def State.effAfter (s : State) (id : FibId) (tag : BitVec 12) (arg : Word) : State := s.effAfterR id tag arg true .none

/-- The fibre waits and will issue its instruction again (R162, R166). In a chain it is recorded. -/
def State.hold (s : State) (id : FibId) (w : Wait) : State :=
  let s := { s with cur := { s.cur with held := s.cur.held ++ [(id.fid, w)] } }
  if s.cur.inChain then s else s.holdAt id s.cur.first w

/-- Complete what the arrivals and ends of this issue may complete; in a chain that is done once, at its end. -/
def State.settleNow (s : State) : State := if s.cur.inChain then s else s.settle s.cur.launch s.cur.wgid

/-- The fibre goes to a program counter. -/
def State.jump (s : State) (id : FibId) (pc : Word) : State := s.modFib id (fun f => { f with pc := pc })

/-- Results of fixed latency, readable once the issue count has risen by it (R155, R165). -/
def State.fixed (s : State) (id : FibId) (lat : Nat) (ws : List WB) : State :=
  s.modFib id (fun f => { f with out := f.out ++ ws.map (fun w => ⟨w, f.k + lat⟩) })

/-- Scoreboarded results: their registers are pending until the write-back (R155, R160). -/
def State.scored (s : State) (id : FibId) (ws : List WB) : State :=
  (s.modFib id (fun f => { f with infl := f.infl ++ [ws] })).later 1 (.resultWriteback id)

/-- Arithmetic traps, after the result and the flags are written (R254): 0x0E1 before 0x0E2; an integer divide by zero gives the dividend. -/
def State.traps (s : State) (id : FibId) (fmode fl : Word) (idiv : Option Word) : State :=
  if fl.getLsbD 0 && fmode.getLsbD 9 then s.effAfter id 0x0E1#12 0
  else match idiv with
    | some x => if fl.getLsbD 1 && fmode.getLsbD 11 then s.effAfter id 0x0E0#12 x else s
    | none => if fl.getLsbD 1 && fmode.getLsbD 10 then s.effAfter id 0x0E2#12 0 else s

/-! ## The checks before an issue -/

/-- The fibre reads a register whose latest write it has issued is not covered (R165); p7 never counts. -/
def Fibre.uncovered (f : Fibre) (rs : List RReg) : Bool :=
  rs.any (fun r => r != .p 7 && f.out.any (fun w => w.wb.reg == r))

/-- What a fibre reads at a slot: its guard, and its operands when it executes (R165, R329). -/
def slotReads (L : Launch) (i : Instr) (ctl : BitVec 8) (f : Fibre) : List RReg :=
  .p (ctl.toNat % 8) :: (if f.guard ctl then (usesOf L i).reads else [])

/-- What a fibre writes at a slot. -/
def slotWrites (L : Launch) (i : Instr) (ctl : BitVec 8) (f : Fibre) : List RReg :=
  if f.guard ctl then (usesOf L i).writes else []

/-- A slot of a chain or a lone slot reads something uncovered: an outstanding write, or an earlier slot's (R165, R288). -/
def readsUncovered (L : Launch) (f : Fibre) : List RReg → List (Instr × BitVec 8) → Bool
  | _, [] => false
  | ws, (i, ctl) :: rest =>
    f.uncovered (slotReads L i ctl f) || (slotReads L i ctl f).any (fun r => r != .p 7 && ws.contains r)
      || readsUncovered L f (ws ++ slotWrites L i ctl f) rest

/-- The group registers whose value an instruction reads through the scoreboard: those of uses, and WAITT's token. -/
def gReadsOf (L : Launch) (i : Instr) : List Nat :=
  match i with
  | .waitt _ a => [a.toNat]
  | _ => (usesOf L i).g

/-- The unread MMA token of code 0x01 that a fibre is the first to read (R195, R279). -/
def State.badToken (s : State) (L : Launch) (slots : List (Instr × BitVec 8)) (f : Fibre) : Option Nat :=
  (slots.flatMap (fun x => if f.guard x.2 then gReadsOf L x.1 else [])).find? (fun n =>
    let g := s.greg s.cur.launch s.cur.wgid n
    g.badMeta && !g.pending)

/-- The checks of R292, R165 and R279 on the slots that issue together: the fibres that go on, and the effects of those that do not, to be raised at the instruction. -/
def State.precheck (s : State) (L : Launch) (slots : List (Instr × BitVec 8)) : State × List Nat × List (Nat × BitVec 12 × Word) :=
  let fs := s.curFibs s.cur.fids
  if !slots.all (fun x => legalIn L x.1) then (s, [], fs.map (fun f => (f.fid, 0x0E7#12, 0#32)))
  else
    let bad := if L.schk then fs.filter (fun f => readsUncovered L f [] slots) else []
    let ok := fs.filter (fun f => !bad.contains f)
    let e8 := bad.map (fun f => (f.fid, 0x0E8#12, 0#32))
    match if L.check then ok.find? (fun f => (s.badToken L slots f).isSome) else none with
    | none => (s, ok.map (·.fid), e8)
    | some f =>
      let n := (s.badToken L slots f).getD 0
      let count := (s.gval n) &&& 0xFFFFFF#32
      (s.modG s.cur.launch s.cur.wgid n (fun g => { g with badMeta := false }),
       (ok.filter (fun x => x.fid != f.fid)).map (·.fid), e8 ++ [(f.fid, 0x0EA#12, count)])

/-! ## The frame of every instruction -/

/-- Issue an instruction for the fibres that go on: each takes the fall-through successor (R303), and the body acts on those that go on and on those that execute. -/
def State.issueBody (s : State) (ctl : BitVec 8) (ok : List Nat) (body : State → List Nat → List Nat → State) : State :=
  let exe := ((s.curFibs ok).filter (fun f => f.guard ctl)).map (·.fid)
  let s := s.each ok (fun s id _ => s.jump id s.cur.next)
  body s ok exe

/-- Issue an instruction. A lone slot makes its checks here; in a chain they have been made for all its slots. -/
def State.issue (s : State) (i : Instr) (body : State → List Nat → List Nat → State) : Host.Outcome State Fault Refusal :=
  .next (
    if s.cur.inChain then s.issueBody s.cur.ctl s.cur.fids body
    else match s.launch s.cur.launch with
      | none => s
      | some L =>
        let (s, ok, effs) := s.precheck L [(i, s.cur.ctl)]
        let s := s.issueBody s.cur.ctl ok body
        effs.foldl (fun s x => s.effAt (s.curId x.1) x.2.1 x.2.2) s)

/-- Issue an instruction that acts on each executing fibre by itself. -/
def State.issueEach (s : State) (i : Instr) (f : State → FibId → Fibre → State) : Host.Outcome State Fault Refusal :=
  s.issue i (fun s _ exe => s.each exe f)

/-- Issue an instruction whose result is a function of one fibre's registers: fixed latency, flags, arithmetic traps. -/
def State.compute (s : State) (i : Instr) (lat : Nat) (f : State → Fibre → List WB × Word) : Host.Outcome State Fault Refusal :=
  s.issueEach i (fun s id x =>
    let r := f s x
    ((s.modFib id (fun y => y.flag r.2)).fixed id lat r.1).traps id x.fmode r.2 none)

/-- As compute, with a scoreboarded result; idiv gives the dividend of an integer division by zero. -/
def State.computeScored (s : State) (i : Instr) (f : State → Fibre → List WB × Word × Option Word) : Host.Outcome State Fault Refusal :=
  s.issueEach i (fun s id x =>
    let r := f s x
    ((s.modFib id (fun y => y.flag r.2.1)).scored id r.1).traps id x.fmode r.2.1 r.2.2)

/-! ## Uniform operands (R164) -/

/-- The executing fibres supply one value: true. Otherwise NUV is set in each of them and the lowest one's value is used, or, under CHECK, each performs 0x0E4 and the answer is false. -/
def State.uniform {α : Type} [DecidableEq α] (s : State) (exe : List Nat) (val : Fibre → α) : State × Bool :=
  match s.curFibs exe with
  | [] => (s, false)
  | f :: fs =>
    if fs.all (fun x => decide (val x = val f)) then (s, true)
    else if (s.launch s.cur.launch).any (·.check) then (s.each exe (fun s id _ => s.effAt id 0x0E4#12 0), false)
    else (s.each exe (fun s id _ => s.modFib id (fun x => x.flag flagNUV)), true)

end Sys2Proof.Machine
end

