-- ==== Sys2Proof/Machine/Flags.lean ====
section
/-! DEFINITION. The integer computations and every flag they set (R304, R305, R323 to R328, R330, R342 to R345): operands as integers, exact results, saturation, and one write of 32 bits. -/

namespace Sys2Proof.Machine

/-! ## Integers -/

/-- An operand as an integer: unsigned under U, else signed (R323). -/
def intOf (u : Bool) (x : Word) : Int := if u then (x.toNat : Int) else x.toInt

/-- The low 32 bits of an integer. -/
def low32 (x : Int) : Word := BitVec.ofInt 32 x

/-- Clamp to a range: the value, and whether it was changed. -/
def clamp (lo hi x : Int) : Int × Bool := if x < lo then (lo, true) else if hi < x then (hi, true) else (x, false)

/-- The range of n-bit integers (R323). -/
def rangeOf (u : Bool) (n : Nat) : Int × Int := if u then (0, 2 ^ n - 1) else (-2 ^ (n - 1), 2 ^ (n - 1) - 1)

/-- The result word of an exact integer and its flags: saturated under SAT (R323). -/
def intResult (u sat : Bool) (x : Int) : Word × Word :=
  if sat then
    let r := clamp (rangeOf u 32).1 (rangeOf u 32).2 x
    (low32 r.1, flagIf r.2 flagSAT)
  else (low32 x, 0)

/-- floor(x / 2^n). -/
def shiftFloor (x : Int) (n : Nat) : Int := x.fdiv (2 ^ n)

/-- Bits pos + width - 1 to pos of a word, as BFX writes them (R324). -/
def bitField (u : Bool) (a b : Word) : Int :=
  let pos := b.toNat % 32
  let width := min (b.toNat / 256 % 64) (32 - pos)
  if width = 0 then 0
  else if u then (bitsOf a.toNat pos width : Int) else sx width (bitsOf a.toNat pos width)

/-- v[a] with a field replaced by low bits of v[b] (R326). -/
def bitInsert (a b c : Word) : Word :=
  let pos := c.toNat % 32
  let width := min (c.toNat / 256 % 64) (32 - pos)
  let m : Word := BitVec.ofNat 32 ((2 ^ width - 1) * 2 ^ pos)
  (a &&& ~~~m) ||| ((b <<< pos) &&& m)

/-- The number of 1 bits. -/
def popCount (a : Word) : Nat := ((List.range 32).filter (fun k => a.getLsbD k)).length

/-- Leading zeros; 32 for zero. -/
def leadingZeros (a : Word) : Nat := ((List.range 32).find? (fun k => a.getLsbD (31 - k))).getD 32

/-- Trailing zeros; 32 for zero. -/
def trailingZeros (a : Word) : Nat := ((List.range 32).find? (fun k => a.getLsbD k)).getD 32

/-- Bit k moved to bit 31 - k. -/
def reverseBits (a : Word) : Word := a.reverse

/-- DIV (R325): quotient, flags, and the dividend when the divisor is zero. -/
def divide (u sat : Bool) (a b : Word) : Word × Word × Option Word :=
  if b = 0 then (0xFFFFFFFF#32, flagDZ, some a)
  else
    let r := intResult u sat ((intOf u a).tdiv (intOf u b))
    (r.1, r.2, none)

/-- REM (R325): remainder, flags, and the dividend when the divisor is zero. -/
def remainder (u : Bool) (a b : Word) : Word × Word × Option Word :=
  if b = 0 then (a, flagDZ, some a) else (low32 ((intOf u a).tmod (intOf u b)), 0, none)

/-! ## Conditions -/

/-- The integer conditions (R328). -/
def intCond (n : BitVec 3) (a b : Word) : Bool :=
  match n.toNat with
  | 0 => a == b
  | 1 => a != b
  | 2 => decide (a.toInt < b.toInt)
  | 3 => decide (a.toInt ≤ b.toInt)
  | 4 => decide (b.toInt < a.toInt)
  | 5 => decide (b.toInt ≤ a.toInt)
  | 6 => decide (a.toNat < b.toNat)
  | _ => decide (b.toNat ≤ a.toNat)

/-- A write of a compare result to a predicate under a combine mode (R329). -/
def condWrite (f : Fibre) (k p : BitVec 3) (c : Bool) : List WB := [.p p.toNat (combine k (f.pred p.toNat) c)]

/-! ## Shapes of instructions -/

/-- An integer R form of fixed latency (R323): op receives sA, sB, A and B. -/
def State.intR (s : State) (i : Instr) (lat : Nat) (d a b : BitVec 6) (g st u : Bool) (op : Int → Int → Word → Word → Int) : Host.Outcome State Fault Refusal :=
  s.compute i lat (fun s f =>
    let x := s.valA f g a
    let y := f.reg b.toNat
    let r := intResult u st (op (intOf u x) (intOf u y) x y)
    ([.v d.toNat r.1], r.2))

/-- A unary integer R form (R304, R324). -/
def State.intU (s : State) (i : Instr) (d a : BitVec 6) (g st : Bool) (op : Word → Int) : Host.Outcome State Fault Refusal :=
  s.compute i 4 (fun s f =>
    let r := intResult false st (op (s.valA f g a))
    ([.v d.toNat r.1], r.2))

/-- An instruction that writes one word computed from a fibre's registers and sets no flag. -/
def State.word (s : State) (i : Instr) (lat : Nat) (d : BitVec 6) (op : Fibre → Word) : Host.Outcome State Fault Refusal :=
  s.compute i lat (fun _ f => ([.v d.toNat (op f)], 0))

/-- A division, scoreboarded (R325). -/
def State.division (s : State) (i : Instr) (d a b : BitVec 6) (g : Bool) (op : Word → Word → Word × Word × Option Word) : Host.Outcome State Fault Refusal :=
  s.computeScored i (fun s f =>
    let r := op (s.valA f g a) (f.reg b.toNat)
    ([.v d.toNat r.1], r.2.1, r.2.2))

/-! ## Packed integers -/

/-- The low and high halves of a word. -/
def half (hi : Bool) (x : Word) : BitVec 16 := if hi then x.extractLsb' 16 16 else x.extractLsb' 0 16

/-- A word of two halves. -/
def joinHalves (lo hi : BitVec 16) : Word := hi ++ lo

/-- A half as an integer. -/
def intOf16 (u : Bool) (x : BitVec 16) : Int := if u then (x.toNat : Int) else x.toInt

/-- A 16-bit result and its flag (R344, R345). -/
def intResult16 (u sat : Bool) (x : Int) : BitVec 16 × Word :=
  if sat then
    let r := clamp (rangeOf u 16).1 (rangeOf u 16).2 x
    (BitVec.ofInt 16 r.1, flagIf r.2 flagSAT)
  else (BitVec.ofInt 16 x, 0)

end Sys2Proof.Machine
end

