-- ==== Sys2Proof/Machine/Access.lean ====
section
/-! DEFINITION. Memory accesses of one fibre: the checks of R206, the scratchpad and the gang window (R225, R226), the frame heap (R178), device memory through the L1 or at the home slice (R211, R219 to R222), host objects (R86) and peer objects (R32 to R37), and the atomic operations (R235, R236, R365). -/

namespace Sys2Proof.Machine

/-- Why an access does not go on: it performs an effect, or its fibre waits and issues it again. -/
inductive Stop where
  | eff (tag : BitVec 12) (key : Option HamperKey)
  | hold (w : Wait)
  deriving DecidableEq, Repr

/-- A state and what an access answers in it. -/
abbrev Got (α : Type) : Type := State × Except Stop α

/-- Stop an instruction of a fibre; the argument of the effect is the effective offset's low word (R195, R206). -/
def State.stop (s : State) (id : FibId) (off : Int) (st : Stop) : State :=
  match st with
  | .eff t k => s.effAtW id t (low32 off) k .none
  | .hold w => s.hold id w

/-- Data is lost to the access: ERRLOG's ASID, UNIT and WHERE stand in the key (R107, R108). -/
def hurtStop (asid unit whr : Nat) : Stop := .eff 0x0D0#12 (some ⟨asid, unit, some whr, false⟩)

/-- Data at a physical address is lost to the access: in memory, or in its home slice (R107). -/
def State.lostStop (s : State) (asid p : Nat) : Stop := hurtStop asid (if s.homeHurts.contains (p / 64) && !s.bad.contains (p / 64) then 1 else 0) (p / 1048576)

/-! ## The checks of R206 -/

/-- A kind admits the access; a kind-local capability names space 0 or 1 (R201, R202). -/
def kindOk (c : Cap) (kinds : List Nat) : Bool := kinds.contains c.kind.toNat && (c.kind != 2#4 || c.obj.toNat ≤ 1)

/-- The checks of R206 in their order: the tag of the effect of the first that fails. -/
def capCheck (c : Cap) (kinds rights : List Nat) (off : Int) (size align : Nat) : Option (BitVec 12) :=
  if !c.tag then some 0x0C3#12
  else if !kindOk c kinds then some 0x0C4#12
  else if !c.has rights then some 0x0C2#12
  else if off < 0 ∨ (c.len.toNat : Int) < off + size then some 0x0C1#12
  else if ((c.base.toNat : Int) + off) % align ≠ 0 then some 0x0C6#12
  else none

/-- The object offset of an access that has passed the checks. -/
def objOff (c : Cap) (off : Int) : Nat := ((c.base.toNat : Int) + off).toNat

/-- The effective offset: register and displacement (R206). -/
def Fibre.effOff (f : Fibre) (x : BitVec 6) (disp : Int) : Int := ((f.reg x.toNat).toNat : Int) + disp

/-- The displacement of an M form. -/
def disp8 (i : BitVec 8) (size : Nat) : Int := i.toInt * size

/-- The kinds that admit loads; those that admit stores and atomics; those of LDC, STC, tiles and engine operands; those of WAITM and NOTIFY (R202). -/
def kLoad : List Nat := [0, 1, 2, 4]
def kStore : List Nat := [0, 2, 4]
def kData : List Nat := [0, 2]
def kCell : List Nat := [0, 4]

/-! ## Scratchpads (R171, R225, R226) -/

/-- The workgroup and offset that a kind-local offset names: the own scratchpad, or a member's part of the gang window. -/
def State.window (s : State) (id : FibId) (obj o : Nat) : Nat × Nat :=
  if obj = 0 then (id.wgid, o)
  else match s.launch id.launch with
    | none => (id.wgid, o)
    | some L =>
      let size := L.sp * 65536
      (L.gangOf id.wgid * 2 ^ L.gangLog + o / size, o % size)

/-- The scratchpad of a workgroup. -/
def State.scratch (s : State) (l w : Nat) : Mem :=
  match s.wg l w with
  | none => Mem.empty
  | some g => g.scratch

/-- Change a scratchpad. -/
def State.modScratch (s : State) (l w : Nat) (f : Mem → Mem) : State := s.modWg l w (fun g => { g with scratch := f g.scratch })

/-- Some of n bytes of a scratchpad are uncorrectable (R107). -/
def State.scratchHurt (s : State) (l w : Nat) (p : Nat → Bool) : Bool :=
  s.hurts.any (fun h => match h with
    | .scratch l' w' b => l' == l && w' == w && p b
    | _ => false)

/-- Some of n bytes reached through a kind-local capability are uncorrectable. -/
def State.localHurt (s : State) (id : FibId) (obj o n : Nat) : Bool :=
  let p := s.window id obj o
  s.scratchHurt id.launch p.1 (fun b => decide (p.2 ≤ b) && decide (b < p.2 + n))

/-- What an access performs that reads lost bytes of a scratchpad (R107, log entry 47). -/
def State.scratchStop (s : State) (id : FibId) : Stop := hurtStop (s.asidOf id.launch) 4 (Config.scratchWhere (s.coreOf id))

/-- The report of data lost in a scratchpad (R107, R108). -/
def State.logScratch (s : State) (asid core : Nat) : State := s.logError asid (Config.scratchWhere core) 4 1

/-- Read bytes through a kind-local capability. -/
def State.localRead (s : State) (id : FibId) (obj o n : Nat) : List Byte :=
  let p := s.window id obj o
  (s.scratch id.launch p.1).read p.2 n

/-- Write bytes through a kind-local capability; the tags of their granules are cleared. -/
def State.localWrite (s : State) (id : FibId) (obj o : Nat) (bs : List Byte) : State :=
  let p := s.window id obj o
  (s.modScratch id.launch p.1 (fun m => m.write p.2 bs)).scratchWrote id.launch p.1 (fun b => decide (p.2 ≤ b) && decide (b < p.2 + bs.length))

/-! ## Translation -/

/-- The launch of a fibre accepts TRAY (R103). -/
def State.trayOk (s : State) (l : Nat) : Bool := (s.launch l).any (fun L => L.accept.getLsbD 12)

/-- The Hamper key of an access (R214). -/
def keyAt (asid obj o : Nat) (write : Bool) : HamperKey := ⟨asid, obj, some (o / 2097152), write⟩

/-- A fault of translation as a stop: 0x0D1 and 0x0D2 carry the key of the access. -/
def faultStop (t : BitVec 12) (k : HamperKey) : Stop := .eff t (if t = 0x0D1#12 ∨ t = 0x0D2#12 then some k else none)

/-- Translate at the memory port of a fibre's die; a miss starts or joins a walk, for which the fibre waits (R211, R212). -/
def State.atPort (s : State) (id : FibId) (c : Cap) (o n : Nat) (write : Bool) : Got XOut :=
  let die := dieOf (s.coreOf id)
  let a := s.asidOf id.launch
  match s.xlatPort die (s.trayOk id.launch) ⟨a, c.obj.toNat, o, n, write, c.kind == 4#4⟩ with
  | .miss page => (s.startWalk ⟨die, a, c.obj.toNat, page⟩, .error (.hold (.walk die a c.obj.toNat page)))
  | .fault t => (s, .error (faultStop t (keyAt a c.obj.toNat o write)))
  | .lost p => (s, .error (s.lostStop a p))
  | x => (s, .ok x)

/-! ## The frame heap (R178) -/

/-- The capability names the frame-heap object. -/
def State.isHeap (s : State) (id : FibId) (c : Cap) : Bool := c.kind != 2#4 && c.obj.toNat == s.heapObj (s.asidOf id.launch)

/-- An uncorrectable error in a segment held by a Cupboard ends the fibre that owns the segment, with 0x0D0 as an ABORT (R107, R179); who else reaches the segment performs 0x0D0. -/
def State.segLost (s : State) (id : FibId) (a seg : Nat) : Got Unit :=
  let owners := (s.allFibres.filter (fun x => s.asidOf x.1.launch == a && (s.heldSegs x.1 x.2).contains seg)).map (·.1)
  let s := { s with hurts := s.hurts.filter (fun h => h != Hurt.segment a seg) }.logError a (((s.segPA a seg).getD 0) / 1048576) 3 1
  let s := s.over owners (fun s x =>
    let s := s.endFibre x (some 0x0D0#12)
    if s.cur.inChain then s else s.settle x.launch x.wgid)
  (s, .error (if owners.contains id then .hold .none else .eff 0x0D0#12 none))

/-- Wait for a Cupboard fill of a segment, which is asked for once (R178). -/
def State.awaitSeg (s : State) (core a seg : Nat) : State × Stop :=
  let ev := Instr.cupboardFill core a seg
  (if s.agenda.any (fun t => t.ev == ev) then s else s.later 1 ev, .hold (.cupboard a seg))

/-- Have a segment in the core's Cupboard; on a miss the fibre waits for the fill, which is asked for once. -/
def State.needSeg (s : State) (id : FibId) (seg : Nat) : Got Unit :=
  let core := s.coreOf id
  let a := s.asidOf id.launch
  if s.inCupboard core a seg then
    if s.hurts.contains (.segment a seg) then s.segLost id a seg else (s.cupboardTake core a seg true, .ok ())
  else
    let r := s.awaitSeg core a seg
    (r.1, .error r.2)

/-- The physical address of a frame-heap access, with its segment in the Cupboard. A segment whose page is not resident is waited for like any miss: no effect is performed (R178). -/
def State.heapAt (s : State) (id : FibId) (c : Cap) (o n : Nat) (write : Bool) : Got Nat :=
  let a := s.asidOf id.launch
  match s.xlatNow false ⟨a, c.obj.toNat, o, n, write, c.kind == 4#4⟩ with
  | .fault t =>
    if t = 0x0D1#12 then
      let r := s.awaitSeg (s.coreOf id) a (o / 1024)
      (r.1, .error r.2)
    else (s, .error (faultStop t (keyAt a c.obj.toNat o write)))
  | .pa p _ =>
    if (if write then s.latched p else s.latchedX p) then (s, .error (.hold (.latch (p / 256))))
    else match s.needSeg id (o / 1024) with
    | (s, .error e) => (s, .error e)
    | (s, .ok _) => if s.isBad p n then (s, .error (s.lostStop (s.asidOf id.launch) p)) else (s, .ok p)
  | .lost p => (s, .error (s.lostStop a p))
  | _ => (s, .error (.eff 0x0C1#12 none))

/-! ## Remote and host requests -/

/-- The answer that a fibre's request has received. -/
def State.answer (s : State) (id : FibId) : Option (List Byte) := (s.fib id).bind (·.resp)

/-- Two ranges of a peer object share a 64-byte line. -/
def sameLine (o n o' n' : Nat) : Bool := decide (o / 64 ≤ (o' + n' - 1) / 64) && decide (o' / 64 ≤ (o + n - 1) / 64)

/-- An unacknowledged remote store of the core lies in a 64-byte line of a range of a peer object: a later access to it waits (R34). -/
def State.storeAhead (s : State) (core pos pasid pobj o n : Nat) : Bool :=
  s.txs.any (fun t => t.core == core && t.dst == pos && (match t.kind with
    | .store .. => true
    | _ => false) && t.pkts.any (fun p => p.asid.toNat == pasid && p.obj.toNat == pobj && sameLine p.off.toNat p.len o n))

/-- The same for a range of an object here that is mapped to a peer: for a line that the L1 answers. -/
def State.storeAheadHere (s : State) (core asid obj o n : Nat) : Bool :=
  s.txs.any (fun t => t.core == core && t.key.asid == asid && t.key.obj == obj && (match t.kind with
    | .store .. => true
    | _ => false) && t.pkts.any (fun p => sameLine p.off.toNat p.len o n))

/-- Send a request of a fibre to a peer and wait for its answer; while no tag is free the fibre waits for one. A peer that is dead ends a load or atomic by 0x0D0 (R31, R35). -/
def State.remote (s : State) (id : FibId) (p : Packet) (kind : TxKind) (key : HamperKey) : Got (List Byte) :=
  match s.answer id with
  | some bs => (s, .ok bs)
  | none =>
    let core := s.coreOf id
    if s.storeAhead core p.dst.val p.asid.toNat p.obj.toNat p.off.toNat p.len then (s, .error (.hold .unacked))
    else if (s.via p.dst.val).isNone then (s, .error (.eff 0x0D0#12 none))
    else match s.request p kind core key with
      | none => (s, .error (.hold .unacked))
      | some (s, t) => (s, .error (.hold (.remote p.dst.val t)))

/-- A fibre's request to a peer object at an object offset. -/
def peerPacket (kind : BitVec 5) (pos pasid pobj o len : Nat) (op : BitVec 8) (bs : List Byte) : Packet :=
  { Packet.zero with kind := kind, dst := posF pos, asid := BitVec.ofNat 12 pasid, obj := BitVec.ofNat 20 pobj,
                     off := BitVec.ofNat 48 o, len := len, op := op, payload := bs }

/-- The home slice that holds a line of an RC peer object (R224). -/
def rcSlice (die pobj o : Nat) : Nat := 64 * die + (bitsOf o 8 6 ^^^ bitsOf o 14 6 ^^^ bitsOf pobj 0 6)

/-- The line of an RC peer object that the die holds (R37, R224). -/
def State.rcLine (s : State) (die pos pasid pobj o : Nat) : Option RcLine :=
  s.rcLines.find? (fun r => r.slice == rcSlice die pobj o && r.pos == pos && r.pasid == pasid && r.pobj == pobj && r.line == o / 256)

/-- Bytes of a 256-byte line. -/
def lineBytes (d : BitVec 2048) (i n : Nat) : List Byte := (List.range n).map (fun k => d.extractLsb' (8 * (i + k)) 8)

/-- Fill a core's L1 with an RC line: the sectors of which every byte has come (R37, R219). -/
def State.l1FillRc (s : State) (core asid obj o : Nat) (d : BitVec 2048) (len : Nat) : State :=
  (s.haveLine core asid obj (o / 256)).modCore core (fun c => c.modLine asid obj (o / 256) (fun l => { l with data := d, valid := BitVec.ofNat 4 (2 ^ (len / 64) - 1), rc := true }))

/-- A load from a peer object: from the die's copy of an RC line, or by a request (R34, R35, R37). -/
def State.peerLoad (s : State) (id : FibId) (c : Cap) (off : Int) (pos pasid pobj : Nat) (rc : Bool) (n : Nat) : Got (List Byte) :=
  let o := objOff c off
  let core := s.coreOf id
  let a := s.asidOf id.launch
  match if rc then (s.rcLine (dieOf core) pos pasid pobj o).filter (fun r => decide (o % 256 + n ≤ r.len)) else none with
  | some r =>
    if s.storeAhead core pos pasid pobj o n then (s, .error (.hold .unacked))
    else (s.l1FillRc core a c.obj.toNat o r.data r.len, .ok (lineBytes r.data (o % 256) n))
  | none =>
    let p := if rc then peerPacket 0x01#5 pos pasid pobj (o / 256 * 256) 256 0 [] else peerPacket 0x01#5 pos pasid pobj o n 0 []
    match s.remote id p (.load id (low32 off)) (keyAt a c.obj.toNat o false) with
    | (s, .ok bs) => (s, .ok (if rc then (bs.drop (o % 256)).take n else bs.take n))
    | (s, .error e) => (s, .error e)

/-- A packet of a tray-link request. -/
def hostPacket (kind : BitVec 5) (addr len : Nat) (bs : List Byte) : Packet :=
  { Packet.zero with kind := kind, off := BitVec.ofNat 48 addr, len := len, payload := bs }

/-- A load from host memory, in requests that do not cross a multiple of 1,024 (R85, R86). -/
def State.hostLoad (s : State) (id : FibId) (off : Int) (link addr n : Nat) (key : HamperKey) : Got (List Byte) :=
  let have_ := (s.answer id).getD []
  if n ≤ have_.length then (s, .ok (have_.take n))
  else
    let b := addr + have_.length
    let m := min (n - have_.length) (1024 - b % 1024)
    match s.hostRequest link (hostPacket 0x01#5 b m []) (.load id (low32 off)) (s.coreOf id) m key with
    | none => (s, .error (.hold .unacked))
    | some (s, t) => (s, .error (.hold (.host link t)))

/-! ## Loads and stores -/

/-- The L1 holds unwritten bytes of a line. -/
def State.l1Dirty (s : State) (core asid obj o : Nat) : Bool := ((s.core core).line asid obj (o / 256)).any (fun l => l.mask != 0)

/-- What a load performs that reads an uncorrectable sector of its core's L1 (R107). -/
def State.l1Stop (s : State) (id : FibId) (obj o : Nat) : Stop :=
  let a := s.asidOf id.launch
  hurtStop a 2 (((s.paOf a obj o).getD 0) / 1048576)

/-- Read n bytes through a capability: at the home slice (LDA), or through the L1 (R211, R219, R222, R242). -/
def State.load_ (s : State) (id : FibId) (c : Cap) (off : Int) (n : Nat) (home : Bool) : Got (List Byte) :=
  match capCheck c kLoad [rR] off n n with
  | some t => (s, .error (.eff t none))
  | none =>
    let o := objOff c off
    let core := s.coreOf id
    let a := s.asidOf id.launch
    let obj := c.obj.toNat
    if c.kind = 2#4 then (if s.localHurt id obj o n then (s, .error (s.scratchStop id)) else (s, .ok (s.localRead id obj o n)))
    else if s.isHeap id c then
      match s.heapAt id c o n false with
      | (s, .error e) => (s, .error e)
      | (s, .ok p) => (s, .ok (s.rd (s.keyOf a) p n))
    else match if home then none else s.l1Hit core a obj o n with
      | some bs =>
        if s.storeAheadHere core a obj o n then (s, .error (.hold .unacked))
        else if s.l1Hurt core a obj (o / 64) then (s, .error (s.l1Stop id obj o)) else (s.l1Touch core a obj o, .ok bs)
      | none =>
        match s.atPort id c o n false with
        | (s, .error e) => (s, .error e)
        | (s, .ok (.pa p _)) =>
          if s.latchedX p || (home && s.latched p && s.l1Dirty core a obj o) then (s, .error (.hold (.latch (p / 256))))
          else if s.isBad p n then (s, .error (s.lostStop (s.asidOf id.launch) p))
          else if home then
            let s := (s.l1Sync core a obj o).homeTouch p false
            (s.l1Drop core a obj o, .ok (s.rd (s.keyOf a) p n))
          else
            let s := s.l1Fill core a obj o p
            if s.l1Hurt core a obj (o / 64) then (s, .error (s.l1Stop id obj o)) else (s, .ok ((s.l1Hit core a obj o n).getD (s.rd (s.keyOf a) p n)))
        | (s, .ok (.host link addr)) => s.hostLoad id off link addr n (keyAt a obj o false)
        | (s, .ok (.peer pos pasid pobj rc)) => s.peerLoad id c off pos pasid pobj rc n
        | (s, .ok _) => (s, .error (.eff 0x0C1#12 none))

/-- OP of a STREQ: a mask bit for each byte, or for each two bytes of sixteen (R30, log entry 30). -/
def storeMask (n : Nat) : BitVec 8 := BitVec.ofNat 8 (2 ^ min n 8 - 1)

/-- Store bytes to a peer object: sent, and acknowledged before the fibre goes on; a dead peer leaves a store that its next release reports (R32, R34, R35). -/
def State.peerStore (s : State) (id : FibId) (c : Cap) (off : Int) (pos pasid pobj : Nat) (bs : List Byte) : Got Unit :=
  match s.remote id (peerPacket 0x03#5 pos pasid pobj (objOff c off) bs.length (storeMask bs.length) bs) (.store id (low32 off))
      (keyAt (s.asidOf id.launch) c.obj.toNat (objOff c off) true) with
  | (s, .ok _) => (s, .ok ())
  | (s, .error (.eff 0x0D0#12 none)) => (s.modFib id (fun f => { f with lost := f.lost ||| 1 }), .ok ())
  | (s, .error e) => (s, .error e)

/-- Store bytes to host memory: posted, in requests that do not cross a multiple of 1,024, all of them or none (R85, R86). -/
def State.hostStore (s : State) (id : FibId) (off : Int) (link addr : Nat) (bs : List Byte) (key : HamperKey) : Got Unit :=
  let send (s : State) (b : Nat) (x : List Byte) : Option (State × Nat) := s.hostRequest link (hostPacket 0x03#5 b x.length x) (.store id (low32 off)) (s.coreOf id) x.length key
  let m := 1024 - addr % 1024
  if bs.length ≤ m then
    match send s addr bs with
    | none => (s, .error (.hold .unacked))
    | some (s, _) => (s, .ok ())
  else match send s addr (bs.take m) with
    | none => (s, .error (.hold .unacked))
    | some (s1, _) => match send s1 (addr + m) (bs.drop m) with
      | none => (s, .error (.hold .unacked))
      | some (s, _) => (s, .ok ())

/-- Store bytes through a capability into the L1, the scratchpad, the Cupboard, or to a peer or host (R211, R220, R226). -/
def State.store_ (s : State) (id : FibId) (c : Cap) (off : Int) (bs : List Byte) : Got Unit :=
  let n := bs.length
  match capCheck c kStore [rW] off n n with
  | some t => (s, .error (.eff t none))
  | none =>
    let o := objOff c off
    let core := s.coreOf id
    let a := s.asidOf id.launch
    let obj := c.obj.toNat
    if c.kind = 2#4 then (s.localWrite id obj o bs, .ok ())
    else if s.isHeap id c then
      match s.heapAt id c o n true with
      | (s, .error e) => (s, .error e)
      | (s, .ok p) => (s.homeStore (s.keyOf a) p bs, .ok ())
    else if s.l1Writable core a obj o then
      match s.fifoStuck core a obj o with
      | some l => (s, .error (.hold (.latch l)))
      | none => (s.l1Store core a obj o bs, .ok ())
    else match s.atPort id c o n true with
      | (s, .error e) => (s, .error e)
      | (s, .ok (.pa _ _)) =>
        match s.fifoStuck core a obj o with
        | some l => (s, .error (.hold (.latch l)))
        | none => (s.l1Store core a obj o bs, .ok ())
      | (s, .ok (.host link addr)) => s.hostStore id off link addr bs (keyAt a c.obj.toNat o true)
      | (s, .ok (.peer pos pasid pobj _)) => s.peerStore id c off pos pasid pobj bs
      | (s, .ok _) => (s, .error (.eff 0x0C1#12 none))

/-- Reach an address of device memory for an access that writes at the home slice: the physical address, once its line is not latched, the L1's bytes are written back and the sector is sound (R222, R242). -/
def State.homeReady (s : State) (id : FibId) (c : Cap) (o n p : Nat) : Got Nat :=
  if s.latched p then (s, .error (.hold (.latch (p / 256))))
  else if s.isBad p n then (s, .error (s.lostStop (s.asidOf id.launch) p))
  else (s.l1Sync (s.coreOf id) (s.asidOf id.launch) c.obj.toNat o, .ok p)

/-- Store a word at the home slice (STL, R234); the caller has released. -/
def State.storeHome (s : State) (id : FibId) (c : Cap) (off : Int) (bs : List Byte) : Got Unit :=
  let n := bs.length
  match capCheck c kStore [rW] off n n with
  | some t => (s, .error (.eff t none))
  | none =>
    let o := objOff c off
    let a := s.asidOf id.launch
    if c.kind = 2#4 then (s.localWrite id c.obj.toNat o bs, .ok ())
    else if s.isHeap id c then
      match s.heapAt id c o n true with
      | (s, .error e) => (s, .error e)
      | (s, .ok p) => (s.homeStore (s.keyOf a) p bs, .ok ())
    else match s.atPort id c o n true with
      | (s, .error e) => (s, .error e)
      | (s, .ok (.pa p _)) =>
        match s.homeReady id c o n p with
        | (s, .error e) => (s, .error e)
        | (s, .ok p) => ((s.homeStore (s.keyOf a) p bs).l1Drop (s.coreOf id) a c.obj.toNat o, .ok ())
      | (s, .ok (.host link addr)) => s.hostStore id off link addr bs (keyAt a c.obj.toNat o true)
      | (s, .ok (.peer pos pasid pobj _)) => s.peerStore id c off pos pasid pobj bs
      | (s, .ok _) => (s, .error (.eff 0x0C1#12 none))

/-! ## Atomic operations -/

/-- OP of an ATREQ, as this model packs it (log entry 30): bit 7 clear and the low four bits of the opcode; or bit 7 set, [6:5] add, minimum or maximum, [4:3] the element type and [2:0] the reduction control field. -/
def fpOp (which : Nat) (t : BitVec 2) (r : BitVec 3) : BitVec 8 := BitVec.ofNat 8 (128 + 32 * which + 8 * t.toNat + r.toNat)

/-- The bytes that an atomic operation accesses. -/
def atomicSize (op : BitVec 8) : Nat := if op = 0x0A#8 then 8 else 4

/-- The bytes of source that an atomic operation carries: a pair for ACAS and AADD64. -/
def atomicSrc (op : BitVec 8) : Nat := if op = 0x09#8 ∨ op = 0x0A#8 then 8 else 4

/-- The element formats of a reduction: one FP32, or two halves (R367). -/
def redFmt (t : Nat) : Fmt := if t = 0 then fp32 else if t = 1 then fp16 else bf16

/-- A pattern made quiet. -/
def Fmt.quiet (f : Fmt) (x : Nat) : Nat := if x / 2 ^ (f.mb - 1) % 2 == 1 then x else x + 2 ^ (f.mb - 1)

/-- The reduction of R236 on one element. -/
def reduce1 (f : Fmt) (which : Nat) (r : Nat) (mem val : Nat) : Nat :=
  let ftz := r % 2 == 1
  let cnan := r / 2 % 2 == 1
  let satf := r / 4 % 2 == 1
  let m := if ftz then f.flush mem else mem
  let v := if ftz then f.flush val else val
  let x := if which = 0 then (f.addBits .rne m v).bits else (f.minMax (which == 2) m v).bits
  let x := if f.isNaN x then
      (if cnan then f.nan else if f.isNaN m then f.quiet m else if f.isNaN v then f.quiet v else f.nan)
    else x
  let x := if satf && (x % f.sign == f.infBits) then f.withSign (x / f.sign % 2 == 1) f.top else x
  if ftz then f.flush x else x

/-- What an atomic operation writes over an old value (R236, R365). -/
def atomicNew (op : BitVec 8) (old src : Nat) : Nat :=
  let o : Word := BitVec.ofNat 32 old
  let x : Word := BitVec.ofNat 32 src
  if op.getLsbD 7 then
    let which := op.toNat / 32 % 4
    let t := op.toNat / 8 % 4
    let f := redFmt t
    let r := op.toNat % 8
    if t = 0 then reduce1 f which r (old % 2 ^ 32) (src % 2 ^ 32)
    else reduce1 f which r (old % 65536) (src % 65536) + 65536 * reduce1 f which r (old / 65536 % 65536) (src / 65536 % 65536)
  else match op.toNat with
    | 0 => (o + x).toNat
    | 1 => (o &&& x).toNat
    | 2 => (o ||| x).toNat
    | 3 => (o ^^^ x).toNat
    | 4 => (if o.toInt ≤ x.toInt then o else x).toNat
    | 5 => min o.toNat x.toNat
    | 6 => (if o.toInt ≤ x.toInt then x else o).toNat
    | 7 => max o.toNat x.toNat
    | 8 => x.toNat
    | 9 => if o = x then src / 2 ^ 32 % 2 ^ 32 else o.toNat
    | 10 => (old + src) % 2 ^ 64
    | _ => (o + x).toNat

/-- One atomic at a physical address of device memory: the value before it (R235). -/
def State.atomicHome (s : State) (key p : Nat) (op : BitVec 8) (src : Nat) : State × Nat :=
  let n := atomicSize op
  let old := bytesNat (s.rd key p n)
  (s.homeStore key p (natBytes n (atomicNew op old src)), old)

/-- An atomic through a capability (R365, R366): the value before it. -/
def State.atomic_ (s : State) (id : FibId) (c : Cap) (off : Int) (op : BitVec 8) (src : Nat) : Got Nat :=
  let n := atomicSize op
  match capCheck c kStore [rA] off n n with
  | some t => (s, .error (.eff t none))
  | none =>
    let o := objOff c off
    let a := s.asidOf id.launch
    let obj := c.obj.toNat
    if c.kind = 2#4 then
      let old := bytesNat (s.localRead id obj o n)
      if s.localHurt id obj o n then (s, .error (s.scratchStop id)) else (s.localWrite id obj o (natBytes n (atomicNew op old src)), .ok old)
    else if s.isHeap id c then
      match s.heapAt id c o n true with
      | (s, .error e) => (s, .error e)
      | (s, .ok p) =>
        let r := s.atomicHome (s.keyOf a) p op src
        (r.1, .ok r.2)
    else match s.atPort id c o n true with
      | (s, .error e) => (s, .error e)
      | (s, .ok (.pa p _)) =>
        match s.homeReady id c o n p with
        | (s, .error e) => (s, .error e)
        | (s, .ok p) =>
          let r := s.atomicHome (s.keyOf a) p op src
          (r.1.l1Drop (s.coreOf id) a obj o, .ok r.2)
      | (s, .ok (.peer pos pasid pobj _)) =>
        match s.remote id (peerPacket 0x04#5 pos pasid pobj o (atomicSrc op) op (natBytes (atomicSrc op) src)) (.atomic id (low32 off)) (keyAt a obj o true) with
        | (s, .ok bs) => (s, .ok (bytesNat bs))
        | (s, .error e) => (s, .error e)
      | (s, .ok (.host _ _)) => (s, .error (.eff 0x0C2#12 none))
      | (s, .ok _) => (s, .error (.eff 0x0C1#12 none))

/-! ## Capabilities in memory (R203, R360) -/

/-- A granule as the addressing capability loads it: the tag counts only under K. -/
def loadedCap (c : Cap) (tag : Bool) (bs : List Byte) : Cap := Cap.ofBits (tag && c.has [rK]) (bytesNat bs)

/-- LDC (R360). -/
def State.loadCap (s : State) (id : FibId) (c : Cap) (off : Int) : Got Cap :=
  match capCheck c kData [rR, rK] off 16 16 with
  | some t => (s, .error (.eff t none))
  | none =>
    let o := objOff c off
    let a := s.asidOf id.launch
    let obj := c.obj.toNat
    if c.kind = 2#4 then
      let p := s.window id obj o
      let m := s.scratch id.launch p.1
      if s.localHurt id obj o 16 then (s, .error (s.scratchStop id)) else (s, .ok (loadedCap c (m.tag p.2) (m.read p.2 16)))
    else if s.isHeap id c then
      match s.heapAt id c o 16 false with
      | (s, .error e) => (s, .error e)
      | (s, .ok p) => (s, .ok (loadedCap c (s.mem.tag p) (s.rd (s.keyOf a) p 16)))
    else match s.atPort id c o 16 false with
      | (s, .error e) => (s, .error e)
      | (s, .ok (.pa p _)) =>
        if s.latchedX p || (s.latched p && s.l1Dirty (s.coreOf id) a obj o) then (s, .error (.hold (.latch (p / 256))))
        else if s.isBad p 16 then (s, .error (s.lostStop (s.asidOf id.launch) p))
        else
          let s := ((s.l1Sync (s.coreOf id) a obj o).homeTouch p false).l1Drop (s.coreOf id) a obj o
          (s, .ok (loadedCap c (s.mem.tag p) (s.rd (s.keyOf a) p 16)))
      | (s, .ok (.peer pos pasid pobj rc)) =>
        match s.peerLoad id c off pos pasid pobj rc 16 with
        | (s, .ok bs) => (s, .ok (Cap.ofBits false (bytesNat bs)))
        | (s, .error e) => (s, .error e)
      | (s, .ok (.host _ _)) => (s, .error (.eff 0x0C2#12 none))
      | (s, .ok _) => (s, .error (.eff 0x0C1#12 none))

/-- A tagged capability without G may be stored only to a scratchpad or the frame heap (R205). -/
def State.mayStore (s : State) (id : FibId) (c x : Cap) : Bool := !x.tag || x.has [rG] || c.kind == 2#4 || s.isHeap id c

/-- STC (R205, R360). -/
def State.storeCap (s : State) (id : FibId) (c : Cap) (off : Int) (x : Cap) : Got Unit :=
  match capCheck c kData [rW, rK] off 16 16 with
  | some t => (s, .error (.eff t none))
  | none =>
    let o := objOff c off
    let a := s.asidOf id.launch
    let obj := c.obj.toNat
    if !s.mayStore id c x then (s, .error (.eff 0x0C2#12 none))
    else if c.kind = 2#4 then
      let p := s.window id obj o
      ((s.modScratch id.launch p.1 (fun m => m.setCap p.2 x)).scratchWrote id.launch p.1 (fun b => decide (p.2 ≤ b) && decide (b < p.2 + 16)), .ok ())
    else if s.isHeap id c then
      match s.heapAt id c o 16 true with
      | (s, .error e) => (s, .error e)
      | (s, .ok p) => (s.homeCap (s.keyOf a) p x, .ok ())
    else match s.atPort id c o 16 true with
      | (s, .error e) => (s, .error e)
      | (s, .ok (.pa p _)) =>
        match s.homeReady id c o 16 p with
        | (s, .error e) => (s, .error e)
        | (s, .ok p) => ((s.homeCap (s.keyOf a) p x).l1Drop (s.coreOf id) a obj o, .ok ())
      | (s, .ok (.host _ _)) => (s, .error (.eff 0x0C2#12 none))
      | (s, .ok (.peer ..)) => (s, .error (.eff 0x0C2#12 none))
      | (s, .ok _) => (s, .error (.eff 0x0C1#12 none))

/-! ## Releases and acquires of a fibre (R227, R229, R230, R234) -/

/-- The scope code of a 2-bit scope field: die, package, node, system (R234). -/
def scopeOf (e : BitVec 2) : Nat := e.toNat + 2

/-- The lost stores that a release at a scope reports (R35, R86). -/
def lostMask (scope : Nat) : BitVec 2 := if 5 ≤ scope then 3 else if 4 ≤ scope then 1 else 0

/-- A release has completed: a store that was never answered is reported by 0x0D0 at it (R35, R86). -/
def State.released (s : State) (id : FibId) (scope : Nat) : Got Unit :=
  match s.fib id with
  | none => (s, .ok ())
  | some f =>
    if f.lost &&& lostMask scope ≠ 0 then (s.modFib id (fun f => { f with lost := f.lost &&& ~~~lostMask scope }), .error (.eff 0x0D0#12 none))
    else (s, .ok ())

/-- A release by a fibre at a scope code: it places its marker when it is first issued, and is done, or waits for the drain to the marker and the acknowledgements (R229). -/
def State.releaseFor (s : State) (id : FibId) (scope : Nat) : Got Unit :=
  let held := (s.fib id).bind (·.mark)
  let mark := held.getD s.fresh
  let r := s.release (s.coreOf id) scope mark
  if !r.2 then (r.1.modFib id (fun f => { f with mark := some mark }), .error (.hold .unacked))
  else (if held.isSome then r.1.modFib id (fun f => { f with mark := none }) else r.1).released id scope

/-- A release at the issue of a command: the fibre goes on, and the marker that the command's first access waits for is answered, none when the release is complete (R238). -/
def State.releaseIssue (s : State) (id : FibId) (scope : Nat) : Got (Option Nat) :=
  let mark := s.fresh
  let r := s.release (s.coreOf id) scope mark
  match r.1.released id scope with
  | (s, .error e) => (s, .error e)
  | (s, .ok _) => (s, .ok (if r.2 then none else some mark))

/-- A release that a command or tile access waits for: whether it has completed by now. -/
def State.relStep (s : State) (core scope : Nat) (mark : Option Nat) : State × Bool :=
  match mark with
  | none => (s, true)
  | some m => s.release core scope m

end Sys2Proof.Machine
end

