-- ==== Sys2Proof/Machine/Tokens.lean ====
section
/-! DEFINITION. What tile accesses and engine commands share: the completion of a token (R157, R239), the end of waits, tile layout words (R273), byte ranges of objects, and the status codes of refused packets (R32, R35, R39). -/

namespace Sys2Proof.Machine

/-! ## Tokens -/

/-- A completed token (R157). -/
def tokenWord (err : Bool) (code : BitVec 8) (count : Nat) : Word :=
  BitVec.ofNat 32 (2 ^ 31 + (if err then 2 ^ 30 else 0) + code.toNat % 64 * 2 ^ 24 + min count 0xFFFFFF)

/-- Write a token: the core of the workgroup acquires at the scope, the register leaves pending, the fibres that wait for it issue again, and a gang asleep becomes runnable (R137, R158, R239). bad marks an MMA token of code 0x01 (R279). -/
def State.completeToken (s : State) (l w g scope : Nat) (err : Bool) (code : BitVec 8) (count : Nat) (bad : Bool) : State :=
  match s.wg l w with
  | none => s
  | some x =>
    let s := if x.placed then s.acquireAt x.core scope else s
    let s := (s.modG l w g (fun _ => ⟨tokenWord err code count, false, none, bad⟩)).wakeGang ⟨l, w, 0⟩
    s.mapFibres (fun id f => if id.launch = l ∧ id.wgid = w ∧ f.wait = .token g then { f with wait := .none } else f)

/-- Mark a token register pending (R158). -/
def State.pend (s : State) (l w g : Nat) : State := s.modG l w g (fun r => { r with pending := true, badMeta := false })

/-- Fibres that wait for a drain, an acknowledgement or a free tag look again. -/
def State.retry (s : State) : State :=
  s.over ((s.allFibres.filter (fun x => x.2.wait == .unacked || x.2.wait == .capture)).map (·.1)) (fun s id =>
    if s.agenda.any (fun t => t.ev == .releaseComplete id) then s else s.later 0 (.releaseComplete id))

/-- Fibres that wait on a transaction to a peer receive its answer and issue again. -/
def State.answerRemote (s : State) (dst tag : Nat) (bs : List Byte) : State :=
  s.mapFibres (fun _ f => if f.wait = .remote dst tag then { f with wait := .none, resp := some (f.resp.getD [] ++ bs) } else f)

/-- Fibres that wait on a transaction to a peer perform an effect at their instruction instead. -/
def State.failRemote (s : State) (dst tag : Nat) (t : BitVec 12) (off : Word) (key : Option HamperKey) : State :=
  s.over ((s.allFibres.filter (fun x => x.2.wait == .remote dst tag))) (fun s x =>
    (s.modFib x.1 (fun f => { f with wait := .none })).raise x.1 (Eff.fault t off x.2.pc key))

/-- Do something in a state for each executing fibre of a bundle that is stopped. -/
def State.stopAll (s : State) (exe : List Nat) (off : Int) (st : Stop) : State := s.each exe (fun s id _ => s.stop id off st)

/-! ## Status codes of packets (R30, R32, R35, R39, R40) -/

/-- The status with which a package refuses a request whose translation raised an effect: RO, not resident or writes blocked, data lost, and everything else. -/
def refusalOf (t : BitVec 12) : BitVec 8 :=
  if t = 0x0C2#12 then 0x12#8 else if t = 0x0D1#12 ∨ t = 0x0D2#12 then 0x11#8 else if t = 0x0D0#12 then 0x13#8 else 0x14#8

/-- The effect that a refused access of a fibre performs. -/
def effectOf (st : BitVec 8) : BitVec 12 :=
  if st = 0x12#8 then 0x0C2#12 else if st = 0x11#8 then 0x0D1#12 else if st = 0x13#8 then 0x0D0#12 else 0x0C1#12

/-! ## Ranges -/

/-- A range cut at the multiples of a size. -/
def cutAt (size : Nat) : Nat → Nat → Nat → List (Nat × Nat)
  | 0, _, _ => []
  | k + 1, o, n =>
    if n = 0 then []
    else
      let m := min n (size - o % size)
      (o, m) :: cutAt size k (o + m) (n - m)

/-- A range cut into pieces that do not cross a multiple of a size. -/
def pieces (size o n : Nat) : List (Nat × Nat) := cutAt size (n / size + 2) o n

/-- The parts of the workgroups' scratchpads that a range of a kind-local capability covers (R171, R225). -/
def State.windowParts (s : State) (id : FibId) (obj o n : Nat) : List (Nat × Nat × Nat) :=
  if obj = 0 then [(id.wgid, o, n)]
  else match s.launch id.launch with
    | none => [(id.wgid, o, n)]
    | some L => (pieces (L.sp * 65536) o n).map (fun x => ((s.window id obj x.1).1, (s.window id obj x.1).2, x.2))

/-- Runs of consecutive addresses, cut at the multiples of a size: the place of the first byte in the list, its address, and the length. -/
def runsGo (size : Nat) : List Nat → Nat → Option (Nat × Nat × Nat) → List (Nat × Nat × Nat)
  | [], _, none => []
  | [], _, some r => [r]
  | a :: as, k, none => runsGo size as (k + 1) (some (k, a, 1))
  | a :: as, k, some (p, b, n) =>
    if a = b + n ∧ a % size ≠ 0 then runsGo size as (k + 1) (some (p, b, n + 1)) else (p, b, n) :: runsGo size as (k + 1) (some (k, a, 1))

/-- The runs of a list of addresses. -/
def runs (size : Nat) (as : List Nat) : List (Nat × Nat × Nat) := runsGo size as 0 none

/-! ## Tile layout words (R273) -/

/-- A tile layout word. -/
structure Layout where
  base : Nat
  mode : Nat
  rstride : Nat
  pstride : Nat
  slot : Nat
  planes : Nat
  cols : Nat
  rows : Nat
  deriving DecidableEq, Repr

/-- The layout of three words, unless R273 refuses it: a reserved bit, an empty row or column, a mode above 4, or a row stride that the mode does not admit. -/
def layoutOf (w0 w1 w2 : Nat) : Option Layout :=
  let y : Layout := ⟨bitsOf w0 0 22, bitsOf w0 22 4, bitsOf w1 0 16, bitsOf w1 16 16, bitsOf w2 28 3, bitsOf w2 24 4 + 1, bitsOf w2 12 12, bitsOf w2 0 12⟩
  if bitsOf w0 26 6 ≠ 0 ∨ bitsOf w2 31 1 ≠ 0 ∨ y.rows = 0 ∨ y.cols = 0 ∨ 4 < y.mode ∨ y.rstride % 4 ≠ 0 ∨ (y.mode ≠ 0 ∧ y.rstride % (16 * 2 ^ y.mode) ≠ 0) then none
  else some y

/-- The scratchpad offset of byte b of row r of plane p. -/
def Layout.byteAt (y : Layout) (p r b : Nat) : Nat := y.base + p * y.pstride * 64 + r * y.rstride + (b ^^^ (r % 2 ^ y.mode * 16))

end Sys2Proof.Machine
end

