-- ==== Sys2Proof/Machine/Engine.lean ====
section
/-! DEFINITION. Engine commands: their issue (R383, R384), the queues of the engines (R237, R268, R370), the ranges they reach (R218, R238), and QFENCE. -/

namespace Sys2Proof.Machine

/-! ## Parameter blocks -/

/-- The 64 bytes of a parameter block, its four granules as capabilities, and whether its data is lost. -/
structure Block where
  bytes : List Byte
  caps : List Cap
  lost : Bool
  deriving DecidableEq, Repr

/-- A field of a block. -/
def Block.num (b : Block) (o n : Nat) : Nat := bytesNat ((b.bytes.drop o).take n)

/-- A field of the block that a command keeps. -/
def Command.num (c : Command) (o n : Nat) : Nat := bytesNat ((c.blk.drop o).take n)

/-- Bytes of a block are all zero. -/
def Block.zero (b : Block) (o n : Nat) : Bool := ((b.bytes.drop o).take n).all (· == 0#8)

/-- A capability of a block, at offset 16 k. -/
def Block.cap (b : Block) (k : Nat) : Cap := b.caps.getD k Cap.null

/-- A capability of a command's block. -/
def Command.cap (c : Command) (k : Nat) : Cap := c.caps.getD k Cap.null

/-- A block from its bytes and granule tags. -/
def Block.of (bs : List Byte) (ts : List Bool) (lost : Bool) : Block :=
  ⟨bs, (List.range 4).map (fun k => Cap.ofBits (ts.getD k false) (bytesNat ((bs.drop (16 * k)).take 16))), lost⟩

/-- A block in a peer object, read 16 bytes at a time (R32). -/
def State.peerBlock (s : State) (id : FibId) (c : Cap) (off pos pasid pobj : Nat) : Got Block :=
  let have_ := (s.answer id).getD []
  if 64 ≤ have_.length then (s, .ok (Block.of have_ [] false))
  else if (s.via pos).isNone then (s, .error (.eff 0x0D0#12 none))
  else if s.storeAhead (s.coreOf id) pos pasid pobj (objOff c off) 64 then (s, .error (.hold .unacked))
  else
    let o := objOff c off + have_.length
    match s.request (peerPacket 0x01#5 pos pasid pobj o 16 0 []) (.load id (BitVec.ofNat 32 off)) (s.coreOf id) (keyAt (s.asidOf id.launch) c.obj.toNat o false) with
    | none => (s, .error (.hold .unacked))
    | some (s, t) => (s, .error (.hold (.remote pos t)))

/-- Read a block at issue: from the scratchpad, in the frame heap from the Cupboard (R178), or at its home slice (R269, R383 steps 2 and 4). -/
def State.readBlock (s : State) (id : FibId) (c : Cap) (off : Nat) : Got Block :=
  match capCheck c kData [rR] off 64 64 with
  | some t => (s, .error (.eff t none))
  | none =>
    let o := objOff c off
    if c.kind = 2#4 then
      let p := s.window id c.obj.toNat o
      let m := s.scratch id.launch p.1
      (s, .ok (Block.of (m.read p.2 64) ((List.range 4).map (fun k => m.tag (p.2 + 16 * k))) (s.localHurt id c.obj.toNat o 64)))
    else if s.isHeap id c then match s.heapAt id c o 64 false with
      | (s, .error e) => (s, .error e)
      | (s, .ok p) => (s, .ok (Block.of (s.rd (s.keyOf (s.asidOf id.launch)) p 64) ((List.range 4).map (fun k => s.mem.tag (p + 16 * k))) (s.isBad p 64)))
    else match s.atPort id c o 64 false with
      | (s, .error e) => (s, .error e)
      | (s, .ok (.pa p _)) =>
        if s.latchedX p then (s, .error (.hold (.latch (p / 256))))
        else
          let s := s.homeTouch p false
          (s, .ok (Block.of (s.rd (s.keyOf (s.asidOf id.launch)) p 64) ((List.range 4).map (fun k => s.mem.tag (p + 16 * k))) (s.isBad p 64)))
      | (s, .ok (.host link addr)) =>
        match s.hostLoad id off link addr 64 (keyAt (s.asidOf id.launch) c.obj.toNat o false) with
        | (s, .error e) => (s, .error e)
        | (s, .ok bs) => (s, .ok (Block.of bs [] false))
      | (s, .ok (.peer pos pasid pobj _)) => s.peerBlock id c off pos pasid pobj
      | (s, .ok _) => (s, .error (.eff 0x0C1#12 none))

/-- The code of a block capability that fails as a range of n bytes from BASE: 0x14 for tag, kind or bounds, 0x12 for a right (R385). -/
def capCode (c : Cap) (kinds rights : List Nat) (n : Nat) : BitVec 8 :=
  match capCheck c kinds rights 0 n 1 with
  | none => 0
  | some t => if t = 0x0C2#12 then 0x12#8 else 0x14#8

/-- The first code that is not zero. -/
def firstCode (cs : List (BitVec 8)) : BitVec 8 := (cs.find? (· != 0)).getD 0

/-- Reserved or wrong fields give code 0x36. -/
def code36 (bad : Bool) : BitVec 8 := if bad then 0x36#8 else 0

/-! ## Queues -/

/-- The workgroup of a command is placed and its gang is not halted. -/
def State.cmdRuns (s : State) (c : Command) : Bool :=
  match s.launch c.launch, s.wg c.launch c.wgid with
  | some L, some g => g.placed && (match s.gang c.launch (L.gangOf c.wgid) with
      | none => false
      | some x => x.st.live)
  | _, _ => false

/-- The command reads or writes its workgroup's scratchpad (R145, R148). -/
def Command.onScratch (c : Command) : Bool :=
  match c.eng with
  | .mangle _ => true
  | _ => c.kind == .dpost || c.caps.any (fun k => k.tag && k.kind == 2#4)

/-- The command must not go on now: its scratchpad is not there (R145). -/
def State.cmdStopped (s : State) (c : Command) : Bool := c.onScratch && !s.cmdRuns c

/-- Have a command act, or complete, in a while. -/
def State.poke (s : State) (ns id : Nat) : State :=
  if s.agenda.any (fun t => t.ev == .tokenCompletion id) then s else s.later ns (.tokenCompletion id)

/-- Start a queued command. -/
def State.startCmd (s : State) (id : Nat) : State := (s.modCmd id (fun c => { c with st := .running, mark := none })).poke 1 id

/-- Start a queued command once the release that its first access waits for is complete (R238); until then it looks again. -/
def State.startReleased (s : State) (c : Command) : State :=
  let r := s.relStep c.core c.scope c.mark
  if r.2 then r.1.startCmd c.id else r.1.poke 100 c.id

/-- The join's commands have all completed. -/
def State.joinDone (s : State) (c : Command) : Bool := c.kind == .join && c.deps.all (fun d => (s.cmd d).isNone)

/-- The command stands in a queue of an engine: those of a Mangle are in its queues only while their gang is on its cores, else in the context image (R145, R268). -/
def State.inQueue (s : State) (e : Eng) (c : Command) : Bool :=
  c.eng == e && (match e with
    | .mangle _ => s.cmdRuns c
    | _ => true)

/-- The commands of a queue in order. -/
def State.queueOf (s : State) (e : Eng) (q : Nat) : List Command := s.cmds.filter (fun c => s.inQueue e c && c.q == q)

/-- Drop the joins at the head of a queue whose commands have completed. -/
def State.dropJoins (s : State) (e : Eng) (q : Nat) : State :=
  let js := (s.queueOf e q).takeWhile s.joinDone
  { s with cmds := s.cmds.filter (fun c => !js.any (fun j => j.id == c.id)) }

/-- Serve a copy-engine queue: one command at a time (R237). -/
def State.serveCopy (s : State) (e : Eng) (q : Nat) : State :=
  let s := s.dropJoins e q
  match s.queueOf e q with
  | c :: _ => if c.st = .queued ∧ c.kind ≠ .join then s.startReleased c else s
  | [] => s

/-- An exchange-mode XPUT (R388). -/
def Command.exch (c : Command) : Bool := c.kind == .xput && c.num 0 4 == 1

/-- An exchange-mode XPUT has sent its last packet (R58). -/
def Command.allSent (c : Command) : Bool := c.prog == 1 && c.cuts.isEmpty && c.todo.isEmpty && c.win.isEmpty

/-- Start the commands of a fabric-port or scale-out queue in order, up to one that is stalled and to a join that is not done (R39, R74, R237, R370). Exchange-mode XPUTs are not held by their place in the queue, and other commands wait until every earlier one has sent its last packet (R58); a scale-out command waits until the one before it has started at its port (R73): hold says that such a one, or a stall, stands before. -/
def State.servePortGo (e : Eng) (q : Nat) : Bool → List Command → State → State
  | _, [], s => s
  | hold, c :: rest, s =>
    if c.kind = .join then
      (if s.joinDone c then servePortGo e q hold rest { s with cmds := s.cmds.filter (fun x => x.id != c.id) } else s)
    else
      let s := if c.st = .queued ∧ (c.exch ∨ !hold) then s.startReleased c else s
      servePortGo e q (hold || c.mark.isSome || (c.exch && !c.allSent && c.st != .finished) || ((c.kind == .send || c.kind == .rpost) && c.prog == 0 && c.st != .finished) || (match c.st with
        | .stalled .. => true
        | _ => false)) rest s

/-- Serve the Mangle: one command at a time, from the queue after the one last served (R268). Queues of a gang that is not running wait with it. -/
def State.serveMangle (s : State) (core : Nat) : State :=
  let e := Eng.mangle core
  let s := s.over (List.range 4) (fun s q => s.dropJoins e q)
  let mine := s.cmds.filter (fun c => c.eng == e && s.cmdRuns c)
  if mine.any (fun c => c.kind != .join && c.st != .queued) then s
  else
    let last := (s.core core).mangleLast
    match ((List.range 4).map (fun k => (last + 1 + k) % 4)).findSome? (fun q =>
      match mine.filter (fun c => c.q == q) with
      | c :: _ => if c.kind = .join then none else some c
      | [] => none) with
    | none => s
    | some c => (s.modCore core (fun x => { x with mangleLast := c.q })).startReleased c

/-- Serve an engine: start what may start. -/
def State.serve (s : State) (e : Eng) : State :=
  match e with
  | .mangle core => s.serveMangle core
  | .copy _ => s.over (List.range 16) (fun s q => s.serveCopy e q)
  | _ => s.over (List.range 16) (fun s q => servePortGo e q false (s.queueOf e q) s)

/-- A transaction carries a packet of a command. -/
def TxKind.isOf (k : TxKind) (id : Nat) : Bool :=
  match k with
  | .put n _ _ => n == id
  | .get n _ _ => n == id
  | .cmig n => n == id
  | _ => false

/-- A host request is part of a command. -/
def HTxKind.isOf (k : HTxKind) (id : Nat) : Bool :=
  match k with
  | .engine n _ _ => n == id
  | _ => false

/-- The requests of a command that has ended: what has not left is not sent, and the tags of the rest stay taken until their answers come (R31, R40, R85). -/
def State.abandonCmd (s : State) (id : Nat) : State :=
  let s := s.abandon (fun t => t.kind.isOf id)
  { s with htxs := s.htxs.map (fun (t : HTx) => if t.kind.isOf id then { t with kind := .gone } else t) }

/-- A command leaves its queue: joins and waiting fibres look again, and with a DPOST what is held for its calendar (R58). -/
def State.dropCmd (s : State) (c : Command) : State :=
  let s := s.abandonCmd c.id
  let s : State := { s with cmds := s.cmds.filter (fun x => x.id != c.id) }
  let s := if c.kind = .dpost then s.later 1 (.dpostTimeout (BitVec.ofNat 32 (c.num 8 4))) else s
  (s.endWaits (fun w => w == .queue)).serve c.eng

/-- The command has ended: its token is written in a step of its own (R239); after an error its packets that have not left are not sent (R40); with an exchange-mode XPUT the closes of its exchange may be due (R63). -/
def State.finish (s : State) (id : Nat) (code : BitVec 8) (count : Nat) : State :=
  let s := (s.modCmd id (fun c => { c with st := .finished, code := code, err := code != 0, count := count })).poke 1 id
  let s := if code = 0 then s else s.abandonCmd id
  match s.cmd id with
  | none => s
  | some c => if c.exch then s.later 1 (.closeSend (BitVec.ofNat 32 (c.num 4 4))) else s

/-- As finish, for a code that is no error (R279). -/
def State.finishOk (s : State) (id : Nat) (code : BitVec 8) (count : Nat) : State :=
  (s.modCmd id (fun c => { c with st := .finished, code := code, err := false, count := count })).poke 1 id

/-- The die whose Hamper takes an engine's stalls. -/
def Eng.die (e : Eng) (core : Nat) : Nat :=
  match e with
  | .mangle c => dieOf c
  | .copy n => n / 6 % 4
  | .port d => d
  | .scale d => if d = 4 then dieOf core else d

/-- A command stalls on a region: its record enters the Hamper (R218). -/
def State.stallCmd (s : State) (c : Command) (k : HamperKey) : State :=
  let die := c.eng.die c.core
  let s := s.hamperEnter die k
  s.modCmd c.id (fun c => { c with st := .stalled die (s.hamperNum die k) k, phase := 0, buf := [] })

/-- The same at a faulting byte offset (R58, R218). -/
def State.stallAt (s : State) (c : Command) (k : HamperKey) (off : Nat) : State := (s.stallCmd c k).modCmd c.id (fun c => { c with fault := off })

/-! ## Ranges that a command reaches -/

/-- Where a range of a block capability lies now (R210, R211, R218): parts of scratchpads (workgroup, offset, bytes) or of memory, a host or peer range; or what stands in the way: a stall, a walk to wait for, an address that cannot be read, a code. -/
inductive Span where
  | scratch (parts : List (Nat × Nat × Nat))
  | mem (segs : List (Nat × Nat))
  | host (link addr : Nat)
  | peer (pos pasid pobj o : Nat)
  | stall (k : HamperKey)
  | walk (die asid obj : Nat) (page : Option Nat)
  | lost (a : Nat)
  | failed (code : BitVec 8)
  deriving DecidableEq, Repr

/-- The token code of a translation fault (R218, R388). -/
def faultCode (t : BitVec 12) : BitVec 8 := if t = 0x0C2#12 then 0x12#8 else if t = 0x0D0#12 then 0x13#8 else 0x14#8

/-- The range of n bytes from an offset of a block capability, translated at the memory port of the engine's die (R211). -/
def State.span (s : State) (c : Command) (k : Cap) (off n : Nat) (write : Bool) : Span :=
  let o := k.base.toNat + off
  let die := c.eng.die c.core
  if k.kind = 2#4 then .scratch (s.windowParts ⟨c.launch, c.wgid, 0⟩ k.obj.toNat o n)
  else
    (pieces 65536 o n).foldl (fun (r : Option Span) (x : Nat × Nat) =>
      match r with
      | some (.mem segs) => some (match s.xlatPort die (s.trayOk c.launch) ⟨c.asid, k.obj.toNat, x.1, x.2, write, k.kind == 4#4⟩ with
          | .pa p _ => .mem (segs ++ [(p, x.2)])
          | .fault t => if t = 0x0D1#12 ∨ t = 0x0D2#12 then .stall (keyAt c.asid k.obj.toNat x.1 write) else .failed (faultCode t)
          | .lost p => .lost p
          | .host link a => .host link a
          | .peer pos pasid pobj _ => .peer pos pasid pobj o
          | .miss page => .walk die c.asid k.obj.toNat page)
      | r => r) (some (.mem [])) |>.getD (.mem [])

/-- A command waits for a walk: it looks again when the walk has been answered (R212). -/
def State.walkFor (s : State) (c : Command) (die asid obj : Nat) (page : Option Nat) : State := (s.startWalk ⟨die, asid, obj, page⟩).poke 2 c.id

/-- The report of an address that cannot be read (R13, R107). -/
def State.logAddr (s : State) (asid a : Nat) : State := s.logError asid (a / 1048576) (if s.homeHurts.contains (a / 64) && !s.bad.contains (a / 64) then 1 else 0) 1

/-- A tile access holds a line of the range against it (R242). -/
def State.spanLatched (s : State) (write : Bool) : Span → Bool
  | .mem segs => segs.any (fun x => (List.range (x.2 / 256 + 2)).any (fun j =>
      let a := x.1 / 256 * 256 + 256 * j
      decide (a < x.1 + x.2) && (if write then s.latched a else s.latchedX a)))
  | _ => false

/-- Data of a range of memory is lost (R107). -/
def State.segsBad (s : State) (segs : List (Nat × Nat)) : Bool := segs.any (fun x => s.isBad x.1 x.2)

/-- Data of a range that a command reads is lost (R107). -/
def State.spanBad (s : State) (c : Command) : Span → Bool
  | .mem segs => s.segsBad segs
  | .scratch ps => ps.any (fun x => s.scratchHurt c.launch x.1 (fun b => decide (x.2.1 ≤ b) && decide (b < x.2.1 + x.2.2)))
  | _ => false

/-- The report of that loss (R107). -/
def State.logSpan (s : State) (c : Command) : Span → State
  | .mem segs => s.logLost c.asid segs
  | .scratch .. => s.logScratch c.asid c.core
  | _ => s

/-- Read a range of device memory or of a scratchpad. -/
def State.spanRead (s : State) (c : Command) : Span → List Byte
  | .scratch ps => ps.flatMap (fun x => (s.scratch c.launch x.1).read x.2.1 x.2.2)
  | .mem segs => segs.flatMap (fun x => s.rd (s.keyOf c.asid) x.1 x.2)
  | _ => []

/-- Write a range of device memory or of a scratchpad; tags of the granules are cleared (R203). -/
def State.spanWrite (s : State) (c : Command) (bs : List Byte) : Span → State
  | .scratch ps => (ps.foldl (fun (p : State × List Byte) x =>
      ((p.1.modScratch c.launch x.1 (fun m => m.write x.2.1 (p.2.take x.2.2))).scratchWrote c.launch x.1 (fun b => decide (x.2.1 ≤ b) && decide (b < x.2.1 + x.2.2)), p.2.drop x.2.2)) (s, bs)).1
  | .mem segs => (segs.foldl (fun (p : State × List Byte) x => (p.1.homeStore (s.keyOf c.asid) x.1 (p.2.take x.2), p.2.drop x.2)) (s, bs)).1
  | _ => s

/-! ## Issue (R383) -/

/-- What an engine instruction fixes: its command kind, its queue, its scope and release bit, its engine, the checks that raise 0x0E7 and those that complete the token (R279, R384, R385 to R391), and the close token of a DPOST. -/
structure CmdForm where
  kind : CmdKind
  g : Nat
  q : Nat
  rel : Bool
  scope : Nat
  eng : Block → Eng
  legal : State → Launch → Block → Bool
  check : State → FibId → Launch → Block → BitVec 8
  exps : State → Launch → Block → List Int
  close : Block → Option Nat
  limited : Bool

/-- The command's queue is known: that of a copy stands in its block, whose ENGINE may be lost or name no copy engine (R385). -/
def CmdForm.namesQueue (F : CmdForm) (b : Block) : Bool := (F.kind != .copy && F.kind != .copyt) || (!b.lost && decide (b.num 0 4 ≤ 5))

/-- The command has entered its queue, its token pending; a DPOST's wait for a calendar is counted from its issue stamp (R49). -/
def State.enqueue (s : State) (id : FibId) (F : CmdForm) (L : Launch) (b : Block) (mark : Option Nat) : State :=
  let n := s.fresh
  let c : Command := { id := n, eng := F.eng b, q := F.q, kind := F.kind, launch := id.launch, wgid := id.wgid, g := F.g, asid := L.asid, core := s.coreOf id,
                       scope := F.scope, blk := b.bytes, caps := b.caps, st := .queued, prog := 0, sent := 0, acked := 0, cuts := [], code := 0, err := false,
                       count := 0, deps := [], exps := F.exps s L b, phase := 0, buf := [], todo := [], win := [], fault := 0, mark := mark }
  let s := (s.pend id.launch id.wgid F.g).stamp
  let s := match F.close b with
    | none => s
    | some k => s.pend id.launch id.wgid k
  let s := if F.kind = .dpost then s.atFabric ((c.exps.headD 0).toNat + s.ft.window + 200000) (.dpostTimeout (BitVec.ofNat 32 (b.num 8 4))) else s
  { s with cmds := s.cmds ++ [c] }.serve (F.eng b)

/-- A block check has failed: the token completes at once, and with it a close token that the failure marks (R383 step 7, R389). -/
def State.refuse (s : State) (id : FibId) (F : CmdForm) (b : Block) (code : BitVec 8) : State :=
  let s := s.completeToken id.launch id.wgid F.g F.scope true code 0 false
  match F.close b with
  | none => s
  | some k => if code = 0x36#8 ∨ b.lost then s else s.completeToken id.launch id.wgid k F.scope true code 0 false

/-- A block that is lost is reported (R107), and so is the demand vector of a DPOST. -/
def State.logBlock (s : State) (id : FibId) (c : Cap) (off : Nat) (b : Block) (demand : Bool) : State :=
  if !b.lost then (if demand then s.logScratch (s.asidOf id.launch) (s.coreOf id) else s)
  else if c.kind = 2#4 then s.logScratch (s.asidOf id.launch) (s.coreOf id)
  else match (s.atPort id c (objOff c off) 64 false).2 with
    | .ok (.pa p _) => s.logLost (s.asidOf id.launch) [(p, 64)]
    | _ => s

/-- The bundle's command once its block is read: steps 3 to 7 of R383. -/
def State.issueCmd (s : State) (exe : List Nat) (id : FibId) (F : CmdForm) (L : Launch) (c : Cap) (b : Block) (off : Nat) : State :=
  if !b.lost && !F.legal s L b then s.stopAll exe 0 (.eff 0x0E7#12 none)
  else
    let code := if b.lost then 0x13#8 else F.check s id L b
    let full := F.namesQueue b && decide (32 ≤ ((s.queueOf (F.eng b) F.q).filter (fun c => c.kind != .join)).length)
    let held := match F.close b with
      | none => false
      | some k => code != 0x36#8 && (s.greg id.launch id.wgid k).pending
    if F.limited && s.limitedOnly then s.completeToken id.launch id.wgid F.g F.scope true 0x3B#8 0 false
    else if full || held then s.stopAll exe off (.hold .queue)
    else match if F.rel then s.releaseIssue id F.scope else (s, .ok none) with
      | (s, .error e) => s.stopAll exe off e
      | (s, .ok mark) => if code = 0 then s.enqueue id F L b mark else (s.logBlock id c off b (F.kind == .dpost && code == 0x13#8)).refuse id F b code

/-- An engine instruction: uniform operands, the block, and the one command of the bundle. -/
def State.engineInstr (s : State) (i : Instr) (F : CmdForm) (c : BitVec 4) (x : BitVec 6) : Host.Outcome State Fault Refusal :=
  s.issue i (fun s _ exe =>
    let r := s.uniform exe (fun f => (f.cap c.toNat, f.reg x.toNat))
    if !r.2 then r.1
    else match r.1.curFibs exe, r.1.curLaunch with
      | f :: _, some L =>
        let off := (f.reg x.toNat).toNat
        match r.1.readBlock (r.1.curId f.fid) (f.cap c.toNat) off with
        | (s, .error e) => s.stopAll exe off e
        | (s, .ok b) => s.issueCmd exe (s.curId f.fid) F L (f.cap c.toNat) b off
      | _, _ => r.1)

/-! ## QFENCE (R370) -/

/-- The engine that a QFENCE names from a core. -/
def fenceEng (core d : Nat) : Eng :=
  if d = 0 then .mangle core else if d ≤ 6 then .copy (6 * dieOf core + (d - 1)) else if d = 7 then .port (dieOf core) else .scale (dieOf core)

/-- Place one join in every named queue; each waits for every command that is in a named queue now. -/
def State.fence (s : State) (id : FibId) (e : Eng) (qs : List Nat) : State :=
  let deps := (s.cmds.filter (fun c => s.inQueue e c && qs.contains c.q && c.kind != .join)).map (·.id)
  let s := s.over qs (fun s q =>
    { s.stamp with cmds := s.cmds ++ [{ id := s.fresh, eng := e, q := q, kind := .join, launch := id.launch, wgid := id.wgid, g := 0, asid := s.asidOf id.launch,
                                        core := s.coreOf id, scope := 0, blk := [], caps := [], st := .queued, prog := 0, sent := 0, acked := 0, cuts := [], code := 0,
                                        err := false, count := 0, deps := deps, exps := [], phase := 0, buf := [], todo := [], win := [], fault := 0, mark := none }] })
  s.serve e

/-- QFENCE (R370). -/
def execQfence (e : BitVec 6) (m : BitVec 16) (s : State) : Host.Outcome State Fault Refusal :=
  s.issue (.qfence e m) (fun s _ exe =>
    match s.curFibs exe with
    | [] => s
    | f :: _ => s.fence (s.curId f.fid) (fenceEng (s.coreOf (s.curId f.fid)) e.toNat) ((List.range 16).filter (fun q => m.getLsbD q)))

end Sys2Proof.Machine
end

