-- ==== Sys2Proof/Machine/Copy.lean ====
section
/-! DEFINITION. The copy engines: COPY and COPYT in ascending 4 KiB pieces (R218, R385 to R387), with host and peer objects (R32, R86). prog is the row, sent the byte reached in it, count the pieces written of a COPY; phase 1 waits for source bytes, phase 2 for written bytes, and buf and cuts say what has arrived. -/

namespace Sys2Proof.Machine

/-- ROWS, ROWBYTES and the two strides: a COPY is one row of LEN bytes. -/
structure CopyGeo where
  rows : Nat
  rowbytes : Nat
  sstride : Nat
  dstride : Nat
  deriving DecidableEq, Repr

/-- The geometry of a copy from its 64 bytes. -/
def copyGeo (strided : Bool) (bs : List Byte) : CopyGeo :=
  let f (o n : Nat) : Nat := bytesNat ((bs.drop o).take n)
  if strided then ⟨f 4 4, f 8 4, f 0x30 4, f 0x34 4⟩ else ⟨1, f 8 4, 0, 0⟩

/-- The bytes a side must hold: (ROWS - 1) × stride + ROWBYTES. -/
def CopyGeo.span (y : CopyGeo) (stride : Nat) : Nat := if y.rows = 0 then 0 else (y.rows - 1) * stride + y.rowbytes

/-- The checks of R385 and R387. -/
def copyCheck (strided : Bool) (b : Block) : BitVec 8 :=
  let y := copyGeo strided b.bytes
  let reserved := decide (5 < b.num 0 4) || !b.zero 0x0C 4
    || (if strided then !b.zero 0x38 8 || decide (0xFFFFFF < b.num 4 4) || b.num 8 4 == 0 || decide (0xFFFFFF < b.num 8 4) else !b.zero 4 4 || !b.zero 0x30 16)
  firstCode [code36 reserved, capCode (b.cap 1) kData [rR] (y.span y.sstride), capCode (b.cap 2) kData [rW] (y.span y.dstride)]

/-- The form of a copy instruction. -/
def copyForm (s : State) (kind : CmdKind) (g : BitVec 5) (q : BitVec 4) (r : Bool) (sc : BitVec 3) : CmdForm :=
  { kind := kind, g := g.toNat, q := q.toNat, rel := r, scope := sc.toNat,
    eng := fun b => .copy (6 * dieOf (s.coreOf ⟨s.cur.launch, s.cur.wgid, 0⟩) + min 5 (b.num 0 4)), legal := fun _ _ _ => true,
    check := fun _ _ _ b => copyCheck (kind == .copyt) b, exps := fun _ _ _ => [], close := fun _ => none, limited := false }

/-- COPY (R385, R386). -/
def execCopy (g : BitVec 5) (q c : BitVec 4) (x : BitVec 6) (r : Bool) (sc : BitVec 3) (s : State) : Host.Outcome State Fault Refusal :=
  s.engineInstr (.copy g q c x r sc) (copyForm s .copy g q r sc) c x

/-- COPYT (R387). -/
def execCopyt (g : BitVec 5) (q c : BitVec 4) (x : BitVec 6) (r : Bool) (sc : BitVec 3) (s : State) : Host.Outcome State Fault Refusal :=
  s.engineInstr (.copyt g q c x r sc) (copyForm s .copyt g q r sc) c x

/-! ## One piece -/

/-- Where the next piece lies: its offsets from the two BASEs and its length; pieces end at multiples of 4,096 of the destination's offsets (R218). -/
def Command.piece (c : Command) (y : CopyGeo) : Nat × Nat × Nat :=
  let d := c.prog * y.dstride + c.sent
  (c.prog * y.sstride + c.sent, d, min (y.rowbytes - c.sent) (4096 - ((c.cap 2).base.toNat + d) % 4096))

/-- The count of a copy that ends now: pieces, or rows (R386, R387). -/
def Command.copied (c : Command) : Nat := if c.kind = .copyt then c.prog else c.count

/-- The requests into which a host or peer range of a piece is cut: place in the piece, address, length (R30, R85). -/
def requestParts (o n : Nat) (peer : Bool) : List (Nat × Nat × Nat) :=
  (pieces (if peer then 16 else 1024) o n).flatMap (fun x =>
    if peer && x.2 != 16 then (List.range x.2).map (fun k => (x.1 - o + k, x.1 + k, 1)) else [(x.1 - o, x.1, x.2)])

/-- A request of a command for part of its piece is on its way. -/
def State.partOut (s : State) (id off : Nat) : Bool :=
  s.txs.any (fun t => match t.kind with
    | .get n o _ => n == id && o == off
    | .put n o _ => n == id && o == off
    | _ => false) || s.htxs.any (fun t => match t.kind with
    | .engine n o _ => n == id && o == off
    | _ => false)

/-- Send the requests of a piece that are neither answered nor on their way; the state and whether every one is answered. -/
def State.sendParts (s : State) (c : Command) (sp : Span) (n : Nat) (write : Bool) (data : List Byte) (done : Nat → Bool) : State × Bool :=
  match sp with
  | .host link addr =>
    let ps := requestParts addr n false
    (s.over (ps.filter (fun p => !done p.1 && !s.partOut c.id p.1)) (fun s p =>
      match s.hostRequest link (hostPacket (if write then 0x03#5 else 0x01#5) p.2.1 p.2.2 (if write then (data.drop p.1).take p.2.2 else []))
          (.engine c.id p.1 p.2.2) c.core p.2.2 (keyAt c.asid (c.cap (if write then 2 else 1)).obj.toNat ((c.cap (if write then 2 else 1)).base.toNat) write) with
      | none => s
      | some (s, _) => s), ps.all (fun p => done p.1))
  | .peer pos pasid pobj o =>
    let ps := requestParts o n true
    (s.over (ps.filter (fun p => !done p.1 && !s.partOut c.id p.1)) (fun s p =>
      let bs := if write then (data.drop p.1).take p.2.2 else []
      match s.request (peerPacket (if write then 0x03#5 else 0x01#5) pos pasid pobj p.2.1 p.2.2 (if write then storeMask p.2.2 else 0) bs)
          (if write then .put c.id p.1 p.2.2 else .get c.id p.1 p.2.2) c.core (keyAt c.asid (c.cap (if write then 2 else 1)).obj.toNat ((c.cap (if write then 2 else 1)).base.toNat) write) with
      | none => s
      | some (s, _) => s.later 100000 (.fabricTimeout c.id)), ps.all (fun p => done p.1))
  | _ => (s, true)

/-- The bytes of the piece collected in buf. -/
def Command.collected (c : Command) (n : Nat) : List Byte :=
  (List.range n).map (fun k => ((c.buf.find? (fun x => decide (x.1 ≤ k) && decide (k < x.1 + x.2.length))).map (fun x => x.2.getD (k - x.1) 0)).getD 0)

/-- The piece is written: on to the next, or to the next row. -/
def Command.pieceDone (c : Command) (y : CopyGeo) (n : Nat) : Command :=
  let c := { c with phase := 0, buf := [], cuts := [], count := min (c.count + 1) 0xFFFFFF, sent := c.sent + n }
  if y.rowbytes ≤ c.sent then { c with prog := c.prog + 1, sent := 0 } else c

/-- A peer counts as dead for a new request (R23, R24, R41). -/
def State.spanDead (s : State) : Span → Bool
  | .peer pos _ _ _ => (s.via pos).isNone
  | _ => false

/-- Write the piece's bytes (R386). -/
def State.copyWrite (s : State) (c : Command) (y : CopyGeo) (n : Nat) (dst : Span) (data : List Byte) : State :=
  match dst with
  | .host .. => (s.modCmd c.id (fun c => { c with phase := 2, buf := [(0, data)], cuts := [] })).poke 1 c.id
  | .peer .. => (s.modCmd c.id (fun c => { c with phase := 2, buf := [(0, data)], cuts := [] })).poke 1 c.id
  | _ =>
    if s.spanLatched true dst then s.poke 10 c.id
    else ((s.spanWrite c data dst).modCmd c.id (fun c => c.pieceDone y n)).poke 1 c.id

/-- A running copy takes its next step: it asks for source bytes, writes, or waits. -/
def State.stepCopy (s : State) (c : Command) : State :=
  let y := copyGeo (c.kind == .copyt) c.blk
  if y.rows ≤ c.prog ∨ y.rowbytes = 0 then s.finish c.id 0 c.copied
  else
    let (so, d, n) := c.piece y
    let src := s.span c (c.cap 1) so n false
    let dst := s.span c (c.cap 2) d n true
    match src, dst with
    | .walk d a o p, _ => s.walkFor c d a o p
    | _, .walk d a o p => s.walkFor c d a o p
    | .failed e, _ => s.finish c.id e c.copied
    | _, .failed e => s.finish c.id e c.copied
    | .lost a, _ => (s.logAddr c.asid a).finish c.id 0x13#8 c.copied
    | _, .lost a => (s.logAddr c.asid a).finish c.id 0x13#8 c.copied
    | .stall k, _ => s.stallCmd c k
    | _, .stall k => s.stallCmd c k
    | _, _ =>
      if s.spanDead src || s.spanDead dst then s.finish c.id 0x10#8 c.copied
      else if c.phase = 2 then
        let r := s.sendParts c dst n true (c.collected n) (fun p => c.cuts.any (fun x => x.1 == p))
        if r.2 then (r.1.modCmd c.id (fun c => c.pieceDone y n)).poke 1 c.id else r.1
      else match src with
        | .host .. =>
          let r := s.sendParts c src n false [] (fun p => c.buf.any (fun x => x.1 == p))
          if r.2 then r.1.copyWrite c y n dst (c.collected n) else r.1.modCmd c.id (fun c => { c with phase := 1 })
        | .peer .. =>
          let r := s.sendParts c src n false [] (fun p => c.buf.any (fun x => x.1 == p))
          if r.2 then r.1.copyWrite c y n dst (c.collected n) else r.1.modCmd c.id (fun c => { c with phase := 1 })
        | _ =>
          if s.spanLatched false src then s.poke 10 c.id
          else if s.spanBad c src then (s.logSpan c src).finish c.id 0x13#8 c.copied
          else s.copyWrite c y n dst (s.spanRead c src)

/-- Source bytes of a piece have arrived. -/
def State.partIn (s : State) (id off : Nat) (bs : List Byte) : State :=
  (s.modCmd id (fun c => { c with buf := c.buf ++ [(off, bs)] })).poke 1 id

/-- Bytes of a piece have been written at the host or a peer. -/
def State.partWritten (s : State) (id off len : Nat) : State :=
  (s.modCmd id (fun c => { c with cuts := c.cuts ++ [(off, len)] })).poke 1 id

end Sys2Proof.Machine
end

