-- ==== Sys2Proof/Machine/Folding.lean ====
section
/-! DEFINITION. The fold algorithm and the calendar (R48, R52 to R57): pure functions of the demand matrix, the posted set, the failed links and the intermediates. -/

namespace Sys2Proof.Machine

/-! ## Matrices of 16 by 16 -/

/-- An element of a matrix. -/
def mget (M : List (List Nat)) (s d : Nat) : Nat := (M.getD s []).getD d 0

/-- Replace an element. -/
def mset (M : List (List Nat)) (s d x : Nat) : List (List Nat) := M.set s ((M.getD s []).set d x)

/-- A matrix from a function. -/
def mof (f : Nat → Nat → Nat) : List (List Nat) := (List.range 16).map (fun s => (List.range 16).map (f s))

/-- The pairs of positions, sources ascending, then destinations. -/
def allPairs : List (Nat × Nat) := (List.range 16).flatMap (fun s => (List.range 16).map (fun d => (s, d)))

/-- Some element is positive. -/
def mpos (M : List (List Nat)) : Bool := allPairs.any (fun p => decide (0 < mget M p.1 p.2))

/-! ## Matchings -/

/-- Look for an augmenting path from a source over candidate destinations; vis are the destinations tried, m the source matched to each destination. -/
def augment (adj : Nat → Nat → Bool) : Nat → Nat → List Nat → List Nat → List (Option Nat) → Option (List (Option Nat)) × List Nat
  | 0, _, _, vis, _ => (none, vis)
  | _ + 1, _, [], vis, _ => (none, vis)
  | n + 1, s, d :: ds, vis, m =>
    if !adj s d || vis.contains d then augment adj n s ds vis m
    else match m.getD d none with
      | none => (some (m.set d (some s)), d :: vis)
      | some o =>
        match augment adj n o (List.range 16) (d :: vis) m with
        | (some m', vis') => (some (m'.set d (some s)), vis')
        | (none, vis') => augment adj n s ds vis' m

/-- The size of a greatest matching. -/
def matchSize (adj : Nat → Nat → Bool) : Nat :=
  ((List.range 16).foldl (fun (m : List (Option Nat)) s =>
    match augment adj 400 s (List.range 16) [] m with
    | (some m', _) => m'
    | (none, _) => m) (List.replicate 16 none)).countP Option.isSome

/-- Insert into a falling list without repeats. -/
def insertFall (n : Nat) : List Nat → List Nat
  | [] => [n]
  | x :: xs => if x < n then n :: x :: xs else if n = x then x :: xs else x :: insertFall n xs

/-- The greatest smallest value that a matching of the greatest size can have. -/
def bottleneck (M : List (List Nat)) : Nat :=
  let k := matchSize (fun s d => decide (0 < mget M s d))
  let vs := allPairs.foldl (fun l p => if mget M p.1 p.2 = 0 then l else insertFall (mget M p.1 p.2) l) []
  (vs.find? (fun t => matchSize (fun s d => decide (t ≤ mget M s d)) == k)).getD 1

/-- The matching of a given size with the smallest key, source by source. -/
def keyGo (adj : Nat → Nat → Bool) : List Nat → List Nat → Nat → List (Nat × Nat)
  | [], _, _ => []
  | s :: ss, used, need =>
    match (List.range 16).find? (fun d => adj s d && !used.contains d && decide (0 < need)
        && matchSize (fun x y => ss.contains x && adj x y && !(d :: used).contains y) == need - 1) with
    | some d => (s, d) :: keyGo adj ss (d :: used) (need - 1)
    | none => keyGo adj ss used need

/-- ChooseMatching (R53). -/
def chooseMatching (M : List (List Nat)) : List (Nat × Nat) :=
  let t := bottleneck M
  let adj (s d : Nat) : Bool := decide (0 < mget M s d) && decide (t ≤ mget M s d)
  keyGo adj (List.range 16) [] (matchSize adj)

/-- RunFolds (R53): phase 0 direct, 1 first leg, 2 second leg. -/
def runFolds (phase : Nat) : Nat → List (List Nat) → List Fold → List Fold × List (List Nat)
  | 0, M, fs => (fs, M)
  | n + 1, M, fs =>
    if !mpos M ∨ 255 ≤ fs.length then (fs, M)
    else
      let X := chooseMatching M
      let len := (X.map (fun p => mget M p.1 p.2)).foldl min (mget M (X.headD (0, 0)).1 (X.headD (0, 0)).2)
      runFolds phase n (X.foldl (fun M p => mset M p.1 p.2 (mget M p.1 p.2 - len)) M) (fs ++ [⟨X, len, phase⟩])

/-! ## The schedule -/

/-- What the algorithm starts from: members and posted set, the demand in bytes, the failed links and the intermediates. -/
structure Demand where
  members : Nat → Bool
  posted : Nat → Bool
  bytes : Nat → Nat → Nat
  failed : Nat → Nat → Bool
  inter : Nat → Nat → Option Nat

/-- The schedule: its folds, the circulant's S (0 for none), the demand left to it, and the relay flows (source, intermediate, destination). -/
structure Plan where
  folds : List Fold
  circ : Nat
  rest : List (List Nat)
  flows : List (Nat × Nat × Nat)
  deriving DecidableEq, Repr

/-- The unit matrix U. -/
def Demand.units (D : Demand) : List (List Nat) :=
  mof (fun s d => if D.members s && D.members d && D.posted s && s != d then min ((D.bytes s d + 65535) / 65536) 65535 else 0)

/-- Flows whose link has failed and that an intermediate carries: first come, first served (R53). -/
def Demand.relays (D : Demand) (U : List (List Nat)) : List (Nat × Nat × Nat) :=
  (allPairs.filter (fun p => D.failed p.1 p.2 && decide (0 < mget U p.1 p.2))).foldl (fun fl p =>
    match D.inter p.1 p.2 with
    | none => fl
    | some v =>
      let stored := ((fl.filter (fun f => f.2.1 == v)).map (fun f => mget U f.1 f.2.2)).sum
      if fl.any (fun f => f.1 == p.1 && f.2.1 == v) || fl.any (fun f => f.2.1 == v && f.2.2 == p.2) || decide (1024 < stored + mget U p.1 p.2) then fl
      else fl ++ [(p.1, v, p.2)]) []

/-- The whole algorithm (R53, R54). -/
def Demand.plan (D : Demand) : Plan :=
  let U := D.units
  let fl := D.relays U
  let direct := allPairs.foldl (fun M p => if D.failed p.1 p.2 then mset M p.1 p.2 0 else M) U
  let first := fl.foldl (fun M f => mset M f.1 f.2.1 (mget U f.1 f.2.2)) (mof (fun _ _ => 0))
  let second := fl.foldl (fun M f => mset M f.2.1 f.2.2 (mget U f.1 f.2.2)) (mof (fun _ _ => 0))
  let r := runFolds 0 256 direct []
  if mpos r.2 then ⟨r.1, (allPairs.map (fun p => mget r.2 p.1 p.2)).foldl max 0, r.2, []⟩
  else
    let a := runFolds 1 256 first r.1
    let b := runFolds 2 256 second a.1
    if mpos a.2 || mpos b.2 then ⟨r.1, 0, r.2, []⟩ else ⟨b.1, 0, r.2, fl⟩

/-- The starts of the folds, and the start after the last (R53). -/
def foldStarts : Nat → List Fold → List Nat
  | t, [] => [t]
  | t, f :: fs => t :: foldStarts (t + f.len * 200 + 40) fs

/-- END: the end of the last fold, relative to BASE (R53, R54); of a schedule without folds it is 0, which is the model's choice (log entry 28). -/
def Plan.endt (P : Plan) : Nat :=
  let st := foldStarts 0 P.folds
  let last := st.getLastD 0
  if 0 < P.circ then last + 15 * (P.circ * 200) + 14 * 40 else if P.folds = [] then 0 else last - 40

/-! ## Calendars (R56, R57) -/

/-- One step of CRC-64/ECMA-182 over a bit. -/
def crc64Bit (c : DWord) (b : Bool) : DWord := if c.getLsbD 63 != b then (c <<< 1) ^^^ 0x42F0E1EBA9EA3693#64 else c <<< 1

/-- CRC-64/ECMA-182 (R56). -/
def crc64 (bs : List Byte) : DWord :=
  bs.foldl (fun c b => ((List.range 8).reverse.map (fun k => b.getLsbD k)).foldl crc64Bit c) 0

/-- The demand matrix's 2,048 bytes. -/
def Demand.matrix (D : Demand) : List Byte :=
  allPairs.flatMap (fun p => natBytes 8 (if D.members p.1 && D.members p.2 && D.posted p.1 && p.1 != p.2 then D.bytes p.1 p.2 else 0))

/-- The 16 bytes of a calendar entry. -/
def calEntry (fold dest src bits partner start dur budget : Nat) : List Byte :=
  natBytes 1 fold ++ natBytes 1 (dest * 16 + src) ++ natBytes 1 bits ++ natBytes 1 partner ++ natBytes 4 start ++ natBytes 4 dur ++ natBytes 4 budget

/-- The relay flow that a pair of a relay fold carries. -/
def Plan.flow (P : Plan) (phase s d : Nat) : Option (Nat × Nat × Nat) :=
  P.flows.find? (fun f => if phase = 1 then f.1 == s && f.2.1 == d else f.2.1 == s && f.2.2 == d)

/-- The demand whose bytes a sender grants in a fold. -/
def Plan.demandOf (P : Plan) (D : Demand) (phase s d : Nat) : Nat :=
  if phase = 0 then D.bytes s d else match P.flow phase s d with
    | none => 0
    | some f => D.bytes f.1 f.2.2

/-- PARTNER of an entry: the final destination on the first leg, the original source on the second. -/
def Plan.partner (P : Plan) (phase s d : Nat) : Nat :=
  if phase = 0 then 0 else match P.flow phase s d with
    | none => 0
    | some f => if phase = 1 then f.2.2 else f.1

/-- The entries of a package over the folds from index k on. Where an entry sends one relay flow and receives another, PARTNER is that of the flow sent: the manual gives the field one value (log entry 28). sent are the bytes granted so far per phase and destination. -/
def Plan.entriesGo (P : Plan) (D : Demand) (p : Nat) (late : Bool) : Nat → List Fold → List Nat → List (Nat × Nat × Nat) → List (List Byte)
  | _, [], _, _ => []
  | k, f :: fs, starts, sent =>
    let dst := (f.pairs.find? (fun x => x.1 == p)).map (·.2)
    let src := (f.pairs.find? (fun x => x.2 == p)).map (·.1)
    let dst := if late then none else dst
    let done (d : Nat) : Nat := ((sent.filter (fun x => x.1 == f.phase && x.2.1 == d)).map (·.2.2)).sum
    let budget := match dst with
      | none => 0
      | some d => min (f.len * 65536) (P.demandOf D f.phase p d - done d)
    let partner := match dst, src with
      | some d, _ => P.partner f.phase p d
      | none, some s => P.partner f.phase s p
      | none, none => 0
    let bits := (if f.phase = 2 then 64 else 0) + (if f.phase = 1 then 32 else 0) + (if src.isSome then 2 else 0) + (if dst.isSome then 1 else 0)
    let rest := P.entriesGo D p late (k + 1) fs (starts.drop 1) (match dst with
      | none => sent
      | some d => (f.phase, d, budget) :: sent)
    if dst.isNone ∧ src.isNone then rest
    else calEntry k (dst.getD 0) (src.getD 0) bits partner (starts.headD 0) (f.len * 200) budget :: rest

/-- The entries of a package, the circulant's last. -/
def Plan.entries (P : Plan) (D : Demand) (p : Nat) (late : Bool) : List (List Byte) :=
  let st := foldStarts 0 P.folds
  let snd := !late && (List.range 16).any (fun d => decide (0 < mget P.rest p d))
  let rcv := (List.range 16).any (fun s => decide (0 < mget P.rest s p))
  P.entriesGo D p late 0 P.folds st [] ++
    (if 0 < P.circ ∧ (snd || rcv) then [calEntry 255 0 0 (16 + (if rcv then 2 else 0) + (if snd then 1 else 0)) 0 (st.getLastD 0) (P.circ * 200) (if late then 0 else P.circ * 65536)] else [])

/-- A package's calendar: header and entries (R56). -/
def Plan.calendar (P : Plan) (D : Demand) (exid : Word) (base : Nat) (posted : BitVec 16) (p : Nat) (late acting : Bool) : List Byte :=
  let es := P.entries D p late
  natBytes 4 exid.toNat ++ natBytes 2 (P.folds.length + if 0 < P.circ then 1 else 0) ++ natBytes 2 es.length ++ natBytes 8 base
    ++ natBytes 8 (crc64 D.matrix).toNat ++ natBytes 2 posted.toNat
    ++ natBytes 2 ((if late then 1 else 0) + (if 0 < P.circ then 2 else 0) + (if P.folds.any (fun f => f.phase != 0) then 4 else 0) + (if acting then 8 else 0))
    ++ natBytes 4 P.endt ++ es.flatten

end Sys2Proof.Machine
end

