-- ==== Sys2Proof/Machine/Port.lean ====
section
/-! DEFINITION. The fabric ports: XPUT, XGET, DPOST and CMIGR from issue to their packets (R39, R40, R45, R58 to R60, R200, R388 to R391), and the windows of a calendar. prog 1 says that a command has begun; todo are the ranges to send as soon as may be, cuts those held for windows; acked counts acknowledged packets. -/

namespace Sys2Proof.Machine

/-! ## Issue -/

/-- The fabric port of the issuing core's die. -/
def portOf (s : State) : Eng := .port (dieOf (s.coreOf ⟨s.cur.launch, s.cur.wgid, 0⟩))

/-- REMOTE maps to a peer other than this package: its position (R388). -/
def State.remoteOf (s : State) (asid : Nat) (c : Cap) : Option Nat :=
  match s.entry asid c.obj.toNat with
  | none => none
  | some e => if e.typ = 5 ∧ e.peerPos ≠ s.pos then some e.peerPos else none

/-- COUNTER maps to the package that receives the data, 8-byte aligned, and its word can be translated or waited for (R39, R388). -/
def State.counterOk (s : State) (asid : Nat) (get : Bool) (pos : Nat) (c : Cap) : Bool :=
  c.base.toNat % 8 == 0 && (match s.entry asid c.obj.toNat with
    | none => false
    | some e => (if get then e.typ == 1 || e.paged else e.typ == 5 && e.peerPos == pos) &&
      (match s.xlatNow false ⟨asid, c.obj.toNat, c.base.toNat, 8, true, c.kind == 4#4⟩ with
        | .pa .. => true
        | .peer .. => true
        | .fault t => t == 0x0D1#12 || t == 0x0D2#12
        | _ => false))

/-- The checks of R388; a LOCAL that lies outside this package is not a local range. -/
def bulkCheck (get : Bool) (s : State) (_ : FibId) (L : Launch) (b : Block) : BitVec 8 :=
  let n := b.num 8 4
  let loc := b.cap 1
  let rem_ := b.cap 2
  let ctr := b.cap 3
  let here : Bool := loc.kind == 2#4 || (match s.entry L.asid loc.obj.toNat with
    | none => false
    | some e => e.typ == 1 || e.paged)
  firstCode [code36 (decide (1 < b.num 0 4) || (get && b.num 0 4 == 1) || (b.num 0 4 == 0 && b.num 4 4 != 0) || !b.zero 0x0C 4),
    capCode loc kData [if get then rW else rR] n, if here then 0 else 0x14#8,
    capCode rem_ [0] [if get then rR else rW] n,
    (match s.remoteOf L.asid rem_ with
      | none => 0x14#8
      | some pos => if (capCheck ctr kCell [rA] 0 8 1).isSome || !s.counterOk L.asid get pos ctr then 0x14#8 else 0)]

/-- The form of XPUT and XGET; an XPUT in exchange mode needs EXCH (R103). -/
def bulkForm (s : State) (get : Bool) (g : BitVec 5) (q : BitVec 4) (r : Bool) (sc : BitVec 3) : CmdForm :=
  { kind := if get then .xget else .xput, g := g.toNat, q := q.toNat, rel := r, scope := sc.toNat, eng := fun _ => portOf s, legal := fun _ L b => get || b.num 0 4 != 1 || L.accept.getLsbD 10,
    check := bulkCheck get, exps := fun _ _ _ => [], close := fun _ => none, limited := true }

/-- XPUT (R388). -/
def execXput (g : BitVec 5) (q c : BitVec 4) (x : BitVec 6) (r : Bool) (sc : BitVec 3) (s : State) : Host.Outcome State Fault Refusal :=
  s.engineInstr (.xput g q c x r sc) (bulkForm s false g q r sc) c x

/-- XGET (R388). -/
def execXget (g : BitVec 5) (q c : BitVec 4) (x : BitVec 6) (r : Bool) (sc : BitVec 3) (s : State) : Host.Outcome State Fault Refusal :=
  s.engineInstr (.xget g q c x r sc) (bulkForm s true g q r sc) c x

/-- The checks of R389 and codes 0x13 and 0x23 of R49. -/
def dpostCheck (g : Nat) (s : State) (id : FibId) (L : Launch) (b : Block) : BitVec 8 :=
  let dem := b.num 0 4
  let cal := b.num 4 4
  let mask : BitVec 16 := BitVec.ofNat 16 (b.num 0x0C 2)
  firstCode [code36 (decide (4194304 ≤ dem) || dem % 64 != 0 || decide (4194304 ≤ cal) || cal % 16 != 0 || decide (31 < b.num 0x0E 1) || b.num 0x0E 1 == g || !b.zero 0x0F 49),
    if L.sp * 65536 < dem + 128 ∨ L.sp * 65536 < cal + 4128 then 0x37#8 else 0,
    if s.scratchHurt id.launch id.wgid (fun x => decide (dem ≤ x) && decide (x < dem + 128)) then 0x13#8 else 0,
    if !mask.getLsbD s.pos || decide (((List.range 16).filter (fun q => mask.getLsbD q)).length < 2) then 0x23#8 else 0]

/-- The form of DPOST; it keeps the issue stamp (R45) among its sampled values. -/
def dpostForm (s : State) (g : BitVec 5) (q : BitVec 4) : CmdForm :=
  { kind := .dpost, g := g.toNat, q := q.toNat, rel := false, scope := 0, eng := fun _ => portOf s, legal := fun _ _ _ => true,
    check := dpostCheck g.toNat, exps := fun s _ _ => [(s.fabric : Int)], close := fun b => some (b.num 0x0E 1 % 32), limited := true }

/-- DPOST (R389). -/
def execDpost (g : BitVec 5) (q c : BitVec 4) (x : BitVec 6) (s : State) : Host.Outcome State Fault Refusal :=
  s.engineInstr (.dpost g q c x) (dpostForm s g q) c x

/-- The checks of R391. -/
def cmigrCheck (s : State) (_ : FibId) (_ : Launch) (b : Block) : BitVec 8 :=
  let k := b.cap 1
  firstCode [code36 (decide (15 < b.num 0 1) || b.num 0 1 == s.pos || !b.zero 1 1 || decide (4095 < b.num 2 2) || decide (0xFFFFF < b.num 4 4)
      || b.num 8 8 % 16 != 0 || decide (2 ^ 48 ≤ b.num 8 8) || !b.zero 0x20 32),
    if !k.tag ∨ k.kind ≠ 3#4 then 0x14#8 else 0, if !k.has [rM] then 0x12#8 else 0]

/-- CMIGR (R391). -/
def execCmigr (g q : BitVec 5) (c : BitVec 4) (x : BitVec 6) (m : BitVec 4) (s : State) : Host.Outcome State Fault Refusal :=
  s.engineInstr (.cmigr g q c x m)
    { kind := .cmigr, g := g.toNat, q := q.toNat, rel := m.getLsbD 3, scope := m.toNat % 8, eng := fun _ => portOf s, legal := fun _ _ _ => true,
      check := cmigrCheck, exps := fun _ _ _ => [], close := fun _ => none, limited := true } c x

/-! ## Calendars in use (R56 to R60) -/

/-- The DPOST of this package for an exchange, pending or completed with Error clear (R58). -/
def State.myExch (s : State) (x : Word) : Option MyExch := s.exchs.find? (fun e => e.exid == x && !e.failed)

/-- Change this package's part of an exchange, named by its DPOST command. -/
def State.modExch (s : State) (cmd : Nat) (f : MyExch → MyExch) : State :=
  { s with exchs := s.exchs.map (fun e => if e.cmd == cmd then f e else e) }

/-- A field of the calendar's header or entries. -/
def MyExch.cal (e : MyExch) (o n : Nat) : Nat := bytesNat (((e.calendar.getD []).drop o).take n)

/-- BASE, the end of the last fold in fabric time, and the posted set. -/
def MyExch.base (e : MyExch) : Nat := e.cal 8 8
def MyExch.endAt (e : MyExch) : Nat := e.base + e.cal 0x1C 4
def MyExch.posted (e : MyExch) : BitVec 16 := BitVec.ofNat 16 (e.cal 0x18 2)
def MyExch.isLate (e : MyExch) : Bool := e.cal 0x1A 2 % 2 == 1

/-- One window in which this package sends or receives: its number (fold, or 254 + k for slot k of the circulant), its bits, the package sent to and the one received from, the partner, and its times and budget. -/
structure Window where
  num : Nat
  send : Bool
  recv : Bool
  first : Bool
  second : Bool
  dest : Nat
  src : Nat
  partner : Nat
  start : Nat
  stop : Nat
  budget : Nat
  deriving DecidableEq, Repr

/-- The windows of a 16-byte entry; the circulant has fifteen slots (R54, R57). -/
def entryWindows (pos base : Nat) (bs : List Byte) : List Window :=
  let f (o n : Nat) : Nat := bytesNat ((bs.drop o).take n)
  let bits := f 2 1
  let start := base + f 4 4
  let dur := f 8 4
  let w : Window := ⟨f 0 1, bits % 2 == 1, bits / 2 % 2 == 1, bits / 32 % 2 == 1, bits / 64 % 2 == 1, f 1 1 / 16, f 1 1 % 16, f 3 1 % 16, start, start + dur, f 12 4⟩
  if bits / 16 % 2 == 1 then
    (List.range 15).map (fun k => { w with num := 255 + k, dest := (pos + k + 1) % 16, src := (pos + 15 - k) % 16,
                                           start := start + k * (dur + 40), stop := start + k * (dur + 40) + dur })
  else [w]

/-- The windows of this package in an exchange, in fold order; the slots to a position that is no member are left out (R54). -/
def State.windows (s : State) (e : MyExch) : List Window :=
  ((List.range (e.cal 6 2)).flatMap (fun k => entryWindows s.pos e.base (((e.calendar.getD []).drop (32 + 16 * k)).take 16))).filter (fun w =>
    w.num < 255 || e.mask.getLsbD w.dest)

/-- The destination whose bytes a sending window takes from this package's own commands; none for the second leg of a relay. -/
def Window.feeds (w : Window) : Option Nat := if !w.send || w.second then none else if w.first then some w.partner else some w.dest

/-- The exchange-mode commands to a destination that have begun, in the order in which they were issued. -/
def State.exchCmds (s : State) (x : Word) (d : Nat) : List Command :=
  s.cmds.filter (fun c => c.exch && c.num 4 4 == x.toNat && c.prog == 1 && c.st != .finished && s.remoteOf c.asid (c.cap 2) == some d)

/-- Take the first n bytes of a list of ranges: those taken and those left. -/
def takeBytes : Nat → List (Nat × Nat) → List (Nat × Nat) × List (Nat × Nat)
  | _, [] => ([], [])
  | n, (o, m) :: rest =>
    if n = 0 then ([], (o, m) :: rest)
    else if m ≤ n then ((o, m) :: (takeBytes (n - m) rest).1, (takeBytes (n - m) rest).2)
    else ([(o, n)], (o + n, m - n) :: rest)

/-- Bytes of a list of ranges. -/
def rangeBytes (rs : List (Nat × Nat)) : Nat := (rs.map (·.2)).sum

/-- Grant up to n of the held bytes of some commands, in their order: the state and what is left of n. -/
def State.grantTo (s : State) (cs : List Nat) (n : Nat) : State × Nat :=
  cs.foldl (fun (p : State × Nat) id =>
    match p.1.cmd id with
    | none => p
    | some c =>
      let t := takeBytes p.2 c.cuts
      if t.1 = [] then p
      else ((p.1.modCmd id (fun c => { c with win := c.win ++ t.1, cuts := t.2 })).poke 1 id, p.2 - rangeBytes t.1)) (s, n)

/-- What the windows to a destination that have not ended can still carry (R59). -/
def State.room (s : State) (e : MyExch) (d : Nat) : Nat :=
  (((s.windows e).filter (fun w => w.feeds == some d && decide (s.fabric < w.stop))).map (fun w =>
    match e.granted.find? (fun g => g.1 == w.num) with
    | none => w.budget
    | some g => g.2.2)).sum

/-- Bytes beyond that room are overflow: they are sent as soon as may be (R59). -/
def State.spillTo (s : State) (cs : List Nat) (room : Nat) : State :=
  (cs.foldl (fun (p : State × Nat) id =>
    match p.1.cmd id with
    | none => p
    | some c =>
      let t := takeBytes p.2 c.cuts
      ((if t.2 = [] then p.1 else (p.1.modCmd id (fun c => { c with todo := c.todo ++ t.2, cuts := t.1 })).poke 1 id), p.2 - rangeBytes t.1)) (s, room)).1

/-- Offer the windows in progress to the held bytes, and release what no window will carry (R58, R59). A calendar that has not landed holds everything. -/
def State.exchOffer (s : State) (x : Word) : State :=
  match s.myExch x with
  | none => s
  | some e =>
    if e.calendar.isNone then s
    else
      let s := s.over e.granted (fun s g =>
        let r := s.grantTo ((s.exchCmds x g.2.1).map (·.id)) g.2.2
        r.1.modExch e.cmd (fun e => { e with granted := e.granted.map (fun h => if h.1 == g.1 then (h.1, h.2.1, r.2) else h) }))
      match s.myExch x with
      | none => s
      | some e => s.over (List.range 16) (fun s d => s.spillTo ((s.exchCmds x d).map (·.id)) (s.room e d))

/-- Every held byte of an exchange becomes unscheduled (R58). -/
def State.exchRelease (s : State) (x : Word) : State := s.over (List.range 16) (fun s d => s.spillTo ((s.exchCmds x d).map (·.id)) 0)

/-- A DPOST of this package for an exchange is still in a queue or waits for its calendar. -/
def State.posting (s : State) (x : Word) : Bool := s.cmds.any (fun d => d.kind == .dpost && d.st != .finished && d.num 8 4 == x.toNat)

/-- Release the held bytes of an exchange for which this package has no DPOST left that is pending or has completed with Error clear (R58). -/
def State.exchFree (s : State) (x : Word) : State := if (s.myExch x).isSome || s.posting x then s else s.exchRelease x

/-- The bytes that a window has granted to a destination and that have not left go on as overflow, those in the transmit queue included (R58). -/
def State.windowOver (s : State) (x : Word) (d : Nat) : State :=
  s.over (s.exchCmds x d) (fun s c =>
    let mine := s.txs.filter (fun t => t.kind.isOf c.id)
    let s : State := { s with txq := s.txq.map (fun (k : Packet) => if mine.any (fun t => t.owns k) then { k with sched := false } else k) }
    if c.win = [] then s else (s.modCmd c.id (fun c => { c with todo := c.todo ++ c.win, win := [] })).poke 1 c.id)

/-! ## The transfers -/

/-- Packets of a command that are not answered. -/
def State.cmdTxs (s : State) (id : Nat) : List Tx := s.txs.filter (fun t => t.kind.isOf id)

/-- A bulk transfer begins: every byte is to be sent, or, in exchange mode with a DPOST of this package for the ID, held for the windows (R58). -/
def State.beginBulk (s : State) (c : Command) : State :=
  let all := if c.num 8 4 = 0 then [] else [(0, c.num 8 4)]
  let x : Word := BitVec.ofNat 32 (c.num 4 4)
  let held := c.exch && ((s.myExch x).isSome || s.posting x)
  let s := s.modCmd c.id (fun c => { c with prog := 1, todo := if held then [] else all, cuts := if held then all else [] })
  (if held then s.exchOffer x else s).poke 1 c.id

/-- The range of the next packet: it ends at a multiple of 512 of the destination's object offsets (R39). -/
def nextPacket (base : Nat) (r : Nat × Nat) : Nat := min r.2 (512 - (base + r.1) % 512)

/-- The command is stalled. -/
def Command.stalled (c : Command) : Bool :=
  match c.st with
  | .stalled .. => true
  | _ => false

/-- A range that may be sent now: a stall holds only the bytes at and above its faulting byte offset (R58). -/
def Command.mayGo (c : Command) (r : Nat × Nat) : Bool := !c.stalled || decide (r.1 < c.fault)

/-- The next range to send, and whether a window grants it: windows come before unscheduled bytes, so that overflow delays none (R59, R61). -/
def Command.nextRange (c : Command) : Option (Bool × (Nat × Nat)) :=
  let cut (r : Nat × Nat) : Nat × Nat := if c.stalled then (r.1, min r.2 (c.fault - r.1)) else r
  match c.win.find? c.mayGo with
  | some r => some (true, cut r)
  | none => (c.todo.find? c.mayGo).map (fun r => (false, cut r))

/-- The ranges without the first n bytes of the one that begins at an offset. -/
def sentFrom (off n : Nat) (rs : List (Nat × Nat)) : List (Nat × Nat) :=
  rs.flatMap (fun r => if r.1 ≠ off then [r] else if r.2 ≤ n then [] else [(r.1 + n, r.2 - n)])

/-- Insert a range by its offset. -/
def insertRange (r : Nat × Nat) : List (Nat × Nat) → List (Nat × Nat)
  | [] => [r]
  | x :: xs => if r.1 < x.1 then r :: x :: xs else x :: insertRange r xs

/-- Put a range back: its packet was refused or its place is not resident. -/
def State.putBack (s : State) (id off len : Nat) : State := s.modCmd id (fun c => { c with todo := insertRange (off, len) c.todo })

/-- All is sent: the commands behind may start, and with every packet answered the command ends. -/
def State.bulkSent (s : State) (c : Command) : State :=
  let s := if c.exch then s.serve c.eng else s
  if c.cuts = [] ∧ c.win = [] ∧ c.todo = [] ∧ s.cmdTxs c.id = [] then s.finish c.id 0 c.acked else s

/-- A command that is stalled already goes on below its faulting offset only; one that is not stalls at an offset (R58, R218). -/
def State.stallHere (s : State) (c : Command) (k : HamperKey) (off : Nat) : State := if c.stalled then s else s.stallAt c k off

/-- A packet of another 4 KiB piece of the destination range is not answered: the pieces are processed one at a time, so that a stall leaves every byte below it written and none above (R218). -/
def State.otherPiece (s : State) (id base off : Nat) : Bool :=
  (s.cmdTxs id).any (fun t => match t.kind with
    | .put _ o _ => (base + o) / 4096 != (base + off) / 4096
    | .get _ o _ => (base + o) / 4096 != (base + off) / 4096
    | _ => false)

/-- One packet of an XPUT (R39, R40, R218). -/
def State.putOne (s : State) (c : Command) (win : Bool) (r : Nat × Nat) : State :=
  let n := nextPacket (c.cap 2).base.toNat r
  let src := s.span c (c.cap 1) r.1 n false
  let ctr := s.span c (c.cap 3) 0 8 true
  if s.otherPiece c.id (c.cap 2).base.toNat r.1 then s
  else match src, s.span c (c.cap 2) r.1 n true, ctr with
  | .walk d a o p, _, _ => s.walkFor c d a o p
  | _, .walk d a o p, _ => s.walkFor c d a o p
  | _, _, .walk d a o p => s.walkFor c d a o p
  | .failed e, _, _ => s.finish c.id e c.acked
  | _, .failed e, _ => s.finish c.id e c.acked
  | _, _, .failed _ => s.finish c.id 0x14#8 c.acked
  | .lost a, _, _ => (s.logAddr c.asid a).finish c.id 0x13#8 c.acked
  | _, .lost a, _ => (s.logAddr c.asid a).finish c.id 0x13#8 c.acked
  | _, _, .lost a => (s.logAddr c.asid a).finish c.id 0x13#8 c.acked
  | .stall k, _, _ => s.stallHere c k r.1
  | _, .stall k, _ => s.stallHere c k r.1
  | _, _, .stall k => s.stallHere c k r.1
  | _, .peer pos pasid pobj o, .peer _ _ cobj co =>
    if (s.via pos).isNone then s.finish c.id 0x10#8 c.acked
    else if s.spanLatched false src then s.poke 10 c.id
    else if s.spanBad c src then (s.logSpan c src).finish c.id 0x13#8 c.acked
    else
      let p := { peerPacket 0x0B#5 pos pasid pobj o n 0 (s.spanRead c src) with cobj := BitVec.ofNat 20 cobj, coff := BitVec.ofNat 48 co, sched := win }
      match s.request p (.put c.id r.1 n) c.core (keyAt c.asid (c.cap 2).obj.toNat ((c.cap 2).base.toNat + r.1) true) with
      | none => s.poke 100 c.id
      | some (s, _) => ((s.modCmd c.id (fun c => if win then { c with win := sentFrom r.1 n c.win } else { c with todo := sentFrom r.1 n c.todo })).later 100000 (.fabricTimeout c.id)).poke 1 c.id
  | _, _, _ => s.finish c.id 0x14#8 c.acked

/-- A running XPUT takes its next step. -/
def State.stepXput (s : State) (c : Command) : State :=
  if c.prog = 0 then s.beginBulk c
  else match c.nextRange with
    | none => s.bulkSent c
    | some (win, r) => s.putOne c win r

/-- One request of an XGET (R39, R218). -/
def State.getOne (s : State) (c : Command) (r : Nat × Nat) : State :=
  let n := nextPacket (c.cap 1).base.toNat r
  if s.otherPiece c.id (c.cap 1).base.toNat r.1 then s
  else match s.span c (c.cap 1) r.1 n true, s.span c (c.cap 2) r.1 n false, s.span c (c.cap 3) 0 8 true with
  | .walk d a o p, _, _ => s.walkFor c d a o p
  | _, .walk d a o p, _ => s.walkFor c d a o p
  | _, _, .walk d a o p => s.walkFor c d a o p
  | .failed e, _, _ => s.finish c.id e c.acked
  | _, .failed e, _ => s.finish c.id e c.acked
  | _, _, .failed _ => s.finish c.id 0x14#8 c.acked
  | .lost a, _, _ => (s.logAddr c.asid a).finish c.id 0x13#8 c.acked
  | _, .lost a, _ => (s.logAddr c.asid a).finish c.id 0x13#8 c.acked
  | _, _, .lost a => (s.logAddr c.asid a).finish c.id 0x13#8 c.acked
  | .stall k, _, _ => s.stallHere c k r.1
  | _, .stall k, _ => s.stallHere c k r.1
  | _, _, .stall k => s.stallHere c k r.1
  | _, .peer pos pasid pobj o, _ =>
    if (s.via pos).isNone then s.finish c.id 0x10#8 c.acked
    else match s.request (peerPacket 0x0C#5 pos pasid pobj o n 0 []) (.get c.id r.1 n) c.core (keyAt c.asid (c.cap 2).obj.toNat ((c.cap 2).base.toNat + r.1) false) with
      | none => s.poke 100 c.id
      | some (s, _) => ((s.modCmd c.id (fun c => { c with todo := sentFrom r.1 n c.todo })).later 100000 (.fabricTimeout c.id)).poke 1 c.id
  | _, _, _ => s.finish c.id 0x14#8 c.acked

/-- A running XGET takes its next step. -/
def State.stepXget (s : State) (c : Command) : State :=
  if c.prog = 0 then s.beginBulk c
  else match c.nextRange with
    | none => s.bulkSent c
    | some (_, r) => s.getOne c r

/-! ## DPOST (R45, R49, R50) -/

/-- The Folding Table that acts: this one after a takeover, one heard to be acting, or the primary (R50, R65). -/
def State.ftHead (s : State) : Nat :=
  if s.ft.acting then s.pos
  else match s.ft.silenced with
    | some q => if s.reachable q then q else s.livePositions.headD s.pos
    | none => s.livePositions.headD s.pos

/-- The standby: the next live position after the acting Folding Table (R50, R65). -/
def State.ftNext (s : State) : Option Nat := s.livePositions.find? (fun q => decide (s.ftHead < q))

/-- Send exchange traffic to a position; to this package itself it arrives at once. -/
def State.exchSend (s : State) (q : Nat) (op : BitVec 8) (bs : List Byte) : State :=
  let p := { Packet.zero with kind := 0x0F#5, src := posF s.pos, dst := posF q, via := posF q, op := op, len := bs.length, payload := bs }
  if q = s.pos then { s with rxq := s.rxq ++ [p] } else s.send p

/-- The 144 bytes of a DPOST (R67). -/
def dpostBytes (demand : List Byte) (exid mask stamp : Nat) : List Byte := demand ++ natBytes 4 exid ++ natBytes 2 mask ++ natBytes 2 0 ++ natBytes 8 stamp

/-- A running DPOST: the demand vector is read and goes to the primary and the standby Folding Table; then it waits for a calendar. -/
def State.stepDpost (s : State) (c : Command) : State :=
  if c.prog = 1 then s
  else if s.scratchHurt c.launch c.wgid (fun x => decide (c.num 0 4 ≤ x) && decide (x < c.num 0 4 + 128)) then ((s.logScratch c.asid c.core).finish c.id 0x13#8 0).exchFree (BitVec.ofNat 32 (c.num 8 4))
  else
    let demand := (s.scratch c.launch c.wgid).read (c.num 0 4) 128
    let stamp := (c.exps.headD 0).toNat
    let x : Word := BitVec.ofNat 32 (c.num 8 4)
    let e : MyExch := { exid := x, cmd := c.id, launch := c.launch, wgid := c.wgid, g := c.g, closeG := c.num 0x0E 1, calOff := c.num 4 4, stamp := stamp,
                        mask := BitVec.ofNat 16 (c.num 0x0C 2), pieces := [], calendar := none, landed := false, failed := false, granted := [], closeSent := false,
                        closes := 0, closeDone := false, late := false, sentTo := [], seen := [] }
    let s := { s with exchs := e :: s.exchs.filter (fun y => !(y.exid == x && (y.failed || y.closeDone))) }
    let s := s.modCmd c.id (fun c => { c with prog := 1 })
    s.over (s.ftHead :: s.ftNext.toList) (fun s q => s.exchSend q 0x01#8 (dpostBytes demand x.toNat (c.num 0x0C 2) stamp))

/-! ## CMIGR (R200) -/

/-- The record of a CMIGR returns to LIVE. -/
def State.cmigrBack (s : State) (c : Command) : State :=
  let r := (c.cap 1).base.toNat / 1024
  let w := s.recWord c.asid r
  if recState w = stMigrating then s.setRecWord c.asid r (recSerial w) (recReply w) stLive else s

/-- The migration has failed. -/
def State.cmigrFail (s : State) (c : Command) (code : BitVec 8) : State := (s.cmigrBack c).finish c.id code 0

/-- The bytes of a segment and its granule tags. -/
def State.segBytes (s : State) (a n : Nat) : List Byte × List Bool :=
  match s.segPA a n with
  | none => (List.replicate 1024 0, List.replicate 64 false)
  | some pa => (s.rd (s.keyOf a) pa 1024, (List.range 64).map (fun k => s.mem.tag (pa + 16 * k)))

/-- The packets that carry a record and its segments: COFF is the byte's place, COBJ the number of captured segments. -/
def State.cmigPackets (s : State) (c : Command) (r : Nat) : List Packet :=
  let segs := r :: s.captured c.asid r
  ((List.range segs.length).zip segs).flatMap (fun k =>
    let b := s.segBytes c.asid k.2
    [0, 1].map (fun h => { peerPacket 0x10#5 (c.num 0 1) (c.num 2 2) (c.num 4 4) (c.num 8 8) 512 0 ((b.1.drop (512 * h)).take 512) with
                           cobj := BitVec.ofNat 20 (segs.length - 1), coff := BitVec.ofNat 48 (1024 * k.1 + 512 * h), gtags := (b.2.drop (32 * h)).take 32 }))

/-- A running CMIGR: the claim, then every packet under one tag; then it waits for the peer. -/
def State.stepCmigr (s : State) (c : Command) : State :=
  if c.prog = 1 then s
  else
    let k := c.cap 1
    let r := k.base.toNat / 1024
    let w := s.recWord c.asid r
    if s.isRecord c.asid r && recSerial w == k.len.toNat / 2 ^ 16 && recState w == stLive && recReply w == 1 then s.finish c.id 0x2A#8 0
    else match s.claim c.asid k stMigrating with
      | .error _ => s.finish c.id 0x28#8 0
      | .ok (r, s) =>
        if s.recBad c.asid r then (s.logRec c.asid r).cmigrFail c 0x13#8
        else if (s.via (c.num 0 1)).isNone then s.cmigrFail c 0x10#8
        else match s.cmigPackets c r with
          | [] => s.cmigrFail c 0x10#8
          | p :: ps =>
            match s.request p (.cmig c.id) c.core (keyAt c.asid (s.heapObj c.asid) k.base.toNat false) with
            | none => (s.cmigrBack c).poke 100 c.id
            | some (s, tag) =>
              let s := s.over ps (fun s p => s.sendMore (c.num 0 1) tag p)
              (s.modCmd c.id (fun c => { c with prog := 1, sent := r, count := ps.length / 2 })).later 100000 (.fabricTimeout c.id)

/-- The peer has taken the continuation: its segments and record return to the heap (R200 step 6). -/
def State.cmigrDone (s : State) (c : Command) : State :=
  let segs := c.sent :: s.captured c.asid c.sent
  (s.over segs (fun s n => s.giveSeg c.asid n)).finish c.id 0 segs.length

end Sys2Proof.Machine
end

