-- ==== Sys2Proof/Machine/Exchange.lean ====
section
/-! DEFINITION. The Folding Table and this package's part of an exchange: posts and their collection, calendars, windows, closes, heartbeats and failover (R44 to R67). -/

namespace Sys2Proof.Machine

/-! ## Received packets -/

/-- Take the packet at the head of the fabric's receive queue when it has this kind, and this sub-kind where one is given. -/
def State.recvFabric (s : State) (kind : BitVec 5) (op : Option (BitVec 8)) (f : Packet → State → State) : Host.Outcome State Fault Refusal :=
  match s.rxq with
  | p :: rest => .next (if p.kind = kind ∧ op.all (· == p.op) then f p { s with rxq := rest } else s)
  | [] => .next s

/-- A number of n bytes in a packet's payload. -/
def pnum (p : Packet) (o n : Nat) : Nat := bytesNat ((p.payload.drop o).take n)

/-! ## The Folding Table: who sends (R50, R51, R65) -/

/-- This Folding Table has heard an acting primary that is still live. -/
def State.ftSilenced (s : State) : Bool :=
  match s.ft.silenced with
  | none => false
  | some q => s.reachable q

/-- This Folding Table is the acting one: the primary, or a standby that has taken over. -/
def State.ftSends (s : State) : Bool := s.ftHead == s.pos

/-- This package is the standby. -/
def State.ftStandby (s : State) : Bool := s.ftNext == some s.pos

/-- Set FLAGS bit 3 of a calendar: issued by an acting primary. -/
def actingFlag (bs : List Byte) : List Byte := bs.set 0x1A (bs.getD 0x1A 0 ||| 8)

/-- Send a calendar in pieces (R67). -/
def State.sendCalendar (s : State) (q : Nat) (bs : List Byte) : State :=
  let bs := if s.ft.acting then actingFlag bs else bs
  s.over (List.range ((bs.length + 495) / 496)) (fun s k =>
    s.exchSend q 0x02#8 (bs.take 4 ++ natBytes 2 (496 * k) ++ natBytes 2 bs.length ++ (bs.drop 0x10).take 8 ++ (bs.drop (496 * k)).take 496))

/-- Tell a poster that its DPOST with this mask is refused (R49; the packet is the model's own, log entry 30). -/
def State.refusePost (s : State) (q : Nat) (exid : Word) (mask : BitVec 16) (code : BitVec 8) : State :=
  if !s.ftSends then s
  else
    let p := { Packet.zero with kind := 0x07#5, src := posF s.pos, dst := posF q, via := posF q, op := code, len := 6, payload := natBytes 4 exid.toNat ++ natBytes 2 mask.toNat }
    if q = s.pos then { s with rxq := s.rxq ++ [p] } else s.send p

/-! ## Collection (R46, R47) -/

/-- An exchange's last fold has ended. -/
def Exch.ended (e : Exch) (now : Nat) : Bool := e.closed && decide (e.base + e.endt ≤ now)

/-- The exchange that a DPOST for an ID belongs to: one in collection, or one whose last fold ended less than 10 ms ago (R47). -/
def State.exchOf (s : State) (x : Word) : Option Exch :=
  s.ft.exchs.find? (fun e => e.exid == x && (!e.closed || decide (s.fabric < e.base + e.endt + 10000000)))

/-- Change the exchange of an ID that exchOf names. -/
def State.modFt (s : State) (x : Word) (f : Exch → Exch) : State :=
  { s with ft := { s.ft with exchs := s.ft.exchs.map (fun e => if e.exid == x then f e else e) } }

/-- The DPOSTs held for an exchange, the one with the smallest stamp first, ties to the lower position (R49). -/
def Exch.leader (e : Exch) : Option Post :=
  e.posts.foldl (fun (m : Option Post) p => match m with
    | none => some p
    | some q => if p.stamp < q.stamp ∨ (p.stamp = q.stamp ∧ p.pos < q.pos) then some p else some q) none

/-- The calendar of an exchange for a position. -/
def Exch.calendarOf (e : Exch) (q : Nat) : List Byte := ((e.calendars.find? (fun c => c.1 == q)).map (·.2)).getD []

/-- Send the LATE calendar, or refuse a mask that is not the exchange's (R47, R49). -/
def State.answerLate (s : State) (e : Exch) (p : Post) : State :=
  if (e.leader.map (·.mask)) ≠ some p.mask then s.refusePost p.pos e.exid p.mask 0x21#8
  else if s.ftSends then s.sendCalendar p.pos (e.calendarOf p.pos) else s

/-- An empty exchange in collection. -/
def Exch.start (x : Word) (p : Post) : Exch := ⟨x, [p], p.stamp, false, 0, 0, 0, [], 0, [], [], 0, [], none⟩

/-- The close of a collection whose first issue is known, and the computation 5 µs after it (R46). -/
def State.atClose (s : State) (x : Word) (first : Nat) : State :=
  (s.atFabric (first + s.ft.window) (.collectionClose x)).atFabric (first + s.ft.window + 5000) (.collectionClose x)

/-- A DPOST reaches this Folding Table (R46 to R48). -/
def State.takePost (s : State) (x : Word) (p : Post) : State :=
  match s.exchOf x with
  | some e =>
    if e.closed then s.answerLate e p
    else
      let first := min e.first p.stamp
      (s.modFt x (fun e => { e with posts := e.posts ++ [p], first := first })).atClose x first
  | none =>
    if 8 ≤ (s.ft.exchs.filter (fun e => !e.ended s.fabric)).length then s.refusePost p.pos x p.mask 0x22#8
    else
      let keep := s.ft.exchs.filter (fun e => e.exid != x && !(e.closed && decide (e.base + e.endt + 10000000 ≤ s.fabric)))
      ({ s with ft := { s.ft with exchs := keep ++ [Exch.start x p] } }).atClose x p.stamp

/-- EXCHANGE_DPOST (R46). -/
def execExchangeDpost (s : State) : Host.Outcome State Fault Refusal :=
  s.recvFabric 0x0F#5 (some 0x01#8) (fun p s =>
    s.takePost (BitVec.ofNat 32 (pnum p 128 4)) ⟨p.src.val, pnum p 136 8, s.fabric, BitVec.ofNat 16 (pnum p 132 2), (List.range 16).map (fun q => pnum p (8 * q) 8)⟩)

/-! ## The computation (R48, R53) -/

/-- A position reports no working direct pair to another (R53). -/
def State.reportsNone (s : State) (a b : Nat) : Bool := if a = s.pos then !s.direct b else !(s.peer a).pairsTo.getLsbD b

/-- The intermediate of R41 from one position to another, given which positions are live and which pairs of them report no working link. -/
def interIn (live : List Nat) (none_ : Nat → Nat → Bool) (m q : Nat) : Option Nat :=
  ((List.range 15).map (fun k => (m + 1 + k) % 16)).find? (fun v => v != q && live.contains v && !none_ m v && !none_ v q)

/-- The intermediate of R41 as seen from any position. -/
def State.interOf (s : State) (m q : Nat) : Option Nat := interIn s.livePositions s.reportsNone m q

/-- What is so at the close of a collection: the live positions, and to which positions each reports no working pair (R46, R53). -/
def State.sampleNow (s : State) : List Nat × List (BitVec 16) :=
  (s.livePositions, (List.range 16).map (fun a => BitVec.ofNat 16 (((List.range 16).filter (fun b => s.reportsNone a b)).map (fun b => 2 ^ b)).sum))

/-- The positions that were live at an exchange's close. -/
def Exch.live (e : Exch) : List Nat := e.sample.elim [] (fun x => x.1)

/-- Failed(a, b) at an exchange's close (R53). -/
def Exch.failed (e : Exch) (a b : Nat) : Bool := ((e.sample.elim [] (fun x => x.2)).getD a 0).getLsbD b

/-- The posts that the calendar includes (R46 step 3, R49). -/
def Exch.included (e : Exch) (window : Nat) : List Post :=
  e.posts.filter (fun p => decide (p.stamp ≤ e.first + window) && decide (p.arrived < e.first + window + 5000) && (e.leader.map (·.mask)) == some p.mask)

/-- What the fold algorithm starts from. Of two DPOSTs of one member the one that arrived last counts: the manual names none (log entry 28). -/
def State.demandOf (s : State) (e : Exch) : Demand :=
  let mask := (e.leader.map (·.mask)).getD 0
  let inc := (e.included s.ft.window).reverse
  let post (q : Nat) : Option Post := inc.find? (fun p => p.pos == q)
  { members := fun q => mask.getLsbD q && e.live.contains q,
    posted := fun q => mask.getLsbD q && e.live.contains q && (post q).isSome,
    bytes := fun a b => match post a with
      | none => 0
      | some p => p.demand.getD b 0,
    failed := e.failed, inter := interIn e.live e.failed }

/-- Close the collection of an exchange: compute its calendars and, when this Folding Table is the acting one, send them (R46 to R50, R53). -/
def State.closeCollection (s : State) (e : Exch) : State :=
  let D := s.demandOf e
  let P := D.plan
  let posted : BitVec 16 := BitVec.ofNat 16 (((List.range 16).filter D.posted).map (2 ^ ·)).sum
  let before := ((s.ft.exchs.filter (fun x => x.closed && x.exid != e.exid)).map (fun x => x.base + x.endt)).foldl max 0
  let b0 := e.first + s.ft.window + 60000
  let base := if b0 - 40 < before then before + 40 else b0
  let e' := { e with closed := true, posted := posted, base := base, endt := P.endt, folds := P.folds, circ := P.circ, rest := P.rest, partner := P.flows,
                     crc := crc64 D.matrix, calendars := (List.range 16).map (fun q => (q, P.calendar D e.exid base posted q (!posted.getLsbD q) false)) }
  let s := s.modFt e.exid (fun x => if x.closed then x else e')
  s.over e.posts (fun s p =>
    if (e.leader.map (·.mask)) ≠ some p.mask then s.refusePost p.pos e.exid p.mask 0x21#8
    else if s.ftSends && s.livePositions.contains p.pos then s.sendCalendar p.pos (e'.calendarOf p.pos) else s)

/-- Collections that are due, in the order of R48: by first issue, then by ID. -/
def State.closeDueGo : Nat → State → State
  | 0, s => s
  | n + 1, s =>
    match (s.ft.exchs.filter (fun e => !e.closed && decide (e.first + s.ft.window + 5000 ≤ s.fabric))).foldl (fun (m : Option Exch) e => match m with
        | none => some e
        | some x => if e.first < x.first ∨ (e.first = x.first ∧ e.exid.toNat < x.exid.toNat) then some e else some x) none with
    | none => s
    | some e => closeDueGo n (s.closeCollection e)

/-- Take the sample of every collection whose close has come. -/
def State.takeSamples (s : State) : State :=
  { s with ft := { s.ft with exchs := s.ft.exchs.map (fun e =>
      if !e.closed && e.sample.isNone && decide (e.first + s.ft.window ≤ s.fabric) then { e with sample := some s.sampleNow } else e) } }

/-- COLLECTION_CLOSE (R46): at the close, what is live and what has failed is noted; 5 µs after it, when every post that counts has arrived, the calendars are computed. -/
def execCollectionClose (_exid : Word) (s : State) : Host.Outcome State Fault Refusal := .next (State.closeDueGo 8 s.takeSamples)

/-! ## This package's part: the calendar (R49, R58, R66) -/

/-- The gang of an exchange runs, so that its scratchpad is there (R145). -/
def State.exchRuns (s : State) (e : MyExch) : Bool :=
  match s.cmd e.cmd with
  | none => true
  | some c => s.cmdRuns c

/-- The calendar is written to the poster's scratchpad and the DPOST command ends (R49, R145). -/
def State.landCalendar (s : State) (e : MyExch) : State :=
  let bs := e.calendar.getD []
  let s := (s.modScratch e.launch e.wgid (fun m => m.write e.calOff bs)).scratchWrote e.launch e.wgid (fun b => decide (e.calOff ≤ b) && decide (b < e.calOff + bs.length))
  (s.modExch e.cmd (fun e => { e with landed := true })).finishOk e.cmd (if e.isLate then 1 else 0) (e.cal 6 2)

/-- A calendar with another CRC than the one in use is counted, once (R66). -/
def State.countMismatch (s : State) (e : MyExch) (crc : DWord) : State :=
  if e.cal 0x10 8 = crc.toNat ∨ e.seen.contains crc then s
  else { s.modExch e.cmd (fun e => { e with seen := crc :: e.seen }) with calMismatch := s.calMismatch + 1 }

/-- A window of this package that the agenda follows: one in which it sends, or, for a late poster, one in which it stores a first leg that no second leg of its own will carry (R47, R55). -/
def Window.timed (late : Bool) (w : Window) : Bool := w.send || (late && w.first && w.recv)

/-- The calendar is taken into use for a DPOST: its windows and closes are set going; the bytes of windows that have passed are overflow (R58, R63, R64). -/
def State.useCalendar (s : State) (cmd : Nat) (x : Word) (bs : List Byte) : State :=
  let s := s.modExch cmd (fun e => { e with calendar := some bs })
  match s.exchs.find? (fun e => e.cmd == cmd) with
  | none => s
  | some e =>
    let s := s.over (e.pieces.map (·.1)) (fun s crc => match s.exchs.find? (fun e => e.cmd == cmd) with
      | none => s
      | some e => s.countMismatch e crc)
    let s := s.modExch cmd (fun y => { y with late := e.isLate, pieces := [] })
    let s := if s.exchRuns e then s.landCalendar e else s
    let ws := (s.windows e).filter (Window.timed e.isLate)
    let s := s.over ws (fun s w =>
      if w.stop ≤ s.fabric then
        (match w.feeds with
          | none => s
          | some d => (s.grantTo ((s.exchCmds x d).map (·.id)) w.budget).1.windowOver x d)
      else (s.atFabric w.start (.foldWindowStart x w.num)).atFabric w.stop (.foldWindowEnd x w.num))
    let s := s.exchOffer x
    ((s.atFabric e.endAt (.closeSend x)).atFabric e.endAt (.lateCloseCompletion x)).atFabric (e.endAt + 100000) (.closeTimeout x)

/-- All pieces with one CRC have arrived: the calendar's bytes. -/
def assembled (ps : List (DWord × Nat × List Byte)) (crc : DWord) (total : Nat) : Option (List Byte) :=
  let mine := ps.filter (fun p => p.1 == crc)
  if total = 0 then none
  else if (List.range ((total + 495) / 496)).all (fun k => mine.any (fun p => p.2.1 == 496 * k)) then
    some (((List.range ((total + 495) / 496)).flatMap (fun k => ((mine.find? (fun p => p.2.1 == 496 * k)).map (·.2.2)).getD [])).take total)
  else none

/-- A calendar piece for one DPOST: kept until all have come, and counted when a calendar with another CRC is in use (R66). -/
def State.takePiece (s : State) (e : MyExch) (x : Word) (p : Packet) : State :=
  let crc : DWord := BitVec.ofNat 64 (pnum p 8 8)
  if e.calendar.isSome then s.countMismatch e crc
  else
    let ps := e.pieces ++ [(crc, pnum p 4 2, p.payload.drop 16)]
    let s := s.modExch e.cmd (fun e => { e with pieces := ps })
    match assembled ps crc (pnum p 6 2) with
    | none => s
    | some bs => s.useCalendar e.cmd x bs

/-- CALENDAR (R66): a piece goes to every DPOST for the ID that is pending, and where none is, to the one whose calendar is in use. -/
def execCalendar (s : State) : Host.Outcome State Fault Refusal :=
  s.recvFabric 0x0F#5 (some 0x02#8) (fun p s =>
    let x : Word := BitVec.ofNat 32 (pnum p 0 4)
    let mine := s.exchs.filter (fun e => e.exid == x && !e.failed)
    let pending := mine.filter (·.calendar.isNone)
    s.over (if pending = [] then mine.take 1 else pending) (fun s e => s.takePiece e x p))

/-- The DPOST of an exchange has failed: both tokens take the code, and its held bytes are sent unscheduled (R49, R58). -/
def State.failPost (s : State) (e : MyExch) (code : BitVec 8) : State :=
  ((s.modExch e.cmd (fun e => { e with failed := true, closeDone := true })).finish e.cmd code 0).exchFree e.exid

/-- DPOST_TIMEOUT (R49): a DPOST for the ID without a calendar W + 200 µs after its issue stamp ends, in a queue still or sent. -/
def execDpostTimeout (exid : Word) (s : State) : Host.Outcome State Fault Refusal :=
  let due (stamp : Nat) : Bool := decide (stamp + s.ft.window + 200000 ≤ s.fabric)
  let t := s.over (s.exchs.filter (fun e => e.exid == exid && !e.failed && e.calendar.isNone && due e.stamp)) (fun s e => s.failPost e 0x20#8)
  .next (t.over (t.cmds.filter (fun c => c.kind == .dpost && c.st != .finished && c.prog == 0 && c.num 8 4 == exid.toNat && due (c.exps.headD 0).toNat)) (fun s c =>
    (s.finish c.id 0x20#8 0).exchFree exid))

/-! ## Windows (R54, R55, R58 to R62) -/

/-- A window of this package by number, among those that the agenda follows. -/
def State.windowOf (s : State) (x : Word) (num : Nat) : Option (MyExch × Window) :=
  (s.myExch x).bind (fun e => ((s.windows e).find? (fun w => w.num == num && w.timed e.isLate)).map (fun w => (e, w)))

/-- Packets of a relay flow that this package stores: those that a second leg sends on, or, where it has none, that a first leg brings. -/
def Window.stored (w : Window) (p : Packet) : Bool :=
  if w.send then p.src.val == w.partner && p.dst.val == w.dest else p.src.val == w.src && p.dst.val == w.partner

/-- Forward stored packets, up to a number of bytes, in a window or as unscheduled traffic (R55, R61). -/
def State.forwardGo (win : Bool) : Nat → List Packet → State → State
  | _, [], s => s
  | n, p :: ps, s =>
    if n < p.len then s
    else forwardGo win (n - p.len) ps { s with relay := s.relay.erase p, txq := s.txq ++ [{ p with hop2 := true, vc := true, sched := win }] }

/-- FOLD_WINDOW_START (R58): the window's budget is granted to the bytes held for its destination, or a second leg leaves the relay store. -/
def execFoldWindowStart (exid : Word) (fold : Nat) (s : State) : Host.Outcome State Fault Refusal :=
  .next (match s.windowOf exid fold with
    | none => s
    | some (e, w) =>
      if !w.send ∨ s.fabric < w.start ∨ w.stop ≤ s.fabric ∨ (w.dest ≠ s.pos ∧ !s.reachable w.dest) ∨ e.granted.any (fun g => g.1 == w.num) then s
      else match w.feeds with
        | none => State.forwardGo true w.budget (s.relay.filter w.stored) s
        | some d => (s.modExch e.cmd (fun e => { e with granted := e.granted ++ [(w.num, d, w.budget)] })).exchOffer exid)

/-- FOLD_WINDOW_END (R58): what the window granted and has not sent goes on as overflow; what it did not grant it loses. Relay bytes left over are sent on as they are (R44). -/
def execFoldWindowEnd (exid : Word) (fold : Nat) (s : State) : Host.Outcome State Fault Refusal :=
  .next (match s.windowOf exid fold with
    | none => s
    | some (e, w) =>
      match w.feeds with
      | none =>
        let ps := s.relay.filter w.stored
        State.forwardGo false ((ps.map (·.len)).sum) ps { s with txq := s.txq.map (fun (p : Packet) => if p.hop2 && w.stored p then { p with sched := false } else p) }
      | some d => ((s.modExch e.cmd (fun e => { e with granted := e.granted.filter (fun g => g.1 != w.num) })).windowOver exid d).exchOffer exid)

/-- A relayed packet is kept in the relay store (R55): a first leg from its source to this package has begun, and a second leg of this package that carries it on has not; a late poster, which has no second legs, keeps what its entry names until that first leg ends. The manual does not say how an intermediate knows a relay flow's packets from other detoured ones: the model goes by KIND, SRC, DST and time (log entry 28). -/
def State.relayWindow (s : State) (p : Packet) : Bool :=
  s.exchs.any (fun e => !e.failed && e.calendar.isSome &&
    (let ws := s.windows e
     ws.any (fun w => w.first && w.recv && w.src == p.src.val && decide (w.start ≤ s.fabric) &&
       (match ws.find? (fun v => v.second && v.send && v.stored p) with
         | some v => decide (s.fabric < v.start)
         | none => e.isLate && w.partner == p.dst.val && decide (s.fabric < w.stop)))))

/-- A received packet came in a window: a PUT from the package from which a window in progress receives (R58, R61). -/
def State.rxSched (s : State) (p : Packet) : Bool :=
  p.kind == 0x0B#5 && s.exchs.any (fun e => !e.failed && e.calendar.isSome && (s.windows e).any (fun w =>
    w.recv && w.src == p.src.val && decide (w.start ≤ s.fabric) && decide (s.fabric < w.stop)))

/-- Add a received packet to the receive queue: a scheduled one goes ahead of the unscheduled ones of other packages (R61). -/
def State.rxAdd (s : State) (p : Packet) : State :=
  if s.rxSched p then
    let back := (s.rxq.reverse.takeWhile (fun x => x.src != p.src && !s.rxSched x)).length
    { s with rxq := s.rxq.take (s.rxq.length - back) ++ p :: s.rxq.drop (s.rxq.length - back) }
  else { s with rxq := s.rxq ++ [p] }

/-! ## Closes (R63, R64) -/

/-- A peer is live and some path reaches it; one that no path reaches counts as dead (R41). -/
def State.alive (s : State) (q : Nat) : Bool := s.reachable q && (s.via q).isSome

/-- Some exchange-mode XPUT for the ID is not fully acknowledged. -/
def State.exchBusy (s : State) (x : Word) : Bool := s.cmds.any (fun c => c.exch && c.num 4 4 == x.toNat && c.st != .finished)

/-- CLOSE_SEND (R63). -/
def execCloseSend (exid : Word) (s : State) : Host.Outcome State Fault Refusal :=
  .next (match s.myExch exid with
    | none => s
    | some e =>
      if e.calendar.isNone || e.closeSent || decide (s.fabric < e.endAt) || s.exchBusy exid then s
      else
        let s := s.modExch e.cmd (fun e => { e with closeSent := true })
        s.over ((List.range 16).filter (fun q => e.posted.getLsbD q && q != s.pos)) (fun s q =>
          s.exchSend q 0x03#8 (natBytes 4 exid.toNat ++ natBytes 4 0 ++ natBytes 8 (((e.sentTo.filter (fun t => t.1 == q)).map (·.2)).sum))))

/-- The members whose closes are awaited (R64): the posted set but for this package; none for a late poster. -/
def MyExch.awaited (e : MyExch) (pos : Nat) : List Nat := if e.isLate then [] else (List.range 16).filter (fun q => e.posted.getLsbD q && q != pos)

/-- Complete the close token (R64): Count is the closes received; reading the token acquires at node scope. -/
def State.closeToken (s : State) (e : MyExch) (code : BitVec 8) : State :=
  let n := ((e.awaited s.pos).filter (fun q => e.closes.getLsbD q)).length
  ((s.modExch e.cmd (fun e => { e with closeDone := true })).completeToken e.launch e.wgid e.closeG 4 (code != 0) code n false).endWaits (fun w => w == .queue)

/-- Complete the close token if nothing is missing and BASE + END has passed (R64). -/
def State.closeCheck (s : State) (e : MyExch) : State :=
  if e.failed || e.closeDone || e.calendar.isNone || decide (s.fabric < e.endAt) then s
  else
    let missing := (e.awaited s.pos).filter (fun q => !e.closes.getLsbD q)
    if missing.any s.alive then s
    else s.closeToken e (if missing = [] then 0 else 0x10#8)

/-- CLOSE (R64). -/
def execClose (s : State) : Host.Outcome State Fault Refusal :=
  s.recvFabric 0x0F#5 (some 0x03#8) (fun p s =>
    let x : Word := BitVec.ofNat 32 (pnum p 0 4)
    let s : State := { s with exchs := s.exchs.map (fun (e : MyExch) => if e.exid == x && !e.failed then { e with closes := e.closes ||| ((1 : BitVec 16) <<< p.src.val) } else e) }
    s.over (s.exchs.filter (fun e => e.exid == x)) State.closeCheck)

/-- LATE_CLOSE_COMPLETION (R64): at BASE + END. -/
def execLateCloseCompletion (exid : Word) (s : State) : Host.Outcome State Fault Refusal :=
  .next (s.over (s.exchs.filter (fun e => e.exid == exid)) State.closeCheck)

/-- CLOSE_TIMEOUT (R64): 100 µs after the later of BASE + END and a missing live member's last packet. -/
def execCloseTimeout (exid : Word) (s : State) : Host.Outcome State Fault Refusal :=
  .next (s.over (s.exchs.filter (fun e => e.exid == exid)) (fun s e =>
    if e.failed || e.closeDone || e.calendar.isNone then s
    else
      let missing := (e.awaited s.pos).filter (fun q => !e.closes.getLsbD q && s.alive q)
      let dues := missing.map (fun q => max e.endAt ((s.peer q).lastPkt - s.epoch) + 100000)
      if dues.any (fun d => decide (d ≤ s.fabric)) then s.closeToken e 0x15#8
      else match dues with
        | [] => s.closeCheck e
        | d :: ds => s.atFabric (ds.foldl min d) (.closeTimeout exid)))

/-- A member has died (R62, R64): its closes are no longer awaited, and relay bytes held for it are dropped. -/
def State.exchPeerDead (s : State) (q : Nat) : State :=
  let s := { s with relay := s.relay.filter (fun p => p.dst.val != q) }
  s.over s.exchs (fun s e => s.closeCheck e)

/-! ## Heartbeats and failover (R51, R65) -/

/-- The Folding Table heartbeat message (R51). -/
def heartbeatMsg (role : Nat) (seq : BitVec 12) : Sideband := ⟨7, BitVec.ofNat 16 (role * 2 ^ 14 + seq.toNat)⟩

/-- Send a heartbeat on every working pair. -/
def State.beatOut (s : State) (role : Nat) : State :=
  let seq := s.ft.seq + 1
  let s := { s with ft := { s.ft with seq := seq } }
  s.over ((List.range 16).filter (fun q => q != s.pos)) (fun s q => (s.sbTo q (heartbeatMsg role seq)).1)

/-- HEARTBEAT_SEND (R51): every 10 µs, by the primary, the acting primary or the standby. -/
def execHeartbeatSend (s : State) : Host.Outcome State Fault Refusal :=
  let out := if s.ftSilenced then s
    else if s.ft.acting then s.beatOut 1
    else if s.livePositions.head? = some s.pos then s.beatOut 0
    else if s.ftStandby then s.beatOut 2
    else s
  .next (out.later 10000 .heartbeatSend)

/-- Take the sideband message at the head of the receive queue when it has this type; src is the position at the pair's other end. -/
def State.recvSideband (s : State) (type : Nat) (f : Nat → Nat → Sideband → State → State) : Host.Outcome State Fault Refusal :=
  match s.sbRx with
  | (pair, lane, m) :: rest => .next (if m.type.toNat = type then f pair lane m { s with sbRx := rest } else s)
  | [] => .next s

/-- FOLDING_TABLE_HEARTBEAT (R51, R65). -/
def execFoldingTableHeartbeat (s : State) : Host.Outcome State Fault Refusal :=
  s.recvSideband 7 (fun pair _ m s =>
    let role := m.body.toNat / 2 ^ 14
    match peerOfPair s.pos pair with
    | none => s
    | some q =>
      if 2 ≤ role then s
      else
        let s := { s with ft := { s.ft with lastPrimary := s.ticks, silenced := if role = 1 then some q else s.ft.silenced, acting := if role = 1 then false else s.ft.acting } }
        s.later 30000 .standbyTakeover)

/-- The standby's calendars of an exchange that is computed go to every live member, and a poster whose mask differs is told so (R49, R65). -/
def State.resendCalendars (s : State) (e : Exch) : State :=
  let mask := (e.leader.map (·.mask)).getD 0
  let s := s.over (s.livePositions.filter (fun q => mask.getLsbD q)) (fun s q => s.sendCalendar q (e.calendarOf q))
  s.over (e.posts.filter (fun p => p.mask != mask)) (fun s p => s.refusePost p.pos e.exid p.mask 0x21#8)

/-- STANDBY_TAKEOVER (R65). -/
def execStandbyTakeover (s : State) : Host.Outcome State Fault Refusal :=
  .next (
    if s.ft.acting || !s.ftStandby || decide (s.ticks < s.ft.lastPrimary + 30000) then s
    else
      let s := ({ s with ft := { s.ft with acting := true, silenced := none } }).beatOut 1
      s.over (s.ft.exchs.filter (fun e => e.closed && !e.ended s.fabric)) State.resendCalendars)

end Sys2Proof.Machine
end

