-- ==== Sys2Proof/Machine/Lanes.lean ====
section
/-! DEFINITION. The lanes of the optical pairs: flits and packet headers (R29, R79, R84), codewords with go-back-N replay (R25), the delivery of packets (R26, R30), and failed pairs and spares (R16, R26). -/

namespace Sys2Proof.Machine

/-! ## Flits -/

/-- Bytes as 32-byte flits. -/
def flitsOf (bs : List Byte) : List (BitVec 256) :=
  (List.range ((bs.length + 31) / 32)).map (fun k => BitVec.ofNat 256 (bytesNat ((bs.drop (32 * k)).take 32)))

/-- The bytes of flits. -/
def flitBytes (fs : List (BitVec 256)) : List Byte := fs.flatMap (fun f => natBytes 32 f.toNat)

/-- One bit as a number. -/
def bitNum (b : Bool) : Nat := if b then 1 else 0

/-- A fabric packet of this kind carries no payload and asks for a number of bytes, which stands in COFF, LEN being 0 (R29; log entry 30). -/
def noPayload (kind : BitVec 5) : Bool := kind == 0x01#5 || kind == 0x0C#5

/-- A header flit with these fields in the places of LEN, OP and COFF (R29). -/
def flitWith (p : Packet) (len op coff : Nat) : BitVec 256 :=
  BitVec.ofNat 256 (p.kind.toNat + p.src.val * 2 ^ 5 + p.dst.val * 2 ^ 9 + p.via.val * 2 ^ 13 + bitNum p.hop2 * 2 ^ 17 + bitNum p.vc * 2 ^ 18 + bitNum p.rcok * 2 ^ 19
    + len % 1024 * 2 ^ 20 + bitNum p.epoch * 2 ^ 30 + bitNum p.replay * 2 ^ 31 + p.asid.toNat * 2 ^ 32 + p.tag.toNat * 2 ^ 44 + op % 256 * 2 ^ 56
    + p.obj.toNat * 2 ^ 64 + p.off.toNat * 2 ^ 88 + p.cobj.toNat * 2 ^ 136 + coff % 2 ^ 48 * 2 ^ 156)

/-- The packet of a header flit and payload bytes, every field as it stands (R29). -/
def rawPacket (f : BitVec 256) (pay : List Byte) : Packet :=
  let x := f.toNat
  { kind := BitVec.ofNat 5 x, src := posF (bitsOf x 5 4), dst := posF (bitsOf x 9 4), via := posF (bitsOf x 13 4), hop2 := bitsOf x 17 1 == 1, vc := bitsOf x 18 1 == 1,
    rcok := bitsOf x 19 1 == 1, len := bitsOf x 20 10, epoch := bitsOf x 30 1 == 1, replay := bitsOf x 31 1 == 1, asid := BitVec.ofNat 12 (bitsOf x 32 12),
    tag := BitVec.ofNat 12 (bitsOf x 44 12), op := BitVec.ofNat 8 (bitsOf x 56 8), obj := BitVec.ofNat 20 (bitsOf x 64 20), off := BitVec.ofNat 48 (bitsOf x 88 48),
    cobj := BitVec.ofNat 20 (bitsOf x 136 20), coff := BitVec.ofNat 48 (bitsOf x 156 48), payload := pay, gtags := [], sched := false }

/-- The header flit of a fabric packet (R29). A CMIG packet has its granule tags and the low bits of its place, in units of 512 bytes, in COFF, and the place's high bits in OP (log entry 30). -/
def headerFlit (p : Packet) : BitVec 256 :=
  if noPayload p.kind then flitWith p 0 p.op.toNat p.len
  else if p.kind = 0x10#5 then
    flitWith p p.len (p.coff.toNat / 512 / 2 ^ 16) (((p.gtags.take 32).foldr (fun b n => bitNum b + 2 * n) 0) * 2 ^ 16 + p.coff.toNat / 512 % 2 ^ 16)
  else flitWith p p.len p.op.toNat p.coff.toNat

/-- The fabric packet of a header flit and payload bytes. -/
def headerPacket (f : BitVec 256) (pay : List Byte) : Packet :=
  let p := rawPacket f pay
  if noPayload p.kind then { p with len := p.coff.toNat, coff := 0 }
  else if p.kind = 0x10#5 then
    { p with op := 0, coff := BitVec.ofNat 48 ((p.op.toNat * 2 ^ 16 + p.coff.toNat % 2 ^ 16) * 512), gtags := (List.range 32).map (fun k => p.coff.getLsbD (16 + k)) }
  else p

/-- A tray-link packet of this kind carries no payload. -/
def noTrayPayload (kind : BitVec 5) : Bool := kind == 0x01#5 || kind == 0x05#5

/-- A tray-link LEN of 1,024 stands as 0 in ten bits (log entry 30). -/
def trayLen (kind : BitVec 5) (n : Nat) : Nat :=
  if n = 0 ∧ (kind = 0x01#5 ∨ kind = 0x02#5 ∨ kind = 0x03#5 ∨ kind = 0x05#5 ∨ kind = 0x06#5 ∨ kind = 0x07#5) then 1024 else n

/-- CRC-32C, one bit. -/
def crc32cBit (c : Word) : Word := if c.getLsbD 0 then (c >>> 1) ^^^ 0x82F63B78#32 else c >>> 1

/-- CRC-32C of bytes. -/
def crc32c (bs : List Byte) : Word :=
  ~~~(bs.foldl (fun c b => (List.range 8).foldl (fun c _ => crc32cBit c) (c ^^^ b.setWidth 32)) 0xFFFFFFFF#32)

/-- The 64 header bytes of a scale-out packet with a given CRC field (R79). -/
def soHeader (p : SoPacket) (crc : Word) : List Byte :=
  [p.kind, p.flags] ++ natBytes 2 p.payload.length ++ natBytes 4 p.dstEp.toNat ++ natBytes 4 p.srcEp.toNat ++ natBytes 2 p.dstCon.toNat ++ natBytes 2 p.srcCon.toNat
    ++ natBytes 4 p.psn.toNat ++ natBytes 4 p.msn.toNat ++ natBytes 4 p.moff.toNat ++ natBytes 4 p.mlen.toNat ++ natBytes 4 p.ackpsn.toNat ++ natBytes 4 0
    ++ natBytes 8 p.sack.toNat ++ natBytes 4 crc.toNat ++ natBytes 12 0

/-- The CRC of a scale-out packet: over the header with the field zero, and the payload. -/
def soCrc (p : SoPacket) : Word := crc32c (soHeader p 0 ++ p.payload)

/-- The scale-out packet of its bytes. -/
def soOf (bs : List Byte) : SoPacket :=
  let f (o n : Nat) : Nat := bytesNat ((bs.drop o).take n)
  { kind := bs.getD 0 0, flags := bs.getD 1 0, dstEp := BitVec.ofNat 32 (f 4 4), srcEp := BitVec.ofNat 32 (f 8 4), dstCon := BitVec.ofNat 16 (f 12 2),
    srcCon := BitVec.ofNat 16 (f 14 2), psn := BitVec.ofNat 32 (f 0x10 4), msn := BitVec.ofNat 32 (f 0x14 4), moff := BitVec.ofNat 32 (f 0x18 4),
    mlen := BitVec.ofNat 32 (f 0x1C 4), ackpsn := BitVec.ofNat 32 (f 0x20 4), sack := BitVec.ofNat 64 (f 0x28 8), crc := BitVec.ofNat 32 (f 0x30 4),
    payload := (bs.drop 64).take (f 2 2) }

/-! ## What a pair is used for (R14, R68, R84) -/

/-- The use of an optical pair. -/
inductive PairUse where
  | fabric (peer : Nat)
  | port (n : Nat)
  | tray (k : Nat)
  | spare
  deriving DecidableEq, Repr

/-- The use of a pair of this package; a failed pair's number stays with the spare that takes it over (R16). -/
def State.pairUse (s : State) (p : Nat) : PairUse :=
  match peerOfPair s.pos p, (List.range 13).find? (fun k => portPair k == p), (List.range 4).find? (fun k => trayPair k == p) with
  | some q, _, _ => .fabric q
  | _, some k, _ => .port k
  | _, _, some k => .tray k
  | _, _, _ => .spare

/-- The flits of a fabric packet. -/
def packetFlits (p : Packet) : List (BitVec 256) := headerFlit p :: flitsOf p.payload

/-- The flits of a tray-link packet, whose LEN is as R84 gives it. -/
def trayFlits (p : Packet) : List (BitVec 256) := flitWith p p.len p.op.toNat p.coff.toNat :: flitsOf p.payload

/-- The port that carries a connection: c mod 13, or the next working one (R79). -/
def State.soPort (s : State) (c : Nat) : Option Nat := ((List.range 13).map (fun k => (c + k) % 13)).find? (fun k => (s.pair (portPair k)).works)

/-- A tray link's state. -/
def State.trayOf (s : State) (k : Nat) : TrayLink := s.tray.getD k ⟨false, [], []⟩

/-- Replace a tray link's state. -/
def State.setTray (s : State) (k : Nat) (t : TrayLink) : State := { s with tray := s.tray.set k t }

/-- The next package that a fabric packet goes to. -/
def State.hop (s : State) (p : Packet) : Nat := if p.via.val = s.pos then p.dst.val else p.via.val

/-- A packet leaves: one that goes by an intermediate is kept for 100 µs, in case the intermediate dies with it (R42). -/
def State.leaves (s : State) (k : Packet) : State :=
  let s := { s with txq := s.txq.erase k }
  if k.hop2 ∨ k.via = k.dst then s
  else { s with detoured := s.detoured.filter (fun x => decide (s.ticks < x.1 + 100000)) ++ [(s.ticks, k)] }

/-- The next packet that a pair may send, as flits: on a fabric pair one for which it holds credit (R31), scheduled packets first (R61). -/
def State.takeNext (s : State) (p : Nat) : Option (List (BitVec 256) × State) :=
  match s.pairUse p with
  | .fabric q =>
    let v := s.pair p
    let ok (k : Packet) : Bool := s.hop k == q && decide ((packetFlits k).length ≤ (if k.vc then v.credit1 else v.credit0))
    match (s.txq.find? (fun k => k.sched && ok k)).orElse (fun _ => s.txq.find? ok) with
    | none => none
    | some k =>
      let n := (packetFlits k).length
      some (packetFlits k, (s.leaves k).setPair p (if k.vc then { v with credit1 := v.credit1 - n } else { v with credit0 := v.credit0 - n }))
  | .port n =>
    match s.soTx.find? (fun k => s.soPort k.srcCon.toNat == some n) with
    | none => none
    | some k => some (flitsOf (soHeader k (soCrc k) ++ k.payload), { s with soTx := s.soTx.erase k })
  | .tray n =>
    match (s.trayOf n).txq with
    | [] => none
    | k :: rest => some (trayFlits k, s.setTray n { (s.trayOf n) with txq := rest })
  | .spare => none

/-! ## Lanes -/

/-- A lane of a pair. -/
def Pair.lane (v : Pair) (l : Nat) : Option Lane := (v.lanes.find? (fun x => x.1 == l)).map (·.2)

/-- Change a lane of a pair. -/
def State.modLane (s : State) (p l : Nat) (f : Lane → Lane) : State :=
  let v := s.pair p
  s.setPair p { v with lanes := v.lanes.map (fun x => if x.1 == l then (x.1, f x.2) else x) }

/-- Queue a sideband message on the first lane of a pair. -/
def State.sbOn (s : State) (p : Nat) (m : Sideband) : State :=
  let v := s.pair p
  s.setPair p { v with lanes := match v.lanes with
    | [] => []
    | x :: rest => (x.1, { x.2 with sbQ := x.2.sbQ ++ [m] }) :: rest }

/-- Have at least twenty flits wait at a lane, as far as there are packets. -/
def State.feedLane (p l : Nat) : Nat → State → State
  | 0, s => s
  | n + 1, s =>
    match (s.pair p).lane l with
    | none => s
    | some y =>
      if 20 ≤ y.txFlits.length then s
      else match s.takeNext p with
        | none => s
        | some (fs, s) =>
          let seq := (y.nextSeq.toNat + (y.txFlits.length + fs.length - 1) / 20) % 4096
          feedLane p l n (s.modLane p l (fun y => { y with txFlits := y.txFlits ++ fs, carried := y.carried ++ [(seq, fs)] }))

/-- LANE_CODEWORD_SEND (R25): a codeword that the receiver has asked for again, else the next twenty flits and one sideband message. -/
def execLaneCodewordSend (pair : Fin 64) (lane : Fin 16) (s : State) : Host.Outcome State Fault Refusal :=
  let p := pair.val
  let l := lane.val
  .next (match (s.pair p).lane l with
    | none => s
    | some y =>
      if !y.locked || (s.pair p).failedNow then s
      else
        let s := if y.replay.any (·.replay) then
            s.modLane p l (fun y => match y.replay.find? (·.replay) with
              | none => y
              | some c => { y with replay := y.replay.map (fun d => if d.seq == c.seq then { d with replay := false } else d) })
          else (State.feedLane p l 20 s).modLane p l (fun y =>
            { y with nextSeq := y.nextSeq + 1, txFlits := y.txFlits.drop 20, sbQ := y.sbQ.drop 1,
                     replay := y.replay ++ [⟨y.nextSeq, false, y.txFlits.take 20, y.sbQ.headD ⟨0, 0⟩⟩] })
        s.later 85 (.laneCodewordSend pair lane))

/-- LANE_ACKNOWLEDGEMENT (R25). -/
def execLaneAcknowledgement (s : State) : Host.Outcome State Fault Refusal :=
  s.recvSideband 1 (fun pair _ m s =>
    s.modLane pair (m.body.toNat / 4096) (fun y =>
      let seq : BitVec 12 := m.body.setWidth 12
      if !y.replay.any (fun c => c.seq == seq) then y
      else
        let gone := y.replay.takeWhile (fun c => c.seq != seq)
        let acked := gone.map (·.seq.toNat) ++ [seq.toNat]
        { y with replay := y.replay.drop (gone.length + 1), carried := y.carried.filter (fun c => !acked.contains c.1) }))

/-- LANE_REPLAY (R25): every codeword from the named one on is sent again. -/
def execLaneReplay (s : State) : Host.Outcome State Fault Refusal :=
  s.recvSideband 2 (fun pair _ m s =>
    s.modLane pair (m.body.toNat / 4096) (fun y =>
      let ok := y.replay.takeWhile (fun c => c.seq != m.body.setWidth 12)
      { y with replay := ok ++ (y.replay.drop ok.length).map (fun c => { c with replay := true }) }))

/-- IDLE (R28). -/
def execIdle (s : State) : Host.Outcome State Fault Refusal := s.recvSideband 0 (fun _ _ _ s => s)

/-- CREDIT_RETURN (R31). -/
def execCreditReturn (s : State) : Host.Outcome State Fault Refusal :=
  s.recvSideband 3 (fun pair _ m s =>
    let v := s.pair pair
    let n := m.body.toNat % 2 ^ 15
    s.setPair pair (if m.body.getLsbD 15 then { v with credit1 := v.credit1 + n } else { v with credit0 := v.credit0 + n }))

/-! ## Delivery (R26, R30) -/

/-- A packet without its routing fields, for the filter of R26. -/
def plainPacket (p : Packet) : Packet := { p with replay := false, via := 0, hop2 := false, vc := false, sched := false }

/-- The entry of the filter for a packet of the fabric or of a tray link (R26, R84). -/
def State.filtered (s : State) (link : Option Nat) (p : Packet) : Option Performed :=
  s.performed.find? (fun f => f.link == link && f.packet == plainPacket p && decide (s.ticks < f.time + 100000))

/-- Two packets are a use and a later use of one tag: same source, same tag, both requests or both answers, and EPOCH inverted (R31). -/
def tagReused (tray : Bool) (old new : Packet) : Bool :=
  let asks (p : Packet) : Bool := if tray then [5, 7, 9, 10].contains p.kind.toNat else isRequest p.kind
  old.src == new.src && old.tag == new.tag && asks old == asks new && old.epoch != new.epoch

/-- Enter a packet in the filter; what an earlier use of its tag left there goes, and so does what is older than 100 µs (R26, R31). -/
def State.enterFilter (s : State) (link : Option Nat) (p : Packet) : State :=
  { s with performed := s.performed.filter (fun f => decide (s.ticks < f.time + 100000) && !(f.link == link && tagReused link.isSome f.packet p)) ++ [⟨link, plainPacket p, s.ticks, []⟩] }

/-- Send the answers to a packet again. -/
def State.answerAgain (s : State) (p : Packet) : State :=
  match s.filtered none p with
  | none => s
  | some f => s.over f.replies (fun s r => s.send { r with replay := true })

/-- A fabric packet arrives (R24, R26, R30). -/
def State.deliverPacket (s : State) (p : Packet) : State :=
  let here : Bool := p.dst.val == s.pos
  let bad := p.kind == 0 || decide (0x12 ≤ p.kind.toNat) || decide (512 < p.len) || p.payload.length != (if noPayload p.kind then 0 else p.len)
    || (!here && (p.via.val != s.pos || p.hop2))
  if bad then { s with linkErrors := s.linkErrors + 1 }
  else if (s.peer p.src.val).died ∨ p.src.val = s.pos ∨ (p.kind = 0x0F#5 ∧ (p.op = 0 ∨ 3 < p.op.toNat)) then s
  else
    let s := (s.modPeer p.src.val (fun q => { q with lastPkt := s.ticks }))
    if !here then s.rxAdd p
    else if p.replay && (s.filtered none p).isSome then s.answerAgain p
    else (s.enterFilter none p).rxAdd p

/-- The ASID whose keys seal a packet from a tray link: the one it names, or the one that asked (R92). -/
def State.sealAsid (s : State) (k : Nat) (p : Packet) : Nat :=
  if p.kind = 0x02#5 then ((s.htxs.find? (fun t => t.link == k && t.tag == p.tag.toNat)).map (·.key.asid)).getD 4096 else p.asid.toNat

/-- A tray-link packet's turn comes (R84): a KIND that no host sends is counted as a link error; a resent one that has been performed is answered again and no more (R26); what a bound link carries is opened (R92). -/
def State.deliverTray (s : State) (k : Nat) (p : Packet) : State :=
  if !([2, 4, 5, 7, 9, 10, 12].contains p.kind.toNat) then { s with linkErrors := s.linkErrors + 1 }
  else match (if p.replay then s.filtered (some k) p else none) with
    | some f => s.over f.replies (fun s r => s.traySend k { r with replay := true })
    | none =>
      let q := { p with len := trayLen p.kind p.len, payload := if [2, 7, 9, 10].contains p.kind.toNat then s.openFrom (s.sealAsid k p) k p.payload else p.payload }
      let s := s.enterFilter (some k) p
      { s with trayRx := s.trayRx ++ [(k, q)] }

/-- A tray packet that ended in one codeword comes before another: by the codewords' sequence, then by lane; so the host deals them out (R84, R88; log entry 30). -/
def trayBefore (a b : BitVec 12 × Nat × Packet) : Bool := decide ((b.1 - a.1).toNat < 2048) && (a.1 != b.1 || decide (a.2.1 ≤ b.2.1))

/-- Insert a received tray packet behind those that come before it. -/
def trayInsert (x : BitVec 12 × Nat × Packet) : List (BitVec 12 × Nat × Packet) → List (BitVec 12 × Nat × Packet)
  | [] => [x]
  | y :: ys => if trayBefore y x then y :: trayInsert x ys else x :: y :: ys

/-- No lane of a pair can still bring a packet that comes before this one. -/
def Pair.passed (v : Pair) (e : BitVec 12 × Nat × Packet) : Bool :=
  v.lanes.all (fun x => x.1 == e.2.1 || (let d := (x.2.rxSeq - e.1).toNat; decide (d < 2048) && (decide (e.2.1 < x.1) || decide (0 < d))))

/-- Deliver the packets of a tray link whose turn has come. -/
def State.trayFlush (s : State) (p k : Nat) : State :=
  let t := s.trayOf k
  let go := t.rx.takeWhile (s.pair p).passed
  (s.setTray k { t with rx := t.rx.drop go.length }).over go (fun s e => s.deliverTray k e.2.2)

/-- A scale-out packet arrives; a bad one is dropped silently (R79). -/
def State.deliverSo (s : State) (p : SoPacket) : State :=
  if p.crc == soCrc p && (p.kind == 1 || p.kind == 2 || p.kind == 3) && p.dstEp == s.endpoint && decide (p.payload.length ≤ 4096) then { s with soRx := s.soRx ++ [p] } else s

/-- The length in flits of the packet that begins with a flit. -/
def flitCount (u : PairUse) (f : BitVec 256) : Nat :=
  let x := f.toNat
  let kind : BitVec 5 := BitVec.ofNat 5 x
  match u with
  | .port _ => 2 + (bitsOf x 16 16 + 31) / 32
  | .tray _ => 1 + (if noTrayPayload kind then 0 else (trayLen kind (bitsOf x 20 10) + 31) / 32)
  | _ => 1 + (if noPayload kind then 0 else (bitsOf x 20 10 + 31) / 32)

/-- Deliver a packet's flits, which ended in a codeword of this sequence on a lane, and return the credit of a fabric packet (R31). -/
def State.deliverFlits (s : State) (p l : Nat) (seq : BitVec 12) (fs : List (BitVec 256)) : State :=
  let f := fs.headD 0
  let n := bitsOf f.toNat 20 10
  let kind : BitVec 5 := BitVec.ofNat 5 f.toNat
  match s.pairUse p with
  | .fabric _ =>
    let k := headerPacket f ((flitBytes (fs.drop 1)).take (if noPayload kind then 0 else n))
    (s.deliverPacket k).sbOn p ⟨3, BitVec.ofNat 16 (bitNum k.vc * 2 ^ 15 + fs.length)⟩
  | .tray m =>
    let k := rawPacket f ((flitBytes (fs.drop 1)).take (if noTrayPayload kind then 0 else trayLen kind n))
    s.setTray m { (s.trayOf m) with rx := trayInsert (seq, l, k) (s.trayOf m).rx }
  | .port _ => s.deliverSo (soOf (flitBytes fs))
  | .spare => s

/-- Deliver every whole packet among a lane's received flits. -/
def State.assemble (p l : Nat) (seq : BitVec 12) : Nat → State → State
  | 0, s => s
  | n + 1, s =>
    match (s.pair p).lane l with
    | none => s
    | some y => match y.rxFlits with
      | [] => s
      | f :: _ =>
        let k := flitCount (s.pairUse p) f
        if y.rxFlits.length < k then s
        else assemble p l seq n ((s.modLane p l (fun y => { y with rxFlits := y.rxFlits.drop k })).deliverFlits p l seq (y.rxFlits.take k))

/-- Discard a codeword and ask for it again. -/
def State.askReplay (s : State) (p l : Nat) (y : Lane) : State :=
  (s.modLane p l (fun y => { y with discarding := true })).sbOn p ⟨2, BitVec.ofNat 16 (l * 4096 + y.rxSeq.toNat)⟩

/-- The counts of a pair for the house frame of this number (R26, R27). -/
def Pair.roll (v : Pair) (frame : Nat) : Pair :=
  if v.frame = frame then v else { v with frame := frame, uncLast := if v.frame + 1 = frame then v.uncNow else 0, uncNow := 0 }

/-- The number of the house frame (R104). -/
def State.frameNum (s : State) : Nat := s.fabric / 1024000

/-- CODEWORD_RECEIVE (R25, R26): an intact codeword in sequence is acknowledged and delivered, one received before is acknowledged again, and anything else is discarded. -/
def execCodewordReceive (pair : Fin 64) (lane : Fin 16) (cw : Codeword) (ok : Bool) (s : State) : Host.Outcome State Fault Refusal :=
  let p := pair.val
  let l := lane.val
  .next (match (s.pair p).lane l with
    | none => s
    | some y =>
      if !y.locked || (s.pair p).failedNow then s
      else if !ok then
        let v := (s.pair p).roll s.frameNum
        let s := (s.setPair p { v with uncNow := v.uncNow + 1 }).askReplay p l y
        if 16 ≤ v.uncNow + 1 then s.later 0 (.pairFailure ⟨pair, 0⟩) else s
      else if cw.seq = y.rxSeq then
        let s := s.modLane p l (fun y => { y with rxSeq := y.rxSeq + 1, discarding := false, rxFlits := y.rxFlits ++ cw.flits })
        let s := (s.sbOn p ⟨1, BitVec.ofNat 16 (l * 4096 + cw.seq.toNat)⟩)
        let s := match s.pairUse p with
          | .fabric q => s.modPeer q (fun x => { x with lastHeard := s.ticks })
          | _ => s
        let s := if cw.msg.type.toNat < 8 then { s with sbRx := s.sbRx ++ [(p, l, cw.msg)] } else s
        let s := State.assemble p l cw.seq 24 s
        (match s.pairUse p with
          | .tray k => s.trayFlush p k
          | _ => s)
      else if (y.rxSeq - cw.seq).toNat < 2048 then s.sbOn p ⟨1, BitVec.ofNat 16 (l * 4096 + cw.seq.toNat)⟩
      else if y.discarding then s
      else s.askReplay p l y)

/-! ## Failed pairs (R16, R26) -/

/-- A lane that has been trained. -/
def Lane.trained : Lane := { Lane.reset with locked := true }

/-- Every wavelength of a pair locks, and its lanes begin to send (R25, R97 step 3); sideband messages kept from before a failure go first. -/
def State.trainPair (s : State) (p : Nat) : State :=
  let v := s.pair p
  let s := s.setPair p { v with failedNow := false, uncNow := 0, credit0 := Config.linkCredit, credit1 := Config.linkCredit,
                                lanes := (List.range 16).map (fun l => (l, { Lane.trained with sbQ := ((v.lane l).map (·.sbQ)).getD [] })) }
  s.over (List.range 16) (fun s l => s.later 85 (.laneCodewordSend ⟨p % 64, Nat.mod_lt p (by decide)⟩ ⟨l % 16, Nat.mod_lt l (by decide)⟩))

/-- The packets of a pair that are not acknowledged. -/
def Pair.unsent (v : Pair) : List (List (BitVec 256)) := v.lanes.flatMap (fun x => x.2.carried.map (·.2))

/-- The barrier, liveness and heartbeat messages of a pair that are not acknowledged or not sent. -/
def Pair.messages (v : Pair) : List Sideband :=
  v.lanes.flatMap (fun x => (x.2.replay.map (·.msg) ++ x.2.sbQ).filter (fun m => [4, 5, 7].contains m.type.toNat))

/-- Send a sideband message of a failed pair to a peer over another working pair; where none is left, a barrier arrival goes by the peer's intermediate, and else the message waits for the spare (R26, R43). -/
def State.resendMsg (s : State) (p q : Nat) (m : Sideband) : State :=
  match (pairsOf s.pos q).find? (fun x => (s.pair x).works), s.via q with
  | some x, _ => s.sbOn x m
  | none, some v => if m.type.toNat = 4 ∧ v ≠ q then (s.sbTo v m).1 else s.sbOn p m
  | none, none => s.sbOn p m

/-- Resend what a failed pair carried: fabric packets over the remaining path, with REPLAY (R26); a request whose transaction has ended meanwhile is not sent again. -/
def State.resendPair (s : State) (p : Nat) (v : Pair) : State :=
  match s.pairUse p with
  | .fabric q =>
    let ks := v.unsent.map (fun fs => { headerPacket (fs.headD 0) (flitBytes (fs.drop 1)) with replay := true })
    let ks := ks.map (fun k => { k with payload := k.payload.take (if noPayload k.kind then 0 else k.len) })
    let ks := ks.filter (fun (k : Packet) => k.hop2 || !isRequest k.kind || s.txs.any (fun t => t.owns k))
    { s with txq := ks.filterMap (fun (k : Packet) => if k.hop2 then some k else s.routed k) ++ s.txq }.over v.messages (fun s m => s.resendMsg p q m)
  | .tray n =>
    let ks := v.unsent.map (fun fs =>
      let k := rawPacket (fs.headD 0) []
      { k with replay := true, payload := (flitBytes (fs.drop 1)).take (trayLen k.kind k.len) })
    let t := s.trayOf n
    (s.setTray n { t with txq := ks ++ t.txq, rx := [] }).over t.rx (fun s e => s.deliverTray n e.2.2)
  | .port _ => { s with soTx := v.unsent.map (fun fs => soOf (flitBytes fs)) ++ s.soTx }
  | .spare => s

/-- The house-frame slot of a fabric time (R104). -/
def slotOf (t : Nat) : Nat := t / 16000

/-- Pairs whose substitution is under way and was detected in the slot that is current: pair, and when it ends. -/
def State.sameSlot (s : State) : List Nat :=
  s.agenda.filterMap (fun t => match t.ev with
    | .spareSubstitution p => if 50000 ≤ t.due ∧ slotOf (t.due - 50000 - s.epoch) = slotOf s.fabric then some p.val else none
    | _ => none)

/-- Take a spare for a failed pair: spare 0 first; of two pairs that fail in one slot the lower-numbered receives spare 0 (R16). -/
def State.takeSpare (s : State) (pair : Fin 64) : State :=
  if 2 ≤ s.spares then s
  else
    let n := s.spares
    let rival := s.sameSlot.find? (fun q => decide (pair.val < q) && (s.pair q).substituting == some 0)
    let s := { s with spares := n + 1 }
    let s := match rival with
      | none => s.setPair pair.val { (s.pair pair.val) with substituting := some n }
      | some q => (s.setPair q { (s.pair q) with substituting := some n }).setPair pair.val { (s.pair pair.val) with substituting := some 0 }
    s.later 50000 (.spareSubstitution pair)

/-- A tray link has failed and no spare is left: its host requests end as if they had timed out (R86), and the answers that it owed go by the next working link (R16). -/
def State.failTray (s : State) (k : Nat) : State :=
  let answers := (s.trayOf k).txq.filter (fun p => [6, 8, 12].contains p.kind.toNat)
  let s := s.setTray k { (s.trayOf k) with failed := true, txq := [] }
  let s := if s.trayLink k = k then s else s.over answers (fun s p => s.traySend (s.trayLink k) p)
  s.over (s.htxs.filter (fun t => t.link == k)) (fun s t =>
    s.later 0 (.hostRequestTimeout ⟨t.link % 4, Nat.mod_lt _ (by decide)⟩ (BitVec.ofNat 10 t.tag)))

/-- Lock a pair at calibration: one whose wavelengths do not lock is marked failed, and a spare is taken for it (R16, R97 step 3). -/
def State.lockPair (s : State) (p : Nat) : State :=
  if !s.boot.dark.getLsbD p then s.trainPair p
  else
    let s := ((s.logError 0 p 5 4).setPair p { (s.pair p) with failedNow := true }).takeSpare ⟨p % 64, Nat.mod_lt p (by decide)⟩
    match s.pairUse p with
    | .tray k => if (s.pair p).substituting.isSome then s else s.failTray k
    | _ => s

/-- Recompute the intermediates (R42): packets that still wait here take the path that now holds, and a live peer that no path reaches counts as dead (R41). -/
def State.setDetours (s : State) : State :=
  let s := { s with detours := (List.range 16).map (fun q => if s.direct q then none else s.intermediate q),
                    txq := s.txq.map (fun (k : Packet) => if k.hop2 then k else (s.routed k).getD k) }
  s.over ((List.range 16).filter (fun q => s.reachable q && (s.via q).isNone)) (fun s q => s.later 0 (.peerDead (posF q)))

/-- PAIR_FAILURE (R16, R26, R108): the lanes of the mask have lost wavelength lock; none where 16 codewords were uncorrectable. -/
def execPairFailure (loss : PairLoss) (s : State) : Host.Outcome State Fault Refusal :=
  let p := loss.pair.val
  let v := s.pair p
  .next (
    if v.failedNow || v.lanes.isEmpty then s
    else
      let s := (s.logError 0 p 5 4).setPair p { v with failedNow := true, spareNow := false, lanes := v.lanes.map (fun x => (x.1, { Lane.reset with locked := x.2.locked && !loss.lanes.getLsbD x.1 })) }
      let s := match s.pairUse p with
        | .spare => s
        | _ => s.takeSpare loss.pair
      let s := s.resendPair p v
      let s := match s.pairUse p with
        | .tray k => if (s.pair p).substituting.isSome then s else s.failTray k
        | _ => s
      s.setDetours)

/-- SPARE_SUBSTITUTION (R16): a hot spare takes over the failed pair's use and number. -/
def execSpareSubstitution (pair : Fin 64) (s : State) : Host.Outcome State Fault Refusal :=
  let p := pair.val
  let v := s.pair p
  .next (match v.substituting with
    | none => s
    | some _ =>
      let s := (s.setPair p { v with spareNow := true, substituting := none }).trainPair p
      let s := match s.pairUse p with
        | .tray k => s.setTray k { (s.trayOf k) with failed := false }
        | _ => s
      s.setDetours)

/-- LINKSTAT_REFRESH (R27, R104): every pair's status word, with the uncorrectable codewords of the last house frame. -/
def execLinkstatRefresh (s : State) : Host.Outcome State Fault Refusal :=
  let word (v : Pair) : Word :=
    BitVec.ofNat 32 (bitNum (v.failedNow && !v.spareNow) * 2 ^ 31 + bitNum v.spareNow * 2 ^ 30 + min v.uncLast 0xFFF * 2 ^ 16 + ((v.lanes.map (fun l => if l.2.locked then 2 ^ l.1 else 0)).sum))
  let s := { s with pairs := s.pairs.map (fun (x : Nat × Pair) => let v := x.2.roll s.frameNum; (x.1, { v with linkstat := word v })) }
  .next (s.later 1024000 .linkstatRefresh)

end Sys2Proof.Machine
end

