-- ==== Sys2Proof/Machine/Fetch.lean ====
section
/-! DEFINITION. Instruction fetch (R180, R285) and the picker (R155, R160 to R163): which fibres are ready, and which program counter and bundle a quarter chooses. -/

namespace Sys2Proof.Machine

/-! ## Fetch -/

/-- The offset of the packet that a program counter names. -/
def packetAt (pc : Word) : Nat := pc.toNat / 16 * 16

/-- The slot that a program counter names; 0 when its bits [3:0] are not 4, 8 or 12 (R285). -/
def slotAt (pc : Word) : Nat := if pc.toNat % 4 = 0 then pc.toNat % 16 / 4 else 0

/-- The check of instruction fetch on the code capability: right X, 16 bytes at the packet (R206, R285). -/
def fetchTag (code : Cap) (pc : Word) : Option (BitVec 12) :=
  if !code.tag then some 0x0C3#12
  else if code.kind != 1#4 then some 0x0C4#12
  else if !code.has [rX] then some 0x0C2#12
  else if packetAt pc < code.base.toNat ∨ code.base.toNat + code.len.toNat < packetAt pc + 16 then some 0x0C1#12
  else none

/-- What a fibre finds at its program counter: a fault, nothing in the cache, or a packet. -/
inductive Fetched where
  | fault (tag : BitVec 12)
  | miss
  | packet (p : CodePacket)
  deriving DecidableEq, Repr

/-- Fetch for a fibre at the core's instruction cache (R180, R285). -/
def Core.fetch (c : Core) (asid : Nat) (f : Fibre) : Fetched :=
  if slotAt f.pc = 0 then .fault 0x0E7#12
  else match fetchTag f.code f.pc with
    | some t => .fault t
    | none =>
      match c.packet asid f.code.obj.toNat (packetAt f.pc) with
      | none => .miss
      | some bs =>
        if bs.length < 16 then .miss
        else if (packetOf bs).isExt (slotAt f.pc) then .fault 0x0E7#12
        else .packet (packetOf bs)

/-- The next slot from k on that is neither an extension nor empty, or the next packet (R285, R287). -/
def successor (p : CodePacket) (at_ k : Nat) : Nat :=
  match (List.range 4).find? (fun j => decide (k ≤ j) && decide (1 ≤ j) && !p.isExt j && !p.isEmpty j) with
  | some j => at_ + 4 * j
  | none => at_ + 20

/-- The slots that issue with slot k: the chain from it on (R288). -/
def chainOf (p : CodePacket) (k : Nat) : List Nat :=
  if k = 1 then (if p.c1 then (if p.c2 then [1, 2, 3] else [1, 2]) else [1])
  else if k = 2 then (if p.c2 then [2, 3] else [2])
  else [k]

/-- Pass over empty slots without issuing (R287); an illegal packet is judged first (R289). -/
def Core.skipEmpty (c : Core) (asid : Nat) : Nat → Fibre → Fibre
  | 0, f => f
  | n + 1, f =>
    match c.fetch asid f with
    | .packet p =>
      if !p.illegal && p.isEmpty (slotAt f.pc) then
        c.skipEmpty asid n { f with pc := BitVec.ofNat 32 (successor p (packetAt f.pc) (slotAt f.pc + 1)) }
      else f
    | _ => f

/-! ## Readiness -/

/-- The decoded slots of a chain with their control bytes; none when a slot holds no instruction (R292). -/
def slotsOf (p : CodePacket) (ks : List Nat) : Option (List (Instr × BitVec 8)) :=
  ks.mapM (fun k => match p.decode k with
    | .ok i => some (i, BitVec.ofNat 8 (p.ctlByte k))
    | .error _ => none)

/-- A SETG to the group register is not performed yet: it takes four cycles (R159). -/
def GReg.setting (g : GReg) (now : Nat) : Bool :=
  match g.setAt with
  | none => false
  | some (c, _) => decide (now < c + 4)

/-- The group register does not let an instruction pass that names it as a token or a SETG target; SETGs of one cycle pass together (R158, R159, R396). -/
def GReg.blocksWrite (g : GReg) (i : Instr) (now : Nat) : Bool :=
  g.pending || (g.setting now && !(match i with
    | .setg _ _ => g.setAt.any (fun x => x.1 == now)
    | _ => false))

/-- No register that the slots name is pending for the fibre, and no group register for the workgroup (R158, R160). A fibre that does not execute waits for its guard only. -/
def State.unblocked (s : State) (L : Launch) (w : Nat) (f : Fibre) (slots : List (Instr × BitVec 8)) : Bool :=
  let pend : List RReg := f.infl.flatMap (fun ws => ws.map WB.reg)
  slots.all (fun x =>
    let u := usesOf L x.1
    !pend.contains (.p (x.2.toNat % 8)) && (!f.guard x.2 ||
      ((u.reads ++ u.writes).all (fun r => !pend.contains r)
        && u.g.all (fun n => !(s.greg L.id w n).pending)
        && (gReadsOf L x.1).all (fun n => !(s.greg L.id w n).setting s.clock.toNat)
        && u.tok.all (fun n => !(s.greg L.id w n).blocksWrite x.1 s.clock.toNat))))

/-- What a ready fibre would issue. -/
structure Ready where
  fib : Fibre
  pkt : Option CodePacket
  pipes : List Pipe
  deriving DecidableEq, Repr

/-- The fibre of a quarter, if it is ready (R162): what it would issue. A fault of the fetch, an illegal packet and a slot without an instruction are issued as well, and need no pipe. -/
def State.ready (s : State) (L : Launch) (w : Nat) (c : Core) (f : Fibre) : Option Ready :=
  if f.wait != .none || f.copy.isSome || s.clock.toNat < f.readyAt then none
  else match c.fetch L.asid f with
    | .fault _ => some ⟨f, none, []⟩
    | .miss => none
    | .packet p =>
      if p.illegal then some ⟨f, some p, []⟩
      else match slotsOf p (chainOf p (slotAt f.pc)) with
        | none => some ⟨f, some p, []⟩
        | some sl =>
          if s.unblocked L w f.settle sl then
            some ⟨f, some p, (chainOf p (slotAt f.pc)).filterMap (fun k => pipeOf (p.op k))⟩
          else none

/-! ## The choice of R162 -/

/-- A number for each pipe. -/
def pipeNum : Pipe → Nat
  | .alu => 0
  | .fpu => 1
  | .sfu => 2
  | .xln => 3
  | .mem => 4
  | .ctl => 5
  | .eng => 6

/-- Every pipe needed is free in this quarter (R155, R162). -/
def Core.pipesFree (c : Core) (q now : Nat) (ps : List Pipe) : Bool :=
  ps.all (fun p => !c.busy.any (fun b => b.1 == q && b.2.1 == pipeNum p && decide (now < b.2.2)))

/-- Insert by greater age, then lower number. -/
def insertOld (r : Ready) : List Ready → List Ready
  | [] => [r]
  | x :: xs => if x.fib.age < r.fib.age ∨ (x.fib.age = r.fib.age ∧ r.fib.fid < x.fib.fid) then r :: x :: xs else x :: insertOld r xs

/-- Oldest first. -/
def sortOld (rs : List Ready) : List Ready := rs.foldr insertOld []

/-- The code object and program counter at which a ready fibre stands. -/
def Ready.place (r : Ready) : Nat × Word := (r.fib.code.obj.toNat, r.fib.pc)

/-- One program counter is preferred to another: more ready fibres, then the greater age among them, then the lowest fibre number among them (R162). -/
def better (rs : List Ready) (a b : Ready) : Bool :=
  let here (x : Ready) : List Fibre := (rs.filter (fun r => r.place == x.place)).map (·.fib)
  let age (x : Ready) : Nat := (here x).foldl (fun n f => max n f.age) 0
  let low (x : Ready) : Nat := (here x).foldl (fun n f => min n f.fid) x.fib.fid
  if (here b).length ≠ (here a).length then decide ((here b).length < (here a).length)
  else if age a ≠ age b then decide (age b < age a)
  else decide (low a < low b)

/-- The bundle that a picker chooses among the ready fibres whose pipes are free, in ascending fibre number. -/
def choose (rs : List Ready) : List Ready :=
  let pick : Option Ready :=
    match sortOld rs with
    | [] => none
    | r :: rest => if 1024 ≤ r.fib.age then some r else some (rest.foldl (fun b x => if better rs x b then x else b) r)
  match pick with
  | none => []
  | some r => (sortOld (rs.filter (fun x => x.place == r.place))).take 64

/-- The ready fibres of a quarter of a placed workgroup. -/
def State.readyIn (s : State) (L : Launch) (g : Wg) (q : Nat) : List Ready :=
  (g.fibres.filter (fun f => quarterOf f.fid == q)).filterMap (s.ready L g.wgid (s.core g.core))

/-- The bundle of a quarter in this cycle. -/
def State.bundle (s : State) (L : Launch) (g : Wg) (q : Nat) : List Ready :=
  choose ((s.readyIn L g q).filter (fun r => (s.core g.core).pipesFree q s.clock.toNat r.pipes))

/-- A bundle needs the ENG pipe. -/
def wantsEng (rs : List Ready) : Bool := rs.any (fun r => r.pipes.contains .eng)

/-- The ENG pipe serves the quarters in rotation from the one after the quarter served last (R155): a quarter waits while a quarter that comes before it, and has not had its turn in this cycle, wants the pipe too, and when the pipe has been taken in this cycle. -/
def State.engServes (s : State) (L : Launch) (g : Wg) (q : Nat) : Bool :=
  let c := s.core g.core
  let rank (x : Nat) := (x + 4 - (c.engLast + 1) % 4) % 4
  let taken := c.busy.any (fun b => b.1 == 4 && decide (s.clock.toNat < b.2.2))
  !taken && (List.range 4).all (fun x => x ≤ q || rank q < rank x || !wantsEng (s.bundle L g x))

end Sys2Proof.Machine
end

