-- ==== Sys2Proof/Machine/System.lean ====
section
/-! DEFINITION. System and group registers, the debugger, the device supervisor's calls, and OINV (R213, R293, R394 to R398). -/

namespace Sys2Proof.Machine

/-! ## System registers -/

/-- The value of a system register as its 64 bits (R123, R153, R293). -/
def State.sysReg (s : State) (L : Launch) (id : FibId) (f : Fibre) (n : Nat) : DWord :=
  match n with
  | 0x000 => BitVec.ofNat 64 (id.fid % L.crew)
  | 0x001 => BitVec.ofNat 64 id.fid
  | 0x002 => BitVec.ofNat 64 (crewOf L id.fid)
  | 0x003 => BitVec.ofNat 64 id.wgid
  | 0x004 => BitVec.ofNat 64 L.count
  | 0x005 => BitVec.ofNat 64 (L.gangOf id.wgid)
  | 0x006 => BitVec.ofNat 64 (s.coreOf id)
  | 0x007 => BitVec.ofNat 64 (dieOf (s.coreOf id))
  | 0x008 => BitVec.ofNat 64 (s.nodeNum.toNat * 16 + s.pos % 16)
  | 0x009 => BitVec.ofNat 64 L.asid
  | 0x010 => if L.crew = 64 then f.cmask else f.cmask &&& 0xFFFFFFFF#64
  | 0x011 => f.hchain.setWidth 64
  | 0x020 => f.fmode.setWidth 64
  | 0x021 => f.fflags.setWidth 64
  | 0x030 => s.clock
  | _ => BitVec.ofNat 64 s.fabric

/-- A 64-bit register's value in a pair, any other in one register. -/
def sysWrites (d : BitVec 6) (n : BitVec 12) (x : DWord) : List WB :=
  if sysRegWide n.toNat then [.v d.toNat (x.setWidth 32), .v (d.toNat + 1) ((x >>> 32).setWidth 32)] else [.v d.toNat (x.setWidth 32)]

/-- GETS (R293, R395). -/
def execGets (d : BitVec 6) (n : BitVec 12) (s : State) : Host.Outcome State Fault Refusal :=
  s.issueEach (.gets d n) (fun s id f =>
    match s.curLaunch with
    | none => s
    | some L => s.fixed id 4 (sysWrites d n (s.sysReg L id f n.toNat)))

/-- SETS (R293, R395): it takes effect before the next instruction. -/
def execSets (d : BitVec 6) (n : BitVec 12) (s : State) : Host.Outcome State Fault Refusal :=
  s.issueEach (.sets d n) (fun s id f =>
    let x := f.reg d.toNat
    match n.toNat with
    | 0x010 => s.modFib id (fun y => { y with cmask := if s.curLaunch.any (fun L => L.crew == 64) then f.pair d.toNat else x.setWidth 64 })
    | 0x020 => s.modFib id (fun y => { y with fmode := x &&& fmodeBits })
    | 0x021 => s.modFib id (fun y => { y with fflags := x &&& fflagsBits })
    | _ => s)

/-! ## Group registers -/

/-- TOKQ (R394): 0 while the token is pending. -/
def execTokq (d : BitVec 6) (a : BitVec 5) (s : State) : Host.Outcome State Fault Refusal :=
  s.issueEach (.tokq d a) (fun s id _ =>
    let g := s.greg s.cur.launch s.cur.wgid a.toNat
    s.fixed id 4 [.v d.toNat (if g.pending || g.setting s.clock.toNat then 0 else g.val)])

/-- GETG (R396). -/
def execGetg (d : BitVec 6) (a : BitVec 5) (s : State) : Host.Outcome State Fault Refusal :=
  s.issueEach (.getg d a) (fun s id _ => s.fixed id 4 [.v d.toNat (s.gval a.toNat)])

/-- SETG (R159, R396): among the writers of one cycle the lowest fibre's value remains. -/
def execSetg (d : BitVec 5) (a : BitVec 6) (s : State) : Host.Outcome State Fault Refusal :=
  s.issueEach (.setg d a) (fun s id f =>
    s.modG id.launch id.wgid d.toNat (fun g =>
      match g.setAt with
      | some (c, w) => if c = s.clock.toNat ∧ w ≤ id.fid then g else { g with val := f.reg a.toNat, setAt := some (s.clock.toNat, id.fid), badMeta := false }
      | none => { g with val := f.reg a.toNat, setAt := some (s.clock.toNat, id.fid), badMeta := false }))

/-! ## Calls out -/

/-- BRK (R397). -/
def execBrk (s : State) : Host.Outcome State Fault Refusal := s.issueEach .brk (fun s id _ => s.effAfter id 0x0F0#12 0)

/-- SVC (R397). -/
def execSvc (i : BitVec 12) (s : State) : Host.Outcome State Fault Refusal := s.issueEach (.svc i) (fun s id _ => s.effAfter id 0x0F1#12 (i.setWidth 32))

/-- What the device supervisor writes to v0 (R397). -/
def State.serviceValue (s : State) (asid : Nat) (imm : Word) : Word :=
  if imm = 0 then 0
  else if imm = 1 then
    match s.asid asid with
    | none => 0
    | some d => BitVec.ofNat 32 (min d.free.length 0xFFFFFFFF)
  else 0xFFFFFFFF#32

/-- SERVICE_CALL_REPLY (R196, R397): the device supervisor answers every fibre that waits for it, and they continue. -/
def execServiceCallReply (s : State) : Host.Outcome State Fault Refusal :=
  .next (if !s.supervised then s else s.mapFibres (fun id f => match f.wait with
    | .supervisor imm => { f.apply (.v 0 (s.serviceValue (s.asidOf id.launch) imm)) with wait := .none }
    | _ => f))

/-! ## OINV -/

/-- Drop the cached translations of one object, or of every object, of an ASID at every die (R213). -/
def State.oinv (s : State) (asid : Nat) (obj : Option Nat) : State :=
  let hit (a o : Nat) : Bool := a == asid && (match obj with
    | none => true
    | some n => o == n)
  { s with objCache := s.objCache.filter (fun c => !hit c.asid c.obj), regCache := s.regCache.filter (fun c => !hit c.asid c.obj) }

/-- A tile access to a host object, translated before a mark, still has requests to send (R85, R213). -/
def TileOp.hostOwes (t : TileOp) (mark : Nat) (obj : Option Nat) : Bool :=
  match t.place with
  | .host _ o => obj.all (· == o) && decide (t.id < mark) && t.code == 0 && decide (t.seq < (runs 1024 (t.bytes.map (·.1))).length)
  | _ => false

/-- A request that was translated before a mark, for an object of an ASID or for any, has not been answered by the peer or host yet (R213). -/
def State.translated (s : State) (asid : Nat) (obj : Option Nat) (mark : Nat) : Bool :=
  let hit (k : HamperKey) : Bool := k.asid == asid && obj.all (· == k.obj)
  s.txs.any (fun t => t.kind != .gone && hit t.key && decide (t.seq < mark)) || s.htxs.any (fun t => t.kind != .gone && hit t.key && decide (t.seq < mark))
    || s.tiles.any (fun t => s.asidOf t.launch == asid && t.hostOwes mark obj)

/-- OINV (R213, R398): the caches drop the object at once, and the instruction completes when the requests translated before it have been answered, by which they have reached their peer or host. -/
def execOinv (a : BitVec 4) (b : BitVec 6) (s : State) : Host.Outcome State Fault Refusal :=
  s.issueEach (.oinv a b) (fun s id f =>
    let c := f.cap a.toNat
    let x := f.reg b.toNat
    if !c.tag then s.effAt id 0x0C3#12 0
    else if c.kind != 6#4 then s.effAt id 0x0C4#12 0
    else if !c.has [rW] then s.effAt id 0x0C2#12 0
    else
      let obj := if x = 0xFFFFFFFF#32 then none else some (x.toNat % 2 ^ 20)
      let mark := f.mark.getD s.fresh
      let s := s.oinv (c.obj.toNat % 4096) obj
      if s.translated (c.obj.toNat % 4096) obj mark then (s.modFib id (fun f => { f with mark := some mark })).hold id .unacked
      else if f.mark.isSome then s.modFib id (fun f => { f with mark := none }) else s)

end Sys2Proof.Machine
end

