-- ==== Sys2Proof/Machine/Residency.lean ====
section
/-! DEFINITION. The service pairs' work on regions: Hamper records released or ended (R215), object-table changes (R213), shoot-downs (R38), notes between service pairs (R30, R35, R151), and failed barrier units (R43). -/

namespace Sys2Proof.Machine

/-! ## Notify cells of WAKE words (R199) -/

/-- Raise the notify cell that a WAKE word of an ASID names, with the wake-ups of R89 (R199). A cell in a peer object is raised at its owner. What must wait stays on the list; a cell that cannot be written, or that lies in a host object, whose cells take no atomic (R86), is not raised (log entry 26). -/
def State.wakeCell (s : State) (x : Nat × Nat) : State :=
  let a := x.1
  let obj := x.2 / 2 ^ 44
  let o := x.2 % 2 ^ 44
  let key : HamperKey := ⟨a, obj, some (o / 2097152), true⟩
  let keep (s : State) : State := { s with wakes := s.wakes ++ [x] }
  match s.xlatNow false ⟨a, obj, o, 8, true, false⟩ with
  | .pa p _ => if s.latched p then keep s else if s.isBad p 8 then s.logLost a [(p, 8)] else (s.atomicHome (s.keyOf a) p 0x0A#8 1).1
  | .peer pos pasid pobj _ =>
    if (s.via pos).isNone then s
    else (match s.request (peerPacket 0x04#5 pos pasid pobj o 8 0x0A#8 (natBytes 8 1)) .gone 0 key with
      | none => keep s
      | some (s, _) => s)
  | .fault t => if t = 0x0D1#12 ∨ t = 0x0D2#12 then keep (s.hamperEnter 0 key) else s
  | _ => s

/-- The notify cells that are still to be raised are tried again. -/
def State.wakesAgain (s : State) : State := State.over { s with wakes := [] } s.wakes State.wakeCell

/-! ## Hamper records (R215) -/

/-- A wait on this record. -/
def Wait.onRec (w : Wait) (die n : Nat) : Bool :=
  match w with
  | .hamper d r _ _ => d == die && r == n
  | _ => false

/-- A command stalled on this record. -/
def Command.onRec (c : Command) (die n : Nat) : Bool :=
  match c.st with
  | .stalled d r _ => d == die && r == n
  | _ => false

/-- What the dispatcher waits for on a record goes on: it reads or writes again, or learns that the region cannot be had (R127, R131). -/
def State.dispatchRec (s : State) (die n : Nat) (unfit : Bool) : State :=
  { s with
    queues := s.queues.map (fun (q : Queue) => if q.stall = some (die, n) then { q with stall := none, unfit := unfit } else q),
    launches := s.launches.map (fun (L : Launch) => if L.stall = some (die, n) then { L with stall := none, unfit := unfit } else L) }

/-- Release a record: its fibres issue again, its commands go on, and the dispatcher looks again. -/
def State.releaseRec (s : State) (die n : Nat) : State :=
  let s := (s.dispatchRec die n false).wakeAll (fun w => w.onRec die n)
  let cs := s.cmds.filter (fun c => c.onRec die n)
  let s := s.over cs (fun s c => (s.modCmd c.id (fun c => { c with st := .running })).poke 1 c.id)
  s.over (s.cmds.filter (fun c => c.st == .running && c.kind != .join && cs.any (fun x => x.eng == c.eng && x.q == c.q))) (fun s c => s.poke 2 c.id) |>.wakesAgain

/-- What a command that is ended from outside counts (R40, R386, R387). -/
def Command.reached (c : Command) : Nat :=
  match c.kind with
  | .copy => c.copied
  | .copyt => c.copied
  | .xput => c.acked
  | .xget => c.acked
  | _ => 0

/-- End a record whose region cannot be made resident: ABORT with the original tag, and code 0x13; notify cells in it are not raised. -/
def State.endRec (s : State) (die n : Nat) : State :=
  let s := s.dispatchRec die n true
  let s := s.over (s.allFibres.filter (fun x => x.2.wait.onRec die n)) (fun s x =>
    match x.2.wait with
    | .hamper _ _ _ t => (s.endFibre x.1 (some t)).settle x.1.launch x.1.wgid
    | _ => s)
  s.over (s.cmds.filter (fun c => c.onRec die n)) (fun s c => s.finish c.id 0x13#8 c.reached)

/-! ## Object tables (R208, R213) -/

/-- Change the first word of an object's entry, raise GEN and drop every cached translation (R213). -/
def State.changeEntry (s : State) (asid obj : Nat) (f : Nat → Nat) : State :=
  match s.asid asid with
  | none => s
  | some d =>
    let a := d.entryPA obj
    let w := s.mem.num a 8
    let g := s.mem.num (a + 8) 8
    let s := (s.homeStore 0 a (natBytes 8 (f w))).homeStore 0 (a + 8) (natBytes 8 (g % 2 ^ 32 + (g / 2 ^ 32 + 1) % 2 ^ 32 * 2 ^ 32))
    s.oinv asid (some obj)

/-- Clear a bit of a word. -/
def clearBit (w n : Nat) : Nat := if w / 2 ^ n % 2 = 1 then w - 2 ^ n else w

/-! ## Notes between service pairs (R30; the payload is the model's own, log entry 30) -/

/-- A note about a region: OP 1 asks that it be made resident or writable, 2 releases the asker's record, 3 says that it cannot be done. ASID, OBJ and OFF name the region at the owner, COBJ the direction; the payload is the die and number of the asker's record. -/
def State.noteTo (s : State) (q : Nat) (op : BitVec 8) (k : HamperKey) (die n : Nat) : State :=
  s.send { Packet.zero with kind := 0x11#5, dst := posF q, op := op, len := 16, asid := BitVec.ofNat 12 k.asid, obj := BitVec.ofNat 20 k.obj,
                            off := BitVec.ofNat 48 (k.region.getD 0 * 2097152), cobj := if k.write then 1 else 0,
                            payload := natBytes 4 die ++ natBytes 8 n ++ natBytes 4 0 }

/-- Answer every request that waits for a region, as released or as not to be had; those of this package release or end its own record. -/
def State.answerAsks (s : State) (asid obj region : Nat) (ok : Bool) : State :=
  let mine (a : Ask) : Bool := a.key.asid == asid && a.key.obj == obj && a.key.region == some region
  let as := s.asks.filter mine
  let s := { s with asks := s.asks.filter (fun a => !mine a) }
  s.over as (fun s a =>
    if a.pos = s.pos then (if ok then s.releaseRec a.die a.num else s.endRec a.die a.num)
    else s.noteTo a.pos (if ok then 2 else 3) a.key a.die a.num)

/-! ## Shoot-downs (R38) -/

/-- A shoot-down of a region runs: its responses carry RCOK 0. -/
def State.revoking (s : State) (asid obj region : Nat) : Bool := s.shoots.any (fun x => x.asid == asid && x.obj == obj && x.region == region)

/-- RC is revoked for a region of an object, named by its owner (R38). -/
def State.unRc (s : State) (pos asid obj region : Nat) : State :=
  if s.unrc.contains (pos, asid, obj, region) then s else { s with unrc := (pos, asid, obj, region) :: s.unrc }

/-- Every region of an object of this package has had its RC revoked. -/
def State.allRevoked (s : State) (asid obj : Nat) : Bool :=
  match s.entry asid obj with
  | none => false
  | some e => (List.range ((e.size + 2097151) / 2097152)).all (fun r => s.unrc.contains (s.pos, asid, obj, r))

/-- Every live peer has acknowledged: RC is cleared for the region, the generation rises, and the parked writers are released (R38 step 4). The entry's own RC bit, which stands for every region, is cleared with the last of them (log entry 32). -/
def State.finishShoot (s : State) (asid obj region : Nat) : State :=
  let s := { s with shoots := s.shoots.filter (fun x => !(x.asid == asid && x.obj == obj && x.region == region)) }
  let s := s.unRc s.pos asid obj region
  (s.changeEntry asid obj (fun w => if s.allRevoked asid obj then clearBit w 58 else w)).answerAsks asid obj region true

/-- A peer's acknowledgement is in, or it is dead. -/
def State.shootSeen (s : State) (asid obj region q : Nat) : State :=
  let s := { s with shoots := s.shoots.map (fun (x : Shoot) => if x.asid == asid && x.obj == obj && x.region == region then
    { x with waiting := x.waiting &&& ~~~((1 : BitVec 16) <<< q), unsent := x.unsent &&& ~~~((1 : BitVec 16) <<< q) } else x) }
  if s.shoots.any (fun x => x.asid == asid && x.obj == obj && x.region == region && x.waiting == 0) then s.finishShoot asid obj region else s

/-- Send SHOOT for a region to one peer; without a free tag it waits for one (R31, R38). -/
def State.sendShoot (s : State) (asid obj region q : Nat) : State :=
  match s.request { Packet.zero with kind := 0x0E#5, dst := posF q, asid := BitVec.ofNat 12 asid, obj := BitVec.ofNat 20 obj, off := BitVec.ofNat 48 (region * 2097152) }
      (.shoot asid obj region) 0 ⟨asid, obj, some region, true⟩ with
  | none => s
  | some (s, _) =>
    let s := { s with shoots := s.shoots.map (fun (x : Shoot) => if x.asid == asid && x.obj == obj && x.region == region then
      { x with unsent := x.unsent &&& ~~~((1 : BitVec 16) <<< q) } else x) }
    s.later 100000 (.shootDownOverdue asid obj region)

/-- Send every SHOOT that has waited for a tag. -/
def State.sendShoots (s : State) : State :=
  s.over (s.shoots.filter (fun x => x.unsent != 0)) (fun s x =>
    s.over ((List.range 16).filter (fun q => x.unsent.getLsbD q)) (fun s q => s.sendShoot x.asid x.obj x.region q))

/-- Start the shoot-down of a region (R38 steps 1 and 2). -/
def State.startShoot (s : State) (asid obj region : Nat) : State :=
  if s.revoking asid obj region then s
  else
    let qs := s.livePositions.filter (· != s.pos)
    let mask : BitVec 16 := BitVec.ofNat 16 ((qs.map (2 ^ ·)).sum)
    let s := { s with shoots := s.shoots ++ [Shoot.mk asid obj region mask mask s.ticks] }
    if qs = [] then s.finishShoot asid obj region else s.sendShoots

/-! ## Serving a key at its owner -/

/-- The region of a key within the object, and whether all its pages are resident. -/
def State.regionResident (s : State) (e : OEntry) (region : Nat) : Bool :=
  !e.paged || (List.range (2097152 / e.pageSize)).all (fun k =>
    let p := region * (2097152 / e.pageSize) + k
    decide (e.size ≤ p * e.pageSize) || pageP (BitVec.ofNat 64 (s.mem.num (e.wordPA p) 8)))

/-- Serve one record at this package: released, ended, sent on to the owner, or waiting for a shoot-down (R35, R37, R38, R215). -/
def State.serveRec (s : State) (die n : Nat) (k : HamperKey) : State :=
  match k.region with
  | none => s.releaseRec die n
  | some region =>
    match s.entry k.asid k.obj with
    | none => s.endRec die n
    | some e =>
      if e.typ = 5 ∧ e.peerPos ≠ s.pos then
        (if (s.via e.peerPos).isNone then s.releaseRec die n
         else s.noteTo e.peerPos 1 ⟨e.peerAsid, e.peerObj, some region, k.write⟩ die n)
      else if k.write && s.rcOn e k.asid k.obj (region * 2097152) then ({ s with asks := s.asks ++ [Ask.mk s.pos k die n] }).startShoot k.asid k.obj region
      else if s.regionResident e region then s.releaseRec die n
      else s.endRec die n

/-- A record that needs nothing but its release: its region is resident and may be written. -/
def State.onlyHeld (s : State) (k : HamperKey) : Bool :=
  match k.region, s.entry k.asid k.obj with
  | some r, some e => !(k.write && s.rcOn e k.asid k.obj (r * 2097152)) && s.regionResident e r
  | _, _ => false

/-- When FULL is set, the records that limited service has held in the batches are released (R100, R101). -/
def State.releaseHeld (s : State) (die : Nat) : State :=
  let h := s.hamper die
  let rs := h.batches.flatten.filter (fun r => s.onlyHeld r.key)
  let s : State := { s with hampers := s.hampers.set die { h with batches := (h.batches.map (fun b => b.filter (fun r => !s.onlyHeld r.key))).filter (· != []) } }
  s.over rs (fun s r => s.releaseRec die r.num)

/-! ## Barrier units that lose a member (R43, R151) -/

/-- The fibres that wait at a failed barrier perform 0x0D0 at their barrier instruction. -/
def State.failUnit (s : State) (l level num : Nat) : State :=
  let s := s.modUnit l level num (fun u => { u with failed := true })
  s.over (s.allFibres.filter (fun x => x.1.launch == l && (match x.2.wait with
    | .barrier a b _ => a == level && b == num
    | _ => false))) (fun s x =>
      (s.modFib x.1 (fun f => { f with wait := .none, arr := f.arr.filter (fun a => !(a.level == level && a.num == num)) })).raise x.1 (Eff.fault 0x0D0#12 0 x.2.pc none))

/-- Fail every node and grid unit that satisfies a test. -/
def State.failUnits (s : State) (p : BarUnit → Bool) : State :=
  s.over (s.units.filter (fun u => decide (7 ≤ u.level) && p u)) (fun s u => s.failUnit u.launch u.level u.num)

/-- The note of R151: a member has refused or completed its record while others wait; OP 4 with the level and number of the barrier. -/
def State.noteUnit (s : State) (q level num : Nat) : State :=
  s.send { Packet.zero with kind := 0x11#5, dst := posF q, op := 4, len := 16, payload := natBytes 4 level ++ natBytes 8 num ++ natBytes 4 0 }

end Sys2Proof.Machine
end

