-- ==== Sys2Proof/Machine/Tile.lean ====
section
/-! DEFINITION. Tile accesses: TLD and TST, the latches of the home slices, and tiles of scratchpads, host ranges and peer objects (R36, R86, R241 to R246, R362 to R364). -/

namespace Sys2Proof.Machine

/-! ## Geometry (R362) -/

/-- The geometry of a tile. -/
structure TileGeo where
  lay : Layout
  rows : Nat
  rowbytes : Nat
  stride : Nat
  deriving DecidableEq, Repr

/-- The geometry that gq to gq+3 give; none where it breaks R362. An element code without a width breaks it too. -/
def tileGeo (L : Launch) (w : List Word) : Option TileGeo :=
  match layoutOf (w.getD 0 0).toNat (w.getD 1 0).toNat (w.getD 2 0).toNat with
  | none => none
  | some y =>
    let code := slotElem (L.formats.getD y.slot 0)
    let bits := y.cols * elemBits code
    let rb := bits / 8
    let stride := (w.getD 3 0).toNat
    if 12 < code ∨ 256 < y.rows ∨ bits % 8 ≠ 0 ∨ rb % 4 ≠ 0 ∨ rb < 4 ∨ 2048 < rb ∨ 16384 < y.rows * rb ∨ y.planes ≠ 1 ∨ stride % 4 ≠ 0
        ∨ (1 < y.rows ∧ stride < rb) then none
    else some ⟨y, y.rows, rb, stride⟩

/-- The bytes from the tile's first to its last in memory. -/
def TileGeo.span (y : TileGeo) : Nat := (y.rows - 1) * y.stride + y.rowbytes

/-- The rows as object ranges from the tile's first object offset. -/
def TileGeo.ranges (y : TileGeo) (o : Nat) : List (Nat × Nat) := (List.range y.rows).map (fun r => (o + r * y.stride, y.rowbytes))

/-- The scratchpad offsets of the tile's bytes, row by row. -/
def TileGeo.scratch (y : TileGeo) : List Nat :=
  (List.range y.rows).flatMap (fun r => (List.range y.rowbytes).map (fun b => y.lay.byteAt 0 r b))

/-! ## Reaching the memory side -/

/-- Where translation finds a tile: the addresses of its bytes; for a tile of the gang window each with its workgroup (scratchAt). -/
inductive TileMem where
  | mem (as : List Nat)
  | scratch (as : List Nat)
  | host (link : Nat) (as : List Nat)
  | peer (pos pasid pobj : Nat)
  deriving DecidableEq, Repr

/-- Addresses of a range. -/
def upFrom (a n : Nat) : List Nat := (List.range n).map (a + ·)

/-- Translate every page of a tile at the memory port, row by row (R241). -/
def State.tileReach (s : State) (id : FibId) (c : Cap) (write : Bool) : List (Nat × Nat) → TileMem → Got TileMem
  | [], m => (s, .ok m)
  | (o, n) :: rest, m =>
    match s.atPort id c o n write with
    | (s, .error e) => (s, .error e)
    | (s, .ok (.pa p _)) => s.tileReach id c write rest (match m with
        | .mem as => .mem (as ++ upFrom p n)
        | _ => .mem (upFrom p n))
    | (s, .ok (.host link a)) => s.tileReach id c write rest (match m with
        | .host _ as => .host link (as ++ upFrom a n)
        | _ => .host link (upFrom a n))
    | (s, .ok (.peer pos pasid pobj _)) => s.tileReach id c write rest (match m with
        | .peer p a o => .peer p a o
        | _ => .peer pos pasid pobj)
    | (s, .ok _) => (s, .error (.eff 0x0C1#12 none))

/-- One byte of a workgroup's scratchpad as one number, and back. -/
def scratchAt (w o : Nat) : Nat := w * 2 ^ 32 + o
def scratchWg (a : Nat) : Nat := a / 2 ^ 32
def scratchOff (a : Nat) : Nat := a % 2 ^ 32

/-- The tile's memory side through a capability that has passed its checks. -/
def State.tileMem (s : State) (id : FibId) (c : Cap) (y : TileGeo) (o : Nat) (write : Bool) : Got TileMem :=
  if c.kind = 2#4 then
    (s, .ok (.scratch ((y.ranges o).flatMap (fun r => (s.windowParts id c.obj.toNat r.1 r.2).flatMap (fun x => upFrom (scratchAt x.1 x.2.1) x.2.2)))))
  else s.tileReach id c write ((y.ranges o).flatMap (fun r => pieces 65536 r.1 r.2)) (.mem [])

/-- The L1 lines of the issuing core that the tile's rows touch. -/
def TileGeo.l1Lines (y : TileGeo) (o : Nat) : List Nat :=
  ((y.ranges o).flatMap (fun r => (List.range (r.2 / 256 + 2)).map (r.1 / 256 + ·))).dedup.filter (fun l =>
    (y.ranges o).any (fun r => decide (r.1 < 256 * l + 256) && decide (256 * l < r.1 + r.2)))

/-- Steps 2 and 3 of R241: write the core's masked bytes of those lines back and, for TST, drop its copies of the tile's sectors. -/
def State.tileSync (s : State) (core asid obj : Nat) (load : Bool) (y : TileGeo) (o : Nat) : State :=
  let s := s.over (y.l1Lines o) (fun s l => s.l1Sync core asid obj (256 * l))
  if load then s
  else s.over (((y.ranges o).flatMap (fun r => (List.range (r.2 / 64 + 2)).map (r.1 / 64 + ·))).dedup.filter (fun k =>
      (y.ranges o).any (fun r => decide (r.1 < 64 * k + 64) && decide (64 * k < r.1 + r.2)))) (fun s k => s.l1Drop core asid obj (64 * k))

/-! ## The access in flight -/

/-- A tile access by number. -/
def State.tile (s : State) (n : Nat) : Option TileOp := s.tiles.find? (fun t => t.id == n)

/-- Change one tile access. -/
def State.modTile (s : State) (n : Nat) (f : TileOp → TileOp) : State := { s with tiles := s.tiles.map (fun t => if t.id == n then f t else t) }

/-- The tile's scratchpad bytes as they stand. -/
def State.tileSource (s : State) (t : TileOp) : List Byte := t.bytes.map (fun p => (s.scratch t.launch t.wgid).get p.2)

/-- Some of the tile's scratchpad bytes are lost (R107, R364). -/
def State.tileHurt (s : State) (t : TileOp) : Bool := s.scratchHurt t.launch t.wgid (fun x => t.bytes.any (fun p => p.2 == x))

/-- Insert into a rising list without repeats. -/
def insertNew (n : Nat) : List Nat → List Nat
  | [] => [n]
  | x :: xs => if n < x then n :: x :: xs else if n = x then x :: xs else x :: insertNew n xs

/-- Footprint lines of a list of physical addresses. -/
def footprint (as : List Nat) : List Nat := (as.map (· / 256)).dedup

/-- The home slices of a footprint in ascending order. -/
def slicesOf (as : List Nat) : List Nat := (footprint as).foldl (fun l k => insertNew (homeSlice (256 * k)) l) []

/-- The footprint lines of a tile access at one slice. -/
def TileOp.linesAt (t : TileOp) (slice : Nat) : List Nat := (footprint (t.bytes.map (·.1))).filter (fun l => homeSlice (256 * l) == slice)

/-- The request of t at a slice must wait for another access: a line that the other holds, or waits for since earlier at the same slice, unless both load (R242, R243). -/
def TileOp.waitsFor (t u : TileOp) (slice : Nat) (stopped : TileOp → Bool) : Bool :=
  u.id != t.id && !(t.load && u.load) && (t.linesAt slice).any (fun l =>
    u.granted.contains l || (u.slices.head? == some slice && decide (u.seq < t.seq) && !stopped u && (u.linesAt slice).contains l))

/-- The gang of a tile access is not running (R145). -/
def State.tileStopped (s : State) (t : TileOp) : Bool :=
  match s.launch t.launch with
  | none => true
  | some L => match s.gang t.launch (L.gangOf t.wgid) with
    | none => true
    | some g => !g.st.live

/-- The access has moved its bytes, or failed. -/
def TileOp.finished (t : TileOp) : Bool := t.slices.isEmpty && (t.code != 0 || decide (t.bytes.length ≤ t.count))

/-- The data phase once every line is latched (R243): a TLD reads its bytes; a TST stages and commits them. -/
def State.tileData (s : State) (n : Nat) : State :=
  match s.tile n with
  | none => s
  | some t =>
    let key := s.keyOf (s.asidOf t.launch)
    if t.load then
      let lost := t.bytes.any (fun p => s.isBad p.1 1)
      let data := t.bytes.map (fun p => s.rdByte key p.1)
      (s.logLost (s.asidOf t.launch) (t.bytes.map (fun p => (p.1, 1)))).modTile n (fun t => { t with data := if lost then [] else data, count := t.bytes.length, code := if lost then 0x13#8 else 0 })
    else if s.tileHurt t then (s.logScratch (s.asidOf t.launch) t.core).modTile n (fun t => { t with code := 0x13#8 })
    else
      let data := s.tileSource t
      (s.homeWrite key ((t.bytes.map (·.1)).zip data)).modTile n (fun t => { t with data := data, count := t.bytes.length })

/-- Send the requests of a host tile that are not sent yet, as far as tags and window allow; seq counts them (R85, R86). -/
def State.tileHost (s : State) (n link obj : Nat) (t : TileOp) : State :=
  ((runs 1024 (t.bytes.map (·.1))).drop t.seq).foldl (fun (p : State × Bool) r =>
    if !p.2 then p
    else
      let bs := if t.load then [] else (t.data.drop r.1).take r.2.2
      match p.1.hostRequest link (hostPacket (if t.load then 0x01#5 else 0x03#5) r.2.1 r.2.2 bs) (.tile n r.1 r.2.2) t.core r.2.2 ⟨s.asidOf t.launch, obj, none, !t.load⟩ with
      | none => (p.1, false)
      | some (s, _) => (s.modTile n (fun t => { t with seq := t.seq + 1 }), true)) (s, true) |>.1

/-- The bytes of a tile's destination while a TLD is in flight are undefined (R246). -/
def State.tileSmear (s : State) (l w : Nat) (offs : List Nat) : State :=
  let (bs, s) := s.freeBytes offs.length
  s.modScratch l w (fun m => m.writeAt (offs.zip bs))

/-- The packet by which a tile request travels (R30, log entry 30): OBJ and OFF name the tile's first byte, OP its rows less one, COFF its row length (in words) and stride, COBJ the place of the payload in the tile. -/
def tilePacket (kind : BitVec 5) (pos pasid pobj o : Nat) (y : TileGeo) (at_ : Nat) (bs : List Byte) (len : Nat) : Packet :=
  { Packet.zero with kind := kind, dst := posF pos, asid := BitVec.ofNat 12 pasid, obj := BitVec.ofNat 20 pobj, off := BitVec.ofNat 48 o,
                     op := BitVec.ofNat 8 (y.rows - 1), coff := BitVec.ofNat 48 (y.rowbytes / 4 * 2 ^ 32 + y.stride),
                     cobj := BitVec.ofNat 20 at_, len := len, payload := bs }

/-- The instruction issues again after its peer tile was reported reached: its token is pending from now on (R363). -/
def State.tileTaken (s : State) (l w g : Nat) : State :=
  match s.tiles.find? (fun t => t.launch == l && t.wgid == w && t.g == g && !t.ready) with
  | none => s
  | some t =>
    let s := (s.modTile t.id (fun t => { t with ready := true })).pend l w g
    if t.finished then s.later 1 (.tileUnlatch t.id) else s

/-- Start a peer tile (R36): TLDREQ, or the TSTDATs under one tag; the bundle waits until the peer has reported its translation. -/
def State.tilePeer (s : State) (exe : List Nat) (id : FibId) (load : Bool) (g scope : Nat) (c : Cap) (off : Nat) (y : TileGeo) (pos pasid pobj : Nat) : State :=
  let l := id.launch
  let n := s.fresh
  let o := objOff c off
  let core := s.coreOf id
  let offs := y.scratch
  let key := keyAt (s.asidOf l) c.obj.toNat o (!load)
  if (y.ranges o).any (fun r => s.storeAhead core pos pasid pobj r.1 r.2) then s.stopAll exe off (.hold .unacked)
  else if (s.via pos).isNone then (s.pend l id.wgid g).completeToken l id.wgid g scope true 0x10#8 0 false
  else if !load && s.scratchHurt l id.wgid offs.contains then ((s.logScratch (s.asidOf l) core).pend l id.wgid g).completeToken l id.wgid g scope true 0x13#8 0 false
  else
    let data := offs.map (fun p => (s.scratch l id.wgid).get p)
    let first := tilePacket (if load then 0x08#5 else 0x0A#5) pos pasid pobj o y 0 (if load then [] else data.take 512) (if load then 0 else min 512 data.length)
    let s := s.stamp
    match s.request first (.tile id n (low32 off)) core key with
    | none => s.stopAll exe off (.hold .unacked)
    | some (s, tag) =>
      let s := if load then s.tileSmear l id.wgid offs
        else s.over ((List.range ((data.length + 511) / 512)).drop 1) (fun s k =>
          let bs := (data.drop (512 * k)).take 512
          s.sendMore pos tag (tilePacket 0x0A#5 pos pasid pobj o y (512 * k) bs bs.length))
      let op : TileOp := { id := n, load := load, launch := l, wgid := id.wgid, g := g, core := core, scope := max 4 scope,
                           bytes := ((List.range offs.length).zip offs), slices := [], granted := [], data := if load then List.replicate offs.length 0 else data,
                           ready := false, count := 0, seq := 0, place := .peer pos tag, code := 0, mark := none }
      ({ s with tiles := s.tiles ++ [op] }).stopAll exe off (.hold (.remote pos tag))

/-- Some bytes of scratchpads, as scratchAt numbers them, are lost (R107). -/
def State.placesHurt (s : State) (l : Nat) (as : List Nat) : Bool :=
  ((as.map scratchWg).dedup).any (fun w => s.scratchHurt l w (fun b => as.contains (scratchAt w b)))

/-- Write bytes of scratchpads that scratchAt numbers (R226). -/
def State.placesWrite (s : State) (l : Nat) (ps : List (Nat × Byte)) : State :=
  s.over ((ps.map (fun p => scratchWg p.1)).dedup) (fun s w =>
    let mine := ps.filter (fun p => scratchWg p.1 == w)
    (s.modScratch l w (fun m => m.writeAt (mine.map (fun p => (scratchOff p.1, p.2))))).scratchWrote l w (fun b => mine.any (fun p => p.1 == scratchAt w b)))

/-- A tile of the scratchpads moves at once: a TLD reads, a TST writes the addressed side (R202, R226). -/
def State.tileLocal (s : State) (n : Nat) : State :=
  match s.tile n with
  | none => s
  | some t =>
    let as := t.bytes.map (·.1)
    let data := if t.load then t.bytes.map (fun p => (s.scratch t.launch (scratchWg p.1)).get (scratchOff p.1)) else s.tileSource t
    let lost := if t.load then s.placesHurt t.launch as else s.tileHurt t
    let s := if t.load || lost then s else s.placesWrite t.launch (as.zip data)
    let s := if lost then s.logScratch (s.asidOf t.launch) t.core else s
    (s.modTile n (fun t => { t with data := data, count := as.length, code := if lost then 0x13#8 else 0, mark := none })).later 1 (.tileUnlatch n)

/-- Start a tile access that has passed every check: its token becomes pending and it goes on by itself (R241, R243, R363). -/
def State.tileStart (s : State) (exe : List Nat) (id : FibId) (load : Bool) (g scope : Nat) (c : Cap) (off : Nat) (y : TileGeo) (m : TileMem) (mark : Option Nat) : State :=
  let l := id.launch
  let w := id.wgid
  let n := s.fresh
  let core := s.coreOf id
  let a := s.asidOf l
  let offs := y.scratch
  let op : TileOp := { id := n, load := load, launch := l, wgid := w, g := g, core := core, scope := scope, bytes := [], slices := [], granted := [],
                       data := [], ready := true, count := 0, seq := n, place := .mem, code := 0, mark := mark }
  let smear (s : State) : State := if load then s.tileSmear l w offs else s
  match m with
  | .peer pos pasid pobj => s.tilePeer exe id load g scope c off y pos pasid pobj
  | .mem as =>
    if (y.l1Lines (objOff c off)).any (fun k => s.l1Dirty core a c.obj.toNat (256 * k) && s.lineLatched a c.obj.toNat k) then
      s.stopAll exe off (.hold (.latch ((as.filter s.latched).headD 0 / 256)))
    else
      let s := smear (((s.tileSync core a c.obj.toNat load y (objOff c off)).pend l w g).stamp)
      { s with tiles := s.tiles ++ [{ op with bytes := as.zip offs, slices := slicesOf as }] }.later 1 (.tileLatchGrant n)
  | .scratch as =>
    let s := smear ((s.pend l w g).stamp)
    let s := { s with tiles := s.tiles ++ [{ op with bytes := as.zip offs, place := .scratch }] }
    if mark.isNone then s.tileLocal n else s.later 100 (.tileLatchGrant n)
  | .host link as =>
    let data := if load then List.replicate as.length 0 else offs.map (fun p => (s.scratch l w).get p)
    let lost := !load && s.scratchHurt l w offs.contains
    let s := if lost then s.logScratch a core else s
    let s := smear ((s.pend l w g).stamp)
    { s with tiles := s.tiles ++ [{ op with bytes := as.zip offs, place := .host link c.obj.toNat, data := data, seq := 0, code := if lost then 0x13#8 else 0 }] }.later 1
      (if lost then .tileUnlatch n else .tileLatchGrant n)

/-- The bundle's one tile access, in the order of R363. With .rel, the access waits for the release and the fibre goes on (R238); at a peer object, where the instruction waits for the peer's translation in any case (R36), it waits for the release first. -/
def State.tileIssue (s : State) (exe : List Nat) (id : FibId) (load : Bool) (g : Nat) (words : List Word) (c : Cap) (off : Nat) (rel : Bool) (scope : Nat) : State :=
  let l := id.launch
  let w := id.wgid
  match s.launch l with
  | none => s
  | some L =>
    if (s.answer id).isSome then s.tileTaken l w g
    else match tileGeo L words with
    | none => s.completeToken l w g scope true 0x36#8 0 false
    | some y =>
      match capCheck c kData [if load then rR else rW, rT] off y.span 64 with
      | some t => s.stopAll exe off (.eff t none)
      | none =>
        match s.tileMem id c y (objOff c off) (!load) with
        | (s, .error e) => s.stopAll exe off e
        | (s, .ok m) =>
          if y.scratch.any (fun p => decide (L.sp * 65536 ≤ p)) then s.completeToken l w g scope true 0x37#8 0 false
          else match if !rel then (s, .ok none) else (match m with
            | .peer .. => (match s.releaseFor id scope with
              | (s, .error e) => (s, .error e)
              | (s, .ok _) => (s, .ok none))
            | _ => s.releaseIssue id scope : Got (Option Nat)) with
            | (s, .error e) => s.stopAll exe off e
            | (s, .ok mark) => s.tileStart exe id load g scope c off y m mark

/-- A tile instruction: uniform operands, then the one access of the bundle (R164, R363). -/
def State.tileInstr (s : State) (i : Instr) (load : Bool) (g q : BitVec 5) (c : BitVec 4) (x : BitVec 6) (rel : Bool) (scope : BitVec 3) : Host.Outcome State Fault Refusal :=
  s.issue i (fun s _ exe =>
    let r := s.uniform exe (fun f => (f.cap c.toNat, f.reg x.toNat))
    if !r.2 then r.1
    else match r.1.curFibs exe with
      | [] => r.1
      | f :: _ => r.1.tileIssue exe (r.1.curId f.fid) load g.toNat ((List.range 4).map (fun k => r.1.gval (q.toNat + k)))
          (f.cap c.toNat) (f.reg x.toNat).toNat rel scope.toNat)

/-- TLD (R363). -/
def execTld (g q : BitVec 5) (c : BitVec 4) (x : BitVec 6) (r : Bool) (sc : BitVec 3) (s : State) : Host.Outcome State Fault Refusal :=
  s.tileInstr (.tld g q c x r sc) true g q c x r sc

/-- TST (R363). -/
def execTst (g q : BitVec 5) (c : BitVec 4) (x : BitVec 6) (r : Bool) (sc : BitVec 3) (s : State) : Host.Outcome State Fault Refusal :=
  s.tileInstr (.tst g q c x r sc) false g q c x r sc

/-! ## The phases (R243) -/

/-- The next slice's request of a tile access: grant it if it can be granted, and go on. -/
def State.tileGrant (s : State) (n : Nat) (t : TileOp) (slice : Nat) (rest : List Nat) : State :=
  if (t.granted.isEmpty && s.tileStopped t) || s.tiles.any (fun u => t.waitsFor u slice s.tileStopped) then s
  else
    let k := s.fresh
    let s := s.stamp.modTile n (fun t => { t with granted := t.granted ++ t.linesAt slice, slices := rest, seq := k })
    if rest = [] then (s.tileData n).later 1 (.tileUnlatch n) else s.later 1 (.tileLatchGrant n)

/-- The next action of a tile access that is free to begin: a latch request, the next requests to a host, or the move within the scratchpads. -/
def State.tileGo (s : State) (n : Nat) (t : TileOp) : State :=
  match t.slices with
  | slice :: rest => s.tileGrant n t slice rest
  | [] => match t.place with
    | .host link obj => s.tileHost n link obj t
    | .scratch => if t.finished then s else s.tileLocal n
    | _ => s

/-- TILE_LATCH_GRANT (R243). A tile access begins when the release that it waits for is complete (R238). -/
def execTileLatchGrant (n : Nat) (s : State) : Host.Outcome State Fault Refusal :=
  .next (match s.tile n with
    | none => s
    | some t => match t.mark with
      | none => s.tileGo n t
      | some _ =>
        let r := s.relStep t.core t.scope t.mark
        if r.2 then (r.1.modTile n (fun t => { t with mark := none })).tileGo n t else r.1.later 100 (.tileLatchGrant n))

/-- Ask again for every tile access that waits for a grant or for a host tag. -/
def State.tilesAgain (s : State) : State :=
  s.over (s.tiles.filter (fun t => !t.slices.isEmpty || (match t.place with
    | .host .. => !t.finished
    | _ => false))) (fun s t =>
      if s.agenda.any (fun x => x.ev == .tileLatchGrant t.id) then s else s.later 1 (.tileLatchGrant t.id))

/-- A finished tile access leaves: a TLD's bytes stand in the scratchpad, the lines are unlatched, what waited for them goes on, and the token completes (R239, R243, R364). -/
def State.tileEnd (s : State) (t : TileOp) : State :=
  let s := if t.load && t.code == 0 then
      (s.modScratch t.launch t.wgid (fun m => m.writeAt ((t.bytes.map (·.2)).zip t.data))).scratchWrote t.launch t.wgid (fun x => t.bytes.any (fun p => p.2 == x))
    else s
  let s := { s with tiles := s.tiles.filter (fun u => u.id != t.id) }
  let s := s.endWaits (fun w => match w with
    | .latch line => t.granted.contains line
    | _ => false)
  let s := s.completeToken t.launch t.wgid t.g t.scope (t.code != 0) t.code (if t.code = 0 then t.bytes.length else 0) false
  s.emptyBuffers.tilesAgain.retry.wakesAgain

/-- TILE_UNLATCH (R243): an access that has moved its bytes, and whose token is pending, completes. -/
def execTileUnlatch (n : Nat) (s : State) : Host.Outcome State Fault Refusal :=
  .next (match s.tile n with
    | none => s
    | some t => if t.finished && t.ready then s.tileEnd t else s)

end Sys2Proof.Machine
end

