-- ==== Sys2Proof/Machine/Fabric.lean ====
section
/-! DEFINITION. Fabric packets: the peer's side of loads, stores, atomics, tiles, bulk transfers, migrations and shoot-downs, and the requester's side of their answers (R31 to R40, R200), detours (R41, R55), time-outs and dead peers (R24, R35, R40). -/

namespace Sys2Proof.Machine

/-! ## Answers -/

/-- Answer a packet under its tag; the answer is kept for a packet that comes again (R26). -/
def State.reply (s : State) (p r : Packet) : State :=
  match s.routed { r with dst := p.src, tag := p.tag, epoch := p.epoch } with
  | none => s
  | some r => { s with txq := s.txq ++ [r], performed := s.performed.map (fun (f : Performed) => if f.link == none && f.packet == plainPacket p then { f with replies := f.replies ++ [r] } else f) }

/-- ACK (R34). -/
def State.ackTo (s : State) (p : Packet) : State := s.reply p { Packet.zero with kind := 0x06#5 }

/-- NACK with a status; OFF bit 0 says that writes are blocked, bit 1 that it concerns the counter (log entry 30). -/
def State.nackTo (s : State) (p : Packet) (status : BitVec 8) (why : Nat) : State :=
  s.reply p { Packet.zero with kind := 0x07#5, op := status, off := BitVec.ofNat 48 why }

/-! ## The peer's side -/

/-- Translate a range at the owner (R32): its pieces of memory, or the refusal's status and reason. A piece that lies outside memory, or whose table word is lost, is lost data (R13, R107): its address stands among the pieces. -/
def State.served (s : State) (p : Packet) (obj off n : Nat) (write : Bool) : Except (BitVec 8 × Nat) (List (Nat × Nat)) :=
  (pieces 65536 off n).foldl (fun (r : Except (BitVec 8 × Nat) (List (Nat × Nat))) x =>
    match r with
    | .error e => .error e
    | .ok segs => match s.xlatNow false ⟨p.asid.toNat, obj, x.1, x.2, write, false⟩ with
      | .pa a _ => .ok (segs ++ [(a, x.2)])
      | .lost a => .ok (segs ++ [(a, x.2)])
      | .fault t => .error (refusalOf t, if t = 0x0D2#12 then 1 else 0)
      | _ => .error (0x14#8, 0)) (.ok [])

/-- Data of these pieces is lost: an uncorrectable error, or no memory there (R13, R107). -/
def State.segsGone (s : State) (segs : List (Nat × Nat)) : Bool := s.segsBad segs || segs.any (fun x => decide (Config.memTop < x.1 + x.2))

/-- The ranges of a tile packet (log entry 30). -/
def tileRanges (p : Packet) : List (Nat × Nat) :=
  let rb := 4 * (p.coff.toNat / 2 ^ 32)
  (List.range (p.op.toNat + 1)).map (fun r => (p.off.toNat + r * (p.coff.toNat % 2 ^ 32), rb))

/-- Translate every row of a tile. -/
def State.servedTile (s : State) (p : Packet) (write : Bool) : Except (BitVec 8 × Nat) (List (Nat × Nat)) :=
  (tileRanges p).foldl (fun (r : Except (BitVec 8 × Nat) (List (Nat × Nat))) x =>
    match r with
    | .error e => .error e
    | .ok segs => match s.served p p.obj.toNat x.1 x.2 write with
      | .error e => .error e
      | .ok t => .ok (segs ++ t)) (.ok [])

/-- Some line of the segments is latched against the access. -/
def State.segsLatched (s : State) (segs : List (Nat × Nat)) (write : Bool) : Bool := s.spanLatched write (.mem segs)

/-- A received request waits for a tile access of this package to unlatch its lines (R36, R242). -/
def State.rxBlocked (s : State) (p : Packet) : Bool :=
  let go (write : Bool) : Except (BitVec 8 × Nat) (List (Nat × Nat)) → Bool
    | .error _ => false
    | .ok segs => s.segsLatched segs write
  let word (obj off n : Nat) : Bool := go true (s.served p obj off n true)
  if p.dst.val ≠ s.pos then false
  else match p.kind.toNat with
    | 0x01 => go false (s.served p p.obj.toNat p.off.toNat p.len false)
    | 0x03 => go true (s.served p p.obj.toNat p.off.toNat p.len true)
    | 0x04 => go true (s.served p p.obj.toNat p.off.toNat (atomicSize p.op) true)
    | 0x08 => go false (s.servedTile p false)
    | 0x0A => go true (s.servedTile p true)
    | 0x0B => go true (s.served p p.obj.toNat p.off.toNat p.len true) || word p.cobj.toNat p.coff.toNat 8
    | 0x10 => word p.obj.toNat p.off.toNat 16
    | 0x0C => go false (s.served p p.obj.toNat p.off.toNat p.len false)
    | _ => false

/-- As recvFabric, for a request that may have to wait. -/
def State.recvReady (s : State) (kind : BitVec 5) (f : Packet → State → State) : Host.Outcome State Fault Refusal :=
  match s.rxq with
  | p :: _ => if s.rxBlocked p then .next s else s.recvFabric kind none f
  | [] => .next s

/-- Bytes of translated segments. -/
def State.segsRead (s : State) (asid : Nat) (segs : List (Nat × Nat)) : List Byte := segs.flatMap (fun x => s.rd (s.keyOf asid) x.1 x.2)

/-- Write bytes over translated segments at the home slices (R33, R34). -/
def State.segsWrite (s : State) (asid : Nat) (segs : List (Nat × Nat)) (bs : List Byte) : State :=
  (segs.foldl (fun (p : State × List Byte) x => (p.1.homeStore (s.keyOf asid) x.1 (p.2.take x.2), p.2.drop x.2)) (s, bs)).1

/-- The sizes of an access packet (R30). -/
def accessSize (n : Nat) : Bool := n == 1 || n == 2 || n == 4 || n == 8 || n == 16

/-- The bytes that a load request asks for: those of a line fill end where the object does (R37). -/
def State.fillLen (s : State) (p : Packet) : Nat :=
  match s.entry p.asid.toNat p.obj.toNat with
  | some e => if p.len = 256 ∧ p.off.toNat < e.size then min 256 (e.size - p.off.toNat) else p.len
  | none => p.len

/-- LDREQ (R34, R37). -/
def execLdreq (s : State) : Host.Outcome State Fault Refusal :=
  s.recvReady 0x01#5 (fun p s =>
    let n := s.fillLen p
    if !accessSize p.len && p.len != 256 then s.nackTo p 0x14#8 0
    else match s.served p p.obj.toNat p.off.toNat n false with
      | .error e => s.nackTo p e.1 e.2
      | .ok segs =>
        if s.segsGone segs then (s.logLost p.asid.toNat segs).nackTo p 0x13#8 0
        else
          let rc := (s.entry p.asid.toNat p.obj.toNat).any (fun e => s.rcOn e p.asid.toNat p.obj.toNat p.off.toNat) && !s.revoking p.asid.toNat p.obj.toNat (p.off.toNat / 2097152)
          let s := s.over segs (fun s x => s.homeTouch x.1 false)
          s.reply p { Packet.zero with kind := 0x02#5, rcok := rc, len := n, payload := s.segsRead p.asid.toNat segs })

/-- The bytes that a STREQ's mask selects, as (place, byte) pairs (R30, log entry 30). -/
def maskedBytes (p : Packet) : List (Nat × Byte) :=
  ((List.range p.payload.length).zip p.payload).filter (fun x => p.op.getLsbD (if p.len = 16 then x.1 / 2 else x.1))

/-- STREQ (R32, R33, R34). -/
def execStreq (s : State) : Host.Outcome State Fault Refusal :=
  s.recvReady 0x03#5 (fun p s =>
    if !accessSize p.len then s.nackTo p 0x14#8 0
    else match s.served p p.obj.toNat p.off.toNat p.len true with
      | .error e => s.nackTo p e.1 e.2
      | .ok segs =>
        if s.segsGone segs then (s.logLost p.asid.toNat segs).nackTo p 0x13#8 0
        else
          let a := (segs.headD (0, 0)).1
          (s.homeWrite (s.keyOf p.asid.toNat) ((maskedBytes p).map (fun x => (a + x.1, x.2)))).ackTo p)

/-- ATREQ (R34, R235, R236). -/
def execAtreq (s : State) : Host.Outcome State Fault Refusal :=
  s.recvReady 0x04#5 (fun p s =>
    let n := atomicSize p.op
    if (!p.op.getLsbD 7 && decide (0x0A < p.op.toNat)) || p.len != atomicSrc p.op || p.off.toNat % n != 0 then s.nackTo p 0x14#8 0
    else match s.served p p.obj.toNat p.off.toNat n true with
      | .error e => s.nackTo p e.1 e.2
      | .ok segs =>
        if s.segsGone segs then (s.logLost p.asid.toNat segs).nackTo p 0x13#8 0
        else
          let r := s.atomicHome (s.keyOf p.asid.toNat) (segs.headD (0, 0)).1 p.op (bytesNat p.payload)
          r.1.reply p { Packet.zero with kind := 0x05#5, len := n, payload := natBytes n r.2 })

/-- TLDREQ (R36): the tile is read while no store latches its lines, and returned in packets of 512 bytes. -/
def execTldreq (s : State) : Host.Outcome State Fault Refusal :=
  s.recvReady 0x08#5 (fun p s =>
    match s.servedTile p false with
    | .error e => s.nackTo p e.1 e.2
    | .ok segs =>
      if s.segsGone segs then (s.logLost p.asid.toNat segs).nackTo p 0x13#8 0
      else
        let bs := s.segsRead p.asid.toNat segs
        s.over (List.range ((bs.length + 511) / 512)) (fun s k =>
          let part := (bs.drop (512 * k)).take 512
          s.reply p { Packet.zero with kind := 0x09#5, cobj := BitVec.ofNat 20 (512 * k), len := part.length, payload := part }))

/-- What is staged under a source's tag and EPOCH bit. -/
def stagedOf (s : State) (p : Packet) : StagedTile :=
  (s.staged.find? (fun x => x.src == p.src.val && x.tag == p.tag.toNat + 4096 * bitNum p.epoch)).getD ⟨p.src.val, p.tag.toNat + 4096 * bitNum p.epoch, []⟩

/-- Forget what is staged under a source's tag. -/
def State.unstage (s : State) (p : Packet) : State := { s with staged := s.staged.filter (fun x => !(x.src == p.src.val && x.tag % 4096 == p.tag.toNat)) }

/-- Add bytes to what is staged. -/
def StagedTile.add (t : StagedTile) (place : Nat) (bs : List Byte) : StagedTile := { t with got := t.got.filter (fun g => g.1 != place) ++ [(place, bs)] }

/-- The staged bytes below a length, when every one is there. -/
def StagedTile.whole (t : StagedTile) (base n : Nat) : Option (List Byte) :=
  let ks := (List.range ((n + 511) / 512)).map (fun k => t.got.find? (fun g => g.1 == base + 512 * k))
  if ks.all (·.isSome) then some ((ks.flatMap (fun g => (g.map (·.2)).getD [])).take n) else none

/-- TSTDAT (R36): staged, and committed once the last packet under its tag has arrived; every packet is then acknowledged. -/
def execTstdat (s : State) : Host.Outcome State Fault Refusal :=
  s.recvReady 0x0A#5 (fun p s =>
    match s.servedTile p true with
    | .error e => (s.unstage p).nackTo p e.1 e.2
    | .ok segs =>
      if s.segsGone segs then ((s.unstage p).logLost p.asid.toNat segs).nackTo p 0x13#8 0
      else
        let t := (stagedOf s p).add p.cobj.toNat p.payload
        let n := (segs.map (·.2)).sum
        let s := s.unstage p
        match t.whole 0 n with
        | none => { s with staged := s.staged ++ [t] }
        | some bs => (s.segsWrite p.asid.toNat segs bs).over t.got (fun s g => s.ackTo { p with cobj := BitVec.ofNat 20 g.1, payload := g.2, len := g.2.length }))

/-- The counter of a bulk packet at its owner: the word's address, or why not (R39). -/
def State.counterAt (s : State) (p : Packet) : Except (BitVec 8 × Nat) Nat :=
  if p.coff.toNat % 8 ≠ 0 then .error (0x14#8, 2)
  else match s.xlatNow false ⟨p.asid.toNat, p.cobj.toNat, p.coff.toNat, 8, true, false⟩ with
    | .pa a _ => .ok a
    | .lost a => .ok a
    | .fault t => if t = 0x0D1#12 ∨ t = 0x0D2#12 then .error (0x11#8, if t = 0x0D2#12 then 3 else 2) else .error (0x14#8, 2)
    | _ => .error (0x14#8, 2)

/-- Add to an arrival counter, modulo 2^64 (R39). -/
def State.countIn (s : State) (key a n : Nat) : State := s.homeStore key a (natBytes 8 (bytesNat (s.rd key a 8) + n))

/-- PUT (R39). -/
def execPut (s : State) : Host.Outcome State Fault Refusal :=
  s.recvReady 0x0B#5 (fun p s =>
    match s.counterAt p with
    | .error e => s.nackTo p e.1 e.2
    | .ok a => match s.served p p.obj.toNat p.off.toNat p.len true with
      | .error e => s.nackTo p e.1 e.2
      | .ok segs =>
        if s.segsGone ((a, 8) :: segs) then (s.logLost p.asid.toNat ((a, 8) :: segs)).nackTo p 0x13#8 0
        else ((s.segsWrite p.asid.toNat segs p.payload).countIn (s.keyOf p.asid.toNat) a p.len).ackTo p)

/-- GETREQ (R39). -/
def execGetreq (s : State) : Host.Outcome State Fault Refusal :=
  s.recvReady 0x0C#5 (fun p s =>
    match s.served p p.obj.toNat p.off.toNat p.len false with
    | .error e => s.nackTo p e.1 e.2
    | .ok segs =>
      if s.segsGone segs then (s.logLost p.asid.toNat segs).nackTo p 0x13#8 0
      else s.reply p { Packet.zero with kind := 0x0D#5, len := p.len, payload := s.segsRead p.asid.toNat segs })

/-! ## Continuation migration at the peer (R200) -/

/-- A number in bytes. -/
def numAt (bs : List Byte) (o n : Nat) : Nat := bytesNat ((bs.drop o).take n)

/-- Replace a number in bytes. -/
def setNumAt (bs : List Byte) (o n x : Nat) : List Byte := bs.take o ++ natBytes n x ++ bs.drop (o + n)

/-- The new number of a captured segment; a number that names none stays. -/
def renumber (m : List (Nat × Nat)) (x : Nat) : Nat := ((m.find? (fun p => p.1 == x)).map (·.2)).getD x

/-- The old numbers of the captured segments, top first: TOP and the LINKs. -/
def oldNumbers (parts : List (List Byte)) : List Nat :=
  match parts with
  | [] => []
  | r :: segs => (numAt r 0x30 4 :: segs.map (fun b => numAt b 0 8)).take segs.length

/-- Renumber the OUTER fields of every handler frame at the base of a captured segment, those that UNHANDLE has removed among them. -/
def State.renumberOuter (s : State) (a : Nat) (m : List (Nat × Nat)) (segs : List Nat) : State :=
  s.over segs (fun s h => if s.segNum a h 10 2 % 2 = 1 then s.setHOuter a h (renumber m (s.hframe a h).outer) else s)

/-- Write one received segment with its tags. -/
def State.placeSeg (s : State) (a n : Nat) (bs : List Byte) (tags : List Bool) : State :=
  match s.segPA a n with
  | none => s
  | some pa =>
    let s := s.put (s.keyOf a) (addrs pa bs)
    { s with mem := ((List.range 64).zip tags).foldl (fun m t => m.setTag (pa + 16 * t.1) t.2) s.mem }

/-- Take a migrated continuation into new segments (R200 steps 3 to 5). -/
def State.takeMigrated (s : State) (p : Packet) (bs : List Byte) (tags : List Bool) : State :=
  let a := p.asid.toNat
  let n := p.cobj.toNat + 1
  match s.xlatNow false ⟨a, p.obj.toNat, p.off.toNat, 16, true, false⟩, s.asid a with
  | .pa dest _, some d =>
    if d.free.length < n then s.nackTo p 0x29#8 0
    else
      let news := d.free.take n
      let s := s.modAsid a (fun d => { d with free := d.free.drop n })
      let parts := (List.range n).map (fun k => (bs.drop (1024 * k)).take 1024)
      let m := (oldNumbers parts).zip (news.drop 1)
      let r := news.headD 0
      let rec_ := parts.headD []
      let rec_ := setNumAt (setNumAt rec_ 0x30 4 (renumber m (numAt rec_ 0x30 4))) 0x34 4 (renumber m (numAt rec_ 0x34 4))
      let rec_ := setNumAt (setNumAt rec_ 0x38 4 (renumber m (numAt rec_ 0x38 4))) 0x3C 4 (renumber m (numAt rec_ 0x3C 4))
      let segs := (parts.drop 1).map (fun b => setNumAt b 0 8 (renumber m (numAt b 0 8)))
      let s := s.over (((rec_ :: segs).zip news).zip (List.range n)) (fun s x => s.placeSeg a x.1.2 x.1.1 ((tags.drop (64 * x.2)).take 64))
      let s := s.renumberOuter a m (news.drop 1)
      let (serial, s) := s.nextSerial a
      let s := s.setRecWord a r serial (recReply (numAt rec_ 0x10 8)) stLive
      (s.homeCap (s.keyOf a) dest (s.contCap a r serial)).ackTo p
  | .lost x, some _ => (s.logAddr a x).nackTo p 0x13#8 0
  | _, _ => s.nackTo p 0x14#8 0

/-- CMIG (R200): packets are gathered under their tag; granule tags are staged at 2^40 above their bytes. -/
def execCmig (s : State) : Host.Outcome State Fault Refusal :=
  s.recvReady 0x10#5 (fun p s =>
    let k := p.coff.toNat
    let t := ((stagedOf s p).add k p.payload).add (2 ^ 40 + k) (p.gtags.map (fun b => if b then 1#8 else 0#8))
    let n := 1024 * (p.cobj.toNat + 1)
    let s := s.unstage p
    match t.whole 0 n with
    | none => { s with staged := s.staged ++ [t] }
    | some bs =>
      let tags := (List.range (n / 512)).flatMap (fun k => ((t.got.find? (fun g => g.1 == 2 ^ 40 + 512 * k)).map (·.2)).getD [])
      s.takeMigrated p bs (tags.map (· != 0)))

/-! ## Shoot-downs at the peer (R38) -/

/-- An RC line of this package comes from the region that a SHOOT names. -/
def RcLine.shot (r : RcLine) (p : Packet) : Bool :=
  r.pos == p.src.val && r.pasid == p.asid.toNat && r.pobj == p.obj.toNat && r.line * 256 / 2097152 == p.off.toNat / 2097152

/-- A local object maps to the peer object that a packet names, and the offset lies in the packet's region. -/
def State.mapsTo (s : State) (asid obj off : Nat) (p : Packet) : Bool :=
  (s.entry asid obj).any (fun e => e.typ == 5 && e.peerPos == p.src.val && e.peerAsid == p.asid.toNat && e.peerObj == p.obj.toNat) && off / 2097152 == p.off.toNat / 2097152

/-- A load of the region is outstanding. -/
def State.loadOpen (s : State) (p : Packet) : Bool :=
  s.txs.any (fun t => t.dst == p.src.val && (match t.kind with
    | .load .. => true
    | _ => false) && t.pkts.any (fun k => k.asid == p.asid && k.obj == p.obj && k.off.toNat / 2097152 == p.off.toNat / 2097152))

/-- Answer the shoot-downs whose region has no outstanding load left. -/
def State.shootsReady (s : State) : State :=
  s.over (s.shootsIn.filter (fun p => !s.loadOpen p)) (fun s p => { s with shootsIn := s.shootsIn.erase p }.ackTo p)

/-- SHOOT (R38 step 3): the region's RC counts here no more, so that a writer released by the owner can write. -/
def execShoot (s : State) : Host.Outcome State Fault Refusal :=
  s.recvFabric 0x0E#5 none (fun p s =>
    let s := s.unRc p.src.val p.asid.toNat p.obj.toNat (p.off.toNat / 2097152)
    let s := { s with rcLines := s.rcLines.filter (fun r => !r.shot p),
                      cores := s.cores.map (fun (c : Core) => { c with l1 := c.l1.filter (fun l => !(l.rc && s.mapsTo l.asid l.obj (256 * l.line) p)) }),
                      shootsIn := s.shootsIn ++ [p] }
    s.shootsReady)

/-! ## The requester's side -/

/-- The transaction that a response answers: same tag, and the EPOCH bit with which it was sent (R31). -/
def State.txOf (s : State) (p : Packet) : Option Tx :=
  s.txs.find? (fun t => t.dst == p.src.val && t.tag == p.tag.toNat && s.epochOf t.dst t.tag != p.epoch)

/-- A transaction is over: whoever waits for a tag, an acknowledgement or the end of a load looks again. -/
def State.dropTx (s : State) (t : Tx) : State :=
  (State.retry { s with txs := s.txs.filter (fun x => !(x.dst == t.dst && x.tag == t.tag)) }).shootsReady.sendShoots.wakesAgain

/-- A transaction ends without its response: with a dead peer it is over, and else its tag is kept until the response has come (R31). -/
def State.leaveTx (s : State) (t : Tx) (dead : Bool) : State :=
  if dead then s.dropTx t
  else (State.retry { s with txs := s.txs.map (fun (x : Tx) => if x.dst == t.dst && x.tag == t.tag then { x with kind := .gone } else x) }).shootsReady

/-- The die keeps the line of a fill that carries RCOK, unless a shoot-down of its region is being answered (R37, R38). -/
def State.keepRc (s : State) (t : Tx) (p : Packet) : State :=
  match t.pkts.head? with
  | none => s
  | some k =>
    if !p.rcok ∨ k.len ≠ 256 ∨ s.shootsIn.any (fun x => x.src == p.src && x.asid == k.asid && x.obj == k.obj && x.off.toNat / 2097152 == k.off.toNat / 2097152) then s
    else
      let r : RcLine := ⟨rcSlice (dieOf t.core) k.obj.toNat k.off.toNat, t.dst, k.asid.toNat, k.obj.toNat, k.off.toNat / 256, BitVec.ofNat 2048 (bytesNat p.payload), p.payload.length⟩
      let s := { s with rcLines := s.rcLines.filter (fun x => !(x.slice == r.slice && x.pos == r.pos && x.pasid == r.pasid && x.pobj == r.pobj && x.line == r.line)) }
      let s := s.homeRoom r.slice (Config.rcSet r.pos r.pasid r.pobj r.line % 512)
      { s with rcLines := r :: s.rcLines }

/-- LDRSP (R34, R37). -/
def execLdrsp (s : State) : Host.Outcome State Fault Refusal :=
  s.recvFabric 0x02#5 none (fun p s =>
    match s.txOf p with
    | none => s
    | some t => match t.kind with
      | .load _ _ => (((s.keepRc t p).answerRemote t.dst t.tag p.payload).dropTx t)
      | .get cmd off _ => (s.partIn cmd off p.payload).dropTx t
      | .gone => s.dropTx t
      | _ => s)

/-- ATRSP (R34). -/
def execAtrsp (s : State) : Host.Outcome State Fault Refusal :=
  s.recvFabric 0x05#5 none (fun p s =>
    match s.txOf p with
    | none => s
    | some t => match t.kind with
      | .atomic _ _ => (s.answerRemote t.dst t.tag p.payload).dropTx t
      | .gone => s.dropTx t
      | _ => s)

/-- Bytes of a peer tile have moved: with the last byte the transaction ends. The fibres that wait for its translation go on when no fault can come any more: a TST's with the first acknowledgement, a TLD's with the last of its data (R36, R363). -/
def State.tileMoved (s : State) (t : Tx) (tile n : Nat) : State :=
  let s := s.modTile tile (fun y => { y with count := y.count + n })
  match s.tile tile with
  | none => (s.answerRemote t.dst t.tag []).dropTx t
  | some y =>
    let s := if y.load && !y.finished then s else s.answerRemote t.dst t.tag []
    if !y.finished then s
    else
      let s := s.dropTx t
      if y.ready then s.later 1 (.tileUnlatch tile) else s

/-- A peer tile is refused: its fibres perform the effect, and the access is gone (R36). -/
def State.tileRefused (s : State) (t : Tx) (tile : Nat) (e : BitVec 12) (off : Word) (key : Option HamperKey) : State :=
  let ready := (s.tile tile).any (·.ready)
  let s := { s with tiles := s.tiles.filter (fun y => ready || y.id != tile) }
  let s := if ready then (s.modTile tile (fun y => { y with code := 0x13#8 })).later 1 (.tileUnlatch tile) else s.failRemote t.dst t.tag e off key
  s.dropTx t

/-- TLDDAT (R36). -/
def execTlddat (s : State) : Host.Outcome State Fault Refusal :=
  s.recvFabric 0x09#5 none (fun p s =>
    match s.txOf p with
    | none => s
    | some t => match t.kind with
      | .tile _ n off =>
        if p.op ≠ 0 then s.tileRefused t n (effectOf p.op) off (if p.op = 0x11#8 then some t.key else none)
        else (s.modTile n (fun y => { y with data := y.data.take p.cobj.toNat ++ p.payload ++ y.data.drop (p.cobj.toNat + p.payload.length) })).tileMoved t n p.payload.length
      | .gone => s.dropTx t
      | _ => s)

/-- GETDAT (R39): written at the destination and counted there; a destination that is no longer resident stalls the command. -/
def execGetdat (s : State) : Host.Outcome State Fault Refusal :=
  s.recvFabric 0x0D#5 none (fun p s =>
    match s.txOf p with
    | none => s
    | some t => match t.kind with
      | .get cmd off n =>
        let s := s.dropTx t
        match s.cmd cmd with
        | none => s
        | some c =>
          if c.st = .finished then s
          else if s.cmdStopped c then s.putBack cmd off n
          else match s.span c (c.cap 1) off n true, s.span c (c.cap 3) 0 8 true with
            | .walk d a o p, _ => (s.putBack cmd off n).walkFor c d a o p
            | _, .walk d a o p => (s.putBack cmd off n).walkFor c d a o p
            | .failed e, _ => s.finish cmd e c.acked
            | _, .failed _ => s.finish cmd 0x14#8 c.acked
            | .lost a, _ => (s.logAddr c.asid a).finish cmd 0x13#8 c.acked
            | _, .lost a => (s.logAddr c.asid a).finish cmd 0x13#8 c.acked
            | .stall k, _ => (s.putBack cmd off n).stallHere c k off
            | _, .stall k => (s.putBack cmd off n).stallHere c k off
            | dst, .mem ((a, b) :: rest) =>
              if s.isBad a 8 then (s.logLost c.asid [(a, 8)]).finish cmd 0x13#8 c.acked
              else if s.spanLatched true dst || s.spanLatched true (.mem ((a, b) :: rest)) then (s.putBack cmd off n).poke 10 cmd
              else (((s.spanWrite c p.payload dst).countIn (s.keyOf c.asid) a n).modCmd cmd (fun c => { c with acked := c.acked + 1 })).poke 1 cmd
            | _, _ => s.finish cmd 0x14#8 c.acked
      | .gone => s.dropTx t
      | _ => s)

/-- Count an exchange-mode packet among the bytes sent to its receiver (R67). -/
def State.countSent (s : State) (c : Command) (q n : Nat) : State :=
  if !c.exch then s
  else match s.myExch (BitVec.ofNat 32 (c.num 4 4)) with
    | none => s
    | some e => s.modExch e.cmd (fun e => { e with sentTo := e.sentTo ++ [(q, n)] })

/-- ACK (R34, R38, R40, R200). -/
def execAck (s : State) : Host.Outcome State Fault Refusal :=
  s.recvFabric 0x06#5 none (fun p s =>
    match s.txOf p with
    | none => s
    | some t => match t.kind with
      | .store _ _ => (s.answerRemote t.dst t.tag []).dropTx t
      | .tile _ n _ => s.tileMoved t n (match s.tile n with
          | none => 0
          | some y => min 512 (y.bytes.length - y.count))
      | .put cmd off n =>
        let s := s.dropTx t
        match s.cmd cmd with
        | none => s
        | some c =>
          if c.kind = .xput then (((s.countSent c t.dst n).modCmd cmd (fun c => { c with acked := c.acked + 1 })).poke 1 cmd) else s.partWritten cmd off n
      | .shoot a o r => (s.dropTx t).shootSeen a o r t.dst
      | .cmig cmd =>
        let s := s.dropTx t
        match s.cmd cmd with
        | none => s
        | some c => if c.st = .running then s.cmigrDone c else s
      | .gone => s.dropTx t
      | _ => s)

/-- A bulk or copy packet is refused (R35, R39, R40). -/
def State.cmdRefused (s : State) (t : Tx) (cmd off n : Nat) (p : Packet) : State :=
  let s := s.dropTx t
  match s.cmd cmd with
  | none => s
  | some c =>
    if c.st = .finished then s
    else if p.op ≠ 0x11#8 then s.finish cmd p.op c.reached
    else
      let key := if p.off.getLsbD 1 then keyAt c.asid (c.cap 3).obj.toNat (c.cap 3).base.toNat true else t.key
      if c.kind = .xput ∨ c.kind = .xget then
        (if c.stalled then (s.putBack cmd off n).modCmd cmd (fun c => { c with fault := min c.fault off }) else (s.putBack cmd off n).stallAt c key off)
      else if c.stalled then s
      else (s.abandonCmd cmd).stallCmd { c with buf := [] } key

/-- NACK (R35, R40). -/
def execNack (s : State) : Host.Outcome State Fault Refusal :=
  s.recvFabric 0x07#5 none (fun p s =>
    if (p.op = 0x21#8 ∨ p.op = 0x22#8) ∧ p.len = 6 then
      s.over (s.exchs.filter (fun e => e.exid.toNat == pnum p 0 4 && e.mask.toNat == pnum p 4 2 && !e.failed && e.calendar.isNone)) (fun s e => s.failPost e p.op)
    else match s.txOf p with
      | none => s
      | some t =>
        let e := if p.op = 0x11#8 ∧ p.off.getLsbD 0 then 0x0D2#12 else effectOf p.op
        let key := if p.op = 0x11#8 then some t.key else none
        match t.kind with
        | .load _ off => (s.failRemote t.dst t.tag e off key).dropTx t
        | .store _ off => (s.failRemote t.dst t.tag e off key).dropTx t
        | .atomic _ off => (s.failRemote t.dst t.tag e off key).dropTx t
        | .tile _ n off => s.tileRefused t n e off key
        | .put cmd off n => s.cmdRefused t cmd off n p
        | .get cmd off n => s.cmdRefused t cmd off n p
        | .cmig cmd =>
          let s := s.dropTx t
          match s.cmd cmd with
          | none => s
          | some c => if c.st = .running then s.cmigrFail c p.op else s
        | .gone => s.dropTx t
        | .shoot .. => s)

/-! ## Detours and notes -/

/-- DETOUR_RELAY (R41, R55): a packet for another position goes on over virtual channel 1, or, in the window of a relay fold, into the relay store. -/
def execDetourRelay (s : State) : Host.Outcome State Fault Refusal :=
  match s.rxq with
  | p :: rest =>
    if p.dst.val = s.pos then .next s
    else
      let s := { s with rxq := rest }
      .next (if (s.peer p.dst.val).died then s
        else if p.kind == 0x0B#5 && s.relayWindow p then { s with relay := s.relay ++ [p] }
        else { s with txq := s.txq ++ [{ p with hop2 := true, vc := true, sched := false }] })
  | [] => .next s

/-- NOTE (R30, R35, R38, R151). -/
def execNote (s : State) : Host.Outcome State Fault Refusal :=
  s.recvFabric 0x11#5 none (fun p s =>
    let die := pnum p 0 4
    let n := pnum p 4 8
    let region := p.off.toNat / 2097152
    let k : HamperKey := ⟨p.asid.toNat, p.obj.toNat, some region, p.cobj.getLsbD 0⟩
    match p.op.toNat with
    | 1 => (match s.entry k.asid k.obj with
        | none => s.noteTo p.src.val 3 k die n
        | some e =>
          let asked := { s with asks := s.asks ++ [Ask.mk p.src.val k die n] }
          if k.write && s.rcOn e k.asid k.obj p.off.toNat then asked.startShoot k.asid k.obj region
          else if s.regionResident e region then s.noteTo p.src.val 2 k die n
          else asked.hamperEnter 0 k)
    | 2 => s.releaseRec die n
    | 3 => s.endRec die n
    | 4 => s.failUnits (fun u => u.level == die && u.num == n && u.mask.getLsbD p.src.val)
    | _ => s)

/-! ## Time-outs and dead peers (R24, R35, R40) -/

/-- A transaction ends without an answer: by time-out, or because its peer is dead or no path reaches it. -/
def State.txEnds (s : State) (t : Tx) (dead : Bool) : State :=
  let code : BitVec 8 := if dead then 0x10#8 else 0x15#8
  match t.kind with
  | .load _ off => (s.failRemote t.dst t.tag 0x0D0#12 off none).leaveTx t dead
  | .atomic _ off => (s.failRemote t.dst t.tag 0x0D0#12 off none).leaveTx t dead
  | .store f _ => ((s.modFib f (fun x => { x with lost := x.lost ||| 1 })).answerRemote t.dst t.tag []).leaveTx t dead
  | .tile _ n _ =>
    let s := ((s.modTile n (fun y => { y with code := code })).answerRemote t.dst t.tag []).leaveTx t dead
    if (s.tile n).any (·.ready) then s.later 1 (.tileUnlatch n) else s
  | .put cmd _ _ => (match s.cmd cmd with
      | none => s.leaveTx t dead
      | some c => (if c.st = .finished then s else s.finish cmd code c.reached).leaveTx t dead)
  | .get cmd _ _ => (match s.cmd cmd with
      | none => s.leaveTx t dead
      | some c => (if c.st = .finished then s else s.finish cmd code c.reached).leaveTx t dead)
  | .cmig cmd => (match s.cmd cmd with
      | none => s.leaveTx t dead
      | some c => (if c.st = .finished then s else s.cmigrFail c code).leaveTx t dead)
  | .shoot a o r => (s.dropTx t).shootSeen a o r t.dst
  | .gone => s.leaveTx t dead

/-- REMOTE_REQUEST_TIMEOUT (R35). -/
def execRemoteRequestTimeout (dst : Fin 16) (tag : BitVec 12) (s : State) : Host.Outcome State Fault Refusal :=
  .next (match s.txs.find? (fun t => t.dst == dst.val && t.tag == tag.toNat && decide (t.issued + 100000 ≤ s.ticks)) with
    | none => s
    | some t => match t.kind with
      | .load .. => s.txEnds t false
      | .store .. => s.txEnds t false
      | .atomic .. => s.txEnds t false
      | .tile .. => s.txEnds t false
      | _ => s)

/-- FABRIC_TIMEOUT (R40, R200, R386): a packet of the command has had no acknowledgement for 100 µs. -/
def execFabricTimeout (cmd : Nat) (s : State) : Host.Outcome State Fault Refusal :=
  .next (match (s.cmdTxs cmd).find? (fun t => decide (t.issued + 100000 ≤ s.ticks)) with
    | none => s
    | some t => s.txEnds t false)

/-- What is left to send to a position is dropped, and what left through it in the last 100 µs is sent again over its new path, but for requests that have ended (R42). -/
def State.reroute (s : State) (q : Nat) : State :=
  let lost := ((s.detoured.filter (fun x => x.2.via.val == q && x.2.dst.val != q && decide (s.ticks < x.1 + 100000))).map (·.2)).filter (fun k =>
    !isRequest k.kind || s.txs.any (fun t => t.owns k))
  let s := { s with txq := s.txq.filter (fun k => k.dst.val != q && s.hop k != q), detoured := s.detoured.filter (fun x => x.2.via.val != q && x.2.dst.val != q) }
  { s with txq := s.txq ++ lost.filterMap (fun k => s.routed { k with replay := true, sched := false }) }

/-- A peer counts as dead: its outstanding requests end, its barriers fail, and its shoot-downs and closes are no longer awaited (R24, R41, R43). -/
def State.endPeer (s : State) (q : Nat) : State :=
  let s := s.over (s.txs.filter (fun t => t.dst == q)) (fun s t => s.txEnds t true)
  let s := s.over s.shoots (fun s x => if x.waiting.getLsbD q then s.shootSeen x.asid x.obj x.region q else s)
  let s := s.failUnits (fun u => u.mask.getLsbD q)
  let s := s.over (s.cmds.filter (fun c => c.st == .running && c.kind != .join)) (fun s c => s.poke 1 c.id)
  s.exchPeerDead q

/-- A peer is declared dead (R24): management is told, and what its packets had begun here is forgotten. -/
def State.killPeer (s : State) (q : Nat) : State :=
  let s := (s.modPeer q (fun p => { p with live := false, died := true })).toMgmt (.deadPeer q)
  let s := (s.setDetours).reroute q
  let s := { s with rxq := s.rxq.filter (fun p => p.src.val != q), staged := s.staged.filter (fun x => x.src != q), asks := s.asks.filter (fun a => a.pos != q),
                    shootsIn := s.shootsIn.filter (fun p => p.src.val != q) }
  s.endPeer q

/-- Look at a peer again at some time, unless that is arranged already. -/
def State.watchPeer (s : State) (pos : Fin 16) : State :=
  if s.agenda.any (fun t => t.ev == .peerDead pos) then s else s.at ((s.peer pos.val).lastHeard + 50000) (.peerDead pos)

/-- PEER_DEAD (R24): 50 µs without a sideband message; a message heard since then puts it off. A peer that no path reaches counts as dead as long as that lasts (R41). -/
def execPeerDead (pos : Fin 16) (s : State) : Host.Outcome State Fault Refusal :=
  let p := s.peer pos.val
  .next (
    if !p.live || p.died then s
    else if p.lastHeard + 50000 ≤ s.ticks then s.killPeer pos.val
    else if s.reachable pos.val && (s.via pos.val).isNone then (s.endPeer pos.val).watchPeer pos
    else s.watchPeer pos)

/-- SHOOT_DOWN_OVERDUE (R24, R38). -/
def execShootDownOverdue (asid obj region : Nat) (s : State) : Host.Outcome State Fault Refusal :=
  let late := s.txs.filter (fun t => t.kind == .shoot asid obj region && decide (t.issued + 100000 ≤ s.ticks))
  .next (s.over (late.map (·.dst)) (fun s q => s.killPeer q))

/-- LINK_TRAINING_COMPLETE (R24): the peer's pairs lock and it becomes live; a dead peer stays dead until the power-on sequence. The manual does not say whose: the model takes this package's own, so that the training of a peer that died and has been powered on again counts only after it (log entry 31). -/
def execLinkTrainingComplete (pos : Fin 16) (s : State) : Host.Outcome State Fault Refusal :=
  let q := pos.val
  .next (
    if (s.peer q).died || q == s.pos then s
    else
      let s := s.over ((pairsOf s.pos q).filter (fun p => (s.pair p).lanes.isEmpty && !(s.pair p).failedNow)) State.lockPair
      let s := s.modPeer q (fun p => { p with populated := true, live := true, lastHeard := s.ticks, pairsTo := p.pairsTo })
      (s.setDetours).later 50000 (.peerDead pos))

end Sys2Proof.Machine
end

