-- ==== Sys2Proof/Machine/Sideband.lean ====
section
/-! DEFINITION. Sideband messages of the node: barrier arrivals (R43, R150), liveness and link state (R28, R41, R42), and time runs (R106). -/

namespace Sys2Proof.Machine

/-! ## Barrier arrivals (R28, R43, R150) -/

/-- Hold an arrival, once. -/
def State.holdArrival (s : State) (a : HeldArrival) : State := if s.heldArrivals.contains a then s else { s with heldArrivals := s.heldArrivals ++ [a] }

/-- An arrival counts at its unit in the unit's phase; one of the next phase is kept when its origin has arrived in this one, and is a stale duplicate otherwise; without a bound unit it is held. -/
def State.countArrival (s : State) (a : HeldArrival) : State :=
  match s.units.find? (fun u => u.level == a.level && u.num == a.num) with
  | none => s.holdArrival a
  | some u =>
    if !u.mask.getLsbD a.origin then s
    else if a.phase = u.phase then
      (s.modUnit u.launch u.level u.num (fun u => { u with seen := u.seen ||| ((1 : BitVec 16) <<< a.origin) })).settleBarriers u.launch
    else if u.seen.getLsbD a.origin then s.holdArrival a
    else s

/-- BARRIER_ARRIVAL (R43): counted when it is meant for this package, and repeated as the intermediate when the position that it is relayed for is another. -/
def execBarrierArrival (s : State) : Host.Outcome State Fault Refusal :=
  s.recvSideband 4 (fun pair _ m s =>
    match peerOfPair s.pos pair with
    | none => s
    | some q =>
      let b := m.body.toNat
      let origin := b / 16 % 16
      let r := b % 16
      let a : HeldArrival := ⟨if b / 2 ^ 15 = 1 then 8 else 7, b / 2 ^ 14 % 2, b / 2 ^ 13 % 2 == 1, origin⟩
      let s := if origin = s.pos then s else s.modPeer origin (fun p => { p with lastHeard := s.ticks })
      let s := if q = origin ∧ r ≠ s.pos ∧ r ≠ origin then (s.sbTo r (barrierMsg (a.level == 8) a.num a.phase origin r)).1 else s
      if origin ≠ s.pos ∧ r = s.pos then s.countArrival a else s)

/-! ## Liveness (R28, R41, R42) -/

/-- LIVENESS_AND_LINK_STATE (R41, R42). -/
def execLivenessAndLinkState (s : State) : Host.Outcome State Fault Refusal :=
  s.recvSideband 5 (fun pair _ m s =>
    match peerOfPair s.pos pair with
    | none => s
    | some q => if (s.peer q).pairsTo = m.body then s else (s.modPeer q (fun p => { p with pairsTo := m.body })).setDetours)

/-- The positions to which this package holds a working pair, as a mask. -/
def State.linkMask (s : State) : BitVec 16 := BitVec.ofNat 16 (((List.range 16).filter (fun q => q != s.pos && s.direct q)).map (2 ^ ·)).sum

/-- LIVENESS_SEND (R28): on every working pair, every microsecond. -/
def execLivenessSend (s : State) : Host.Outcome State Fault Refusal :=
  let m : Sideband := ⟨5, s.linkMask⟩
  .next ((s.over ((List.range 16).filter (fun q => q != s.pos)) (fun s q => (s.sbTo q m).1)).later 1000 .livenessSend)

/-! ## Node time (R106) -/

/-- The time master: the live package with the lowest position. -/
def State.timeMaster (s : State) : Nat := s.livePositions.headD s.pos

/-- The position with which this package exchanges runs as a peer: the master, or the intermediate to it; none for the master itself. -/
def State.timeUp (s : State) : Option Nat :=
  if s.timeMaster = s.pos then none else if s.direct s.timeMaster then some s.timeMaster else s.interOf s.pos s.timeMaster

/-- The moment at which a message queued now on the first lane of a pair, behind so many more, starts transmission. -/
def State.sendsAt (s : State) (p k : Nat) : Nat :=
  let due := ((s.agenda.find? (fun t => match t.ev with
    | .laneCodewordSend q l => q.val == p && l.val == 0
    | _ => false)).map (·.due)).getD s.ticks
  let ahead := match (s.pair p).lanes with
    | [] => 0
    | l :: _ => l.2.sbQ.length
  max due s.ticks + 85 * (ahead + k)

/-- Queue a time run on a pair, an Idle message before it. -/
def State.sendRun (s : State) (p t : Nat) : State :=
  s.over (⟨0, 0⟩ :: [48, 32, 16, 0].map (fun k => ⟨6, BitVec.ofNat 16 (t / 2 ^ k)⟩)) (fun s m => s.sbOn p m)

/-- Begin an exchange with each of some peers, on its first working pair; the run carries the moment at which it starts. -/
def State.startRuns (s : State) (qs : List Nat) : State :=
  s.over qs (fun s q =>
    match (pairsOf s.pos q).find? (fun p => (s.pair p).works) with
    | none => s
    | some p => s.sendRun p (s.sendsAt p 1 - s.epoch))

/-- The count at which the next house frame starts (R104). -/
def State.nextFrame (s : State) : Nat := (s.frameNum + 1) * 1024000 + s.epoch

/-- NODE_TIME_SYNC (R106): slot 0 of each house frame. -/
def execNodeTimeSync (s : State) : Host.Outcome State Fault Refusal :=
  let s := { s with sync := { s.sync with t1 := none, t2 := none, t3 := none, run := [] } }
  let s := if s.timeMaster = s.pos then s.startRuns (s.livePositions.filter (fun q => q != s.pos && s.direct q)) else s
  .next (s.at s.nextFrame .nodeTimeSync)

/-- Correct fabric time: at once before FULL, by slewing after it, on top of what is still to be slewed. -/
def State.correctTime (s : State) (offset : Int) : State :=
  if s.mg.full then { s with sync := { s.sync with slew := s.sync.slew - offset } } else { s with ftime := BitVec.ofInt 64 ((s.ftime.toNat : Int) - offset) }

/-- A whole run has been received, which began to arrive at some moment: step 2, 3 or 4 of the exchange. -/
def State.takeRun (s : State) (p q began t : Nat) : State :=
  if s.timeUp = some q then
    match s.sync.t1, s.sync.t2, s.sync.t3 with
    | some t1, some t2, some t3 =>
      let s := { s with sync := { s.sync with t1 := none, t2 := none, t3 := none } }
      let s := s.correctTime (Int.tdiv (((t2 : Int) - t1) - ((t : Int) - t3)) 2)
      s.startRuns (s.livePositions.filter (fun x => x != s.pos && s.direct x && s.interOf x s.timeMaster == some s.pos && s.reportsNone x s.timeMaster))
    | _, _, _ =>
      let t3 := s.sendsAt p 1 - s.epoch
      { s.sendRun p t3 with sync := { s.sync with t1 := some t, t2 := some began, t3 := some t3 } }
  else s.sendRun p began

/-- TIME_SYNCHRONISATION (R106): one message of a run; the fourth completes it. -/
def execTimeSynchronisation (s : State) : Host.Outcome State Fault Refusal :=
  s.recvSideband 6 (fun pair _ m s =>
    match peerOfPair s.pos pair with
    | none => s
    | some q =>
      let (began, bodies) := ((s.sync.run.find? (fun r => r.1 == pair)).map (·.2)).getD (s.fabric, [])
      let bodies := bodies ++ [m.body]
      let s := { s with sync := { s.sync with run := s.sync.run.filter (fun r => r.1 != pair) ++ (if bodies.length < 4 then [(pair, began, bodies)] else []) } }
      if bodies.length < 4 then s else s.takeRun pair q began (bodies.foldl (fun n b => n * 65536 + b.toNat) 0))

end Sys2Proof.Machine
end

