-- ==== Sys2Proof/Machine/Bringup.lean ====
section
/-! DEFINITION. Power-on, the management registers, limited and full service (R94 to R103), service pairs and their leader (R95, R109, R110), the house frame (R104, R105), and power and throttle states (R20 to R22). -/

namespace Sys2Proof.Machine

/-! ## Starting again -/

/-- Operations that the outside puts on the agenda: management, the environment, links and the device supervisor's policy, and the beats of the service pairs, which go on from power-on (R109). What the package's other units had planned does not survive a restart. -/
def fromOutside (i : Instr) : Bool :=
  match i with
  | .acceptWrite .. => true
  | .mgmtRegisterWrite .. => true
  | .powerGood .. => true
  | .dieMemoryInitialised .. => true
  | .lockstepMismatch _ => true
  | .sensorSampling _ => true
  | .patrolScrub fs => !fs.isEmpty
  | .pairFailure .. => true
  | .codewordReceive .. => true
  | .linkTrainingComplete _ => true
  | .connectionOpen .. => true
  | .connectionClose _ => true
  | .peerClose _ => true
  | .tdiRun .. => true
  | .tdiLeaveRun _ => true
  | .doeMessage .. => true
  | .hamperRelease .. => true
  | .regionMigration _ => true
  | .queueBind .. => true
  | .queueUnbind _ => true
  | .objectTableUpdate .. => true
  | .asidCreate .. => true
  | .asidDestroy _ => true
  | .ctrlReset => true
  | .ctrlFwgo => true
  | .ctrlRaise => true
  | .pcieLinkTrained => true
  | .leaderBeat => true
  | .leaderTakeover => true
  | _ => false

/-- An error in a home slice. -/
def Hurt.isHome (h : Hurt) : Bool :=
  match h with
  | .home .. => true
  | _ => false

/-- The package with every unit as at reset (R96, R97), the throttle state P0 among them (R20): what lies in non-volatile storage, what management has assigned, time, health and the logs remain. -/
def State.restart (s : State) : State :=
  { State.reset with
    now := s.now, ftime := s.ftime, clock := s.clock, fresh := s.fresh, freeCount := s.freeCount, mem := s.mem, keyed := s.keyed, bad := s.bad,
    hurts := s.hurts.filter Hurt.isHome,
    agenda := s.agenda.filter (fun t => fromOutside t.ev), nodeNum := s.nodeNum, pos := s.pos, endpoint := s.endpoint,
    boot := s.boot, takeover := s.takeover,
    mg := { Mgmt.reset with noFull := s.mg.noFull, mgmt := s.mg.mgmt, leader := s.mg.leader, errlog := s.mg.errlog, errhead := s.mg.errhead, pwrstat := s.mg.pwrstat &&& ~~~(3#32), fwstage := s.mg.fwstage,
                            flash := s.mg.flash, vendorKeys := s.mg.vendorKeys, rollback := s.mg.rollback },
    power := { State.reset.power with readings := s.power.readings }, svc := s.svc, mgmtOut := s.mgmtOut }

/-- The healthy service pairs, ascending. -/
def State.healthy (s : State) : List Nat := (List.range 4).filter (fun d => (s.svc.getD d ⟨false, 0, false⟩).healthy)

/-- Power-on has failed (R98). -/
def State.bootFail (s : State) (code : Word) : State := { s with mg := { s.mg with step := 15, booterr := code } }

/-- The next time at which a slot of the house frame from lo to hi starts (R104). -/
def State.nextSlot (s : State) (lo hi : Nat) : Nat :=
  let frame := s.frameNum * 1024000 + s.epoch
  (((List.range (hi - lo + 1)).map (fun k => frame + 16000 * (lo + k))).find? (fun t => decide (s.ticks < t))).getD (frame + 1024000 + 16000 * lo)

/-- The recurring work of the service pairs begins (R24, R28, R104). -/
def State.beginFrames (s : State) : State :=
  let s := (s.later 1000 .livenessSend).at s.nextFrame .nodeTimeSync
  let s := (s.at s.nextFrame .throttleEvaluation).at (s.nextSlot 1 40) .hbmRefresh
  let s := (s.at (s.nextSlot 41 52) (.patrolScrub [])).at (s.nextSlot 53 56) .recalibration
  (s.at (s.nextSlot 58 58) .telemetryCollection).at (s.nextSlot 60 60) .linkstatRefresh

/-- Some stack of a die cannot be trained (R10, R97 step 3). -/
def State.untrained (s : State) (die : Nat) : Bool := [0, 1, 2].any (fun k => s.boot.untrained.getLsbD (3 * die + k))

/-- Firmware calibrates (R97 step 3, R98): clocks lock, the pairs of scale-out ports and tray links lock, and the stacks are trained; a die with a stack that is not becomes unusable. The pairs to peers lock as their links train. -/
def State.calibrate (s : State) : State :=
  if !s.boot.clocks then s.bootFail 0x04#32
  else
    let s := s.over ((List.range 13).map portPair ++ (List.range 4).map trayPair) State.lockPair
    let s := ({ s with mg := { s.mg with step := 3 }, dies := (List.range 4).map (fun d => DieState.mk false (s.untrained d)) } : State).beginFrames
    if [0, 1, 2, 3].any s.untrained then s.bootFail 0x05#32 else s

/-- The check of an image (R97 step 2, R98): it is accepted, and calibration follows, or power-on fails. -/
def State.verify (s : State) (image : List Byte) : State :=
  let (version, sig, body) := Config.imageParts image
  let digest := Config.sha512 body
  if !s.mg.vendorKeys.any (fun k => Config.ed25519Verify k digest sig) then s.bootFail 0x01#32
  else if version < s.mg.rollback then s.bootFail 0x02#32
  else if s.healthy.any (fun d => s.boot.wrong.getLsbD d) then s.bootFail 0x03#32
  else State.later { s with mg := { s.mg with step := 2, booterr := 0, imageVersion := version, imageDigest := digest } } 1000 .recalibration

/-- POWER_GOOD (R97, R98, R109): nothing volatile survives; the healthy pair on the lowest die leads, and its beats begin. -/
def execPowerGood (up : PowerUp) (s : State) : Host.Outcome State Fault Refusal :=
  let r := s.restart
  let r := { r with mem := Mem.empty, keyed := [], bad := [], hurts := [], mgmtOut := [], power := State.reset.power, boot := up.found, takeover := none,
                    agenda := r.agenda.filter (fun (t : Timed) => t.ev != Instr.leaderBeat && t.ev != Instr.leaderTakeover),
                    svc := (List.range 4).map (fun d => SvcPair.mk (up.healthy.getLsbD d) s.ticks false) }
  let r := { r with mg := { Mgmt.reset with flash := s.mg.flash, vendorKeys := s.mg.vendorKeys, rollback := s.mg.rollback } }
  .next (match r.healthy with
    | [] => { r with mg := { r.mg with booterr := 0x07#32 } }
    | d :: _ => (State.later { r with mg := { r.mg with leader := BitVec.ofNat 2 d } } 0 .leaderBeat).later 300000 .leaderTakeover)

/-- PCIE_LINK_TRAINED (R97): MGMT is set, and with a leader step 1 begins on the image in flash. -/
def execPcieLinkTrained (s : State) : Host.Outcome State Fault Refusal :=
  let t := { s with mg := { s.mg with mgmt := true } }
  .next (if s.mg.mgmt then s else if s.healthy = [] then t else { t with mg := { t.mg with step := 1 } }.verify s.mg.flash)

/-! ## Limited and full service (R97 to R103) -/

/-- FULL is set (R97, R98, R101, R103, R106): the ACCEPT words come into force, held faults are released, and the Folding Tables' beats begin. -/
def State.setFull (s : State) : State :=
  let s := { s with mg := { s.mg with full := true, limited := false, step := 5, inForce := s.mg.accept.getD 0 0, rollback := max s.mg.rollback s.mg.imageVersion },
                    ft := { s.ft with lastPrimary := s.ticks } }
  let s := { s with sync := { s.sync with epoch := if s.timeMaster = s.pos ∧ s.sync.epoch.isNone then some s.ticks else s.sync.epoch } }
  let s := s.over [0, 1, 2, 3] State.releaseHeld
  (s.later 10000 .heartbeatSend).later 30000 .standbyTakeover

/-- Every die's memory is initialised. -/
def State.allInitialised (s : State) : Bool := s.dies.all (·.initialised)

/-- A die's quarter of memory after initialisation: zero data, clear tags, no error (R97 step 4). -/
def State.clearDie (s : State) (die : Nat) : State :=
  let out (a : Nat) : Bool := a / Config.dieBytes != die
  { s with mem := ⟨s.mem.cells.filter (fun c => out c.1), s.mem.tags.filter (fun g => out (16 * g))⟩, keyed := s.keyed.filter (fun k => out k.1), bad := s.bad.filter (fun b => out (64 * b)), hurts := s.hurts.filter (fun h => match h with
      | .home b _ => out (64 * b)
      | _ => true) }

/-- Die 0's memory is initialised (R97 step 5): LIMITED is set, and the device supervisor sets its windows (R46, R214). -/
def State.setLimited (s : State) : State :=
  { s with mg := { s.mg with limited := true, step := 4 },
           ft := { s.ft with window := (s.boot.collection.map (fun w => max 10000 (min 10000000 w))).getD s.ft.window },
           hamperWindow := (s.boot.hamper.map (fun w => max 1000 (min 1000000 w))).getD s.hamperWindow }

/-- DIE_MEMORY_INITIALISED (R97, R98): die 0 comes first, and the others wait for it; a failure after LIMITED leaves die 0 in service, without FULL. -/
def execDieMemoryInitialised (die : Fin 4) (ok : Bool) (s : State) : Host.Outcome State Fault Refusal :=
  let d := s.dies.getD die.val ⟨false, false⟩
  .next (
    if s.power.stopped ∨ (s.mg.step ≠ 3 ∧ s.mg.step ≠ 4) ∨ d.initialised ∨ d.unusable then s
    else if die.val ≠ 0 ∧ !s.mg.limited then s.later 1000000 (.dieMemoryInitialised die ok)
    else if !ok then State.bootFail { s with dies := s.dies.set die.val ⟨false, true⟩, mg := { s.mg with noFull := s.mg.limited } } 0x06#32
    else
      let s : State := { s.clearDie die.val with dies := s.dies.set die.val ⟨true, false⟩ }
      let s : State := if die.val = 0 then s.setLimited else s
      if s.mg.step = 4 ∧ s.mg.raised ∧ s.allInitialised then s.setFull else s)

/-- An ACCEPT word is written (R102). -/
def State.acceptWord (s : State) (i : Nat) (v : Word) : State :=
  if s.mg.mgmt && !s.mg.full then
    { s with mg := { s.mg with accept := s.mg.accept.set i (if i = 0 then v &&& Config.offer0 else 0), acceptWritten := s.mg.acceptWritten.set i true } }
  else s

/-- ACCEPT_WRITE (R102). -/
def execAcceptWrite (i : Fin 4) (v : Word) (s : State) : Host.Outcome State Fault Refusal := .next (s.acceptWord i.val v)

/-- RAISE (R96, R97): honoured in step 4 once every ACCEPT word is written; FULL follows when every die is initialised. -/
def State.raiseFull (s : State) : State :=
  if s.mg.mgmt ∧ !s.power.stopped ∧ !s.mg.noFull ∧ s.mg.step = 4 ∧ s.mg.acceptWritten.all (· == true) then
    (let s := { s with mg := { s.mg with raised := true } }
     if s.allInitialised then s.setFull else s)
  else s

/-- A management command: while a takeover fences, it waits (R110). -/
def State.command (s : State) (ev : Instr) (act : State → State) : State := if s.takeover.isSome then s.later 36000 ev else act s

/-- CTRL_RAISE (R96, R97). -/
def execCtrlRaise (s : State) : Host.Outcome State Fault Refusal := .next (s.command .ctrlRaise State.raiseFull)

/-- The staged firmware image, up to the last byte written. -/
def State.stagedImage (s : State) : List Byte :=
  match s.mg.fwstage.getLast? with
  | none => []
  | some l => (List.range (l.1 + 1)).map (cellsGet s.mg.fwstage)

/-- FWGO (R96, R98). After a die has become unusable in limited service FULL stays out of reach all the same. -/
def State.fwgo (s : State) : State :=
  if s.mg.mgmt ∧ s.healthy ≠ [] ∧ (s.mg.step = 1 ∨ s.mg.step = 15) then { s.restart with mg := { s.restart.mg with fromStage := true } }.verify s.stagedImage else s

/-- CTRL_FWGO (R96). -/
def execCtrlFwgo (s : State) : Host.Outcome State Fault Refusal := .next (s.command .ctrlFwgo State.fwgo)

/-- RESET (R96, R143): every gang ends without an image, and the power-on sequence begins again at step 1. -/
def State.resetCtrl (s : State) : State :=
  if !s.mg.mgmt ∨ s.healthy = [] then s else { s.restart with mg := { s.restart.mg with step := 1, noFull := false } }.verify s.mg.flash

/-- CTRL_RESET (R96). -/
def execCtrlReset (s : State) : Host.Outcome State Fault Refusal := .next (s.command .ctrlReset State.resetCtrl)

/-! ## The register space (R94) -/

/-- READY (R95). -/
def State.readyWord (s : State) : Word :=
  BitVec.ofNat 32 ((s.healthy.map (fun d => 2 ^ (12 + d))).sum + s.mg.leader.toNat * 2 ^ 10 + s.mg.step.toNat * 16 + bitNum s.mg.full * 4 + bitNum s.mg.limited * 2 + bitNum s.mg.mgmt)

/-- A register of the management space as it reads (R94): an unlisted offset, CTRL and FWSTAGE read zero. -/
def State.mgmtRead (s : State) (off : Nat) : Word :=
  if off = 0x0000 then s.readyWord
  else if off = 0x0008 then s.mg.booterr
  else if off = 0x0010 then Config.offer0
  else if 0x0020 ≤ off ∧ off < 0x0030 then s.mg.accept.getD ((off - 0x20) / 4) 0
  else if 0x0040 ≤ off ∧ off < 0x0060 then BitVec.ofNat 32 (bytesNat ((Config.ident.drop (off - 0x40)).take 4))
  else if 0x0100 ≤ off ∧ off < 0x0200 then BitVec.ofNat 32 ((s.mg.errlog.getD ((off - 0x100) / 8) 0).toNat / 2 ^ (8 * ((off - 0x100) % 8)))
  else if off = 0x0200 then BitVec.ofNat 32 s.mg.errhead
  else if off = 0x0400 then s.mg.pwrstat
  else if 0x0800 ≤ off ∧ off < 0x0900 then (s.pair ((off - 0x800) / 4)).linkstat
  else 0

/-- A read of the management space (R94): only an aligned 32-bit one is performed; none stands for Completer Abort. -/
def State.mgmtLoad (s : State) (off size : Nat) : Option Word := if size = 4 ∧ off % 4 = 0 then some (s.mgmtRead off) else none

/-- MGMT_REGISTER_WRITE (R94, R96, R102, R22): only aligned 32-bit accesses are performed. -/
def execMgmtRegisterWrite (off size : Nat) (v : Word) (s : State) : Host.Outcome State Fault Refusal :=
  .next (
    if !s.mg.mgmt then s
    else if size ≠ 4 ∨ off % 4 ≠ 0 then s.toMgmt (.completerAbort off)
    else if off = 0x0004 then s.command (.mgmtRegisterWrite off size v) (fun s =>
      match v.toNat % 8 with
      | 1 => s.raiseFull
      | 2 => s.fwgo
      | 4 => s.resetCtrl
      | _ => s)
    else if 0x0020 ≤ off ∧ off < 0x0030 then s.acceptWord ((off - 0x20) / 4) v
    else if off = 0x0400 then { s with mg := { s.mg with pwrstat := s.mg.pwrstat &&& ~~~(v &&& 0xF0#32) } }
    else if 0x100000 ≤ off ∧ off < 0x1000000 then
      { s with mg := { s.mg with fwstage := ((List.range 4).zip (natBytes 4 v.toNat)).foldl (fun c p => cellsSet c (off - 0x100000 + p.1) p.2) s.mg.fwstage } }
    else s)

/-! ## Service pairs (R109, R110) -/

/-- LOCKSTEP_MISMATCH (R109). -/
def execLockstepMismatch (die : Fin 4) (s : State) : Host.Outcome State Fault Refusal :=
  .next { s with svc := s.svc.set die.val { (s.svc.getD die.val ⟨false, 0, false⟩) with healthy := false } }

/-- LEADER_BEAT (R109): a healthy leader is heard by every pair. -/
def execLeaderBeat (s : State) : Host.Outcome State Fault Refusal :=
  .next (
    if !(s.svc.getD s.mg.leader.toNat ⟨false, 0, false⟩).healthy then s
    else State.later { s with svc := s.svc.map (fun (p : SvcPair) => { p with lastBeat := s.ticks }) } 100000 .leaderBeat)

/-- The pair that would take over: the healthy one on the lowest die other than the leader's. -/
def State.heir (s : State) : Option Nat := s.healthy.find? (fun d => d != s.mg.leader.toNat)

/-- A takeover begins: the old leader is stopped for good, and the fence holds management commands and Hamper batches back (R110). The 36 µs are those of the manual's example (log entry 23). -/
def State.beginTakeover (s : State) (d : Nat) : State :=
  let old := s.mg.leader.toNat
  State.later { s with svc := s.svc.set old { (s.svc.getD old ⟨false, 0, false⟩) with healthy := false, fenced := true }, takeover := some d } 36000 .leaderTakeover

/-- A takeover ends: the migrations that were in progress are restarted, and the new leader is named and beats (R110). Object-table roots and queue positions are read from where they stand. -/
def State.endTakeover (s : State) (d : Nat) : State :=
  let old := s.mg.leader.toNat
  let s := { s with svc := s.svc.map (fun (p : SvcPair) => { p with lastBeat := s.ticks }), mg := { s.mg with leader := BitVec.ofNat 2 d }, takeover := none }
  let s := State.stamp { s with migrs := s.migrs.map (fun (m : Migr) => { m with mark := s.fresh }) }
  let s := s.over s.migrs (fun s m => s.later 0 (.regionMigration m.grant))
  (((s.logError 0 old 6 5).toMgmt (.msix 1)).later 0 .leaderBeat).later 300000 .leaderTakeover

/-- LEADER_TAKEOVER (R110): 300 µs without a beat begin a takeover; it ends once the fence is through. -/
def execLeaderTakeover (s : State) : Host.Outcome State Fault Refusal :=
  .next (match s.takeover, s.heir with
    | some d, _ => s.endTakeover d
    | none, none => s
    | none, some d =>
      let last := (s.svc.getD d ⟨false, 0, false⟩).lastBeat
      if s.ticks < last + 300000 then s.at (last + 300000) .leaderTakeover else s.beginTakeover d)

/-! ## The house frame (R104, R105) -/

/-- HBM_REFRESH (R21, R104): one batch for each stack, two for one above 85 °C. -/
def execHbmRefresh (s : State) : Host.Outcome State Fault Refusal :=
  let batches (k : Nat) : Nat := if 85 < s.power.readings.hbm.getD k 0 then 2 else 1
  .next (State.at { s with house := { s.house with refreshed := (List.range 12).map (fun k => s.house.refreshed.getD k 0 + batches k) } } (s.nextSlot 1 40) .hbmRefresh)

/-- RECALIBRATION (R97, R104): in step 2 of power-on the first calibration, later the trims of the house frame. -/
def execRecalibration (s : State) : Host.Outcome State Fault Refusal :=
  .next (if s.mg.step = 2 then s.calibrate
    else State.at { s with house := { s.house with trims := s.house.trims + 1 } } (s.nextSlot 53 56) .recalibration)

/-- TELEMETRY_COLLECTION (R104). ERRLOG entries are written as their events happen (R107). -/
def execTelemetryCollection (s : State) : Host.Outcome State Fault Refusal :=
  .next (State.at { s with house := { s.house with telemetry := s.house.telemetry + 1 } } (s.nextSlot 58 58) .telemetryCollection)

/-- The Cupboard segment that a finding's address names (R105). -/
def State.foundSeg (s : State) (f : Finding) : Option Nat :=
  ((s.cores.flatMap (·.cupboard)).find? (fun c => c.asid == f.asid.toNat && s.segPA c.asid c.seg == some (f.pa / 1024 * 1024))).map (·.seg)

/-- Data that patrol scrubbing could not correct stays as it is, and is lost to its readers: in memory, a home slice or a Cupboard (R105, R107). -/
def State.found (s : State) (f : Finding) : State :=
  let add (h : Hurt) : State := if s.hurts.contains h then s else { s with hurts := s.hurts ++ [h] }
  match f.unit.toNat with
  | 0 => { s with bad := if s.bad.contains (f.pa / 64) then s.bad else s.bad ++ [f.pa / 64] }
  | 1 => add (.home (f.pa / 64) f.asid.toNat)
  | 3 => match s.foundSeg f with
    | none => s
    | some n => add (.segment f.asid.toNat n)
  | _ => s

/-- The current slot of the house frame (R104). -/
def State.slotNow (s : State) : Nat := slotOf (s.fabric % 1024000)

/-- The sectors of one visit: with twelve visits in a house frame, every sector is visited within the hour (R105). -/
def visitSize : Nat := 230

/-- The sectors of memory. -/
def sectorCount : Nat := Config.memTop / 64

/-- This visit passes a sector. -/
def State.visits (s : State) (b : Nat) : Bool := decide ((b + sectorCount - s.house.scrubbed) % sectorCount < visitSize)

/-- What the visit finds uncorrectable in memory, home slices and Cupboards: unit, ASID or 0, and sector. -/
def State.scrubbedBad (s : State) : List (Nat × Nat × Nat) :=
  (s.bad.filter s.visits).map (fun b => (0, 0, b)) ++ s.hurts.filterMap (fun h => match h with
    | .home b a => if s.visits b then some (1, a, b) else none
    | .segment a n => (s.segPA a n).bind (fun pa => if s.visits (pa / 64) then some (3, a, pa / 64) else none)
    | _ => none)

/-- PATROL_SCRUB (R104, R105, R107, R108), in slots 41 to 52: every uncorrectable sector that the visit passes is logged and stays as it is, and so is every finding that the outside reports; the next visit follows in the next slot. -/
def execPatrolScrub (findings : List Finding) (s : State) : Host.Outcome State Fault Refusal :=
  .next (
    if s.slotNow < 41 ∨ 52 < s.slotNow then s.at (s.nextSlot 41 52) (.patrolScrub findings)
    else
      let s := s.over s.scrubbedBad (fun s x => s.logError x.2.1 (x.2.2 / 16384) x.1 3)
      let s := s.over findings (fun s f =>
        let s := s.logError f.asid.toNat (f.pa / 2 ^ 20) f.unit.toNat 3
        if f.corrected then s else s.found f)
      let s := { s with house := { s.house with scrubbed := (s.house.scrubbed + visitSize) % sectorCount } }
      if s.agenda.any (fun t => t.ev == .patrolScrub []) then s else s.at (s.nextSlot 41 52) (.patrolScrub []))

/-! ## Power and throttle states (R20 to R22) -/

/-- Set the throttle state in PWRSTAT; the times for which a trigger has persisted and the triggers have been clear count anew from now (R20). -/
def State.setThrottle (s : State) (n : Nat) : State :=
  { s with mg := { s.mg with pwrstat := (s.mg.pwrstat &&& ~~~(3#32)) ||| BitVec.ofNat 32 n },
           power := { s.power with lastMove := s.ticks, clearSince := s.power.clearSince.map (fun _ => s.ticks), p1Since := s.power.p1Since.map (fun _ => s.ticks) } }

/-- Set sticky bits of PWRSTAT. -/
def State.pwrFlag (s : State) (c : Bool) (w : Word) : State := if c then { s with mg := { s.mg with pwrstat := s.mg.pwrstat ||| w } } else s

/-- A thermal trip (R21): every gang ends without an image, FULL and LIMITED clear, and the arithmetic clocks stop. -/
def State.trip (s : State) : State :=
  let s := s.pwrFlag true 0x80#32
  { s with mg := { s.mg with full := false, limited := false }, power := { s.power with stopped := true }, mem := Mem.empty, keyed := [], bad := [], hurts := [], wgs := [], launches := [], gangs := [],
           holds := [], queues := [], units := [], heldArrivals := [], cores := [], asids := [], objCache := [], regCache := [], walks := [], cmds := [], tiles := [],
           hampers := List.replicate 4 ⟨[], none, []⟩, txs := [], htxs := [], exchs := [], migrs := [], homeLines := [], rcLines := [] }

/-- SENSOR_SAMPLING (R21, R22, R104), in slot 57. A reading that does not fit its field shows as the field's greatest value: the manual does not say what it shows then (log entry 16). -/
def execSensorSampling (r : Readings) (s : State) : Host.Outcome State Fault Refusal :=
  let hottest := (r.junction ++ r.hbm).foldl max 0
  let word : Word := (s.mg.pwrstat &&& 0xFFF#32) ||| BitVec.ofNat 32 (min r.power 4095 * 2 ^ 20 + min hottest 255 * 2 ^ 12)
  let t := { s with mg := { s.mg with pwrstat := word }, power := { s.power with readings := r } }
  .next (if s.slotNow ≠ 57 then s.at (s.nextSlot 57 57) (.sensorSampling r) else if r.junction.any (fun t => decide (115 ≤ t)) || r.hbm.any (fun t => decide (105 ≤ t)) then t.trip else t)

/-- A trigger has lasted ten milliseconds in the current state. -/
def Power.lasted (p : Power) (now : Nat) : Bool := p.p1Since.any (fun t => decide (t + 10000000 ≤ now))

/-- The triggers have been clear for twenty milliseconds. -/
def Power.clearLong (p : Power) (now : Nat) : Bool := p.clearSince.any (fun t => decide (t + 20000000 ≤ now))

/-- THROTTLE_EVALUATION (R20): the triggers, the target, and the next move. -/
def execThrottleEvaluation (s : State) : Host.Outcome State Fault Refusal :=
  let r := s.power.readings
  let now := s.ticks
  let cur := s.mg.throttle
  let pwr := decide (2800 < r.average)
  let hot := r.junction.any (fun t => decide (100 ≤ t))
  let hbm := r.hbm.any (fun t => decide (95 ≤ t))
  let cool := r.hbm.all (fun t => decide (t < 90))
  let clear := decide (r.average < 2660) && r.junction.all (fun t => decide (t < 95)) && cool
  let keep (b : Bool) (o : Option Nat) : Option Nat := if b then some (o.getD now) else none
  let p := s.power
  let p := { p with p1Since := keep (pwr || hot) p.p1Since, clearSince := keep clear p.clearSince, hbmSince := keep cool p.hbmSince }
  let p := { p with hbmDemand := hbm || (p.hbmDemand && !p.hbmSince.any (fun t => decide (t + 20000000 ≤ now))) }
  let d1 := if pwr || hot then (if p.lasted now then min 3 (max 1 (cur + 1)) else 1) else 0
  let target := max d1 (if p.hbmDemand then 2 else 0)
  let s := (({ s with power := { p with target := BitVec.ofNat 2 target } }.pwrFlag pwr 0x10#32).pwrFlag hot 0x20#32).pwrFlag hbm 0x40#32
  let s := s.at s.nextFrame .throttleEvaluation
  .next (if cur < target ∨ (0 < cur ∧ p.clearLong now) then s.later 0 .throttleStep else s)

/-- THROTTLE_STEP (R20): one state towards the target, at most one in a millisecond. -/
def execThrottleStep (s : State) : Host.Outcome State Fault Refusal :=
  let cur := s.mg.throttle
  let now := s.ticks
  let may := s.power.lastMove = 0 ∨ s.power.lastMove + 1000000 ≤ now
  .next (
    if cur < s.power.target.toNat then
      (if may then (s.setThrottle (cur + 1)).later 1000000 .throttleStep else s.at (s.power.lastMove + 1000000) .throttleStep)
    else if 0 < cur ∧ s.power.target.toNat < cur ∧ s.power.clearLong now ∧ may then s.setThrottle (cur - 1)
    else s)

end Sys2Proof.Machine
end

