-- ==== Sys2Proof/Machine/ScaleOut.lean ====
section
/-! DEFINITION. The scale-out transport: SEND and RPOST, connections and their contexts on chip, packets, acknowledgements, retransmission and windows (R68 to R83, R390). prog 1 says that a command has started at its port. -/

namespace Sys2Proof.Machine

/-! ## Connections -/

/-- A connection that has been opened. -/
def State.conn (s : State) (n : Nat) : Option Conn := s.conns.find? (fun c => c.num == n)

/-- Change a connection. -/
def State.modConn (s : State) (n : Nat) (f : Conn → Conn) : State := { s with conns := s.conns.map (fun c => if c.num == n then f c else c) }

/-- The code with which a command on a connection is refused (R71, R72). -/
def State.connCode (s : State) (n asid : Nat) : BitVec 8 :=
  match s.conn n with
  | none => 0x30#8
  | some c =>
    if c.asid ≠ asid then 0x30#8
    else match c.st with
      | .closed => 0x30#8
      | .opened => 0
      | .error => 0x31#8

/-- The commands of a connection that have not ended. -/
def State.connCmds (s : State) (n : Nat) : List Command :=
  s.cmds.filter (fun c => (c.kind == .send || c.kind == .rpost) && c.num 0 4 == n && c.st != .finished)

/-! ## Issue (R390) -/

/-- The checks of R390. -/
def soCheck (recv : Bool) (s : State) (_ : FibId) (L : Launch) (b : Block) : BitVec 8 :=
  let n := b.num 8 4
  let long := decide (16777215 < n)
  firstCode [code36 (!b.zero 4 4 || !b.zero 0x0C 4 || !b.zero 0x20 32 || (recv && long)), if long then 0x35#8 else 0,
    capCode (b.cap 1) [0] [if recv then rW else rR] n, if 65535 < b.num 0 4 then 0x30#8 else s.connCode (b.num 0 4) L.asid]

/-- The form of SEND and RPOST. -/
def soForm (s : State) (recv : Bool) (g : BitVec 5) (q : BitVec 4) (r : Bool) (sc : BitVec 3) : CmdForm :=
  { kind := if recv then .rpost else .send, g := g.toNat, q := q.toNat, rel := r, scope := sc.toNat,
    eng := fun _ => .scale (dieOf (s.coreOf ⟨s.cur.launch, s.cur.wgid, 0⟩)), legal := fun _ _ _ => true,
    check := soCheck recv, exps := fun _ _ _ => [], close := fun _ => none, limited := true }

/-- SEND (R74). -/
def execSend (g : BitVec 5) (q c : BitVec 4) (x : BitVec 6) (r : Bool) (sc : BitVec 3) (s : State) : Host.Outcome State Fault Refusal :=
  s.engineInstr (.send g q c x r sc) (soForm s false g q r sc) c x

/-- RPOST (R75). -/
def execRpost (g : BitVec 5) (q c : BitVec 4) (x : BitVec 6) (r : Bool) (sc : BitVec 3) (s : State) : Host.Outcome State Fault Refusal :=
  s.engineInstr (.rpost g q c x r sc) (soForm s true g q r sc) c x

/-! ## Contexts on chip (R83) -/

/-- A context that may not be replaced. -/
def State.pinned (s : State) (c : Conn) : Bool :=
  !c.sends.isEmpty || !c.bufs.isEmpty || s.staging.any (fun x => x.2.dstCon.toNat == c.num) || c.timerDue.any (fun t => decide (t ≤ s.ticks))

/-- Ask for a context: its fetch takes 2 µs; fetches of one context are shared. -/
def State.fetchConn (s : State) (n : Nat) : State :=
  let ev := Instr.contextFetch ((s.soPort n).getD (n % 13)) n
  if s.agenda.any (fun t => t.ev == ev) then s else s.later 2000 ev

/-- Have a context on chip: it is there and counts as just used, or its fetch is asked for. -/
def State.needConn (s : State) (n : Nat) : State × Bool :=
  match s.conn n with
  | none => (s, true)
  | some c => if c.onChip then (s.stamp.modConn n (fun c => { c with used := s.fresh }), true) else (s.fetchConn n, false)

/-- Room on chip for one more context: the least recently used that is not pinned goes; false when all 4,096 are pinned. -/
def State.chipRoom (s : State) : State × Bool :=
  let on := s.conns.filter (·.onChip)
  if on.length < 4096 then (s, true)
  else match (on.filter (fun c => !s.pinned c)).foldl (fun (m : Option Conn) c => match m with
      | none => some c
      | some x => if c.used < x.used then some c else some x) none with
    | none => (s, false)
    | some v => (s.modConn v.num (fun c => { c with onChip := false }), true)

/-! ## Sending (R74, R79, R82) -/

/-- Packets of a message. -/
def SendOp.packets (o : SendOp) : Nat := max 1 ((o.len + 4095) / 4096)

/-- Payload bytes in flight. -/
def Conn.inFlight (c : Conn) : Nat := (c.unacked.map (·.payload.length)).sum

/-- A packet of a connection with its CRC. -/
def State.soPacket (s : State) (c : Conn) (kind flags : Byte) (f : SoPacket → SoPacket) : SoPacket :=
  let p := f { kind := kind, flags := flags, dstEp := c.peerEp, srcEp := s.endpoint, dstCon := c.peerCon, srcCon := BitVec.ofNat 16 c.num, psn := 0, msn := 0, moff := 0,
               mlen := 0, ackpsn := 0, sack := 0, crc := 0, payload := [] }
  { p with crc := soCrc p }

/-- Arm the retransmission timer. -/
def State.armTimer (s : State) (n ns : Nat) : State :=
  (s.modConn n (fun c => { c with timer := ns, timerDue := some (s.ticks + ns) })).later ns (.retransmissionTimer n)

/-- The SEND of a message has not ended. -/
def State.sendLives (s : State) (o : SendOp) : Bool := (s.cmd o.cmd).any (fun d => d.st != .finished)

/-- Form and send the next packets of a connection, as far as the window admits (R82). A source that is not resident stalls its command (log entry 33), and one in host or peer memory ends it with 0x14, a case for which the manual names no code (log entry 26). A SEND that has ended leaves the connection to the later ones. -/
def State.soPump (n : Nat) : Nat → State → State
  | 0, s => s
  | k + 1, s =>
    match s.conn n with
    | none => s
    | some c =>
      match c.sends.find? (fun o => decide (o.formed < o.packets)) with
      | none => s
      | some o =>
        let len := min 4096 (o.len - 4096 * o.formed)
        if !s.sendLives o then soPump n k (s.modConn n (fun c => { c with sends := c.sends.filter (fun y => y.cmd != o.cmd) }))
        else if c.st ≠ .opened ∨ c.rnr.isSome ∨ (c.unacked ≠ [] ∧ c.window < c.inFlight + len) then s
        else match s.cmd o.cmd with
          | none => s
          | some d =>
            if d.st ≠ .running then s
            else match s.span d (d.cap 1) (4096 * o.formed) len false with
              | .walk die a ob pg => s.walkFor d die a ob pg
              | .stall key => s.stallCmd d key
              | .failed e => soPump n k (s.finish o.cmd e o.acked)
              | .lost a => soPump n k ((s.logAddr d.asid a).finish o.cmd 0x13#8 o.acked)
              | .mem segs =>
                if s.spanLatched false (.mem segs) then s.poke 10 d.id
                else if s.segsBad segs then soPump n k ((s.logLost d.asid segs).finish o.cmd 0x13#8 o.acked)
                else
                  let flags : Byte := (if o.formed = 0 then 1 else 0) + (if o.formed + 1 = o.packets then 2 else 0)
                  let p := s.soPacket c 1 flags (fun p => { p with psn := c.nextPsn, msn := o.msn, moff := BitVec.ofNat 32 (4096 * o.formed), mlen := BitVec.ofNat 32 o.len, payload := s.spanRead d (.mem segs) })
                  let s := s.modConn n (fun c => { c with nextPsn := c.nextPsn + 1, unacked := c.unacked ++ [p],
                                                          sends := c.sends.map (fun y => if y.cmd == o.cmd then { y with formed := y.formed + 1 } else y) })
                  let s := { s with soTx := s.soTx ++ [p] }
                  soPump n k (if c.timerDue.isNone then s.armTimer n c.timer else s)
              | _ => soPump n k (s.finish o.cmd 0x14#8 o.acked)

/-- As many packets as a window can hold. -/
def State.pumpConn (s : State) (n : Nat) : State := State.soPump n 4096 s

/-- A running SEND: it starts with the next MSN once its context is on chip (R74, R83), and then sends. -/
def State.stepSend (s : State) (c : Command) : State :=
  let n := c.num 0 4
  if c.prog = 1 then s.pumpConn n
  else
    let code := s.connCode n c.asid
    if code ≠ 0 then (s.modCmd c.id (fun c => { c with prog := 1 })).finish c.id code 0
    else match s.needConn n with
      | (s, false) => s
      | (s, true) =>
        let s := s.modConn n (fun x => { x with nextMsn := x.nextMsn + 1, sends := x.sends ++ [SendOp.mk c.id x.nextMsn (c.num 8 4) c.asid (c.cap 1).obj.toNat (c.cap 1).base.toNat 0 0] })
        ((s.modCmd c.id (fun c => { c with prog := 1 })).pumpConn n).serve c.eng

/-- A running RPOST: its buffer joins the connection's queue (R75). -/
def State.stepRpost (s : State) (c : Command) : State :=
  let n := c.num 0 4
  if c.prog = 1 then s
  else
    let code := s.connCode n c.asid
    let s' := s.modCmd c.id (fun c => { c with prog := 1 })
    if code ≠ 0 then s'.finish c.id code 0
    else match s.needConn n with
      | (s, false) => s
      | (s, true) =>
        let s := s.modCmd c.id (fun c => { c with prog := 1 })
        if 256 ≤ ((s.conn n).map (fun x => x.bufs.length)).getD 0 then s.finish c.id 0x34#8 0
        else (s.modConn n (fun x => { x with nextBuf := x.nextBuf + 1,
                                             bufs := x.bufs ++ [RecvBuf.mk c.id x.nextBuf c.asid (c.cap 1).obj.toNat (c.cap 1).base.toNat (c.num 8 4) 0 none false 0] })).serve c.eng

/-! ## The connection's states (R71) -/

/-- Complete every command of a connection with code 0x31. -/
def State.endConn (s : State) (n : Nat) : State :=
  let s := s.over (s.connCmds n) (fun s c =>
    let done := ((s.conn n).bind (fun x => x.sends.find? (fun o => o.cmd == c.id))).map (·.acked)
    (s.modCmd c.id (fun c => { c with prog := 1 })).finish c.id 0x31#8 (done.getD 0))
  s.modConn n (fun c => { c with sends := [], bufs := [], unacked := [], timerDue := none, rnr := none })

/-- The connection enters ERROR. -/
def State.errorConn (s : State) (n : Nat) : State :=
  (match s.conn n with
    | some c => if c.st = .opened then (s.modConn n (fun c => { c with st := .error })).endConn n else s
    | none => s)

/-- CONNECTION_OPEN (R70, R71). -/
def execConnectionOpen (conn asid : Nat) (peerEp : Word) (peerConn : BitVec 16) (s : State) : Host.Outcome State Fault Refusal :=
  .next (
    if 65535 < conn ∨ !s.mg.full ∨ (s.conn conn).any (fun c => c.st != .closed) then s
    else
      let c : Conn := { num := conn, st := .opened, asid := asid, peerEp := peerEp, peerCon := peerConn, nextMsn := 0, nextPsn := 0, expect := 0, accepted := [], heard := 0,
                        window := 262144, timer := 50000, timerDue := none, expiries := 0, rnr := none, unacked := [], sends := [], bufs := [], nextBuf := 0, sinceAck := 0,
                        echo := false, lastHalved := none, onChip := false, used := 0 }
      { s with conns := s.conns.filter (fun x => x.num != conn) ++ [c] })

/-- CONNECTION_CLOSE (R71). -/
def execConnectionClose (conn : Nat) (s : State) : Host.Outcome State Fault Refusal :=
  .next (match s.conn conn with
    | none => s
    | some c => if c.st = .closed then s else (s.endConn conn).modConn conn (fun c => { c with st := .closed }))

/-- PEER_CLOSE (R71). -/
def execPeerClose (conn : Nat) (s : State) : Host.Outcome State Fault Refusal := .next (s.errorConn conn)

/-! ## Receiving (R76, R77, R80) -/

/-- Send an ACK with E, SACK and ECHO (R81). -/
def State.sendAck (s : State) (n : Nat) : State :=
  match s.conn n with
  | none => s
  | some c =>
    let sack := ((List.range 64).filter (fun k => c.accepted.contains (c.expect + 1 + BitVec.ofNat 32 k))).map (2 ^ ·)
    let p := s.soPacket c 2 (if c.echo then 16 else 0) (fun p => { p with ackpsn := c.expect, sack := BitVec.ofNat 64 sack.sum })
    { s.modConn n (fun c => { c with echo := false, sinceAck := 0 }) with soTx := s.soTx ++ [p] }

/-- E advances past every accepted PSN. -/
def advanceE : Nat → Word → List Word → Word × List Word
  | 0, e, as => (e, as)
  | k + 1, e, as => if as.contains e then advanceE k (e + 1) (as.filter (· != e)) else (e, as)

/-- Complete the buffers whose messages are whole, in MSN order (R77, R78). The bytes done that an RPOST with 0x13 counts are the payload bytes accepted, at most its length: the manual does not say which (log entry 33). -/
def State.completeBufs (n : Nat) : Nat → State → State
  | 0, s => s
  | k + 1, s =>
    match (s.conn n).bind (fun c => c.bufs.head?) with
    | none => s
    | some b =>
      if !b.done then s
      else
        let m := b.mlen.getD 0
        let s := s.modConn n (fun c => { c with bufs := c.bufs.drop 1 })
        completeBufs n k (if b.code ≠ 0 then s.finish b.cmd b.code (min b.placed b.len) else if b.len < m then s.finish b.cmd 0x33#8 b.len else s.finishOk b.cmd 0 m)

/-- What became of a packet's payload at its buffer: it is placed or discarded, refused because its region is not resident, or it waits for a walk or a latched line. -/
inductive Placing where
  | done
  | refused (k : HamperKey)
  | waits
  deriving DecidableEq, Repr

/-- A buffer whose writing has failed keeps its code (R78). -/
def State.bufCode (s : State) (n cmd : Nat) (e : BitVec 8) : State :=
  s.modConn n (fun x => { x with bufs := x.bufs.map (fun y => if y.cmd == cmd then { y with code := e } else y) })

/-- Place payload bytes of a buffer: the part of them that lies within it (R76). A buffer in host or peer memory ends with 0x14, a case for which the manual names no code (log entry 26). -/
def State.placeAt (s : State) (b : RecvBuf) (moff : Nat) (bs : List Byte) : Placing × State :=
  let bs := bs.take (b.len - moff)
  match s.cmd b.cmd with
  | none => (.done, s)
  | some c =>
    let n := c.num 0 4
    if bs = [] ∨ b.code ≠ 0 then (.done, s)
    else match s.span c (c.cap 1) moff bs.length true with
      | .stall k => (.refused k, s)
      | .walk die a ob pg => (.waits, s.startWalk ⟨die, a, ob, pg⟩)
      | .failed e => (.done, s.bufCode n b.cmd e)
      | .lost a => (.done, (s.logAddr c.asid a).bufCode n b.cmd 0x13#8)
      | .mem segs =>
        if s.spanLatched true (.mem segs) then (.waits, s)
        else if s.segsBad segs then (.done, (s.logLost c.asid segs).bufCode n b.cmd 0x13#8)
        else (.done, s.spanWrite c bs (.mem segs))
      | _ => (.done, s.bufCode n b.cmd 0x14#8)

/-- A received DATA packet waits for a walk in flight or for a tile access to unlatch its lines (R212, R242). -/
def State.soHeld (s : State) (p : SoPacket) : Bool :=
  p.kind == 1 && (match s.conn p.dstCon.toNat with
    | none => false
    | some c => c.onChip && (match c.bufs.find? (fun b => b.msn == p.msn) with
      | none => false
      | some b => match s.cmd b.cmd with
        | none => false
        | some d => match s.span d (d.cap 1) p.moff.toNat (min p.payload.length (b.len - p.moff.toNat)) true with
          | .mem segs => s.spanLatched true (.mem segs)
          | .walk die a ob pg => s.walks.contains ⟨die, a, ob, pg⟩
          | _ => false))

/-- Refuse a packet that has no buffer yet (R76). -/
def State.sendRnr (s : State) (c : Conn) (psn : Word) : State := { s with soTx := s.soTx ++ [s.soPacket c 3 0 (fun p => { p with psn := psn })] }

/-- A new packet with its buffer: placed and accepted (R76, R80, R81). A buffer that is not resident refuses it for now (log entry 33). -/
def State.acceptData (s : State) (c : Conn) (b : RecvBuf) (p : SoPacket) : State :=
  let n := c.num
  match s.placeAt b p.moff.toNat p.payload with
  | (.refused k, s) => (s.hamperEnter 0 k).sendRnr c p.psn
  | (.waits, s) => { s with soRx := s.soRx ++ [p] }
  | (.done, s) =>
    let (e, as) := advanceE 1025 c.expect (p.psn :: c.accepted)
    let s := s.modConn n (fun c => { c with expect := e, accepted := as, sinceAck := c.sinceAck + 1, bufs := c.bufs.map (fun y => if y.msn == p.msn then
        { y with placed := y.placed + p.payload.length, mlen := some p.mlen.toNat, done := decide (p.mlen.toNat ≤ y.placed + p.payload.length) } else y) })
    let s := State.completeBufs n 257 s
    if p.flags.getLsbD 1 ∨ 16 ≤ c.sinceAck + 1 then s.sendAck n
    else if c.sinceAck = 0 then s.later 1000 (.delayedAck n) else s

/-- A DATA packet at its context (R71, R80). -/
def State.takeData (s : State) (n : Nat) (p : SoPacket) : State :=
  match s.conn n with
  | none => s
  | some c =>
    if c.st ≠ .opened then s
    else
      let s := if p.flags.getLsbD 3 then s.modConn n (fun c => { c with echo := true }) else s
      let d := (p.psn - c.expect).toNat
      if (d < 1024 ∧ c.accepted.contains p.psn) ∨ 2 ^ 31 ≤ d then s.sendAck n
      else if 1024 ≤ d then s
      else match c.bufs.find? (fun b => b.msn == p.msn) with
        | none => s.sendRnr c p.psn
        | some b => s.acceptData c b p

/-- DELAYED_ACK (R81). -/
def execDelayedAck (conn : Nat) (s : State) : Host.Outcome State Fault Refusal :=
  .next (if (s.conn conn).any (fun c => c.st == .opened && decide (0 < c.sinceAck)) then s.sendAck conn else s)

/-! ## Acknowledgements and retransmission (R81, R82) -/

/-- An acknowledgement covers a packet, by E or by a SACK bit. -/
def soCovers (a p : SoPacket) : Bool :=
  decide (2 ^ 31 ≤ (p.psn - a.ackpsn).toNat) || (decide ((p.psn - a.ackpsn - 1).toNat < 64) && a.sack.getLsbD (p.psn - a.ackpsn - 1).toNat)

/-- The window after an acknowledgement (R82). -/
def Conn.ackWindow (c : Conn) (echo : Bool) (n now : Nat) : Conn :=
  if echo then
    (if c.lastHalved.any (fun t => decide (now < t + 20000)) then c else { c with window := max 8192 (c.window / 2), lastHalved := some now })
  else { c with window := min 8388608 (c.window + 4096 * n / c.window) }

/-- Complete the SENDs whose packets are all formed and acknowledged (R77). -/
def State.completeSends (s : State) (n : Nat) : State :=
  match s.conn n with
  | none => s
  | some c =>
    let fin := c.sends.filter (fun o => o.formed == o.packets && !c.unacked.any (fun p => p.msn == o.msn))
    let s := s.modConn n (fun c => { c with sends := c.sends.filter (fun o => !fin.any (fun f => f.cmd == o.cmd)) })
    s.over fin (fun s o => if (s.cmd o.cmd).any (fun d => d.st == .finished) then s else s.finishOk o.cmd 0 o.len)

/-- An ACK at its context. -/
def State.takeAck (s : State) (n : Nat) (a : SoPacket) : State :=
  match s.conn n with
  | none => s
  | some c =>
    if c.st ≠ .opened then s
    else
      let got := c.unacked.filter (fun p => soCovers a p)
      let left := c.unacked.filter (fun p => !soCovers a p)
      let bytes := (got.map (·.payload.length)).sum
      let adv := decide (0 < (a.ackpsn - c.heard).toNat) && decide ((a.ackpsn - c.heard).toNat < 2 ^ 31)
      let s := s.modConn n (fun c =>
        let c := c.ackWindow (a.flags.getLsbD 4) bytes s.ticks
        { c with unacked := left, heard := if adv then a.ackpsn else c.heard, expiries := if adv then 0 else c.expiries,
                 rnr := if c.rnr.any (fun r => got.any (fun p => p.psn == r)) then none else c.rnr,
                 sends := c.sends.map (fun o => { o with acked := o.acked + ((got.filter (fun p => p.msn == o.msn)).map (·.payload.length)).sum }) })
      let s := if left = [] then s.modConn n (fun c => { c with timer := if adv then 50000 else c.timer, timerDue := none })
        else if adv then s.armTimer n 50000 else s
      ((s.completeSends n).pumpConn n)

/-- A packet with RETRY set and this payload is sent (R81). -/
def State.sendRetry (s : State) (p : SoPacket) (bs : List Byte) : State :=
  let p := { p with flags := p.flags ||| 4, payload := bs }
  { s with soTx := s.soTx ++ [{ p with crc := soCrc p }] }

/-- Send a packet again, formed anew from its source (R74). Where the source can no longer be read, its SEND ends, and the packet goes as it was so that the connection's sequence goes on; one whose region is not resident, or whose line is latched, is left to the next time-out (log entry 33). -/
def State.resendOne (s : State) (c : Conn) (p : SoPacket) : State :=
  match (c.sends.find? (fun o => o.msn == p.msn)).bind (fun o => (s.cmd o.cmd).map (fun d => (o, d))) with
  | none => s.sendRetry p p.payload
  | some (o, d) =>
    if d.st = .finished then s.sendRetry p p.payload
    else match s.span d (d.cap 1) p.moff.toNat p.payload.length false with
      | .mem segs =>
        if s.spanLatched false (.mem segs) then s
        else if s.segsBad segs then ((s.logLost d.asid segs).finish o.cmd 0x13#8 o.acked).sendRetry p p.payload
        else s.sendRetry p (s.spanRead d (.mem segs))
      | .stall k => if d.stalled then s else s.stallCmd d k
      | .walk die a ob pg => s.startWalk ⟨die, a, ob, pg⟩
      | .lost a => ((s.logAddr d.asid a).finish o.cmd 0x13#8 o.acked).sendRetry p p.payload
      | .failed e => (s.finish o.cmd e o.acked).sendRetry p p.payload
      | _ => (s.finish o.cmd 0x14#8 o.acked).sendRetry p p.payload

/-- Send packets again. -/
def State.resend (s : State) (c : Conn) (ps : List SoPacket) : State := s.over ps (fun s p => s.resendOne c p)

/-- RETRANSMISSION_TIMER (R81): refusals by RNR do not count (R76). -/
def execRetransmissionTimer (conn : Nat) (s : State) : Host.Outcome State Fault Refusal :=
  .next (match s.conn conn with
    | none => s
    | some c =>
      if c.st ≠ .opened ∨ c.unacked = [] ∨ !c.timerDue.any (fun t => decide (t ≤ s.ticks)) then s
      else
        let k := if c.rnr.isSome then c.expiries else c.expiries + 1
        if 8 ≤ k then s.errorConn conn
        else
          let s := s.modConn conn (fun c => { c with expiries := k, window := 8192 })
          (s.resend c c.unacked).armTimer conn (min 6400000 (2 * c.timer)))

/-- An RNR at its context (R76): of several refused packets the earliest counts. -/
def State.takeRnr (s : State) (n : Nat) (p : SoPacket) : State :=
  match s.conn n with
  | none => s
  | some c =>
    if c.st ≠ .opened ∨ !c.unacked.any (fun q => q.psn == p.psn) then s
    else
      let first := match c.rnr with
        | some r => if (p.psn - r).toNat < 2 ^ 31 then r else p.psn
        | none => p.psn
      let s := s.modConn n (fun c => { c with rnr := some first })
      if s.agenda.any (fun t => t.ev == .rnrResend n) then s else s.later 20000 (.rnrResend n)

/-- RNR_RESEND (R76): from the refused PSN on. -/
def execRnrResend (conn : Nat) (s : State) : Host.Outcome State Fault Refusal :=
  .next (match s.conn conn with
    | none => s
    | some c => match c.rnr with
      | none => s
      | some r => if c.st ≠ .opened then s else s.resend c (c.unacked.filter (fun p => decide ((p.psn - r).toNat < 2 ^ 31))))

/-! ## Arrival and staging (R83) -/

/-- A packet at its context. -/
def State.takeSo (s : State) (p : SoPacket) : State :=
  let n := p.dstCon.toNat
  if p.kind = 1 then s.takeData n p else if p.kind = 2 then s.takeAck n p else s.takeRnr n p

/-- A packet arrives: at its context, or into the staging buffer of its port while the context is fetched. -/
def State.arriveSo (s : State) (p : SoPacket) : State :=
  let n := p.dstCon.toNat
  match s.conn n with
  | none => s
  | some c =>
    if c.onChip then (s.needConn n).1.takeSo p
    else
      let port := (s.soPort n).getD (n % 13)
      let used := ((s.staging.filter (fun x => x.1 == port)).map (fun x => 64 + x.2.payload.length)).sum
      if 65536 < used + 64 + p.payload.length then s else { s with staging := s.staging ++ [(port, p)] }.fetchConn n

/-- Take the scale-out packet at the head of the receive queue when it has this kind. -/
def State.recvSo (s : State) (kind : Byte) : Host.Outcome State Fault Refusal :=
  match s.soRx with
  | p :: rest => .next (if p.kind = kind ∧ !s.soHeld p then { s with soRx := rest }.arriveSo p else s)
  | [] => .next s

/-- SCALEOUT_DATA (R80). -/
def execScaleoutData (s : State) : Host.Outcome State Fault Refusal := s.recvSo 1

/-- SCALEOUT_ACK (R81). -/
def execScaleoutAck (s : State) : Host.Outcome State Fault Refusal := s.recvSo 2

/-- RNR (R76). -/
def execRnr (s : State) : Host.Outcome State Fault Refusal := s.recvSo 3

/-- CONTEXT_FETCH (R83): the context is on chip; its staged packets and its waiting commands go on. -/
def execContextFetch (port conn : Nat) (s : State) : Host.Outcome State Fault Refusal :=
  .next (match s.conn conn with
    | none => { s with staging := s.staging.filter (fun x => x.2.dstCon.toNat != conn) }
    | some c =>
      match if c.onChip then (s, true) else s.chipRoom with
      | (s, false) => s.later 2000 (.contextFetch port conn)
      | (s, true) =>
        let s := s.stamp.modConn conn (fun c => { c with onChip := true, used := s.fresh })
        let ps := (s.staging.filter (fun x => x.2.dstCon.toNat == conn)).map (·.2)
        let s := { s with staging := s.staging.filter (fun x => x.2.dstCon.toNat != conn) }
        let s := s.over ps (fun s p => s.takeSo p)
        s.over (s.connCmds conn) (fun s c => if c.st = .running then s.poke 1 c.id else s))

end Sys2Proof.Machine
end

