-- ==== Sys2Proof/Machine/HostLink.lean ====
section
/-! DEFINITION. The tray links and their host: RCALL and replies (R84, R90, R199, R392), answers to host requests (R85, R86), and the host's reads, writes and notes (R87 to R89). -/

namespace Sys2Proof.Machine

/-! ## RCALL: the block and what it names (R392) -/

/-- A part of the request bytes: read already, or where it will be read after the release. -/
inductive ReqPart where
  | bytes (bs : List Byte)
  | mem (a n : Nat)
  | scratch (w a n : Nat)
  deriving DecidableEq, Repr

/-- What one fibre's RCALL sends, with its request bytes still to be read, and whether data of it is lost. -/
structure CallPlan where
  call : Call
  parts : List ReqPart
  lost : Bool
  deriving DecidableEq, Repr

/-- The bytes from base on of what a fibre has gathered by its requests, or the next request to the host. -/
def State.pullHost (s : State) (id : FibId) (link addr base n : Nat) (key : HamperKey) : Got ReqPart :=
  let got := (s.answer id).getD []
  if base + n ≤ got.length then (s, .ok (.bytes ((got.drop base).take n)))
  else
    let k := got.length - base
    let len := min (n - k) (1024 - (addr + k) % 1024)
    match s.hostRequest link (hostPacket 0x01#5 (addr + k) len []) (.load id 0) (s.coreOf id) len key with
    | none => (s, .error (.hold .unacked))
    | some (s, t) => (s, .error (.hold (.host link t)))

/-- The same from a peer object, sixteen bytes or one at a time. -/
def State.pullPeer (s : State) (id : FibId) (c : Cap) (pos pasid pobj o base n : Nat) : Got ReqPart :=
  let got := (s.answer id).getD []
  if base + n ≤ got.length then (s, .ok (.bytes ((got.drop base).take n)))
  else if (s.via pos).isNone then (s, .error (.eff 0x0D0#12 none))
  else
    let k := got.length - base
    let len := if (o + k) % 16 = 0 ∧ 16 ≤ n - k then 16 else 1
    match s.request (peerPacket 0x01#5 pos pasid pobj (o + k) len 0 []) (.load id 0) (s.coreOf id) (keyAt (s.asidOf id.launch) c.obj.toNat (o + k) false) with
    | none => (s, .error (.hold .unacked))
    | some (s, t) => (s, .error (.hold (.remote pos t)))

/-- The lines of a range. -/
def linesOf (a n : Nat) : List Nat := (List.range ((a + n - 1) / 256 - a / 256 + 1)).map (a / 256 + ·)

/-- One page's part of the request bytes; the flag says that data is lost. -/
def State.reqPart (s : State) (id : FibId) (c : Cap) (o n base : Nat) : Got (ReqPart × Bool) :=
  match s.atPort id c o n false with
  | (s, .error e) => (s, .error e)
  | (s, .ok (.pa p _)) =>
    match (linesOf p n).find? (fun l => s.latchedX (256 * l)) with
    | some l => (s, .error (.hold (.latch l)))
    | none => (s, .ok (.mem p n, s.isBad p n))
  | (s, .ok (.host link addr)) =>
    match s.pullHost id link addr base n (keyAt (s.asidOf id.launch) c.obj.toNat o false) with
    | (s, .error e) => (s, .error e)
    | (s, .ok x) => (s, .ok (x, false))
  | (s, .ok (.peer pos pasid pobj _)) =>
    match s.pullPeer id c pos pasid pobj o base n with
    | (s, .error e) => (s, .error e)
    | (s, .ok x) => (s, .ok (x, false))
  | (s, .ok _) => (s, .error (.eff 0x0C1#12 none))

/-- The request bytes of a fibre, page by page; base counts what has been gathered by requests before. -/
def State.reqParts (s : State) (id : FibId) (c : Cap) : List (Nat × Nat) → Nat → Got (List ReqPart × Bool)
  | [], _ => (s, .ok ([], false))
  | (o, n) :: rest, base =>
    match s.reqPart id c o n base with
    | (s, .error e) => (s, .error e)
    | (s, .ok (x, bad)) =>
      match s.reqParts id c rest (match x with
          | .bytes _ => base + n
          | _ => base) with
      | (s, .error e) => (s, .error e)
      | (s, .ok (xs, bads)) => (s, .ok (x :: xs, bad || bads))

/-- The check of the WAKE cell: the tag of the effect of the first that fails. -/
def State.wakeCheck (s : State) (asid : Nat) (w : DWord) : Option (BitVec 12) :=
  if w = 0xFFFFFFFFFFFFFFFF#64 then none
  else
    let off := w.toNat % 2 ^ 44
    match s.entry asid (w.toNat / 2 ^ 44) with
    | none => some 0x0C1#12
    | some e =>
      if e.typ = 0 ∨ 5 < e.typ ∨ e.size < off + 8 then some 0x0C1#12
      else if e.use ≠ 2 then some 0x0C4#12
      else if off % 8 ≠ 0 then some 0x0C6#12
      else none

/-- The block of an RCALL lies in a host or peer object, so that its bytes stand first among those gathered. -/
def State.blockRemote (s : State) (id : FibId) (c : Cap) (off : Nat) : Bool :=
  c.kind != 2#4 && (match s.xlatNow (s.trayOk id.launch) ⟨s.asidOf id.launch, c.obj.toNat, objOff c off, 64, false, false⟩ with
    | .host .. => true
    | .peer .. => true
    | _ => false)

/-- Step 1 of R392 for one fibre: its block, checked. -/
def State.callPlan (s : State) (id : FibId) (f : Fibre) (c : BitVec 4) (x : BitVec 6) : Got CallPlan :=
  let cap := f.cap c.toNat
  let off := (f.reg x.toNat).toNat
  match s.readBlock id cap off with
  | (s, .error e) => (s, .error e)
  | (s, .ok b) =>
    let n := b.num 0x0A 2
    let wake : DWord := BitVec.ofNat 64 (b.num 0x20 8)
    let call : Call := ⟨0, b.num 8 1 % 4, b.num 0 8, BitVec.ofNat 64 (b.num 0x28 8), wake, []⟩
    let req := b.cap 1
    if b.lost then (s, .ok ⟨call, if cap.kind = 2#4 then [.scratch id.wgid 0 0] else (match (s.atPort id cap (objOff cap off) 64 false).2 with
      | .ok (.pa p _) => [.mem p 64]
      | _ => []), true⟩)
    else if 3 < b.num 8 1 ∨ !b.zero 9 1 ∨ !b.zero 0x0C 4 ∨ !b.zero 0x30 16 ∨ 992 < n then (s, .error (.eff 0x0E7#12 none))
    else match (if n = 0 then none else capCheck req kData [rR] 0 n 1), capCheck (f.cap 7) kData [rW] 0 64 1, s.wakeCheck (s.asidOf id.launch) wake with
      | some t, _, _ => (s, .error (.eff t none))
      | _, some t, _ => (s, .error (.eff t none))
      | _, _, some t => (s, .error (.eff t none))
      | _, _, _ =>
        if n = 0 then (s, .ok ⟨call, [], false⟩)
        else if req.kind = 2#4 then
          (s, .ok ⟨call, (s.windowParts id req.obj.toNat req.base.toNat n).map (fun p => .scratch p.1 p.2.1 p.2.2), s.localHurt id req.obj.toNat req.base.toNat n⟩)
        else match s.reqParts id req (pieces 65536 req.base.toNat n) (if s.blockRemote id cap off then 64 else 0) with
          | (s, .error e) => (s, .error e)
          | (s, .ok (ps, bad)) => (s, .ok ⟨call, ps, bad⟩)

/-- The request bytes as they stand after the release. -/
def State.reqBytes (s : State) (l : Nat) (ps : List ReqPart) : List Byte :=
  ps.flatMap (fun p => match p with
    | .bytes bs => bs
    | .mem a n => s.rd (s.keyOf (s.asidOf l)) a n
    | .scratch w a n => (s.scratch l w).read a n)

/-! ## RCALL: the bundle -/

/-- The checks of every executing fibre in turn. -/
def State.callPlans (s : State) (c : BitVec 4) (x : BitVec 6) : List Fibre → State × List (Nat × Except Stop CallPlan)
  | [] => (s, [])
  | f :: fs =>
    let (s, r) := s.callPlan (s.curId f.fid) f c x
    let (s, rs) := s.callPlans c x fs
    (s, (f.fid, r) :: rs)

/-- The wait with which a fibre that could go on waits for one of its bundle that cannot. -/
def Wait.shared (w : Wait) : Wait :=
  match w with
  | .remote .. => .unacked
  | .host .. => .unacked
  | w => w

/-- A link has tags and window enough for so many more requests of 1,024 bytes (R85). -/
def State.linkRoom (s : State) (k n : Nat) : Bool :=
  let open_ := s.htxs.filter (fun t => t.link == k)
  decide (open_.length + n ≤ 1024) && decide ((open_.map (·.len)).sum + 1024 * n ≤ 786432)

/-- The command that counts the requests of a bundle's RCALL; it stands in no engine queue (R384). -/
def callCommand (s : State) (g : Nat) : Command :=
  { id := s.fresh, eng := .port 0, q := 16, kind := .rcall, launch := s.cur.launch, wgid := s.cur.wgid, g := g, asid := s.asidOf s.cur.launch,
    core := s.coreOf ⟨s.cur.launch, s.cur.wgid, 0⟩, scope := 0, blk := [], caps := [], st := .running, prog := 0, sent := 0, acked := 0, cuts := [], code := 0, err := false,
    count := 0, deps := [], exps := [], phase := 0, buf := [], todo := [], win := [], fault := 0, mark := none }

/-- The ranges of memory among the parts of a request. -/
def lostParts (ps : List ReqPart) : List (Nat × Nat) :=
  ps.filterMap (fun p => match p with
    | .mem a n => some (a, n)
    | _ => none)

/-- The report of the lost ranges of some plans: memory first, else a scratchpad (R107). -/
def State.logPlans (s : State) (l : Nat) (ps : List CallPlan) : State :=
  let segs := ps.flatMap (fun p => lostParts p.parts)
  if segs = [] then s.logScratch (s.asidOf l) (s.coreOf ⟨l, s.cur.wgid, 0⟩) else s.logLost (s.asidOf l) segs

/-- Steps 2 to 4 of R392 for the fibres that passed their checks. -/
def State.callSend (s : State) (g : Nat) (ok : List (Nat × CallPlan)) : State :=
  let l := s.cur.launch
  let fids := ok.map (·.1)
  if ok.any (fun x => x.2.lost) then (s.logPlans l ((ok.map (·.2)).filter (·.lost))).completeToken l s.cur.wgid g 0 true 0x13#8 0 false
  else if (List.range 4).any (fun k => !s.linkRoom k (ok.filter (fun x => x.2.call.link == k)).length) then s.stopAll fids 0 (.hold .unacked)
  else
    let mark := (fids.findSome? (fun n => (s.fib (s.curId n)).bind (·.mark))).getD s.fresh
    match s.release (s.coreOf ⟨l, s.cur.wgid, 0⟩) 5 mark with
    | (s, false) => (s.each fids (fun s id _ => s.modFib id (fun f => { f with mark := some mark }))).stopAll fids 0 (.hold .unacked)
    | (s, true) =>
      let s := s.each fids (fun s id _ => s.modFib id (fun f => { f with mark := none }))
      let lost := fids.filter (fun n => (s.fib (s.curId n)).any (fun f => f.lost != 0))
      let ok := ok.filter (fun x => !lost.contains x.1)
      let s := s.each lost (fun s id _ => (s.modFib id (fun f => { f with lost := 0 })).effAt id 0x0D0#12 0)
      if ok = [] then s
      else
        let c := callCommand s g
        let s := (s.pend l s.cur.wgid g).stamp
        let s := State.poke { s with cmds := s.cmds ++ [c] } 1 c.id
        s.over ok (fun s x => s.effCall (s.curId x.1) { x.2.call with cmd := c.id, req := s.reqBytes l x.2.parts })

/-- RCALL (R199, R392). The bundle waits until every block and request is at hand; each fibre then faults or sends by itself. -/
def execRcall (g : BitVec 5) (c : BitVec 4) (x : BitVec 6) (s : State) : Host.Outcome State Fault Refusal :=
  s.issue (.rcall g c x) (fun s _ exe =>
    if exe = [] then s
    else if s.limitedOnly then s.completeToken s.cur.launch s.cur.wgid g.toNat 0 true 0x3B#8 0 false
    else
      let (s, rs) := s.callPlans c x (s.curFibs exe)
      match rs.findSome? (fun r => match r.2 with
          | .error (.hold w) => some w
          | _ => none) with
      | some w => s.over rs (fun s r => match r.2 with
          | .error (.hold w) => s.stop (s.curId r.1) 0 (.hold w)
          | _ => s.stop (s.curId r.1) 0 (.hold w.shared))
      | none =>
        let s := s.over rs (fun s r => match r.2 with
          | .error e => s.stop (s.curId r.1) (match s.fib (s.curId r.1) with
              | none => 0
              | some f => if (capCheck (f.cap c.toNat) kData [rR] (f.reg x.toNat).toNat 64 64).isSome then (f.reg x.toNat).toNat else 0) e
          | .ok _ => s)
        let ok := rs.filterMap (fun r => match r.2 with
          | .ok p => some (r.1, p)
          | .error _ => none)
        if ok = [] then s else s.callSend g.toNat ok)

/-! ## Replies (R90, R199) -/

/-- A parked fibre takes up its reply, or learns that its request failed, and goes on; the record returns to the heap (R199). -/
def State.finishReply (s : State) (id : FibId) (seg : Nat) : State :=
  let a := s.asidOf id.launch
  let reply := recReply (s.recWord a seg)
  let len := s.segNum a seg 0x60 2
  let bytes := match s.segPA a seg with
    | none => []
    | some pa => s.rd (s.keyOf a) (pa + 0x70) len
  let dst := s.segCap a seg 0x120
  let s := if reply = 2 then s.deliver id dst bytes else s
  let s := s.modFib id (fun f => f.apply (.v 0 (replyV0 reply len)))
  (s.giveSeg a seg).wake id

/-- Add 1 to the notify cell of a record's WAKE field. -/
def State.addWake (s : State) (a seg : Nat) : State :=
  let w := s.segNum a seg 0x58 8
  if w = noLink then s else s.wakeCell (a, w)

/-- A reply slot has been filled or marked failed: the WAKE cell is raised, and a fibre parked on the slot goes on, or its gang becomes runnable (R90, R137, R199). -/
def State.replyReady (s : State) (a seg : Nat) : State :=
  let s := s.addWake a seg
  s.over (s.allFibres.filter (fun x => x.2.wait == .reply seg && s.asidOf x.1.launch == a)) (fun s x =>
    if (s.launch x.1.launch).any (fun L => (s.gang x.1.launch (L.gangOf x.1.wgid)).any (fun g => g.st == .running)) then s.finishReply x.1 seg else s.wakeGang x.1)

/-- A request could not be sent: its record is marked failed (R392). -/
def State.failCall (s : State) (a seg : Nat) : State :=
  let w := s.recWord a seg
  if s.isRecord a seg ∧ recState w = stLive ∧ recReply w = 1 then ((s.setRecWord a seg (recSerial w) 3 stLive).segSet a seg 0x60 2 0).replyReady a seg else s

/-- A running RCALL command: the requests that have left their links are counted, and with the last its token completes. Those on a failed link wait for their end (R392). -/
def State.stepRcall (s : State) (c : Command) : State :=
  let waits (x : Nat × Nat) : Bool := (s.trayOf x.1).failed || (s.trayOf x.1).txq.any (fun p => p.kind == 0x0B#5 && p.tag.toNat == x.2)
  let left := c.cuts.filter waits
  let gone := c.cuts.filter (fun x => !waits x)
  let s := { s with htxs := s.htxs.filter (fun t => !(gone.contains (t.link, t.tag) && (match t.kind with
    | .rcall n _ _ => n == c.id
    | _ => false))) }
  let s := (s.modCmd c.id (fun c => { c with cuts := left, count := c.count + gone.length })).retry
  if left = [] then s.finish c.id c.code (c.count + gone.length) else s.poke 85 c.id

/-! ## Answers from the host (R85, R86) -/

/-- Take the tray-link packet at the head of the receive queue when it has this kind. -/
def State.recvTray (s : State) (kind : BitVec 5) (f : Nat → Packet → State → State) : Host.Outcome State Fault Refusal :=
  match s.trayRx with
  | (k, p) :: rest => .next (if p.kind = kind then f k p { s with trayRx := rest } else s)
  | [] => .next s

/-- The request that an answer is for. -/
def State.htxOf (s : State) (k tag : Nat) : Option HTx := s.htxs.find? (fun t => t.link == k && t.tag == tag % 1024)

/-- A request is over: whoever waits for a tag or an acknowledgement looks again. -/
def State.dropHtx (s : State) (t : HTx) : State := State.retry (State.tilesAgain { s with htxs := s.htxs.filter (fun x => !(x.link == t.link && x.tag == t.tag)) })

/-- A request ends without its answer: over a failed link it is over, and else its tag stays in use until the answer has come, so that a late one meets no other request; the manual does not say when the tag is free (log entry 26). Its bytes leave the window. -/
def State.leaveHtx (s : State) (t : HTx) (answered : Bool) : State :=
  if answered || (s.trayOf t.link).failed then s.dropHtx t
  else State.retry (State.tilesAgain { s with htxs := s.htxs.map (fun (x : HTx) => if x.link == t.link && x.tag == t.tag then { x with kind := .gone, len := 0 } else x) })

/-- A tile's request is over: with the last byte, or a failure, the access completes. -/
def State.tileHostDone (s : State) (n : Nat) : State := if (s.tile n).any (fun y => y.finished && y.ready) then s.later 1 (.tileUnlatch n) else s

/-- HRDR (R86). -/
def execHrdr (s : State) : Host.Outcome State Fault Refusal :=
  s.recvTray 0x02#5 (fun k p s =>
    match s.htxOf k p.tag.toNat with
    | none => s
    | some t => match t.kind with
      | .load _ _ => (s.mapFibres (fun _ f => if f.wait = .host t.link t.tag then { f with wait := .none, resp := some (f.resp.getD [] ++ p.payload) } else f)).dropHtx t
      | .engine cmd off _ => (s.partIn cmd off p.payload).dropHtx t
      | .tile n off len =>
        ((s.modTile n (fun y => { y with data := y.data.take off ++ p.payload ++ y.data.drop (off + p.payload.length), count := y.count + len })).dropHtx t).tileHostDone n
      | .gone => s.dropHtx t
      | _ => s)

/-- HWRA (R86). -/
def execHwra (s : State) : Host.Outcome State Fault Refusal :=
  s.recvTray 0x04#5 (fun k p s =>
    match s.htxOf k p.tag.toNat with
    | none => s
    | some t => match t.kind with
      | .store _ _ => s.dropHtx t
      | .engine cmd off len => (s.partWritten cmd off len).dropHtx t
      | .tile n _ len => ((s.modTile n (fun y => { y with count := y.count + len })).dropHtx t).tileHostDone n
      | .gone => s.dropHtx t
      | _ => s)

/-- A host request ends without success, answered or not: a load performs 0x0D0, a store is reported at the next release at system scope, a copy or tile ends with a code (R86). -/
def State.htxEnds (s : State) (t : HTx) (code : BitVec 8) (answered : Bool) : State :=
  match t.kind with
  | .load _ off =>
    (s.over (s.allFibres.filter (fun x => x.2.wait == .host t.link t.tag)) (fun s x =>
      (s.modFib x.1 (fun f => { f with wait := .none })).raise x.1 (Eff.fault 0x0D0#12 off x.2.pc none))).leaveHtx t answered
  | .store f _ => (s.modFib f (fun x => { x with lost := x.lost ||| 2 })).leaveHtx t answered
  | .engine cmd _ _ => (match s.cmd cmd with
      | none => s.leaveHtx t answered
      | some c => (if c.st = .finished then s else s.finish cmd code c.reached).leaveHtx t answered)
  | .tile n _ _ => ((s.modTile n (fun y => { y with code := code })).leaveHtx t answered).tileHostDone n
  | .rcall cmd a seg =>
    let mine (p : Packet) : Bool := p.kind == 0x0B#5 && p.tag.toNat == t.tag
    let s := s.setTray t.link { (s.trayOf t.link) with txq := (s.trayOf t.link).txq.filter (fun p => !mine p) }
    let s := s.modCmd cmd (fun c => { c with cuts := c.cuts.filter (fun x => x != (t.link, t.tag)), code := 0x15#8 })
    ((s.failCall a seg).dropHtx t).poke 1 cmd
  | .gone => s.leaveHtx t answered

/-- HOST_REQUEST_TIMEOUT (R86): 100 µs without an answer, or a failed link. A remote call's request has no time-out while its link works (R392). -/
def execHostRequestTimeout (link : Fin 4) (tag : BitVec 10) (s : State) : Host.Outcome State Fault Refusal :=
  .next (match s.htxOf link.val tag.toNat with
    | none => s
    | some t =>
      let failed := (s.trayOf t.link).failed
      let call := match t.kind with
        | .rcall .. => true
        | _ => false
      if failed || (!call && decide (t.issued + 100000 ≤ s.ticks)) then s.htxEnds t 0x15#8 false else s)

/-- TRAY_NACK (R84): the request ends with the status given. -/
def execTrayNack (s : State) : Host.Outcome State Fault Refusal :=
  s.recvTray 0x0C#5 (fun k p s =>
    match s.htxOf k p.tag.toNat with
    | none => s
    | some t => s.htxEnds t p.op true)

/-! ## The host's requests (R87, R88) -/

/-- An answer to a host request goes out, and is kept for the case that the request comes again (R26, R84). -/
def State.trayAnswer (s : State) (k : Nat) (p r : Packet) : State :=
  let r : Packet := { r with tag := p.tag, payload := s.sealTo p.asid.toNat k r.payload }
  State.traySend { s with performed := s.performed.map (fun (f : Performed) =>
    if f.link == some k && f.packet.kind == p.kind && f.packet.tag == p.tag && f.packet.off == p.off && f.replies.isEmpty then { f with replies := [r] } else f) } k r

/-- Check a host request (R87): where its bytes lie, or the status of its refusal with the key for the Hamper. A region whose writes are blocked, for which the table has no line, is refused as one that is not resident, and asked for in the same way (log entry 26). As at a peer's request (R32), an address that cannot be read stands among the pieces. -/
def State.hostCheck (s : State) (k : Nat) (p : Packet) (n : Nat) (write ro : Bool) (bad : OEntry → Bool) : Except (BitVec 8 × Option HamperKey) (List (Nat × Nat)) :=
  let a := p.asid.toNat
  let o := p.off.toNat
  if !s.acceptNow.getLsbD 12 then .error (0x40#8, none)
  else match s.entry a p.obj.toNat with
    | none => .error (0x40#8, none)
    | some e =>
      if !e.host ∨ e.typ = 0 ∨ 3 < e.typ ∨ (ro && e.ro) then .error (0x40#8, none)
      else if e.size < o + n then .error (0x41#8, none)
      else if (s.asid a).any (·.conf) && (s.bindOf a k).isNone then .error (0x42#8, none)
      else if bad e then .error (0x45#8, none)
      else (pieces 65536 o n).foldl (fun (r : Except (BitVec 8 × Option HamperKey) (List (Nat × Nat))) x =>
        match r with
        | .error e => .error e
        | .ok segs => match s.xlatNow true ⟨a, p.obj.toNat, x.1, x.2, write && !e.ro, false⟩ with
          | .pa b _ => .ok (segs ++ [(b, x.2)])
          | .lost b => .ok (segs ++ [(b, x.2)])
          | .fault t => if t = 0x0D1#12 ∨ t = 0x0D2#12 then .error (0x43#8, some (keyAt a p.obj.toNat x.1 write)) else .error (0x41#8, none)
          | _ => .error (0x40#8, none)) (.ok [])

/-- Refuse a host request; a region that is wanted is asked for (R87). -/
def State.trayRefuse (s : State) (k : Nat) (p : Packet) (e : BitVec 8 × Option HamperKey) : State :=
  let s := match e.2 with
    | none => s
    | some key => s.hamperEnter 0 key
  s.trayAnswer k p { Packet.zero with kind := 0x0C#5, op := e.1 }

/-- The checks of a NOTE (R87). -/
def noteBad (p : Packet) (e : OEntry) : Bool := e.use != 2 || p.off.toNat % 8 != 0 || decide (2 < (p.payload.getD 8 0).toNat)

/-- A host request waits for a tile access to unlatch its lines (R242). -/
def State.trayBlocked (s : State) (k : Nat) (p : Packet) : Bool :=
  let go (write : Bool) : Except (BitVec 8 × Option HamperKey) (List (Nat × Nat)) → Bool
    | .error _ => false
    | .ok segs => s.spanLatched write (.mem segs)
  match p.kind.toNat with
  | 0x05 => go false (s.hostCheck k p p.len false false (fun _ => false))
  | 0x07 => go true (s.hostCheck k p p.payload.length true true (fun _ => false))
  | 0x09 => go true (s.hostCheck k p 8 true true (noteBad p))
  | 0x0A => go true (s.hostCheck k p 1024 true false (fun _ => false))
  | _ => false

/-- As recvTray, for a request that may have to wait. -/
def State.recvTrayReady (s : State) (kind : BitVec 5) (f : Nat → Packet → State → State) : Host.Outcome State Fault Refusal :=
  match s.trayRx with
  | (k, p) :: _ => if s.trayBlocked k p then .next s else s.recvTray kind f
  | [] => .next s

/-- What a host request reads or rewrites is lost: it is reported, and the request refused with 0x13, for which the table has no line (R107, log entry 26). -/
def State.trayLost (s : State) (k : Nat) (p : Packet) (segs : List (Nat × Nat)) : State := (s.logLost p.asid.toNat segs).trayRefuse k p (0x13#8, none)

/-- DRD (R87, R88). -/
def execDrd (s : State) : Host.Outcome State Fault Refusal :=
  s.recvTrayReady 0x05#5 (fun k p s =>
    match s.hostCheck k p p.len false false (fun _ => false) with
    | .error e => s.trayRefuse k p e
    | .ok segs =>
      if s.segsGone segs then s.trayLost k p segs
      else
        let s := s.over segs (fun s x => s.homeTouch x.1 false)
        s.trayAnswer k p { Packet.zero with kind := 0x06#5, len := p.len, payload := s.segsRead p.asid.toNat segs })

/-- DWR (R87, R88): performed at the home slices, clearing tags. -/
def execDwr (s : State) : Host.Outcome State Fault Refusal :=
  s.recvTrayReady 0x07#5 (fun k p s =>
    match s.hostCheck k p p.payload.length true true (fun _ => false) with
    | .error e => s.trayRefuse k p e
    | .ok segs =>
      if s.segsGone segs then s.trayLost k p segs
      else (s.segsWrite p.asid.toNat segs p.payload).trayAnswer k p { Packet.zero with kind := 0x08#5 })

/-- TRAY_NOTE (R89): one atomic write of a notify cell, which wakes every waiter. -/
def execTrayNote (s : State) : Host.Outcome State Fault Refusal :=
  s.recvTrayReady 0x09#5 (fun k p s =>
    match s.hostCheck k p 8 true true (noteBad p) with
    | .error e => s.trayRefuse k p e
    | .ok segs =>
      if s.segsGone segs then s.trayLost k p segs
      else
        let a := (segs.headD (0, 0)).1
        let key := s.keyOf p.asid.toNat
        let old := bytesNat (s.rd key a 8)
        let x := pnum p 0 8
        let op := (p.payload.getD 8 0).toNat
        s.homeStore key a (natBytes 8 (if op = 0 then x else if op = 1 then old + x else max old x)))

/-- RPLY (R90): the reply slot is filled as one step, or the reply is refused. RO does not bar it (R87). -/
def execRply (s : State) : Host.Outcome State Fault Refusal :=
  s.recvTrayReady 0x0A#5 (fun k p s =>
    let a := p.asid.toNat
    let r := p.off.toNat / 1024
    let w := s.recWord a r
    match s.hostCheck k p 1024 true false (fun _ => false) with
    | .error e => s.trayRefuse k p e
    | .ok segs =>
      let n := p.payload.length - 8
      if s.segsGone segs then s.trayLost k p segs
      else if p.payload.length < 8 ∨ 64 < n ∨ p.off.toNat % 1024 ≠ 0 ∨ p.obj.toNat ≠ s.heapObj a ∨ !s.isRecord a r ∨ recState w ≠ stLive ∨ recSerial w ≠ pnum p 0 4 ∨ recReply w ≠ 1 then
        s.trayRefuse k p (0x44#8, none)
      else
        let s := match s.segPA a r with
          | none => s
          | some pa => s.put (s.keyOf a) (addrs (pa + 0x70) (p.payload.drop 8))
        ((s.segSet a r 0x60 2 n).setRecWord a r (recSerial w) 2 stLive).replyReady a r)


end Sys2Proof.Machine
end

