-- ==== Sys2Proof/Machine/Trans.lean ====
section
/-! DEFINITION. The special functions of R256 that are not algebraic: FEXP2, FLOG2, FSINPI, FCOSPI and FTANH. Each value is computed with a relative error far below 2^-100 and rounded to nearest even once; no argument of the three formats lies that close to a rounding boundary, but for the exact cases, which are treated apart. -/

namespace Sys2Proof.Machine

/-- The fixed-point precision of this file. -/
def tp : Nat := 200

/-- floor(ln 2 × 2^200). -/
def ln2Fix : Nat := 0xb17217f7d1cf79abc9e3b39803f2f6af40f343267298b62d8a

/-- floor(π × 2^200). -/
def piFix : Nat := 0x3243f6a8885a308d313198a2e03707344a4093822299f31d008

/-- Σ z^k / (k+1)! from k on, in fixed point, term being z^k / (k+1)!; it stops when the fuel is used up. -/
def expGo : Nat → Nat → Nat → Nat → Nat → Nat
  | 0, _, _, _, acc => acc
  | n + 1, z, k, term, acc => expGo n z (k + 1) (term * z / 2 ^ tp / (k + 2)) (acc + term)

/-- (e^z - 1) / z for z in fixed point, below 50. -/
def expm1Over (z : Nat) : Nat := expGo 400 z 0 (2 ^ tp) 0

/-- Σ t^(2k+1) / (2k+1) in fixed point. -/
def atanhGo : Nat → Nat → Nat → Nat → Nat → Nat
  | 0, _, _, _, acc => acc
  | n + 1, t2, k, pw, acc => atanhGo n t2 (k + 1) (pw * t2 / 2 ^ tp) (acc + pw / (2 * k + 1))

/-- Σ (-1)^k z^k / (2k+1)! in fixed point: sin y / y for z = y². -/
def sincGo : Nat → Nat → Nat → Int → Int → Int
  | 0, _, _, _, acc => acc
  | n + 1, z, k, term, acc =>
    sincGo n z (k + 1) (-(term * z / 2 ^ tp / ((2 * k + 2) * (2 * k + 3) : Nat))) (acc + term)

/-- Round a value known to be inexact, taken slightly above num / den × 2^e. -/
def Fmt.roundSticky (f : Fmt) (neg : Bool) (num den : Nat) (e : Int) : RRes := f.roundQ .rne false neg (2 * num + 1) den (e - 1)

/-- The NaN result, with NV when invalid. -/
def Fmt.nanRes (f : Fmt) (nv : Bool) : RRes := ⟨f.nan, flagIf nv flagNV, false⟩

/-- FEXP2 (R256). -/
def Fmt.exp2Bits (f : Fmt) (x : Nat) : RRes :=
  match f.decode x with
  | .nan s => f.nanRes s
  | .inf s => if s then ⟨0, 0, false⟩ else ⟨f.infBits, 0, false⟩
  | .fin s m e =>
    if m = 0 then f.roundQ .rne false false 1 1 0
    else
      let k := (-e).toNat
      let v : Int := (if s then -(m : Int) else m) * 2 ^ e.toNat
      let n := max (-2000) (min 2000 (v / 2 ^ k))
      let fr := v % 2 ^ k
      if fr = 0 then f.roundQ .rne false false 1 1 n
      else
        let y := (fr.toNat * 2 ^ tp / 2 ^ k) * ln2Fix / 2 ^ tp
        f.roundSticky false (2 ^ tp + y * expm1Over y / 2 ^ tp) 1 (n - tp)

/-- FLOG2 (R256). -/
def Fmt.log2Bits (f : Fmt) (x : Nat) : RRes :=
  match f.decode x with
  | .nan s => f.nanRes s
  | .inf s => if s then f.nanRes true else ⟨f.infBits, 0, false⟩
  | .fin s m e =>
    if m = 0 then ⟨f.withSign true f.infBits, flagDZ, false⟩
    else if s then f.nanRes true
    else
      let l := Nat.log2 m
      if m = 2 ^ l then f.roundQ .rne false (decide (e + l < 0)) (e + l).natAbs 1 0
      else
        let up : Bool := 3 * 2 ^ l ≤ 2 * m
        let n : Int := if up then e + l + 1 else e + l
        let one : Nat := if up then 2 ^ (l + 1) else 2 ^ l
        let num : Nat := if up then one - m else m - one
        let t := num * 2 ^ tp / (m + one)
        let a := atanhGo 80 (t * t / 2 ^ tp) 0 t 0
        let lz : Int := (2 * a * 2 ^ tp / ln2Fix : Nat)
        let v : Int := n * 2 ^ tp + (if up then -lz else lz)
        f.roundSticky (decide (v < 0)) v.natAbs 1 (-(tp : Int))

/-- The sign and the exact kind or the value of sin(π p / 2^k): none for zero. -/
def Fmt.sinPiQ (f : Fmt) (neg : Bool) (p k : Nat) (zero : RRes) : RRes :=
  let r := p % 2 ^ (k + 1)
  let neg' := neg != decide (2 ^ k ≤ r)
  let q := r % 2 ^ k
  if q = 0 then zero
  else if 2 * q = 2 ^ k then f.roundQ .rne false neg' 1 1 0
  else
    let h := if 2 ^ k < 2 * q then 2 ^ k - q else q
    let y := (h * 2 ^ tp / 2 ^ k) * piFix / 2 ^ tp
    let sv := (sincGo 80 (y * y / 2 ^ tp) 0 (2 ^ tp : Nat) 0).toNat
    f.roundSticky neg' (h * piFix * sv) 1 (-(k : Int) - 2 * tp)

/-- FSINPI (R256). -/
def Fmt.sinPiBits (f : Fmt) (x : Nat) : RRes :=
  match f.decode x with
  | .nan s => f.nanRes s
  | .inf _ => f.nanRes true
  | .fin s m e => f.sinPiQ s (m * 2 ^ e.toNat) (-e).toNat ⟨f.withSign s 0, 0, false⟩

/-- FCOSPI (R256): sin(π (|x| + 1/2)). -/
def Fmt.cosPiBits (f : Fmt) (x : Nat) : RRes :=
  match f.decode x with
  | .nan s => f.nanRes s
  | .inf _ => f.nanRes true
  | .fin _ m e =>
    let k := (-e).toNat
    f.sinPiQ false (2 * (m * 2 ^ e.toNat) + 2 ^ k) (k + 1) ⟨0, 0, false⟩

/-- FTANH (R256). -/
def Fmt.tanhBits (f : Fmt) (x : Nat) : RRes :=
  match f.decode x with
  | .nan s => f.nanRes s
  | .inf s => f.roundQ .rne false s 1 1 0
  | .fin s m e =>
    if m = 0 then ⟨x, 0, false⟩
    else
      let m' := m * 2 ^ e.toNat
      let k := (-e).toNat
      if 24 * 2 ^ k ≤ m' then f.roundQ .rne false s (2 ^ 100 - 1) (2 ^ 100) 0
      else
        let g := expm1Over (2 * m' * 2 ^ tp / 2 ^ k)
        f.roundQ .rne false s (2 * (m' * g) + 1) (2 * (m' * g + 2 ^ (tp + k))) 0

end Sys2Proof.Machine
end

