-- ==== Sys2Proof/Machine/Float.lean ====
section
/-! DEFINITION. The floating-point instructions on FP32 and packed halves (R253 to R256, R332 to R336). -/

namespace Sys2Proof.Machine

/-! ## Elements -/

/-- %fmode.FTZ (R253). -/
def ftzOf (f : Fibre) : Bool := f.fmode.getLsbD 2

/-- The rounding mode of a rounding field: 000 takes %fmode.RM (R256). -/
def modeOf (f : Fibre) (r : BitVec 3) : RM := if r = 0#3 then rmOf f.fmode.toNat else rmOf (r.toNat - 1)

/-- The element format of a type field (R332). -/
def typeFmt (t : BitVec 2) : Fmt := if t = 0#2 then fp32 else if t = 1#2 then fp16 else bf16

/-- A result under FTZ: a subnormal becomes zero of its sign, with UF and NX (R332). -/
def Fmt.post (f : Fmt) (ftz : Bool) (r : RRes) : RRes :=
  if ftz && f.isSub r.bits then ⟨f.flush r.bits, r.flags ||| flagUF ||| flagNX, r.sat⟩ else r

/-- An operand under FTZ. -/
def Fmt.pre (f : Fmt) (ftz : Bool) (x : Nat) : Nat := if ftz then f.flush x else x

/-- Elem of R332. -/
def Fmt.elem (f : Fmt) (ftz : Bool) (op : Nat → Nat → RRes) (x y : Nat) : RRes := f.post ftz (op (f.pre ftz x) (f.pre ftz y))

/-- An elementwise result: the word and the flags of one or two elements (R332). -/
def elemwise (t : BitVec 2) (x y : Word) (e : Fmt → Nat → Nat → RRes) : Word × Word :=
  if t = 0#2 then
    let r := e fp32 x.toNat y.toNat
    (BitVec.ofNat 32 r.bits, r.flags)
  else
    let f := typeFmt t
    let lo := e f (half false x).toNat (half false y).toNat
    let hi := e f (half true x).toNat (half true y).toNat
    (BitVec.ofNat 32 (lo.bits + 65536 * hi.bits), lo.flags ||| hi.flags)

/-- A floating-point R form: format, mode, operands (R332). -/
def State.fpR (s : State) (i : Instr) (lat : Nat) (d a b : BitVec 6) (g : Bool) (t : BitVec 2) (r : BitVec 3) (op : Fmt → RM → Nat → Nat → RRes) : Host.Outcome State Fault Refusal :=
  s.compute i lat (fun s f =>
    let w := elemwise t (s.valA f g a) (f.reg b.toNat) (fun fm => fm.elem (ftzOf f) (op fm (modeOf f r)))
    ([.v d.toNat w.1], w.2))

/-- A unary floating-point R form of fixed latency. -/
def State.fpU (s : State) (i : Instr) (lat : Nat) (d a : BitVec 6) (g : Bool) (t : BitVec 2) (r : BitVec 3) (op : Fmt → RM → Nat → RRes) : Host.Outcome State Fault Refusal :=
  s.compute i lat (fun s f =>
    let w := elemwise t (s.valA f g a) 0 (fun fm => fm.elem (ftzOf f) (fun x _ => op fm (modeOf f r) x))
    ([.v d.toNat w.1], w.2))

/-- A fused form on elements of one format with three operands (R336). -/
def State.fused (s : State) (i : Instr) (d a b c : BitVec 6) (t : BitVec 2) : Host.Outcome State Fault Refusal :=
  s.compute i 6 (fun _ f =>
    let m := modeOf f 0
    let z := ftzOf f
    let one (fm : Fmt) (x y w : Nat) : RRes := fm.post z (fm.fmaBits m (fm.pre z x) (fm.pre z y) (fm.pre z w))
    let x := f.reg a.toNat
    let y := f.reg b.toNat
    let w := f.reg c.toNat
    if t = 0#2 then
      let r := one fp32 x.toNat y.toNat w.toNat
      ([.v d.toNat (BitVec.ofNat 32 r.bits)], r.flags)
    else
      let lo := one (typeFmt t) (half false x).toNat (half false y).toNat (half false w).toNat
      let hi := one (typeFmt t) (half true x).toNat (half true y).toNat (half true w).toNat
      ([.v d.toNat (BitVec.ofNat 32 (lo.bits + 65536 * hi.bits))], lo.flags ||| hi.flags))

/-- A dot product of two halves with an FP32 addend (R336). -/
def State.dot2 (s : State) (i : Instr) (d a b c : BitVec 6) (fm : Fmt) : Host.Outcome State Fault Refusal :=
  s.compute i 6 (fun _ f =>
    let z := ftzOf f
    let x (h : Bool) : FV := fm.decode (fm.pre z (half h (f.reg a.toNat)).toNat)
    let y (h : Bool) : FV := fm.decode (fm.pre z (half h (f.reg b.toNat)).toNat)
    let r := fp32.post z (fp32.sum (modeOf f 0) [Term.mul (x false) (y false), Term.mul (x true) (y true),
      Term.ofFV (fp32.decode (fp32.pre z (f.reg c.toNat).toNat))])
    ([.v d.toNat (BitVec.ofNat 32 r.bits)], r.flags))

/-! ## Arithmetic -/

/-- FADD (R333). -/
def execFadd (d a b : BitVec 6) (g : Bool) (t : BitVec 2) (r : BitVec 3) (s : State) : Host.Outcome State Fault Refusal := s.fpR (.fadd d a b g t r) 6 d a b g t r Fmt.addBits

/-- FSUB (R333). -/
def execFsub (d a b : BitVec 6) (g : Bool) (t : BitVec 2) (r : BitVec 3) (s : State) : Host.Outcome State Fault Refusal := s.fpR (.fsub d a b g t r) 6 d a b g t r Fmt.subBits

/-- FMUL (R333). -/
def execFmul (d a b : BitVec 6) (g : Bool) (t : BitVec 2) (r : BitVec 3) (s : State) : Host.Outcome State Fault Refusal := s.fpR (.fmul d a b g t r) 6 d a b g t r Fmt.mulBits

/-- FFMA (R336). -/
def execFfma (d a b c : BitVec 6) (s : State) : Host.Outcome State Fault Refusal := s.fused (.ffma d a b c) d a b c 0

/-- HFMA2 (R336). -/
def execHfma2 (d a b c : BitVec 6) (s : State) : Host.Outcome State Fault Refusal := s.fused (.hfma2 d a b c) d a b c 1

/-- BFMA2 (R336). -/
def execBfma2 (d a b c : BitVec 6) (s : State) : Host.Outcome State Fault Refusal := s.fused (.bfma2 d a b c) d a b c 2

/-- FMIN (R255, R333). -/
def execFmin (d a b : BitVec 6) (g : Bool) (t : BitVec 2) (s : State) : Host.Outcome State Fault Refusal := s.fpR (.fmin d a b g t) 6 d a b g t 0 (fun f _ => f.minMax false)

/-- FMAX (R255, R333). -/
def execFmax (d a b : BitVec 6) (g : Bool) (t : BitVec 2) (s : State) : Host.Outcome State Fault Refusal := s.fpR (.fmax d a b g t) 6 d a b g t 0 (fun f _ => f.minMax true)

/-- FABS (R333). -/
def execFabs (d a : BitVec 6) (g : Bool) (t : BitVec 2) (s : State) : Host.Outcome State Fault Refusal :=
  s.fpU (.fabs d a g t) 6 d a g t 0 (fun f _ x => ⟨if f.isNaN x then f.nan else x % f.sign, 0, false⟩)

/-- FNEG (R333). -/
def execFneg (d a : BitVec 6) (g : Bool) (t : BitVec 2) (s : State) : Host.Outcome State Fault Refusal :=
  s.fpU (.fneg d a g t) 6 d a g t 0 (fun f _ x => ⟨if f.isNaN x then f.nan else f.negBits x, 0, false⟩)

/-- FROUND (R333). -/
def execFround (d a : BitVec 6) (g : Bool) (t : BitVec 2) (r : BitVec 3) (s : State) : Host.Outcome State Fault Refusal := s.fpU (.fround d a g t r) 6 d a g t r Fmt.roundInt

/-- FSCALE (R333): the scale is the integer in B, which FTZ does not touch. -/
def execFscale (d a b : BitVec 6) (g : Bool) (t : BitVec 2) (r : BitVec 3) (s : State) : Host.Outcome State Fault Refusal :=
  s.compute (.fscale d a b g t r) 6 (fun s f =>
    let w := elemwise t (s.valA f g a) (f.reg b.toNat) (fun fm x y =>
      fm.post (ftzOf f) (fm.scale (modeOf f r) (fm.pre (ftzOf f) x) (sx (if t = 0#2 then 32 else 16) y)))
    ([.v d.toNat w.1], w.2))

/-- FDOT2 (R336). -/
def execFdot2 (d a b c : BitVec 6) (s : State) : Host.Outcome State Fault Refusal := s.dot2 (.fdot2 d a b c) d a b c fp16

/-- BDOT2 (R336). -/
def execBdot2 (d a b c : BitVec 6) (s : State) : Host.Outcome State Fault Refusal := s.dot2 (.bdot2 d a b c) d a b c bf16

/-! ## Special functions (R256): rounded to nearest even whatever the field says -/

/-- FRCP (R256). -/
def execFrcp (d a : BitVec 6) (g : Bool) (t : BitVec 2) (r : BitVec 3) (s : State) : Host.Outcome State Fault Refusal := s.fpU (.frcp d a g t r) 12 d a g t r (fun f _ => f.rcpBits)

/-- FRSQ (R256). -/
def execFrsq (d a : BitVec 6) (g : Bool) (t : BitVec 2) (r : BitVec 3) (s : State) : Host.Outcome State Fault Refusal := s.fpU (.frsq d a g t r) 12 d a g t r (fun f _ => f.rsqBits)

/-- FSQRT (R256). -/
def execFsqrt (d a : BitVec 6) (g : Bool) (t : BitVec 2) (r : BitVec 3) (s : State) : Host.Outcome State Fault Refusal := s.fpU (.fsqrt d a g t r) 12 d a g t r (fun f _ => f.sqrtBits)

/-- FDIV (R256): scoreboarded. -/
def execFdiv (d a b : BitVec 6) (g : Bool) (t : BitVec 2) (r : BitVec 3) (s : State) : Host.Outcome State Fault Refusal :=
  s.computeScored (.fdiv d a b g t r) (fun s f =>
    let w := elemwise t (s.valA f g a) (f.reg b.toNat) (fun fm => fm.elem (ftzOf f) (fm.divBits .rne))
    ([.v d.toNat w.1], w.2, none))

/-- FEXP2 (R256). -/
def execFexp2 (d a : BitVec 6) (g : Bool) (t : BitVec 2) (r : BitVec 3) (s : State) : Host.Outcome State Fault Refusal := s.fpU (.fexp2 d a g t r) 12 d a g t r (fun f _ => f.exp2Bits)

/-- FLOG2 (R256). -/
def execFlog2 (d a : BitVec 6) (g : Bool) (t : BitVec 2) (r : BitVec 3) (s : State) : Host.Outcome State Fault Refusal := s.fpU (.flog2 d a g t r) 12 d a g t r (fun f _ => f.log2Bits)

/-- FSINPI (R256). -/
def execFsinpi (d a : BitVec 6) (g : Bool) (t : BitVec 2) (r : BitVec 3) (s : State) : Host.Outcome State Fault Refusal := s.fpU (.fsinpi d a g t r) 12 d a g t r (fun f _ => f.sinPiBits)

/-- FCOSPI (R256). -/
def execFcospi (d a : BitVec 6) (g : Bool) (t : BitVec 2) (r : BitVec 3) (s : State) : Host.Outcome State Fault Refusal := s.fpU (.fcospi d a g t r) 12 d a g t r (fun f _ => f.cosPiBits)

/-- FTANH (R256). -/
def execFtanh (d a : BitVec 6) (g : Bool) (t : BitVec 2) (r : BitVec 3) (s : State) : Host.Outcome State Fault Refusal := s.fpU (.ftanh d a g t r) 12 d a g t r (fun f _ => f.tanhBits)

/-! ## Compare and class -/

/-- A floating-point condition and its NV (R334). -/
def Fmt.cond (f : Fmt) (n : BitVec 3) (x y : Nat) : Bool × Word :=
  let un := f.isNaN x || f.isNaN y
  let sn := f.isSNaN x || f.isSNaN y
  let kx := f.key x
  let ky := f.key y
  match n.toNat with
  | 0 => (!un && kx == ky, flagIf sn flagNV)
  | 1 => (un || kx != ky, flagIf sn flagNV)
  | 2 => (!un && decide (kx < ky), flagIf un flagNV)
  | 3 => (!un && decide (kx ≤ ky), flagIf un flagNV)
  | 4 => (!un && decide (ky < kx), flagIf un flagNV)
  | 5 => (!un && decide (ky ≤ kx), flagIf un flagNV)
  | 6 => (un, flagIf sn flagNV)
  | _ => (!un, flagIf sn flagNV)

/-- FCMP (R334): for packed types the condition must hold in both halves. -/
def execFcmp (k p : BitVec 3) (a b : BitVec 6) (g : Bool) (t : BitVec 2) (n : BitVec 3) (s : State) : Host.Outcome State Fault Refusal :=
  s.compute (.fcmp k p a b g t n) 4 (fun s f =>
    let x := s.valA f g a
    let y := f.reg b.toNat
    let one (fm : Fmt) (x y : Nat) : Bool × Word := fm.cond n (fm.pre (ftzOf f) x) (fm.pre (ftzOf f) y)
    if t = 0#2 then
      let r := one fp32 x.toNat y.toNat
      (condWrite f k p r.1, r.2)
    else
      let lo := one (typeFmt t) (half false x).toNat (half false y).toNat
      let hi := one (typeFmt t) (half true x).toNat (half true y).toNat
      (condWrite f k p (lo.1 && hi.1), lo.2 ||| hi.2))

/-- FCLASS (R335). -/
def execFclass (d a : BitVec 6) (g : Bool) (t : BitVec 2) (s : State) : Host.Outcome State Fault Refusal :=
  s.compute (.fclass d a g t) 4 (fun s f =>
    ([.v d.toNat (elemwise t (s.valA f g a) 0 (fun fm x _ => ⟨2 ^ fm.classBit x, 0, false⟩)).1], 0))

end Sys2Proof.Machine
end

