-- ==== Sys2Proof/Machine/Packed.lean ====
section
/-! DEFINITION. Conversion, quantising and unpacking (R337 to R341), packed integer arithmetic (R342 to R345) and the scale rings (R263 to R265, R346). -/

namespace Sys2Proof.Machine

/-! ## Scale rings -/

/-- The ring that a format slot names. -/
def Launch.ring (L : Launch) (slot : DWord) : Ring := L.rings.getD (slotRing slot) ⟨List.replicate 16 none, 0, 0⟩

/-- The largest valid entry: entries are magnitudes, whose patterns order as their values do. -/
def Ring.largest (r : Ring) : Option FV :=
  let vs := r.entries.filterMap id
  if vs = [] then none else some (fp32.decode (vs.foldl (fun (m : Nat) (x : Word) => max m x.toNat) 0))

/-- The ring exponent that an instruction or command samples for a slot; 0 outside scale mode 2 (R260, R265). -/
def Launch.exponent (L : Launch) (slot : DWord) : Int := if slotScale slot = 2 then ringExponent slot (L.ring slot).largest else 0

/-- Change the ring that a slot names. -/
def State.modRing (s : State) (l : Nat) (slot : DWord) (f : Ring → Ring) : State :=
  s.modLaunch l (fun L => { L with rings := L.rings.set (slotRing slot) (f (L.ring slot)) })

/-- A format slot of the current launch. -/
def State.slot (s : State) (n : BitVec 3) : DWord :=
  match s.curLaunch with
  | none => 0
  | some L => L.fmt n

/-- The ring exponent sampled for a slot of the current launch. -/
def State.exponent (s : State) (n : BitVec 3) : Int :=
  match s.curLaunch with
  | none => 0
  | some L => L.exponent (L.fmt n)

/-- |a| raised into a pending maximum; a NaN is ignored (R263). -/
def raiseMax (m a : Word) : Word :=
  let x := a &&& 0x7FFFFFFF#32
  if fp32.isNaN x.toNat then m else if m.toNat < x.toNat then x else m

/-- A push: the pending maximum becomes the entry at the write index (R263). -/
def Ring.push (r : Ring) : Ring := ⟨r.entries.set r.index (some r.pendMax), (r.index + 1) % 16, 0⟩

/-- SCALEP (R263, R346): one step for the whole bundle. -/
def execScalep (a : BitVec 6) (n : BitVec 3) (s : State) : Host.Outcome State Fault Refusal :=
  s.issue (.scalep a n) (fun s _ exe =>
    if exe = [] then s
    else s.modRing s.cur.launch (s.slot n) (fun r => { r with pendMax := (s.curFibs exe).foldl (fun m f => raiseMax m (f.reg a.toNat)) r.pendMax }))

/-- SCALEC (R263, R346): one push when some fibre executes. -/
def execScalec (n : BitVec 3) (s : State) : Host.Outcome State Fault Refusal :=
  s.issue (.scalec n) (fun s _ exe => if exe = [] then s else s.modRing s.cur.launch (s.slot n) Ring.push)

/-- SCALEG (R265, R346): one read for the whole bundle. -/
def execScaleg (d : BitVec 6) (n : BitVec 3) (s : State) : Host.Outcome State Fault Refusal :=
  s.issue (.scaleg d n) (fun s _ exe =>
    let e := s.exponent n
    s.each exe (fun s id _ => s.scored id [.v d.toNat (low32 e)]))

/-! ## Conversion -/

/-- CVT (R337). -/
def execCvt (d a : BitVec 6) (sf df r : BitVec 3) (t : Bool) (s : State) : Host.Outcome State Fault Refusal :=
  s.compute (.cvt d a sf df r t) 6 (fun s f =>
    let src := s.slot sf
    let dst := s.slot df
    let mode := if r = 0#3 then rmOf (slotRound dst) else rmOf (r.toNat - 1)
    let x := convert src (s.exponent sf) ((f.reg a.toNat).toNat % 2 ^ elemBits (slotElem src)) dst (s.exponent df) mode t
    let y := if isIntCode (slotElem dst) then low32 (sx (elemBits (slotElem dst)) x.bits) else BitVec.ofNat 32 x.bits
    ([.v d.toNat y], x.flags))

/-- The packed word of four or eight elements of w bits. -/
def packElems (w : Nat) (xs : List Nat) : Word :=
  BitVec.ofNat 32 ((List.range xs.length).foldl (fun acc k => acc + xs.getD k 0 % 2 ^ w * 2 ^ (w * k)) 0)

/-- An FP32 register written in a slot's format (R339). -/
def quantise (slot : DWord) (sat : Bool) (F : FV) (x : Word) : Nat :=
  (elemWrite (slotElem slot) (rmOf (slotRound slot)) sat (slotFlush slot) (fp32.decode x.toNat) F).bits

/-- n registers from a up. -/
def Fibre.regsFrom (f : Fibre) (a n : Nat) : List Word := (List.range n).map (fun k => f.reg (a + k))

/-- QPACK (R339). -/
def execQpack (d a b : BitVec 6) (t : Bool) (n : BitVec 3) (s : State) : Host.Outcome State Fault Refusal :=
  s.compute (.qpack d a b t n) 6 (fun s f =>
    let slot := s.slot n
    let w := elemBits (slotElem slot)
    if slotScale slot < 3 then
      ([.v d.toNat (packElems w ((f.regsFrom a.toNat 4).map (quantise slot (t || slotSat slot) (slotFactor slot (s.exponent n)))))], 0)
    else
      let byte := blockScale (slotScale slot) (slotElem slot) (fp32.decode ((f.reg b.toNat) &&& 0x7FFFFFFF#32).toNat)
      ([.v d.toNat (packElems w ((f.regsFrom a.toNat 4).map (quantise slot true (blockFactor (slotScale slot) byte)))),
        .v (d.toNat + 1) (BitVec.ofNat 32 byte)], 0))

/-- QPACK4 (R340). -/
def execQpack4 (d a b : BitVec 6) (t : Bool) (n : BitVec 3) (s : State) : Host.Outcome State Fault Refusal :=
  s.compute (.qpack4 d a b t n) 6 (fun s f =>
    let slot := s.slot n
    ([.v d.toNat (packElems 4 ((f.regsFrom a.toNat 4 ++ f.regsFrom b.toNat 4).map
      (quantise slot (t || slotSat slot) (slotFactor slot (s.exponent n)))))], 0))

/-- An exact or special value as FP32, rounded to nearest even (R341). -/
def toFp32 (x : FV) : Nat := (writeFloat 0 .rne false false x (pow2FV 0)).bits

/-- QUNPK (R341). -/
def execQunpk (d a b : BitVec 6) (h : BitVec 2) (n : BitVec 3) (s : State) : Host.Outcome State Fault Refusal :=
  s.compute (.qunpk d a b h n) 6 (fun s f =>
    let slot := s.slot n
    let w := elemBits (slotElem slot)
    let F := if slotScale slot < 3 then slotFactor slot (s.exponent n) else blockFactor (slotScale slot) ((f.reg b.toNat).toNat % 256)
    ((List.range 4).map (fun k =>
      let q := elemDecodeFlush (slotFlush slot) (slotElem slot) (bitsOf (f.reg a.toNat).toNat (w * (4 * h.toNat + k)) w)
      WB.v (d.toNat + k) (BitVec.ofNat 32 (toFp32 (timesFactor q F)))), 0))

/-! ## Packed integer arithmetic -/

/-- The exact sum of products of n signed fields of w bits (R342). -/
def dotFields (w n : Nat) (x y : Word) : Int :=
  (List.range n).foldl (fun acc k => acc + sx w (bitsOf x.toNat (w * k) w) * sx w (bitsOf y.toNat (w * k) w)) 0

/-- DOT4 (R342). -/
def execDot4 (d a b c : BitVec 6) (s : State) : Host.Outcome State Fault Refusal :=
  s.word (.dot4 d a b c) 6 d (fun f => low32 (dotFields 8 4 (f.reg a.toNat) (f.reg b.toNat) + (f.reg c.toNat).toNat))

/-- DOT8 (R342). -/
def execDot8 (d a b c : BitVec 6) (s : State) : Host.Outcome State Fault Refusal :=
  s.word (.dot8 d a b c) 6 d (fun f => low32 (dotFields 4 8 (f.reg a.toNat) (f.reg b.toNat) + (f.reg c.toNat).toNat))

/-- FDOT4 (R342): no NaN sets NV. -/
def execFdot4 (d a b c : BitVec 6) (s : State) : Host.Outcome State Fault Refusal :=
  s.compute (.fdot4 d a b c) 6 (fun _ f =>
    let z := ftzOf f
    let el (x : Word) (k : Nat) : FV := e4m3.decode (bitsOf x.toNat (8 * k) 8)
    let ts := (List.range 4).map (fun k => Term.mul (el (f.reg a.toNat) k) (el (f.reg b.toNat) k))
    let r := fp32.post z (fp32.sum (modeOf f 0) (ts ++ [⟨fp32.decode (fp32.pre z (f.reg c.toNat).toNat), false⟩]))
    ([.v d.toNat (BitVec.ofNat 32 r.bits)], r.flags))

/-- MAC2 (R342). -/
def execMac2 (d a b c : BitVec 6) (s : State) : Host.Outcome State Fault Refusal :=
  s.compute (.mac2 d a b c) 6 (fun _ f =>
    let r := intResult false true (dotFields 16 2 (f.reg a.toNat) (f.reg b.toNat) + (f.reg c.toNat).toInt)
    ([.v d.toNat r.1], r.2))

/-- The rounding right shift of R343. -/
def shiftRound (x : Int) (n : Nat) : Int := if n = 0 then x else shiftFloor (x + 2 ^ (n - 1)) n

/-- SHRR (R343). -/
def execShrr (d a b : BitVec 6) (g st u : Bool) (s : State) : Host.Outcome State Fault Refusal :=
  s.compute (.shrr d a b g st u) 4 (fun s f =>
    let x := shiftRound (intOf u (s.valA f g a)) ((f.reg b.toNat).toNat % 32)
    if st then
      let r := clamp (rangeOf u 16).1 (rangeOf u 16).2 x
      ([.v d.toNat (low32 r.1)], flagIf r.2 flagSAT)
    else ([.v d.toNat (low32 x)], 0))

/-- PK16 (R344). -/
def execPk16 (d a b : BitVec 6) (g st u : Bool) (s : State) : Host.Outcome State Fault Refusal :=
  s.compute (.pk16 d a b g st u) 4 (fun s f =>
    let lo := intResult16 u st (intOf u (s.valA f g a))
    let hi := intResult16 u st (intOf u (f.reg b.toNat))
    ([.v d.toNat (joinHalves lo.1 hi.1)], lo.2 ||| hi.2))

/-- A packed integer operation on halves (R345). -/
def State.halves (s : State) (i : Instr) (d a b : BitVec 6) (g st u : Bool) (op : Int → Int → Int) : Host.Outcome State Fault Refusal :=
  s.compute i 4 (fun s f =>
    let x := s.valA f g a
    let y := f.reg b.toNat
    let one (h : Bool) := intResult16 u st (op (intOf16 u (half h x)) (intOf16 u (half h y)))
    ([.v d.toNat (joinHalves (one false).1 (one true).1)], (one false).2 ||| (one true).2))

/-- ADD2 (R345). -/
def execAdd2 (d a b : BitVec 6) (g st u : Bool) (s : State) : Host.Outcome State Fault Refusal := s.halves (.add2 d a b g st u) d a b g st u (· + ·)

/-- SUB2 (R345). -/
def execSub2 (d a b : BitVec 6) (g st u : Bool) (s : State) : Host.Outcome State Fault Refusal := s.halves (.sub2 d a b g st u) d a b g st u (· - ·)

/-- MUL2 (R345). -/
def execMul2 (d a b : BitVec 6) (g st u : Bool) (s : State) : Host.Outcome State Fault Refusal := s.halves (.mul2 d a b g st u) d a b g st u (· * ·)

end Sys2Proof.Machine
end

