-- ==== Sys2Proof/Machine/Mangle.lean ====
section
/-! DEFINITION. The Mangle and the Basket: MMA, MZERO and MDRAIN, their blocks and checks, gathering, sparsity, the chunk sums and the drain (R260 to R282). A running MMA advances by one chunk of K at a time, MZERO and MDRAIN by one block of 16 by 16 output elements (R281). -/

namespace Sys2Proof.Machine

/-! ## Accumulators (R278) -/

/-- An accumulator element by byte offset; an unlisted one is zero. -/
def accGet : List (Nat × Word) → Nat → Word
  | [], _ => 0
  | x :: xs, a => if a = x.1 then x.2 else accGet xs a

/-- Write an accumulator element into the rising list, dropping a zero. -/
def accSet : List (Nat × Word) → Nat → Word → List (Nat × Word)
  | [], a, v => if v = 0#32 then [] else [(a, v)]
  | x :: xs, a, v =>
    if a < x.1 then (if v = 0#32 then x :: xs else (a, v) :: x :: xs)
    else if a = x.1 then (if v = 0#32 then xs else (a, v) :: xs)
    else x :: accSet xs a v

/-! ## The parameter block (R270) -/

/-- The fields of a parameter block. -/
structure MBlock where
  flags : Nat
  m : Nat
  n : Nat
  k : Nat
  arows : Nat
  aidx : Nat
  abase : Nat
  astride : Nat
  sastride : Nat
  sca : Nat
  scb : Nat
  w0 : Nat
  w1 : Nat
  w2 : Nat
  sbstride : Nat
  metastride : Nat
  mta : Nat
  accbase : Nat
  accstride : Nat
  deriving DecidableEq, Repr

/-- The block's fields from its 64 bytes. -/
def mblock (bs : List Byte) : MBlock :=
  let f (o n : Nat) : Nat := bytesNat ((bs.drop o).take n)
  { flags := f 0 4, m := f 4 2, n := f 6 2, k := f 8 2, arows := f 10 2, aidx := f 12 4, abase := f 16 4, astride := f 20 2, sastride := f 22 2, sca := f 24 4,
    scb := f 28 4, w0 := f 32 4, w1 := f 36 4, w2 := f 40 4, sbstride := f 44 2, metastride := f 46 2, mta := f 48 4, accbase := f 52 4, accstride := f 56 2 }

def MBlock.slotA (b : MBlock) : Nat := bitsOf b.flags 0 3
def MBlock.slotB (b : MBlock) : Nat := bitsOf b.flags 3 3
def MBlock.slotC (b : MBlock) : Nat := bitsOf b.flags 6 3
def MBlock.accum (b : MBlock) : Bool := bitsOf b.flags 9 1 == 1
def MBlock.sparse (b : MBlock) : Bool := bitsOf b.flags 10 1 == 1
def MBlock.trans (b : MBlock) : Bool := bitsOf b.flags 11 1 == 1
def MBlock.scalep (b : MBlock) : Bool := bitsOf b.flags 14 1 == 1
def MBlock.lay (b : MBlock) : Option Layout := layoutOf b.w0 b.w1 b.w2

/-- The slot named by BLAYOUT. -/
def MBlock.slotD (b : MBlock) : Nat := bitsOf b.w2 28 3

/-- A format slot by number. -/
def Launch.slotN (L : Launch) (n : Nat) : DWord := L.formats.getD n 0

/-- The block size of a slot in scale modes 3 to 5; 0 otherwise (R275). -/
def slotBlock (s : DWord) : Nat := if 3 ≤ slotScale s then blockSize (slotScale s) else 0

/-! ## Checks (R279) -/

/-- M, N and the accumulator fields break R270. -/
def MBlock.accBad (b : MBlock) : Bool :=
  b.m == 0 || decide (256 < b.m) || b.n == 0 || decide (256 < b.n) || b.accbase % 64 != 0 || b.accstride % 64 != 0 || decide (b.accstride < 4 * b.n)

/-- The end of the accumulator tile. -/
def MBlock.accEnd (b : MBlock) : Nat := b.accbase + (b.m - 1) * b.accstride + 4 * b.n

/-- One past the last scratchpad byte of a declared layout of elements of w bits. -/
def Layout.endOf (y : Layout) (w : Nat) : Nat :=
  let rb := (y.cols * w + 7) / 8
  ((List.range (min y.rows 16)).map (fun j => let r := y.rows - 1 - j
    ((List.range (rb / 16 + 1)).map (fun u => y.byteAt (y.planes - 1) r (min (16 * u + 15) (rb - 1)) + 1)).foldl max 0)).foldl max 0

/-- The last byte of rows starting from a base: n rows of a stride, len bytes each. -/
def rowsEnd (base n stride len : Nat) : Nat := base + (n - 1) * stride + len

/-- MMA's code 0x36. -/
def MBlock.mmaBad (b : MBlock) (reserved : Bool) : Bool :=
  reserved || b.flags / 4096 != 0 || [b.aidx, b.abase, b.sca, b.scb, b.mta].any (fun x => decide (2 ^ 22 ≤ x)) || b.accBad
    || b.k == 0 || decide (8192 < b.k) || b.arows == 0 || b.aidx % 4 != 0 || b.abase % 4 != 0 || b.astride % 4 != 0
    || b.slotB != b.slotD || (b.sparse && b.k % 4 != 0) || (match b.lay with
      | none => true
      | some y =>
        let kk := if b.sparse then b.k / 2 else b.k
        if b.trans then decide (y.cols * y.planes < kk) || decide (y.rows < b.n) else decide (y.rows * y.planes < kk) || decide (y.cols < b.n))

/-- MMA's code 0x3A: a combination outside R267 and R275, of which the second asks for scale mode 0 of an FP32 accumulator slot only. -/
def MBlock.mmaCombo (b : MBlock) (L : Launch) : Bool :=
  let A := L.slotN b.slotA
  let B := L.slotN b.slotB
  let C := L.slotN b.slotC
  let ca := slotElem A
  let cb := slotElem B
  let isInt (x : DWord) : Bool := (slotElem x == 8 || slotElem x == 9) && slotScale x == 0
  let accOk := (slotElem C == 0 && slotScale C == 0) || (slotElem C == 11 && isInt A && isInt B)
  let blkA := slotBlock A
  let blkB := slotBlock B
  !(1 ≤ ca && ca ≤ 9 && 1 ≤ cb && cb ≤ 9) || !accOk || (blkA != 0 && blkB != 0 && blkA != blkB)
    || (blkA != 0 && b.k % blkA != 0) || (blkB != 0 && b.k % blkB != 0)
    || ([ca, cb].any (fun c => c == 5 || c == 6) && b.k % 4 != 0) || ([ca, cb].any (fun c => c == 7 || c == 9) && b.k % 2 != 0)

/-- MMA's code 0x37. -/
def MBlock.mmaOut (b : MBlock) (L : Launch) : Bool :=
  let A := L.slotN b.slotA
  let B := L.slotN b.slotB
  let ends := [b.aidx + 2 * b.m, rowsEnd b.abase b.arows b.astride ((b.k * elemBits (slotElem A) + 7) / 8),
      (match b.lay with | none => 0 | some y => y.endOf (elemBits (slotElem B)))]
    ++ (if slotBlock A = 0 then [] else [rowsEnd b.sca b.arows b.sastride (b.k / slotBlock A)])
    ++ (if slotBlock B = 0 then [] else [rowsEnd b.scb (b.k / slotBlock B) b.sbstride b.n])
    ++ (if b.sparse then [rowsEnd b.mta b.n b.metastride ((b.k + 7) / 8)] else [])
  ends.any (fun e => decide (L.sp * 65536 < e)) || decide (L.ac * 65536 < b.accEnd)

/-- The reserved bytes at the block's end are not zero. -/
def tailReserved (b : Block) : Bool := !b.zero 0x3A 6

/-- The first check of R279 that an MMA block fails. -/
def mmaCheck (L : Launch) (b : Block) : BitVec 8 :=
  let p := mblock b.bytes
  if p.mmaBad (tailReserved b) then 0x36#8 else if p.mmaCombo L then 0x3A#8 else if p.mmaOut L then 0x37#8 else 0

/-- MZERO reads M, N, ACCBASE and ACCSTRIDE only (R271). -/
def mzeroCheck (L : Launch) (b : Block) : BitVec 8 :=
  let p := mblock b.bytes
  if p.accBad then 0x36#8 else if decide (L.ac * 65536 < p.accEnd) then 0x37#8 else 0

/-- Rows and columns of MDRAIN's destination. -/
def MBlock.drained (b : MBlock) : Nat × Nat := if b.trans then (b.n, b.m) else (b.m, b.n)

/-- The first check of R279 that an MDRAIN block fails. -/
def mdrainCheck (L : Launch) (b : Block) : BitVec 8 :=
  let p := mblock b.bytes
  let D := L.slotN p.slotD
  let blk := slotBlock D
  match p.lay with
  | none => 0x36#8
  | some y =>
    if tailReserved b || decide (2 ^ 15 ≤ p.flags) || bitsOf p.flags 12 2 != 0 || decide (2 ^ 22 ≤ p.sca) || p.accBad
        || decide (y.rows < p.drained.1) || decide (y.cols < p.drained.2) || y.planes != 1 || (blk != 0 && p.drained.2 % blk != 0) then 0x36#8
    else if slotElem (L.slotN p.slotC) ≠ 0 ∧ slotElem (L.slotN p.slotC) ≠ 11 then 0x3A#8
    else if decide (L.sp * 65536 < y.endOf (elemBits (slotElem D))) || (blk != 0 && decide (L.sp * 65536 < rowsEnd p.sca p.drained.1 p.sastride (p.drained.2 / blk)))
        || decide (L.ac * 65536 < p.accEnd) then 0x37#8
    else 0

/-- The slots of an MMA may be used, and SPARSE is accepted where it is set (R103, R258, R279). -/
def mmaLegal (L : Launch) (b : Block) : Bool :=
  let p := mblock b.bytes
  slotUsable (L.slotN p.slotA) && slotUsable (L.slotN p.slotB) && slotUsable (L.slotN p.slotC) && (!p.sparse || L.accept.getLsbD 3)

/-- The slots of an MDRAIN may be used, and SCALEP names a slot of scale mode 2 (R258, R263, R279). -/
def mdrainLegal (L : Launch) (b : Block) : Bool :=
  let p := mblock b.bytes
  slotUsable (L.slotN p.slotC) && slotUsable (L.slotN p.slotD) && (!p.scalep || slotScale (L.slotN p.slotD) == 2)

/-! ## Elements (R249, R272 to R274) -/

/-- Element k of w bits of a packed row whose byte b lies at place b. -/
def elemAt (m : Mem) (place : Nat → Nat) (w k : Nat) : Nat :=
  let b := k * w / 8
  let n := (k * w % 8 + w + 7) / 8
  bytesNat ((List.range n).map (fun i => m.get (place (b + i)))) / 2 ^ (k * w % 8) % 2 ^ w

/-- Replace element k of a packed row; the tags of the granules written are cleared. -/
def elemPut (m : Mem) (place : Nat → Nat) (w k x : Nat) : Mem :=
  let b := k * w / 8
  let sh := k * w % 8
  let n := (sh + w + 7) / 8
  let old := bytesNat ((List.range n).map (fun i => m.get (place (b + i))))
  let new := old % 2 ^ sh + x % 2 ^ w * 2 ^ sh + old / 2 ^ (sh + w) * 2 ^ (sh + w)
  m.writeAt (((List.range n).map (fun i => place (b + i))).zip (natBytes n new))

/-- The index vector, which is read whole before the first chunk (R272). -/
def MBlock.indexVector (b : MBlock) (m : Mem) : List Byte := m.read b.aidx (2 * b.m)

/-- Entry i of an index vector. -/
def indexOf (ix : List Byte) (i : Nat) : Nat := bytesNat ((ix.drop (2 * i)).take 2)

/-- A element of row i at k: a zero row's is +0. -/
def MBlock.elemA (b : MBlock) (L : Launch) (m : Mem) (ix : List Byte) (i k : Nat) : FV :=
  let A := L.slotN b.slotA
  let t := indexOf ix i
  if t = 0xFFFF then .fin false 0 0
  else elemDecodeFlush (slotFlush A) (slotElem A) (elemAt m (fun x => b.abase + t * b.astride + x) (elemBits (slotElem A)) k)

/-- The decode factor of A for row i at k (R260, R272). -/
def MBlock.factorA (b : MBlock) (L : Launch) (m : Mem) (ix : List Byte) (e : Int) (i k : Nat) : FV :=
  let A := L.slotN b.slotA
  let t := indexOf ix i
  if t = 0xFFFF then pow2FV 0
  else if slotBlock A = 0 then slotFactor A e
  else blockFactor (slotScale A) (m.get (b.sca + t * b.sastride + k / slotBlock A)).toNat

/-- The metadata code of a group of column j (R274). -/
def MBlock.metaCode (b : MBlock) (m : Mem) (g j : Nat) : Nat := bitsOf (m.get (b.mta + j * b.metastride + g / 2)).toNat (4 * (g % 2)) 4

/-- A metadata code whose positions are equal or descending. -/
def metaBad (c : Nat) : Bool := decide (c / 4 ≤ c % 4)

/-- The stored row of logical k in column j; none where the position is absent (R274). -/
def MBlock.rowB (b : MBlock) (m : Mem) (k j : Nat) : Option Nat :=
  if !b.sparse then some k
  else
    let c := b.metaCode m (k / 4) j
    if metaBad c then none
    else if c % 4 = k % 4 then some (2 * (k / 4))
    else if c / 4 = k % 4 then some (2 * (k / 4) + 1)
    else none

/-- B element of logical k and column j; none where it contributes an exact zero (R273). -/
def MBlock.elemB (b : MBlock) (L : Launch) (m : Mem) (y : Layout) (k j : Nat) : Option FV :=
  let B := L.slotN b.slotB
  let w := elemBits (slotElem B)
  (b.rowB m k j).map (fun kk =>
    let bits := if b.trans then elemAt m (y.byteAt (kk / y.cols) j) w (kk % y.cols) else elemAt m (y.byteAt (kk / y.rows) (kk % y.rows)) w j
    elemDecodeFlush (slotFlush B) (slotElem B) bits)

/-- The decode factor of B for logical k and column j. -/
def MBlock.factorB (b : MBlock) (L : Launch) (m : Mem) (e : Int) (k j : Nat) : FV :=
  let B := L.slotN b.slotB
  if slotBlock B = 0 then slotFactor B e else blockFactor (slotScale B) (m.get (b.scb + k / slotBlock B * b.sbstride + j)).toNat

/-! ## Chunk sums (R266, R267) -/

/-- The exact sum of values: NaN and opposite infinities give NaN. -/
def sumFV (xs : List FV) : FV :=
  if xs.any FV.isNaN || (xs.any (FV.isInf true) && xs.any (FV.isInf false)) then .nan false
  else if xs.any (FV.isInf true) then .inf true
  else if xs.any (FV.isInf false) then .inf false
  else
    let d := xs.foldl (fun acc x => acc.add x.dy) Dy.zero
    .fin (decide (d.m < 0)) d.m.natAbs d.e

/-- The chunk size of R266. -/
def MBlock.chunk (b : MBlock) (L : Launch) : Nat :=
  let wide (s : DWord) : Bool := slotElem s == 1 || slotElem s == 2
  if wide (L.slotN b.slotA) || wide (L.slotN b.slotB) then 16 else 32

/-- The ranges of k in a chunk that share their decode factors. -/
def MBlock.blocksOf (b : MBlock) (L : Launch) (c : Nat) : List (List Nat) :=
  let C := b.chunk L
  let step := if slotBlock (L.slotN b.slotA) = 16 ∨ slotBlock (L.slotN b.slotB) = 16 then 16 else C
  (List.range (C / step)).map (fun j => ((List.range step).map (fun x => c * C + j * step + x)).filter (· < b.k))

/-- The exact sum S of a chunk for element (i, j): ea and eb are the sampled ring exponents. -/
def MBlock.chunkSum (b : MBlock) (L : Launch) (m : Mem) (ix : List Byte) (y : Layout) (ea eb : Int) (c i j : Nat) : FV :=
  sumFV (((b.blocksOf L c).filter (· ≠ [])).map (fun ks =>
    let p := sumFV (ks.filterMap (fun k => (b.elemB L m y k j).map (fun x => timesFactor (b.elemA L m ix i k) x)))
    timesFactor (timesFactor p (b.factorA L m ix ea i (ks.headD 0))) (b.factorB L m eb (ks.headD 0) j)))

/-- The accumulator after a chunk (R266): one rounding; an exact zero leaves it as it is (R276). -/
def accAdd (acc : Word) (S : FV) : Word :=
  if S.isZero then acc
  else BitVec.ofNat 32 (match sumFV [fp32.decode acc.toNat, S] with
    | .nan _ => fp32.nan
    | .inf s => fp32.withSign s fp32.infBits
    | .fin s m e => (fp32.roundDy .rne false false (Dy.of s m e)).bits)

/-- The INT32 accumulator after a chunk (R267): added exactly, then saturated. -/
def accAddInt (acc : Word) (S : FV) : Word :=
  let d := S.dy
  let v := acc.toInt + d.m * 2 ^ d.e.toNat
  BitVec.ofInt 32 (max (-2147483648) (min 2147483647 v))

/-! ## The commands -/

/-- The scratchpad of a command's workgroup. -/
def State.cmdScratch (s : State) (c : Command) : Mem := s.scratch c.launch c.wgid

/-- The accumulators of a command's workgroup. -/
def State.cmdAcc (s : State) (c : Command) : List (Nat × Word) :=
  match s.wg c.launch c.wgid with
  | none => []
  | some g => g.acc

/-- The output elements of a block, row by row. -/
def MBlock.cells (b : MBlock) : List (Nat × Nat) := (List.range b.m).flatMap (fun i => (List.range b.n).map (fun j => (i, j)))

/-- The offset of an accumulator element. -/
def MBlock.accAt (b : MBlock) (x : Nat × Nat) : Nat := b.accbase + x.1 * b.accstride + 4 * x.2

/-- One chunk of an MMA for every output element. -/
def MBlock.runChunk (b : MBlock) (L : Launch) (m : Mem) (ix : List Byte) (y : Layout) (exps : List Int) (c : Nat) (acc : List (Nat × Word)) : List (Nat × Word) :=
  let int := slotElem (L.slotN b.slotC) == 11
  b.cells.foldl (fun acc x =>
    let old : Word := if c = 0 ∧ !b.accum then 0 else accGet acc (b.accAt x)
    let S := b.chunkSum L m ix y (exps.getD 0 0) (exps.getD 1 0) c x.1 x.2
    accSet acc (b.accAt x) (if int then accAddInt old S else accAdd old S)) acc

/-- The bad groups of a chunk (R274). -/
def MBlock.badGroups (b : MBlock) (L : Launch) (m : Mem) (c : Nat) : Nat :=
  if !b.sparse then 0
  else
    let C := b.chunk L
    let gs := ((List.range (C / 4)).map (fun x => c * C / 4 + x)).filter (fun g => decide (4 * g < b.k))
    (gs.map (fun g => ((List.range b.n).filter (fun j => metaBad (b.metaCode m g j))).length)).sum

/-- The scratchpad bytes that chunk c of an MMA reads, the index vector before the first (R272 to R274, R280): the elements and scales of the A rows that are named, those of B, and the metadata, for the logical k of the chunk. -/
def MBlock.reads (b : MBlock) (L : Launch) (y : Layout) (ix : List Byte) (c x : Nat) : Bool :=
  let A := L.slotN b.slotA
  let B := L.slotN b.slotB
  let lo := c * b.chunk L
  let hi := min b.k (lo + b.chunk L)
  let rows := ((List.range b.m).map (indexOf ix)).filter (· != 0xFFFF)
  let inside (base n : Nat) : Bool := decide (base ≤ x) && decide (x < base + n)
  let elems (base w l h : Nat) : Bool := inside (base + l * w / 8) ((h * w + 7) / 8 - l * w / 8)
  let scales (base blk l h : Nat) : Bool := inside (base + l / blk) ((h - 1) / blk - l / blk + 1)
  let half (k : Nat) : Nat := if b.sparse then k / 2 else k
  let wb := elemBits (slotElem B)
  let stored := (List.range (half hi - half lo)).map (half lo + ·)
  decide (lo < hi) && (
    rows.any (fun t => elems (b.abase + t * b.astride) (elemBits (slotElem A)) lo hi || (slotBlock A != 0 && scales (b.sca + t * b.sastride) (slotBlock A) lo hi))
    || stored.any (fun kk =>
      let bytes (place : Nat → Nat) (k : Nat) : Bool := (List.range ((k * wb % 8 + wb + 7) / 8)).any (fun i => place (k * wb / 8 + i) == x)
      if b.trans then (List.range b.n).any (fun j => bytes (y.byteAt (kk / y.cols) j) (kk % y.cols))
      else (List.range b.n).any (fun j => bytes (y.byteAt (kk / y.rows) (kk % y.rows)) j))
    || (slotBlock B != 0 && (List.range b.n).any (fun j => (List.range (hi - lo)).any (fun k => b.scb + (lo + k) / slotBlock B * b.sbstride + j == x)))
    || (b.sparse && (List.range b.n).any (fun j => scales (b.mta + j * b.metastride) 8 lo hi)))

/-- Lost scratchpad data ends an MMA with code 0x13; its accumulator elements are unpredictable (R279): free words, whatever they held (log entry 3). -/
def State.mmaLost (s : State) (c : Command) : State :=
  let b := mblock c.blk
  let n := s.freeCount
  let free (acc : List (Nat × Word)) : List (Nat × Word) :=
    ((List.range b.cells.length).zip b.cells).foldl (fun acc x => accSet acc (b.accAt x.2) (Config.freeWord (n + x.1))) acc
  let s := { s with freeCount := n + b.cells.length }
  let s := s.modWg c.launch c.wgid (fun g => { g with acc := free g.acc })
  (s.logScratch c.asid c.core).finish c.id 0x13#8 0

/-- A byte of the index vector. -/
def MBlock.inIndex (b : MBlock) (x : Nat) : Bool := decide (b.aidx ≤ x) && decide (x < b.aidx + 2 * b.m)

/-- A running MMA reads its index vector whole, reaches its next chunk, or ends (R266, R272, R279). buf keeps the index vector. -/
def State.stepMma (s : State) (c : Command) (L : Launch) : State :=
  let b := mblock c.blk
  let m := s.cmdScratch c
  let ix := if c.prog = 0 then b.indexVector m else (c.buf.headD (0, [])).2
  match b.lay with
  | none => s.finish c.id 0x36#8 0
  | some y =>
    if c.prog = 0 ∧ s.scratchHurt c.launch c.wgid b.inIndex then s.mmaLost c
    else if c.prog = 0 ∧ (List.range b.m).any (fun i => indexOf ix i != 0xFFFF && decide (b.arows ≤ indexOf ix i)) then s.finish c.id 0x38#8 0
    else if s.scratchHurt c.launch c.wgid (b.reads L y ix c.prog) then s.mmaLost c
    else if c.prog * b.chunk L < b.k then
      let s := s.modWg c.launch c.wgid (fun g => { g with acc := b.runChunk L m ix y c.exps c.prog g.acc })
      (s.modCmd c.id (fun c => { c with prog := c.prog + 1, count := c.count + b.badGroups L m c.prog, buf := [(0, ix)] })).poke 1 c.id
    else s.finishOk c.id (if c.count = 0 then 0 else 0x01#8) c.count

/-- The number of blocks of 16 by 16 elements of an output of so many rows and columns (R281). -/
def outBlocks (rc : Nat × Nat) : Nat := (rc.1 + 15) / 16 * ((rc.2 + 15) / 16)

/-- The elements of block p of an output of so many rows and columns. -/
def blockCells (rc : Nat × Nat) (p : Nat) : List (Nat × Nat) :=
  let w := (rc.2 + 15) / 16
  ((List.range 16).flatMap (fun i => (List.range 16).map (fun j => (16 * (p / w) + i, 16 * (p % w) + j)))).filter (fun x => decide (x.1 < rc.1) && decide (x.2 < rc.2))

/-- A running MZERO clears its next block, or ends (R271, R281). -/
def State.stepMzero (s : State) (c : Command) : State :=
  let b := mblock c.blk
  if c.prog < outBlocks (b.m, b.n) then
    let s := s.modWg c.launch c.wgid (fun g => { g with acc := (blockCells (b.m, b.n) c.prog).foldl (fun acc x => accSet acc (b.accAt x) 0) g.acc })
    (s.modCmd c.id (fun c => { c with prog := c.prog + 1 })).poke 1 c.id
  else s.finish c.id 0 0

/-- The value of an accumulator element as MDRAIN reads it (R260, R277). -/
def drainValue (C : DWord) (e : Int) (w : Word) : FV :=
  let q := elemDecodeFlush (slotFlush C) (slotElem C) w.toNat
  match q with
  | .nan n => .nan n
  | _ => timesFactor q (slotFactor C e)

/-- One element written by MDRAIN: its bits, and whether a limit replaced it. -/
def drainWrite (C D : DWord) (mode : RM) (sat : Bool) (F : FV) (w : Word) (x : FV) : RRes :=
  if slotElem C = 11 ∧ isIntCode (slotElem D) ∧ slotScale C = 0 ∧ slotScale D = 0 then writeDirect (elemBits (slotElem D)) sat w.toInt
  else elemWrite (slotElem D) mode sat (slotFlush D) x F

/-- The largest magnitude of a block, NaN and infinities first (R262). -/
def amaxFV (xs : List FV) : FV :=
  match xs.find? (fun x => x.isNaN || x.isInf true || x.isInf false) with
  | some x => x
  | none => xs.foldl (fun a x => match a, x with
      | .fin _ m e, .fin _ n g => if 0 < ((Dy.of false n g).add (Dy.of true m e)).m then .fin false n g else .fin false m e
      | a, _ => a) (.fin false 0 0)

/-- The scale byte of group g of destination row r (R261, R262, R277). -/
def MBlock.drainScale (b : MBlock) (C D : DWord) (exps : List Int) (acc : List (Nat × Word)) (r g : Nat) : Nat :=
  blockScale (slotScale D) (slotElem D) (amaxFV ((List.range (slotBlock D)).map (fun k =>
    drainValue C (exps.getD 0 0) (accGet acc (b.accAt (if b.trans then (g * slotBlock D + k, r) else (r, g * slotBlock D + k)))))))

/-- Write one destination element, and with the first of a group its scale: the scratchpad and the number of elements replaced by a limit through saturation (R279). -/
def MBlock.drainCell (b : MBlock) (C D : DWord) (exps : List Int) (mode : RM) (sat : Bool) (y : Layout) (acc : List (Nat × Word)) (m : Mem × Nat) (x : Nat × Nat) : Mem × Nat :=
  let scaled := slotBlock D ≠ 0
  let byte := if scaled then b.drainScale C D exps acc x.1 (x.2 / slotBlock D) else 0
  let m := if scaled ∧ x.2 % slotBlock D = 0 then (m.1.write (b.sca + x.1 * b.sastride + x.2 / slotBlock D) (natBytes 1 byte), m.2) else m
  let F := if scaled then blockFactor (slotScale D) byte else slotFactor D (exps.getD 1 0)
  let word := accGet acc (b.accAt (if b.trans then (x.2, x.1) else (x.1, x.2)))
  let r := drainWrite C D mode (sat || scaled) F word (drainValue C (exps.getD 0 0) word)
  (elemPut m.1 (y.byteAt 0 x.1) (elemBits (slotElem D)) x.2 r.bits, m.2 + if r.sat && (sat || scaled) then 1 else 0)

/-- A destination byte of the cells of an MDRAIN: of an element or of a scale. -/
def MBlock.drainsTo (b : MBlock) (D : DWord) (y : Layout) (cells : List (Nat × Nat)) (x : Nat) : Bool :=
  let w := elemBits (slotElem D)
  cells.any (fun c => (List.range ((c.2 * w % 8 + w + 7) / 8)).any (fun i => y.byteAt 0 c.1 (c.2 * w / 8 + i) == x)
    || (slotBlock D != 0 && b.sca + c.1 * b.sastride + c.2 / slotBlock D == x))

/-- A running MDRAIN writes its next block, or ends (R277, R279, R281). -/
def State.stepMdrain (s : State) (c : Command) (L : Launch) (satBit : Bool) (rnd : BitVec 3) : State :=
  let b := mblock c.blk
  let C := L.slotN b.slotC
  let D := L.slotN b.slotD
  let acc := s.cmdAcc c
  match b.lay with
  | none => s.finish c.id 0x36#8 0
  | some y =>
    let mode := if rnd = 0#3 then rmOf (slotRound D) else rmOf (rnd.toNat - 1)
    if c.prog < outBlocks b.drained then
      let cells := blockCells b.drained c.prog
      let r := cells.foldl (b.drainCell C D c.exps mode (satBit || slotSat D) y acc) (s.cmdScratch c, 0)
      let s := (s.modScratch c.launch c.wgid (fun _ => r.1)).scratchWrote c.launch c.wgid (b.drainsTo D y cells)
      (s.modCmd c.id (fun c => { c with prog := c.prog + 1, count := c.count + r.2 })).poke 1 c.id
    else
      let s := if b.scalep then
          s.modRing c.launch D (fun ring => { ring with pendMax := b.cells.foldl (fun mx x =>
            raiseMax mx (BitVec.ofNat 32 (toFp32 (drainValue C (c.exps.getD 0 0) (accGet acc (b.accAt x)))))) ring.pendMax })
        else s
      s.finish c.id 0 c.count

/-- The form of a Mangle instruction (R384). -/
def mangleForm (s : State) (kind : CmdKind) (g : BitVec 5) (q : BitVec 2) (legal : Launch → Block → Bool) (check : Launch → Block → BitVec 8)
    (exps : Launch → Block → List Int) : CmdForm :=
  { kind := kind, g := g.toNat, q := q.toNat, rel := false, scope := 0, eng := fun _ => .mangle (s.coreOf ⟨s.cur.launch, s.cur.wgid, 0⟩), legal := fun _ => legal,
    check := fun _ _ => check, exps := fun _ => exps, close := fun _ => none, limited := true }

/-- MMA (R270, R279). -/
def execMma (g : BitVec 5) (q : BitVec 2) (c : BitVec 4) (x : BitVec 6) (s : State) : Host.Outcome State Fault Refusal :=
  s.engineInstr (.mma g q c x) (mangleForm s .mma g q mmaLegal mmaCheck (fun L b =>
    let p := mblock b.bytes
    [L.exponent (L.slotN p.slotA), L.exponent (L.slotN p.slotB)])) c x

/-- MZERO (R271). -/
def execMzero (g : BitVec 5) (q : BitVec 2) (c : BitVec 4) (x : BitVec 6) (s : State) : Host.Outcome State Fault Refusal :=
  s.engineInstr (.mzero g q c x) (mangleForm s .mzero g q (fun _ _ => true) mzeroCheck (fun _ _ => [])) c x

/-- MDRAIN (R277). -/
def execMdrain (g : BitVec 5) (q : BitVec 2) (c : BitVec 4) (x : BitVec 6) (t : Bool) (r : BitVec 3) (s : State) : Host.Outcome State Fault Refusal :=
  s.engineInstr (.mdrain g q c x t r) (mangleForm s (.mdrain t r) g q mdrainLegal mdrainCheck (fun L b =>
    let p := mblock b.bytes
    [L.exponent (L.slotN p.slotC), L.exponent (L.slotN p.slotD)])) c x

end Sys2Proof.Machine
end

