-- ==== Sys2Proof/Machine/Completion.lean ====
section
/-! DEFINITION. The next action of an engine command, and the completion of its token (R239). -/

namespace Sys2Proof.Machine

/-- A running command acts. -/
def State.stepCmd (s : State) (c : Command) : State :=
  match c.kind with
  | .mma => (match s.launch c.launch with
      | none => s
      | some L => s.stepMma c L)
  | .mzero => s.stepMzero c
  | .mdrain sat rnd => (match s.launch c.launch with
      | none => s
      | some L => s.stepMdrain c L sat rnd)
  | .copy => s.stepCopy c
  | .copyt => s.stepCopy c
  | .xput => s.stepXput c
  | .xget => s.stepXget c
  | .dpost => s.stepDpost c
  | .send => s.stepSend c
  | .rpost => s.stepRpost c
  | .cmigr => s.stepCmigr c
  | .rcall => s.stepRcall c
  | .join => s

/-- A command that has more to send waits behind one of its queue that is stalled (R218); exchange-mode XPUTs are not held by their place in the queue (R58). -/
def State.behindStall (s : State) (c : Command) : Bool :=
  !c.exch && (c.prog == 0 || c.nextRange.isSome) && ((s.queueOf c.eng c.q).takeWhile (fun d => d.id != c.id)).any (·.stalled)

/-- The close token of a DPOST that has failed takes its code, with Count 0 (R49, R389). -/
def State.closeWith (s : State) (c : Command) : State :=
  if c.kind == .dpost && c.err then (s.completeToken c.launch c.wgid (c.num 0x0E 1) 0 true c.code 0 false).endWaits (fun w => w == .queue) else s

/-- TOKEN_COMPLETION (R239): a finished command writes its token and leaves its queue; a running one goes on, and of a stalled exchange-mode one the bytes below its faulting byte offset (R58). A command whose scratchpad is away does neither (R145). -/
def execTokenCompletion (cmd : Nat) (s : State) : Host.Outcome State Fault Refusal :=
  .next (match s.cmd cmd with
    | none => s
    | some c =>
      if s.cmdStopped c then s
      else match c.st with
        | .finished =>
          let s := s.completeToken c.launch c.wgid c.g c.scope c.err c.code c.count (c.kind == .mma && c.code == 1)
          (s.closeWith c).dropCmd c
        | .running => if s.behindStall c then s else s.stepCmd c
        | .stalled .. => if c.exch && c.nextRange.isSome then s.stepCmd c else s
        | _ => s)

end Sys2Proof.Machine
end

