-- ==== Sys2Proof/Machine/Control.lean ====
section
/-! DEFINITION. Branches, calls, frames and the end of a fibre (R303, R306 to R319), assertions (R322), and the two ways in which an issue finds no instruction (R285, R289, R292). -/

namespace Sys2Proof.Machine

/-! ## Branches -/

/-- Slot 1 of the packet so many packets from this one (R285). -/
def State.target (s : State) (n : Int) : Word := s.cur.packet + BitVec.ofInt 32 (16 * n + 4)

/-- BRA (R306). -/
def execBra (o : BitVec 24) (s : State) : Host.Outcome State Fault Refusal := s.issueEach (.bra o) (fun s id _ => s.jump id (s.target o.toInt))

/-- BRU (R307): the whole bundle is judged, in a chain too. -/
def execBru (o : BitVec 24) (s : State) : Host.Outcome State Fault Refusal :=
  s.issue (.bru o) (fun s ok exe =>
    let go (s : State) : State := s.each exe (fun s id _ => s.jump id (s.target o.toInt))
    let all := s.curFibs (if s.cur.inChain then s.cur.whole else s.cur.fids)
    if all.all (fun f => f.guard s.cur.ctl) || !all.any (fun f => f.guard s.cur.ctl) then go s
    else if s.curLaunch.any (·.check) then s.each ok (fun s id _ => s.effAt id 0x0E5#12 0)
    else go (s.each ok (fun s id _ => s.modFib id (fun f => f.flag flagDIVU))))

/-- A way of BWAY matches: its predicate XOR its sense (R308). -/
def Fibre.way (f : Fibre) (w : BitVec 4) : Bool := f.pred (w.toNat % 8) != w.getLsbD 3

/-- BWAY (R308). -/
def execBway (w0 w1 w2 w3 : BitVec 4) (t0 t1 t2 t3 : BitVec 16) (s : State) : Host.Outcome State Fault Refusal :=
  s.issueEach (.bway w0 w1 w2 w3 t0 t1 t2 t3) (fun s id f =>
    if f.way w0 then s.jump id (s.target t0.toInt)
    else if f.way w1 then s.jump id (s.target t1.toInt)
    else if f.way w2 then s.jump id (s.target t2.toInt)
    else if f.way w3 then s.jump id (s.target t3.toInt)
    else s)

/-- LOOP (R309). -/
def execLoop (d : BitVec 6) (i : BitVec 12) (s : State) : Host.Outcome State Fault Refusal :=
  s.issueEach (.loop d i) (fun s id f =>
    let x := f.reg d.toNat - 1
    let s := s.fixed id 4 [.v d.toNat x]
    if x = 0 then s else s.jump id (s.target i.toInt))

/-! ## Calls -/

/-- Do something with a segment of the stack in the Cupboard, or wait for it (R178). -/
def State.withSeg (s : State) (id : FibId) (seg : Nat) (k : State → State) : State :=
  match s.needSeg id seg with
  | (s, .error e) => s.stop id 0 e
  | (s, .ok _) => k s

/-- Push a frame and go to a target, or perform 0x0E9 (R177, R310). -/
def State.callTo (s : State) (id : FibId) (f : Fibre) (xc code : Option Cap) (pc : Word) : State :=
  s.withSeg id f.seg (fun s =>
    match s.pushFrame id s.cur.next.toNat xc with
    | none => s.effAt id 0x0E9#12 0
    | some s => s.modFib id (fun f => { f with pc := pc, code := code.getD f.code }))

/-- CALL (R310). -/
def execCall (o : BitVec 24) (s : State) : Host.Outcome State Fault Refusal :=
  s.issueEach (.call o) (fun s id f => s.callTo id f none none (s.target o.toInt))

/-- The checks of CALLI and JMPI (R311): right X, kind code, 16 bytes. -/
def codeCheck (c : Cap) (off : Int) : Option (BitVec 12) := capCheck c [1] [rX] off 16 16

/-- CALLI (R311). -/
def execCalli (c : BitVec 4) (x : BitVec 6) (i : BitVec 8) (s : State) : Host.Outcome State Fault Refusal :=
  s.issueEach (.calli c x i) (fun s id f =>
    let k := f.cap c.toNat
    let off := f.effOff x (disp8 i 16)
    match codeCheck k off with
    | some t => s.effAt id t (low32 off)
    | none =>
      let pc := BitVec.ofNat 32 (objOff k off + 4)
      if k.obj = f.code.obj then s.callTo id f none none pc else s.callTo id f (some f.code) (some k) pc)

/-- JMPI (R311). -/
def execJmpi (c : BitVec 4) (x : BitVec 6) (i : BitVec 8) (s : State) : Host.Outcome State Fault Refusal :=
  s.issueEach (.jmpi c x i) (fun s id f =>
    let k := f.cap c.toNat
    let off := f.effOff x (disp8 i 16)
    match codeCheck k off with
    | some t => s.effAt id t (low32 off)
    | none => s.modFib id (fun f => { f with pc := BitVec.ofNat 32 (objOff k off + 4), code := k }))

/-- Pop the current frame, which is neither the first nor a body or clause frame (R313). -/
def State.popFrame (s : State) (id : FibId) (f : Fibre) : State :=
  let a := s.asidOf id.launch
  let h := s.hdr a f.seg f.frameOff
  let code := if h.xc then s.segCap a f.seg (f.frameOff + 16) else f.code
  let s := s.modFib id (fun f => { f with pc := BitVec.ofNat 32 h.ret, code := code })
  let s := s.setUsed a f.seg f.frameOff
  if h.below then ((s.setFrame id (s.link a f.seg) h.prev).dropSeg id f.seg) else s.setFrame id f.seg h.prev

/-- RET (R184, R313, R314). -/
def execRet (s : State) : Host.Outcome State Fault Refusal :=
  s.issue .ret (fun s _ exe =>
    (s.each exe (fun s id f =>
      s.withSeg id f.seg (fun s =>
        let a := s.asidOf id.launch
        let h := s.hdr a f.seg f.frameOff
        if h.ret = rootFrame then s.endFibre id none
        else if h.below || h.hb then
          s.withSeg id (s.link a f.seg) (fun s => if h.hb then s.closeHandler id else s.popFrame id f)
        else s.popFrame id f))).settleNow)

/-- EXIT (R317). -/
def execExit (s : State) : Host.Outcome State Fault Refusal :=
  s.issue .exit (fun s _ exe => (s.each exe (fun s id _ => s.endFibre id none)).settleNow)

/-- NOP (R318). -/
def execNop (s : State) : Host.Outcome State Fault Refusal := s.issueEach .nop (fun s _ _ => s)

/-- Grow the current frame by n bytes in its segment: the new bytes and their tags are cleared (R174, R315). -/
def State.growFrame (s : State) (id : FibId) (n : Nat) : State :=
  match s.fib id with
  | none => s
  | some f =>
    let a := s.asidOf id.launch
    let h := s.hdr a f.seg f.frameOff
    let top := f.frameOff + h.head + h.loc
    let s := s.segSet a f.seg top n 0
    let s := s.setHdr a f.seg f.frameOff { h with loc := h.loc + n }
    (s.setUsed a f.seg (top + n)).setFrame id f.seg f.frameOff

/-- FRAME (R315). -/
def execFrame (i : BitVec 12) (s : State) : Host.Outcome State Fault Refusal :=
  s.issueEach (.frame i) (fun s id f =>
    let n := i.toNat
    s.withSeg id f.seg (fun s =>
      let h := s.hdr (s.asidOf id.launch) f.seg f.frameOff
      if n % 16 ≠ 0 ∨ 960 < h.loc + n then s.effAt id 0x0E7#12 0
      else if n = 0 then s
      else if f.frameOff + h.head + h.loc + n ≤ 0x400 then s.growFrame id n
      else match s.moveFrame id with
        | none => s.effAt id 0x0E9#12 0
        | some s => s.growFrame id n))

/-- UNFRAME (R316). -/
def execUnframe (s : State) : Host.Outcome State Fault Refusal :=
  s.issueEach .unframe (fun s id f =>
    s.withSeg id f.seg (fun s =>
      let a := s.asidOf id.launch
      let h := s.hdr a f.seg f.frameOff
      ((s.setHdr a f.seg f.frameOff { h with loc := 0 }).setUsed a f.seg (f.frameOff + h.head)).setFrame id f.seg f.frameOff))

/-- ASSERT (R322). -/
def execAssert (n : Bool) (p : BitVec 3) (s : State) : Host.Outcome State Fault Refusal :=
  s.issueEach (.assert n p) (fun s id f => if f.pred p.toNat != n then s else s.effAfter id 0x0E6#12 0)

/-! ## Nothing to execute -/

/-- ILLEGAL_INSTRUCTION (R289, R292): every fibre of the bundle performs 0x0E7 there. -/
def execIllegalInstruction (s : State) : Host.Outcome State Fault Refusal :=
  .next (s.each s.cur.fids (fun s id _ => s.effAt id 0x0E7#12 0))

/-- The tag and argument of a fetch that finds no packet: a program counter that names no slot or an extension slot performs 0x0E7, a failed check of CODE its own tag with the packet offset (R195, R285). -/
def fetchFault (f : Fibre) : BitVec 12 × Word :=
  if slotAt f.pc = 0 then (0x0E7#12, 0)
  else match fetchTag f.code f.pc with
    | some t => (t, BitVec.ofNat 32 (packetAt f.pc))
    | none => (0x0E7#12, 0)

/-- INSTRUCTION_FETCH_FAULT (R285). -/
def execInstructionFetchFault (s : State) : Host.Outcome State Fault Refusal :=
  .next (s.each s.cur.fids (fun s id f => s.effAt id (fetchFault f).1 (fetchFault f).2))

end Sys2Proof.Machine
end

