-- ==== Sys2Proof/Machine/Crew.lean ====
section
/-! DEFINITION. The crew instructions and MEET: arrival at the rendezvous (R167 to R170, R320, R347); what completes there is CrewOps.lean's. -/

namespace Sys2Proof.Machine

/-- Write the result of a rendezvous that has completed, with its flags and its trap (R288, R347, R348). -/
def State.metResult (s : State) (id : FibId) (fmode : Word) (r : List WB × Word) : State :=
  let s := s.modFib id (fun f => { (f.flag r.2) with met := none })
  (if r.1 = [] then s else s.scored id r.1).traps id fmode (r.2 &&& flagNV) none

/-- Arrive at the rendezvous: every fibre of the bundle does, executing or not, with the two words that it carries. A mask that omits the fibre, or a second arrival in one chain, performs 0x0E3 (R167, R170, R288). In a chain the arrival holds the fibre, and the chain issues once the rendezvous has completed: the slot then writes the result. -/
def State.arrive (s : State) (i : Instr) (carry : Fibre → Word × Word) : Host.Outcome State Fault Refusal :=
  s.issue i (fun s ok exe =>
    match s.launch s.cur.launch with
    | none => s
    | some L =>
      (s.each ok (fun s id f =>
        match (if s.cur.inChain then f.met else none) with
        | some r => s.metResult id f.fmode r
        | none =>
          let w (next : Option Word) := Wait.rendezvous i f.cmask (exe.contains f.fid) (carry f).1 (carry f).2 next
          if !f.cmask.getLsbD (f.fid % L.crew) || (s.cur.inChain && s.cur.held.any (fun h => h.1 == f.fid && h.2.isMeeting)) then s.effAt id 0x0E3#12 0
          else if s.cur.inChain then s.hold id (w none)
          else s.modFib id (fun f => { f.settleFixed with wait := w (some s.cur.next), pc := s.cur.first }))).settleNow)

/-- A predicate as a carried word, with the old value of the predicate written. -/
def carryPred (f : Fibre) (src old : BitVec 3) : Word × Word := (wordOf (f.pred src.toNat), wordOf (f.pred old.toNat))

/-- MEET (R320). -/
def execMeet (i : BitVec 12) (s : State) : Host.Outcome State Fault Refusal := s.arrive (.meet i) (fun _ => (0, 0))

/-- SHFL (R349). -/
def execShfl (d a b : BitVec 6) (s : State) : Host.Outcome State Fault Refusal := s.arrive (.shfl d a b) (fun f => (f.reg a.toNat, f.reg b.toNat))

/-- SHFLX (R349). -/
def execShflx (d a b : BitVec 6) (s : State) : Host.Outcome State Fault Refusal := s.arrive (.shflx d a b) (fun f => (f.reg a.toNat, f.reg b.toNat))

/-- SLIDE (R349). -/
def execSlide (d a b : BitVec 6) (u : Bool) (k : BitVec 5) (s : State) : Host.Outcome State Fault Refusal := s.arrive (.slide d a b u k) (fun f => (f.reg a.toNat, f.reg b.toNat))

/-- VOTE.ballot (R350). -/
def execVoteBallot (d : BitVec 6) (p : BitVec 3) (s : State) : Host.Outcome State Fault Refusal := s.arrive (.voteBallot d p) (fun f => carryPred f p 0)

/-- VOTE.any (R350). -/
def execVoteAny (k q p : BitVec 3) (s : State) : Host.Outcome State Fault Refusal := s.arrive (.voteAny k q p) (fun f => carryPred f p q)

/-- VOTE.all (R350). -/
def execVoteAll (k q p : BitVec 3) (s : State) : Host.Outcome State Fault Refusal := s.arrive (.voteAll k q p) (fun f => carryPred f p q)

/-- VOTE.count (R350). -/
def execVoteCount (d : BitVec 6) (p : BitVec 3) (s : State) : Host.Outcome State Fault Refusal := s.arrive (.voteCount d p) (fun f => carryPred f p 0)

/-- CRED (R351, R352). -/
def execCred (d a : BitVec 6) (o : BitVec 4) (s : State) : Host.Outcome State Fault Refusal := s.arrive (.cred d a o) (fun f => (f.reg a.toNat, 0))

/-- CSCAN (R351, R353). -/
def execCscan (d a : BitVec 6) (x : Bool) (o : BitVec 4) (s : State) : Host.Outcome State Fault Refusal := s.arrive (.cscan d a x o) (fun f => (f.reg a.toNat, 0))

/-- ELECT (R354). -/
def execElect (p : BitVec 3) (a : BitVec 6) (s : State) : Host.Outcome State Fault Refusal := s.arrive (.elect p a) (fun _ => (0, 0))

/-- MATCH (R355). -/
def execMatchv (d a : BitVec 6) (s : State) : Host.Outcome State Fault Refusal := s.arrive (.matchv d a) (fun f => (f.reg a.toNat, 0))

/-- The source of CMASK: a word, or a pair in a crew of 64 (R356); positions outside the crew are ignored. -/
def State.maskSource (s : State) (f : Fibre) (a : BitVec 6) : DWord :=
  match s.launch s.cur.launch with
  | none => 0
  | some L => if L.crew = 64 then f.pair a.toNat else (f.reg a.toNat).setWidth 64

/-- CMASK (R356): without a rendezvous, scoreboarded. -/
def execCmask (a : BitVec 6) (m : BitVec 2) (s : State) : Host.Outcome State Fault Refusal :=
  s.issueEach (.cmask a m) (fun s id f =>
    let x := s.maskSource f a
    s.scored id [.cmask (if m = 0#2 then x else if m = 1#2 then f.cmask &&& x else f.cmask ||| x)])

end Sys2Proof.Machine
end

