-- ==== Sys2Proof/Machine/Effects.lean ====
section
/-! DEFINITION. The effect instructions (R183 to R193, R379 to R382): HANDLE, UNHANDLE, HRET, PERFORM, PERFORMR, RESUME, RESUMEX, DISCARD and SPAWN. -/

namespace Sys2Proof.Machine

/-! ## Handlers -/

/-- Install a handler on the current frame of a fibre, once its two segments are at hand (R183); none when one is missing. -/
def State.install (s : State) (id : FibId) (key mask : BitVec 12) (hentry join : Nat) : Option State :=
  match s.fib id with
  | none => none
  | some f0 =>
    let a := s.asidOf id.launch
    match if 0x400 < s.used a f0.seg + 48 then s.moveFrame id else some s with
    | none => none
    | some s =>
      match s.takeSeg id with
      | none => none
      | some (n, s) =>
        match s.fib id with
        | none => none
        | some f =>
          let u := s.used a f.seg
          let H : HFrame := ⟨hentry, join, key.toNat, mask.toNat, f.hchain.toNat, f.frameOff, 0, f.code⟩
          let s := ((s.setHFrame a f.seg u H).setUsed a f.seg (u + 48)).setSegFlags a f.seg 1
          let s := s.bodyFrame a n f.seg H
          some ((s.modFib id (fun x => { x with hchain := BitVec.ofNat 32 f.seg })).setFrame id n 0x010)

/-- HANDLE (R183, R379). -/
def execHandle (k m : BitVec 12) (h j : BitVec 16) (s : State) : Host.Outcome State Fault Refusal :=
  s.issueEach (.handle k m h j) (fun s id f =>
    s.withSeg id f.seg (fun s =>
      let hd := s.hdr (s.asidOf id.launch) f.seg f.frameOff
      let off (x : BitVec 16) : Nat := (s.cur.packet + BitVec.ofInt 32 (16 * x.toInt)).toNat
      if 960 < hd.head + hd.loc then s.effAt id 0x0E7#12 0
      else match s.install id k m (off h) (off j) with
        | none => s.effAt id 0x0E9#12 0
        | some s => s))

/-- Act on the current frame when it is a body or clause frame, with both its segment and the handler's in the Cupboard; otherwise perform 0x0E7 (R184). -/
def State.onBody (s : State) (id : FibId) (f : Fibre) (k : State → State) : State :=
  s.withSeg id f.seg (fun s =>
    let a := s.asidOf id.launch
    if (s.hdr a f.seg f.frameOff).hb then s.withSeg id (s.link a f.seg) k else s.effAt id 0x0E7#12 0)

/-- UNHANDLE (R184). -/
def execUnhandle (s : State) : Host.Outcome State Fault Refusal :=
  s.issueEach .unhandle (fun s id f =>
    s.onBody id f (fun s =>
      let a := s.asidOf id.launch
      let h := s.link a f.seg
      let H := s.hframe a h
      if H.state = 0 ∧ f.hchain.toNat = h then (s.setHState a h 2).modFib id (fun f => { f with hchain := BitVec.ofNat 32 H.outer })
      else s.effAt id 0x0E7#12 0))

/-- HRET (R184). -/
def execHret (a : BitVec 6) (s : State) : Host.Outcome State Fault Refusal :=
  s.issueEach (.hret a) (fun s id f =>
    s.onBody id f (fun s => (s.fixed id 4 [.v 0 (f.reg a.toNat)]).closeHandler id))

/-! ## Raising -/

/-- Raise a tag with an argument from a program: a partial record, with the next instruction as resume address; tag 0 performs 0x0E7 (R185, R380). -/
def State.performTag (s : State) (id : FibId) (tag : BitVec 12) (arg : Word) : State :=
  if tag = 0 then s.effAt id 0x0E7#12 0 else s.effAfterR id tag arg false .none

/-- PERFORM (R380). -/
def execPerform (t : BitVec 12) (a : BitVec 6) (s : State) : Host.Outcome State Fault Refusal :=
  s.issueEach (.perform t a) (fun s id f => s.performTag id t (f.reg a.toNat))

/-- PERFORMR (R380). -/
def execPerformr (a b : BitVec 6) (s : State) : Host.Outcome State Fault Refusal :=
  s.issueEach (.performr a b) (fun s id f => s.performTag id ((f.reg a.toNat).setWidth 12) (f.reg b.toNat))

/-! ## Continuations -/

/-- The tail form may be used: the current frame is a body or clause frame (R191). -/
def State.tailOk (s : State) (id : FibId) (f : Fibre) (tail : Bool) : Bool := !tail || (s.hdr (s.asidOf id.launch) f.seg f.frameOff).hb

/-- Claim a continuation and resume it, or perform what stands in the way (R190, R191, R197); then do what follows in the resumed context. -/
def State.resumeWith (s : State) (id : FibId) (f : Fibre) (k : Cap) (value : Word) (tail : Bool) (andNext : State → State) : State :=
  if !s.tailOk id f tail then s.effAt id 0x0E7#12 0
  else match s.claim (s.asidOf id.launch) k stConsumed with
    | .error t => s.effAt id t 0
    | .ok (r, s) =>
      if s.recBad (s.asidOf id.launch) r then (s.logRec (s.asidOf id.launch) r).effAt id 0x0D0#12 0
      else andNext (s.linkResume id r tail value s.cur.next)

/-- RESUME (R190, R381). -/
def execResume (a : BitVec 4) (b : BitVec 6) (t : Bool) (s : State) : Host.Outcome State Fault Refusal :=
  s.issueEach (.resume a b t) (fun s id f => s.resumeWith id f (f.cap a.toNat) (f.reg b.toNat) t (fun s => s))

/-- Raise an effect in the resumed context, at the address it resumes at (R192). In a chain it is recorded. -/
def State.raiseThere (s : State) (id : FibId) (tag : BitVec 12) (arg : Word) : State :=
  match s.fib id with
  | none => s
  | some f =>
    let e : Eff := ⟨tag, arg, false, f.pc, none, .none, none⟩
    if s.cur.inChain then { s with cur := { s.cur with raised := s.cur.raised ++ [⟨id.fid, s.cur.slot, false, e⟩] } } else s.raise id e

/-- RESUMEX (R192, R381): tag from v[c], argument from v[b]. -/
def execResumex (t : Bool) (a : BitVec 4) (b c : BitVec 6) (s : State) : Host.Outcome State Fault Refusal :=
  s.issueEach (.resumex t a b c) (fun s id f =>
    let tag : BitVec 12 := (f.reg c.toNat).setWidth 12
    if tag = 0 then s.effAt id 0x0E7#12 0
    else s.resumeWith id f (f.cap a.toNat) (f.reg b.toNat) t (fun s => s.raiseThere id tag (f.reg b.toNat)))

/-- DISCARD (R193). -/
def execDiscard (a : BitVec 4) (s : State) : Host.Outcome State Fault Refusal :=
  s.issueEach (.discard a) (fun s id f =>
    let as := s.asidOf id.launch
    match s.claim as (f.cap a.toNat) stDiscarded with
    | .error t => s.effAt id t 0
    | .ok (r, s) => (s.captured as r ++ [r]).foldl (fun s n => s.giveSeg as n) (s.acquire (s.coreOf id)))

/-- Write the continuation of SPAWN into two fresh segments: the record and the segment that it captures (R382). The release at package scope has been made. -/
def State.spawnRecord (s : State) (id : FibId) (f : Fibre) (r seg : Nat) (c : Cap) (off : Nat) (arg : Word) : State × Cap :=
  let a := s.asidOf id.launch
  let s := (s.initSeg a seg noLink 0x030 0).setHdr a seg 0x010 ⟨0, 0x010, 3, 0⟩
  let s := (s.segSetCap a seg 0x020 c).initRecord a r
  let s := (s.segSet a r 0x18 4 0x1000).segSet a r 0x1C 4 (c.base.toNat + off + 4)
  let s := s.segSetCap a r 0x20 c
  let s := (s.segSet a r 0x30 4 seg).segSet a r 0x34 4 seg
  let s := (s.segSet a r 0x38 4 rootFrame).segSet a r 0x3C 4 rootFrame
  let s := (s.segSet a r 0x40 2 0x010).segSet a r 0x42 2 1
  let s := ((s.segSet a r 0x50 8 f.cmask.toNat).segSet a r 0x58 8 noLink).segSet a r 0x170 4 arg.toNat
  let (serial, s) := s.nextSerial a
  (s.setRecWord a r serial 0 stLive, s.contCap a r serial)

/-- SPAWN (R382). Its release at package scope comes first, and holds the fibre while it is not complete (R186, R229). -/
def execSpawn (d a : BitVec 4) (b c : BitVec 6) (s : State) : Host.Outcome State Fault Refusal :=
  s.issueEach (.spawn d a b c) (fun s id f =>
    let k := f.cap a.toNat
    let off := f.effOff b 0
    match codeCheck k off with
    | some t => s.effAt id t (low32 off)
    | none =>
      match s.releaseFor id 3 with
      | (s, .error e) => s.stop id 0 e
      | (s, .ok _) =>
        match s.takeSeg id with
        | none => s.effAt id 0x0E9#12 0
        | some (r, s1) =>
          match s1.takeSeg id with
          | none => s.effAt id 0x0E9#12 0
          | some (n, s) =>
            let x := s.spawnRecord id f r n k off.toNat (f.reg c.toNat)
            x.1.fixed id 4 [.c d.toNat x.2])

end Sys2Proof.Machine
end

