-- ==== Sys2Proof/Machine/Fills.lean ====
section
/-! DEFINITION. What caches and pipes complete by themselves: translation walks (R212), write-backs (R221), releases (R229), scoreboarded results (R160), instruction-cache fills (R180) and Cupboard fills (R178). -/

namespace Sys2Proof.Machine

/-- Make room in a set of the object cache, which has 2,048 sets of eight ways: an entry that the manual leaves open gives way (R212, log entry 2). -/
def State.objRoom (s : State) (die asid obj : Nat) : State :=
  let set := s.objCache.filter (fun c => c.die == die && Config.objSet c.asid c.obj % 2048 == Config.objSet asid obj % 2048)
  if set.length < 8 then s
  else
    let (k, s) := s.choice set.length
    match set[k]? with
    | none => s
    | some x => { s with objCache := s.objCache.filter (fun c => c != x) }

/-- Make room among the 65,536 entries of a die's region cache (R212, log entry 2). -/
def State.regRoom (s : State) (die : Nat) : State :=
  let mine := s.regCache.filter (fun c => c.die == die)
  if mine.length < 65536 then s
  else
    let (k, s) := s.choice mine.length
    match mine[k]? with
    | none => s
    | some x => { s with regCache := s.regCache.filter (fun c => c != x) }

/-- The entry or page word that a walk has read enters its cache, with the GEN it was read with (R212). One that is lost does not: the access that looks again detects it (R107). -/
def State.fillWalk (s : State) (die asid obj : Nat) (page : Option Nat) : State :=
  match s.entry asid obj with
  | none => s
  | some e => match page with
    | none =>
      if s.wordLost (s.entryAt asid obj) 32 then s
      else
        let s := State.objRoom { s with objCache := s.objCache.filter (fun c => !(c.die == die && c.asid == asid && c.obj == obj)) } die asid obj
        { s with objCache := ⟨die, asid, obj, e⟩ :: s.objCache }
    | some p =>
      if !e.paged || s.wordLost (e.wordPA p) 8 then s
      else
        let s := State.regRoom { s with regCache := s.regCache.filter (fun c => !(c.die == die && c.asid == asid && c.obj == obj && c.page == p)) } die
        { s with regCache := ⟨die, asid, obj, p, BitVec.ofNat 64 (s.mem.num (e.wordPA p) 8), e.gen⟩ :: s.regCache }

/-- TRANSLATION_WALK (R212): every access that joined the walk goes on, and the walk that has waited longest takes the walker. -/
def execTranslationWalk (die asid obj : Nat) (page : Option Nat) (s : State) : Host.Outcome State Fault Refusal :=
  .next (
    if !s.walks.contains ⟨die, asid, obj, page⟩ then s
    else
      let s := State.fillWalk { s with walks := s.walks.filter (fun w => w != ⟨die, asid, obj, page⟩) } die asid obj page
      let s := s.endWaits (fun w => w == .walk die asid obj page)
      match (s.walks.filter (fun w => w.die == die))[31]? with
      | none => s
      | some w => s.later 1 (.translationWalk w.die w.asid w.obj w.page))

/-- L1_WRITE_BACK (R221): the oldest entry of the core's dirty FIFO, unless its home line is latched. -/
def execL1WriteBack (core : Nat) (s : State) : Host.Outcome State Fault Refusal :=
  .next (match (s.core core).fifo with
    | [] => s
    | (a, o, l) :: _ => if s.lineLatched a o l then s else (s.writeBack core a o l).retry)

/-- The gang of a fibre is on its cores and not halted. -/
def State.onCores (s : State) (id : FibId) : Bool :=
  match s.launch id.launch with
  | none => false
  | some L => (s.gang id.launch (L.gangOf id.wgid)).any (fun g => g.st.live)

/-- The copy of a fibre's reply bytes goes on (R199). -/
def State.copyOn (s : State) (id : FibId) : State :=
  match (s.fib id).bind (·.copy) with
  | none => s
  | some (dst, bs) => (s.modFib id (fun f => { f with copy := none, wait := .none })).deliver id dst bs

/-- RELEASE_COMPLETE (R229): a fibre that waits for its release looks again, an effect whose capture waited for one is performed (R186), and reply bytes still to be copied are (R199). -/
def execReleaseComplete (f : FibId) (s : State) : Host.Outcome State Fault Refusal :=
  .next (match s.fib f with
    | none => s
    | some x =>
      match x.pend with
      | some e =>
        if x.wait = .capture ∧ s.onCores f then ((s.modFib f (fun y => { y with wait := .none, pend := none })).performGo f e).settle f.launch f.wgid else s
      | none =>
        let s := if x.wait = .unacked then s.modFib f (fun y => { y with wait := .none }) else s
        if x.copy.isSome ∧ (x.wait = .unacked ∨ x.wait = .none) then s.copyOn f else s)

/-- RESULT_WRITEBACK (R160): the oldest scoreboarded result of a fibre is written. -/
def execResultWriteback (f : FibId) (s : State) : Host.Outcome State Fault Refusal :=
  .next (s.modFib f (fun x =>
    match x.infl with
    | [] => x
    | ws :: rest => { x.applyScored ws with infl := rest }))

/-! ## Instruction cache (R180) -/

/-- Where the 16 bytes of a packet lie. -/
def State.packetXlat (s : State) (asid obj o : Nat) : XOut := s.xlatNow false ⟨asid, obj, o, 16, false, false⟩

/-- The bytes of a line of a code object, up to the end of the object. -/
def State.lineBytesOf (s : State) (asid obj line : Nat) : List Byte :=
  ((List.range 8).map (fun k => s.packetXlat asid obj (128 * line + 16 * k))).flatMap (fun x => match x with
    | .pa p _ => s.rd (s.keyOf asid) p 16
    | _ => [])

/-- Data of a line is lost. -/
def State.lineLost (s : State) (asid obj line : Nat) : Bool :=
  (List.range 8).any (fun k => match s.packetXlat asid obj (128 * line + 16 * k) with
    | .pa p _ => s.isBad p 16
    | _ => false)

/-- The effect of a fibre whose packet cannot be fetched; code in host or peer objects is not fetched. -/
def State.fetchFault (s : State) (asid obj line : Nat) (pc : Word) : Option (BitVec 12 × Option HamperKey) :=
  match s.packetXlat asid obj (packetAt pc) with
  | .pa p _ => if s.lineLost asid obj line then some (0x0D0#12, some ⟨asid, if s.bad.any (sectorIn p 16) then 0 else 1, some (p / 1048576), false⟩) else none
  | .fault t => some (t, if t = 0x0D1#12 ∨ t = 0x0D2#12 then some (keyAt asid obj (packetAt pc) false) else none)
  | .lost p => some (0x0D0#12, some ⟨asid, if s.homeHurts.contains (p / 64) && !s.bad.contains (p / 64) then 1 else 0, some (p / 1048576), false⟩)
  | _ => some (0x0C1#12, none)

/-- Give a line to a core, when it can be read. -/
def State.iFill (s : State) (core asid obj line : Nat) : State :=
  let bs := s.lineBytesOf asid obj line
  if bs = [] ∨ s.lineLost asid obj line then s else s.modCore core (fun c => c.addLine ⟨asid, obj, line, bs⟩)

/-- A byte of the line stands in a line of memory that a TST holds: the fill waits (R242). -/
def State.lineHeld (s : State) (asid obj line : Nat) : Bool :=
  (List.range 8).any (fun k => match s.packetXlat asid obj (128 * line + 16 * k) with
    | .pa p _ => s.latchedX p
    | _ => false)

/-- The fibres that wait for a line in a core block: every miss of the block joins the one fill (R180). -/
def State.joined (s : State) (core asid obj line : Nat) : List (FibId × Fibre) :=
  s.allFibres.filter (fun x => x.2.wait == .icache asid obj line && blockOf (s.coreOf x.1) == blockOf core)

/-- ICACHE_FILL (R180): the one fill goes to every core of the block whose fibres wait for it, and each of them fetches the next line ahead of use. -/
def execIcacheFill (core asid obj line : Nat) (s : State) : Host.Outcome State Fault Refusal :=
  .next (
    let ws := s.joined core asid obj line
    if s.lineHeld asid obj line then s.later 10 (.icacheFill core asid obj line)
    else if ws = [] then s.iFill core asid obj line
    else
      let cores := (core :: ws.map (fun x => s.coreOf x.1)).dedup
      let s := s.over cores (fun s n => s.iFill n asid obj line)
      let s := s.over ws (fun s x =>
        let s := s.modFib x.1 (fun f => { f with wait := .none })
        match s.fetchFault asid obj line x.2.pc with
        | none => s
        | some (t, k) => s.raise x.1 (Eff.fault t x.2.pc x.2.pc k))
      s.over cores (fun s n =>
        let next := Instr.icacheFill n asid obj (line + 1)
        if s.agenda.any (fun t => t.ev == next) || (s.core n).icache.any (fun l => l.asid == asid && l.obj == obj && l.line == line + 1) then s
        else s.later 1 next))

/-! ## Cupboards (R178) -/

/-- CUPBOARD_FILL (R178, R179): a segment whose page is not resident is waited for. -/
def execCupboardFill (core asid seg : Nat) (s : State) : Host.Outcome State Fault Refusal :=
  .next (
    if (s.segPA asid seg).isNone then s.later 1000 (.cupboardFill core asid seg)
    else
    let s := s.cupboardTake core asid seg false
    s.mapFibres (fun id f => if f.wait = .cupboard asid seg ∧ s.coreOf id = core then { f with wait := .none } else f))

end Sys2Proof.Machine
end

