-- ==== Sys2Proof/Machine/Integer.lean ====
section
/-! DEFINITION. The integer instructions (R304 to R305, R323 to R331). -/

namespace Sys2Proof.Machine

/-- ADD (R324). -/
def execAdd (d a b : BitVec 6) (g st u : Bool) (s : State) : Host.Outcome State Fault Refusal := s.intR (.add d a b g st u) 4 d a b g st u (fun x y _ _ => x + y)

/-- SUB (R324). -/
def execSub (d a b : BitVec 6) (g st u : Bool) (s : State) : Host.Outcome State Fault Refusal := s.intR (.sub d a b g st u) 4 d a b g st u (fun x y _ _ => x - y)

/-- ADDC (R324): the carry of the unsigned sum. -/
def execAddc (d a b : BitVec 6) (g : Bool) (s : State) : Host.Outcome State Fault Refusal :=
  s.intR (.addc d a b g) 4 d a b g false false (fun _ _ x y => if 2 ^ 32 ≤ x.toNat + y.toNat then 1 else 0)

/-- MUL (R324). -/
def execMul (d a b : BitVec 6) (g st u : Bool) (s : State) : Host.Outcome State Fault Refusal := s.intR (.mul d a b g st u) 6 d a b g st u (fun x y _ _ => x * y)

/-- MULHI (R324). -/
def execMulhi (d a b : BitVec 6) (g u : Bool) (s : State) : Host.Outcome State Fault Refusal :=
  s.intR (.mulhi d a b g u) 6 d a b g false u (fun x y _ _ => shiftFloor (x * y) 32)

/-- DIV (R325). -/
def execDiv (d a b : BitVec 6) (g st u : Bool) (s : State) : Host.Outcome State Fault Refusal := s.division (.div d a b g st u) d a b g (divide u st)

/-- REM (R325). -/
def execRem (d a b : BitVec 6) (g u : Bool) (s : State) : Host.Outcome State Fault Refusal := s.division (.rem d a b g u) d a b g (remainder u)

/-- MIN (R324). -/
def execMin (d a b : BitVec 6) (g u : Bool) (s : State) : Host.Outcome State Fault Refusal := s.intR (.min d a b g u) 4 d a b g false u (fun x y _ _ => min x y)

/-- MAX (R324). -/
def execMax (d a b : BitVec 6) (g u : Bool) (s : State) : Host.Outcome State Fault Refusal := s.intR (.max d a b g u) 4 d a b g false u (fun x y _ _ => max x y)

/-- ABS (R324). -/
def execAbs (d a : BitVec 6) (g st : Bool) (s : State) : Host.Outcome State Fault Refusal := s.intU (.abs d a g st) d a g st (fun x => (x.toInt.natAbs : Int))

/-- NEG (R324). -/
def execNeg (d a : BitVec 6) (g st : Bool) (s : State) : Host.Outcome State Fault Refusal := s.intU (.neg d a g st) d a g st (fun x => -x.toInt)

/-- AND (R324). -/
def execAnd (d a b : BitVec 6) (g : Bool) (s : State) : Host.Outcome State Fault Refusal := s.intR (.and d a b g) 4 d a b g false false (fun _ _ x y => (x &&& y).toInt)

/-- OR (R324). -/
def execOr (d a b : BitVec 6) (g : Bool) (s : State) : Host.Outcome State Fault Refusal := s.intR (.or d a b g) 4 d a b g false false (fun _ _ x y => (x ||| y).toInt)

/-- XOR (R324). -/
def execXor (d a b : BitVec 6) (g : Bool) (s : State) : Host.Outcome State Fault Refusal := s.intR (.xor d a b g) 4 d a b g false false (fun _ _ x y => (x ^^^ y).toInt)

/-- ANDN (R324). -/
def execAndn (d a b : BitVec 6) (g : Bool) (s : State) : Host.Outcome State Fault Refusal := s.intR (.andn d a b g) 4 d a b g false false (fun _ _ x y => (x &&& ~~~y).toInt)

/-- SHL (R324): the shift count is B[7:0]. -/
def execShl (d a b : BitVec 6) (g st u : Bool) (s : State) : Host.Outcome State Fault Refusal :=
  s.intR (.shl d a b g st u) 4 d a b g st u (fun x _ _ y => x * 2 ^ (y.toNat % 256))

/-- SHR (R324). -/
def execShr (d a b : BitVec 6) (g u : Bool) (s : State) : Host.Outcome State Fault Refusal :=
  s.intR (.shr d a b g u) 4 d a b g false u (fun x _ _ y => shiftFloor x (y.toNat % 256))

/-- ROT (R324): a rotation to the left by B[4:0]. -/
def execRot (d a b : BitVec 6) (g : Bool) (s : State) : Host.Outcome State Fault Refusal :=
  s.intR (.rot d a b g) 4 d a b g false false (fun _ _ x y => (x.rotateLeft (y.toNat % 32)).toInt)

/-- BFX (R324). -/
def execBfx (d a b : BitVec 6) (g u : Bool) (s : State) : Host.Outcome State Fault Refusal := s.intR (.bfx d a b g u) 4 d a b g false u (fun _ _ x y => bitField u x y)

/-- POPC (R324). -/
def execPopc (d a : BitVec 6) (g : Bool) (s : State) : Host.Outcome State Fault Refusal := s.intU (.popc d a g) d a g false (fun x => (popCount x : Int))

/-- CLZ (R324). -/
def execClz (d a : BitVec 6) (g : Bool) (s : State) : Host.Outcome State Fault Refusal := s.intU (.clz d a g) d a g false (fun x => (leadingZeros x : Int))

/-- CTZ (R324). -/
def execCtz (d a : BitVec 6) (g : Bool) (s : State) : Host.Outcome State Fault Refusal := s.intU (.ctz d a g) d a g false (fun x => (trailingZeros x : Int))

/-- BREV (R324). -/
def execBrev (d a : BitVec 6) (g : Bool) (s : State) : Host.Outcome State Fault Refusal := s.intU (.brev d a g) d a g false (fun x => (reverseBits x).toInt)

/-- MOV (R324). -/
def execMov (d a : BitVec 6) (g : Bool) (s : State) : Host.Outcome State Fault Refusal := s.intU (.mov d a g) d a g false (fun x => x.toInt)

/-- MAD (R326). -/
def execMad (d a b c : BitVec 6) (s : State) : Host.Outcome State Fault Refusal :=
  s.word (.mad d a b c) 6 d (fun f => f.reg a.toNat * f.reg b.toNat + f.reg c.toNat)

/-- MADW (R326): the pair is written together. -/
def execMadw (d a b c : BitVec 6) (s : State) : Host.Outcome State Fault Refusal :=
  s.compute (.madw d a b c) 6 (fun _ f =>
    let x : DWord := (f.reg a.toNat).setWidth 64 * (f.reg b.toNat).setWidth 64 + f.pair c.toNat
    ([.v d.toNat (x.setWidth 32), .v (d.toNat + 1) ((x >>> 32).setWidth 32)], 0))

/-- FUNNEL (R326). -/
def execFunnel (d a b c : BitVec 6) (s : State) : Host.Outcome State Fault Refusal :=
  s.word (.funnel d a b c) 4 d (fun f => ((f.reg a.toNat ++ f.reg b.toNat : DWord) >>> ((f.reg c.toNat).toNat % 32)).setWidth 32)

/-- BFI (R326). -/
def execBfi (d a b c : BitVec 6) (s : State) : Host.Outcome State Fault Refusal :=
  s.word (.bfi d a b c) 4 d (fun f => bitInsert (f.reg a.toNat) (f.reg b.toNat) (f.reg c.toNat))

/-- ADDI (R327). -/
def execAddi (d a : BitVec 6) (i : BitVec 12) (s : State) : Host.Outcome State Fault Refusal := s.word (.addi d a i) 4 d (fun f => f.reg a.toNat + i.signExtend 32)

/-- ANDI (R327). -/
def execAndi (d a : BitVec 6) (i : BitVec 12) (s : State) : Host.Outcome State Fault Refusal := s.word (.andi d a i) 4 d (fun f => f.reg a.toNat &&& i.setWidth 32)

/-- ORI (R327). -/
def execOri (d a : BitVec 6) (i : BitVec 12) (s : State) : Host.Outcome State Fault Refusal := s.word (.ori d a i) 4 d (fun f => f.reg a.toNat ||| i.setWidth 32)

/-- XORI (R327). -/
def execXori (d a : BitVec 6) (i : BitVec 12) (s : State) : Host.Outcome State Fault Refusal := s.word (.xori d a i) 4 d (fun f => f.reg a.toNat ^^^ i.setWidth 32)

/-- SHLI (R327). -/
def execShli (d a : BitVec 6) (k : BitVec 5) (s : State) : Host.Outcome State Fault Refusal := s.word (.shli d a k) 4 d (fun f => f.reg a.toNat <<< k.toNat)

/-- SHRI (R327): logical for .z32, else arithmetic. -/
def execShri (d a : BitVec 6) (z : Bool) (k : BitVec 5) (s : State) : Host.Outcome State Fault Refusal :=
  s.word (.shri d a z k) 4 d (fun f => if z then f.reg a.toNat >>> k.toNat else (f.reg a.toNat).sshiftRight k.toNat)

/-- MULI (R327). -/
def execMuli (d a : BitVec 6) (i : BitVec 12) (s : State) : Host.Outcome State Fault Refusal := s.word (.muli d a i) 6 d (fun f => f.reg a.toNat * i.signExtend 32)

/-- MOVI (R327). -/
def execMovi (d : BitVec 6) (i : BitVec 18) (s : State) : Host.Outcome State Fault Refusal := s.word (.movi d i) 4 d (fun _ => i.signExtend 32)

/-- MOVL (R327). -/
def execMovl (d : BitVec 6) (i : BitVec 32) (s : State) : Host.Outcome State Fault Refusal := s.word (.movl d i) 4 d (fun _ => i)

/-- ADDL (R327). -/
def execAddl (d a : BitVec 6) (i : BitVec 32) (s : State) : Host.Outcome State Fault Refusal := s.word (.addl d a i) 4 d (fun f => f.reg a.toNat + i)

/-- CMP (R328, R329). -/
def execCmp (k p : BitVec 3) (a b : BitVec 6) (g : Bool) (n : BitVec 3) (s : State) : Host.Outcome State Fault Refusal :=
  s.compute (.cmp k p a b g n) 4 (fun s f => (condWrite f k p (intCond n (s.valA f g a) (f.reg b.toNat)), 0))

/-- CMPI (R328, R329). -/
def execCmpi (k p : BitVec 3) (a : BitVec 6) (i : BitVec 9) (n : BitVec 3) (s : State) : Host.Outcome State Fault Refusal :=
  s.compute (.cmpi k p a i n) 4 (fun _ f => (condWrite f k p (intCond n (f.reg a.toNat) (i.signExtend 32)), 0))

/-- PLOG (R329, R330): bit 2 × pa + pb of the truth table. -/
def execPlog (k p a b : BitVec 3) (t : BitVec 4) (s : State) : Host.Outcome State Fault Refusal :=
  s.compute (.plog k p a b t) 4 (fun _ f =>
    (condWrite f k p (t.getLsbD ((if f.pred a.toNat then 2 else 0) + (if f.pred b.toNat then 1 else 0))), 0))

/-- SEL (R331). -/
def execSel (d a b : BitVec 6) (g n : Bool) (p : BitVec 3) (s : State) : Host.Outcome State Fault Refusal :=
  s.compute (.sel d a b g n p) 4 (fun s f => ([.v d.toNat (if f.pred p.toNat != n then s.valA f g a else f.reg b.toNat)], 0))

end Sys2Proof.Machine
end

