-- ==== Sys2Proof/Machine/Memory.lean ====
section
/-! DEFINITION. Loads, stores, prefetches, LDA and STL (R357 to R359, R368), capabilities in memory and in registers (R360, R361), and the atomic instructions (R365 to R367). -/

namespace Sys2Proof.Machine

/-! ## Shapes -/

/-- A load of n bytes: a scoreboarded result (R358). -/
def State.loadInstr (s : State) (i : Instr) (c : BitVec 4) (x : BitVec 6) (d : BitVec 8) (n : Nat) (val : List Byte → List WB) : Host.Outcome State Fault Refusal :=
  s.issueEach i (fun s id f =>
    let off := f.effOff x (disp8 d n)
    match s.load_ id (f.cap c.toNat) off n false with
    | (s, .error e) => s.stop id off e
    | (s, .ok bs) => s.scored id (val bs))

/-- A store of the low n bytes of registers t up (R358). -/
def State.storeInstr (s : State) (i : Instr) (t : BitVec 6) (c : BitVec 4) (x : BitVec 6) (d : BitVec 8) (n : Nat) : Host.Outcome State Fault Refusal :=
  s.issueEach i (fun s id f =>
    let off := f.effOff x (disp8 d n)
    let src := (List.range 4).flatMap (fun k => natBytes 4 (f.reg (t.toNat + k)).toNat)
    match s.store_ id (f.cap c.toNat) off (src.take n) with
    | (s, .error e) => s.stop id off e
    | (s, .ok _) => s)

/-- The registers of a loaded pair or quad. -/
def loadedWords (t : BitVec 6) (k : Nat) (bs : List Byte) : List WB :=
  (List.range k).map (fun j => WB.v (t.toNat + j) (BitVec.ofNat 32 (bytesNat ((bs.drop (4 * j)).take 4))))

/-- A loaded value in one register, sign-extended from n bits or zero-extended. -/
def loadedOne (t : BitVec 6) (signed : Bool) (bits : Nat) (bs : List Byte) : List WB :=
  [.v t.toNat (if signed then low32 (sx bits (bytesNat bs)) else BitVec.ofNat 32 (bytesNat bs))]

/-- Some order of a list, left open (log entry 2): each element is put at a free place. -/
def State.anyOrder (s : State) : List Nat → List Nat × State
  | [] => ([], s)
  | [n] => ([n], s)
  | n :: ns =>
    let r := s.anyOrder ns
    let k := r.2.choice (r.1.length + 1)
    (r.1.take k.1 ++ n :: r.1.drop k.1, k.2)

/-- An atomic instruction; res gives the writes of the old value, none for a reduction (R365). The fibres of a bundle perform it in an order that the manual leaves open (R366). -/
def State.atomicInstr (s : State) (i : Instr) (c : BitVec 4) (x sr : BitVec 6) (op : BitVec 8) (res : Nat → List WB) : Host.Outcome State Fault Refusal :=
  s.issue i (fun s _ exe => (s.anyOrder exe).2.each (s.anyOrder exe).1 (fun s id f =>
    let off := f.effOff x 0
    let src := if atomicSrc op = 8 then (f.pair sr.toNat).toNat else (f.reg sr.toNat).toNat
    match s.atomic_ id (f.cap c.toNat) off op src with
    | (s, .error e) => s.stop id off e
    | (s, .ok old) => if res old = [] then s else s.scored id (res old)))

/-- The old word of an atomic. -/
def oldWord (d : BitVec 6) (old : Nat) : List WB := [.v d.toNat (BitVec.ofNat 32 old)]

/-! ## Loads and stores -/

/-- LD8S (R357). -/
def execLd8s (t : BitVec 6) (c : BitVec 4) (x : BitVec 6) (i : BitVec 8) (s : State) : Host.Outcome State Fault Refusal := s.loadInstr (.ld8s t c x i) c x i 1 (loadedOne t true 8)

/-- LD8Z (R357). -/
def execLd8z (t : BitVec 6) (c : BitVec 4) (x : BitVec 6) (i : BitVec 8) (s : State) : Host.Outcome State Fault Refusal := s.loadInstr (.ld8z t c x i) c x i 1 (loadedOne t false 8)

/-- LD16S (R357). -/
def execLd16s (t : BitVec 6) (c : BitVec 4) (x : BitVec 6) (i : BitVec 8) (s : State) : Host.Outcome State Fault Refusal := s.loadInstr (.ld16s t c x i) c x i 2 (loadedOne t true 16)

/-- LD16Z (R357). -/
def execLd16z (t : BitVec 6) (c : BitVec 4) (x : BitVec 6) (i : BitVec 8) (s : State) : Host.Outcome State Fault Refusal := s.loadInstr (.ld16z t c x i) c x i 2 (loadedOne t false 16)

/-- LD32 (R357). -/
def execLd32 (t : BitVec 6) (c : BitVec 4) (x : BitVec 6) (i : BitVec 8) (s : State) : Host.Outcome State Fault Refusal := s.loadInstr (.ld32 t c x i) c x i 4 (loadedWords t 1)

/-- LD64 (R357). -/
def execLd64 (t : BitVec 6) (c : BitVec 4) (x : BitVec 6) (i : BitVec 8) (s : State) : Host.Outcome State Fault Refusal := s.loadInstr (.ld64 t c x i) c x i 8 (loadedWords t 2)

/-- LD128 (R357). -/
def execLd128 (t : BitVec 6) (c : BitVec 4) (x : BitVec 6) (i : BitVec 8) (s : State) : Host.Outcome State Fault Refusal := s.loadInstr (.ld128 t c x i) c x i 16 (loadedWords t 4)

/-- ST8 (R357). -/
def execSt8 (t : BitVec 6) (c : BitVec 4) (x : BitVec 6) (i : BitVec 8) (s : State) : Host.Outcome State Fault Refusal := s.storeInstr (.st8 t c x i) t c x i 1

/-- ST16 (R357). -/
def execSt16 (t : BitVec 6) (c : BitVec 4) (x : BitVec 6) (i : BitVec 8) (s : State) : Host.Outcome State Fault Refusal := s.storeInstr (.st16 t c x i) t c x i 2

/-- ST32 (R357). -/
def execSt32 (t : BitVec 6) (c : BitVec 4) (x : BitVec 6) (i : BitVec 8) (s : State) : Host.Outcome State Fault Refusal := s.storeInstr (.st32 t c x i) t c x i 4

/-- ST64 (R357). -/
def execSt64 (t : BitVec 6) (c : BitVec 4) (x : BitVec 6) (i : BitVec 8) (s : State) : Host.Outcome State Fault Refusal := s.storeInstr (.st64 t c x i) t c x i 8

/-- ST128 (R357). -/
def execSt128 (t : BitVec 6) (c : BitVec 4) (x : BitVec 6) (i : BitVec 8) (s : State) : Host.Outcome State Fault Refusal := s.storeInstr (.st128 t c x i) t c x i 16

/-- LDA (R234, R368): the word at its home slice, then an acquire at the scope. -/
def execLda (d : BitVec 6) (c : BitVec 4) (x : BitVec 6) (e : BitVec 2) (s : State) : Host.Outcome State Fault Refusal :=
  s.issueEach (.lda d c x e) (fun s id f =>
    let off := f.effOff x 0
    match s.load_ id (f.cap c.toNat) off 4 true with
    | (s, .error st) => s.stop id off st
    | (s, .ok bs) => (s.scored id (loadedWords d 1 bs)).acquireAt (s.coreOf id) (scopeOf e))

/-- STL (R234, R368): a release at the scope, then the store at its home slice. -/
def execStl (c : BitVec 4) (x sr : BitVec 6) (e : BitVec 2) (s : State) : Host.Outcome State Fault Refusal :=
  s.issueEach (.stl c x sr e) (fun s id f =>
    let off := f.effOff x 0
    match s.releaseFor id (scopeOf e) with
    | (s, .error st) => s.stop id off st
    | (s, .ok _) =>
      match s.storeHome id (f.cap c.toNat) off (natBytes 4 (f.reg sr.toNat).toNat) with
      | (s, .error st) => s.stop id off st
      | (s, .ok _) => s)

/-- The prefetch of one byte's sector, line or home sector; whatever stands in the way discards it (R359). -/
def State.prefetch (s : State) (id : FibId) (c : Cap) (off : Int) (what : Nat) : State :=
  let o := objOff c off
  let core := s.coreOf id
  let a := s.asidOf id.launch
  let obj := c.obj.toNat
  if (capCheck c [0] [rR] off 1 1).isSome || s.isHeap id c then s
  else match s.xlatNow (s.trayOk id.launch) ⟨a, obj, o, 1, false, false⟩ with
    | .pa p _ =>
      if s.latchedX p || s.isBad p 1 then s
      else if what = 0 then s.l1Fill core a obj o p
      else if what = 1 then
        s.over [0, 1, 2, 3] (fun s k => if s.isBad (p - p % 256 + 64 * k) 64 then s else s.l1Fill core a obj (o / 256 * 256 + 64 * k) (p - p % 256 + 64 * k))
      else s.homeTouch p false
    | .peer pos pasid pobj true =>
      match s.rcLine (dieOf core) pos pasid pobj o with
      | some r => if what = 2 then s else s.l1FillRc core a obj o r.data r.len
      | none =>
        if (s.via pos).isNone || s.storeAhead core pos pasid pobj (o / 256 * 256) 256 then s
        else match s.request (peerPacket 0x01#5 pos pasid pobj (o / 256 * 256) 256 0 []) (.load id (low32 off)) core (keyAt a obj o false) with
          | none => s
          | some (s, _) => s
    | _ => s

/-- PREF (R359). -/
def execPref (t : BitVec 2) (c : BitVec 4) (x : BitVec 6) (i : BitVec 8) (s : State) : Host.Outcome State Fault Refusal :=
  s.issueEach (.pref t c x i) (fun s id f => s.prefetch id (f.cap c.toNat) (f.effOff x (disp8 i 64)) t.toNat)

/-- LDC (R360). -/
def execLdc (t c : BitVec 4) (x : BitVec 6) (i : BitVec 8) (s : State) : Host.Outcome State Fault Refusal :=
  s.issueEach (.ldc t c x i) (fun s id f =>
    let off := f.effOff x (disp8 i 16)
    match s.loadCap id (f.cap c.toNat) off with
    | (s, .error st) => s.stop id off st
    | (s, .ok v) => s.scored id [.c t.toNat v])

/-- STC (R360). -/
def execStc (t c : BitVec 4) (x : BitVec 6) (i : BitVec 8) (s : State) : Host.Outcome State Fault Refusal :=
  s.issueEach (.stc t c x i) (fun s id f =>
    let off := f.effOff x (disp8 i 16)
    match s.storeCap id (f.cap c.toNat) off (f.cap t.toNat) with
    | (s, .error st) => s.stop id off st
    | (s, .ok _) => s)

/-! ## Capability registers (R361) -/

/-- A kind that no arithmetic may keep tagged: continuation, segment, object table. -/
def Cap.sealedKind (c : Cap) : Bool := c.kind == 3#4 || c.kind == 5#4 || c.kind == 6#4

/-- CADD's result. -/
def Cap.advance (c : Cap) (x : Word) : Cap :=
  let off := x.toNat
  let fits : Bool := off ≤ c.len.toNat
  { c with base := c.base + BitVec.ofNat 48 off, len := if fits then c.len - BitVec.ofNat 48 off else 0,
           tag := c.tag && fits && decide (c.base.toNat + off < 2 ^ 48) && !c.sealedKind }

/-- CNARROW's result. -/
def Cap.narrow (c : Cap) (lo len : Word) : Cap :=
  { c with base := c.base + BitVec.ofNat 48 lo.toNat, len := BitVec.ofNat 48 len.toNat,
           tag := c.tag && decide (lo.toNat + len.toNat ≤ c.len.toNat) && !c.sealedKind }

/-- CTEST's condition. -/
def Cap.test (c : Cap) (x : Word) : Bool :=
  let need : BitVec 8 := x.setWidth 8
  let kind : BitVec 4 := x.extractLsb' 8 4
  c.tag && (c.rights &&& need) == need && (kind == 15#4 || c.kind == kind)

/-- CGET's field. -/
def Cap.field (c : Cap) (f : BitVec 3) : Word :=
  match f.toNat with
  | 0 => c.base.setWidth 32
  | 1 => (c.base.extractLsb' 32 16).setWidth 32
  | 2 => c.len.setWidth 32
  | 3 => (c.len.extractLsb' 32 16).setWidth 32
  | 4 => c.obj.setWidth 32
  | 5 => c.rights.setWidth 32
  | 6 => c.kind.setWidth 32
  | _ => wordOf c.tag

/-- CMOV (R361). -/
def execCmov (d a : BitVec 4) (s : State) : Host.Outcome State Fault Refusal := s.compute (.cmov d a) 4 (fun _ f => ([.c d.toNat (f.cap a.toNat)], 0))

/-- CADD (R361). -/
def execCadd (d a : BitVec 4) (b : BitVec 6) (s : State) : Host.Outcome State Fault Refusal :=
  s.compute (.cadd d a b) 4 (fun _ f => ([.c d.toNat ((f.cap a.toNat).advance (f.reg b.toNat))], 0))

/-- CNARROW (R361). -/
def execCnarrow (d a : BitVec 4) (b c : BitVec 6) (s : State) : Host.Outcome State Fault Refusal :=
  s.compute (.cnarrow d a b c) 4 (fun _ f => ([.c d.toNat ((f.cap a.toNat).narrow (f.reg b.toNat) (f.reg c.toNat))], 0))

/-- CDROP (R361). -/
def execCdrop (d a : BitVec 4) (m : BitVec 8) (s : State) : Host.Outcome State Fault Refusal :=
  s.compute (.cdrop d a m) 4 (fun _ f => ([.c d.toNat { f.cap a.toNat with rights := (f.cap a.toNat).rights &&& ~~~m }], 0))

/-- CGET (R361). -/
def execCget (d : BitVec 6) (a : BitVec 4) (f : BitVec 3) (s : State) : Host.Outcome State Fault Refusal :=
  s.compute (.cget d a f) 4 (fun _ x => ([.v d.toNat ((x.cap a.toNat).field f)], 0))

/-- CTEST (R361). -/
def execCtest (k p : BitVec 3) (a : BitVec 4) (b : BitVec 6) (s : State) : Host.Outcome State Fault Refusal :=
  s.compute (.ctest k p a b) 4 (fun _ f => (condWrite f k p ((f.cap a.toNat).test (f.reg b.toNat)), 0))

/-! ## Atomics -/

/-- AADD (R365). -/
def execAadd (d : BitVec 6) (c : BitVec 4) (x sr : BitVec 6) (e : BitVec 2) (s : State) : Host.Outcome State Fault Refusal := s.atomicInstr (.aadd d c x sr e) c x sr 0 (oldWord d)

/-- AAND (R365). -/
def execAand (d : BitVec 6) (c : BitVec 4) (x sr : BitVec 6) (e : BitVec 2) (s : State) : Host.Outcome State Fault Refusal := s.atomicInstr (.aand d c x sr e) c x sr 1 (oldWord d)

/-- AOR (R365). -/
def execAor (d : BitVec 6) (c : BitVec 4) (x sr : BitVec 6) (e : BitVec 2) (s : State) : Host.Outcome State Fault Refusal := s.atomicInstr (.aor d c x sr e) c x sr 2 (oldWord d)

/-- AXOR (R365). -/
def execAxor (d : BitVec 6) (c : BitVec 4) (x sr : BitVec 6) (e : BitVec 2) (s : State) : Host.Outcome State Fault Refusal := s.atomicInstr (.axor d c x sr e) c x sr 3 (oldWord d)

/-- AMINS (R365). -/
def execAmins (d : BitVec 6) (c : BitVec 4) (x sr : BitVec 6) (e : BitVec 2) (s : State) : Host.Outcome State Fault Refusal := s.atomicInstr (.amins d c x sr e) c x sr 4 (oldWord d)

/-- AMINZ (R365). -/
def execAminz (d : BitVec 6) (c : BitVec 4) (x sr : BitVec 6) (e : BitVec 2) (s : State) : Host.Outcome State Fault Refusal := s.atomicInstr (.aminz d c x sr e) c x sr 5 (oldWord d)

/-- AMAXS (R365). -/
def execAmaxs (d : BitVec 6) (c : BitVec 4) (x sr : BitVec 6) (e : BitVec 2) (s : State) : Host.Outcome State Fault Refusal := s.atomicInstr (.amaxs d c x sr e) c x sr 6 (oldWord d)

/-- AMAXZ (R365). -/
def execAmaxz (d : BitVec 6) (c : BitVec 4) (x sr : BitVec 6) (e : BitVec 2) (s : State) : Host.Outcome State Fault Refusal := s.atomicInstr (.amaxz d c x sr e) c x sr 7 (oldWord d)

/-- AXCHG (R365). -/
def execAxchg (d : BitVec 6) (c : BitVec 4) (x sr : BitVec 6) (e : BitVec 2) (s : State) : Host.Outcome State Fault Refusal := s.atomicInstr (.axchg d c x sr e) c x sr 8 (oldWord d)

/-- ACAS (R365). -/
def execAcas (d : BitVec 6) (c : BitVec 4) (x sr : BitVec 6) (e : BitVec 2) (s : State) : Host.Outcome State Fault Refusal := s.atomicInstr (.acas d c x sr e) c x sr 9 (oldWord d)

/-- AADD64 (R365). -/
def execAadd64 (d : BitVec 6) (c : BitVec 4) (x sr : BitVec 6) (e : BitVec 2) (s : State) : Host.Outcome State Fault Refusal :=
  s.atomicInstr (.aadd64 d c x sr e) c x sr 10 (fun old => oldWord d old ++ [.v (d.toNat + 1) (BitVec.ofNat 32 (old / 2 ^ 32))])

/-- RADD (R365, R366). -/
def execRadd (c : BitVec 4) (x sr : BitVec 6) (e : BitVec 2) (s : State) : Host.Outcome State Fault Refusal := s.atomicInstr (.radd c x sr e) c x sr 14 (fun _ => [])

/-- RFADD (R236, R367). -/
def execRfadd (t : BitVec 2) (c : BitVec 4) (x sr : BitVec 6) (e : BitVec 2) (r : BitVec 3) (s : State) : Host.Outcome State Fault Refusal := s.atomicInstr (.rfadd t c x sr e r) c x sr (fpOp 0 t r) (fun _ => [])

/-- RFMIN (R236, R367). -/
def execRfmin (t : BitVec 2) (c : BitVec 4) (x sr : BitVec 6) (e : BitVec 2) (r : BitVec 3) (s : State) : Host.Outcome State Fault Refusal := s.atomicInstr (.rfmin t c x sr e r) c x sr (fpOp 1 t r) (fun _ => [])

/-- RFMAX (R236, R367). -/
def execRfmax (t : BitVec 2) (c : BitVec 4) (x sr : BitVec 6) (e : BitVec 2) (r : BitVec 3) (s : State) : Host.Outcome State Fault Refusal := s.atomicInstr (.rfmax t c x sr e r) c x sr (fpOp 2 t r) (fun _ => [])

/-- AFADD (R236, R367). -/
def execAfadd (d : BitVec 6) (c : BitVec 4) (x sr : BitVec 6) (e : BitVec 2) (r : BitVec 3) (s : State) : Host.Outcome State Fault Refusal := s.atomicInstr (.afadd d c x sr e r) c x sr (fpOp 0 0 r) (oldWord d)

end Sys2Proof.Machine
end

