-- ==== Sys2Proof/Machine/Starting.lean ====
section
/-! DEFINITION. A fibre's start (R132, R314) and the construction of a workgroup's registers. -/

namespace Sys2Proof.Machine

/-- The capability of the workgroup's scratchpad, or of the gang window (R132, R171, R225). -/
def localSpace (obj len : Nat) : Cap := ⟨true, BitVec.ofNat 20 obj, 0xDC#8, 2#4, 0, BitVec.ofNat 48 len⟩

/-- Every member of a crew: the reset value of %cmask (R132). -/
def fullMask (L : Launch) : DWord := if L.crew = 64 then 0xFFFFFFFFFFFFFFFF#64 else 0xFFFFFFFF#64

/-- The capability registers of a starting fibre, c12 aside (R132). -/
def startCaps (L : Launch) : List Cap :=
  List.replicate 13 Cap.null ++
    [{ L.args with tag := true }, localSpace 1 (if L.gangLog = 0 then 0 else 2 ^ L.gangLog * (L.sp * 65536)), localSpace 0 (L.sp * 65536)]

/-- A fibre that starts with its first frame in a segment (R132). -/
def Fibre.fresh (L : Launch) (fid seg : Nat) : Fibre :=
  { fid := fid, pc := BitVec.ofNat 32 (L.entry + 4), code := { L.code with tag := true },
    v := List.replicate L.regs 0, p := List.replicate 7 false, c := startCaps L, cmask := fullMask L,
    hchain := 0xFFFFFFFF#32, fmode := 0, fflags := 0, seg := seg, frameOff := 0x010, spare := none,
    age := 0, k := 0, readyAt := 0, out := [], infl := [], wait := .none, parked := none, arr := [], resp := none, lost := 0, mark := none, pend := none, copy := none, met := none }

/-- Start one fibre of a workgroup: its first frame takes a fresh segment; without one it ends by ABORT with tag 0x0E9 (R132, R314). -/
def State.startFibre (s : State) (L : Launch) (wgid core fid : Nat) : State :=
  match (s.asid L.asid).map (·.free) with
  | some (n :: rest) =>
    let s := (s.modAsid L.asid (fun d => { d with free := rest })).cupboardTake core L.asid n true
    let s := (s.initSeg L.asid n noLink 0x020 0).setHdr L.asid n 0x010 ⟨0xFFFFFFFF, 0x010, 0, 0⟩
    let s := s.modWg L.id wgid (fun g => { g with fibres := g.fibres ++ [Fibre.fresh L fid n] })
    s.setFrame ⟨L.id, wgid, fid⟩ n 0x010
  | _ => s.modLaunch L.id (fun L => { L with abortTag := if L.aborted = 0 then 0x0E9#12 else L.abortTag, aborted := L.aborted + 1 })

/-- A workgroup on a core, before its fibres start (R132, R156, R278). -/
def Wg.start (L : Launch) (wgid core : Nat) : Wg :=
  { launch := L.id, wgid := wgid, gang := L.gangOf wgid, core := core, placed := true, total := L.fibres, fibres := [],
    scratch := Mem.empty, acc := [], g := List.replicate 32 ⟨0, false, none, false⟩, retired := false }

/-- Start a workgroup on a core with all its fibres. -/
def State.startWg (s : State) (L : Launch) (wgid core : Nat) : State :=
  let s := { s with wgs := s.wgs ++ [Wg.start L wgid core] }
  s.over (List.range L.fibres) (fun s fid => s.startFibre L wgid core fid)

end Sys2Proof.Machine
end

