-- ==== Sys2Proof/Machine/Placer.lean ====
section
/-! DEFINITION. The placer: candidates and their order (R140), aligned groups (R139), pre-emption by priority, park eviction and quanta (R141 to R143), halting, saving and restoring (R145 to R147), retirement (R148), and co-resident launches (R149, R150, R152). -/

namespace Sys2Proof.Machine

/-! ## Cores and groups -/

/-- Workgroups of a gang. -/
def Launch.size (L : Launch) : Nat := 2 ^ L.gangLog

/-- Gangs of a launch. -/
def Launch.gangCount (L : Launch) : Nat := L.count / L.size

/-- The gang has its cores. -/
def Gang.onCores (g : Gang) : Bool :=
  match g.st with
  | .saved => false
  | .retired => false
  | _ => true

/-- The gang that has a core. -/
def State.occupant (s : State) (c : Nat) : Option Gang := s.gangs.find? (fun g => g.onCores && g.cores.contains c)

/-- No gang has the core. -/
def State.freeCore (s : State) (c : Nat) : Bool := (s.occupant c).isNone

/-- The aligned groups of a size; those of die 0 only in limited service (R100, R139). -/
def State.groups (s : State) (size : Nat) : List (List Nat) :=
  (List.range ((if s.limitedOnly then 128 else 512) / size)).map (fun k => (List.range size).map (fun j => size * k + j))

/-- The element with the least measure, the first of several. -/
def leastBy {α : Type} (m : α → Nat) (xs : List α) : Option α :=
  xs.foldl (fun (b : Option α) x => match b with
    | none => some x
    | some y => if m x < m y then some x else some y) none

/-- A candidate for placement (R140): the gangs that are placed together (all of a CORES launch, R152), whether they are restored, and its class. -/
structure Cand where
  launch : Nat
  gangs : List Nat
  saved : Bool
  cls : Nat
  prio : Nat
  queue : Nat
  size : Nat
  deriving DecidableEq, Repr

/-- A core is not held, or held for this candidate (R141). -/
def State.usable (s : State) (c : Cand) (core : Nat) : Bool :=
  s.holds.all (fun h => !h.cores.contains core || (h.launch == c.launch && c.gangs.contains h.gang))

/-- The core is held for this candidate. -/
def State.isHeldFor (s : State) (c : Cand) (core : Nat) : Bool :=
  s.holds.any (fun h => h.cores.contains core && h.launch == c.launch && c.gangs.contains h.gang)

/-- Free cores of the block of a core, without those already chosen. -/
def State.blockFree (s : State) (taken : List Nat) (core : Nat) : Nat :=
  ((List.range 8).filter (fun j => s.freeCore (8 * blockOf core + j) && !taken.contains (8 * blockOf core + j))).length

/-- A free group for a candidate (R139): one held for it if there is one, else in the block with the fewest free cores, else the lowest. -/
def State.freeGroup (s : State) (c : Cand) (taken : List Nat) : Option (List Nat) :=
  leastBy (fun g => (if g.all (s.isHeldFor c) then 0 else 8192) + 512 * s.blockFree taken (g.headD 0) + g.headD 0)
    ((s.groups c.size).filter (fun g => g.all (fun x => s.freeCore x && s.usable c x && !taken.contains x)))

/-! ## The context pool (R146, R147) -/

/-- Context images of 2 MiB + 21 KiB that fit the 16 GiB pool of a die. -/
def poolImages : Nat := 17179869184 / 2118656

/-- The gangs that are pre-empted with one: all of a CORES launch (R152). -/
def State.setOf (s : State) (g : Gang) : List Gang :=
  if (s.launch g.launch).any (·.cores) then s.gangs.filter (fun x => x.launch == g.launch && x.st == .running) else [g]

/-- The images of some gangs in the pool of a die. -/
def imagesOn (die : Nat) (gs : List Gang) : Nat := ((gs.filter (fun g => dieOf (g.cores.headD 0) == die)).map (fun g => g.cores.length)).sum

/-- The pools have room for the images of further gangs; there is no pool before FULL (R146, R147). -/
def State.poolRoom (s : State) (gs : List Gang) : Bool :=
  s.mg.full && (List.range 4).all (fun d =>
    decide (imagesOn d (s.gangs.filter (fun g => g.st == .halting || g.st == .saving || g.st == .saved || g.st == .restoring)) + imagesOn d gs ≤ poolImages))

/-- Ask that a gang give up its cores: HALTING, with all of its set (R137, R138, R152). -/
def State.preempt (s : State) (g : Gang) (toSleep : Bool) : State :=
  let set := (s.setOf g).filter (fun x => x.st == .running)
  { s with gangs := s.gangs.map (fun (x : Gang) => if set.contains x then { x with st := .halting, woken := false, toSleep := toSleep } else x) }

/-! ## Victims (R141) -/

/-- The gangs that occupy a group, each once. -/
def State.occupants (s : State) (g : List Nat) : List Gang := (g.filterMap s.occupant).dedup

/-- The priority of a gang's launch. -/
def State.prioOf (s : State) (g : Gang) : Nat := ((s.launch g.launch).map (·.prio)).getD 0

/-- An occupant gives up its cores for a candidate: a RUNNING gang of lower priority (R141), for a CORES launch at its hand-over a gang of lower priority in any state (R149), and one that is on its way out already, its cores being held for the candidate. -/
def State.givesWay (s : State) (c : Cand) (whole : Bool) (o : Gang) : Bool :=
  (decide (s.prioOf o < c.prio) && (whole || o.st == .running)) || ((o.st == .halting || o.st == .saving) && o.cores.all (s.isHeldFor c))

/-- The sets that are pre-empted with some gangs: those that are RUNNING (R152). -/
def State.victimSets (s : State) (os : List Gang) : List Gang := ((os.filter (fun o => o.st == .running)).flatMap s.setOf).dedup

/-- A group that a candidate could have once its occupants have given way, with room for their images (R141, R147). -/
def State.canClear (s : State) (c : Cand) (whole : Bool) (taken g : List Nat) : Bool :=
  let os := s.occupants g
  g.all (fun x => s.usable c x && !taken.contains x) && os.all (s.givesWay c whole) && (s.victimSets os == [] || s.poolRoom (s.victimSets os))

/-- The group whose occupants are pre-empted for a candidate. -/
def State.victimGroup (s : State) (c : Cand) (whole : Bool) (taken : List Nat) : Option (List Nat) :=
  leastBy (fun g => ((s.occupants g).map s.prioOf).foldl max 0 * 8192 + (s.occupants g).length * 512 + g.headD 0)
    ((s.groups c.size).filter (s.canClear c whole taken))

/-- Groups for so many gangs, each found by a choice that is given the cores taken before. -/
def takeGroups (pick : List Nat → Option (List Nat)) : Nat → List Nat → Option (List (List Nat))
  | 0, _ => some []
  | n + 1, taken => match pick taken with
    | none => none
    | some g => (takeGroups pick n (taken ++ g)).map (g :: ·)

/-- Free groups for a whole candidate. -/
def State.fit (s : State) (c : Cand) : Option (List (List Nat)) :=
  if 512 < c.gangs.length * c.size then none else takeGroups (s.freeGroup c) c.gangs.length []

/-- Groups for a whole candidate, free ones first and then those of victims (R141, R149). -/
def State.claimable (s : State) (c : Cand) (whole : Bool) : Option (List (List Nat)) :=
  if 512 < c.gangs.length * c.size then none
  else match takeGroups (fun t => (s.freeGroup c t).orElse (fun _ => s.victimGroup c whole t)) c.gangs.length [] with
    | none => none
    | some gs => if s.poolRoom (s.victimSets (gs.flatMap s.occupants)) ∨ s.victimSets (gs.flatMap s.occupants) = [] then some gs else none

/-- Hold the groups for a candidate and pre-empt what stands on them (R141). -/
def State.claimGroups (s : State) (c : Cand) (gs : List (List Nat)) : State :=
  let s : State := { s with holds := s.holds ++ (c.gangs.zip gs).map (fun x => Hold.mk x.2 c.launch x.1) }
  s.over (gs.flatMap s.occupants).dedup (fun s o => s.preempt o false)

/-! ## Candidates (R140) -/

/-- The live fibres of a gang. -/
def State.gangFibres (s : State) (g : Gang) : List Fibre := (s.wgs.filter (fun w => w.launch == g.launch && w.gang == g.index)).flatMap (·.fibres)

/-- The lowest gang of a launch that has not retired: it holds the lowest-numbered unfinished workgroup. -/
def State.lowest (s : State) (L : Launch) : Nat :=
  ((s.gangs.filter (fun g => g.launch == L.id && g.st != .retired)).map (·.index)).foldl min L.nextGang

/-- The candidates of a launch. -/
def State.candsOf (s : State) (L : Launch) : List Cand :=
  let low := s.lowest L
  let mk (gs : List Nat) (saved : Bool) : Cand := ⟨L.id, gs, saved, if gs.contains low then 0 else if saved then 1 else 2, L.prio, L.queue, L.size⟩
  let mine := s.gangs.filter (fun g => g.launch == L.id && g.st != .retired)
  if !L.placedLaunch then []
  else if L.cores then
    if L.nextGang < L.gangCount then [mk (List.range L.gangCount) false]
    else if mine ≠ [] ∧ mine.all (fun g => g.st == .saved) then [mk (mine.map (·.index)) true]
    else []
  else
    (mine.filter (fun g => g.st == .saved && (!g.asleep || (s.gangFibres g).isEmpty))).map (fun g => mk [g.index] true) ++ (if L.nextGang < L.gangCount then [mk [L.nextGang] false] else [])

/-- The place of a candidate in the order of R140. -/
def State.rank (s : State) (c : Cand) : Nat :=
  let dist := (c.queue + 2047 - s.cursors.getD c.prio 1023) % 1024
  ((((7 - c.prio) * 3 + c.cls) * 1024 + dist) * 2 ^ 64 + c.launch) * 2 ^ 32 + c.gangs.headD 0

/-- Insert a candidate by its rank. -/
def insertCand (m : Cand → Nat) (c : Cand) : List Cand → List Cand
  | [] => [c]
  | x :: xs => if m c < m x then c :: x :: xs else x :: insertCand m c xs

/-- The candidates in the order in which they are offered cores. -/
def State.cands (s : State) : List Cand := (s.launches.flatMap s.candsOf).foldr (insertCand s.rank) []

/-- A candidate has cores held for it. -/
def State.hasHold (s : State) (c : Cand) : Bool := s.holds.any (fun h => h.launch == c.launch && c.gangs.contains h.gang)

/-- The cores held for a candidate, with such as are free, will serve it once their gangs are SAVED (R141). -/
def State.holdFits (s : State) (c : Cand) : Bool :=
  s.hasHold c && (takeGroups (fun t => (s.groups c.size).find? (fun g => g.all (fun x => (s.isHeldFor c x || (s.freeCore x && s.usable c x)) && !t.contains x))) c.gangs.length []).isSome

/-- The holds of a candidate end when their last victim is SAVED and they cannot serve it, being too small for it (R141). -/
def State.pruneHolds (s : State) : State :=
  let idle (c : Cand) : Bool := (s.holds.filter (fun h => h.launch == c.launch && c.gangs.contains h.gang)).all (fun h => h.cores.all s.freeCore)
  let ended := s.cands.filter (fun c => s.hasHold c && idle c && (s.fit c).isNone)
  { s with holds := s.holds.filter (fun h => !ended.any (fun (c : Cand) => h.launch == c.launch && c.gangs.contains h.gang)) }

/-- The barrier units that a CORES launch needs on some dies: level, number, die and mask (R150). -/
def Launch.unitsOn (L : Launch) (dies : List Nat) : List (Nat × Nat × Nat × BitVec 16) :=
  (L.hier.filter (fun e => decide (5 ≤ e.domain))).flatMap (fun e => (List.range e.barriers).flatMap (fun i =>
    if e.domain = 5 then dies.map (fun d => (5, i, d, 0)) else [(e.domain, i, 0, if e.domain = 6 then 0 else BitVec.ofNat 16 e.extent)]))

/-- The dies of some groups. -/
def groupDies (gs : List (List Nat)) : List Nat := (gs.map (fun g => dieOf (g.headD 0))).dedup

/-- None of the units is bound to another launch. -/
def State.unitsFree (s : State) (l : Nat) (us : List (Nat × Nat × Nat × BitVec 16)) : Bool :=
  us.all (fun x => s.units.all (fun u => u.launch == l || !(u.level == x.1 && u.num == x.2.1 && u.die == x.2.2.1)))

/-- The barrier units of a CORES candidate can be bound on the dies of these groups. -/
def State.unitsServe (s : State) (c : Cand) (gs : List (List Nat)) : Bool :=
  match s.launch c.launch with
  | none => true
  | some L => !L.cores || s.unitsFree L.id (L.unitsOn (groupDies gs))

/-- What the placer does next for a candidate: place it on groups, or claim groups for it, unless the cores held for it will do. -/
def State.offer (s : State) (c : Cand) : Option (Bool × List (List Nat)) :=
  match (s.fit c).filter (s.unitsServe c) with
  | some gs => some (true, gs)
  | none => if s.holdFits c then none else ((s.claimable c false).filter (fun gs => s.unitsServe c gs && gs.any (fun g => !(s.victimSets (s.occupants g)).isEmpty))).map (fun gs => (false, gs))

/-- The first candidate in order for which the placer can do something. -/
def State.placeNext (s : State) : Option (Cand × Bool × List (List Nat)) :=
  s.cands.findSome? (fun c => (s.offer c).map (fun x => (c, x)))

/-! ## Placement -/

/-- Bind a unit: arrivals held for it count if the mask holds their origin, and are discarded if not (R150). -/
def State.bindUnit (s : State) (l : Nat) (x : Nat × Nat × Nat × BitVec 16) : State :=
  let mine (a : HeldArrival) : Bool := a.level == x.1 && a.num == x.2.1
  let s : State := { s with heldArrivals := s.heldArrivals.filter (fun a => !mine a || x.2.2.2.getLsbD a.origin) }
  { s with
    units := s.units ++ [⟨x.1, x.2.1, x.2.2.1, l, x.2.2.2, false, s.heldFor x.1 x.2.1 false, false⟩],
    heldArrivals := s.heldArrivals.filter (fun a => !(mine a && a.phase == false)) }

/-- Bind those units of a CORES launch that it has not got yet (R150). -/
def State.bindUnits (s : State) (L : Launch) (gs : List (List Nat)) : State :=
  s.over ((L.unitsOn (groupDies gs)).filter (fun x => !s.units.any (fun u => u.launch == L.id && u.level == x.1 && u.num == x.2.1 && u.die == x.2.2.1))) (fun s x => s.bindUnit L.id x)

/-- The units of a CORES launch as it is placed: those that its hand-over took on dies which hold none of its gangs are free again, and those of the dies that do are bound (R150). -/
def State.placeUnits (s : State) (L : Launch) (gs : List (List Nat)) : State :=
  if !L.cores then s
  else State.bindUnits { s with units := s.units.filter (fun u => !(u.launch == L.id && u.level == 5 && !(groupDies gs).contains u.die)) } L gs

/-- A gang starts on a group: RUNNING, its quantum begins, and every workgroup starts with all its fibres (R132, R137, R143). -/
def State.startGang (s : State) (L : Launch) (k : Nat) (cores : List Nat) : State :=
  let s : State := { s with gangs := s.gangs ++ [⟨L.id, k, .running, cores, false, false, false, s.ticks + 2000000, s.ticks⟩] }
  s.over ((List.range cores.length).zip cores) (fun s x => (s.acquire x.2).startWg L (L.size * k + x.1) x.2)

/-- A saved gang is given a group, from which it will run once its image is loaded. -/
def State.restoreOn (s : State) (L : Launch) (k : Nat) (cores : List Nat) : State :=
  let s := s.modGang L.id k (fun g => { g with st := .restoring, cores := cores })
  { s with wgs := s.wgs.map (fun (g : Wg) => if g.launch == L.id && g.gang == k then { g with core := cores.getD (g.wgid % L.size) 0 } else g) }

/-- Place a candidate: its holds end, and the cursor of its priority moves to its queue (R139, R140). -/
def State.placeCand (s : State) (c : Cand) (gs : List (List Nat)) : State :=
  match s.launch c.launch with
  | none => s
  | some L =>
    let s : State := { s with holds := s.holds.filter (fun h => !(h.launch == c.launch && c.gangs.contains h.gang)), cursors := s.cursors.set c.prio c.queue }
    if c.saved then (if L.cores then s.bindUnits L gs else s).over (c.gangs.zip gs) (fun s x => s.restoreOn L x.1 x.2)
    else
      let s := s.modLaunch L.id (fun L => { L with nextGang := L.nextGang + c.gangs.length })
      (s.placeUnits L gs).over (c.gangs.zip gs) (fun s x => s.startGang L x.1 x.2)

/-- GANG_PLACEMENT (R139 to R141): one candidate is placed, or groups are claimed for one. -/
def execGangPlacement (s : State) : Host.Outcome State Fault Refusal :=
  .next (match s.placeNext with
    | none => s
    | some (c, true, gs) => (s.placeCand c gs).pruneHolds
    | some (c, false, gs) => s.claimGroups c gs)

/-! ## Park eviction (R142) -/

/-- The fibre waits in WAITM, for a reply, or in the Hamper. -/
def Wait.parks (w : Wait) : Bool :=
  match w with
  | .cell .. => true
  | .reply _ => true
  | .hamper .. => true
  | _ => false

/-- Every live fibre of a RUNNING gang has been parked for 20 µs without a break. -/
def State.evictable (s : State) (g : Gang) : Bool :=
  let fs := s.gangFibres g
  g.st == .running && !fs.isEmpty && fs.all (fun f => f.wait.parks && f.parked.any (fun t => decide (max t g.since + 20000 ≤ s.ticks)))

/-- The gang with the highest index among some. -/
def highest (gs : List Gang) : Option Gang := leastBy (fun g => 2 ^ 32 - g.index) gs

/-- The next eviction: the first candidate of a launch that neither a free group nor R141 nor cores held for it serve, and the gang of the launch that makes room for it. -/
def State.evictNext (s : State) : Option (Cand × Gang) :=
  let cs := s.cands
  (cs.filter (fun c => cs.find? (fun d => d.launch == c.launch) == some c && (s.fit c).isNone && !s.holdFits c && (s.claimable c false).isNone)).findSome? (fun c =>
    if (s.launch c.launch).any (·.cores) then none
    else (highest (s.gangs.filter (fun g => g.launch == c.launch && s.evictable g && s.poolRoom [g]))).map (fun g => (c, g)))

/-- PARK_EVICTION (R142). -/
def execParkEviction (s : State) : Host.Outcome State Fault Refusal :=
  .next (match s.evictNext with
    | none => s
    | some (c, g) => State.preempt { s with holds := s.holds ++ [Hold.mk g.cores c.launch (c.gangs.headD 0)] } g true)

/-! ## Quanta (R143) -/

/-- The first candidate of a gang's priority and another queue that fits no free group. -/
def State.rival (s : State) (g : Gang) : Option Cand :=
  match s.launch g.launch with
  | none => none
  | some L => s.cands.find? (fun c => c.prio == L.prio && c.queue != L.queue && (s.fit c).isNone)

/-- QUANTUM_EXPIRY (R143): the gang is pre-empted for the rival, or a new quantum starts. -/
def execQuantumExpiry (launch gang : Nat) (s : State) : Host.Outcome State Fault Refusal :=
  .next (match s.gang launch gang with
    | none => s
    | some g =>
      if g.st ≠ .running ∨ s.ticks < g.quantumEnd then s
      else match (if s.poolRoom (s.setOf g) then s.rival g else none) with
        | some c => State.preempt { s with holds := s.holds ++ [Hold.mk ((s.setOf g).flatMap (·.cores)) c.launch (c.gangs.headD 0)] } g false
        | none => s.modGang launch gang (fun g => { g with quantumEnd := s.ticks + 2000000 }))

/-! ## Halting and saving (R145, R146) -/

/-- Every core of a HALTING gang is at an instruction boundary and no tile access that has latched lines is unfinished. -/
def State.halted (s : State) (g : Gang) : Bool :=
  g.st == .halting && (match s.launch g.launch with
    | none => false
    | some L => s.tiles.all (fun t => !(t.launch == g.launch && L.gangOf t.wgid == g.index) || t.granted.isEmpty))

/-- A fibre of a halted core: its issued instructions have had their register effects, and a sleep is its remaining time (R145). -/
def Fibre.halt (now : Nat) (f : Fibre) : Fibre :=
  let f := f.settleAll
  match f.wait with
  | .sleep til => { f with wait := .sleep (til - now) }
  | _ => f

/-- Change every fibre of a gang. -/
def State.mapGang (s : State) (l k : Nat) (f : Fibre → Fibre) : State :=
  { s with wgs := s.wgs.map (fun (g : Wg) => if g.launch == l && g.gang == k then { g with fibres := g.fibres.map f } else g) }

/-- The commands and tile accesses of a workgroup go on from where they stopped, those of the Mangle at the new core, whose rotation goes on from the queue of the one that was running (R268). -/
def State.continueCmds (s : State) (l w core : Nat) : State :=
  let mine (c : Command) : Bool := c.launch == l && c.wgid == w
  let s : State := { s with
    cmds := s.cmds.map (fun (c : Command) => if mine c then { c with core := core, eng := match c.eng with
      | .mangle _ => .mangle core
      | e => e } else c),
    tiles := s.tiles.map (fun (t : TileOp) => if t.launch == l && t.wgid == w then { t with core := core } else t) }
  let s := s.over (s.cmds.filter (fun c => mine c && (c.st == .running || c.st == .finished))) (fun (s : State) (c : Command) =>
    (match c.eng with
      | .mangle n => if c.st = CmdSt.running then s.modCore n (fun x => { x with mangleLast := c.q }) else s
      | _ => s).poke 1 c.id)
  let s := s.over (s.exchs.filter (fun e => e.launch == l && e.wgid == w && e.calendar.isSome && !e.landed && s.exchRuns e)) State.landCalendar
  s.over ((s.cmds.filter mine).map (·.eng)).dedup State.serve

/-- The fibres of a gang that was to give up its cores have all ended: it is RETIRING, no image is written for it, and its stopped commands go on (R138). -/
def State.toRetiring (s : State) (g : Gang) : State :=
  (s.modGang g.launch g.index (fun g => { g with st := .retiring })).over (s.wgs.filter (fun w => w.launch == g.launch && w.gang == g.index)) (fun s w => s.continueCmds w.launch w.wgid w.core)

/-- CORE_HALT (R138, R145): the gang enters SAVING, or RETIRING when all its fibres have ended. -/
def execCoreHalt (launch gang : Nat) (s : State) : Host.Outcome State Fault Refusal :=
  .next (match s.gang launch gang with
    | none => s
    | some g =>
      if !s.halted g then s
      else if s.gangFibres g = [] then s.toRetiring g
      else (s.mapGang launch gang (Fibre.halt s.ticks)).modGang launch gang (fun g => { g with st := .saving }))

/-- Every core of a gang has released at system scope. -/
def State.gangReleased (s : State) (g : Gang) : Bool := g.cores.all (fun c => (s.releaseAll c 5).2)

/-- The dirty segments of a gang are written to the Attic: those that its fibres hold, and those of its ASID in the Cupboards of its cores, continuation records and captured segments among them (R146). -/
def State.toAttic (s : State) (g : Gang) : State :=
  let a := s.asidOf g.launch
  let segs := (s.wgs.filter (fun w => w.launch == g.launch && w.gang == g.index)).flatMap (fun w => w.fibres.flatMap (fun f => s.heldSegs ⟨w.launch, w.wgid, f.fid⟩ f))
  { s with cores := s.cores.map (fun (c : Core) => { c with cupboard := c.cupboard.map (fun (x : CupSeg) =>
    if x.asid == a && (g.cores.contains c.id || segs.contains x.seg) then { x with dirty := false } else x) }) }

/-- CONTEXT_IMAGE_SAVED (R137, R138, R146): the cores have released and become free; the gang sleeps if it was evicted and nothing has woken it. No image is written for a gang whose fibres have all ended. -/
def execContextImageSaved (launch gang : Nat) (s : State) : Host.Outcome State Fault Refusal :=
  .next (match s.gang launch gang with
    | none => s
    | some g =>
      if g.st ≠ .saving then s
      else if s.gangFibres g = [] then s.toRetiring g
      else if !s.gangReleased g then s
      else
        let s := s.over g.cores (fun s c => (s.releaseAll c 5).1)
        let s := (s.toAttic g).modGang launch gang (fun g => { g with st := .saved, asleep := g.toSleep && !g.woken })
        State.pruneHolds { s with wgs := s.wgs.map (fun (w : Wg) => if w.launch == launch && w.gang == gang then { w with placed := false } else w) })

/-! ## Restoring (R139, R147) -/

/-- A fibre as its gang goes on: what waited for its old core asks again, its age counts anew (R162), and a sleep ends after its remaining time. -/
def Fibre.restore (now : Nat) (f : Fibre) : Fibre :=
  let f := { f with age := 0, mark := none }
  match f.wait with
  | .icache .. => { f with wait := .none }
  | .cupboard .. => { f with wait := .none }
  | .walk .. => { f with wait := .none }
  | .latch _ => { f with wait := .none }
  | .unacked => { f with wait := .none }
  | .queue => { f with wait := .none }
  | .sleep left => { f with wait := .sleep (now + left) }
  | _ => f

/-- Fibres whose reply has arrived take it up (R90). -/
def State.takeReplies (s : State) (l w : Nat) : State :=
  let a := s.asidOf l
  s.over (s.allFibres.filter (fun x => x.1.launch == l && x.1.wgid == w)) (fun s x =>
    match x.2.wait with
    | .reply seg => if recReply (s.recWord a seg) = 1 then s else s.finishReply x.1 seg
    | _ => s)

/-- A gang is RUNNING on its new cores; when they are held for a CORES launch that has counted them, it is pre-empted again (R141, R149). -/
def State.runAgain (s : State) (g : Gang) : State :=
  let s := s.modGang g.launch g.index (fun g => { g with st := .running, asleep := false, woken := false, toSleep := false, quantumEnd := s.ticks + 2000000, since := s.ticks })
  let s := s.mapGang g.launch g.index (Fibre.restore s.ticks)
  let ws := s.wgs.filter (fun w => w.launch == g.launch && w.gang == g.index)
  let s : State := { s with wgs := s.wgs.map (fun (w : Wg) => if w.launch == g.launch && w.gang == g.index then { w with placed := true } else w) }
  let s := (s.over ws (fun s w => ((s.acquire w.core).continueCmds w.launch w.wgid w.core).takeReplies w.launch w.wgid)).tilesAgain.retry
  if s.holds.any (fun h => h.launch != g.launch && g.cores.any (h.cores.contains ·)) then (match s.gang g.launch g.index with
    | none => s
    | some x => s.preempt x false)
  else s

/-- GANG_RESTORATION (R147, R152): the image is loaded; the gangs of a CORES launch go on together. -/
def execGangRestoration (launch gang : Nat) (s : State) : Host.Outcome State Fault Refusal :=
  .next (match s.gang launch gang with
    | none => s
    | some g =>
      if g.st ≠ .restoring then s
      else if (s.launch launch).any (·.cores) then s.over (s.gangs.filter (fun x => x.launch == launch && x.st == .restoring)) State.runAgain
      else s.runAgain g)

/-! ## Retirement (R148) -/

/-- The lines of dropped tile accesses are free: what waited for them goes on. -/
def State.tilesDropped (s : State) (p : TileOp → Bool) : State :=
  let gone := s.tiles.filter p
  let s : State := { s with tiles := s.tiles.filter (fun t => !p t) }
  (s.endWaits (fun w => match w with
    | .latch line => gone.any (fun t => t.granted.contains line)
    | _ => false)).tilesAgain.retry

/-- A gang whose dirty line or image is lost ends, without an image, and counts as retired; its segments return to the heap, the launch's other gangs run on, and the launch will complete with code 0x13 (R107, R137, R147, R148). -/
def State.endGang (s : State) (l k : Nat) : State :=
  let mine (w : Wg) : Bool := w.launch == l && w.gang == k
  let ws := (s.wgs.filter mine).map (·.wgid)
  let s := s.over ((s.allFibres.filter (fun x => x.1.launch == l && ws.contains x.1.wgid)).map (·.1)) (fun s id => s.endFibre id none)
  let s := s.over (s.cmds.filter (fun c => c.launch == l && ws.contains c.wgid && c.onScratch)) (fun s c => s.dropCmd c)
  let s : State := { s with wgs := s.wgs.filter (fun w => !mine w), hurts := s.hurts.filter (fun h => h != .gang l k) }
  let s := (s.modGang l k (fun g => { g with st := .retired })).modLaunch l (fun L => { L with lost := true })
  ((s.tilesDropped (fun t => t.launch == l && ws.contains t.wgid)).settleBarriers l).pruneHolds

/-- Nothing is outstanding at a workgroup's scratchpad, and no load. -/
def State.wgClear (s : State) (g : Wg) : Bool :=
  s.cmds.all (fun c => !(c.launch == g.launch && c.wgid == g.wgid && c.onScratch)) && s.tiles.all (fun t => !(t.launch == g.launch && t.wgid == g.wgid)) &&
  s.txs.all (fun t => match t.kind with
    | .load f _ => !(f.launch == g.launch && f.wgid == g.wgid)
    | .atomic f _ => !(f.launch == g.launch && f.wgid == g.wgid)
    | _ => true) &&
  s.htxs.all (fun t => match t.kind with
    | .load f _ => !(f.launch == g.launch && f.wgid == g.wgid)
    | _ => true)

/-- Every fibre of a RUNNING gang has ended. -/
def State.endedGang (s : State) (g : Gang) : Bool := g.st == .running && (s.gangFibres g).isEmpty

/-- The gang's workgroups have all retired: its cores become free (R137, R148). -/
def State.retireGang (s : State) (l k : Nat) : State :=
  let mine (w : Wg) : Bool := w.launch == l && w.gang == k
  if (s.wgs.filter mine).all (·.retired) then
    (State.modGang { s with wgs := s.wgs.filter (fun w => !mine w) } l k (fun g => { g with st := .retired })).pruneHolds
  else s

/-- WORKGROUP_RETIREMENT (R107, R137, R148): a gang that has lost data ends; with the end of its last fibre a gang is RETIRING; a workgroup whose fibres have ended retires once nothing is outstanding. -/
def execWorkgroupRetirement (launch wgid : Nat) (s : State) : Host.Outcome State Fault Refusal :=
  .next (match s.wg launch wgid with
    | none => s
    | some w =>
      if s.hurts.contains (.gang launch w.gang) then s.endGang launch w.gang
      else if w.fibres ≠ [] then s
      else
        let s := match s.gang launch w.gang with
          | none => s
          | some g => if s.endedGang g then s.modGang launch w.gang (fun g => { g with st := .retiring }) else s
        if s.wgClear w then (s.modWg launch wgid (fun w => { w with retired := true })).retireGang launch w.gang else s)

/-- The launch's gangs have all been placed and have retired. -/
def State.allRetired (s : State) (L : Launch) : Bool :=
  decide (L.gangCount ≤ L.nextGang) && s.gangs.all (fun g => g.launch != L.id || g.st == .retired)

/-- End every gang of an ASID's launches without an image (R107, R143): the launches complete with code 0x13. -/
def State.endLaunch (s : State) (l : Nat) : State :=
  let s := s.over (s.cmds.filter (fun c => c.launch == l && c.onScratch)) (fun s c => s.dropCmd c)
  let s : State := { s with
    wgs := s.wgs.filter (fun w => w.launch != l), tiles := s.tiles.filter (fun t => t.launch != l), holds := s.holds.filter (fun h => h.launch != l),
    gangs := s.gangs.map (fun (g : Gang) => if g.launch == l then { g with st := .retired } else g) }
  (s.modLaunch l (fun L => { L with nextGang := L.gangCount, lost := true })).tilesAgain

/-! ## Wide barriers (R149, R150) -/

/-- The candidate that a CORES launch is at hand-over (R149). -/
def Launch.whole (L : Launch) : Cand := ⟨L.id, List.range L.gangCount, false, 0, L.prio, L.queue, L.size⟩

/-- The groups on which a CORES launch can be placed at once, if its barrier units are free as well (R149). -/
def State.wholePlan (s : State) (L : Launch) : Option (List (List Nat)) :=
  if 512 < L.count then none
  else (s.claimable L.whole true).filter (fun gs => s.unitsFree L.id (L.unitsOn (groupDies gs)))

/-- A CORES launch is taken: its groups are held, their occupants pre-empted, and its units bound, so that no other launch takes them before it is placed (R149, R150). -/
def State.takeWhole (s : State) (L : Launch) (gs : List (List Nat)) : State := (s.claimGroups L.whole gs).bindUnits L gs

end Sys2Proof.Machine
end

