-- ==== Sys2Proof/Machine/Queues.lean ====
section
/-! DEFINITION. Launch queues and the dispatcher: bindings (R111, R112), consumption (R114, R115), the checks of a record (R118 to R125, R130, R131, R133), dependences and counts (R128, R129), hand-over (R135, R136, R149) and completion (R126, R127, R151). -/

namespace Sys2Proof.Machine

/-! ## Control blocks and bindings (R111, R112) -/

/-- The physical address of an offset of a queue's control block. -/
def State.ctlPA (s : State) (b : Binding) (o : Nat) : Option Nat := s.paOf b.asid b.ctlObj (b.ctlOff + o)

/-- A tile access holds the line of a queue's control block: a write to it waits (R242). -/
def State.ctlHeld (s : State) (b : Binding) : Bool := (s.ctlPA b 0).any s.latched

/-- Write a doubleword of a queue's control block. -/
def State.ctlWrite (s : State) (b : Binding) (o v : Nat) : State :=
  match s.ctlPA b o with
  | none => s
  | some pa => s.homeStore (s.keyOf b.asid) pa (natBytes 8 v)

/-- TAIL of a queue. -/
def State.tailOf (s : State) (b : Binding) : Nat :=
  match s.ctlPA b 0 with
  | none => 0
  | some pa => bytesNat (s.rd (s.keyOf b.asid) pa 8)

/-- QUEUE_BIND (R111, R112): TAIL, HEAD and LASTERR become zero. -/
def execQueueBind (q : Fin 1024) (b : Binding) (s : State) : Host.Outcome State Fault Refusal :=
  .next (
    if !s.supervised ∨ (s.queue q.val).isSome ∨ b.ringOff % 256 ≠ 0 ∨ b.ctlOff % 64 ≠ 0 ∨ b.log2size < 2 ∨ 16 < b.log2size ∨ 7 < b.pcap ∨ (s.ctlPA b 0).isNone then s
    else if s.ctlHeld b then s.later 1000 (.queueBind q b)
    else
      let s := ((s.ctlWrite b 0 0).ctlWrite b 8 0).ctlWrite b 16 0
      { s with queues := s.queues ++ [⟨q.val, b, .idle, 0, [], [], none, none, none, false, false⟩] })

/-- The queue holds a record between consumption and completion. -/
def State.queueBusy (s : State) (x : Queue) : Bool := (x.st != .idle && x.st != .waitReady) || s.launches.any (fun L => L.queue == x.q)

/-- QUEUE_UNBIND (R111). -/
def execQueueUnbind (q : Fin 1024) (s : State) : Host.Outcome State Fault Refusal :=
  .next (match s.queue q.val with
    | none => s
    | some x => if !s.supervised ∨ s.queueBusy x then s else { s with queues := s.queues.filter (fun y => y.q != q.val) })

/-! ## Reads of the dispatcher (R131) -/

/-- What a read of the dispatcher gives: held while a tile store holds the line (R242). -/
inductive DRead where
  | bytes (bs : List Byte)
  | lost
  | away
  | held
  | wrong (t : BitVec 12)
  deriving DecidableEq, Repr

/-- Read n bytes of an object at their home slice: away when the region is not resident. -/
def State.dRead (s : State) (asid obj off n : Nat) : DRead :=
  match s.xlatNow false ⟨asid, obj, off, n, false, false⟩ with
  | .pa p _ => if s.spanLatched false (.mem [(p, n)]) then .held else if s.isBad p n then .lost else .bytes (s.rd (s.keyOf asid) p n)
  | .fault t => if t = 0x0D1#12 ∨ t = 0x0D2#12 then .away else .wrong t
  | .lost _ => .lost
  | _ => .wrong 0x0C2#12

/-- The report of a read that found data lost (R107). -/
def State.logRead (s : State) (asid obj off n : Nat) : State :=
  match s.xlatNow false ⟨asid, obj, off, n, false, false⟩ with
  | .pa p _ => s.logLost asid [(p, n)]
  | .lost a => s.logAddr asid a
  | _ => s

/-- A number that the dispatcher reads. -/
def DRead.num (r : DRead) : Option Nat :=
  match r with
  | .bytes bs => some (bytesNat bs)
  | _ => none

/-- The queue waits for a region in the Hamper of die 0 (R131, R214). -/
def State.stallQueue (s : State) (q asid obj off : Nat) : State :=
  let k := keyAt asid obj off false
  let s := s.hamperEnter 0 k
  s.modQueue q (fun x => { x with stall := some (0, s.hamperNum 0 k) })

/-! ## The record's fields (R118 to R124) -/

/-- A field of a record. -/
def recNum (raw : List Byte) (o n : Nat) : Nat := bytesNat ((raw.drop o).take n)

/-- A capability of a record with the tag of its granule. -/
def recCap (raw : List Byte) (tags : List Bool) (o : Nat) : Cap := Cap.ofBits (tags.getD (o / 16) false) (recNum raw o 16)

/-- The hierarchy words of a record. -/
def hierWords (raw : List Byte) : List Nat := (List.range 8).map (fun i => recNum raw (0xC0 + 4 * i) 4)

/-- A HIERARCHY entry (R124). -/
def levelOf (w : Nat) : Level := ⟨w % 16, w / 16 % 16, w / 256 % 256, w / 65536⟩

/-- A ring unit at the placement of the first gang (R263). -/
def freshRings : List Ring := List.replicate 64 ⟨List.replicate 16 none, 0, 0⟩

/-- The launch of a consumed record, under a number, the queue's binding, and the ACCEPT word that applies to it (R103, R119 to R125). -/
def launchOf (id : Nat) (x : Queue) (accept : Word) (raw : List Byte) (tags : List Bool) : Launch :=
  let flags := recNum raw 0 4
  let shape := recNum raw 0x0C 4
  let part := recNum raw 0x4C 4
  let crew := if bitsOf shape 8 1 = 1 then 64 else 32
  let fibres := shape / 65536
  let words := hierWords raw
  { id := id, queue := x.q, slot := x.n, asid := x.binding.asid, prio := min (bitsOf flags 13 3) x.binding.pcap,
    schk := bitsOf flags 9 1 == 1, check := bitsOf flags 8 1 == 1, early := bitsOf flags 10 1 == 1, cores := bitsOf flags 11 1 == 1, indirect := bitsOf flags 12 1 == 1,
    regs := shape % 256, crew := crew, gangLog := bitsOf shape 9 3, fibres := fibres,
    rf := bitsOf part 0 5, sp := bitsOf part 5 5, ac := bitsOf part 10 5,
    gridX := recNum raw 0x40 4, gridY := recNum raw 0x44 4, gridZ := recNum raw 0x48 4, count := recNum raw 0x40 4 * recNum raw 0x44 4 * recNum raw 0x48 4,
    entry := recNum raw 8 4, code := recCap raw tags 0x10, args := recCap raw tags 0x20, event := recCap raw tags 0x30,
    compOff := recNum raw 0x50 4, compVal := BitVec.ofNat 32 (recNum raw 0x54 4),
    dep0 := (recNum raw 0x58 4, BitVec.ofNat 32 (recNum raw 0x5C 4)), dep1 := (recNum raw 0x60 4, BitVec.ofNat 32 (recNum raw 0x64 4)),
    indOff := recNum raw 0x68 4, indMax := recNum raw 0x6C 4,
    formats := (List.range 8).map (fun i => BitVec.ofNat 64 (recNum raw (0x80 + 8 * i) 8)),
    hier := if words.all (· == 0) then [⟨2, 0, 1, crew⟩, ⟨3, 0, 16, fibres / crew⟩, ⟨4, 1, 8, 2 ^ bitsOf shape 9 3⟩] else (words.map levelOf).filter (fun e => e.domain != 0),
    accept := accept, placedLaunch := false, nextGang := 0, aborted := 0, abortTag := 0, lost := false, refusal := 0, rings := freshRings, stall := none, unfit := false }

/-! ## The checks (R120 to R125, R131) -/

/-- A capability of a record meets its conditions (R120). -/
def State.recordCap (s : State) (b : Binding) (c : Cap) (kinds : List (BitVec 4)) (rights : List Nat) : Bool :=
  kinds.contains c.kind && c.has rights && (b.trusted || (c.tag && c.has [rG])) &&
  (match s.entry b.asid c.obj.toNat with
    | none => false
    | some e => decide (1 ≤ e.typ) && decide (e.typ ≤ 5) && !(e.typ == 5 && e.peerPos == s.pos) && decide (c.base.toNat + c.len.toNat ≤ e.size))

/-- EVENT and the offsets in it: check 0x69. -/
def State.eventOk (s : State) (b : Binding) (L : Launch) : Bool :=
  s.recordCap b L.event [0#4, 4#4] [rR, rW, rA] && [L.compOff, L.dep0.1, L.dep1.1].all (fun o => o % 8 == 0 && decide (o + 8 ≤ L.event.len.toNat))

/-- VERSION and the reserved fields: check 0x60. -/
def versionOk (raw : List Byte) : Bool :=
  let flags := recNum raw 0 4
  flags % 256 == 2 && flags / 65536 == 0 && bitsOf (recNum raw 0x0C 4) 12 4 == 0 && recNum raw 0x70 16 == 0 && recNum raw 0xE0 32 == 0

/-- Element code and scale mode of a format slot (R125, R249). -/
def slotCode (w : DWord) : Nat := w.toNat % 16
def slotMode (w : DWord) : Nat := w.toNat / 16 % 16

/-- Every feature that the record uses is accepted: check 0x61 (R103). -/
def Launch.featuresOk (L : Launch) (raw : List Byte) : Bool :=
  let on (n : Nat) : Bool := L.accept.getLsbD n
  (on 6 || !(L.indirect || L.early)) && (on 7 || !(L.cores || (hierWords raw).any (fun w => w % 16 == 8))) && (on 4 || !L.check) && (on 5 || !L.schk) &&
  (on 2 || !L.formats.any (fun w => [5, 6, 7, 9].contains (slotCode w))) && (on 1 || !L.formats.any (fun w => decide (2 ≤ slotMode w) && decide (slotMode w ≤ 5)))

/-- SHAPE: check 0x62 (R121). -/
def Launch.shapeOk (L : Launch) : Bool :=
  [16, 32, 48, 64].contains L.regs && decide (L.gangLog ≤ 3) && decide (32 ≤ L.fibres) && decide (L.fibres ≤ 4096) && L.fibres % L.crew == 0

/-- PARTITION: check 0x63 (R122). -/
def Launch.partitionOk (L : Launch) (raw : List Byte) : Bool :=
  recNum raw 0x4C 4 / 32768 == 0 && L.rf + L.sp + L.ac == 32 && decide (4 ≤ L.rf) && decide (L.fibres ≤ min 4096 (L.rf * 65536 / (L.regs * 4)))

/-- GRID: R123 on the count that applies. -/
def Launch.gridOk (L : Launch) : Bool :=
  decide (1 ≤ L.gridX) && decide (1 ≤ L.gridY) && decide (1 ≤ L.gridZ) && decide (L.count ≤ 2 ^ 31) && L.count % 2 ^ L.gangLog == 0

/-- Check 0x64 before the count is read: with INDIRECT, GRID.X does not count (R129). -/
def Launch.gridFirst (L : Launch) : Bool := if L.indirect then decide (1 ≤ L.gridY) && decide (1 ≤ L.gridZ) else L.gridOk

/-- A present HIERARCHY entry meets its row of R124. -/
def Launch.levelOk (L : Launch) (pos : Nat) (e : Level) : Bool :=
  let row (bars lo hi ext : Nat) : Bool := decide (e.barriers ≤ bars) && decide (lo ≤ e.scope) && decide (e.scope ≤ hi) && e.extent == ext
  let mask : Bool := decide (e.barriers ≤ 2) && decide (4 ≤ e.scope) && decide (e.scope ≤ 5) && (BitVec.ofNat 16 e.extent).getLsbD pos
  (match e.domain with
    | 1 => row 0 0 0 0
    | 2 => row 1 0 5 L.crew
    | 3 => row 16 0 5 (L.fibres / L.crew)
    | 4 => row 8 1 5 (2 ^ L.gangLog)
    | 5 => row 4 2 5 0
    | 6 => row 4 3 5 0
    | 7 => mask
    | 8 => mask
    | _ => false) && (decide (e.domain < 5) || e.barriers == 0 || L.cores)

/-- A strictly rising list. -/
def rising : List Nat → Bool
  | x :: y :: rest => decide (x < y) && rising (y :: rest)
  | _ => true

/-- HIERARCHY: check 0x65 (R124). -/
def Launch.hierOk (L : Launch) (pos : Nat) (raw : List Byte) : Bool :=
  let words := hierWords raw
  let present := words.takeWhile (fun w => w % 16 != 0)
  words.all (· == 0) ||
    ((words.drop present.length).all (· == 0) && rising (present.map (· % 16)) && present.any (fun w => w % 16 == 3) && present.all (fun w => L.levelOk pos (levelOf w)))

/-- FORMAT: check 0x66 (R125). -/
def Launch.formatsOk (L : Launch) : Bool := L.formats.all (fun w => decide (slotCode w < 13) && decide (slotMode w < 6) && bitsOf w.toNat 24 8 == 0)

/-- The code header: check 0x67 (R133). -/
def Launch.headerOk (L : Launch) (h : List Byte) : Bool :=
  let f (o n : Nat) : Nat := recNum h o n
  let text := f 8 4
  let len := f 0x0C 4
  f 0 4 == 0x324E4546 && f 4 2 == 1 && f 6 2 == 0 && f 0x28 24 == 0 && text % 16 == 0 && decide (64 ≤ text) && len % 16 == 0 &&
  decide (L.code.base.toNat ≤ text) && decide (text + len ≤ L.code.base.toNat + L.code.len.toNat) &&
  L.entry % 16 == 0 && decide (text ≤ L.entry) && decide (L.entry < text + len)

/-- ARGS and the count offset: check 0x68 (R120). -/
def State.argsOk (s : State) (b : Binding) (L : Launch) : Bool :=
  s.recordCap b L.args [0#4] [rR] && (!L.indirect || (L.indOff % 4 == 0 && decide (L.indOff + 4 ≤ L.args.len.toNat)))

/-- What the checks find: a refusal code, a region to wait for, a line to wait for, or a launch that goes on. -/
inductive Verdict where
  | hold
  | refuse (code : BitVec 8)
  | wait (obj off : Nat)
  | pass (L : Launch)
  deriving DecidableEq, Repr

/-- A read of the dispatcher for a record that has been consumed: data lost, or a region that cannot be made resident, refuses it with 0x13. -/
def Queue.need (x : Queue) (r : DRead) (obj off : Nat) (code : BitVec 8) (k : List Byte → Verdict) : Verdict :=
  match r with
  | .bytes bs => k bs
  | .lost => .refuse 0x13#8
  | .held => .hold
  | .away => if x.unfit then .refuse 0x13#8 else .wait obj off
  | .wrong t => .refuse (if t = 0x0D0#12 then 0x13#8 else code)

/-- The count word takes the place of GRID.X (R129). -/
def State.readCount (s : State) (x : Queue) (L : Launch) : Verdict :=
  let o := L.args.base.toNat + L.indOff
  x.need (s.dRead L.asid L.args.obj.toNat o 4) L.args.obj.toNat o 0x68#8 (fun bs =>
    let n := bytesNat bs
    let L : Launch := { L with gridX := n, count := n * L.gridY * L.gridZ }
    if n = 0 then .pass L else if L.indMax < n then .refuse 0x6A#8 else if !L.gridOk then .refuse 0x64#8 else .pass L)

/-- The checks from 0x60 on, in the order of R131, once EVENT has passed. -/
def State.checkRest (s : State) (x : Queue) (L : Launch) : Verdict :=
  if !versionOk x.raw then .refuse 0x60#8
  else if !L.featuresOk x.raw then .refuse 0x61#8
  else if !L.shapeOk then .refuse 0x62#8
  else if !L.partitionOk x.raw then .refuse 0x63#8
  else if !L.gridFirst then .refuse 0x64#8
  else if !L.hierOk s.pos x.raw then .refuse 0x65#8
  else if !L.formatsOk then .refuse 0x66#8
  else if !s.recordCap x.binding L.code [1#4] [rR, rX] then .refuse 0x67#8
  else x.need (s.dRead L.asid L.code.obj.toNat 0 64) L.code.obj.toNat 0 0x67#8 (fun h =>
    if !L.headerOk h then .refuse 0x67#8
    else if !s.argsOk x.binding L then .refuse 0x68#8
    else if (h.drop 0x10).take 16 ≠ Config.stamp then .refuse 0x6C#8
    else if L.early && L.indirect then s.readCount x L
    else .pass L)

/-! ## Completion (R126, R127, R151) -/

/-- LASTERR is written and management is told (R112, R127, R131). -/
def State.lastErr (s : State) (b : Binding) (code : BitVec 8) (slot : Nat) : State :=
  (s.ctlWrite b 16 (code.toNat * 2 ^ 56 + slot % 2 ^ 56)).toMgmt (.msix 2)

/-- The launch is to complete: refused, of no workgroup, or with every gang retired (R127). -/
def State.ending (s : State) (L : Launch) : Bool := L.refusal != 0 || L.count == 0 || (L.placedLaunch && s.allRetired L)

/-- The cores that a launch ran on last. -/
def State.coresRun (s : State) (L : Launch) : List Nat := ((s.gangs.filter (fun g => g.launch == L.id)).flatMap (·.cores)).dedup

/-- The completion code (R131). -/
def Launch.endCode (L : Launch) : BitVec 8 := if L.refusal ≠ 0 then L.refusal else if L.lost then 0x13#8 else if 0 < L.aborted then 0x01#8 else 0

/-- The event word after a completion (R126, R127). -/
def Launch.eventAfter (L : Launch) (w : DWord) : DWord :=
  let code := (w >>> 56).setWidth 8
  let tag := (w >>> 44).setWidth 12
  let aborts := min 0xFFF (bitsOf w.toNat 32 12 + L.aborted)
  let value : Word := if (w.setWidth 32).toNat ≤ L.compVal.toNat then L.compVal else w.setWidth 32
  let fst : Bool := code == 0#8 && L.endCode != 0
  (if fst then L.endCode else code) ++ (if fst && L.endCode == 1#8 then L.abortTag else tag) ++ BitVec.ofNat 12 aborts ++ value

/-- A member of a mask waits at a barrier of the launch: at its bound unit, or with an arrival held here. -/
def State.membersWait (s : State) (L : Launch) (e : Level) (num : Nat) : Bool :=
  match s.unitOf L.id e.domain num with
  | some u => u.seen &&& u.mask != 0
  | none => s.heldArrivals.any (fun a => a.level == e.domain && a.num == num && (BitVec.ofNat 16 e.extent).getLsbD a.origin)

/-- The notes of R151 to the members that wait at a barrier of a launch that ends here. -/
def State.noteMembers (s : State) (L : Launch) : State :=
  s.over ((L.hier.filter (fun e => decide (7 ≤ e.domain))).flatMap (fun e => (List.range e.barriers).map (fun i => (e, i)))) (fun s x =>
    if s.membersWait L x.1 x.2 then
      s.over ((List.range 16).filter (fun q => (BitVec.ofNat 16 x.1.extent).getLsbD q && q != s.pos)) (fun s q => s.noteUnit q x.1.domain x.2)
    else s)

/-- The launch has completed: its entry, units and holds are free. -/
def State.dropLaunch (s : State) (L : Launch) : State :=
  let s := s.noteMembers L
  { s with
    launches := s.launches.filter (fun x => x.id != L.id), gangs := s.gangs.filter (fun g => g.launch != L.id), wgs := s.wgs.filter (fun g => g.launch != L.id),
    units := s.units.filter (fun u => u.launch != L.id), holds := s.holds.filter (fun h => h.launch != L.id) }

/-- LASTERR for a completion that could not be written. -/
def State.completionLost (s : State) (L : Launch) (code : BitVec 8) : State :=
  match s.queue L.queue with
  | none => (s.toMgmt (.msix 2)).dropLaunch L
  | some x => (s.lastErr x.binding code L.slot).dropLaunch L

/-- The completion event word is written, waits in the Hamper, or is left unwritten (R127). -/
def State.writeEvent (s : State) (L : Launch) : State :=
  let obj := L.event.obj.toNat
  let o := L.event.base.toNat + L.compOff
  match s.xlatNow false ⟨L.asid, obj, o, 8, true, L.event.kind == 4#4⟩ with
  | .pa p _ =>
    if s.latched p then s
    else if s.isBad p 8 then (s.logLost L.asid [(p, 8)]).completionLost L 0x13#8
    else
      let key := s.keyOf L.asid
      let w : DWord := BitVec.ofNat 64 (bytesNat (s.rd key p 8))
      (s.homeStore key p (natBytes 8 (L.eventAfter w).toNat)).dropLaunch L
  | .fault t =>
    if t = 0x0D1#12 ∨ t = 0x0D2#12 then
      if L.unfit then s.completionLost L 0x13#8
      else
        let k := keyAt L.asid obj o true
        let s := s.hamperEnter 0 k
        s.modLaunch L.id (fun L => { L with stall := some (0, s.hamperNum 0 k) })
    else s.completionLost L (if t = 0x0D0#12 then 0x13#8 else 0x69#8)
  | .lost a => (s.logAddr L.asid a).completionLost L 0x13#8
  | _ => s.completionLost L 0x69#8

/-- The cores of a launch have released at system scope. -/
def State.coresReleased (s : State) (L : Launch) : Bool := (s.coresRun L).all (fun c => (s.releaseAll c 5).2)

/-- What a completion writes, the event word or its queue's control block, lies in a line that a tile access holds (R242). -/
def State.completionHeld (s : State) (L : Launch) : Bool :=
  (match s.xlatNow false ⟨L.asid, L.event.obj.toNat, L.event.base.toNat + L.compOff, 8, true, L.event.kind == 4#4⟩ with
    | .pa p _ => s.latched p
    | _ => false) || (s.queue L.queue).any (fun x => s.ctlHeld x.binding)

/-- A launch that is to complete can complete now. -/
def State.canComplete (s : State) (L : Launch) : Bool := s.ending L && L.stall.isNone && s.coresReleased L && !s.completionHeld L

/-- LAUNCH_COMPLETION (R127). -/
def execLaunchCompletion (launch : Nat) (s : State) : Host.Outcome State Fault Refusal :=
  .next (match s.launch launch with
    | none => s
    | some L => if !s.canComplete L then s else (s.over (s.coresRun L) (fun s c => (s.releaseAll c 5).1)).writeEvent L)

/-- A launch ends before it is placed: it completes with a code in a step of its own, and its queue is IDLE; the next record is consumed only once it has completed (R130, R135). -/
def State.endEarly (s : State) (x : Queue) (L : Launch) (code : BitVec 8) : State :=
  let s := s.modQueue x.q (fun x => { x with st := .idle, cur := none, raw := [], rawTags := [], last := some L.id, unfit := false })
  { s with launches := s.launches ++ [{ L with refusal := code, placedLaunch := false }] }

/-- A refusal that cannot be reported in an event word; members of its barriers that wait are told (R151). -/
def State.refuseRaw (s : State) (x : Queue) (L : Launch) (code : BitVec 8) : State :=
  State.lastErr ((s.noteMembers L).modQueue x.q (fun x => { x with st := .idle, cur := none, raw := [], rawTags := [], last := some L.id, unfit := false })) x.binding code (x.n - 1)

/-! ## Consumption and checks (R114, R115, R130, R135) -/

/-- Where record n of a queue lies in its ring. -/
def Queue.place (x : Queue) : Nat := x.binding.ringOff + 256 * (x.n % 2 ^ x.binding.log2size)

/-- A read of the checks that found data lost is reported: of the program header, else of the count word (R107). -/
def State.logReads (s : State) (L : Launch) : State :=
  if s.dRead L.asid L.code.obj.toNat 0 64 = .lost then s.logRead L.asid L.code.obj.toNat 0 64 else s.logRead L.asid L.args.obj.toNat (L.args.base.toNat + L.indOff) 4

/-- What a verdict on a consumed record leads to; counted: its count is known, so that a count of 0 completes the launch (R129). -/
def State.onVerdict (s : State) (x : Queue) (L : Launch) (counted : Bool) (v : Verdict) (go : Launch → State) : State :=
  match v with
  | .hold => s
  | .refuse code => (if code = 0x13#8 then s.logReads L else s).endEarly x L code
  | .wait obj off => s.stallQueue x.q L.asid obj off
  | .pass L => if counted && L.count == 0 then s.endEarly x L 0 else go L

/-- The CHECK state (R130, R131). -/
def State.checkRecord (s : State) (x : Queue) : State :=
  match x.cur with
  | none => s
  | some L =>
    if !s.eventOk x.binding L then s.refuseRaw x L 0x69#8
    else s.onVerdict x L (L.early || !L.indirect) (s.checkRest x L) (fun L => s.modQueue x.q (fun x => { x with st := .depWait, cur := some L, unfit := false, told := false }))

/-- Consume the record at HEAD: it is copied, and HEAD advances before any check (R115). A capability of a trusted queue is accepted without its tag. -/
def State.consume (s : State) (x : Queue) : State :=
  let b := x.binding
  match s.xlatNow false ⟨b.asid, b.ringObj, x.place, 256, false, false⟩ with
  | .pa p _ =>
    let raw := s.rd (s.keyOf b.asid) p 256
    let tags := (List.range 16).map (fun k => s.mem.tag (p + 16 * k))
    let lost := s.isBad p 256
    let s := s.over [0, 64, 128, 192] (fun s k => s.homeTouch (p + k) false)
    let L := launchOf s.fresh x s.acceptNow raw tags
    let x' : Queue := { x with st := .check, n := x.n + 1, raw := raw, rawTags := tags, cur := some L, unfit := false, told := false }
    let s := (s.stamp.modQueue x.q (fun _ => x')).ctlWrite b 8 (x.n + 1)
    if lost then (s.logLost b.asid [(p, 256)]).refuseRaw x' L 0x13#8 else s.checkRecord x'
  | _ => s

/-- The READY word of the record at HEAD. -/
def State.readyRead (s : State) (x : Queue) : DRead := s.dRead x.binding.asid x.binding.ringObj (x.place + 4) 4

/-- A launch of the queue that was refused, or had no workgroup, has not completed yet (R130). -/
def State.unplacedEnds (s : State) (x : Queue) : Bool := s.launches.any (fun L => L.queue == x.q && !L.placedLaunch)

/-- The checks of a consumed record wait for a line. -/
def State.checkHeld (s : State) (x : Queue) : Bool := x.cur.any (fun L => s.eventOk x.binding L && s.checkRest x L == .hold)

/-- The dispatcher of a queue has something to do in IDLE, WAITREADY or CHECK: a record is published, its READY matches, is lost or lies in a region that is to be asked for, or checks go on. HEAD and LASTERR are written only while no tile access holds their line. -/
def State.canConsume (s : State) (x : Queue) : Bool :=
  x.stall.isNone && (match x.st with
    | .idle => decide (x.n < s.tailOf x.binding) && !s.unplacedEnds x
    | .waitReady => (match s.readyRead x with
        | .bytes bs => bytesNat bs == (x.n + 1) % 2 ^ 32 && !s.ctlHeld x.binding && !(s.dRead x.binding.asid x.binding.ringObj x.place 256 == .held)
        | .away => !x.unfit
        | .lost => !x.told
        | _ => false)
    | .check => !s.ctlHeld x.binding && !s.checkHeld x
    | _ => false)

/-- RECORD_CONSUMPTION (R114, R115, R135). A lost READY word is reported, and waited for like one that does not match (R107). -/
def execRecordConsumption (q : Fin 1024) (s : State) : Host.Outcome State Fault Refusal :=
  .next (match s.queue q.val with
    | none => s
    | some x =>
      if !s.canConsume x then s
      else match x.st with
        | .idle => s.modQueue q.val (fun x => { x with st := .waitReady })
        | .waitReady => (match s.readyRead x with
            | .away => s.stallQueue q.val x.binding.asid x.binding.ringObj (x.place + 4)
            | .lost => (s.logRead x.binding.asid x.binding.ringObj (x.place + 4) 4).modQueue q.val (fun x => { x with told := true })
            | _ => s.consume x)
        | .check => s.checkRecord x
        | _ => s)

/-! ## Dependences (R128, R129) -/

/-- VALUE of the event word of a dependence. -/
def State.depRead (s : State) (L : Launch) (d : Nat × Word) : DRead := s.dRead L.asid L.event.obj.toNat (L.event.base.toNat + d.1) 4

/-- The dependence is met now. -/
def State.depMet (s : State) (L : Launch) (d : Nat × Word) : Bool := d.2 == 0 || (s.depRead L d).num.any (fun v => decide (d.2.toNat ≤ v))

/-- A met dependence stays met. -/
def State.noteDeps (s : State) (L : Launch) : Launch :=
  { L with dep0 := if s.depMet L L.dep0 then (L.dep0.1, 0) else L.dep0, dep1 := if s.depMet L L.dep1 then (L.dep1.1, 0) else L.dep1 }

/-- The previous launch of the queue has completed, or does not count. -/
def State.prevDone (s : State) (x : Queue) (L : Launch) : Bool := L.early || x.last.all (fun n => (s.launch n).isNone)

/-- An unmet dependence whose word is not resident. -/
def State.depAway (s : State) (L : Launch) : Option (Nat × Word) := [L.dep0, L.dep1].find? (fun d => d.2 != 0 && s.depRead L d == .away)

/-- An unmet dependence whose word is lost (R107). -/
def State.depLost (s : State) (L : Launch) : Option (Nat × Word) := [L.dep0, L.dep1].find? (fun d => d.2 != 0 && s.depRead L d == .lost)

/-- What the end of the dependence wait finds: with EARLY clear, the count is read (R129). -/
def State.atEnd (s : State) (x : Queue) (L : Launch) : Verdict := if L.indirect && !L.early then s.readCount x L else .pass L

/-- Both dependences are met, and the previous launch is done. -/
def State.depsDone (s : State) (x : Queue) (L : Launch) : Bool := L.dep0.2 == 0 && L.dep1.2 == 0 && s.prevDone x L

/-- Something changes for a queue in DEPWAIT. -/
def State.canDepend (s : State) (x : Queue) : Bool :=
  x.st == .depWait && x.stall.isNone && (match x.cur with
    | none => false
    | some L =>
      let M := s.noteDeps L
      M != L || (s.depsDone x M && s.atEnd x M != .hold) || (s.depAway M).isSome || (!x.told && (s.depLost M).isSome))

/-- DEPENDENCE_MET (R128, R129, R135). A lost word is reported, and its dependence stays unmet (R107). -/
def execDependenceMet (q : Fin 1024) (s : State) : Host.Outcome State Fault Refusal :=
  .next (match s.queue q.val with
    | none => s
    | some x => match x.cur with
      | none => s
      | some L =>
        if !s.canDepend x then s
        else
          let L := s.noteDeps L
          let s := s.modQueue q.val (fun x => { x with cur := some L })
          if s.depsDone x L then
            s.onVerdict x L true (s.atEnd x L) (fun L => s.modQueue q.val (fun x => { x with st := .handover, cur := some L, unfit := false }))
          else match s.depAway L with
            | some d => if x.unfit then s.endEarly x L 0x13#8 else s.stallQueue q.val L.asid L.event.obj.toNat (L.event.base.toNat + d.1)
            | none => match (if x.told then none else s.depLost L) with
              | none => s
              | some d => (s.logRead L.asid L.event.obj.toNat (L.event.base.toNat + d.1) 4).modQueue q.val (fun x => { x with told := true }))

/-! ## Hand-over (R136, R149) -/

/-- The placer's table has a free entry. -/
def State.tableRoom (s : State) : Bool := decide ((s.launches.filter (·.placedLaunch)).length < 4096)

/-- LAUNCH_HANDOVER (R130, R135, R136, R149). -/
def execLaunchHandover (q : Fin 1024) (s : State) : Host.Outcome State Fault Refusal :=
  .next (match s.queue q.val with
    | none => s
    | some x => match x.cur with
      | none => s
      | some L =>
        if x.st ≠ .handover ∨ !s.tableRoom then s
        else
          let L : Launch := { L with placedLaunch := true }
          let idle := s.modQueue q.val (fun x => { x with st := .idle, cur := none, raw := [], rawTags := [], last := some L.id })
          let taken : State := { idle with launches := idle.launches ++ [L] }
          if !L.cores then taken
          else match s.wholePlan L with
            | none => s.endEarly x L 0x6B#8
            | some gs => taken.takeWhole L gs)

end Sys2Proof.Machine
end

