-- ==== Sys2Proof/Machine/Supervisor.lean ====
section
/-! DEFINITION. The device supervisor's operations: Hamper batches (R214, R215), migrations (R217), object tables (R213), address spaces (R193, R207) and confidential ones (R92), and what arrives at the DOE mailbox (R91, R99). -/

namespace Sys2Proof.Machine

/-! ## The Hamper (R214, R215) -/

/-- Replace the Hamper of a die. -/
def State.setHamper (s : State) (die : Nat) (h : Hamper) : State := { s with hampers := s.hampers.set die h }

/-- HAMPER_WINDOW_END (R214): the window's records become a batch. -/
def execHamperWindowEnd (die : Fin 4) (s : State) : Host.Outcome State Fault Refusal :=
  let h := s.hamper die.val
  .next (match h.windowEnd with
    | none => s
    | some e => if e ≤ s.ticks then s.setHamper die.val ⟨[], none, h.batches ++ [h.recs]⟩ else s)

/-- The first page of a region, and how many pages a region has. -/
def OEntry.pages (e : OEntry) (region : Nat) : List Nat := (List.range (2097152 / e.pageSize)).map (fun k => region * (2097152 / e.pageSize) + k)

/-- Write new words for the pages of a region (R209, R213). -/
def State.installPages (s : State) (g : PageGrant) : State :=
  match s.entry g.asid g.obj with
  | none => s
  | some e =>
    if !e.paged then s
    else
      let ws := ((e.pages g.region).zip g.pages).filter (fun x => decide (x.1 * e.pageSize < e.size))
      (s.over ws (fun s x => s.homeStore 0 (e.wordPA x.1) (natBytes 8 x.2.toNat))).changeEntry g.asid g.obj id

/-- A record that only FULL releases: part of its region lies outside die 0 (R100). -/
def State.heldLimited (s : State) (k : HamperKey) : Bool :=
  s.limitedOnly && (match k.region, s.entry k.asid k.obj with
    | some r, some e =>
      if e.typ = 1 then decide (Config.dieBytes < e.t0.toNat % 2 ^ 40 + min e.size ((r + 1) * 2097152))
      else e.paged && (e.pages r).any (fun p =>
        let w : DWord := BitVec.ofNat 64 (s.mem.num (e.wordPA p) 8)
        decide (p * e.pageSize < e.size) && pageP w && decide (Config.dieBytes ≤ pageAddr w))
    | _, _ => false)

/-- Serve a record and what other packages have asked for under its key (R35, R215). -/
def State.serveKey (s : State) (die : Nat) (r : HamperRec) : State :=
  let s := s.serveRec die r.num r.key
  match r.key.region with
  | none => s
  | some region =>
    match s.entry r.key.asid r.key.obj with
    | none => s.answerAsks r.key.asid r.key.obj region false
    | some e =>
      if (e.typ == 5 && e.peerPos != s.pos) || s.revoking r.key.asid r.key.obj region then s
      else s.answerAsks r.key.asid r.key.obj region (s.regionResident e region)

/-- HAMPER_RELEASE (R215): the oldest batch of a die has been served with these pages; in limited service what lies outside die 0 stays. -/
def execHamperRelease (die : Fin 4) (grants : List PageGrant) (s : State) : Host.Outcome State Fault Refusal :=
  .next (
    if !s.supervised then s
    else match (s.hamper die.val).batches with
      | [] => s
      | recs :: rest =>
        let s := (s.over grants State.installPages).setHamper die.val { s.hamper die.val with batches := rest }
        let stay := recs.filter (fun r => s.heldLimited r.key)
        let s := s.over (recs.filter (fun r => !s.heldLimited r.key)) (fun s r => s.serveKey die.val r)
        if stay = [] then s else s.setHamper die.val { s.hamper die.val with batches := stay :: (s.hamper die.val).batches })

/-! ## Migration (R217) -/

/-- Copy a range of memory with its granule tags; both ends are whole granules. -/
def Mem.copyRange (m : Mem) (src dst n : Nat) : Mem :=
  let inside (lo len a : Nat) : Bool := decide (lo ≤ a) && decide (a < lo + len)
  ⟨(m.cells.filter (fun c => inside src n c.1)).foldl (fun cs c => cellsSet cs (c.1 - src + dst) c.2) (m.cells.filter (fun c => !inside dst n c.1)),
   (m.tags.filter (inside (src / 16) (n / 16))).foldl (fun ts g => risingSet ts (g - src / 16 + dst / 16) true) (m.tags.filter (fun g => !inside (dst / 16) (n / 16) g))⟩

/-- Copy a page: bytes, tags, the keys that bytes were written under, and sectors whose data is lost; fibres that watch a cell of it watch the copy. -/
def State.movePage (s : State) (n : Nat) (src dst : Nat) : State :=
  let inside (lo a : Nat) : Bool := decide (lo ≤ a) && decide (a < lo + n)
  let s : State := { s with
    mem := s.mem.copyRange src dst n,
    keyed := (s.keyed.filter (fun k => inside src k.1)).foldl (fun ks k => keyedSet ks (k.1 - src + dst) k.2) (s.keyed.filter (fun k => !inside dst k.1)),
    bad := ((s.bad ++ s.homeHurts).filter (fun b => inside src (64 * b))).map (fun b => b - src / 64 + dst / 64) ++ s.bad.filter (fun b => !inside dst (64 * b)),
    hurts := s.hurts.filter (fun h => match h with
      | .home b _ => !inside dst (64 * b)
      | _ => true),
    homeLines := s.homeLines.map (fun (h : HomeLine) => if inside src (256 * h.line) then { h with dirty := 0 } else h) }
  s.mapFibres (fun _ f => match f.wait with
    | .cell pa always => if inside src pa then { f with wait := .cell (pa - src + dst) always } else f
    | _ => f)

/-- The pages of a region before and after: those that exist, with their old words and their new ones. -/
def State.movedPages (s : State) (e : OEntry) (g : PageGrant) : List (Nat × DWord × DWord) :=
  (((e.pages g.region).zip g.pages).filter (fun x => decide (x.1 * e.pageSize < e.size))).map (fun x => (x.1, BitVec.ofNat 64 (s.mem.num (e.wordPA x.1) 8), x.2))

/-- A tile access that was translated before a mark works in one of the pages (R245). -/
def State.tileIn (s : State) (size : Nat) (ps : List (Nat × DWord × DWord)) (mark : Nat) : Bool :=
  s.tiles.any (fun t => t.place == .mem && decide (t.id < mark) &&
    t.bytes.any (fun b => ps.any (fun p => pageP p.2.1 && decide (pageAddr p.2.1 ≤ b.1) && decide (b.1 < pageAddr p.2.1 + size))))

/-- A line lies in a region of an object. -/
def L1Line.inRegion (l : L1Line) (asid obj region : Nat) : Bool := l.asid == asid && l.obj == obj && 256 * l.line / 2097152 == region

/-- Some dirty L1 line of a region cannot be written back yet, a tile access holding its home line (R242). -/
def State.regionHeld (s : State) (asid obj region : Nat) : Bool :=
  s.cores.any (fun (c : Core) => c.l1.any (fun (l : L1Line) => l.inRegion asid obj region && l.mask != 0 && s.lineLatched l.asid l.obj l.line))

/-- The records of a region leave every Hamper, released. -/
def State.releaseRegion (s : State) (asid obj region : Nat) : State :=
  let mine (r : HamperRec) : Bool := r.key.asid == asid && r.key.obj == obj && r.key.region == some region
  s.over [0, 1, 2, 3] (fun s die =>
    let h := s.hamper die
    let rs := (h.recs ++ h.batches.flatten).filter mine
    let recs := h.recs.filter (fun r => !mine r)
    let s := s.setHamper die ⟨recs, if recs = [] then none else h.windowEnd, (h.batches.map (fun b => b.filter (fun r => !mine r))).filter (· != [])⟩
    s.over rs (fun s r => s.releaseRec die r.num))

/-- Write back and close every L1 copy of a region (R217 step 2). -/
def State.flushRegion (s : State) (asid obj region : Nat) : State :=
  let s := s.over s.cores (fun s c => s.over (c.l1.filter (fun l => l.inRegion asid obj region)) (fun s l => s.writeBack c.id l.asid l.obj l.line))
  { s with cores := s.cores.map (fun (c : Core) => { c with l1 := c.l1.map (fun (l : L1Line) => if l.inRegion asid obj region then { l with writable := false } else l) }) }

/-- Two migrations move the same region. -/
def sameRegion (g h : PageGrant) : Bool := g.asid == h.asid && g.obj == h.obj && g.region == h.region

/-- Set bit 62, MIG, of a page-list word. -/
def withMig (w : DWord) : DWord := w ||| 0x4000000000000000#64

/-- Step 1 of R217: WB in the entry, MIG in the region's page words, and OINV. -/
def State.beginMigration (s : State) (g : PageGrant) (e : OEntry) (ps : List (Nat × DWord × DWord)) : State :=
  let s := s.over ps (fun s p => s.homeStore 0 (e.wordPA p.1) (natBytes 8 (withMig p.2.1).toNat))
  let s := s.changeEntry g.asid g.obj (fun w => clearBit w 57 + 2 ^ 57)
  (State.stamp { s with migrs := s.migrs ++ [⟨g, s.fresh⟩] }).later 1000 (.regionMigration g)

/-- Steps 2 to 5 of R217: write-back, copy, the new page words, WB cleared where no other region of the object is migrating, OINV, and the release of the region's records. -/
def State.endMigration (s : State) (g : PageGrant) (e : OEntry) (ps : List (Nat × DWord × DWord)) : State :=
  let s := s.flushRegion g.asid g.obj g.region
  let s := s.over ps (fun s p => s.movePage e.pageSize (pageAddr p.2.1) (pageAddr p.2.2))
  let s := s.over ps (fun s p => s.homeStore 0 (e.wordPA p.1) (natBytes 8 p.2.2.toNat))
  let s := { s with migrs := s.migrs.filter (fun m => !sameRegion m.grant g) }
  let other := s.migrs.any (fun m => m.grant.asid == g.asid && m.grant.obj == g.obj)
  ((s.changeEntry g.asid g.obj (fun w => if other then w else clearBit w 57)).releaseRegion g.asid g.obj g.region).answerAsks g.asid g.obj g.region true

/-- REGION_MIGRATION (R217): step 1 first; the rest once its OINV is complete, which waits for the tile accesses and requests that were translated before it (R213, R245). -/
def execRegionMigration (g : PageGrant) (s : State) : Host.Outcome State Fault Refusal :=
  .next (
    if !s.supervised then s
    else match s.entry g.asid g.obj with
      | none => { s with migrs := s.migrs.filter (fun m => !sameRegion m.grant g) }
      | some e =>
        let ps := s.movedPages e g
        match s.migrs.find? (fun m => sameRegion m.grant g) with
        | none =>
          if !e.paged ∨ ps.length ≠ ((e.pages g.region).filter (fun p => decide (p * e.pageSize < e.size))).length ∨ ps = []
              ∨ !ps.all (fun p => pageP p.2.1 && pageP p.2.2 && !pageMig p.2.2) ∨ ps.all (fun p => p.2.1 == p.2.2) then s
          else s.beginMigration g e ps
        | some m =>
          if s.tileIn e.pageSize ps m.mark ∨ s.translated g.asid (some g.obj) m.mark ∨ s.regionHeld g.asid g.obj g.region then s.later 1000 (.regionMigration m.grant)
          else s.endMigration m.grant e (s.movedPages e m.grant))

/-! ## Object tables (R208, R213) -/

/-- An entry that sets RC again makes every region of the object, or of the peer object that it names, cacheable here once more (R37, R38). -/
def State.newRc (s : State) (asid obj : Nat) (e : OEntry) : State :=
  if !e.rc then s
  else if e.typ = 5 then { s with unrc := s.unrc.filter (fun x => !(x.1 == e.peerPos && x.2.1 == e.peerAsid && x.2.2.1 == e.peerObj)) }
  else { s with unrc := s.unrc.filter (fun x => !(x.1 == s.pos && x.2.1 == asid && x.2.2.1 == obj)) }

/-- OBJECT_TABLE_UPDATE (R213): a new entry of four words, new page words from the start of the entry's list, or both; GEN rises by one and OINV follows. -/
def execObjectTableUpdate (asid obj : Nat) (words pages : List DWord) (s : State) : Host.Outcome State Fault Refusal :=
  .next (
    if !s.supervised then s
    else match s.asid asid, s.entry asid obj with
      | some d, some old =>
        let a := d.entryPA obj
        let s := if words.length ≠ 4 then s
          else
            let w (k : Nat) : Nat := (words.getD k 0).toNat
            s.homeStore 0 a (natBytes 8 (w 0) ++ natBytes 8 (w 1 % 2 ^ 32 + old.gen * 2 ^ 32) ++ natBytes 8 (w 2) ++ natBytes 8 (w 3))
        let e := OEntry.read s.mem a
        let s := if e.paged then s.over ((List.range pages.length).zip pages) (fun s x => s.homeStore 0 (e.wordPA x.1) (natBytes 8 x.2.toNat)) else s
        (s.newRc asid obj e).changeEntry asid obj id
      | _, _ => s)

/-! ## Address spaces (R92, R193, R207) -/

/-- ASID_CREATE (R207): the descriptor is LIVE with SERIAL 1, and these segments of its frame heap are free. -/
def execAsidCreate (asid otroot objects heapObj : Nat) (segs : List Nat) (s : State) : Host.Outcome State Fault Refusal :=
  .next (
    if !s.supervised ∨ 4095 < asid ∨ (s.asid asid).isSome ∨ otroot % 32 ≠ 0 ∨ objects = 0 ∨ 2 ^ 20 < objects ∨ 2 ^ 20 ≤ heapObj then s
    else { s with asids := s.asids ++ [⟨asid, otroot, objects, heapObj, 1, true, false, 0, segs.dedup⟩] })

/-- The end of an ASID: with its heap go all held continuations (R193), its cached translations, and, of a confidential one, its key, its connections and its gangs (R92, R143). -/
def State.dropAsid (s : State) (asid : Nat) : State :=
  let conf := (s.asid asid).any (·.conf)
  let key := ((s.asid asid).map (·.key)).getD 0
  let s := if !conf then s
    else
      let s := s.over ((s.launches.filter (fun L => L.asid == asid)).map (·.id)) State.endLaunch
      s.over ((s.conns.filter (fun c => c.asid == asid && c.st != .closed)).map (·.num)) (fun s n => (s.endConn n).modConn n (fun c => { c with st := .closed }))
  State.oinv { s with asids := s.asids.filter (fun d => d.asid != asid), keys := s.keys.filter (fun k => !(conf && k == key)),
                      tdis := s.tdis.map (fun (t : Tdi) => if t.st == .run && t.asid == asid then ⟨.unlocked, 0, 0, 0⟩ else t) } asid none

/-- ASID_DESTROY (R193, R215): its pending residency requests can no longer be served. -/
def execAsidDestroy (asid : Nat) (s : State) : Host.Outcome State Fault Refusal :=
  .next (if s.supervised ∧ (s.asid asid).isSome then s.dropAsid asid else s)

/-- A TDI. -/
def State.tdi (s : State) (n : Nat) : Tdi := s.tdis.getD n ⟨.unlocked, 0, 0, 0⟩

/-- TDI_RUN (R92): a locked TDI enters RUN over an IDE stream, and its confidential ASID is created: a key pair of its own is written to the key table, which holds 256, and link keys bind the tray links named, one serial for each direction. -/
def execTdiRun (tdi : Fin 64) (space : AsidSetup) (links : BitVec 4) (s : State) : Host.Outcome State Fault Refusal :=
  .next (
    if !s.supervised ∨ !s.acceptNow.getLsbD 13 ∨ s.ide = 0 ∨ (s.tdi tdi.val).st ≠ .locked ∨ 256 ≤ s.keys.length
        ∨ 4095 < space.asid ∨ (s.asid space.asid).isSome ∨ space.otroot % 32 ≠ 0 ∨ space.objects = 0 ∨ 2 ^ 20 < space.objects ∨ 2 ^ 20 ≤ space.heapObj then s
    else
      { s with fresh := s.fresh + 3, keys := s.keys ++ [s.fresh], tdis := s.tdis.set tdi.val ⟨.run, space.asid, links, s.fresh + 1⟩,
               asids := s.asids ++ [⟨space.asid, space.otroot, space.objects, space.heapObj, 1, true, true, s.fresh, space.segs.dedup⟩] })

/-- A TDI leaves RUN: its ASID goes with key, bindings and connections, and it enters a state of TDISP (R91, R92). -/
def State.tdiTo (s : State) (n : Nat) (st : TdiSt) : State :=
  let t := s.tdi n
  let s := if t.st = .run then s.dropAsid t.asid else s
  { s with tdis := s.tdis.set n ⟨st, 0, 0, 0⟩ }

/-- TDI_LEAVE_RUN (R92, R143). -/
def execTdiLeaveRun (tdi : Fin 64) (s : State) : Host.Outcome State Fault Refusal :=
  .next (if (s.tdi tdi.val).st = .run then s.tdiTo tdi.val .unlocked else s)

/-! ## Attestation (R99) -/

/-- A measurement block. -/
def State.measure (s : State) (index : Nat) : Option (BitVec 512) :=
  match index with
  | 1 => some (Config.sha512 Config.bootRom)
  | 2 => some s.mg.imageDigest
  | 3 => some (Config.sha512 (s.mg.vendorKeys.flatMap (fun k => natBytes 64 k.toNat) ++ natBytes 4 s.mg.rollback ++ natBytes 4 Config.offer0.toNat))
  | 4 => some (if s.mg.raised then Config.sha512 (s.mg.accept.flatMap (fun w => natBytes 4 w.toNat)) else 0)
  | _ => none

/-- DOE_MESSAGE (R91, R92, R99): a signed measurement, of which an index that the device does not offer is not answered; the keys of an IDE stream; and TDISP's lock, unlock and error. -/
def execDoeMessage (m : DoeRequest) (nonce : List Byte) (s : State) : Host.Outcome State Fault Refusal :=
  .next (if !s.mg.mgmt then s
    else match m with
      | .measure index => (match s.measure index with
          | none => s
          | some d => s.toMgmt (.attest d (Config.ed25519Sign (nonce ++ natBytes 64 d.toNat))))
      | .ide stream on =>
        let bit : BitVec 5 := 1 <<< stream.val
        { s with ide := if on then s.ide ||| bit else s.ide &&& ~~~bit }
      | .lock tdi on =>
        if on then (if (s.tdi tdi.val).st = .unlocked then s.tdiTo tdi.val .locked else s) else s.tdiTo tdi.val .unlocked
      | .fail tdi => s.tdiTo tdi.val .error)

end Sys2Proof.Machine
end

