-- ==== Sys2Proof/Machine/Sync.lean ====
section
/-! DEFINITION. Ordering (R227 to R230, R233, R240, R369), barriers (R371, R372), and waiting on memory, tokens and time (R373 to R377). -/

namespace Sys2Proof.Machine

/-! ## Ordering -/

/-- A release by a fibre, then what follows it; a release that must wait holds the fibre (R229). -/
def State.releasing (s : State) (id : FibId) (scope : Nat) (k : State → State) : State :=
  match s.releaseFor id scope with
  | (s, .error e) => s.stop id 0 e
  | (s, .ok _) => k s

/-- REL (R229). -/
def execRel (c : BitVec 3) (s : State) : Host.Outcome State Fault Refusal :=
  s.issueEach (.rel c) (fun s id _ => s.releasing id c.toNat (fun s => s))

/-- ACQ (R230). -/
def execAcq (c : BitVec 3) (s : State) : Host.Outcome State Fault Refusal :=
  s.issueEach (.acq c) (fun s id _ => s.acquireAt (s.coreOf id) c.toNat)

/-- PHASE (R233): the release, then the acquire. -/
def execPhase (c : BitVec 3) (s : State) : Host.Outcome State Fault Refusal :=
  s.issueEach (.phase c) (fun s id _ => s.releasing id c.toNat (fun s => s.acquireAt (s.coreOf id) c.toNat))

/-- FENCE (R228): every earlier access of the fibre has been performed when it issues. -/
def execFence (s : State) : Host.Outcome State Fault Refusal := s.issueEach .fence (fun s _ _ => s)

/-- IFENCE (R240): a release at die scope, then the instruction cache is dropped. -/
def execIfence (s : State) : Host.Outcome State Fault Refusal :=
  s.issueEach .ifence (fun s id _ => s.releasing id 2 (fun s => s.modCore (s.coreOf id) (fun (c : Core) => { c with icache := [] })))

/-! ## Barriers -/

/-- The hierarchy entry that a barrier instruction names, when it is declared and its number is below BARRIERS (R124, R371). -/
def State.barLevel (s : State) (l : BitVec 4) (n : BitVec 8) : Option Level :=
  s.curLaunch.bind (fun L => (L.level l.toNat).bind (fun e => if n.toNat < e.barriers then some e else none))

/-- A fibre's outstanding arrival at a barrier. -/
def Fibre.arrival (f : Fibre) (l n : Nat) : Option Arrival := f.arr.find? (fun a => a.level == l && a.num == n)

/-- Take away a fibre's arrival at a barrier. -/
def Fibre.dropArrival (f : Fibre) (l n : Nat) : Fibre := { f with arr := f.arr.filter (fun a => !(a.level == l && a.num == n)) }

/-- Finish the outstanding round first, as BARW does: wait for it, or take it up and acquire, then go on (R372). -/
def State.barWait (s : State) (id : FibId) (f : Fibre) (e : Level) (l n : Nat) (k : State → State) : State :=
  match f.arrival l n with
  | some a =>
    if a.done then k ((s.modFib id (fun f => f.dropArrival l n)).acquireAt (s.coreOf id) e.scope)
    else s.hold id (.barrier l n none)
  | none => k s

/-- Release and arrive; wait is the wait that the fibre takes up with its arrival (R372). -/
def State.barArrive (s : State) (id : FibId) (e : Level) (l n : Nat) (wait : Option Wait) : State :=
  s.releasing id e.scope (fun s =>
    s.modFib id (fun f =>
      let f := { f with arr := f.arr ++ [⟨l, n, false⟩] }
      match wait with
      | none => f
      | some w => { f.settleFixed with wait := w, pc := s.cur.first }))

/-- The unit of a node or grid barrier has lost a member (R43, R151). -/
def State.barFailed (s : State) (l n : Nat) : Bool := 7 ≤ l && (s.unitOf s.cur.launch l n).any (·.failed)

/-- A barrier instruction: an undeclared barrier performs 0x0E7, one that has lost a member 0x0D0 (R371, R372). -/
def State.barInstr (s : State) (i : Instr) (l : BitVec 4) (n : BitVec 8) (k : State → FibId → Fibre → Level → State) : Host.Outcome State Fault Refusal :=
  s.issue i (fun s _ exe =>
    (s.each exe (fun s id f =>
      match s.barLevel l n with
      | none => s.effAt id 0x0E7#12 0
      | some e => if s.barFailed l.toNat n.toNat then s.effAt id 0x0D0#12 0 else k s id f e)).settleNow)

/-- BARA (R372). -/
def execBara (l : BitVec 4) (n : BitVec 8) (s : State) : Host.Outcome State Fault Refusal :=
  s.barInstr (.bara l n) l n (fun s id f e => s.barWait id f e l.toNat n.toNat (fun s => s.barArrive id e l.toNat n.toNat none))

/-- BARW (R372). -/
def execBarw (l : BitVec 4) (n : BitVec 8) (s : State) : Host.Outcome State Fault Refusal :=
  s.barInstr (.barw l n) l n (fun s id f e =>
    s.barWait id f e l.toNat n.toNat (fun s => if (f.arrival l.toNat n.toNat).isSome then s else s.acquireAt (s.coreOf id) e.scope))

/-- BAR (R372): it arrives and waits for its round. -/
def execBar (l : BitVec 4) (n : BitVec 8) (s : State) : Host.Outcome State Fault Refusal :=
  s.barInstr (.bar l n) l n (fun s id f e =>
    s.barWait id f e l.toNat n.toNat (fun s => s.barArrive id e l.toNat n.toNat (some (.barrier l.toNat n.toNat (some s.cur.next)))))

/-! ## Waiting -/

/-- The conditions of WAITM (R373). -/
def cellCond (k : BitVec 2) (v t : DWord) : Bool := if k = 0#2 then decide (t ≤ v) else if k = 1#2 then v != t else v == t

/-- The step of WAITM at the cell's home slice (R373): the condition holds and the fibre acquires, or it performs 0x003 and waits on the cell. -/
def State.cellStep (s : State) (id : FibId) (off : Int) (p : Nat) (notify : Bool) (k : BitVec 2) (t : DWord) (scope : Nat) : State :=
  let v : DWord := BitVec.ofNat 64 (bytesNat (s.rd (s.keyOf (s.asidOf id.launch)) p 8))
  if cellCond k v t then s.acquireAt (s.coreOf id) scope else s.effAtW id 0x003#12 (low32 off) none (.cell p notify)

/-- WAITM (R373). -/
def execWaitm (k : BitVec 2) (c : BitVec 4) (x sr : BitVec 6) (e : BitVec 2) (s : State) : Host.Outcome State Fault Refusal :=
  s.issueEach (.waitm k c x sr e) (fun s id f =>
    let cap := f.cap c.toNat
    let off := f.effOff x 0
    match capCheck cap kCell [rA] off 8 8 with
    | some t => s.effAt id t (low32 off)
    | none =>
      let o := objOff cap off
      if s.isHeap id cap then
        match s.heapAt id cap o 8 false with
        | (s, .error st) => s.stop id off st
        | (s, .ok p) => s.cellStep id off p false k (f.pair sr.toNat) (scopeOf e)
      else match s.atPort id cap o 8 false with
        | (s, .error st) => s.stop id off st
        | (s, .ok (.pa p notify)) =>
          if s.latchedX p || (s.latched p && s.l1Dirty (s.coreOf id) (s.asidOf id.launch) cap.obj.toNat o) then s.stop id off (.hold (.latch (p / 256)))
          else if s.isBad p 8 then s.stop id off (s.lostStop (s.asidOf id.launch) p)
          else (s.l1Sync (s.coreOf id) (s.asidOf id.launch) cap.obj.toNat o).cellStep id off p notify k (f.pair sr.toNat) (scopeOf e)
        | (s, .ok _) => s.effAt id 0x0C2#12 (low32 off))

/-- NOTIFY (R375): a release at system scope, then eight bytes written as one step at the home slice. -/
def execNotify (t : BitVec 6) (c : BitVec 4) (x : BitVec 6) (i : BitVec 8) (s : State) : Host.Outcome State Fault Refusal :=
  s.issueEach (.notify t c x i) (fun s id f =>
    let cap := f.cap c.toNat
    let off := f.effOff x (disp8 i 8)
    let bs := natBytes 8 (f.pair t.toNat).toNat
    let a := s.asidOf id.launch
    match capCheck cap kCell [rA, rW] off 8 8 with
    | some t => s.effAt id t (low32 off)
    | none =>
      let o := objOff cap off
      if s.isHeap id cap then
        match s.heapAt id cap o 8 true with
        | (s, .error st) => s.stop id off st
        | (s, .ok p) => s.releasing id 5 (fun s => s.homeStore (s.keyOf a) p bs)
      else match s.atPort id cap o 8 true with
        | (s, .error st) => s.stop id off st
        | (s, .ok (.pa p _)) =>
          match s.homeReady id cap o 8 p with
          | (s, .error st) => s.stop id off st
          | (s, .ok p) => s.releasing id 5 (fun s => (s.homeStore (s.keyOf a) p bs).l1Drop (s.coreOf id) a cap.obj.toNat o)
        | (s, .ok (.peer pos pasid pobj _)) =>
          s.releasing id 5 (fun s =>
            match s.peerStore id cap off pos pasid pobj bs with
            | (s, .error st) => s.stop id off st
            | (s, .ok _) => s)
        | (s, .ok _) => s.effAt id 0x0C2#12 (low32 off))

/-- WAITT (R376): the one instruction that issues while its token is pending. -/
def execWaitt (d : BitVec 6) (a : BitVec 5) (s : State) : Host.Outcome State Fault Refusal :=
  s.issueEach (.waitt d a) (fun s id _ =>
    let g := s.greg s.cur.launch s.cur.wgid a.toNat
    if g.pending then s.effAtW id 0x002#12 (a.setWidth 32) none (.token a.toNat)
    else s.fixed id 4 [.v d.toNat g.val])

/-- SLEEP (R377). -/
def execSleep (i : BitVec 12) (s : State) : Host.Outcome State Fault Refusal :=
  s.issueEach (.sleep i) (fun s id _ =>
    if i = 0 then s else s.modFib id (fun f => { f.settleFixed with wait := .sleep (s.ticks + 16 * i.toNat) }))

/-- The fibre's gang is on its cores and not halted: a sleep of a halted gang is held by its image (R145). -/
def State.sleeps (s : State) (id : FibId) : Bool :=
  match s.launch id.launch with
  | none => false
  | some L => match s.gang id.launch (L.gangOf id.wgid) with
    | none => false
    | some g => g.st == .running || g.st == .halting

/-- SLEEP_EXPIRY (R377): every sleeper whose time has come is ready. -/
def execSleepExpiry (s : State) : Host.Outcome State Fault Refusal :=
  .next (s.mapFibres (fun id f => match f.wait with
    | .sleep t => if t ≤ s.ticks ∧ s.sleeps id then { f with wait := .none } else f
    | _ => f))

end Sys2Proof.Machine
end

