-- ==== Sys2Proof/Machine/Dispatch.lean ====
section
/-! DEFINITION. The dispatch: one arm per constructor of Instr. -/

namespace Sys2Proof.Machine

def exec (i : Instr) (s : State) : Host.Outcome State Fault Refusal :=
  match i with
  | .acceptWrite im v => Sys2Proof.Machine.execAcceptWrite im v s
  | .mgmtRegisterWrite off size v => Sys2Proof.Machine.execMgmtRegisterWrite off size v s
  | .powerGood up => Sys2Proof.Machine.execPowerGood up s
  | .dieMemoryInitialised die ok => Sys2Proof.Machine.execDieMemoryInitialised die ok s
  | .lockstepMismatch die => Sys2Proof.Machine.execLockstepMismatch die s
  | .sensorSampling r => Sys2Proof.Machine.execSensorSampling r s
  | .patrolScrub findings => Sys2Proof.Machine.execPatrolScrub findings s
  | .pairFailure loss => Sys2Proof.Machine.execPairFailure loss s
  | .spareSubstitution pair => Sys2Proof.Machine.execSpareSubstitution pair s
  | .laneCodewordSend pair lane => Sys2Proof.Machine.execLaneCodewordSend pair lane s
  | .codewordReceive pair lane cw ok => Sys2Proof.Machine.execCodewordReceive pair lane cw ok s
  | .peerDead pos => Sys2Proof.Machine.execPeerDead pos s
  | .shootDownOverdue asid obj region => Sys2Proof.Machine.execShootDownOverdue asid obj region s
  | .remoteRequestTimeout dst tag => Sys2Proof.Machine.execRemoteRequestTimeout dst tag s
  | .fabricTimeout cmd => Sys2Proof.Machine.execFabricTimeout cmd s
  | .collectionClose exid => Sys2Proof.Machine.execCollectionClose exid s
  | .dpostTimeout exid => Sys2Proof.Machine.execDpostTimeout exid s
  | .foldWindowStart exid fold => Sys2Proof.Machine.execFoldWindowStart exid fold s
  | .foldWindowEnd exid fold => Sys2Proof.Machine.execFoldWindowEnd exid fold s
  | .closeSend exid => Sys2Proof.Machine.execCloseSend exid s
  | .closeTimeout exid => Sys2Proof.Machine.execCloseTimeout exid s
  | .lateCloseCompletion exid => Sys2Proof.Machine.execLateCloseCompletion exid s
  | .rnrResend conn => Sys2Proof.Machine.execRnrResend conn s
  | .delayedAck conn => Sys2Proof.Machine.execDelayedAck conn s
  | .retransmissionTimer conn => Sys2Proof.Machine.execRetransmissionTimer conn s
  | .contextFetch port conn => Sys2Proof.Machine.execContextFetch port conn s
  | .connectionOpen conn asid peerEp peerConn => Sys2Proof.Machine.execConnectionOpen conn asid peerEp peerConn s
  | .connectionClose conn => Sys2Proof.Machine.execConnectionClose conn s
  | .peerClose conn => Sys2Proof.Machine.execPeerClose conn s
  | .hostRequestTimeout link tag => Sys2Proof.Machine.execHostRequestTimeout link tag s
  | .tdiRun tdi space links => Sys2Proof.Machine.execTdiRun tdi space links s
  | .tdiLeaveRun tdi => Sys2Proof.Machine.execTdiLeaveRun tdi s
  | .doeMessage m nonce => Sys2Proof.Machine.execDoeMessage m nonce s
  | .recordConsumption q => Sys2Proof.Machine.execRecordConsumption q s
  | .dependenceMet q => Sys2Proof.Machine.execDependenceMet q s
  | .launchHandover q => Sys2Proof.Machine.execLaunchHandover q s
  | .launchCompletion launch => Sys2Proof.Machine.execLaunchCompletion launch s
  | .quantumExpiry launch gang => Sys2Proof.Machine.execQuantumExpiry launch gang s
  | .coreHalt launch gang => Sys2Proof.Machine.execCoreHalt launch gang s
  | .contextImageSaved launch gang => Sys2Proof.Machine.execContextImageSaved launch gang s
  | .gangRestoration launch gang => Sys2Proof.Machine.execGangRestoration launch gang s
  | .workgroupRetirement launch wgid => Sys2Proof.Machine.execWorkgroupRetirement launch wgid s
  | .hamperWindowEnd die => Sys2Proof.Machine.execHamperWindowEnd die s
  | .hamperRelease die grants => Sys2Proof.Machine.execHamperRelease die grants s
  | .regionMigration g => Sys2Proof.Machine.execRegionMigration g s
  | .translationWalk die asid obj page => Sys2Proof.Machine.execTranslationWalk die asid obj page s
  | .l1WriteBack core => Sys2Proof.Machine.execL1WriteBack core s
  | .releaseComplete f => Sys2Proof.Machine.execReleaseComplete f s
  | .resultWriteback f => Sys2Proof.Machine.execResultWriteback f s
  | .icacheFill core asid obj line => Sys2Proof.Machine.execIcacheFill core asid obj line s
  | .cupboardFill core asid seg => Sys2Proof.Machine.execCupboardFill core asid seg s
  | .tileLatchGrant tile => Sys2Proof.Machine.execTileLatchGrant tile s
  | .tileUnlatch tile => Sys2Proof.Machine.execTileUnlatch tile s
  | .tokenCompletion cmd => Sys2Proof.Machine.execTokenCompletion cmd s
  | .bra o => Sys2Proof.Machine.execBra o s
  | .bru o => Sys2Proof.Machine.execBru o s
  | .bway w0 w1 w2 w3 t0 t1 t2 t3 => Sys2Proof.Machine.execBway w0 w1 w2 w3 t0 t1 t2 t3 s
  | .call o => Sys2Proof.Machine.execCall o s
  | .calli c x im => Sys2Proof.Machine.execCalli c x im s
  | .jmpi c x im => Sys2Proof.Machine.execJmpi c x im s
  | .meet im => Sys2Proof.Machine.execMeet im s
  | .frame im => Sys2Proof.Machine.execFrame im s
  | .loop d im => Sys2Proof.Machine.execLoop d im s
  | .assert n p => Sys2Proof.Machine.execAssert n p s
  | .add d a b g sg u => Sys2Proof.Machine.execAdd d a b g sg u s
  | .addi d a im => Sys2Proof.Machine.execAddi d a im s
  | .sub d a b g sg u => Sys2Proof.Machine.execSub d a b g sg u s
  | .addc d a b g => Sys2Proof.Machine.execAddc d a b g s
  | .mul d a b g sg u => Sys2Proof.Machine.execMul d a b g sg u s
  | .mulhi d a b g u => Sys2Proof.Machine.execMulhi d a b g u s
  | .mad d a b c => Sys2Proof.Machine.execMad d a b c s
  | .madw d a b c => Sys2Proof.Machine.execMadw d a b c s
  | .div d a b g sg u => Sys2Proof.Machine.execDiv d a b g sg u s
  | .rem d a b g u => Sys2Proof.Machine.execRem d a b g u s
  | .min d a b g u => Sys2Proof.Machine.execMin d a b g u s
  | .max d a b g u => Sys2Proof.Machine.execMax d a b g u s
  | .abs d a g sg => Sys2Proof.Machine.execAbs d a g sg s
  | .neg d a g sg => Sys2Proof.Machine.execNeg d a g sg s
  | .and d a b g => Sys2Proof.Machine.execAnd d a b g s
  | .andi d a im => Sys2Proof.Machine.execAndi d a im s
  | .or d a b g => Sys2Proof.Machine.execOr d a b g s
  | .ori d a im => Sys2Proof.Machine.execOri d a im s
  | .xor d a b g => Sys2Proof.Machine.execXor d a b g s
  | .xori d a im => Sys2Proof.Machine.execXori d a im s
  | .andn d a b g => Sys2Proof.Machine.execAndn d a b g s
  | .shl d a b g sg u => Sys2Proof.Machine.execShl d a b g sg u s
  | .shli d a k => Sys2Proof.Machine.execShli d a k s
  | .shr d a b g u => Sys2Proof.Machine.execShr d a b g u s
  | .shri d a z k => Sys2Proof.Machine.execShri d a z k s
  | .rot d a b g => Sys2Proof.Machine.execRot d a b g s
  | .funnel d a b c => Sys2Proof.Machine.execFunnel d a b c s
  | .bfx d a b g u => Sys2Proof.Machine.execBfx d a b g u s
  | .bfi d a b c => Sys2Proof.Machine.execBfi d a b c s
  | .popc d a g => Sys2Proof.Machine.execPopc d a g s
  | .clz d a g => Sys2Proof.Machine.execClz d a g s
  | .ctz d a g => Sys2Proof.Machine.execCtz d a g s
  | .brev d a g => Sys2Proof.Machine.execBrev d a g s
  | .sel d a b g n p => Sys2Proof.Machine.execSel d a b g n p s
  | .cmp k p a b g n => Sys2Proof.Machine.execCmp k p a b g n s
  | .cmpi k p a im n => Sys2Proof.Machine.execCmpi k p a im n s
  | .plog k p a b t => Sys2Proof.Machine.execPlog k p a b t s
  | .mov d a g => Sys2Proof.Machine.execMov d a g s
  | .movi d im => Sys2Proof.Machine.execMovi d im s
  | .movl d im => Sys2Proof.Machine.execMovl d im s
  | .addl d a im => Sys2Proof.Machine.execAddl d a im s
  | .muli d a im => Sys2Proof.Machine.execMuli d a im s
  | .fadd d a b g t r => Sys2Proof.Machine.execFadd d a b g t r s
  | .fsub d a b g t r => Sys2Proof.Machine.execFsub d a b g t r s
  | .fmul d a b g t r => Sys2Proof.Machine.execFmul d a b g t r s
  | .ffma d a b c => Sys2Proof.Machine.execFfma d a b c s
  | .hfma2 d a b c => Sys2Proof.Machine.execHfma2 d a b c s
  | .bfma2 d a b c => Sys2Proof.Machine.execBfma2 d a b c s
  | .fmin d a b g t => Sys2Proof.Machine.execFmin d a b g t s
  | .fmax d a b g t => Sys2Proof.Machine.execFmax d a b g t s
  | .fabs d a g t => Sys2Proof.Machine.execFabs d a g t s
  | .fneg d a g t => Sys2Proof.Machine.execFneg d a g t s
  | .fcmp k p a b g t n => Sys2Proof.Machine.execFcmp k p a b g t n s
  | .fclass d a g t => Sys2Proof.Machine.execFclass d a g t s
  | .frcp d a g t r => Sys2Proof.Machine.execFrcp d a g t r s
  | .frsq d a g t r => Sys2Proof.Machine.execFrsq d a g t r s
  | .fsqrt d a g t r => Sys2Proof.Machine.execFsqrt d a g t r s
  | .fdiv d a b g t r => Sys2Proof.Machine.execFdiv d a b g t r s
  | .fexp2 d a g t r => Sys2Proof.Machine.execFexp2 d a g t r s
  | .flog2 d a g t r => Sys2Proof.Machine.execFlog2 d a g t r s
  | .fsinpi d a g t r => Sys2Proof.Machine.execFsinpi d a g t r s
  | .fcospi d a g t r => Sys2Proof.Machine.execFcospi d a g t r s
  | .ftanh d a g t r => Sys2Proof.Machine.execFtanh d a g t r s
  | .fround d a g t r => Sys2Proof.Machine.execFround d a g t r s
  | .fscale d a b g t r => Sys2Proof.Machine.execFscale d a b g t r s
  | .fdot2 d a b c => Sys2Proof.Machine.execFdot2 d a b c s
  | .bdot2 d a b c => Sys2Proof.Machine.execBdot2 d a b c s
  | .cvt d a sg f r t => Sys2Proof.Machine.execCvt d a sg f r t s
  | .qpack d a b t sg => Sys2Proof.Machine.execQpack d a b t sg s
  | .qpack4 d a b t sg => Sys2Proof.Machine.execQpack4 d a b t sg s
  | .qunpk d a b h sg => Sys2Proof.Machine.execQunpk d a b h sg s
  | .dot4 d a b c => Sys2Proof.Machine.execDot4 d a b c s
  | .dot8 d a b c => Sys2Proof.Machine.execDot8 d a b c s
  | .fdot4 d a b c => Sys2Proof.Machine.execFdot4 d a b c s
  | .mac2 d a b c => Sys2Proof.Machine.execMac2 d a b c s
  | .shrr d a b g sg u => Sys2Proof.Machine.execShrr d a b g sg u s
  | .pk16 d a b g sg u => Sys2Proof.Machine.execPk16 d a b g sg u s
  | .scalep a sg => Sys2Proof.Machine.execScalep a sg s
  | .scalec sg => Sys2Proof.Machine.execScalec sg s
  | .scaleg d sg => Sys2Proof.Machine.execScaleg d sg s
  | .add2 d a b g sg u => Sys2Proof.Machine.execAdd2 d a b g sg u s
  | .sub2 d a b g sg u => Sys2Proof.Machine.execSub2 d a b g sg u s
  | .mul2 d a b g sg u => Sys2Proof.Machine.execMul2 d a b g sg u s
  | .shfl d a b => Sys2Proof.Machine.execShfl d a b s
  | .shflx d a b => Sys2Proof.Machine.execShflx d a b s
  | .slide d a b u k => Sys2Proof.Machine.execSlide d a b u k s
  | .voteBallot d sg => Sys2Proof.Machine.execVoteBallot d sg s
  | .voteAny k p sg => Sys2Proof.Machine.execVoteAny k p sg s
  | .voteAll k p sg => Sys2Proof.Machine.execVoteAll k p sg s
  | .voteCount d sg => Sys2Proof.Machine.execVoteCount d sg s
  | .cred d a o => Sys2Proof.Machine.execCred d a o s
  | .cscan d a x o => Sys2Proof.Machine.execCscan d a x o s
  | .cmask a m => Sys2Proof.Machine.execCmask a m s
  | .elect p a => Sys2Proof.Machine.execElect p a s
  | .matchv d a => Sys2Proof.Machine.execMatchv d a s
  | .ld8s t c x im => Sys2Proof.Machine.execLd8s t c x im s
  | .ld8z t c x im => Sys2Proof.Machine.execLd8z t c x im s
  | .ld16s t c x im => Sys2Proof.Machine.execLd16s t c x im s
  | .ld16z t c x im => Sys2Proof.Machine.execLd16z t c x im s
  | .ld32 t c x im => Sys2Proof.Machine.execLd32 t c x im s
  | .ld64 t c x im => Sys2Proof.Machine.execLd64 t c x im s
  | .ld128 t c x im => Sys2Proof.Machine.execLd128 t c x im s
  | .st8 t c x im => Sys2Proof.Machine.execSt8 t c x im s
  | .st16 t c x im => Sys2Proof.Machine.execSt16 t c x im s
  | .st32 t c x im => Sys2Proof.Machine.execSt32 t c x im s
  | .st64 t c x im => Sys2Proof.Machine.execSt64 t c x im s
  | .st128 t c x im => Sys2Proof.Machine.execSt128 t c x im s
  | .lda d c x e => Sys2Proof.Machine.execLda d c x e s
  | .stl c x sg e => Sys2Proof.Machine.execStl c x sg e s
  | .pref t c x im => Sys2Proof.Machine.execPref t c x im s
  | .ldc t c x im => Sys2Proof.Machine.execLdc t c x im s
  | .stc t c x im => Sys2Proof.Machine.execStc t c x im s
  | .cmov d a => Sys2Proof.Machine.execCmov d a s
  | .cadd d a b => Sys2Proof.Machine.execCadd d a b s
  | .cnarrow d a b c => Sys2Proof.Machine.execCnarrow d a b c s
  | .cdrop d a m => Sys2Proof.Machine.execCdrop d a m s
  | .cget d a f => Sys2Proof.Machine.execCget d a f s
  | .ctest k p a b => Sys2Proof.Machine.execCtest k p a b s
  | .tld g q c x r sg => Sys2Proof.Machine.execTld g q c x r sg s
  | .tst g q c x r sg => Sys2Proof.Machine.execTst g q c x r sg s
  | .aadd d c x sg e => Sys2Proof.Machine.execAadd d c x sg e s
  | .aand d c x sg e => Sys2Proof.Machine.execAand d c x sg e s
  | .aor d c x sg e => Sys2Proof.Machine.execAor d c x sg e s
  | .axor d c x sg e => Sys2Proof.Machine.execAxor d c x sg e s
  | .amins d c x sg e => Sys2Proof.Machine.execAmins d c x sg e s
  | .aminz d c x sg e => Sys2Proof.Machine.execAminz d c x sg e s
  | .amaxs d c x sg e => Sys2Proof.Machine.execAmaxs d c x sg e s
  | .amaxz d c x sg e => Sys2Proof.Machine.execAmaxz d c x sg e s
  | .axchg d c x sg e => Sys2Proof.Machine.execAxchg d c x sg e s
  | .acas d c x sg e => Sys2Proof.Machine.execAcas d c x sg e s
  | .aadd64 d c x sg e => Sys2Proof.Machine.execAadd64 d c x sg e s
  | .rfadd t c x sg e r => Sys2Proof.Machine.execRfadd t c x sg e r s
  | .rfmin t c x sg e r => Sys2Proof.Machine.execRfmin t c x sg e r s
  | .rfmax t c x sg e r => Sys2Proof.Machine.execRfmax t c x sg e r s
  | .radd c x sg e => Sys2Proof.Machine.execRadd c x sg e s
  | .afadd d c x sg e r => Sys2Proof.Machine.execAfadd d c x sg e r s
  | .rel sg => Sys2Proof.Machine.execRel sg s
  | .acq sg => Sys2Proof.Machine.execAcq sg s
  | .phase sg => Sys2Proof.Machine.execPhase sg s
  | .qfence e m => Sys2Proof.Machine.execQfence e m s
  | .bar l n => Sys2Proof.Machine.execBar l n s
  | .bara l n => Sys2Proof.Machine.execBara l n s
  | .barw l n => Sys2Proof.Machine.execBarw l n s
  | .waitm k c x sg e => Sys2Proof.Machine.execWaitm k c x sg e s
  | .notify t c x im => Sys2Proof.Machine.execNotify t c x im s
  | .waitt d a => Sys2Proof.Machine.execWaitt d a s
  | .sleep im => Sys2Proof.Machine.execSleep im s
  | .handle k m h j => Sys2Proof.Machine.execHandle k m h j s
  | .perform t a => Sys2Proof.Machine.execPerform t a s
  | .performr a b => Sys2Proof.Machine.execPerformr a b s
  | .resume a b t => Sys2Proof.Machine.execResume a b t s
  | .resumex t a b c => Sys2Proof.Machine.execResumex t a b c s
  | .discard a => Sys2Proof.Machine.execDiscard a s
  | .hret a => Sys2Proof.Machine.execHret a s
  | .spawn d a b c => Sys2Proof.Machine.execSpawn d a b c s
  | .cmigr g q c x m => Sys2Proof.Machine.execCmigr g q c x m s
  | .mma g q c x => Sys2Proof.Machine.execMma g q c x s
  | .mzero g q c x => Sys2Proof.Machine.execMzero g q c x s
  | .mdrain g q c x t r => Sys2Proof.Machine.execMdrain g q c x t r s
  | .copy g q c x r sg => Sys2Proof.Machine.execCopy g q c x r sg s
  | .copyt g q c x r sg => Sys2Proof.Machine.execCopyt g q c x r sg s
  | .xput g q c x r sg => Sys2Proof.Machine.execXput g q c x r sg s
  | .xget g q c x r sg => Sys2Proof.Machine.execXget g q c x r sg s
  | .dpost g q c x => Sys2Proof.Machine.execDpost g q c x s
  | .send g q c x r sg => Sys2Proof.Machine.execSend g q c x r sg s
  | .rpost g q c x r sg => Sys2Proof.Machine.execRpost g q c x r sg s
  | .rcall g c x => Sys2Proof.Machine.execRcall g c x s
  | .tokq d a => Sys2Proof.Machine.execTokq d a s
  | .gets d n => Sys2Proof.Machine.execGets d n s
  | .sets d n => Sys2Proof.Machine.execSets d n s
  | .getg d a => Sys2Proof.Machine.execGetg d a s
  | .setg d a => Sys2Proof.Machine.execSetg d a s
  | .svc im => Sys2Proof.Machine.execSvc im s
  | .oinv a b => Sys2Proof.Machine.execOinv a b s
  | .linkTrainingComplete pos => Sys2Proof.Machine.execLinkTrainingComplete pos s
  | .queueBind q b => Sys2Proof.Machine.execQueueBind q b s
  | .queueUnbind q => Sys2Proof.Machine.execQueueUnbind q s
  | .objectTableUpdate asid obj words pages => Sys2Proof.Machine.execObjectTableUpdate asid obj words pages s
  | .asidCreate asid otroot objects heapObj segs => Sys2Proof.Machine.execAsidCreate asid otroot objects heapObj segs s
  | .asidDestroy asid => Sys2Proof.Machine.execAsidDestroy asid s
  | .ctrlReset => Sys2Proof.Machine.execCtrlReset s
  | .ctrlFwgo => Sys2Proof.Machine.execCtrlFwgo s
  | .ctrlRaise => Sys2Proof.Machine.execCtrlRaise s
  | .pcieLinkTrained => Sys2Proof.Machine.execPcieLinkTrained s
  | .leaderBeat => Sys2Proof.Machine.execLeaderBeat s
  | .leaderTakeover => Sys2Proof.Machine.execLeaderTakeover s
  | .throttleEvaluation => Sys2Proof.Machine.execThrottleEvaluation s
  | .throttleStep => Sys2Proof.Machine.execThrottleStep s
  | .hbmRefresh => Sys2Proof.Machine.execHbmRefresh s
  | .recalibration => Sys2Proof.Machine.execRecalibration s
  | .telemetryCollection => Sys2Proof.Machine.execTelemetryCollection s
  | .linkstatRefresh => Sys2Proof.Machine.execLinkstatRefresh s
  | .nodeTimeSync => Sys2Proof.Machine.execNodeTimeSync s
  | .timeSynchronisation => Sys2Proof.Machine.execTimeSynchronisation s
  | .idle => Sys2Proof.Machine.execIdle s
  | .laneAcknowledgement => Sys2Proof.Machine.execLaneAcknowledgement s
  | .laneReplay => Sys2Proof.Machine.execLaneReplay s
  | .creditReturn => Sys2Proof.Machine.execCreditReturn s
  | .barrierArrival => Sys2Proof.Machine.execBarrierArrival s
  | .livenessAndLinkState => Sys2Proof.Machine.execLivenessAndLinkState s
  | .livenessSend => Sys2Proof.Machine.execLivenessSend s
  | .foldingTableHeartbeat => Sys2Proof.Machine.execFoldingTableHeartbeat s
  | .heartbeatSend => Sys2Proof.Machine.execHeartbeatSend s
  | .standbyTakeover => Sys2Proof.Machine.execStandbyTakeover s
  | .ldreq => Sys2Proof.Machine.execLdreq s
  | .ldrsp => Sys2Proof.Machine.execLdrsp s
  | .streq => Sys2Proof.Machine.execStreq s
  | .atreq => Sys2Proof.Machine.execAtreq s
  | .atrsp => Sys2Proof.Machine.execAtrsp s
  | .ack => Sys2Proof.Machine.execAck s
  | .nack => Sys2Proof.Machine.execNack s
  | .tldreq => Sys2Proof.Machine.execTldreq s
  | .tlddat => Sys2Proof.Machine.execTlddat s
  | .tstdat => Sys2Proof.Machine.execTstdat s
  | .put => Sys2Proof.Machine.execPut s
  | .getreq => Sys2Proof.Machine.execGetreq s
  | .getdat => Sys2Proof.Machine.execGetdat s
  | .shoot => Sys2Proof.Machine.execShoot s
  | .cmig => Sys2Proof.Machine.execCmig s
  | .note => Sys2Proof.Machine.execNote s
  | .detourRelay => Sys2Proof.Machine.execDetourRelay s
  | .exchangeDpost => Sys2Proof.Machine.execExchangeDpost s
  | .calendar => Sys2Proof.Machine.execCalendar s
  | .close => Sys2Proof.Machine.execClose s
  | .scaleoutData => Sys2Proof.Machine.execScaleoutData s
  | .scaleoutAck => Sys2Proof.Machine.execScaleoutAck s
  | .rnr => Sys2Proof.Machine.execRnr s
  | .hrdr => Sys2Proof.Machine.execHrdr s
  | .hwra => Sys2Proof.Machine.execHwra s
  | .drd => Sys2Proof.Machine.execDrd s
  | .dwr => Sys2Proof.Machine.execDwr s
  | .trayNote => Sys2Proof.Machine.execTrayNote s
  | .rply => Sys2Proof.Machine.execRply s
  | .trayNack => Sys2Proof.Machine.execTrayNack s
  | .gangPlacement => Sys2Proof.Machine.execGangPlacement s
  | .parkEviction => Sys2Proof.Machine.execParkEviction s
  | .sleepExpiry => Sys2Proof.Machine.execSleepExpiry s
  | .serviceCallReply => Sys2Proof.Machine.execServiceCallReply s
  | .ret => Sys2Proof.Machine.execRet s
  | .exit => Sys2Proof.Machine.execExit s
  | .nop => Sys2Proof.Machine.execNop s
  | .unframe => Sys2Proof.Machine.execUnframe s
  | .fence => Sys2Proof.Machine.execFence s
  | .ifence => Sys2Proof.Machine.execIfence s
  | .unhandle => Sys2Proof.Machine.execUnhandle s
  | .brk => Sys2Proof.Machine.execBrk s
  | .illegalInstruction => Sys2Proof.Machine.execIllegalInstruction s
  | .instructionFetchFault => Sys2Proof.Machine.execInstructionFetchFault s

end Sys2Proof.Machine
end

