-- ==== Sys2Proof/Machine/Issue.lean ====
section
/-! DEFINITION. The issue of a bundle: a lone slot, or a chain (R284, R288), what an issue costs (R155, R161, R165), and the visit of a quarter in a cycle (R162). The meanings of the instructions are a parameter. -/

namespace Sys2Proof.Machine

/-- The outcome of a step of this machine. -/
abbrev Res : Type := Host.Outcome State Fault Refusal

/-- The meanings of the instructions. -/
abbrev Exec : Type := Instr → State → Res

/-- Go on after a next state. -/
def andThen (o : Res) (f : State → Res) : Res :=
  match o with
  | .next s => f s
  | .fault r => .fault r
  | .refused r => .refused r

/-- A slot of a chain: its number, its instruction and its control byte. -/
abbrev ChainSlot : Type := Nat × Instr × BitVec 8

/-! ## Chains (R288) -/

/-- Remove from the scoreboarded results that a slot has just added those whose register a later slot of the chain writes as well: the later slot's write remains. Results of fixed latency stay, each due at its own count (R165, R166): the later slot's is the last in order. -/
def trimLater (L : Launch) (before after : State) (later : List ChainSlot) : State :=
  after.each after.cur.fids (fun s id f =>
    match before.fib id with
    | none => s
    | some old =>
      let ws := later.flatMap (fun x => slotWrites L x.2.1 x.2.2 old)
      s.modFib id (fun _ => { f with
        infl := f.infl.take old.infl.length ++ (f.infl.drop old.infl.length).map (fun l => l.filter (fun w => !ws.contains w.reg)) }))

/-- Issue the slots of a chain one after the other for the current fibres. -/
def runSlots (ex : Exec) (L : Launch) (all : List ChainSlot) : List ChainSlot → State → Res
  | [], s => .next s
  | x :: xs, s =>
    andThen (ex x.2.1 { s with cur := { s.cur with slot := x.1, ctl := x.2.2 } })
      (fun t => runSlots ex L all xs (trimLater L s t (all.filter (fun y => decide (x.1 < y.1)))))

/-- Start every fibre of the bundle with no flag, so that the flags which some slots raise can be told from those before the chain. -/
def State.noFlags (s : State) : State := s.each s.cur.fids (fun s id _ => s.modFib id (fun f => { f with fflags := 0 }))

/-- Give every fibre of the bundle the flags that it has in another state. -/
def State.flagsOf (s from_ : State) : State :=
  s.each s.cur.fids (fun s id f => s.modFib id (fun x => { x with fflags := ((from_.fib id).map (·.fflags)).getD f.fflags }))

/-- A control slot that writes %fflags whole. -/
def setsFlags : Instr → Bool
  | .sets _ n => n.toNat == 0x021
  | _ => false

/-- Bring the results of the control slot, which ran last, into slot order: a is the state after the slots before it, b after those behind it. Its fixed results stand between theirs; flags are added up, but a write of %fflags drops those of earlier slots. -/
def inOrder (x : ChainSlot) (a b t : State) : State :=
  t.each t.cur.fids (fun t id f =>
    match a.fib id, b.fib id with
    | some fa, some fb =>
      let m := fa.out.length
      let n := fb.out.length
      let early : Word := if setsFlags x.2.1 && fa.guard x.2.2 then 0 else fa.fflags
      t.modFib id (fun _ => { f with
        fflags := f.fflags ||| early ||| fb.fflags,
        out := if f.out.take n = fb.out then f.out.take m ++ f.out.drop n ++ fb.out.drop m else f.out })
    | _, _ => t)

/-- Issue every slot of a chain: the control slot last, so that its target is the successor and no other slot sees a frame, a segment or a special register that it changes; what each writes stands in slot order, and it reads the flags from before the chain. -/
def runChain (ex : Exec) (L : Launch) (p : CodePacket) (all : List ChainSlot) (s : State) : Res :=
  match all.find? (fun x => pipeOf (p.op x.1) == some .ctl) with
  | none => runSlots ex L all all s
  | some c =>
    andThen (runSlots ex L all (all.filter (fun x => decide (x.1 < c.1))) s.noFlags) (fun a =>
      andThen (runSlots ex L all (all.filter (fun x => decide (c.1 < x.1))) a.noFlags) (fun b =>
        andThen (runSlots ex L all [c] (b.flagsOf s)) (fun t => .next (inOrder c a b t))))

/-- A slot that waits does so by itself: what it has begun (a walk, a request) stays, and nothing of the other slots does. The first slot that waits decides; an arrival at a rendezvous only where no other does, since the chain must then be able to issue. The state, and what the fibre waits for. -/
def holdAlone (ex : Exec) (fid : Nat) : List ChainSlot → State → State × Option Wait
  | [], s => (s, none)
  | x :: xs, s =>
    match ex x.2.1 { s with cur := { s.cur with slot := x.1, ctl := x.2.2, fids := [fid], raised := [], held := [] } } with
    | .next t => match t.cur.held with
      | [] => holdAlone ex fid xs s
      | h :: _ =>
        if h.2.isMeeting then
          let r := holdAlone ex fid xs s
          (r.1, some (r.2.getD h.2))
        else ({ t with cur := s.cur }, some h.2)
    | _ => (s, none)

/-- Each fibre that a slot of the chain holds waits by itself. -/
def holdEach (ex : Exec) (all : List ChainSlot) (fids : List Nat) (s : State) : State × List (Nat × Wait) :=
  fids.foldl (fun (x : State × List (Nat × Wait)) n =>
    match holdAlone ex n all x.1 with
    | (t, some w) => (t, x.2 ++ [(n, w)])
    | (t, none) => (t, x.2)) (s, [])

/-- Perform the effects raised after the chain: in each fibre the first, in slot order. -/
def raiseAfter (s : State) (rs : List Raised) : State :=
  s.cur.fids.foldl (fun s n =>
    match rs.foldl (fun (b : Option Raised) (r : Raised) =>
        if r.fid = n then (match b with
          | none => some r
          | some x => if r.slot < x.slot then some r else some x) else b) none with
    | none => s
    | some r => s.raise (s.curId n) r.eff) s

/-- Issue a chain: first for all fibres; those that raise an effect at a slot or must wait are left out and the rest is issued anew from the same state. Then the effects are performed. -/
def chainTry (ex : Exec) (L : Launch) (p : CodePacket) (all : List ChainSlot) (s0 : State) : Nat → State → List Raised → List (Nat × Wait) → Res
  | 0, s, _, _ => .next s
  | n + 1, s, effs, holds =>
    andThen (runChain ex L p all { s with cur := { s.cur with raised := [], held := [] } }) (fun t =>
      let bad := t.cur.raised.filter (·.atInstr)
      let held := ((t.cur.held.map (·.1)).filter (fun h => !bad.any (fun r => r.fid == h))).dedup
      if bad.isEmpty && held.isEmpty then
        let late := t.cur.raised
        let t := { t with cur := { t.cur with inChain := false } }
        let t := raiseAfter t late
        let t := { t with cur := { t.cur with fids := s0.cur.fids } }
        let t := t.over (effs.map (·.fid)) (fun t n => t.modFib (t.curId n) (fun f => { f with met := none }))
        let t := raiseAfter t effs
        let t := holds.foldl (fun (t : State) h => t.holdAt (t.curId h.1) t.cur.first h.2) t
        .next ({ t with cur := { t.cur with held := holds } }.settle t.cur.launch t.cur.wgid)
      else
        let r := holdEach ex all held s
        let out := bad.map (·.fid) ++ held
        chainTry ex L p all s0 n { r.1 with cur := { s.cur with fids := s.cur.fids.filter (fun f => !out.contains f) } } (effs ++ bad) (holds ++ r.2))

/-- Issue a chain after the checks of all its slots. -/
def issueChain (ex : Exec) (L : Launch) (p : CodePacket) (all : List ChainSlot) (s : State) : Res :=
  let (s1, ok, effs) := s.precheck L (all.map (·.2))
  let fids := s.cur.fids
  let raised := effs.map (fun x => (⟨x.1, 0, true, ⟨x.2.1, x.2.2, true, s.cur.first, none, .none, none⟩⟩ : Raised))
  chainTry ex L p all s (fids.length + 1) { s1 with cur := { s1.cur with fids := ok, inChain := true } } raised []

/-! ## One issue -/

/-- Issue what stands at a program counter for some fibres of a workgroup. -/
def issueAt (ex : Exec) (L : Launch) (w : Nat) (fids : List Nat) (pc : Word) (pkt : Option CodePacket) (s : State) : Res :=
  let k := slotAt pc
  let cur : Cur := ⟨L.id, w, fids, BitVec.ofNat 32 (packetAt pc), k, 0x07#8, pc, pc, false, [], [], fids⟩
  match pkt with
  | none => ex .instructionFetchFault { s with cur := cur }
  | some p =>
    if p.illegal then ex .illegalInstruction { s with cur := cur }
    else
      let ks := chainOf p k
      let cur := { cur with next := BitVec.ofNat 32 (successor p (packetAt pc) (ks.getLastD k + 1)) }
      match slotsOf p ks with
      | none => ex .illegalInstruction { s with cur := cur }
      | some [(i, ctl)] => ex i { s with cur := { cur with ctl := ctl } }
      | some sl => issueChain ex L p (ks.zip sl) { s with cur := cur }

/-- The stall count of an issue: the largest of its slots (R161). -/
def stallOf (p : CodePacket) (k : Nat) : Nat := ((chainOf p k).map (fun j => p.ctlByte j / 16)).foldl max 0

/-- The bundle before its issue: results that are covered are taken up, the age falls to zero, and an issue of anything but WAITM breaks a park (R142, R162, R165). -/
def preIssue (s : State) (l w : Nat) (fids : List Nat) (waitm : Bool) : State :=
  fids.foldl (fun s n => s.modFib ⟨l, w, n⟩ (fun f => { f.settle with age := 0, parked := if waitm then f.parked else none })) s

/-- After the issue: the issue count and the earliest next issue of the fibres that were not held (R161, R165); a held fibre keeps its age and its answer. A fibre that has gone on from a WAITM has broken its park (R142). -/
def postIssue (s : State) (l w : Nat) (old : List Fibre) (stall : Nat) : State :=
  old.foldl (fun s o =>
    s.modFib ⟨l, w, o.fid⟩ (fun f =>
      if s.cur.held.any (fun h => h.1 == o.fid) then { f with age := o.age, parked := o.parked }
      else { f with k := f.k + max 1 stall, readyAt := s.clock.toNat + max 1 stall, resp := none, parked := if f.wait = .none then none else f.parked })) s

/-- The cycles for which an issue holds a pipe (R155). -/
def occupancy (p : Pipe) : Nat :=
  match p with
  | .sfu => 4
  | .xln => 2
  | _ => 1

/-- Hold the pipes of an issue. -/
def takePipes (s : State) (core q : Nat) (ps : List Pipe) : State :=
  if ps = [] then s
  else
    let now := s.clock.toNat
    s.modCore core (fun c =>
      let old := c.busy.filter (fun b => decide (now < b.2.2))
      let eng := ps.contains .eng
      { c with busy := old ++ ps.map (fun p => (q, pipeNum p, now + occupancy p)) ++ (if eng then [(4, pipeNum .eng, now + 1)] else []),
               engLast := if eng then q else c.engLast })

/-! ## A quarter's turn in a cycle -/

/-- A fibre that could issue in this cycle. -/
def Fibre.awake (f : Fibre) (now : Nat) : Bool := f.wait == .none && f.copy.isNone && decide (f.readyAt ≤ now)

/-- A fill of a line is on its way to a core of a core block (R180). -/
def State.filling (s : State) (block asid obj line : Nat) : Bool :=
  s.agenda.any (fun t => match t.ev with
    | .icacheFill c a o l => blockOf c == block && a == asid && o == obj && l == line
    | _ => false)

/-- Before the choice: awake fibres pass over empty slots, those whose packet is not in the cache wait for its fill, joining one that any core of the block has under way, and for those that wait for a pending register the writes of fixed latency are performed (R166, R180, R287). -/
def prepare (s : State) (L : Launch) (g : Wg) (q : Nat) : State :=
  (g.fibres.filter (fun f => quarterOf f.fid == q && f.awake s.clock.toNat)).foldl (fun s f =>
    let c := s.core g.core
    let f' := c.skipEmpty L.asid 4097 f
    let id : FibId := ⟨L.id, g.wgid, f.fid⟩
    let s := s.modFib id (fun x => { x with pc := f'.pc })
    match c.fetch L.asid f' with
    | .miss =>
      let line := packetAt f'.pc / 128
      let s := s.holdAt id f'.pc (.icache L.asid f'.code.obj.toNat line)
      if s.filling (blockOf g.core) L.asid f'.code.obj.toNat line then s else s.later 1 (.icacheFill g.core L.asid f'.code.obj.toNat line)
    | .packet p =>
      match slotsOf p (chainOf p (slotAt f'.pc)) with
      | none => s
      | some sl => if p.illegal || s.unblocked L g.wgid f'.settle sl then s else s.modFib id Fibre.settleFixed
    | .fault _ => s) s

/-- The ready fibres that were not chosen grow older (R162). -/
def ageOthers (s : State) (l w : Nat) (rs chosen : List Ready) : State :=
  (rs.filter (fun r => !chosen.any (fun x => x.fib.fid == r.fib.fid))).foldl (fun s r =>
    s.modFib ⟨l, w, r.fib.fid⟩ (fun f => { f with age := f.age + 1 })) s

/-- Insert a number into an ascending list. -/
def insertAsc (n : Nat) : List Nat → List Nat
  | [] => [n]
  | x :: xs => if n ≤ x then n :: x :: xs else x :: insertAsc n xs

/-- A WAITM stands among the slots that issue. -/
def hasWaitm (p : CodePacket) (k : Nat) : Bool := (chainOf p k).any (fun j => p.op j == 0xC9)

/-- Issue a chosen bundle: the fibres whose fetch failed, and those that have the packet. -/
def issueChosen (ex : Exec) (L : Launch) (g : Wg) (q : Nat) (chosen : List Ready) (s : State) : Res :=
  match chosen with
  | [] => .next s
  | r :: _ =>
    let part (b : Bool) : List Ready := chosen.filter (fun x => x.pkt.isSome == b)
    let asc (rs : List Ready) : List Nat := rs.foldr (fun x acc => insertAsc x.fib.fid acc) []
    let go (b : Bool) (s : State) : Res :=
      match part b with
      | [] => .next s
      | x :: xs =>
        let stall := match x.pkt with
          | none => 0
          | some p => stallOf p (slotAt r.fib.pc)
        let waitm := match x.pkt with
          | none => false
          | some p => hasWaitm p (slotAt r.fib.pc)
        let s := preIssue s L.id g.wgid (asc (x :: xs)) waitm
        andThen (issueAt ex L g.wgid (asc (x :: xs)) r.fib.pc x.pkt s)
          (fun t => .next { postIssue t L.id g.wgid ((x :: xs).map (·.fib)) stall with cur := Cur.reset })
    andThen (go true (takePipes s g.core q r.pipes)) (go false)

/-- A quarter's turn. The quarters whose turns follow are looked at first as well, since the ENG pipe serves the quarters of a core in rotation (R155). -/
def visit (ex : Exec) (L : Launch) (g : Wg) (q : Nat) (s : State) : Res :=
  let s := ((List.range 4).filter (fun x => decide (q ≤ x))).foldl (fun s x => match s.wg g.launch g.wgid with
    | none => s
    | some g => prepare s L g x) s
  match s.wg g.launch g.wgid with
  | none => .next s
  | some g =>
    let rs := s.readyIn L g q
    let chosen := s.bundle L g q
    if wantsEng chosen && !s.engServes L g q then .next (ageOthers s L.id g.wgid rs [])
    else issueChosen ex L g q chosen (ageOthers s L.id g.wgid rs chosen)

/-- The workgroup's gang is RUNNING (R137). -/
def State.runs (s : State) (L : Launch) (g : Wg) : Bool :=
  g.placed && !g.retired && (match s.gang L.id (L.gangOf g.wgid) with
    | none => false
    | some x => x.st == .running)

/-- The next quarter that has an awake fibre, from the current turn on: core and quarter in ascending order. -/
def State.nextVisit (s : State) : Option (Launch × Wg × Nat) :=
  s.wgs.foldl (fun (b : Option (Launch × Wg × Nat)) (g : Wg) =>
    match s.launch g.launch with
    | none => b
    | some L =>
      if !s.runs L g then b
      else match (List.range 4).find? (fun q => decide (s.turn ≤ 4 * g.core + q) && g.fibres.any (fun f => quarterOf f.fid == q && f.awake s.clock.toNat)) with
        | none => b
        | some q => match b with
          | none => some (L, g, q)
          | some (_, g', q') => if 4 * g.core + q < 4 * g'.core + q' then some (L, g, q) else b) none

/-- One turn of the pickers: the next quarter with an awake fibre, or the next cycle. -/
def turnOf (ex : Exec) (s : State) : Res :=
  match s.nextVisit with
  | none => .next s.advance
  | some (L, g, q) => andThen (visit ex L g q s) (fun t => .next { t with turn := 4 * g.core + q + 1 })

end Sys2Proof.Machine
end

