-- ==== Sys2Proof/Machine/Load.lean ====
section
/-! DEFINITION. The load of a program that stands for a launch (log entry 8): one code object with one packet, one fibre at its first slot, and nothing else that the machine could do first. -/

namespace Sys2Proof.Machine

/-- The packet that holds a slot word (and its extension words) in slot 1 and empty slots after it (R283, R286, R287). -/
def packetBytes (w : Nat) : List Byte :=
  let op := w / 2 ^ 24 % 256
  let x := w / 2 ^ 32 % 2 ^ 32
  let y := w / 2 ^ 64 % 2 ^ 32
  if isWOp op then leBytes 4 0xC0000007 ++ leBytes 4 w ++ leBytes 4 x ++ leBytes 4 y
  else if isLOp op then leBytes 4 0x400F0007 ++ leBytes 4 w ++ leBytes 4 x ++ leBytes 4 0x0A000000
  else leBytes 4 0x000F0F07 ++ leBytes 4 w ++ leBytes 4 0x0A000000 ++ leBytes 4 0x0A000000

/-- An extent entry of an object table (R208, R209). -/
def extentEntry (use size base : Nat) : List Byte :=
  natBytes 8 (2 ^ 60 + use * 2 ^ 54 + size) ++ natBytes 8 0 ++ natBytes 8 base ++ natBytes 8 0

/-- The launch under which the loaded packet runs: one workgroup of 32 fibre slots, 64 registers, every offered feature accepted. -/
def loadLaunch : Launch :=
  { id := 1, queue := 0, slot := 0, asid := 1, prio := 0, schk := false, check := false, early := false, cores := false, indirect := false,
    regs := 64, crew := 32, gangLog := 0, fibres := 32, rf := 4, sp := 24, ac := 4, gridX := 1, gridY := 1, gridZ := 1, count := 1,
    entry := 0, code := ⟨true, 1, 0xA0#8, 1#4, 0, 0x10000#48⟩, args := ⟨true, 3, 0xFD#8, 0#4, 0, 0x10000#48⟩, event := ⟨true, 3, 0xFD#8, 0#4, 0, 0x10000#48⟩,
    compOff := 0, compVal := 1, dep0 := (0, 0), dep1 := (0, 0), indOff := 0, indMax := 0,
    formats := List.replicate 8 0, hier := [⟨2, 0, 1, 32⟩, ⟨3, 0, 16, 1⟩, ⟨4, 1, 8, 1⟩], accept := Config.offer0, placedLaunch := true, nextGang := 1,
    aborted := 0, abortTag := 0, lost := false, refusal := 0,
    rings := List.replicate 64 ⟨List.replicate 16 none, 0, 0⟩, stall := none, unfit := false }

/-- The address space of the load: object 1 the code at 0x20000, object 2 the frame heap at 0x30000, object 3 data at 0x40000, the table at 0x10000. -/
def loadAsid : AsidDesc := ⟨1, 0x10000, 4, 2, 1, true, false, 0, List.range 64⟩

/-- The machine with a slot word loaded: the next step fetches and runs it as the first instruction of fibre 0. -/
def State.load (s : State) (w : Nat) : State :=
  let code := packetBytes w
  let m := ((s.mem.write 0x10020 (extentEntry 0 0x10000 0x20000)).write 0x10040 (extentEntry 1 0x10000 0x30000)).write 0x10060 (extentEntry 0 0x10000 0x40000)
  let s := { s with
    mem := m.write 0x20000 code, mg := { s.mg with mgmt := true, limited := false, full := true, inForce := Config.offer0 },
    power := { s.power with stopped := false },
    agenda := [], rxq := [], trayRx := [], soRx := [], sbRx := [], cur := Cur.reset,
    turn := 0, launches := [loadLaunch], queues := [], gangs := [⟨1, 0, .running, [0], false, false, false, s.ticks + 2000000, s.ticks⟩], holds := [], units := [], hampers := State.reset.hampers,
    wgs := [Wg.start loadLaunch 0 0], asids := [loadAsid], cmds := [], tiles := [],
    cores := [{ Core.empty 0 with icache := [⟨1, 1, 0, code⟩] }] }
  s.startFibre loadLaunch 0 0 0

end Sys2Proof.Machine
end

