-- ==== Sys2Proof/Machine/Poll.lean ====
section
/-! DEFINITION. Which operation comes before the next issue: an entry of the agenda whose time has come, a packet or message that has arrived and need not wait, or an action of a unit whose condition holds. -/

namespace Sys2Proof.Machine

/-- Bring the first element that satisfies a test to the head. -/
def pullFirst {α : Type} (p : α → Bool) (xs : List α) : Option (α × List α) :=
  match xs.dropWhile (fun x => !p x) with
  | [] => none
  | x :: rest => some (x, x :: (xs.takeWhile (fun x => !p x) ++ rest))

/-! ## Arrivals -/

/-- The operation that receives a fabric packet (R30, R41). -/
def State.fabricEvent (s : State) (p : Packet) : Option Instr :=
  if p.dst.val ≠ s.pos then some .detourRelay
  else match p.kind.toNat with
    | 0x01 => some .ldreq
    | 0x02 => some .ldrsp
    | 0x03 => some .streq
    | 0x04 => some .atreq
    | 0x05 => some .atrsp
    | 0x06 => some .ack
    | 0x07 => some .nack
    | 0x08 => some .tldreq
    | 0x09 => some .tlddat
    | 0x0A => some .tstdat
    | 0x0B => some .put
    | 0x0C => some .getreq
    | 0x0D => some .getdat
    | 0x0E => some .shoot
    | 0x0F => if p.op = 1#8 then some .exchangeDpost else if p.op = 2#8 then some .calendar else if p.op = 3#8 then some .close else none
    | 0x10 => some .cmig
    | 0x11 => some .note
    | _ => none

/-- The operation that receives a tray-link packet (R84). -/
def trayEvent (p : Packet) : Option Instr :=
  match p.kind.toNat with
  | 0x02 => some .hrdr
  | 0x04 => some .hwra
  | 0x05 => some .drd
  | 0x07 => some .dwr
  | 0x09 => some .trayNote
  | 0x0A => some .rply
  | 0x0C => some .trayNack
  | _ => none

/-- The operation that receives a scale-out packet (R79). -/
def soEvent (p : SoPacket) : Option Instr :=
  match p.kind.toNat with
  | 1 => some .scaleoutData
  | 2 => some .scaleoutAck
  | 3 => some .rnr
  | _ => none

/-- The operation that receives a sideband message (R28). -/
def sidebandEvent (m : Sideband) : Option Instr :=
  match m.type.toNat with
  | 0 => some .idle
  | 1 => some .laneAcknowledgement
  | 2 => some .laneReplay
  | 3 => some .creditReturn
  | 4 => some .barrierArrival
  | 5 => some .livenessAndLinkState
  | 6 => some .timeSynchronisation
  | 7 => some .foldingTableHeartbeat
  | _ => none

/-- The first fabric packet that need not wait for a latched line comes first (R242). -/
def State.nextFabric (s : State) : Option (Instr × State) :=
  (pullFirst (fun p => (s.fabricEvent p).isSome && !s.rxBlocked p) s.rxq).bind (fun x => (s.fabricEvent x.1).map (fun ev => (ev, { s with rxq := x.2 })))

/-- As pullFirst for tray-link packets: none passes an earlier one of its link that waits (R88). -/
def trayPull (ok : Nat × Packet → Bool) : List (Nat × Packet) → List Nat → List (Nat × Packet) → Option ((Nat × Packet) × List (Nat × Packet))
  | [], _, _ => none
  | x :: xs, stuck, seen => if !stuck.contains x.1 && ok x then some (x, x :: (seen ++ xs)) else trayPull ok xs (x.1 :: stuck) (seen ++ [x])

/-- The next tray-link packet. -/
def State.nextTray (s : State) : Option (Instr × State) :=
  (trayPull (fun x => (trayEvent x.2).isSome && !s.trayBlocked x.1 x.2) s.trayRx [] []).bind (fun x => (trayEvent x.1.2).map (fun ev => (ev, { s with trayRx := x.2 })))

/-- The next scale-out packet that need not wait. -/
def State.nextSo (s : State) : Option (Instr × State) :=
  (pullFirst (fun p => (soEvent p).isSome && !s.soHeld p) s.soRx).bind (fun x => (soEvent x.1).map (fun ev => (ev, { s with soRx := x.2 })))

/-- The next sideband message. -/
def State.nextSideband (s : State) : Option (Instr × State) :=
  (pullFirst (fun m => (sidebandEvent m.2.2).isSome) s.sbRx).bind (fun x => (sidebandEvent x.1.2.2).map (fun ev => (ev, { s with sbRx := x.2 })))

/-! ## Units -/

/-- A queue number as it stands in an operation. -/
def queueF (n : Nat) : Fin 1024 := ⟨n % 1024, Nat.mod_lt n (by decide)⟩

/-- The action of a queue's dispatcher (R114, R128, R136). -/
def State.queueEvent (s : State) (x : Queue) : Option Instr :=
  if s.canConsume x then some (.recordConsumption (queueF x.q))
  else if s.canDepend x then some (.dependenceMet (queueF x.q))
  else none

/-- The queue in HANDOVER with the lowest number, when the table has room (R136). -/
def State.handoverEvent (s : State) : Option Instr :=
  if s.tableRoom then (leastBy (·.q) (s.queues.filter (fun x => x.st == .handover))).map (fun x => .launchHandover (queueF x.q)) else none

/-- A launch that can complete now (R127). -/
def State.completionEvent (s : State) : Option Instr :=
  (s.launches.find? s.canComplete).map (fun L => .launchCompletion L.id)

/-- A Hamper window that has ended (R214). -/
def State.windowEvent (s : State) : Option Instr :=
  (([0, 1, 2, 3] : List (Fin 4)).find? (fun d => (s.hamper d.val).windowEnd.any (fun e => decide (e ≤ s.ticks)))).map .hamperWindowEnd

/-- Some sleeper's time has come (R377). -/
def State.sleepEvent (s : State) : Option Instr :=
  if s.allFibres.any (fun x => match x.2.wait with
    | .sleep t => decide (t ≤ s.ticks) && s.sleeps x.1
    | _ => false) then some .sleepExpiry else none

/-- A workgroup that can retire, or whose gang has just ended or has lost data (R107, R137, R148). -/
def State.retireEvent (s : State) : Option Instr :=
  (s.wgs.find? (fun w => s.hurts.contains (.gang w.launch w.gang) || w.fibres.isEmpty && ((!w.retired && s.wgClear w) || (s.gang w.launch w.gang).any s.endedGang))).map (fun w => .workgroupRetirement w.launch w.wgid)

/-- What a gang's state calls for (R143, R145 to R147). -/
def State.gangEvent (s : State) (g : Gang) : Option Instr :=
  match g.st with
  | .halting => if s.halted g then some (.coreHalt g.launch g.index) else none
  | .saving => if (s.gangFibres g).isEmpty || s.gangReleased g then some (.contextImageSaved g.launch g.index) else none
  | .restoring => some (.gangRestoration g.launch g.index)
  | .running => if g.quantumEnd ≤ s.ticks then some (.quantumExpiry g.launch g.index) else none
  | _ => none

/-- A fibre has reply bytes to copy, and waits for nothing any more (R199). -/
def State.copyEvent (s : State) : Option Instr :=
  (s.allFibres.find? (fun x => x.2.copy.isSome && x.2.wait == .none && s.onCores x.1)).map (fun x => .releaseComplete x.1)

/-- The first action of a unit whose condition holds. -/
def State.unitEvent (s : State) : Option Instr :=
  s.completionEvent <|> s.queues.findSome? s.queueEvent <|> s.handoverEvent <|> s.windowEvent <|> s.copyEvent <|> s.sleepEvent <|> s.retireEvent <|>
  s.gangs.findSome? s.gangEvent <|> (s.placeNext.map (fun _ => .gangPlacement)) <|> (s.evictNext.map (fun _ => .parkEviction))

/-! ## The next operation -/

/-- The entry at the head of the agenda, when its time has come. -/
def State.nextDue (s : State) : Option (Instr × State) :=
  match s.agenda with
  | t :: rest => if t.due ≤ s.ticks then some (t.ev, { s with agenda := rest }) else none
  | [] => none

/-- The operation that comes next, and the state in which it happens; once the clocks have stopped, only what is on the agenda or has arrived (R21). -/
def State.nextEvent (s : State) : Option (Instr × State) :=
  s.nextDue <|> s.nextSideband <|> s.nextFabric <|> s.nextTray <|> s.nextSo <|> (if s.power.stopped then none else s.unitEvent.map (fun ev => (ev, s)))

/-- Nothing is on the agenda and nothing has arrived. -/
def State.quiet (s : State) : Bool := s.agenda.isEmpty && s.rxq.isEmpty && s.trayRx.isEmpty && s.soRx.isEmpty && s.sbRx.isEmpty

end Sys2Proof.Machine
end

