-- ==== Sys2Proof/Machine/Step.lean ====
section
/-! DEFINITION. One step of the machine: the operation that is due, else a turn of the pickers; and the load of a program for the host's probe. -/

namespace Sys2Proof.Machine

/-- One step: an operation that is due or enabled (Poll.lean); else, while the arithmetic clocks run, a turn of the pickers (Issue.lean); else time goes on. -/
def step (s : State) : Host.Outcome State Fault Refusal :=
  match s.nextEvent with
  | some (ev, s') => exec ev s'
  | none =>
    if s.power.stopped then (if s.quiet then .fault .clocksStopped else .next s.tick)
    else turnOf exec s

/-- The machine with an instruction's words loaded where the next step fetches: a load from outside stands for the launch of a program (log entry 8). -/
def State.withFetchWord (s : State) (_nbits w : Nat) : State := s.load w

end Sys2Proof.Machine
end

