-- ==== Sys2Proof/Safety.lean ====
section
/-! DEFINITION. The terms in which claims are stated: memories in canonical form, an instruction that issues by itself, what a step leaves as it was, and a safe step. -/

namespace Sys2Proof.Machine

/-! ## Canonical memories -/

/-- Device memory and every scratchpad are in canonical form. -/
def State.memOk (s : State) : Bool := s.mem.wf && s.wgs.all (fun g => g.scratch.wf)

/-! ## An instruction that issues by itself -/

/-- Nothing at its issue keeps a fibre of the bundle from an instruction: it is live, reads nothing uncovered under SCHK (R165) and no unread error token under CHECK (R195, R279). -/
def State.clear (s : State) (L : Launch) (i : Instr) (n : Nat) : Bool :=
  match s.fib (s.curId n) with
  | none => false
  | some f => !(L.schk && readsUncovered L f [] [(i, s.cur.ctl)]) && !(L.check && (s.badToken L [(i, s.cur.ctl)] f).isSome)

/-- An instruction issues by itself (not in a chain) for a bundle of distinct fibres, its decode checks pass (R292), and nothing keeps a fibre from it. -/
def State.lone (s : State) (i : Instr) : Bool :=
  !s.cur.inChain && decide s.cur.fids.Nodup && (match s.launch s.cur.launch with
    | none => false
    | some L => legalIn L i && s.cur.fids.all (s.clear L i))

/-- As lone, for one fibre, which executes the instruction (R284). -/
def State.alone (s : State) (i : Instr) (f : Fibre) : Bool :=
  s.lone i && s.cur.fids == [f.fid] && s.fib (s.curId f.fid) == some f && f.guard s.cur.ctl

/-- The bundle lists the number of a fibre of the issuing workgroup. -/
def State.inBundle (s : State) (id : FibId) : Prop := id.launch = s.cur.launch ∧ id.wgid = s.cur.wgid ∧ id.fid ∈ s.cur.fids

/-- The fibres of the bundle that execute. -/
def State.exeOf (s : State) : List Nat := ((s.curFibs s.cur.fids).filter (fun f => f.guard s.cur.ctl)).map (·.fid)

/-- The state in which an instruction acts: every fibre of the bundle has taken its fall-through successor (R303). -/
def State.gone (s : State) : State := s.each s.cur.fids (fun u id _ => u.jump id u.cur.next)

/-- The state with another agenda. -/
def State.withAgenda (s : State) (a : List Timed) : State := { s with agenda := a }

/-- The agenda with a write-back for each of these fibres, one tick from now. -/
def State.withWritebacks (s : State) (ns : List Nat) : State :=
  s.withAgenda (ns.foldl (fun a n => agendaInsert a ⟨s.ticks + 1, .resultWriteback (s.curId n)⟩) s.agenda)

/-! ## What is left as it was -/

/-- Everything but the fibres. -/
def State.bare (s : State) : State := { s with wgs := s.wgs.map (fun g => { g with fibres := [] }) }

/-- From s to t each fibre of the bundle changes by h, and nothing else changes: no other fibre, no byte of memory or of a scratchpad, no group, special or status register of anything. -/
def bundleChange (s t : State) (h : Fibre → Fibre) : Prop :=
  (∀ id f, s.inBundle id → s.fib id = some f → t.fib id = some (h f)) ∧ (∀ id, ¬ s.inBundle id → t.fib id = s.fib id) ∧ t.bare = s.bare

/-- From s to t one fibre becomes f', and no other fibre changes. -/
def fibreChange (s t : State) (id : FibId) (f' : Fibre) : Prop := t.fib id = some f' ∧ ∀ j, j ≠ id → t.fib j = s.fib j

/-- A fibre after an instruction that it does not execute, or that gives it no result: it takes the fall-through successor (R303). -/
def Fibre.passes (f : Fibre) (s : State) : Fibre := { f with pc := s.cur.next }

/-- A fibre after an instruction with results of fixed latency (R165): due at issue count K + lat, flags added (R253). -/
def Fibre.results (f : Fibre) (s : State) (lat : Nat) (ws : List WB) (fl : Word) : Fibre :=
  { f with pc := s.cur.next, fflags := f.fflags ||| fl, out := f.out ++ ws.map (fun w => ⟨w, f.k + lat⟩) }

/-- A fibre after an instruction with scoreboarded results (R160): its registers are pending until the write-back. -/
def Fibre.pends (f : Fibre) (s : State) (ws : List WB) (fl : Word) : Fibre :=
  { f with pc := s.cur.next, fflags := f.fflags ||| fl, infl := f.infl ++ [ws] }

/-- The flags of a result raise no arithmetic trap in a fibre (R254). -/
def Fibre.quietOn (f : Fibre) (fl : Word) : Bool := !(fl.getLsbD 0 && f.fmode.getLsbD 9) && !(fl.getLsbD 1 && f.fmode.getLsbD 10)

/-! ## Safe steps -/

/-- A safe step answers a next state: no fault and no refusal. -/
def State.safeStep (s : State) : Prop := ∃ t, step s = .next t

end Sys2Proof.Machine
end

