-- ==== Sys2Proof/Certificates/Slice0/Obligations.lean ====
section
/-! DEFINITION. The statements for the provers (def Obligations.<Name> : Prop), and before them the tables of the manual in which they are stated. -/

namespace Sys2Proof.Claims

open Sys2Proof.Machine

/-! ## Integer results -/

/-- An integer R form by its rule (R323, R324): destination, operands, G, SAT, U, latency, and the exact result from sA, sB, A and B. -/
structure IntForm where
  d : BitVec 6
  a : BitVec 6
  b : BitVec 6
  g : Bool
  sat : Bool
  u : Bool
  lat : Nat
  op : Int → Int → Word → Word → Int

/-- The field of BFX (R324). -/
def extract (u : Bool) (x b : Word) : Int :=
  let pos := b.toNat % 32
  let width := min (b.toNat / 256 % 64) (32 - pos)
  let v : Nat := x.toNat / 2 ^ pos % 2 ^ width
  if width = 0 then 0 else if u = false ∧ 2 ^ (width - 1) ≤ v then (v : Int) - 2 ^ width else v

/-- The rows of R324's table, but for DIV and REM. -/
def intForm : Instr → Option IntForm
  | .add d a b g t u => some ⟨d, a, b, g, t, u, 4, fun x y _ _ => x + y⟩
  | .sub d a b g t u => some ⟨d, a, b, g, t, u, 4, fun x y _ _ => x - y⟩
  | .addc d a b g => some ⟨d, a, b, g, false, false, 4, fun _ _ x y => if 2 ^ 32 ≤ x.toNat + y.toNat then 1 else 0⟩
  | .mul d a b g t u => some ⟨d, a, b, g, t, u, 6, fun x y _ _ => x * y⟩
  | .mulhi d a b g u => some ⟨d, a, b, g, false, u, 6, fun x y _ _ => x * y / 2 ^ 32⟩
  | .min d a b g u => some ⟨d, a, b, g, false, u, 4, fun x y _ _ => min x y⟩
  | .max d a b g u => some ⟨d, a, b, g, false, u, 4, fun x y _ _ => max x y⟩
  | .abs d a g t => some ⟨d, a, 0, g, t, false, 4, fun x _ _ _ => |x|⟩
  | .neg d a g t => some ⟨d, a, 0, g, t, false, 4, fun x _ _ _ => -x⟩
  | .and d a b g => some ⟨d, a, b, g, false, false, 4, fun _ _ x y => (x &&& y).toInt⟩
  | .or d a b g => some ⟨d, a, b, g, false, false, 4, fun _ _ x y => (x ||| y).toInt⟩
  | .xor d a b g => some ⟨d, a, b, g, false, false, 4, fun _ _ x y => (x ^^^ y).toInt⟩
  | .andn d a b g => some ⟨d, a, b, g, false, false, 4, fun _ _ x y => (x &&& ~~~y).toInt⟩
  | .shl d a b g t u => some ⟨d, a, b, g, t, u, 4, fun x _ _ y => x * 2 ^ (y.toNat % 256)⟩
  | .shr d a b g u => some ⟨d, a, b, g, false, u, 4, fun x _ _ y => x / 2 ^ (y.toNat % 256)⟩
  | .rot d a b g => some ⟨d, a, b, g, false, false, 4, fun _ _ x y => (x.rotateLeft (y.toNat % 32)).toInt⟩
  | .bfx d a b g u => some ⟨d, a, b, g, false, u, 4, fun _ _ x y => extract u x y⟩
  | .popc d a g => some ⟨d, a, 0, g, false, false, 4, fun _ _ x _ => ((List.range 32).countP (fun k => x.getLsbD k) : Nat)⟩
  | .clz d a g => some ⟨d, a, 0, g, false, false, 4, fun _ _ x _ => (((List.range 32).takeWhile (fun k => !x.getLsbD (31 - k))).length : Nat)⟩
  | .ctz d a g => some ⟨d, a, 0, g, false, false, 4, fun _ _ x _ => (((List.range 32).takeWhile (fun k => !x.getLsbD k)).length : Nat)⟩
  | .brev d a g => some ⟨d, a, 0, g, false, false, 4, fun _ _ x _ => x.reverse.toInt⟩
  | .mov d a g => some ⟨d, a, 0, g, false, false, 4, fun _ _ x _ => x.toInt⟩
  | _ => none

/-- Operand A (R323, R291). -/
def opVal (s : State) (f : Fibre) (g : Bool) (a : BitVec 6) : Word :=
  if g then (s.greg s.cur.launch s.cur.wgid a.toNat).val else f.reg a.toNat

/-- sA and sB (R323). -/
def asInt (u : Bool) (x : Word) : Int := if u then x.toNat else x.toInt

/-- The bounds of SAT (R323). -/
def satLo (u : Bool) : Int := if u then 0 else -2147483648
def satHi (u : Bool) : Int := if u then 4294967295 else 2147483647

/-- The exact result in a fibre. -/
def IntForm.exact (F : IntForm) (s : State) (f : Fibre) : Int :=
  F.op (asInt F.u (opVal s f F.g F.a)) (asInt F.u (f.reg F.b.toNat)) (opVal s f F.g F.a) (f.reg F.b.toNat)

/-- The word written and SAT (R323). -/
def narrow (sat u : Bool) (x : Int) : Word × Word :=
  if sat = true ∧ x < satLo u then (BitVec.ofInt 32 (satLo u), 0x20)
  else if sat = true ∧ satHi u < x then (BitVec.ofInt 32 (satHi u), 0x20)
  else (BitVec.ofInt 32 x, 0)

/-- DIV and REM (R325): the result, its flags, for dividend A and divisor B. -/
def divRem : Instr → Option (BitVec 6 × BitVec 6 × BitVec 6 × Bool × (Word → Word → Word × Word))
  | .div d a b g t u => some (d, a, b, g, fun x y => if y = 0 then (0xFFFFFFFF, 2) else narrow t u ((asInt u x).tdiv (asInt u y)))
  | .rem d a b g u => some (d, a, b, g, fun x y => if y = 0 then (x, 2) else (BitVec.ofInt 32 ((asInt u x).tmod (asInt u y)), 0))
  | _ => none

/-- What a fixed-latency instruction of a fibre's own registers writes: latency and writes (R326, R327). None of them sets a flag. -/
def plainForm : Instr → Option (Nat × (Fibre → List WB))
  | .mad d a b c => some (6, fun f => [.v d.toNat (f.reg a.toNat * f.reg b.toNat + f.reg c.toNat)])
  | .madw d a b c =>
    some (6, fun f =>
      let x := (f.reg a.toNat).toNat * (f.reg b.toNat).toNat + ((f.reg (c.toNat + 1)).toNat * 2 ^ 32 + (f.reg c.toNat).toNat)
      [.v d.toNat (BitVec.ofNat 32 x), .v (d.toNat + 1) (BitVec.ofNat 32 (x / 2 ^ 32))])
  | .funnel d a b c =>
    some (4, fun f => [.v d.toNat (BitVec.ofNat 32 (((f.reg a.toNat).toNat * 2 ^ 32 + (f.reg b.toNat).toNat) / 2 ^ ((f.reg c.toNat).toNat % 32)))])
  | .bfi d a b c =>
    some (4, fun f =>
      let pos := (f.reg c.toNat).toNat % 32
      let width := min ((f.reg c.toNat).toNat / 256 % 64) (32 - pos)
      [.v d.toNat (BitVec.ofFnLE (fun k : Fin 32 =>
      if pos ≤ k.val ∧ k.val < pos + width then (f.reg b.toNat).getLsbD (k.val - pos) else (f.reg a.toNat).getLsbD k.val))])
  | .addi d a i => some (4, fun f => [.v d.toNat (BitVec.ofInt 32 ((f.reg a.toNat).toNat + i.toInt))])
  | .andi d a i => some (4, fun f => [.v d.toNat (f.reg a.toNat &&& i.setWidth 32)])
  | .ori d a i => some (4, fun f => [.v d.toNat (f.reg a.toNat ||| i.setWidth 32)])
  | .xori d a i => some (4, fun f => [.v d.toNat (f.reg a.toNat ^^^ i.setWidth 32)])
  | .shli d a k => some (4, fun f => [.v d.toNat (BitVec.ofNat 32 ((f.reg a.toNat).toNat * 2 ^ k.toNat))])
  | .shri d a z k => some (4, fun f => [.v d.toNat (BitVec.ofInt 32 (asInt z (f.reg a.toNat) / 2 ^ k.toNat))])
  | .muli d a i => some (6, fun f => [.v d.toNat (BitVec.ofInt 32 ((f.reg a.toNat).toNat * i.toInt))])
  | .movi d i => some (4, fun _ => [.v d.toNat (i.signExtend 32)])
  | .movl d i => some (4, fun _ => [.v d.toNat i])
  | .addl d a i => some (4, fun f => [.v d.toNat (f.reg a.toNat + i)])
  | _ => none

/-- The conditions of R328 on A and B. -/
def holds (n : BitVec 3) (x y : Word) : Prop :=
  (n = 0 ∧ x = y) ∨ (n = 1 ∧ x ≠ y) ∨ (n = 2 ∧ x.toInt < y.toInt) ∨ (n = 3 ∧ x.toInt ≤ y.toInt) ∨ (n = 4 ∧ y.toInt < x.toInt)
    ∨ (n = 5 ∧ y.toInt ≤ x.toInt) ∨ (n = 6 ∧ x.toNat < y.toNat) ∨ (n = 7 ∧ y.toNat ≤ x.toNat)

/-- CMP, CMPI and PLOG: the combine mode, the predicate written and the compare result in a fibre (R328, R330). -/
def compareForm : Instr → Option (BitVec 3 × BitVec 3 × (State → Fibre → Prop))
  | .cmp k p a b g n => some (k, p, fun s f => holds n (opVal s f g a) (f.reg b.toNat))
  | .cmpi k p a i n => some (k, p, fun _ f => holds n (f.reg a.toNat) (i.signExtend 32))
  | .plog k p a b t => some (k, p, fun _ f => t.getLsbD (2 * (f.pred a.toNat).toNat + (f.pred b.toNat).toNat) = true)
  | _ => none

/-- The combine modes of R329: the new value of the predicate, for the old value q and the result c. -/
def combines (k : BitVec 3) (q c new : Prop) : Prop :=
  (k = 0 ∧ (new ↔ c)) ∨ (k = 1 ∧ (new ↔ q ∧ c)) ∨ (k = 2 ∧ (new ↔ q ∨ c)) ∨ (k = 3 ∧ (new ↔ ¬(q ↔ c))) ∨ (k = 4 ∧ (new ↔ ¬c))
    ∨ (k = 5 ∧ (new ↔ q ∧ ¬c)) ∨ (k = 6 ∧ (new ↔ q ∨ ¬c))

/-! ## Floating-point results -/

/-- One element of R332: operands and result flushed under FTZ, the result computed by op. -/
def element (fm : Fmt) (ftz : Bool) (op : Nat → Nat → RRes) (x y : Nat) : RRes :=
  let r := op (if ftz then fm.flush x else x) (if ftz then fm.flush y else y)
  if ftz = true ∧ fm.isSub r.bits = true then ⟨fm.flush r.bits, r.flags ||| 8 ||| 16, r.sat⟩ else r

/-- The word and flags of an instruction of type t: one FP32 element, or two halves whose flags join (R332). -/
def elements (t : BitVec 2) (x y : Word) (e : Fmt → Nat → Nat → RRes) : Word × Word :=
  match t.toNat with
  | 0 => let r := e fp32 x.toNat y.toNat; (BitVec.ofNat 32 r.bits, r.flags)
  | n =>
    let fm := if n = 1 then fp16 else bf16
    let lo := e fm (x.toNat % 65536) (y.toNat % 65536)
    let hi := e fm (x.toNat / 65536) (y.toNat / 65536)
    (BitVec.ofNat 32 (hi.bits * 65536 + lo.bits), lo.flags ||| hi.flags)

/-- The rounding mode that a rounding field selects (R256): %fmode.RM, or the mode named. -/
def rounding (f : Fibre) (r : BitVec 3) : RM :=
  match (if r = 0 then f.fmode.toNat % 4 else r.toNat - 1) with
  | 0 => .rne
  | 1 => .rz
  | 2 => .rup
  | _ => .rdn

/-- %fmode.FTZ (R253). -/
def ftz (f : Fibre) : Bool := f.fmode.getLsbD 2

/-- A floating-point R form (R333): destination, operands, G, type, latency, and its operation on elements in a format under a rounding mode. -/
structure FloatForm where
  d : BitVec 6
  a : BitVec 6
  b : BitVec 6
  g : Bool
  t : BitVec 2
  r : BitVec 3
  lat : Nat
  op : Fmt → RM → Nat → Nat → RRes

/-- The rows of R333's table of fixed latency, but for FSCALE. -/
def floatForm : Instr → Option FloatForm
  | .fadd d a b g t r => some ⟨d, a, b, g, t, r, 6, Fmt.addBits⟩
  | .fsub d a b g t r => some ⟨d, a, b, g, t, r, 6, fun fm m x y => fm.addBits m x (fm.negBits y)⟩
  | .fmul d a b g t r => some ⟨d, a, b, g, t, r, 6, Fmt.mulBits⟩
  | .fmin d a b g t => some ⟨d, a, b, g, t, 0, 6, fun fm _ => fm.minMax false⟩
  | .fmax d a b g t => some ⟨d, a, b, g, t, 0, 6, fun fm _ => fm.minMax true⟩
  | .fabs d a g t => some ⟨d, a, 0, g, t, 0, 6, fun fm _ x _ => ⟨if fm.isNaN x then fm.nan else x % fm.sign, 0, false⟩⟩
  | .fneg d a g t => some ⟨d, a, 0, g, t, 0, 6, fun fm _ x _ => ⟨if fm.isNaN x then fm.nan else fm.negBits x, 0, false⟩⟩
  | .fround d a g t r => some ⟨d, a, 0, g, t, r, 6, fun fm m x _ => fm.roundInt m x⟩
  | .frcp d a g t r => some ⟨d, a, 0, g, t, r, 12, fun fm _ x _ => fm.rcpBits x⟩
  | .frsq d a g t r => some ⟨d, a, 0, g, t, r, 12, fun fm _ x _ => fm.rsqBits x⟩
  | .fsqrt d a g t r => some ⟨d, a, 0, g, t, r, 12, fun fm _ x _ => fm.sqrtBits x⟩
  | .fexp2 d a g t r => some ⟨d, a, 0, g, t, r, 12, fun fm _ x _ => fm.exp2Bits x⟩
  | .flog2 d a g t r => some ⟨d, a, 0, g, t, r, 12, fun fm _ x _ => fm.log2Bits x⟩
  | .fsinpi d a g t r => some ⟨d, a, 0, g, t, r, 12, fun fm _ x _ => fm.sinPiBits x⟩
  | .fcospi d a g t r => some ⟨d, a, 0, g, t, r, 12, fun fm _ x _ => fm.cosPiBits x⟩
  | .ftanh d a g t r => some ⟨d, a, 0, g, t, r, 12, fun fm _ x _ => fm.tanhBits x⟩
  | _ => none

/-- The result word and flags of a floating-point R form in a fibre. -/
def FloatForm.value (F : FloatForm) (s : State) (f : Fibre) : Word × Word :=
  elements F.t (opVal s f F.g F.a) (f.reg F.b.toNat) (fun fm => element fm (ftz f) (F.op fm (rounding f F.r)))

/-- FTZ on a result (R332). -/
def flushed (fm : Fmt) (z : Bool) (r : RRes) : RRes :=
  if z = true ∧ fm.isSub r.bits = true then ⟨fm.flush r.bits, r.flags ||| 8 ||| 16, r.sat⟩ else r

/-- An operand under FTZ. -/
def operand (fm : Fmt) (z : Bool) (x : Nat) : FV := fm.decode (if z then fm.flush x else x)

/-- The low (0) or high (1) half of a register. -/
def halfOf (k : Nat) (x : Word) : Nat := x.toNat / 65536 ^ k % 65536

/-- A fused form on two halves (R336). -/
def fusedHalves (fm : Fmt) (f : Fibre) (a b c : BitVec 6) : Word × Word :=
  let one (k : Nat) : RRes := flushed fm (ftz f) (fm.sum (rounding f 0) [Term.mul (operand fm (ftz f) (halfOf k (f.reg a.toNat))) (operand fm (ftz f) (halfOf k (f.reg b.toNat))),
    Term.ofFV (operand fm (ftz f) (halfOf k (f.reg c.toNat)))])
  (BitVec.ofNat 32 ((one 1).bits * 65536 + (one 0).bits), (one 0).flags ||| (one 1).flags)

/-- A dot product of two halves with an FP32 addend, rounded once (R336). -/
def dotHalves (fm : Fmt) (f : Fibre) (a b c : BitVec 6) : Word × Word :=
  let x (k : Nat) := operand fm (ftz f) (halfOf k (f.reg a.toNat))
  let y (k : Nat) := operand fm (ftz f) (halfOf k (f.reg b.toNat))
  let r := flushed fp32 (ftz f) (fp32.sum (rounding f 0) [Term.mul (x 0) (y 0), Term.mul (x 1) (y 1), Term.ofFV (operand fp32 (ftz f) (f.reg c.toNat).toNat)])
  (BitVec.ofNat 32 r.bits, r.flags)

/-- The fused forms (R336), FSCALE and FCLASS (R333, R335): destination, latency, result word and flags in a fibre. -/
def fusedForm : Instr → Option (BitVec 6 × Nat × (State → Fibre → Word × Word))
  | .ffma d a b c => some (d, 6, fun _ f =>
    let r := flushed fp32 (ftz f) (fp32.sum (rounding f 0) [Term.mul (operand fp32 (ftz f) (f.reg a.toNat).toNat) (operand fp32 (ftz f) (f.reg b.toNat).toNat),
      Term.ofFV (operand fp32 (ftz f) (f.reg c.toNat).toNat)])
    (BitVec.ofNat 32 r.bits, r.flags))
  | .hfma2 d a b c => some (d, 6, fun _ f => fusedHalves fp16 f a b c)
  | .bfma2 d a b c => some (d, 6, fun _ f => fusedHalves bf16 f a b c)
  | .fdot2 d a b c => some (d, 6, fun _ f => dotHalves fp16 f a b c)
  | .bdot2 d a b c => some (d, 6, fun _ f => dotHalves bf16 f a b c)
  | .fscale d a b g t r => some (d, 6, fun s f => elements t (opVal s f g a) (f.reg b.toNat) (fun fm x y =>
    flushed fm (ftz f) (fm.scale (rounding f r) (if ftz f then fm.flush x else x) (if t = 0 then (BitVec.ofNat 32 y).toInt else (BitVec.ofNat 16 y).toInt))))
  | .fclass d a g t => some (d, 4, fun s f => ((elements t (opVal s f g a) 0 (fun fm x _ => ⟨2 ^ fm.classBit x, 0, false⟩)).1, 0))
  | _ => none

/-- The conditions of R334 on two values of a format, and the operands that set NV. -/
def floatHolds (fm : Fmt) (n : BitVec 3) (x y : Nat) : Prop :=
  let un := fm.isNaN x = true ∨ fm.isNaN y = true
  (n = 0 ∧ ¬un ∧ fm.key x = fm.key y) ∨ (n = 1 ∧ (un ∨ fm.key x ≠ fm.key y)) ∨ (n = 2 ∧ ¬un ∧ fm.key x < fm.key y) ∨ (n = 3 ∧ ¬un ∧ fm.key x ≤ fm.key y)
    ∨ (n = 4 ∧ ¬un ∧ fm.key y < fm.key x) ∨ (n = 5 ∧ ¬un ∧ fm.key y ≤ fm.key x) ∨ (n = 6 ∧ un) ∨ (n = 7 ∧ ¬un)

/-- NV of FCMP: any NaN under .lt, .le, .gt and .ge, else a signalling NaN (R334). -/
def floatNV (fm : Fmt) (n : BitVec 3) (x y : Nat) : Bool :=
  if n = 2 ∨ n = 3 ∨ n = 4 ∨ n = 5 then fm.isNaN x || fm.isNaN y else fm.isSNaN x || fm.isSNaN y

/-- The pairs of values that FCMP compares: one, or the halves (R334). -/
def floatPairs (s : State) (f : Fibre) (g : Bool) (t : BitVec 2) (a b : BitVec 6) : List (Fmt × Nat × Nat) :=
  let z (fm : Fmt) (x : Nat) := if ftz f then fm.flush x else x
  if t = 0 then [(fp32, z fp32 (opVal s f g a).toNat, z fp32 (f.reg b.toNat).toNat)]
  else
    let fm := if t = 1 then fp16 else bf16
    [(fm, z fm (halfOf 0 (opVal s f g a)), z fm (halfOf 0 (f.reg b.toNat))), (fm, z fm (halfOf 1 (opVal s f g a)), z fm (halfOf 1 (f.reg b.toNat)))]

/-! ## Packed and converted results -/

/-- Field k of w bits of a word, as a signed integer. -/
def field (w k : Nat) (x : Word) : Int := (BitVec.ofNat w (x.toNat / 2 ^ (w * k))).toInt

/-- The sum of the products of n signed fields of w bits (R342). -/
def dotSum (w n : Nat) (x y : Word) : Int := ((List.range n).map (fun k => field w k x * field w k y)).sum

/-- A 16-bit result under SAT (R343 to R345): clamped to the signed or unsigned range, and whether that changed it. -/
def clamp16 (u : Bool) (x : Int) : Int × Bool :=
  let lo : Int := if u then 0 else -32768
  let hi : Int := if u then 65535 else 32767
  if x < lo then (lo, true) else if hi < x then (hi, true) else (x, false)

/-- A half of a result: its 16 bits, and whether it was clamped. -/
def half16 (sat u : Bool) (x : Int) : Nat × Bool :=
  let r := if sat then clamp16 u x else (x, false)
  ((BitVec.ofInt 16 r.1).toNat, r.2)

/-- A half of an operand as an integer. -/
def int16 (u : Bool) (k : Nat) (x : Word) : Int := if u then (halfOf k x : Int) else (BitVec.ofNat 16 (halfOf k x)).toInt

/-- Two halves and SAT. -/
def joined (lo hi : Nat × Bool) : Word × Word := (BitVec.ofNat 32 (hi.1 * 65536 + lo.1), if lo.2 || hi.2 then 0x20 else 0)

/-- The rounding shift of R343. -/
def roundShift (x : Int) (n : Nat) : Int := if n = 0 then x else (x + 2 ^ (n - 1)) / 2 ^ n

/-- The packed integer forms (R342 to R345): destination, latency, result word and flags in a fibre. -/
def packedForm : Instr → Option (BitVec 6 × Nat × (State → Fibre → Word × Word))
  | .dot4 d a b c => some (d, 6, fun _ f => (BitVec.ofInt 32 (dotSum 8 4 (f.reg a.toNat) (f.reg b.toNat) + (f.reg c.toNat).toInt), 0))
  | .dot8 d a b c => some (d, 6, fun _ f => (BitVec.ofInt 32 (dotSum 4 8 (f.reg a.toNat) (f.reg b.toNat) + (f.reg c.toNat).toInt), 0))
  | .mac2 d a b c => some (d, 6, fun _ f => narrow true false (dotSum 16 2 (f.reg a.toNat) (f.reg b.toNat) + (f.reg c.toNat).toInt))
  | .fdot4 d a b c => some (d, 6, fun _ f =>
    let el (x : Word) (k : Nat) : FV := e4m3.decode (x.toNat / 256 ^ k % 256)
    let r := flushed fp32 (ftz f) (fp32.sum (rounding f 0) ((List.range 4).map (fun k => Term.mul (el (f.reg a.toNat) k) (el (f.reg b.toNat) k))
      ++ [⟨operand fp32 (ftz f) (f.reg c.toNat).toNat, false⟩]))
    (BitVec.ofNat 32 r.bits, r.flags))
  | .shrr d a b g t u => some (d, 4, fun s f =>
    let x := roundShift (asInt u (opVal s f g a)) ((f.reg b.toNat).toNat % 32)
    let r := if t then clamp16 u x else (x, false)
    (BitVec.ofInt 32 r.1, if r.2 then 0x20 else 0))
  | .pk16 d a b g t u => some (d, 4, fun s f => joined (half16 t u (asInt u (opVal s f g a))) (half16 t u (asInt u (f.reg b.toNat))))
  | .add2 d a b g t u => some (d, 4, fun s f =>
    let one (k : Nat) := half16 t u (int16 u k (opVal s f g a) + int16 u k (f.reg b.toNat))
    joined (one 0) (one 1))
  | .sub2 d a b g t u => some (d, 4, fun s f =>
    let one (k : Nat) := half16 t u (int16 u k (opVal s f g a) - int16 u k (f.reg b.toNat))
    joined (one 0) (one 1))
  | .mul2 d a b g t u => some (d, 4, fun s f =>
    let one (k : Nat) := half16 t u (int16 u k (opVal s f g a) * int16 u k (f.reg b.toNat))
    joined (one 0) (one 1))
  | _ => none

/-- The format slot n of the launch that issues (R257), and the ring exponent sampled for it (R260, R265). -/
def fmtSlot (s : State) (n : BitVec 3) : DWord := ((s.launch s.cur.launch).map (fun L => L.formats.getD n.toNat 0)).getD 0
def ringExp (s : State) (n : BitVec 3) : Int := ((s.launch s.cur.launch).map (fun L => L.exponent (L.formats.getD n.toNat 0))).getD 0

/-- Elements of w bits side by side from bit 0 up (R249). -/
def sideBySide (w : Nat) : List Nat → Nat
  | [] => 0
  | x :: xs => x % 2 ^ w + 2 ^ w * sideBySide w xs

/-- An FP32 value written in a slot's format with a decode factor (R251, R260). -/
def written (slot : DWord) (sat : Bool) (F : FV) (x : Word) : Nat :=
  (elemWrite (slotElem slot) (rmOf (slotRound slot)) sat (slotFlush slot) (fp32.decode x.toNat) F).bits

/-- The n registers from a up. -/
def regs (f : Fibre) (a : BitVec 6) (n : Nat) : List Word := (List.range n).map (fun k => f.reg (a.toNat + k))

/-- CVT, QPACK, QPACK4 and QUNPK (R337 to R341): the writes and flags in a fibre. -/
def formatForm : Instr → Option (State → Fibre → List WB × Word)
  | .cvt d a sf df r t => some (fun s f =>
    let src := fmtSlot s sf
    let dst := fmtSlot s df
    let mode := if r = 0 then rmOf (slotRound dst) else rmOf (r.toNat - 1)
    let x := convert src (ringExp s sf) ((f.reg a.toNat).toNat % 2 ^ elemBits (slotElem src)) dst (ringExp s df) mode t
    ([.v d.toNat (if isIntCode (slotElem dst) then BitVec.ofInt 32 (sx (elemBits (slotElem dst)) x.bits) else BitVec.ofNat 32 x.bits)], x.flags))
  | .qpack d a b t n => some (fun s f =>
    let slot := fmtSlot s n
    let w := elemBits (slotElem slot)
    if slotScale slot < 3 then
      ([.v d.toNat (BitVec.ofNat 32 (sideBySide w ((regs f a 4).map (written slot (t || slotSat slot) (slotFactor slot (ringExp s n))))))], 0)
    else
      let byte := blockScale (slotScale slot) (slotElem slot) (fp32.decode ((f.reg b.toNat).toNat % 2 ^ 31))
      ([.v d.toNat (BitVec.ofNat 32 (sideBySide w ((regs f a 4).map (written slot true (blockFactor (slotScale slot) byte))))), .v (d.toNat + 1) (BitVec.ofNat 32 byte)], 0))
  | .qpack4 d a b t n => some (fun s f =>
    let slot := fmtSlot s n
    ([.v d.toNat (BitVec.ofNat 32 (sideBySide 4 ((regs f a 4 ++ regs f b 4).map (written slot (t || slotSat slot) (slotFactor slot (ringExp s n))))))], 0))
  | .qunpk d a b h n => some (fun s f =>
    let slot := fmtSlot s n
    let w := elemBits (slotElem slot)
    let F := if slotScale slot < 3 then slotFactor slot (ringExp s n) else blockFactor (slotScale slot) ((f.reg b.toNat).toNat % 256)
    ((List.range 4).map (fun k =>
      let q := elemDecodeFlush (slotFlush slot) (slotElem slot) ((f.reg a.toNat).toNat / 2 ^ (w * (4 * h.toNat + k)) % 2 ^ w)
      WB.v (d.toNat + k) (BitVec.ofNat 32 (writeFloat 0 .rne false false (timesFactor q F) (pow2FV 0)).bits)), 0))
  | _ => none

/-! ## Capability registers (R361) -/

/-- A kind whose tag no arithmetic keeps: continuation, segment or object table. -/
def keepsNoTag (c : Cap) : Bool := c.kind == 3 || c.kind == 5 || c.kind == 6

/-- CMOV, CADD, CNARROW, CDROP and CGET: the write in a fibre (R361). -/
def capForm : Instr → Option (Fibre → WB)
  | .cmov d a => some (fun f => .c d.toNat (f.cap a.toNat))
  | .cadd d a b => some (fun f =>
    let c := f.cap a.toNat
    let x := (f.reg b.toNat).toNat
    .c d.toNat { c with base := BitVec.ofNat 48 (c.base.toNat + x), len := BitVec.ofNat 48 (c.len.toNat - x),
                        tag := c.tag && decide (x ≤ c.len.toNat) && decide (c.base.toNat + x < 2 ^ 48) && !keepsNoTag c })
  | .cnarrow d a b c => some (fun f =>
    let k := f.cap a.toNat
    let lo := (f.reg b.toNat).toNat
    let len := (f.reg c.toNat).toNat
    .c d.toNat { k with base := BitVec.ofNat 48 (k.base.toNat + lo), len := BitVec.ofNat 48 len,
                        tag := k.tag && decide (lo + len ≤ k.len.toNat) && !keepsNoTag k })
  | .cdrop d a m => some (fun f => .c d.toNat { f.cap a.toNat with rights := (f.cap a.toNat).rights &&& ~~~m })
  | .cget d a n => some (fun f =>
    let c := f.cap a.toNat
    .v d.toNat (BitVec.ofNat 32 (match n.toNat with
      | 0 => c.base.toNat
      | 1 => c.base.toNat / 2 ^ 32
      | 2 => c.len.toNat
      | 3 => c.len.toNat / 2 ^ 32
      | 4 => c.obj.toNat
      | 5 => c.rights.toNat
      | 6 => c.kind.toNat
      | _ => c.tag.toNat)))
  | _ => none

/-- CTEST's condition (R361): tagged, every right asked for, and the kind, where 15 stands for any. -/
def capHolds (c : Cap) (x : Word) : Prop :=
  c.tag = true ∧ (∀ k, k < 8 → x.getLsbD k = true → c.rights.getLsbD k = true) ∧ (x.toNat / 256 % 16 = 15 ∨ x.toNat / 256 % 16 = c.kind.toNat)

/-! ## Crew results -/

/-- The bits of a mask at the positions below W where a test holds. -/
def bitsWhere (W : Nat) (p : Nat → Bool) : Nat := (((List.range W).filter p).map (2 ^ ·)).sum

/-- A mask in a register, or in a pair in a crew of 64 (R347). -/
def maskWrites (W : Nat) (d : BitVec 6) (x : Nat) : List WB :=
  if W = 64 then [.v d.toNat (BitVec.ofNat 32 x), .v (d.toNat + 1) (BitVec.ofNat 32 (x / 2 ^ 32))] else [.v d.toNat (BitVec.ofNat 32 x)]

/-- The value that a combine mode writes (R329). -/
def newPred (k : BitVec 3) (q c : Bool) : Bool :=
  match k.toNat with
  | 0 => c
  | 1 => q && c
  | 2 => q || c
  | 3 => q != c
  | 4 => !c
  | 5 => q && !c
  | _ => q || !c

/-- The pairwise tree over 2^n contributions, and its flags (R352). -/
def pairTree (o : BitVec 4) : Nat → (Nat → Word) → Word × Word
  | 0, x => (x 0, 0)
  | n + 1, x =>
    let r := pairTree o n (fun i => (credOp o (x (2 * i)) (x (2 * i + 1))).1)
    (r.1, (List.range (2 ^ n)).foldl (fun fl i => fl ||| (credOp o (x (2 * i)) (x (2 * i + 1))).2) 0 ||| r.2)

/-- The fold in position order up to a position (R353). -/
def foldUp (o : BitVec 4) (x : Nat → Word) : Nat → Word
  | 0 => x 0
  | n + 1 => (credOp o (foldUp o x n) (x (n + 1))).1

/-- The flags of every step of the fold (R353). -/
def foldFlags (o : BitVec 4) (x : Nat → Word) (W : Nat) : Word := (List.range (W - 1)).foldl (fun fl n => fl ||| (credOp o (foldUp o x n) (x (n + 1))).2) 0

/-- What the executing member f at position L receives from a crew operation, and the flags of the operation; m gives the executing member at a position, named the positions that the mask names and that have not exited (R347 to R355). MEET gives nothing (R320). -/
def crewForm (W : Nat) (m : Nat → Option Fibre) (named : Nat → Bool) (L : Nat) (f : Fibre) : Instr → Option (List WB × Word)
  | .meet _ => some ([], 0)
  | .shfl d a b => some ([.v d.toNat (((m ((f.reg b.toNat).toNat % W)).map (·.reg a.toNat)).getD 0)], 0)
  | .shflx d a b => some ([.v d.toNat (((m (L ^^^ ((f.reg b.toNat).toNat % W))).map (·.reg a.toNat)).getD 0)], 0)
  | .slide d a b u k =>
    let out := if u then W ≤ L + k.toNat else L < k.toNat
    let src := if u then L + k.toNat else L - k.toNat
    some ([.v d.toNat (if out then f.reg b.toNat else ((m src).map (·.reg a.toNat)).getD 0)], 0)
  | .voteBallot d p => some (maskWrites W d (bitsWhere W (fun n => (m n).any (·.pred p.toNat))), 0)
  | .voteAny k q p => some ([.p q.toNat (newPred k (f.pred q.toNat) ((List.range W).any (fun n => (m n).any (·.pred p.toNat))))], 0)
  | .voteAll k q p => some ([.p q.toNat (newPred k (f.pred q.toNat) ((List.range W).all (fun n => !named n || (m n).any (·.pred p.toNat))))], 0)
  | .voteCount d p => some ([.v d.toNat (BitVec.ofNat 32 ((List.range W).countP (fun n => (m n).any (·.pred p.toNat))))], 0)
  | .cred d a o =>
    let r := pairTree o (if W = 64 then 6 else 5) (fun n => ((m n).map (·.reg a.toNat)).getD (credId o))
    some ([.v d.toNat r.1], r.2)
  | .cscan d a x o =>
    let c : Nat → Word := fun n => ((m n).map (·.reg a.toNat)).getD (credId o)
    some ([.v d.toNat (if x then (if L = 0 then credId o else foldUp o c (L - 1)) else foldUp o c L)], foldFlags o c W)
  | .elect p a =>
    let e := ((List.range W).find? (fun n => (m n).isSome)).getD 0
    some ([.p p.toNat (L == e), .v a.toNat (BitVec.ofNat 32 e)], 0)
  | .matchv d a => some (maskWrites W d (bitsWhere W (fun n => (m n).any (fun x => x.reg a.toNat == f.reg a.toNat))), 0)
  | _ => none

/-- MEET, which takes no part in XLN and levels the ages (R320). -/
def isMeet : Instr → Bool
  | .meet _ => true
  | _ => false

/-- A fibre after its crew's rendezvous has completed: writes pending, flags added; after a MEET its age is that of the oldest. -/
def rendezvousDone (s : State) (f : Fibre) (ws : List WB) (fl : Word) (age : Nat) : Fibre :=
  { f.settleFixed with pc := s.cur.next, wait := .none, fflags := f.fflags ||| fl, age := age, infl := if ws = [] then f.infl else f.infl ++ [ws] }

/-! ## Control flow -/

/-- Slot 1 of the packet so many packets from the current one (R285, R306). -/
def branchTo (s : State) (n : Int) : Word := BitVec.ofInt 32 (s.cur.packet.toNat + 16 * n + 4)

/-- BRA and BWAY in an executing fibre: where it goes, when not to its successor (R306, R308). -/
def branchForm : Instr → Option (State → Fibre → Option Word)
  | .bra o => some (fun s _ => some (branchTo s o.toInt))
  | .bway w0 w1 w2 w3 t0 t1 t2 t3 => some (fun s f =>
    ([(w0, t0), (w1, t1), (w2, t2), (w3, t3)].find? (fun x => f.pred (x.1.toNat % 8) ^^ x.1.getLsbD 3)).map (fun x => branchTo s x.2.toInt))
  | _ => none

/-! ## The stack of one fibre -/

/-- The fibre's name, and its ASID. -/
def me (s : State) (f : Fibre) : FibId := s.curId f.fid
def myAsid (s : State) : Nat := s.asidOf s.cur.launch

/-- A segment of the frame heap is in the core's Cupboard, without an error (R107, R178). -/
def atHand (s : State) (core a seg : Nat) : Prop := s.inCupboard core a seg = true ∧ s.hurts.contains (.segment a seg) = false

/-- So is one for a fibre of the bundle. -/
def held (s : State) (f : Fibre) (seg : Nat) : Prop := atHand s (s.coreOf (me s f)) (myAsid s) seg

/-- No error is present in an on-chip memory; on_chip_losses says what happens where one is (R107). -/
def intact (s : State) : Prop := s.hurts = []

/-- The state in which a stack instruction acts: successors taken, the top segment most recently accessed. -/
def onTop (s : State) (f : Fibre) : State := s.gone.cupboardTake (s.coreOf (me s f)) (myAsid s) f.seg true

/-- The header of a fibre's current frame (R173). -/
def myFrame (s : State) (f : Fibre) : Hdr := s.hdr (myAsid s) f.seg f.frameOff

/-- An effect performed at the instruction, with an argument (R195). -/
def faultAt (u s : State) (f : Fibre) (tag : BitVec 12) (arg : Word) : State := u.raise (me s f) (Eff.fault tag arg s.cur.first none)

/-- No fibre of the launch has arrived at a rendezvous or waits for the round of a barrier that it has arrived at: the end of an issue completes nothing (R167, R372). -/
def noArrivals (s : State) : Prop := ∀ x ∈ s.allFibres, x.1.launch = s.cur.launch → x.2.wait.isMeeting = false ∧ ∀ r ∈ x.2.arr, r.done = true

/-- From s to t a fibre has ended: it is live no more, no other fibre has changed, and what it held is free again beside what was free (R176, R317). -/
def fibreEnded (s t : State) (f : Fibre) : Prop :=
  t.fib (me s f) = none ∧ (∀ j, j ≠ me s f → t.fib j = s.fib j) ∧
    ∀ d, s.asid (myAsid s) = some d → ∃ d', t.asid (myAsid s) = some d' ∧ ∀ n, n ∈ d'.free ↔ n ∈ d.free ∨ n ∈ s.heldSegs (me s f) f

/-- The state word of the record that a continuation names has moved from LIVE to another state (R190). -/
def claimed (s : State) (a : Nat) (k : Cap) (dest : Nat) : State :=
  let r := k.base.toNat / 1024
  s.setRecWord a r (recSerial (s.recWord a r)) (recReply (s.recWord a r)) dest

/-- The capability names a continuation that may be claimed: tag, kind, right M, a record, its serial and LIVE (R190). -/
def claimable (s : State) (a : Nat) (k : Cap) : Prop :=
  k.tag = true ∧ k.kind = 3 ∧ k.rights.getLsbD 1 = true ∧ s.isRecord a (k.base.toNat / 1024) = true ∧
    recSerial (s.recWord a (k.base.toNat / 1024)) = k.len.toNat / 65536 ∧ recState (s.recWord a (k.base.toNat / 1024)) = 1

/-- Two segments of an ASID's heap lie apart at p and q in memory and do not hold their own translation; nothing is enciphered (R93, R181). -/
def apart (s : State) (a m n p q : Nat) : Prop :=
  s.keyOf a = 0 ∧ s.keyed = [] ∧ (p + 1024 ≤ q ∨ q + 1024 ≤ p) ∧
    ∀ M : Mem, (∀ y, (y < p ∨ p + 1024 ≤ y) → (y < q ∨ q + 1024 ≤ y) → M.get y = s.mem.get y) → ({ s with mem := M } : State).segPA a m = some p ∧ ({ s with mem := M } : State).segPA a n = some q

/-- A frame pushed and control gone on, or 0x0E9 when no segment can be obtained (R174, R177, R310). -/
def pushed (u s : State) (f : Fibre) (saved : Option Cap) (go : Fibre → Fibre) : State :=
  match u.pushFrame (me s f) s.cur.next.toNat saved with
  | none => faultAt u s f 0x0E9 0
  | some v => v.modFib (me s f) go

/-! ## Memory accesses -/

/-- The checks of R206 on an access of size bytes at an offset: all pass. -/
def permits (c : Cap) (kinds rights : List Nat) (off : Int) (size align : Nat) : Prop :=
  c.tag = true ∧ (c.kind.toNat ∈ kinds ∧ (c.kind = 2 → c.obj.toNat ≤ 1)) ∧ (∀ r ∈ rights, c.rights.getLsbD r = true) ∧
    (0 ≤ off ∧ off + size ≤ c.len.toNat) ∧ ((c.base.toNat : Int) + off) % align = 0

/-- The effect of the first check of R206 that fails. -/
def refusalTag (c : Cap) (kinds rights : List Nat) (off : Int) (size : Nat) : BitVec 12 :=
  if c.tag = false then 0x0C3
  else if ¬(c.kind.toNat ∈ kinds ∧ (c.kind = 2 → c.obj.toNat ≤ 1)) then 0x0C4
  else if ∃ r ∈ rights, c.rights.getLsbD r = false then 0x0C2
  else if off < 0 ∨ (c.len.toNat : Int) < off + size then 0x0C1
  else 0x0C6

/-- An access of R357, R360, R365, R367, R373 and R375: capability, offset register, displacement in bytes, size, kinds (R202) and rights (R206). STL, whose release comes first, is not among them. -/
def accessForm : Instr → Option (BitVec 4 × BitVec 6 × Int × Nat × List Nat × List Nat)
  | .ld8s _ c x i => some (c, x, i.toInt, 1, [0, 1, 2, 4], [7])
  | .ld8z _ c x i => some (c, x, i.toInt, 1, [0, 1, 2, 4], [7])
  | .ld16s _ c x i => some (c, x, i.toInt * 2, 2, [0, 1, 2, 4], [7])
  | .ld16z _ c x i => some (c, x, i.toInt * 2, 2, [0, 1, 2, 4], [7])
  | .ld32 _ c x i => some (c, x, i.toInt * 4, 4, [0, 1, 2, 4], [7])
  | .ld64 _ c x i => some (c, x, i.toInt * 8, 8, [0, 1, 2, 4], [7])
  | .ld128 _ c x i => some (c, x, i.toInt * 16, 16, [0, 1, 2, 4], [7])
  | .st8 _ c x i => some (c, x, i.toInt, 1, [0, 2, 4], [6])
  | .st16 _ c x i => some (c, x, i.toInt * 2, 2, [0, 2, 4], [6])
  | .st32 _ c x i => some (c, x, i.toInt * 4, 4, [0, 2, 4], [6])
  | .st64 _ c x i => some (c, x, i.toInt * 8, 8, [0, 2, 4], [6])
  | .st128 _ c x i => some (c, x, i.toInt * 16, 16, [0, 2, 4], [6])
  | .lda _ c x _ => some (c, x, 0, 4, [0, 1, 2, 4], [7])
  | .ldc _ c x i => some (c, x, i.toInt * 16, 16, [0, 2], [7, 2])
  | .stc _ c x i => some (c, x, i.toInt * 16, 16, [0, 2], [6, 2])
  | .aadd _ c x _ _ => some (c, x, 0, 4, [0, 2, 4], [4])
  | .aand _ c x _ _ => some (c, x, 0, 4, [0, 2, 4], [4])
  | .aor _ c x _ _ => some (c, x, 0, 4, [0, 2, 4], [4])
  | .axor _ c x _ _ => some (c, x, 0, 4, [0, 2, 4], [4])
  | .amins _ c x _ _ => some (c, x, 0, 4, [0, 2, 4], [4])
  | .aminz _ c x _ _ => some (c, x, 0, 4, [0, 2, 4], [4])
  | .amaxs _ c x _ _ => some (c, x, 0, 4, [0, 2, 4], [4])
  | .amaxz _ c x _ _ => some (c, x, 0, 4, [0, 2, 4], [4])
  | .axchg _ c x _ _ => some (c, x, 0, 4, [0, 2, 4], [4])
  | .acas _ c x _ _ => some (c, x, 0, 4, [0, 2, 4], [4])
  | .aadd64 _ c x _ _ => some (c, x, 0, 8, [0, 2, 4], [4])
  | .radd c x _ _ => some (c, x, 0, 4, [0, 2, 4], [4])
  | .rfadd _ c x _ _ _ => some (c, x, 0, 4, [0, 2, 4], [4])
  | .rfmin _ c x _ _ _ => some (c, x, 0, 4, [0, 2, 4], [4])
  | .rfmax _ c x _ _ _ => some (c, x, 0, 4, [0, 2, 4], [4])
  | .afadd _ c x _ _ _ => some (c, x, 0, 4, [0, 2, 4], [4])
  | .waitm _ c x _ _ => some (c, x, 0, 8, [0, 4], [4])
  | .notify _ c x i => some (c, x, i.toInt * 8, 8, [0, 4], [4, 6])
  | _ => none

/-- The effective offset of an access (R206). -/
def offsetOf (f : Fibre) (x : BitVec 6) (disp : Int) : Int := ((f.reg x.toNat).toNat : Int) + disp

/-- The scratchpad byte that a kind-local capability reaches at an offset: workgroup and place (R171, R225). -/
def localPlace (s : State) (f : Fibre) (c : Cap) (off : Int) : Nat × Nat := s.window (me s f) c.obj.toNat ((c.base.toNat : Int) + off).toNat

/-- A little-endian number (R4). -/
def littleEndian : List Byte → Nat
  | [] => 0
  | b :: bs => b.toNat + 256 * littleEndian bs

/-- The registers that a load writes from the bytes it read, lowest address first (R357). -/
def loadForm : Instr → Option (List Byte → List WB)
  | .ld8s t _ _ _ => some (fun bs => [.v t.toNat ((BitVec.ofNat 8 (littleEndian bs)).signExtend 32)])
  | .ld8z t _ _ _ => some (fun bs => [.v t.toNat (BitVec.ofNat 32 (littleEndian bs))])
  | .ld16s t _ _ _ => some (fun bs => [.v t.toNat ((BitVec.ofNat 16 (littleEndian bs)).signExtend 32)])
  | .ld16z t _ _ _ => some (fun bs => [.v t.toNat (BitVec.ofNat 32 (littleEndian bs))])
  | .ld32 t _ _ _ => some (fun bs => [.v t.toNat (BitVec.ofNat 32 (littleEndian bs))])
  | .ld64 t _ _ _ => some (fun bs => [.v t.toNat (BitVec.ofNat 32 (littleEndian bs)), .v (t.toNat + 1) (BitVec.ofNat 32 (littleEndian bs / 2 ^ 32))])
  | .ld128 t _ _ _ => some (fun bs => (List.range 4).map (fun k => .v (t.toNat + k) (BitVec.ofNat 32 (littleEndian bs / 2 ^ (32 * k)))))
  | _ => none

/-- The first data register and the size of a store (R357): byte k stored is byte k mod 4 of register t + k / 4. -/
def storeForm : Instr → Option (BitVec 6 × Nat)
  | .st8 t _ _ _ => some (t, 1)
  | .st16 t _ _ _ => some (t, 2)
  | .st32 t _ _ _ => some (t, 4)
  | .st64 t _ _ _ => some (t, 8)
  | .st128 t _ _ _ => some (t, 16)
  | _ => none

/-- Byte k of a store's data. -/
def storedByte (f : Fibre) (t : BitVec 6) (k : Nat) : Byte := BitVec.ofNat 8 ((f.reg (t.toNat + k / 4)).toNat / 256 ^ (k % 4))

/-- The number that a floating-point reduction leaves for an old one o and a value x: one FP32 element, or two halves (R236, R367). -/
def reduced (t : BitVec 2) (which : Nat) (r : BitVec 3) (o x : Nat) : Nat :=
  if t = 0 then reduce1 fp32 which r.toNat o x
  else
    let fm := if t = 1 then fp16 else bf16
    reduce1 fm which r.toNat (o % 65536) (x % 65536) + 65536 * reduce1 fm which r.toNat (o / 65536) (x / 65536)

/-- The atomic instructions (R365, R367): the number that replaces an old one, in a fibre, and the registers that receive the old one. -/
def atomicForm : Instr → Option ((Fibre → Nat → Nat) × (Nat → List WB))
  | .aadd d _ _ r _ => some (fun f o => (o + (f.reg r.toNat).toNat) % 2 ^ 32, fun o => [.v d.toNat (BitVec.ofNat 32 o)])
  | .aand d _ _ r _ => some (fun f o => o &&& (f.reg r.toNat).toNat, fun o => [.v d.toNat (BitVec.ofNat 32 o)])
  | .aor d _ _ r _ => some (fun f o => o ||| (f.reg r.toNat).toNat, fun o => [.v d.toNat (BitVec.ofNat 32 o)])
  | .axor d _ _ r _ => some (fun f o => o ^^^ (f.reg r.toNat).toNat, fun o => [.v d.toNat (BitVec.ofNat 32 o)])
  | .amins d _ _ r _ => some (fun f o => if (BitVec.ofNat 32 o).toInt ≤ (f.reg r.toNat).toInt then o else (f.reg r.toNat).toNat, fun o => [.v d.toNat (BitVec.ofNat 32 o)])
  | .aminz d _ _ r _ => some (fun f o => min o (f.reg r.toNat).toNat, fun o => [.v d.toNat (BitVec.ofNat 32 o)])
  | .amaxs d _ _ r _ => some (fun f o => if (BitVec.ofNat 32 o).toInt ≤ (f.reg r.toNat).toInt then (f.reg r.toNat).toNat else o, fun o => [.v d.toNat (BitVec.ofNat 32 o)])
  | .amaxz d _ _ r _ => some (fun f o => max o (f.reg r.toNat).toNat, fun o => [.v d.toNat (BitVec.ofNat 32 o)])
  | .axchg d _ _ r _ => some (fun f _ => (f.reg r.toNat).toNat, fun o => [.v d.toNat (BitVec.ofNat 32 o)])
  | .acas d _ _ r _ => some (fun f o => if o = (f.reg r.toNat).toNat then (f.reg (r.toNat + 1)).toNat else o, fun o => [.v d.toNat (BitVec.ofNat 32 o)])
  | .aadd64 d _ _ r _ =>
    some (fun f o => (o + (f.reg r.toNat).toNat + 2 ^ 32 * (f.reg (r.toNat + 1)).toNat) % 2 ^ 64, fun o => [.v d.toNat (BitVec.ofNat 32 o), .v (d.toNat + 1) (BitVec.ofNat 32 (o / 2 ^ 32))])
  | .radd _ _ r _ => some (fun f o => (o + (f.reg r.toNat).toNat) % 2 ^ 32, fun _ => [])
  | .rfadd t _ _ v _ r => some (fun f o => reduced t 0 r o (f.reg v.toNat).toNat, fun _ => [])
  | .rfmin t _ _ v _ r => some (fun f o => reduced t 1 r o (f.reg v.toNat).toNat, fun _ => [])
  | .rfmax t _ _ v _ r => some (fun f o => reduced t 2 r o (f.reg v.toNat).toNat, fun _ => [])
  | .afadd d _ _ v _ r => some (fun f o => reduced 0 0 r o (f.reg v.toNat).toNat, fun o => [.v d.toNat (BitVec.ofNat 32 o)])
  | _ => none

/-- Byte k of a number. -/
def byteOf (x k : Nat) : Byte := BitVec.ofNat 8 (x / 256 ^ k)

/-- The object offset of an access (R206). -/
def objectOffset (c : Cap) (off : Int) : Nat := ((c.base.toNat : Int) + off).toNat

/-- Everything but the fibres and the scratchpads of one workgroup. -/
def besides (s : State) (l w : Nat) : State := s.bare.modScratch l w (fun _ => Mem.empty)

/-- A scratchpad was written: n bytes from an offset of workgroup w, no other byte, the tags of their granules cleared (R203). -/
def scratchWritten (s t : State) (l w a n : Nat) (b : Nat → Byte) : Prop :=
  (∀ k, k < n → (t.scratch l w).get (a + k) = b k) ∧ (∀ x, x < a ∨ a + n ≤ x → (t.scratch l w).get x = (s.scratch l w).get x) ∧
    (∀ x, (t.scratch l w).tag x = ((s.scratch l w).tag x && !decide (∃ k, k < n ∧ (a + k) / 16 = x / 16)))

/-- The scratchpad that an access reaches is there and in canonical form. -/
def scratchThere (s : State) (w : Nat) : Prop := s.wg s.cur.launch w ≠ none ∧ (s.scratch s.cur.launch w).wf = true

/-- A line address is not held by a tile access, and its n bytes are sound (R107, R242). -/
def free (s : State) (p n : Nat) : Prop := s.latched p = false ∧ s.latchedX p = false ∧ s.isBad p n = false

/-- The core of a fibre of the bundle. -/
def myCore (s : State) (f : Fibre) : Nat := s.coreOf (me s f)

/-- With scoreboarded writes, if there are any. -/
def withResult (s u : State) (f : Fibre) (ws : List WB) : State := if ws = [] then u else u.scored (me s f) ws

/-! ## Ordering, barriers and waits -/

/-- The lost-store marks that a release of a scope reports: those of package scope and of system scope (R35, R86, R227). -/
def lostAt (c : Nat) : BitVec 2 := if 5 ≤ c then 3 else if 4 ≤ c then 1 else 0

/-- A release by a fibre: it places its marker when it first issues, is held with it until the core has drained to the marker, then goes on, unless it has to report a lost store by 0x0D0 (R35, R86, R221, R229). -/
def released (s : State) (f : Fibre) (c : Nat) (go : State → State) : State :=
  let m := f.mark.getD s.fresh
  let r := s.gone.release (myCore s f) c m
  if r.2 = false then (r.1.modFib (me s f) (fun x => { x with mark := some m })).hold (me s f) .unacked
  else
    let u := if f.mark = none then r.1 else r.1.modFib (me s f) (fun x => { x with mark := none })
    if f.lost &&& lostAt c ≠ 0 then faultAt (u.modFib (me s f) (fun x => { x with lost := x.lost &&& ~~~ lostAt c })) s f 0x0D0 0
    else go u

/-- The engine that a QFENCE names from a core (R370): the core's Mangle, its die's copy engines, fabric port, or scale-out unit. -/
def namedEngine (core d : Nat) : Eng :=
  match d with
  | 0 => .mangle core
  | 1 => .copy (6 * dieOf core)
  | 2 => .copy (6 * dieOf core + 1)
  | 3 => .copy (6 * dieOf core + 2)
  | 4 => .copy (6 * dieOf core + 3)
  | 5 => .copy (6 * dieOf core + 4)
  | 6 => .copy (6 * dieOf core + 5)
  | 7 => .port (dieOf core)
  | _ => .scale (dieOf core)

/-- The level of a barrier instruction's launch, when it is declared and the number exists (R124, R371). -/
def declared (s : State) (l : BitVec 4) (n : BitVec 8) (e : Level) : Prop :=
  ∃ L, s.launch s.cur.launch = some L ∧ L.hier.find? (fun x => x.domain == l.toNat) = some e ∧ n.toNat < e.barriers

/-- The conditions of WAITM on the cell's value and the operand (R373). -/
def cellHolds (k : BitVec 2) (v t : Nat) : Prop := (k = 0 ∧ t ≤ v) ∨ (k = 1 ∧ v ≠ t) ∨ (k ≠ 0 ∧ k ≠ 1 ∧ v = t)

/-- Two registers as one number, the low word first (R154). -/
def pairOf (f : Fibre) (n : Nat) : Nat := (f.reg n).toNat + 2 ^ 32 * (f.reg (n + 1)).toNat

/-- The value of a system register (R293). -/
def systemValue (s : State) (L : Launch) (f : Fibre) (n : Nat) : Option Nat :=
  match n with
  | 0x000 => some (f.fid % L.crew)
  | 0x001 => some f.fid
  | 0x002 => some (f.fid / L.crew)
  | 0x003 => some s.cur.wgid
  | 0x004 => some L.count
  | 0x005 => some (s.cur.wgid / 2 ^ L.gangLog)
  | 0x006 => some (myCore s f)
  | 0x007 => some (dieOf (myCore s f))
  | 0x008 => some (s.nodeNum.toNat * 16 + s.pos % 16)
  | 0x009 => some L.asid
  | 0x010 => some (if L.crew = 64 then f.cmask.toNat else f.cmask.toNat % 2 ^ 32)
  | 0x011 => some f.hchain.toNat
  | 0x020 => some f.fmode.toNat
  | 0x021 => some f.fflags.toNat
  | 0x030 => some s.clock.toNat
  | 0x031 => some s.ftime.toNat
  | _ => none

/-- A group register of the issuing workgroup. -/
def group (s : State) (n : BitVec 5) : GReg := s.greg s.cur.launch s.cur.wgid n.toNat

/-! ## Tiles and engines -/

/-- The engine instructions and their forms, block capability and offset register (R384 to R391). -/
def commandForm (s : State) : Instr → Option (CmdForm × BitVec 4 × BitVec 6)
  | .mma g q c x => some (mangleForm s .mma g q mmaLegal mmaCheck (fun L b => [L.exponent (L.slotN (mblock b.bytes).slotA), L.exponent (L.slotN (mblock b.bytes).slotB)]), c, x)
  | .mzero g q c x => some (mangleForm s .mzero g q (fun _ _ => true) mzeroCheck (fun _ _ => []), c, x)
  | .mdrain g q c x t r => some (mangleForm s (.mdrain t r) g q mdrainLegal mdrainCheck (fun L b => [L.exponent (L.slotN (mblock b.bytes).slotC), L.exponent (L.slotN (mblock b.bytes).slotD)]), c, x)
  | .copy g q c x r sc => some (copyForm s .copy g q r sc, c, x)
  | .copyt g q c x r sc => some (copyForm s .copyt g q r sc, c, x)
  | .xput g q c x r sc => some (bulkForm s false g q r sc, c, x)
  | .xget g q c x r sc => some (bulkForm s true g q r sc, c, x)
  | .dpost g q c x => some (dpostForm s g q, c, x)
  | .send g q c x r sc => some (soForm s false g q r sc, c, x)
  | .rpost g q c x r sc => some (soForm s true g q r sc, c, x)
  | .cmigr g q c x m =>
    some ({ kind := .cmigr, g := g.toNat, q := q.toNat, rel := m.getLsbD 3, scope := m.toNat % 8, eng := fun _ => portOf s, legal := fun _ _ _ => true,
            check := cmigrCheck, exps := fun _ _ _ => [], close := fun _ => none, limited := true }, c, x)
  | _ => none

/-- The block of 64 bytes at a place of a scratchpad (R269). -/
def localBlock (s : State) (p : Nat × Nat) : Block :=
  let m := s.scratch s.cur.launch p.1
  Block.of ((List.range 64).map (fun k => m.get (p.2 + k))) ((List.range 4).map (fun k => m.tag (p.2 + 16 * k))) false

/-- A release where the form asks for one (R238): the state once it has been begun, and the marker that the first access waits for, none when it is complete. -/
def releaseMark (u : State) (id : FibId) (rel : Bool) (scope : Nat) : Got (Option Nat) := if rel = true then u.releaseIssue id scope else (u, .ok none)

/-- The same for a tile access: one at a peer object waits for its release before it begins (R36, R363). -/
def tileMark (u : State) (id : FibId) (m : TileMem) (rel : Bool) (scope : Nat) : Got (Option Nat) :=
  match m with
  | .peer .. => if rel = true then (match u.releaseFor id scope with
    | (v, .ok _) => (v, .ok none)
    | (v, .error e) => (v, .error e)) else (u, .ok none)
  | _ => releaseMark u id rel scope

/-- A tile instruction has begun its access: it is in flight with these bytes and slices, and its token is pending (R241, R363). -/
def tileBegun (t : State) (load : Bool) (g : BitVec 5) (bytes : List (Nat × Nat)) (slices : List Nat) : Prop :=
  (t.greg t.cur.launch t.cur.wgid g.toNat).pending = true ∧ ∃ op ∈ t.tiles, op.load = load ∧ op.g = g.toNat ∧ op.bytes = bytes ∧ op.slices = slices ∧ op.granted = []

/-- The words gq to gq+3 (R362). -/
def tileWords (s : State) (q : BitVec 5) : List Word := (List.range 4).map (fun k => (s.greg s.cur.launch s.cur.wgid (q.toNat + k)).val)

/-- A token register that takes a completion: it exists and its workgroup does. -/
def tokenThere (s : State) (l w g : Nat) : Prop := ∃ x, s.wg l w = some x ∧ g < x.g.length

/-! ## Events -/

/-- The refusal of an instruction fetch by the code capability (R206, R285): tag, kind code, right X, and 16 bytes at the packet. -/
def fetchRefusal (c : Cap) (p : Nat) : Option (BitVec 12) :=
  if c.tag = false then some 0x0C3 else if c.kind ≠ 1 then some 0x0C4 else if c.rights.getLsbD 5 = false then some 0x0C2
  else if p < c.base.toNat ∨ c.base.toNat + c.len.toNat < p + 16 then some 0x0C1 else none

/-- One fibre is all of the bundle. -/
def onlyFibre (s : State) (f : Fibre) : Prop := s.cur.inChain = false ∧ s.cur.fids = [f.fid] ∧ s.fib (me s f) = some f

/-- The state once the packet at the head of a receive queue has been taken. -/
def fabricTaken (s : State) (rest : List Packet) : State := { s with rxq := rest }
def trayTaken (s : State) (rest : List (Nat × Packet)) : State := { s with trayRx := rest }
def soTaken (s : State) (rest : List SoPacket) : State := { s with soRx := rest }
def sidebandTaken (s : State) (rest : List (Nat × Nat × Sideband)) : State := { s with sbRx := rest }

/-- A packet as an answer to p from position pos by way of v: to p's source, under its tag and EPOCH bit, on virtual channel 0 (R26, R29, R31, R41). -/
def answerTo (pos : Nat) (p r : Packet) (v : Nat) : Packet :=
  { r with dst := p.src, tag := p.tag, epoch := p.epoch, src := posF pos, via := posF v, vc := false, hop2 := false }

/-- From s to t one packet has been queued for the fabric, as an answer to p, where its source can be reached. -/
def answered (s t : State) (p r : Packet) : Prop := ∀ v, s.via p.src.val = some v → t.txq = s.txq ++ [answerTo s.pos p r v]

/-- ACK and NACK (R34, R35). -/
def ackPacket : Packet := { Packet.zero with kind := 0x06 }
def nackPacket (status : BitVec 8) (why : Nat) : Packet := { Packet.zero with kind := 0x07, op := status, off := BitVec.ofNat 48 why }

/-- The sizes of an access (R30). -/
def accessSizes (n : Nat) : Prop := n = 1 ∨ n = 2 ∨ n = 4 ∨ n = 8 ∨ n = 16

/-- The fibres that wait for a remote answer have it, and issue again; no other fibre changes. -/
def remoteAnswered (s t : State) (dst tag : Nat) (bs : List Byte) : Prop :=
  ∀ id f, s.fib id = some f → t.fib id = some (if f.wait = .remote dst tag then { f with wait := .none, resp := some (f.resp.getD [] ++ bs) } else f)

/-- No cell is still to be raised, and no SHOOT still to be sent (R38, R199). -/
def calm (s : State) : Prop := s.wakes = [] ∧ ∀ z ∈ s.shoots, z.unsent = 0

/-- A transaction is over: its tag is free (R31). -/
def txsWithout (s : State) (x : Tx) : List Tx := s.txs.filter (fun y => !(y.dst == x.dst && y.tag == x.tag))

/-- A transaction has ended without its answer: its tag stays taken until that comes (R31). -/
def txsLeft (s : State) (x : Tx) : List Tx := s.txs.map (fun y => if y.dst == x.dst && y.tag == x.tag then { y with kind := .gone } else y)

/-- The effect of a refused access (R35): writes blocked, not resident, read-only, data lost, and everything else. -/
def refusedEffect (p : Packet) : BitVec 12 :=
  if p.op = 0x11 then (if p.off.getLsbD 0 then 0x0D2 else 0x0D1) else if p.op = 0x12 then 0x0C2 else if p.op = 0x13 then 0x0D0 else 0x0C1

/-- The word of a completed token (R157). -/
def tokenValue (err : Bool) (code count : Nat) : Word := BitVec.ofNat 32 (0x80000000 + (if err then 0x40000000 else 0) + code % 64 * 0x1000000 + min count 0xFFFFFF)

/-- A sideband message waits on the first lane of every working pair to every other position. -/
def beatOn (s t : State) (m : Sideband) : Prop :=
  ∀ q k, q < 16 → q ≠ s.pos → k ∈ pairsOf s.pos q → (s.pair k).works = true → ∃ l ls, (t.pair k).lanes = l :: ls ∧ m ∈ l.2.sbQ

/-- The post of a DPOST packet (R46, R67). -/
def postOf (s : State) (p : Packet) : Post :=
  ⟨p.src.val, littleEndian ((p.payload.drop 136).take 8), s.fabric, BitVec.ofNat 16 (littleEndian ((p.payload.drop 132).take 2)), (List.range 16).map (fun q => littleEndian ((p.payload.drop (8 * q)).take 8))⟩

/-- The one DPOST of this package for an exchange that has not failed (R58). -/
def onlyDpost (s : State) (x : Word) (e : MyExch) : Prop := s.exchs.filter (fun y => y.exid == x && !y.failed) = [e]

/-- Piece k of a calendar, as a CALENDAR packet to a position holds it (R66, R67). -/
def calendarPiece (q : Nat) (bs : List Byte) (k : Nat) (p : Packet) : Prop :=
  p.kind = 0x0F ∧ p.op = 0x02 ∧ p.dst = posF q ∧ p.payload = bs.take 4 ++ natBytes 2 (496 * k) ++ natBytes 2 bs.length ++ (bs.drop 16).take 8 ++ (bs.drop (496 * k)).take 496

/-- The close token of this package's part of an exchange has completed (R64). -/
def closed (t : State) (x : Word) (e : MyExch) (code count : Nat) : Prop :=
  t.greg e.launch e.wgid e.closeG = ⟨tokenValue (code != 0) code count, false, none, false⟩ ∧ (t.myExch x).map (·.closeDone) = some true

/-- The bytes of flow (a, b) that some folds carry, in units. -/
def carried (fs : List Fold) (a b : Nat) : Nat := ((fs.filter (fun f => f.pairs.contains (a, b))).map (·.len)).sum

/-- A packet of a connection to its peer. -/
def ofConnection (s : State) (c : Conn) (p : SoPacket) : Prop := p.dstEp = c.peerEp ∧ p.dstCon = c.peerCon ∧ p.srcEp = s.endpoint ∧ p.srcCon = BitVec.ofNat 16 c.num ∧ p.crc = soCrc p

/-- A packet can be sent again: its SEND has ended, or its source can be read now (R74). -/
def resendable (s : State) (c : Conn) (p : SoPacket) : Prop :=
  ∀ o d, c.sends.find? (fun o => o.msn == p.msn) = some o → s.cmd o.cmd = some d → d.st ≠ .finished →
    ∃ segs, s.span d (d.cap 1) p.moff.toNat p.payload.length false = .mem segs ∧ s.spanLatched false (.mem segs) = false ∧ s.segsBad segs = false

/-- A connection has ended: no message or packet is in flight, and each of its commands has ended with code 0x31 (R71). -/
def connectionEnded (s t : State) (n : Nat) (st : ConnSt) : Prop :=
  (∃ c, t.conn n = some c ∧ c.st = st ∧ c.sends = [] ∧ c.bufs = [] ∧ c.unacked = []) ∧ ∀ d ∈ s.connCmds n, (t.cmd d.id).map (fun x => (x.st, x.code)) = some (.finished, 0x31)

/-- The status of a refused host request (R87), in the order of its checks: HOST_REACH not accepted, no object of this device that is open to the host, or read-only where the request minds that (R87); out of bounds; a link that the confidential ASID does not hold; a bad NOTE. -/
def hostRefusal (s : State) (k : Nat) (p : Packet) (n : Nat) (ro : Bool) (bad : OEntry → Bool) : Option (BitVec 8) :=
  if s.acceptNow.getLsbD 12 = false then some 0x40
  else match s.entry p.asid.toNat p.obj.toNat with
    | none => some 0x40
    | some e =>
      if e.host = false ∨ e.typ ∉ [1, 2, 3] ∨ (ro = true ∧ e.ro = true) then some 0x40
      else if e.size < p.off.toNat + n then some 0x41
      else if (s.asid p.asid.toNat).any (·.conf) && !s.tdis.any (fun t => t.st == .run && t.asid == p.asid.toNat && t.links.getLsbD k) then some 0x42
      else if bad e = true then some 0x45
      else none

/-- A packet has been queued on tray link k. -/
def traySent (s t : State) (k : Nat) (p : Packet) : Prop := ∃ l l', s.tray[k]? = some l ∧ t.tray[k]? = some l' ∧ l'.txq = l.txq ++ [p]

/-- A sideband message waits on the first lane of pair k. -/
def queuedOn (t : State) (k : Nat) (m : Sideband) : Prop := ∃ l ls, (t.pair k).lanes = l :: ls ∧ m ∈ l.2.sbQ

/-- The offset of an exchange of time runs, rounded towards zero (R106). -/
def timeOffset (t1 t2 t3 t4 : Nat) : Int := Int.tdiv (((t2 : Int) - t1) - ((t4 : Int) - t3)) 2

/-- Why the image is refused (R97 step 2, R98), if it is: no signature holds, its version is too low, or the healthy pairs do not agree on its digest. -/
def imageCode (s : State) (image : List Byte) : Option Word :=
  let x := Config.imageParts image
  if s.mg.vendorKeys.any (fun k => Config.ed25519Verify k (Config.sha512 x.2.2) x.2.1) = false then some 1 else if x.1 < s.mg.rollback then some 2
  else if s.healthy.any (fun d => s.boot.wrong.getLsbD d) then some 3 else none

/-- The power-on sequence has taken an image, which calibration follows, or refused it: step 2, or step 15 with the code in BOOTERR (R97, R98). -/
def imageTaken (t : State) (code : Option Word) : Prop :=
  match code with
  | none => t.mg.step = 2 ∧ t.mg.booterr = 0 ∧ ⟨t.ticks + 1000, .recalibration⟩ ∈ t.agenda
  | some c => t.mg.step = 15 ∧ t.mg.booterr = c

/-- FULL is set, and the accepted features are in force (R97, R103). -/
def fullSet (s t : State) : Prop := t.mg.full = true ∧ t.mg.limited = false ∧ t.mg.step = 5 ∧ t.mg.inForce = s.mg.accept.getD 0 0 ∧ t.mg.rollback = max s.mg.rollback s.mg.imageVersion

/-- An operation is on the agenda of t, later than now, in one of these slots of the house frame (R104). -/
def inSlots (s t : State) (i : Instr) (lo hi : Nat) : Prop :=
  ∃ x ∈ t.agenda, x.ev = i ∧ s.ticks < x.due ∧ lo ≤ (x.due - s.epoch) / 16000 % 64 ∧ (x.due - s.epoch) / 16000 % 64 ≤ hi

/-- Nothing runs: no launch, workgroup, gang, queue or command. -/
def nothingRuns (t : State) : Prop := t.launches = [] ∧ t.wgs = [] ∧ t.gangs = [] ∧ t.queues = [] ∧ t.cmds = []

/-- The value that a write gives a fibre register, if it writes that one. -/
def writeTo (n : Nat) (w : WB) : Option Word :=
  match w with
  | .v m x => if m = n then some x else none
  | _ => none

/-- The state with an issue in progress. -/
def withCur (s : State) (c : Cur) : State := { s with cur := c }

end Sys2Proof.Claims

open Sys2Proof Sys2Proof.Machine Sys2Proof.Claims

/-- R323, R324: every row of the integer table answers a next state in which each executing fibre has the result due after the row's latency and SAT as the rule says, a guarded-off fibre only takes its successor, and nothing else changes. -/
def Obligations.integer_r_forms : Prop :=
  ∀ (s : State) (i : Instr) (F : IntForm), intForm i = some F → s.lone i = true →
    ∃ t, exec i s = .next t ∧ bundleChange s t (fun f =>
      if f.guard s.cur.ctl then f.results s F.lat [.v F.d.toNat (narrow F.sat F.u (F.exact s f)).1] (narrow F.sat F.u (F.exact s f)).2 else f.passes s)

/-- R325: DIV and REM, where no divide-by-zero trap is enabled: results pending until the write-back, DZ and the results of a division by zero. R254, R325: a division by zero under IDZT performs 0x0E0 after its result and DZ are written, with the dividend as argument and the next instruction as resume address. Flags of a scoreboarded result stand at issue: the model's reading (log entry 14). -/
def Obligations.integer_division : Prop :=
  (∀ (s : State) (i : Instr) (d a b : BitVec 6) (g : Bool) (op : Word → Word → Word × Word), divRem i = some (d, a, b, g, op) → s.lone i = true →
    (∀ id f, s.inBundle id → s.fib id = some f → f.guard s.cur.ctl = true → f.reg b.toNat = 0 → f.fmode.getLsbD 11 = false) →
    ∃ t, exec i s = .next t ∧ bundleChange (s.withWritebacks s.exeOf) t (fun f =>
      let r := op (opVal s f g a) (f.reg b.toNat)
      if f.guard s.cur.ctl then f.pends s [.v d.toNat r.1] r.2 else f.passes s)) ∧
  (∀ (s : State) (i : Instr) (f : Fibre) (d a b : BitVec 6) (g : Bool) (op : Word → Word → Word × Word), divRem i = some (d, a, b, g, op) →
    s.alone i f = true → f.reg b.toNat = 0 → f.fmode.getLsbD 11 = true →
    ∃ u, bundleChange (s.withWritebacks [f.fid]) u (fun f => f.pends s [.v d.toNat (op (opVal s f g a) 0).1] 2) ∧
      exec i s = .next (u.raise (s.curId f.fid) (Eff.fault 0x0E0#12 (opVal s f g a) s.cur.next none)))

/-- R326, R327: the four-operand and the immediate integer forms, which set no flag. -/
def Obligations.immediate_and_four_operand_forms : Prop :=
  ∀ (s : State) (i : Instr) (lat : Nat) (w : Fibre → List WB), plainForm i = some (lat, w) → s.lone i = true →
    ∃ t, exec i s = .next t ∧ bundleChange s t (fun f => if f.guard s.cur.ctl then f.results s lat (w f) 0 else f.passes s)

/-- R328, R329, R330: CMP, CMPI and PLOG write one predicate with latency 4, as the condition and the combine mode say. R331: SEL. -/
def Obligations.compares_and_select : Prop :=
  (∀ (s : State) (i : Instr) (k p : BitVec 3) (c : State → Fibre → Prop), compareForm i = some (k, p, c) → s.lone i = true →
    ∃ (t : State) (new : Fibre → Bool), exec i s = .next t ∧ (∀ f, combines k (f.pred p.toNat = true) (c s f) (new f = true)) ∧
      bundleChange s t (fun f => if f.guard s.cur.ctl then f.results s 4 [.p p.toNat (new f)] 0 else f.passes s)) ∧
  (∀ (s : State) (d a b : BitVec 6) (g n : Bool) (p : BitVec 3), s.lone (.sel d a b g n p) = true →
    ∃ t, exec (.sel d a b g n p) s = .next t ∧ bundleChange s t (fun f =>
      if f.guard s.cur.ctl then f.results s 4 [.v d.toNat (if (f.pred p.toNat ^^ n) = true then opVal s f g a else f.reg b.toNat)] 0 else f.passes s))

/-- R332, R333, R256: the floating-point R forms of fixed latency, where the flags of no executing fibre trap. The operations on encodings are those of Numbers.lean. -/
def Obligations.float_r_forms : Prop :=
  ∀ (s : State) (i : Instr) (F : FloatForm), floatForm i = some F → s.lone i = true →
    (∀ id f, s.inBundle id → s.fib id = some f → f.guard s.cur.ctl = true → f.quietOn (F.value s f).2 = true) →
    ∃ t, exec i s = .next t ∧ bundleChange s t (fun f => if f.guard s.cur.ctl then f.results s F.lat [.v F.d.toNat (F.value s f).1] (F.value s f).2 else f.passes s)

/-- R333, R335, R336: the fused forms, the dot products, FSCALE and FCLASS, where the flags of no executing fibre trap. That opposite infinities set NV beside a NaN operand is the model's reading (log entry 13). -/
def Obligations.fused_and_class_forms : Prop :=
  ∀ (s : State) (i : Instr) (d : BitVec 6) (lat : Nat) (w : State → Fibre → Word × Word), fusedForm i = some (d, lat, w) → s.lone i = true →
    (∀ id f, s.inBundle id → s.fib id = some f → f.guard s.cur.ctl = true → f.quietOn (w s f).2 = true) →
    ∃ t, exec i s = .next t ∧ bundleChange s t (fun f => if f.guard s.cur.ctl then f.results s lat [.v d.toNat (w s f).1] (w s f).2 else f.passes s)

/-- R256, R332: FDIV rounds to nearest even whatever its field says, and its result is pending until the write-back. R334: FCMP; for packed types the condition must hold in both halves. Flags of a scoreboarded result stand at issue: the model's reading (log entry 14). -/
def Obligations.float_division_and_compare : Prop :=
  (∀ (s : State) (d a b : BitVec 6) (g : Bool) (t : BitVec 2) (r : BitVec 3), s.lone (.fdiv d a b g t r) = true →
    let w : Fibre → Word × Word := fun f => elements t (opVal s f g a) (f.reg b.toNat) (fun fm => element fm (ftz f) (fm.divBits .rne))
    (∀ id f, s.inBundle id → s.fib id = some f → f.guard s.cur.ctl = true → f.quietOn (w f).2 = true) →
    ∃ u, exec (.fdiv d a b g t r) s = .next u ∧ bundleChange (s.withWritebacks s.exeOf) u (fun f =>
      if f.guard s.cur.ctl then f.pends s [.v d.toNat (w f).1] (w f).2 else f.passes s)) ∧
  (∀ (s : State) (k p : BitVec 3) (a b : BitVec 6) (g : Bool) (t : BitVec 2) (n : BitVec 3), s.lone (.fcmp k p a b g t n) = true →
    let nv : Fibre → Word := fun f => if (floatPairs s f g t a b).any (fun x => floatNV x.1 n x.2.1 x.2.2) then 1 else 0
    (∀ id f, s.inBundle id → s.fib id = some f → f.guard s.cur.ctl = true → f.quietOn (nv f) = true) →
    ∃ (u : State) (new : Fibre → Bool), exec (.fcmp k p a b g t n) s = .next u ∧
      (∀ f, combines k (f.pred p.toNat = true) (∀ x ∈ floatPairs s f g t a b, floatHolds x.1 n x.2.1 x.2.2) (new f = true)) ∧
      bundleChange s u (fun f => if f.guard s.cur.ctl then f.results s 4 [.p p.toNat (new f)] (nv f) else f.passes s))

/-- R254: where the flags of a floating-point R form of fixed latency trap, the effect is performed after the result and the flags are written, with the next instruction as resume address: 0x0E1 under NV and TNV, else 0x0E2 under DZ and TDZ. R256: the special cases of the special functions, in FP32, FP16 and BF16: ±0 and the infinities. -/
def Obligations.float_traps_and_special_cases : Prop :=
  (∀ (s : State) (i : Instr) (f : Fibre) (F : FloatForm), floatForm i = some F → s.alone i f = true → f.quietOn (F.value s f).2 = false →
    ∃ u, bundleChange s u (fun f => f.results s F.lat [.v F.d.toNat (F.value s f).1] (F.value s f).2) ∧
      exec i s = .next (u.raise (s.curId f.fid) (Eff.fault (if (F.value s f).2.getLsbD 0 && f.fmode.getLsbD 9 then 0x0E1#12 else 0x0E2#12) 0 s.cur.next none))) ∧
  (∀ fm ∈ [fp32, fp16, bf16],
    let inf := fm.infBits
    let neg := fm.sign
    let one := fm.bias * 2 ^ fm.mb
    (fm.rcpBits 0).bits = inf ∧ (fm.rcpBits 0).flags = 2 ∧ (fm.rcpBits neg).bits = neg + inf ∧ (fm.rcpBits neg).flags = 2 ∧ (fm.rcpBits inf).bits = 0 ∧ (fm.rcpBits (neg + inf)).bits = neg ∧
    (fm.rsqBits 0).bits = inf ∧ (fm.rsqBits 0).flags = 2 ∧ (fm.rsqBits neg).bits = neg + inf ∧ (fm.rsqBits inf).bits = 0 ∧ (fm.rsqBits (neg + inf)).bits = fm.nan ∧ (fm.rsqBits (neg + inf)).flags = 1 ∧
    (fm.sqrtBits 0).bits = 0 ∧ (fm.sqrtBits neg).bits = neg ∧ (fm.sqrtBits inf).bits = inf ∧ (fm.sqrtBits (neg + inf)).bits = fm.nan ∧ (fm.sqrtBits (neg + inf)).flags = 1 ∧ (fm.sqrtBits (neg + one)).flags = 1 ∧
    (fm.exp2Bits 0).bits = one ∧ (fm.exp2Bits neg).bits = one ∧ (fm.exp2Bits inf).bits = inf ∧ (fm.exp2Bits (neg + inf)).bits = 0 ∧
    (fm.log2Bits 0).bits = neg + inf ∧ (fm.log2Bits 0).flags = 2 ∧ (fm.log2Bits neg).flags = 2 ∧ (fm.log2Bits inf).bits = inf ∧ (fm.log2Bits (neg + inf)).flags = 1 ∧ (fm.log2Bits one).bits = 0 ∧
    (fm.sinPiBits 0).bits = 0 ∧ (fm.sinPiBits neg).bits = neg ∧ (fm.sinPiBits inf).flags = 1 ∧ (fm.sinPiBits one).bits = 0 ∧ (fm.sinPiBits (neg + one)).bits = neg ∧
    (fm.cosPiBits 0).bits = one ∧ (fm.cosPiBits inf).flags = 1 ∧ (fm.cosPiBits (neg + inf)).flags = 1 ∧
    (fm.tanhBits 0).bits = 0 ∧ (fm.tanhBits neg).bits = neg ∧ (fm.tanhBits inf).bits = one ∧ (fm.tanhBits (neg + inf)).bits = neg + one)

/-- R342 to R345: the packed integer forms, where the flags of no executing fibre trap. -/
def Obligations.packed_integer_forms : Prop :=
  ∀ (s : State) (i : Instr) (d : BitVec 6) (lat : Nat) (w : State → Fibre → Word × Word), packedForm i = some (d, lat, w) → s.lone i = true →
    (∀ id f, s.inBundle id → s.fib id = some f → f.guard s.cur.ctl = true → f.quietOn (w s f).2 = true) →
    ∃ t, exec i s = .next t ∧ bundleChange s t (fun f => if f.guard s.cur.ctl then f.results s lat [.v d.toNat (w s f).1] (w s f).2 else f.passes s)

/-- R337 to R341: CVT, QPACK, QPACK4 and QUNPK, where the flags of no executing fibre trap. Elements are written and read by the functions of Numbers.lean. That a conversion into an integer format that both rounds and clamps sets NV and NX is the model's reading (log entry 11). -/
def Obligations.format_conversions : Prop :=
  ∀ (s : State) (i : Instr) (w : State → Fibre → List WB × Word), formatForm i = some w → s.lone i = true →
    (∀ id f, s.inBundle id → s.fib id = some f → f.guard s.cur.ctl = true → f.quietOn (w s f).2 = true) →
    ∃ t, exec i s = .next t ∧ bundleChange s t (fun f => if f.guard s.cur.ctl then f.results s 6 (w s f).1 (w s f).2 else f.passes s)

/-- R361: the instructions on capability registers write one register with latency 4 and change nothing else. R203, R205, R360: LDC and STC through a kind-local capability: the capability of a granule with its tag, which counts only under right K; a tagged capability without G may stand there. On device memory such a store performs 0x0C2. -/
def Obligations.capability_instructions : Prop :=
  ((∀ (s : State) (i : Instr) (w : Fibre → WB), capForm i = some w → s.lone i = true →
    ∃ t, exec i s = .next t ∧ bundleChange s t (fun f => if f.guard s.cur.ctl then f.results s 4 [w f] 0 else f.passes s)) ∧
  ∀ (s : State) (k p : BitVec 3) (a : BitVec 4) (b : BitVec 6), s.lone (.ctest k p a b) = true →
    ∃ (t : State) (new : Fibre → Bool), exec (.ctest k p a b) s = .next t ∧
      (∀ f, combines k (f.pred p.toNat = true) (capHolds (f.cap a.toNat) (f.reg b.toNat)) (new f = true)) ∧
      bundleChange s t (fun f => if f.guard s.cur.ctl then f.results s 4 [.p p.toNat (new f)] 0 else f.passes s)) ∧
  ((∀ (s : State) (f : Fibre) (t c : BitVec 4) (x : BitVec 6) (i : BitVec 8), s.alone (.ldc t c x i) f = true → intact s →
    let k := f.cap c.toNat
    let off := offsetOf f x (i.toInt * 16)
    let p := localPlace s f k off
    let m := s.scratch s.cur.launch p.1
    let y := littleEndian ((List.range 16).map (fun j => m.get (p.2 + j)))
    k.kind = 2 → permits k [0, 2] [7, 2] off 16 16 →
    ∃ u, exec (.ldc t c x i) s = .next u ∧ bundleChange (s.withWritebacks [f.fid]) u (fun g =>
      g.pends s [.c t.toNat ⟨m.tag p.2, BitVec.ofNat 20 (y / 2 ^ 108), BitVec.ofNat 8 (y / 2 ^ 100), BitVec.ofNat 4 (y / 2 ^ 96), BitVec.ofNat 48 (y / 2 ^ 48), BitVec.ofNat 48 y⟩] 0)) ∧
  (∀ (s : State) (f : Fibre) (t c : BitVec 4) (x : BitVec 6) (i : BitVec 8), s.alone (.stc t c x i) f = true →
    let k := f.cap c.toNat
    let off := offsetOf f x (i.toInt * 16)
    let p := localPlace s f k off
    let z := f.cap t.toNat
    k.kind = 2 → permits k [0, 2] [6, 2] off 16 16 → p.2 % 16 = 0 → intact s → scratchThere s p.1 →
    ∃ u, exec (.stc t c x i) s = .next u ∧ fibreChange s u (me s f) (f.passes s) ∧
      (∀ j, j < 16 → (u.scratch s.cur.launch p.1).get (p.2 + j) = byteOf (z.obj.toNat * 2 ^ 108 + z.rights.toNat * 2 ^ 100 + z.kind.toNat * 2 ^ 96 + z.base.toNat * 2 ^ 48 + z.len.toNat) j) ∧
      (∀ j, j < p.2 ∨ p.2 + 16 ≤ j → (u.scratch s.cur.launch p.1).get j = (s.scratch s.cur.launch p.1).get j) ∧
      (∀ j, (u.scratch s.cur.launch p.1).tag j = if j / 16 = p.2 / 16 then z.tag else (s.scratch s.cur.launch p.1).tag j) ∧
      besides u s.cur.launch p.1 = besides s s.cur.launch p.1) ∧
  ∀ (s : State) (f : Fibre) (t c : BitVec 4) (x : BitVec 6) (i : BitVec 8), s.alone (.stc t c x i) f = true →
    let k := f.cap c.toNat
    let off := offsetOf f x (i.toInt * 16)
    k.kind = 0 → permits k [0, 2] [6, 2] off 16 16 → s.isHeap (me s f) k = false → (f.cap t.toNat).tag = true → (f.cap t.toNat).rights.getLsbD 0 = false →
    exec (.stc t c x i) s = .next (faultAt s.gone s f 0x0C2 (BitVec.ofInt 32 off)))

/-- R263, R265, R346: SCALEP raises the ring's pending maximum to the largest magnitude contributed, SCALEC pushes it, SCALEG writes the ring exponent; one ring operation for the bundle, nothing for one that executes nothing. -/
def Obligations.scale_rings : Prop :=
  (∀ (s : State) (a : BitVec 6) (n : BitVec 3), s.lone (.scalep a n) = true →
    let xs := (s.curFibs s.exeOf).map (fun f => f.reg a.toNat &&& 0x7FFFFFFF#32)
    ∃ (t : State) (m : Word → Word), exec (.scalep a n) s = .next t ∧
      (∀ p, (m p = p ∨ ∃ x ∈ xs, m p = x ∧ fp32.isNaN x.toNat = false) ∧ p.toNat ≤ (m p).toNat ∧ ∀ x ∈ xs, fp32.isNaN x.toNat = false → x.toNat ≤ (m p).toNat) ∧
      bundleChange (s.modRing s.cur.launch (fmtSlot s n) (fun r => { r with pendMax := if s.exeOf = [] then r.pendMax else m r.pendMax })) t (fun f => f.passes s)) ∧
  (∀ (s : State) (n : BitVec 3), s.lone (.scalec n) = true → s.exeOf ≠ [] →
    ∃ t, exec (.scalec n) s = .next t ∧ bundleChange (s.modRing s.cur.launch (fmtSlot s n)
      (fun r => ⟨r.entries.set r.index (some r.pendMax), (r.index + 1) % 16, 0⟩)) t (fun f => f.passes s)) ∧
  ∀ (s : State) (d : BitVec 6) (n : BitVec 3), s.lone (.scaleg d n) = true →
    ∃ t, exec (.scaleg d n) s = .next t ∧ bundleChange (s.withWritebacks s.exeOf) t (fun f =>
      if f.guard s.cur.ctl then f.pends s [.v d.toNat (BitVec.ofInt 32 (ringExp s n))] 0 else f.passes s)

/-- R167 to R170, R320, R347 to R355: a rendezvous whose live members are the bundle, all with one mask that names each of them, completes at once: every executing member receives its result and the flags of the operation (XLN where a named member has exited), a guarded-off member nothing, and all go on. The premises on other arrivals and barriers keep other rendezvous out; no NV trap is enabled. R356: CMASK sets, intersects or joins %cmask, scoreboarded and without a rendezvous. That MEET sets no XLN is the model's reading (log entry 32). -/
def Obligations.crew_operations : Prop :=
  (∀ (s : State) (i : Instr) (L : Launch) (g : Wg) (c : Nat) (mask : DWord) (r : Nat → Fibre → List WB × Word), s.lone i = true →
    s.launch s.cur.launch = some L → L.crew = 32 ∨ L.crew = 64 → s.wg s.cur.launch s.cur.wgid = some g →
    g.fibres.filter (fun f => f.fid / L.crew == c) = s.curFibs s.cur.fids → s.cur.fids ≠ [] →
    (∀ f ∈ g.fibres, f.arrived = false) → (∀ x ∈ s.allFibres, x.1.launch = s.cur.launch → ∀ a ∈ x.2.arr, a.done = true) →
    (∀ f ∈ s.curFibs s.cur.fids, f.cmask = mask ∧ mask.getLsbD (f.fid % L.crew) = true ∧ f.fmode.getLsbD 9 = false) →
    let exe := (s.curFibs s.cur.fids).filter (fun f => f.guard s.cur.ctl)
    let m : Nat → Option Fibre := fun n => exe.find? (fun f => f.fid % L.crew == n)
    let named : Nat → Bool := fun n => mask.getLsbD n && (s.curFibs s.cur.fids).any (fun f => f.fid % L.crew == n)
    let gone := (List.range L.crew).any (fun n => mask.getLsbD n && !named n)
    let age := (s.curFibs s.cur.fids).foldl (fun x f => max x f.age) 0
    (∀ n f, crewForm L.crew m named n f i = some (r n f)) →
    ∃ t, exec i s = .next t ∧
      (∀ f ∈ s.curFibs s.cur.fids, t.fib (me s f) = some (
        if f.guard s.cur.ctl then rendezvousDone s f (r (f.fid % L.crew) f).1
          ((r (f.fid % L.crew) f).2 ||| (if gone = true ∧ isMeet i = false then 0x40 else 0)) (if isMeet i = true then age else f.age)
        else rendezvousDone s f [] 0 (if isMeet i = true then age else f.age))) ∧
      (∀ id, ¬ s.inBundle id → t.fib id = s.fib id) ∧ t.bare = s.bare.withAgenda t.agenda) ∧
  (∀ (s : State) (L : Launch) (a : BitVec 6) (m : BitVec 2), s.lone (.cmask a m) = true → s.launch s.cur.launch = some L →
    ∃ t, exec (.cmask a m) s = .next t ∧ bundleChange (s.withWritebacks s.exeOf) t (fun f =>
      let x : DWord := BitVec.ofNat 64 ((f.reg a.toNat).toNat + if L.crew = 64 then (f.reg (a.toNat + 1)).toNat * 2 ^ 32 else 0)
      if f.guard s.cur.ctl then f.pends s [.cmask (if m = 0 then x else if m = 1 then f.cmask &&& x else f.cmask ||| x)] 0 else f.passes s))

/-- R306, R308: BRA and BWAY: an executing fibre goes to slot 1 of its target packet, any other to its successor. R307: BRU acts as BRA when the bundle does not diverge, and when it diverges with CHECK clear, where DIVU is set in every fibre; with CHECK set every fibre performs 0x0E5 at the BRU. R309, R318: LOOP counts down with the control pipe's latency and branches while the counter is not zero; NOP only advances. -/
def Obligations.branches : Prop :=
  (∀ (s : State) (i : Instr) (w : State → Fibre → Option Word), branchForm i = some w → s.lone i = true →
    ∃ t, exec i s = .next t ∧ bundleChange s t (fun f => if f.guard s.cur.ctl then { f with pc := (w s f).getD s.cur.next } else f.passes s)) ∧
  (∀ (s : State) (L : Launch) (o : BitVec 24), s.lone (.bru o) = true → s.launch s.cur.launch = some L →
    let go (f : Fibre) : Fibre := if f.guard s.cur.ctl then { f with pc := branchTo s o.toInt } else f.passes s
    ((s.exeOf = [] ∨ s.exeOf = s.cur.fids) → ∃ t, exec (.bru o) s = .next t ∧ bundleChange s t go) ∧
    (s.exeOf ≠ [] → s.exeOf ≠ s.cur.fids → L.check = false →
      ∃ t, exec (.bru o) s = .next t ∧ bundleChange s t (fun f => { go f with fflags := f.fflags ||| 0x100 })) ∧
    (s.exeOf ≠ [] → s.exeOf ≠ s.cur.fids → L.check = true →
      exec (.bru o) s = .next (s.gone.each s.cur.fids (fun u id _ => u.raise id (Eff.fault 0x0E5#12 0 s.cur.first none))))) ∧
  ((∀ (s : State) (d : BitVec 6) (i : BitVec 12), s.lone (.loop d i) = true →
    ∃ t, exec (.loop d i) s = .next t ∧ bundleChange s t (fun f =>
      let x := BitVec.ofInt 32 ((f.reg d.toNat).toNat - 1)
      if f.guard s.cur.ctl then { f.results s 4 [.v d.toNat x] 0 with pc := if x = 0 then s.cur.next else branchTo s i.toInt } else f.passes s)) ∧
  ∀ s : State, s.lone .nop = true → ∃ t, exec .nop s = .next t ∧ bundleChange s t (fun f => f.passes s))

/-- R322, R397, R196: ASSERT writes nothing and performs 0x0E6 after it where its predicate fails; BRK and SVC perform 0x0F0 and 0x0F1 after them, SVC with its immediate as argument. R185, R380: PERFORM and PERFORMR raise their tag with their argument, a partial record and the next instruction as resume address; tag 0 performs 0x0E7. -/
def Obligations.raising_instructions : Prop :=
  ((∀ (s : State) (n : Bool) (p : BitVec 3), s.lone (.assert n p) = true → (∀ f ∈ s.curFibs s.exeOf, (f.pred p.toNat ^^ n) = true) →
    ∃ t, exec (.assert n p) s = .next t ∧ bundleChange s t (fun f => f.passes s)) ∧
  (∀ (s : State) (f : Fibre) (n : Bool) (p : BitVec 3), s.alone (.assert n p) f = true → (f.pred p.toNat ^^ n) = false →
    exec (.assert n p) s = .next (s.gone.raise (me s f) (Eff.fault 0x0E6#12 0 s.cur.next none))) ∧
  (∀ (s : State) (f : Fibre), s.alone .brk f = true → exec .brk s = .next (s.gone.raise (me s f) (Eff.fault 0x0F0#12 0 s.cur.next none))) ∧
  ∀ (s : State) (f : Fibre) (i : BitVec 12), s.alone (.svc i) f = true →
    exec (.svc i) s = .next (s.gone.raise (me s f) (Eff.fault 0x0F1#12 (i.setWidth 32) s.cur.next none))) ∧
  ((∀ (s : State) (f : Fibre) (t : BitVec 12) (a : BitVec 6), s.alone (.perform t a) f = true →
    exec (.perform t a) s = .next (if t = 0 then faultAt s.gone s f 0x0E7 0 else s.gone.raise (me s f) ⟨t, f.reg a.toNat, false, s.cur.next, none, .none, none⟩)) ∧
  ∀ (s : State) (f : Fibre) (a b : BitVec 6), s.alone (.performr a b) f = true →
    let t : BitVec 12 := BitVec.ofNat 12 (f.reg a.toNat).toNat
    exec (.performr a b) s = .next (if t = 0 then faultAt s.gone s f 0x0E7 0 else s.gone.raise (me s f) ⟨t, f.reg b.toNat, false, s.cur.next, none, .none, none⟩))

/-- R310, R311, R174, R177: CALL pushes a frame that returns to its successor; CALLI pushes one too, saving the code capability when it goes to another object; JMPI pushes nothing. A frame for which no segment can be obtained performs 0x0E9. R172, R173, R310: what pushing a plain frame writes, in a heap segment that has room, lies in device memory and does not hold its own translation: RET, PREV, MODE 0 and LOCAL 0 after the used part, USED 16 more; the frame is current and c12 its empty local space; no other byte of memory changes. -/
def Obligations.calls : Prop :=
  ((∀ (s : State) (f : Fibre) (o : BitVec 24), s.alone (.call o) f = true → held s f f.seg →
    exec (.call o) s = .next (pushed (onTop s f) s f none (fun x => { x with pc := branchTo s o.toInt }))) ∧
  (∀ (s : State) (f : Fibre) (c : BitVec 4) (x : BitVec 6) (i : BitVec 8), s.alone (.calli c x i) f = true → held s f f.seg →
    let off := offsetOf f x (i.toInt * 16)
    let k := f.cap c.toNat
    let pc := BitVec.ofInt 32 (k.base.toNat + off + 4)
    permits k [1] [5] off 16 16 →
    exec (.calli c x i) s = .next (if k.obj = f.code.obj then pushed (onTop s f) s f none (fun y => { y with pc := pc })
      else pushed (onTop s f) s f (some f.code) (fun y => { y with pc := pc, code := k }))) ∧
  ∀ (s : State) (c : BitVec 4) (x : BitVec 6) (i : BitVec 8), s.lone (.jmpi c x i) = true →
    (∀ f ∈ s.curFibs s.exeOf, permits (f.cap c.toNat) [1] [5] (offsetOf f x (i.toInt * 16)) 16 16) →
    ∃ t, exec (.jmpi c x i) s = .next t ∧ bundleChange s t (fun f =>
      if f.guard s.cur.ctl then { f with pc := BitVec.ofInt 32 ((f.cap c.toNat).base.toNat + offsetOf f x (i.toInt * 16) + 4), code := f.cap c.toNat } else f.passes s)) ∧
  (∀ (s : State) (id : FibId) (f : Fibre) (ret pa : Nat), s.fib id = some f → f.c.length = 16 → ret < 2 ^ 32 → f.frameOff < 2 ^ 16 → s.keyOf (s.asidOf id.launch) = 0 → s.keyed = [] →
    let a := s.asidOf id.launch
    let h := s.used a f.seg
    16 ≤ h → h + 16 ≤ 0x400 → (∀ m : Mem, (∀ x, (x < pa ∨ pa + 1024 ≤ x) → m.get x = s.mem.get x) → ({ s with mem := m } : State).segPA a f.seg = some pa) →
    ∃ t, s.pushFrame id ret none = some t ∧ t.hdr a f.seg h = ⟨ret, f.frameOff, 0, 0⟩ ∧ t.used a f.seg = h + 16 ∧ t.link a f.seg = s.link a f.seg ∧
      t.fib id = some { f with frameOff := h, c := f.c.set 12 ⟨true, BitVec.ofNat 20 (s.heapObj a), 0xC4, 0, BitVec.ofNat 48 (1024 * f.seg + h + 16), 0⟩ } ∧
      (∀ j, j ≠ id → t.fib j = s.fib j) ∧ (∀ x, x < pa + 8 ∨ (pa + 10 ≤ x ∧ x < pa + h) ∨ pa + h + 16 ≤ x → t.mem.get x = s.mem.get x) ∧
      ({ t.bare with mem := s.mem } : State) = s.bare)

/-- R313, R314, R184: RET of the first frame ends the fibre as EXIT does; of a body or clause frame it closes the handler; of any other it pops the frame; then what the end of a fibre may complete is completed. Where no arrival stands, the fibre that has not ended goes on at RET with the frame PREV current, in the segment below when the frame was the lowest of its segment, its registers as they were; no other fibre changes. R317, R176: EXIT ends the fibre: it is no longer live, its segments are free again, and no other fibre changes; then what its end may complete is completed. Where a freed segment stands among the free ones is left open (log entry 2). -/
def Obligations.returns_and_exits : Prop :=
  (∀ (s : State) (f : Fibre), s.alone .ret f = true → held s f f.seg →
    let h := myFrame s f
    let u := onTop s f
    let below := u.cupboardTake (s.coreOf (me s f)) (myAsid s) (s.link (myAsid s) f.seg) true
    (h.ret = 0xFFFFFFFF → exec .ret s = .next ((u.endFibre (me s f) none).settle s.cur.launch s.cur.wgid)) ∧
    (h.ret ≠ 0xFFFFFFFF → h.hb = true → atHand u (s.coreOf (me s f)) (myAsid s) (s.link (myAsid s) f.seg) →
      exec .ret s = .next ((below.closeHandler (me s f)).settle s.cur.launch s.cur.wgid)) ∧
    (h.ret ≠ 0xFFFFFFFF → h.hb = false → h.below = true → atHand u (s.coreOf (me s f)) (myAsid s) (s.link (myAsid s) f.seg) →
      exec .ret s = .next ((below.popFrame (me s f) (f.passes s)).settle s.cur.launch s.cur.wgid)) ∧
    (h.ret ≠ 0xFFFFFFFF → h.hb = false → h.below = false → exec .ret s = .next ((u.popFrame (me s f) (f.passes s)).settle s.cur.launch s.cur.wgid)) ∧
    (h.ret = 0xFFFFFFFF → noArrivals s → ∃ t, exec .ret s = .next t ∧ fibreEnded s t f) ∧
    (h.ret ≠ 0xFFFFFFFF → noArrivals s → (h.hb = true ∨ h.below = true → atHand u (s.coreOf (me s f)) (myAsid s) (s.link (myAsid s) f.seg)) →
      ∃ t f', exec .ret s = .next t ∧ fibreChange s t (me s f) f' ∧ f'.pc = BitVec.ofNat 32 h.ret ∧ f'.frameOff = h.prev ∧
        f'.seg = (if h.hb = true then s.link (myAsid s) f.seg else if h.below = true then t.link (myAsid s) f.seg else f.seg) ∧ f'.v = f.v ∧ f'.p = f.p ∧ f'.out = f.out ∧ f'.wait = f.wait)) ∧
  (∀ (s : State) (f : Fibre), s.alone .exit f = true → exec .exit s = .next ((s.gone.endFibre (me s f) none).settle s.cur.launch s.cur.wgid) ∧
    fibreEnded s (s.gone.endFibre (me s f) none) f ∧ (noArrivals s → ∃ t, exec .exit s = .next t ∧ fibreEnded s t f))

/-- R174, R177, R315, R316: FRAME of a size that is no multiple of 16, or that would pass 960 bytes, performs 0x0E7; of 0 it leaves the frame; else it grows the frame, in a fresh segment when it would pass 0x400, with 0x0E9 when there is none. UNFRAME empties the local space. R183, R184, R379: HANDLE installs a handler on the current frame, or performs 0x0E9 without its segments and 0x0E7 on a frame of 976 bytes or more; UNHANDLE in the body of the innermost active handler removes it; HRET closes it with a value. -/
def Obligations.frames_and_handlers : Prop :=
  ((∀ (s : State) (f : Fibre) (i : BitVec 12), s.alone (.frame i) f = true → held s f f.seg →
    let h := myFrame s f
    let u := onTop s f
    exec (.frame i) s = .next (
      if i.toNat % 16 ≠ 0 ∨ 960 < h.loc + i.toNat then faultAt u s f 0x0E7 0
      else if i = 0 then u
      else if f.frameOff + h.head + h.loc + i.toNat ≤ 0x400 then u.growFrame (me s f) i.toNat
      else match u.moveFrame (me s f) with
        | none => faultAt u s f 0x0E9 0
        | some v => v.growFrame (me s f) i.toNat)) ∧
  ∀ (s : State) (f : Fibre), s.alone .unframe f = true → held s f f.seg →
    let h := myFrame s f
    exec .unframe s = .next ((((onTop s f).setHdr (myAsid s) f.seg f.frameOff { h with loc := 0 }).setUsed (myAsid s) f.seg (f.frameOff + h.head)).setFrame (me s f) f.seg f.frameOff)) ∧
  ((∀ (s : State) (f : Fibre) (k m : BitVec 12) (h j : BitVec 16), s.alone (.handle k m h j) f = true → held s f f.seg →
    let u := onTop s f
    exec (.handle k m h j) s = .next (
      if 960 < (myFrame s f).head + (myFrame s f).loc then faultAt u s f 0x0E7 0
      else match u.install (me s f) k m (BitVec.ofInt 32 (s.cur.packet.toNat + 16 * h.toInt)).toNat (BitVec.ofInt 32 (s.cur.packet.toNat + 16 * j.toInt)).toNat with
        | none => faultAt u s f 0x0E9 0
        | some v => v)) ∧
  (∀ (s : State) (f : Fibre), s.alone .unhandle f = true → held s f f.seg →
    let a := myAsid s
    let u := onTop s f
    let below := s.link a f.seg
    (myFrame s f).hb = true → atHand u (s.coreOf (me s f)) a below → (s.hframe a below).state = 0 → f.hchain.toNat = below →
    exec .unhandle s = .next (((u.cupboardTake (s.coreOf (me s f)) a below true).setHState a below 2).modFib (me s f) (fun x => { x with hchain := BitVec.ofNat 32 (s.hframe a below).outer }))) ∧
  ∀ (s : State) (f : Fibre) (a : BitVec 6), s.alone (.hret a) f = true → held s f f.seg →
    let u := onTop s f
    let below := s.link (myAsid s) f.seg
    (myFrame s f).hb = true → atHand u (s.coreOf (me s f)) (myAsid s) below →
    exec (.hret a) s = .next (((u.cupboardTake (s.coreOf (me s f)) (myAsid s) below true).fixed (me s f) 4 [.v 0 (f.reg a.toNat)]).closeHandler (me s f)))

/-- R186, R189, R195: an effect for which the search finds handler h, in a fibre with two free segments at hand and nothing to drain: the fibre stands at the clause with the argument, the tag and the continuation, in a fresh segment; two segments have left the heap. R195, R196, R126: an effect that finds no handler and whose root action is ABORT ends the fibre, counted with the tag of the launch's first abort. -/
def Obligations.effect_capture : Prop :=
  (∀ (s : State) (id : FibId) (e : Eff) (f : Fibre) (d : AsidDesc) (n1 n2 : Nat) (rest : List Nat) (h oc : Nat), s.fib id = some f → f.spare = none → f.out = [] → f.infl = [] →
    2 ≤ f.v.length → f.c.length = 16 → e.call = none →
    let a := s.asidOf id.launch
    s.asid a = some d → d.free = n1 :: n2 :: rest → (s.core (s.coreOf id)).fifo = [] → s.search a e.tag.toNat maxSegs f.hchain.toNat rootFrame = (some h, oc) →
    ∃ f', (s.perform id e).fib id = some f' ∧ f'.pc = BitVec.ofNat 32 ((s.hframe a h).hentry + 4) ∧ f'.code = (s.hframe a h).code ∧ f'.hchain = BitVec.ofNat 32 h ∧
      f'.reg 0 = e.arg ∧ f'.reg 1 = e.tag.setWidth 32 ∧ (∀ n, 2 ≤ n → f'.reg n = f.reg n) ∧ f'.seg = n2 ∧ f'.frameOff = 0x10 ∧ f'.wait = .none ∧ f'.p = f.p ∧ f'.fmode = f.fmode ∧ f'.fflags = f.fflags ∧
      f'.cap 0 = ⟨true, BitVec.ofNat 20 d.heapObj, 3, 3, BitVec.ofNat 48 (1024 * n1), BitVec.ofNat 48 (d.serial.toNat * 2 ^ 16 + 0x400)⟩ ∧
      (∃ d', (s.perform id e).asid a = some d' ∧ d'.free = rest)) ∧
  (∀ (s : State) (id : FibId) (e : Eff) (f : Fibre) (L : Launch), s.fib id = some f → s.launch id.launch = some L → e.call = none →
    e.tag.toNat ∉ [0x001, 0x002, 0x003, 0x004, 0x0D1, 0x0D2, 0x0F0, 0x0F1] →
    (s.search (s.asidOf id.launch) e.tag.toNat maxSegs f.hchain.toNat rootFrame).1 = none →
    (s.perform id e).fib id = none ∧ (∀ j, j ≠ id → (s.perform id e).fib j = s.fib j) ∧
      (s.perform id e).launch id.launch = some { L with aborted := L.aborted + 1, abortTag := if L.aborted = 0 then e.tag else L.abortTag })

/-- R190 to R193, R197, R381: RESUME, RESUMEX and DISCARD of a continuation that may be claimed complete: the record is claimed and RESUME links the resumed stack to the fibre. Where no handler stands on either side, a non-tail RESUME of a record of no RCALL leaves the fibre at the record's resume address, code and frame, with its full or partial registers and v0, and the bottom of the resumed stack returning to the successor in the fibre's frame. RESUMEX then raises its tag there; DISCARD gives the captured segments and the record back after an acquire. What bars the claim performs its tag at the instruction, in the order tag, kind, right M, liveness. R382, R187, R189: SPAWN with a code capability that passes its checks, nothing to drain and two free segments: the first becomes the record of a LIVE continuation with the ASID's next serial that starts at the target, whose stack is the second; its capability goes to c[d] with latency 4. -/
def Obligations.continuations : Prop :=
  ((∀ (s : State) (f : Fibre) (a : BitVec 4) (b : BitVec 6) (t : Bool), s.alone (.resume a b t) f = true →
    let k := f.cap a.toNat
    let r := k.base.toNat / 1024
    let u := claimed s.gone (myAsid s) k 2
    (t = true → (myFrame s f).hb = true) → claimable s (myAsid s) k → u.recBad (myAsid s) r = false →
    exec (.resume a b t) s = .next (u.linkResume (me s f) r t (f.reg b.toNat) s.cur.next)) ∧
  (∀ (s : State) (f : Fibre) (a : BitVec 4) (b : BitVec 6) (p q : Nat), s.alone (.resume a b false) f = true →
    let A := myAsid s
    let r := (f.cap a.toNat).base.toNat / 1024
    let u := claimed s.gone A (f.cap a.toNat) 2
    let bot := u.segNum A r 0x34 4
    claimable s A (f.cap a.toNat) → u.recBad A r = false → apart u A r bot p q → f.hchain = 0xFFFFFFFF → u.segNum A r 0x3C 4 = 0xFFFFFFFF → u.segNum A r 0x18 4 % 0x1000 ≠ 4 →
    ∃ t f', exec (.resume a b false) s = .next t ∧ fibreChange s t (me s f) f' ∧ f'.pc = BitVec.ofNat 32 (u.segNum A r 0x1C 4) ∧ f'.code = u.segCap A r 0x20 ∧
      f'.seg = u.segNum A r 0x30 4 ∧ f'.frameOff = u.segNum A r 0x40 2 ∧
      (∀ n, n < f.v.length → u.segNum A r 0x18 4 / 0x1000 % 2 = 1 → f'.reg n = BitVec.ofNat 32 (u.segNum A r (0x170 + 4 * n) 4)) ∧
      (u.segNum A r 0x18 4 / 0x1000 % 2 = 0 → f.out = [] → f.infl = [] → 0 < f.v.length → f'.reg 0 = f.reg b.toNat ∧ ∀ n, 1 ≤ n → n < 32 → f'.reg n = f.reg n) ∧
      t.link A bot = f.seg % 2 ^ 64 ∧ t.segNum A bot 0x10 4 = s.cur.next.toNat ∧ t.segNum A bot 0x14 2 = f.frameOff % 65536) ∧
  (∀ (s : State) (f : Fibre) (t : Bool) (a : BitVec 4) (b c : BitVec 6), s.alone (.resumex t a b c) f = true →
    let k := f.cap a.toNat
    let r := k.base.toNat / 1024
    let u := claimed s.gone (myAsid s) k 2
    let tag : BitVec 12 := BitVec.ofNat 12 (f.reg c.toNat).toNat
    (t = true → (myFrame s f).hb = true) → tag ≠ 0 → claimable s (myAsid s) k → u.recBad (myAsid s) r = false →
    exec (.resumex t a b c) s = .next ((u.linkResume (me s f) r t (f.reg b.toNat) s.cur.next).raiseThere (me s f) tag (f.reg b.toNat))) ∧
  (∀ (s : State) (f : Fibre) (a : BitVec 4), s.alone (.discard a) f = true →
    let k := f.cap a.toNat
    let r := k.base.toNat / 1024
    let u := claimed s.gone (myAsid s) k 3
    claimable s (myAsid s) k →
    ∃ w, exec (.discard a) s = .next w ∧ w = (u.captured (myAsid s) r ++ [r]).foldl (fun v n => v.giveSeg (myAsid s) n) (u.acquire (s.coreOf (me s f))) ∧ fibreChange s w (me s f) (f.passes s) ∧
      ∀ d, s.asid (myAsid s) = some d → ∃ d', w.asid (myAsid s) = some d' ∧ ∀ n, n ∈ d'.free ↔ n ∈ d.free ∨ n = r ∨ n ∈ u.captured (myAsid s) r) ∧
  ∀ (s : State) (f : Fibre) (i : Instr) (k : Cap), (∃ a b, i = .resume a b false ∧ k = f.cap a.toNat) ∨ (∃ a, i = .discard a ∧ k = f.cap a.toNat) ∨
      (∃ a b c, i = .resumex false a b c ∧ k = f.cap a.toNat ∧ BitVec.ofNat 12 (f.reg c.toNat).toNat ≠ (0 : BitVec 12)) → s.alone i f = true → ¬ claimable s (myAsid s) k →
    exec i s = .next (faultAt s.gone s f (if k.tag = false then 0x0C3 else if k.kind ≠ 3 then 0x0C4 else if k.rights.getLsbD 1 = false then 0x0C2 else 0x0C5) 0)) ∧
  (∀ (s : State) (f : Fibre) (d a : BitVec 4) (b c : BitVec 6) (x : AsidDesc) (r n p q : Nat) (rest : List Nat), s.alone (.spawn d a b c) f = true →
    let A := myAsid s
    let k := f.cap a.toNat
    permits k [1] [5] (offsetOf f b 0) 16 16 → f.mark = none → (s.core (myCore s f)).fifo = [] → f.spare = none → s.asid A = some x → x.free = r :: n :: rest → apart s A r n p q →
    ∃ t, exec (.spawn d a b c) s = .next t ∧
      fibreChange s t (me s f) (f.results s 4 [.c d.toNat ⟨true, BitVec.ofNat 20 x.heapObj, 3, 3, BitVec.ofNat 48 (1024 * r), BitVec.ofNat 48 (x.serial.toNat * 2 ^ 16 + 0x400)⟩] 0) ∧
      t.isRecord A r = true ∧ recState (t.recWord A r) = 1 ∧ recSerial (t.recWord A r) = x.serial.toNat ∧
      t.segNum A r 0x1C 4 = (k.base.toNat + (f.reg b.toNat).toNat + 4) % 2 ^ 32 ∧ t.segNum A r 0x30 4 = n % 2 ^ 32 ∧ t.segNum A r 0x170 4 = (f.reg c.toNat).toNat ∧
      (∃ x', t.asid A = some x' ∧ x'.free = rest))

/-- R206, R202, R357, R365: the checks of an access in their order: the first that fails performs its effect at the instruction, with the low 32 bits of the effective offset as argument, and nothing is read or written. -/
def Obligations.access_checks : Prop :=
  ∀ (s : State) (i : Instr) (f : Fibre) (c : BitVec 4) (x : BitVec 6) (disp : Int) (n : Nat) (ks rs : List Nat), accessForm i = some (c, x, disp, n, ks, rs) → s.alone i f = true →
    let k := f.cap c.toNat
    let off := offsetOf f x disp
    ¬ permits k ks rs off n n → exec i s = .next (faultAt s.gone s f (refusalTag k ks rs off n) (BitVec.ofInt 32 off))

/-- R225, R226, R357, R358: a load through a kind-local capability: the bytes of the scratchpad, or of the gang window, are pending in its registers; nothing else changes. R203, R225, R226, R357, R358: a store through a kind-local capability: its bytes of the scratchpad, with their granules' tags cleared, and nothing else. -/
def Obligations.local_accesses : Prop :=
  (∀ (s : State) (i : Instr) (c : BitVec 4) (x : BitVec 6) (disp : Int) (n : Nat) (ks rs : List Nat) (val : List Byte → List WB),
    accessForm i = some (c, x, disp, n, ks, rs) → loadForm i = some val → s.lone i = true → intact s →
    (∀ f ∈ s.curFibs s.exeOf, (f.cap c.toNat).kind = 2 ∧ permits (f.cap c.toNat) ks rs (offsetOf f x disp) n n) →
    ∃ t, exec i s = .next t ∧ bundleChange (s.withWritebacks s.exeOf) t (fun f =>
      let p := localPlace s f (f.cap c.toNat) (offsetOf f x disp)
      if f.guard s.cur.ctl then f.pends s (val ((List.range n).map (fun k => (s.scratch s.cur.launch p.1).get (p.2 + k)))) 0 else f.passes s)) ∧
  (∀ (s : State) (i : Instr) (f : Fibre) (c : BitVec 4) (x t : BitVec 6) (disp : Int) (n : Nat) (ks rs : List Nat),
    accessForm i = some (c, x, disp, n, ks, rs) → storeForm i = some (t, n) → s.alone i f = true → intact s →
    let k := f.cap c.toNat
    let p := localPlace s f k (offsetOf f x disp)
    k.kind = 2 → permits k ks rs (offsetOf f x disp) n n → scratchThere s p.1 →
    ∃ u, exec i s = .next u ∧ fibreChange s u (me s f) (f.passes s) ∧ scratchWritten s u s.cur.launch p.1 p.2 n (storedByte f t) ∧
      besides u s.cur.launch p.1 = besides s s.cur.launch p.1)

/-- R211, R219, R222: a load of device memory: the bytes of a line that answers it in the L1, or, on a miss, with its translation at hand, those of memory, whose sector enters the L1. R359: a prefetch raises no effect: one whose checks fail, or that is not of a data object, is discarded; one of a sector of device memory fills it into the L1. -/
def Obligations.device_loads : Prop :=
  (∀ (s : State) (i : Instr) (f : Fibre) (c : BitVec 4) (x : BitVec 6) (disp : Int) (n : Nat) (ks rs : List Nat) (val : List Byte → List WB),
    accessForm i = some (c, x, disp, n, ks, rs) → loadForm i = some val → s.alone i f = true → intact s →
    let k := f.cap c.toNat
    let o := objectOffset k (offsetOf f x disp)
    let core := myCore s f
    k.kind ≠ 2 → permits k ks rs (offsetOf f x disp) n n → s.isHeap (me s f) k = false →
    (∀ bs, s.l1Hit core (myAsid s) k.obj.toNat o n = some bs → s.storeAheadHere core (myAsid s) k.obj.toNat o n = false → exec i s = .next ((s.gone.l1Touch core (myAsid s) k.obj.toNat o).scored (me s f) (val bs))) ∧
    (∀ p nt, (s.core core).line (myAsid s) k.obj.toNat (o / 256) = none → s.gone.atPort (me s f) k o n false = (s.gone, .ok (.pa p nt)) → p % 64 = o % 64 → free s p n →
      ((s.core core).l1.filter (fun l => l.line % 64 == o / 256 % 64)).length < 8 →
      exec i s = .next ((s.gone.l1Fill core (myAsid s) k.obj.toNat o p).scored (me s f) (val (s.rd (s.keyOf (myAsid s)) p n))))) ∧
  ((∀ (s : State) (f : Fibre) (t : BitVec 2) (c : BitVec 4) (x : BitVec 6) (i : BitVec 8), s.alone (.pref t c x i) f = true → ¬ permits (f.cap c.toNat) [0] [7] (offsetOf f x (i.toInt * 64)) 1 1 →
    ∃ u, exec (.pref t c x i) s = .next u ∧ bundleChange s u (fun f => f.passes s)) ∧
  ∀ (s : State) (f : Fibre) (c : BitVec 4) (x : BitVec 6) (i : BitVec 8) (p : Nat) (nt : Bool), s.alone (.pref 0 c x i) f = true →
    let k := f.cap c.toNat
    let o := objectOffset k (offsetOf f x (i.toInt * 64))
    permits k [0] [7] (offsetOf f x (i.toInt * 64)) 1 1 → s.isHeap (me s f) k = false →
    s.xlatNow (s.trayOk s.cur.launch) ⟨myAsid s, k.obj.toNat, o, 1, false, false⟩ = .pa p nt → free s p 1 →
    exec (.pref 0 c x i) s = .next (s.gone.l1Fill (myCore s f) (myAsid s) k.obj.toNat o p))

/-- R211, R220, R221: a store to device memory, to a writable line or with its translation at hand, is held in the L1: its bytes and their mask bits in the line, and the line in the dirty FIFO; memory itself does not change where neither the set nor the FIFO is full. -/
def Obligations.device_stores : Prop :=
  ∀ (s : State) (i : Instr) (f : Fibre) (c : BitVec 4) (x t : BitVec 6) (disp : Int) (n : Nat) (ks rs : List Nat),
    accessForm i = some (c, x, disp, n, ks, rs) → storeForm i = some (t, n) → s.alone i f = true → intact s →
    let k := f.cap c.toNat
    let o := objectOffset k (offsetOf f x disp)
    let core := myCore s f
    let a := myAsid s
    k.kind ≠ 2 → permits k ks rs (offsetOf f x disp) n n → s.isHeap (me s f) k = false →
    (s.l1Writable core a k.obj.toNat o = true ∨ ∃ p nt, s.gone.atPort (me s f) k o n true = (s.gone, .ok (.pa p nt))) →
    s.cores.any (fun x => x.id == core) = true → ((s.core core).l1.filter (fun l => l.line % 64 == o / 256 % 64)).length < 8 → (s.core core).fifo.length < 256 →
    ∃ u l, exec i s = .next u ∧ fibreChange s u (me s f) (f.passes s) ∧ u.mem = s.mem ∧ u.wgs.map (·.scratch) = s.wgs.map (·.scratch) ∧
      (u.core core).line a k.obj.toNat (o / 256) = some l ∧ l.writable = true ∧ (a, k.obj.toNat, o / 256) ∈ (u.core core).fifo ∧
      ∀ j, j < n → l.byte (o % 256 + j) = storedByte f t j ∧ l.mask.getLsbD (o % 256 + j) = true

/-- R178, R211: a load, store or atomic on the frame heap, whose segment is in the core's Cupboard: at its address at once, past the L1. R32, R34, R86: a load or store of a peer or host object: an access whose answer has come takes it up: a load its bytes; a store of a peer object goes on. A store to host memory that crosses no multiple of 1,024 is posted, while a tag and room are at hand (R85). That a fibre waits only at a load, an atomic or a release is the model's reading (log entry 31). -/
def Obligations.heap_and_remote_accesses : Prop :=
  (∀ (s u : State) (i : Instr) (f : Fibre) (c : BitVec 4) (x : BitVec 6) (disp : Int) (n p : Nat) (ks rs : List Nat), accessForm i = some (c, x, disp, n, ks, rs) → s.alone i f = true →
    let k := f.cap c.toNat
    let o := objectOffset k (offsetOf f x disp)
    permits k ks rs (offsetOf f x disp) n n → s.isHeap (me s f) k = true →
    (∀ val, loadForm i = some val → s.gone.heapAt (me s f) k o n false = (u, .ok p) → exec i s = .next (u.scored (me s f) (val (u.rd (u.keyOf (myAsid s)) p n)))) ∧
    (∀ t, storeForm i = some (t, n) → s.gone.heapAt (me s f) k o n true = (u, .ok p) →
      exec i s = .next (u.homeStore (u.keyOf (myAsid s)) p ((List.range n).map (storedByte f t)))) ∧
    (∀ op ws, atomicForm i = some (op, ws) → s.gone.heapAt (me s f) k o n true = (u, .ok p) →
      let old := littleEndian (u.rd (u.keyOf (myAsid s)) p n)
      exec i s = .next (withResult s (u.homeStore (u.keyOf (myAsid s)) p ((List.range n).map (byteOf (op f old)))) f (ws old)))) ∧
  (∀ (s : State) (i : Instr) (f : Fibre) (c : BitVec 4) (x : BitVec 6) (disp : Int) (n : Nat) (ks rs : List Nat), accessForm i = some (c, x, disp, n, ks, rs) → s.alone i f = true →
    let k := f.cap c.toNat
    let o := objectOffset k (offsetOf f x disp)
    k.kind ≠ 2 → permits k ks rs (offsetOf f x disp) n n → s.isHeap (me s f) k = false →
    (∀ val bs link a, loadForm i = some val → s.l1Hit (myCore s f) (myAsid s) k.obj.toNat o n = none → s.gone.atPort (me s f) k o n false = (s.gone, .ok (.host link a)) → f.resp = some bs → n ≤ bs.length →
      exec i s = .next (s.gone.scored (me s f) (val (bs.take n)))) ∧
    (∀ val bs pos pasid pobj, loadForm i = some val → s.l1Hit (myCore s f) (myAsid s) k.obj.toNat o n = none → s.gone.atPort (me s f) k o n false = (s.gone, .ok (.peer pos pasid pobj false)) → f.resp = some bs →
      exec i s = .next (s.gone.scored (me s f) (val (bs.take n)))) ∧
    (∀ t bs pos pasid pobj rc, storeForm i = some (t, n) → s.l1Writable (myCore s f) (myAsid s) k.obj.toNat o = false → s.gone.atPort (me s f) k o n true = (s.gone, .ok (.peer pos pasid pobj rc)) → f.resp = some bs →
      exec i s = .next s.gone) ∧
    (∀ t u m link a, storeForm i = some (t, n) → s.l1Writable (myCore s f) (myAsid s) k.obj.toNat o = false → s.gone.atPort (me s f) k o n true = (s.gone, .ok (.host link a)) → a % 1024 + n ≤ 1024 →
      s.gone.hostRequest link (hostPacket 0x03#5 a n ((List.range n).map (storedByte f t))) (.store (me s f) (BitVec.ofInt 32 (offsetOf f x disp))) (myCore s f) n
        ⟨myAsid s, k.obj.toNat, some (o / 2097152), true⟩ = some (u, m) →
      exec i s = .next u))

/-- R236, R365, R366, R367: an atomic through a kind-local capability: the old number to its registers, the new one to the scratchpad. R222, R235, R236, R365, R366, R367: an atomic on device memory acts at the home slice, after the write-back of the core's own bytes of the line: the old number to its registers, the new one to memory, and the core's copy of the sector is dropped. The order of one bundle's atomics is left open (log entry 2): the statement is about one fibre. -/
def Obligations.atomics : Prop :=
  (∀ (s : State) (i : Instr) (f : Fibre) (c : BitVec 4) (x : BitVec 6) (disp : Int) (n : Nat) (ks rs : List Nat) (op : Fibre → Nat → Nat) (ws : Nat → List WB),
    accessForm i = some (c, x, disp, n, ks, rs) → atomicForm i = some (op, ws) → s.alone i f = true → intact s →
    let k := f.cap c.toNat
    let p := localPlace s f k (offsetOf f x disp)
    let old := littleEndian ((List.range n).map (fun j => (s.scratch s.cur.launch p.1).get (p.2 + j)))
    k.kind = 2 → permits k ks rs (offsetOf f x disp) n n → scratchThere s p.1 →
    ∃ u, exec i s = .next u ∧ fibreChange s u (me s f) (if ws old = [] then f.passes s else f.pends s (ws old) 0) ∧
      scratchWritten s u s.cur.launch p.1 p.2 n (byteOf (op f old)) ∧
      besides u s.cur.launch p.1 = besides (if ws old = [] then s else s.withWritebacks [f.fid]) s.cur.launch p.1) ∧
  (∀ (s : State) (i : Instr) (f : Fibre) (c : BitVec 4) (x : BitVec 6) (disp : Int) (n p : Nat) (nt : Bool) (ks rs : List Nat) (op : Fibre → Nat → Nat) (ws : Nat → List WB),
    accessForm i = some (c, x, disp, n, ks, rs) → atomicForm i = some (op, ws) → s.alone i f = true →
    let k := f.cap c.toNat
    let o := objectOffset k (offsetOf f x disp)
    let a := myAsid s
    k.kind ≠ 2 → permits k ks rs (offsetOf f x disp) n n → s.isHeap (me s f) k = false → s.gone.atPort (me s f) k o n true = (s.gone, .ok (.pa p nt)) → free s p n →
    let u := s.gone.l1Sync (myCore s f) a k.obj.toNat o
    let old := littleEndian (u.rd (u.keyOf a) p n)
    exec i s = .next (withResult s ((u.homeStore (u.keyOf a) p ((List.range n).map (byteOf (op f old)))).l1Drop (u.coreOf (me s f)) a k.obj.toNat o) f (ws old)))

/-- R222, R234, R368: LDA reads its word at the home slice, then acquires at its scope; STL releases at its scope, then stores its word at the home slice and drops the core's copy of the sector. -/
def Obligations.acquiring_and_releasing_accesses : Prop :=
  (∀ (s : State) (f : Fibre) (d : BitVec 6) (c : BitVec 4) (x : BitVec 6) (e : BitVec 2) (p : Nat) (nt : Bool), s.alone (.lda d c x e) f = true →
    let k := f.cap c.toNat
    let off := offsetOf f x 0
    let o := objectOffset k off
    let a := myAsid s
    k.kind ≠ 2 → permits k [0, 1, 2, 4] [7] off 4 4 → s.isHeap (me s f) k = false → s.gone.atPort (me s f) k o 4 false = (s.gone, .ok (.pa p nt)) → free s p 4 →
    let u := ((s.gone.l1Sync (myCore s f) a k.obj.toNat o).homeTouch p false).l1Drop (myCore s f) a k.obj.toNat o
    let v := u.scored (me s f) [.v d.toNat (BitVec.ofNat 32 (littleEndian (u.rd (u.keyOf a) p 4)))]
    exec (.lda d c x e) s = .next (v.acquire (v.coreOf (me s f)))) ∧
  (∀ (s : State) (f : Fibre) (d : BitVec 6) (c : BitVec 4) (x : BitVec 6) (e : BitVec 2), s.alone (.lda d c x e) f = true →
    let k := f.cap c.toNat
    let p := localPlace s f k (offsetOf f x 0)
    let v := s.gone.scored (me s f) [.v d.toNat (BitVec.ofNat 32 (littleEndian ((List.range 4).map (fun j => (s.scratch s.cur.launch p.1).get (p.2 + j)))))]
    k.kind = 2 → intact s → permits k [0, 1, 2, 4] [7] (offsetOf f x 0) 4 4 → exec (.lda d c x e) s = .next (v.acquire (v.coreOf (me s f)))) ∧
  ∀ (s v : State) (f : Fibre) (c : BitVec 4) (x r : BitVec 6) (e : BitVec 2) (p : Nat) (nt : Bool), s.alone (.stl c x r e) f = true →
    let k := f.cap c.toNat
    let off := offsetOf f x 0
    let o := objectOffset k off
    let a := myAsid s
    s.gone.releaseFor (me s f) (e.toNat + 2) = (v, .ok ()) → k.kind ≠ 2 → permits k [0, 2, 4] [6] off 4 4 → v.isHeap (me s f) k = false →
    v.atPort (me s f) k o 4 true = (v, .ok (.pa p nt)) → free v p 4 → v.asidOf s.cur.launch = a →
    let u := v.l1Sync (v.coreOf (me s f)) a k.obj.toNat o
    exec (.stl c x r e) s = .next ((u.homeStore (u.keyOf a) p ((List.range 4).map (byteOf (f.reg r.toNat).toNat))).l1Drop (u.coreOf (me s f)) a k.obj.toNat o)

/-- R89, R374, R4: a write at the home slices, away from TAIL words: its bytes stand in memory with their granules' tags cleared, no other byte changes, and every fibre that waits on a cell that the write changes waits no longer. R113: a write of all eight bytes of the TAIL word of a bound queue writes the larger of the old and the new value; the bytes of a partial write are discarded. -/
def Obligations.home_writes : Prop :=
  (∀ (s : State) (key a : Nat) (bs : List Byte), s.mem.wf = true → s.tailWords = [] →
    let t := s.homeStore key a bs
    t.mem.wf = true ∧ (∀ k, k < bs.length → t.mem.get (a + k) = bs.getD k 0) ∧ (∀ x, x < a ∨ a + bs.length ≤ x → t.mem.get x = s.mem.get x) ∧
      (∀ x, t.mem.tag x = (s.mem.tag x && !decide (∃ k, k < bs.length ∧ (a + k) / 16 = x / 16))) ∧
      (∀ id f pa k b, s.fib id = some f → f.wait = .cell pa b → k < bs.length → pa ≤ a + k → a + k < pa + 8 → b = true ∨ s.mem.get (a + k) ≠ bs.getD k 0 →
        t.fib id = some { f with wait := .none }) ∧
      ((∀ x ∈ s.allFibres, ∀ pa b, x.2.wait ≠ .cell pa b) → ∀ id, t.fib id = s.fib id)) ∧
  (∀ (s : State) (key w a : Nat) (bs : List Byte), s.mem.wf = true → s.tailWords = [w] →
    let t := s.homeStore key a bs
    (a ≤ w → w + 8 ≤ a + bs.length →
      littleEndian ((List.range 8).map (fun k => t.mem.get (w + k))) =
        max (littleEndian ((List.range 8).map (fun k => bs.getD (w - a + k) 0))) (littleEndian ((List.range 8).map (fun k => s.mem.get (w + k))))) ∧
    (w < a ∨ a + bs.length < w + 8 → ∀ k, k < 8 → t.mem.get (w + k) = s.mem.get (w + k)) ∧
    (∀ k, k < bs.length → a + k < w ∨ w + 8 ≤ a + k → t.mem.get (a + k) = bs.getD k 0))

/-- R227, R228, R229, R230, R233, R240: FENCE, REL, ACQ, PHASE and IFENCE: FENCE only advances, since every earlier access of the fibre has been performed when it issues (log entry 31); a release that must wait holds the fibre; one that has drained goes on; a store lost since is reported by 0x0D0; an acquire clears the valid bits of the core's L1 but of RC lines; IFENCE empties the instruction cache after a release at die scope. R213, R398: OINV through an object-table capability with right W drops the cached translations of one object, or, for all ones, of every object, of the address space that it names, and completes once no request that was translated before it is unanswered, holding the fibre until then; without tag, kind or right it performs 0x0C3, 0x0C4 or 0x0C2. -/
def Obligations.releases_and_acquires : Prop :=
  (∀ (s : State) (f : Fibre),
    (∀ c, s.alone (.rel c) f = true → exec (.rel c) s = .next (released s f c.toNat (fun u => u))) ∧
    (∀ c, s.alone (.acq c) f = true → exec (.acq c) s = .next (if c = 0 then s.gone else s.gone.acquire (myCore s f))) ∧
    (∀ c, s.alone (.phase c) f = true → exec (.phase c) s = .next (released s f c.toNat (fun u => if c = 0 then u else u.acquire (u.coreOf (me s f))))) ∧
    (s.alone .ifence f = true → exec .ifence s = .next (released s f 2 (fun u => u.modCore (u.coreOf (me s f)) (fun c => { c with icache := [] })))) ∧
    (s.lone .fence = true → ∃ t, exec .fence s = .next t ∧ bundleChange s t (fun f => f.passes s)) ∧
    ∀ (u : State) (n : Nat), ((u.acquire n).core n).l1 = (u.core n).l1.map (fun l => if l.rc then l else { l with valid := 0 })) ∧
  (∀ (s : State) (f : Fibre) (a : BitVec 4) (b : BitVec 6), s.alone (.oinv a b) f = true →
    let k := f.cap a.toNat
    let x := f.reg b.toNat
    let obj := if x = 0xFFFFFFFF then none else some (x.toNat % 2 ^ 20)
    let m := f.mark.getD s.fresh
    (k.tag = true → k.kind = 6 → k.rights.getLsbD 6 = true → s.translated (k.obj.toNat % 4096) obj m = true →
      exec (.oinv a b) s = .next (((s.gone.oinv (k.obj.toNat % 4096) obj).modFib (me s f) (fun y => { y with mark := some m })).hold (me s f) .unacked)) ∧
    (k.tag = true → k.kind = 6 → k.rights.getLsbD 6 = true → s.translated (k.obj.toNat % 4096) obj m = false →
      ∃ t, exec (.oinv a b) s = .next t ∧
        t.objCache = s.objCache.filter (fun c => !(c.asid == k.obj.toNat % 4096 && (x == 0xFFFFFFFF || c.obj == x.toNat % 2 ^ 20))) ∧
        t.regCache = s.regCache.filter (fun c => !(c.asid == k.obj.toNat % 4096 && (x == 0xFFFFFFFF || c.obj == x.toNat % 2 ^ 20))) ∧
        fibreChange s t (me s f) { f.passes s with mark := none } ∧ t.mem = s.mem) ∧
    (k.tag = false ∨ k.kind ≠ 6 ∨ k.rights.getLsbD 6 = false →
      exec (.oinv a b) s = .next (faultAt s.gone s f (if k.tag = false then 0x0C3 else if k.kind ≠ 6 then 0x0C4 else 0x0C2) 0)))

/-- R371, R372: a barrier that the launch does not declare performs 0x0E7, one that has lost a member 0x0D0; BARA releases at the level's scope and arrives, BAR arrives and waits, BARW with no arrival outstanding only acquires; then what can complete completes. R372: a round within the package completes when every live member has arrived in it: a member that waits for it goes on, with its arrival taken up, at the address behind its barrier; no arrival in the round is outstanding any more. While some live member has not arrived, nothing changes. An undeclared barrier faults where it executes: the model's reading (log entry 21). -/
def Obligations.barriers : Prop :=
  (∀ (s : State) (f : Fibre) (l : BitVec 4) (n : BitVec 8),
    (∀ i, i = .bar l n ∨ i = .bara l n ∨ i = .barw l n → s.alone i f = true → (∀ e, ¬ declared s l n e) → exec i s = .next ((faultAt s.gone s f 0x0E7 0).settle s.cur.launch s.cur.wgid)) ∧
    (∀ i e, i = .bar l n ∨ i = .bara l n ∨ i = .barw l n → s.alone i f = true → declared s l n e → s.barFailed l.toNat n.toNat = true →
      exec i s = .next ((faultAt s.gone s f 0x0D0 0).settle s.cur.launch s.cur.wgid)) ∧
    ∀ e, declared s l n e → s.barFailed l.toNat n.toNat = false → f.arr.find? (fun a => a.level == l.toNat && a.num == n.toNat) = none → f.lost = 0 → f.mark = none →
      (s.gone.release (myCore s f) e.scope s.fresh).2 = true →
      let u := (s.gone.release (myCore s f) e.scope s.fresh).1
      (s.alone (.bara l n) f = true → exec (.bara l n) s = .next ((u.modFib (me s f) (fun x => { x with arr := x.arr ++ [⟨l.toNat, n.toNat, false⟩] })).settle s.cur.launch s.cur.wgid)) ∧
      (s.alone (.bar l n) f = true → exec (.bar l n) s = .next ((u.modFib (me s f) (fun x =>
        { ({ x with arr := x.arr ++ [⟨l.toNat, n.toNat, false⟩] } : Fibre).settleFixed with wait := .barrier l.toNat n.toNat (some s.cur.next), pc := s.cur.first })).settle s.cur.launch s.cur.wgid)) ∧
      (s.alone (.barw l n) f = true → exec (.barw l n) s = .next ((s.gone.acquireAt (myCore s f) e.scope).settle s.cur.launch s.cur.wgid))) ∧
  (∀ (s : State) (id : FibId) (L : Launch) (e : Level) (lvl num : Nat), s.launch id.launch = some L → L.hier.find? (fun x => x.domain == lvl) = some e → lvl < 7 →
    let ms := s.barMembers L lvl id
    ((∃ x ∈ ms, x.2.pendingAt lvl num = false) → s.barrierCheck id lvl num = s) ∧
    ((∀ x ∈ ms, x.2.pendingAt lvl num = true) → (ms.map (·.1)).Nodup → ∀ x ∈ ms, s.fib x.1 = some x.2 →
      ∃ f', (s.barrierCheck id lvl num).fib x.1 = some f' ∧ f'.pendingAt lvl num = false ∧ f'.v = x.2.v ∧
        (∀ next, x.2.wait = .barrier lvl num next → f'.wait = .none ∧ f'.pc = next.getD x.2.pc) ∧ ((∀ next, x.2.wait ≠ .barrier lvl num next) → f'.wait = x.2.wait ∧ f'.pc = x.2.pc)))

/-- R373, R375: WAITM on a cell of device memory goes on after an acquire when its condition holds, else performs 0x003 and waits for the cell; NOTIFY releases at system scope, then stores eight bytes at the home slice. R157, R376, R377, R394: WAITT and TOKQ read a token that is not pending, with latency 4; TOKQ reads 0 while it is pending, WAITT then performs 0x002 and waits for it; SLEEP waits 16 nanoseconds for each unit of its immediate. -/
def Obligations.waits : Prop :=
  ((∀ (s : State) (f : Fibre) (k : BitVec 2) (c : BitVec 4) (x r : BitVec 6) (e : BitVec 2) (p : Nat) (nt : Bool), s.alone (.waitm k c x r e) f = true →
    let y := f.cap c.toNat
    let off := offsetOf f x 0
    let o := objectOffset y off
    permits y [0, 4] [4] off 8 8 → s.isHeap (me s f) y = false → s.gone.atPort (me s f) y o 8 false = (s.gone, .ok (.pa p nt)) → free s p 8 →
    let u := s.gone.l1Sync (myCore s f) (myAsid s) y.obj.toNat o
    let v := littleEndian (u.rd (u.keyOf (s.asidOf s.cur.launch)) p 8)
    (cellHolds k v (pairOf f r.toNat) → exec (.waitm k c x r e) s = .next (u.acquire (u.coreOf (me s f)))) ∧
    (¬ cellHolds k v (pairOf f r.toNat) → exec (.waitm k c x r e) s = .next (u.raise (me s f) ⟨0x003, BitVec.ofInt 32 off, true, s.cur.first, none, .cell p nt, none⟩))) ∧
  ∀ (s : State) (f : Fibre) (t : BitVec 6) (c : BitVec 4) (x : BitVec 6) (i : BitVec 8) (p : Nat) (nt : Bool) (v : State), s.alone (.notify t c x i) f = true →
    let y := f.cap c.toNat
    let off := offsetOf f x (i.toInt * 8)
    let o := objectOffset y off
    permits y [0, 4] [4, 6] off 8 8 → s.isHeap (me s f) y = false → s.gone.atPort (me s f) y o 8 true = (s.gone, .ok (.pa p nt)) → free s p 8 →
    (s.gone.l1Sync (myCore s f) (myAsid s) y.obj.toNat o).releaseFor (me s f) 5 = (v, .ok ()) →
    exec (.notify t c x i) s = .next ((v.homeStore (v.keyOf (myAsid s)) p ((List.range 8).map (byteOf (pairOf f t.toNat)))).l1Drop (v.coreOf (me s f)) (myAsid s) y.obj.toNat o)) ∧
  ((∀ (s : State) (d : BitVec 6) (a : BitVec 5), s.lone (.waitt d a) = true → (group s a).pending = false →
    ∃ t, exec (.waitt d a) s = .next t ∧ bundleChange s t (fun f => if f.guard s.cur.ctl then f.results s 4 [.v d.toNat (group s a).val] 0 else f.passes s)) ∧
  (∀ (s : State) (f : Fibre) (d : BitVec 6) (a : BitVec 5), s.alone (.waitt d a) f = true → (group s a).pending = true →
    exec (.waitt d a) s = .next (s.gone.raise (me s f) ⟨0x002, a.setWidth 32, true, s.cur.first, none, .token a.toNat, none⟩)) ∧
  (∀ (s : State) (d : BitVec 6) (a : BitVec 5), s.lone (.tokq d a) = true →
    ∃ t, exec (.tokq d a) s = .next t ∧ bundleChange s t (fun f =>
      if f.guard s.cur.ctl then f.results s 4 [.v d.toNat (if (group s a).pending = true ∨ (group s a).setting s.clock.toNat = true then 0 else (group s a).val)] 0 else f.passes s)) ∧
  ∀ (s : State) (i : BitVec 12), s.lone (.sleep i) = true →
    ∃ t, exec (.sleep i) s = .next t ∧ bundleChange s t (fun f => if f.guard s.cur.ctl ∧ i ≠ 0 then { (f.passes s).settleFixed with wait := .sleep (s.ticks + 16 * i.toNat) } else f.passes s))

/-- R153, R293, R395: GETS reads every system register of the table, a 64-bit one into a pair; SETS writes %cmask, %fmode and %fflags, whose unassigned bits stay zero. R159, R396: GETG reads a group register; of the executing fibres that SETG writes one with in a cycle, the value of the lowest-numbered stays, and no other group register changes. -/
def Obligations.system_and_group_registers : Prop :=
  ((∀ (s : State) (L : Launch) (d : BitVec 6) (n : BitVec 12), s.lone (.gets d n) = true → s.launch s.cur.launch = some L →
    ∃ t, exec (.gets d n) s = .next t ∧ bundleChange s t (fun f =>
      let x := (systemValue s L f n.toNat).getD 0
      if f.guard s.cur.ctl then f.results s 4 (if n = 0x010 ∨ n = 0x030 ∨ n = 0x031 then [.v d.toNat (BitVec.ofNat 32 x), .v (d.toNat + 1) (BitVec.ofNat 32 (x / 2 ^ 32))] else [.v d.toNat (BitVec.ofNat 32 x)]) 0
      else f.passes s)) ∧
  ∀ (s : State) (L : Launch) (d : BitVec 6) (n : BitVec 12), s.lone (.sets d n) = true → s.launch s.cur.launch = some L →
    ∃ t, exec (.sets d n) s = .next t ∧ bundleChange s t (fun f =>
      if f.guard s.cur.ctl then
        (if n = 0x010 then { f.passes s with cmask := BitVec.ofNat 64 (if L.crew = 64 then pairOf f d.toNat else (f.reg d.toNat).toNat) }
        else if n = 0x020 then { f.passes s with fmode := f.reg d.toNat &&& 0xE07 }
        else { f.passes s with fflags := f.reg d.toNat &&& 0x1FF })
      else f.passes s)) ∧
  ((∀ (s : State) (d : BitVec 6) (a : BitVec 5), s.lone (.getg d a) = true →
    ∃ t, exec (.getg d a) s = .next t ∧ bundleChange s t (fun f => if f.guard s.cur.ctl then f.results s 4 [.v d.toNat (group s a).val] 0 else f.passes s)) ∧
  ∀ (s : State) (d : BitVec 5) (a : BitVec 6) (w : Wg) (n : Nat) (f : Fibre), s.lone (.setg d a) = true → s.wg s.cur.launch s.cur.wgid = some w → d.toNat < w.g.length →
    (group s d).setAt = none → n ∈ s.exeOf → (∀ m ∈ s.exeOf, n ≤ m) → s.fib (s.curId n) = some f →
    ∃ t, exec (.setg d a) s = .next t ∧ group t d = ⟨f.reg a.toNat, (group s d).pending, some (s.clock.toNat, n), false⟩ ∧ (∀ e, e ≠ d → group t e = group s e) ∧
      (∀ id g, s.inBundle id → s.fib id = some g → t.fib id = some (g.passes s)) ∧ (∀ id, ¬ s.inBundle id → t.fib id = s.fib id) ∧ t.mem = s.mem)

/-- R241, R243, R362 to R364: TLD and TST with a bad geometry complete their token with code 0x36; with every check passed and their addresses at hand they begin, once the release that .rel asks for has begun. Without .rel, a tile of device memory of which the core's L1 holds no masked line that is latched is in flight, with its footprint's slices still to be granted and its token pending, and so is one of the scratchpads, which has moved its bytes. A slice grants its lines when no other access stands in the way and no release is waited for; with the last one a TLD holds the bytes as they stand, or none where data is lost, and a TST's data are written. A finished access leaves: its token completes, and a TLD's bytes stand in the scratchpad; where no line waits in an eviction buffer and no cell is still to be raised memory does not change. The bytes of a tile destination before its token completes are free (log entry 3). -/
def Obligations.tile_accesses : Prop :=
  (∀ (s : State) (i : Instr) (f : Fibre) (L : Launch) (load : Bool) (g q : BitVec 5) (c : BitVec 4) (x : BitVec 6) (r : Bool) (sc : BitVec 3),
    (load = true ∧ i = .tld g q c x r sc) ∨ (load = false ∧ i = .tst g q c x r sc) → s.alone i f = true → s.launch s.cur.launch = some L → f.resp = none →
    (tileGeo L (tileWords s q) = none → exec i s = .next (s.gone.completeToken s.cur.launch s.cur.wgid g.toNat sc.toNat true 0x36 0 false)) ∧
    ∀ y u m, tileGeo L (tileWords s q) = some y →
      let k := f.cap c.toNat
      let off := (f.reg x.toNat).toNat
      permits k [0, 2] [if load then 7 else 6, 3] off y.span 64 → s.gone.tileMem (me s f) k y (objectOffset k off) (!load) = (u, .ok m) → (∀ p ∈ y.scratch, p < L.sp * 65536) →
      (∀ v mark, tileMark u (me s f) m r sc.toNat = (v, .ok mark) → exec i s = .next (v.tileStart [f.fid] (me s f) load g.toNat sc.toNat k off y m mark)) ∧
      (r = false → tokenThere s s.cur.launch s.cur.wgid g.toNat →
        (∀ as, m = .mem as → u = s.gone → (∀ l ∈ y.l1Lines (objectOffset k off), s.l1Dirty (myCore s f) (myAsid s) k.obj.toNat (256 * l) = false ∨ s.lineLatched (myAsid s) k.obj.toNat l = false) →
          ∃ t, exec i s = .next t ∧ tileBegun t load g (as.zip y.scratch) (slicesOf as)) ∧
        (∀ as, m = .scratch as → (∀ o ∈ s.tiles, o.id < s.fresh) → ∃ t, exec i s = .next t ∧ tileBegun t load g (as.zip y.scratch) []))) ∧
  (∀ (s : State) (n sl : Nat) (rest : List Nat) (t : TileOp), s.tile n = some t → t.slices = sl :: rest → t.mark = none → s.tileStopped t = false → (∀ u ∈ s.tiles, t.waitsFor u sl s.tileStopped = false) →
    ∃ u t', exec (.tileLatchGrant n) s = .next u ∧ u.tile n = some t' ∧ t'.granted = t.granted ++ t.linesAt sl ∧ t'.slices = rest ∧
      (rest ≠ [] → t' = { t with granted := t.granted ++ t.linesAt sl, slices := rest, seq := s.fresh }) ∧
      (rest ≠ [] ∨ t.load = true → u.mem = s.mem ∧ u.wgs = s.wgs) ∧
      (rest = [] → t.load = true → t'.count = t.bytes.length ∧
        t'.data = (if t.bytes.any (fun p => s.isBad p.1 1) then [] else t.bytes.map (fun p => s.rdByte (s.keyOf (s.asidOf t.launch)) p.1))) ∧
      (rest = [] → t.load = false → s.tileHurt t = false → t'.count = t.bytes.length ∧ t'.data = s.tileSource t)) ∧
  ∀ (s : State) (n : Nat) (t : TileOp), s.tile n = some t → t.finished = true → t.ready = true → tokenThere s t.launch t.wgid t.g → s.wakes = [] → (∀ c ∈ s.cores, ∀ l ∈ c.l1, l.leaving = false) →
    ∃ u, exec (.tileUnlatch n) s = .next u ∧ u.tile n = none ∧ u.greg t.launch t.wgid t.g = ⟨tokenValue (t.code != 0) t.code.toNat (if t.code = 0 then t.bytes.length else 0), false, none, false⟩ ∧ u.mem = s.mem ∧
      (t.load = true → t.code = 0 → u.scratch t.launch t.wgid = (s.scratch t.launch t.wgid).writeAt ((t.bytes.map (·.2)).zip t.data))

/-- R156, R158, R239, R383 to R391: an engine instruction whose block stands in the scratchpad: while its queue, which a copy names in its block, holds fewer than 32 commands: with every check passed its command enters its queue, its token pending, with the marker of the release that its first access waits for (R238); a failed block check completes the token at once with its code; a wrong operand format performs 0x0E7; without FULL a command that needs it completes with code 0x3B. R370: QFENCE places in every named queue a join that waits for the commands now in the named queues, once for the bundle. The code of an element code 13 to 15, and what a join counts, are the model's readings (log entry 34). -/
def Obligations.engine_commands : Prop :=
  ((∀ (s v : State) (i : Instr) (f : Fibre) (F : CmdForm) (c : BitVec 4) (x : BitVec 6) (L : Launch), commandForm s i = some (F, c, x) → s.alone i f = true → intact s → s.launch s.cur.launch = some L →
    let k := f.cap c.toNat
    let off := (f.reg x.toNat).toNat
    let b := localBlock s (localPlace s f k off)
    let code := F.check s.gone (me s f) L b
    k.kind = 2 → permits k [0, 2] [7] off 64 64 →
    (F.legal s.gone L b = false → exec i s = .next (s.gone.raise (me s f) (Eff.fault 0x0E7 0 s.cur.first none))) ∧
    (F.legal s.gone L b = true →
      (F.limited = true → s.limitedOnly = true → exec i s = .next (s.gone.completeToken s.cur.launch s.cur.wgid F.g F.scope true 0x3B 0 false)) ∧
      ((F.limited && s.limitedOnly) = false → (∀ n, F.close b = some n → code ≠ 0x36 → (s.greg s.cur.launch s.cur.wgid n).pending = false) → ∀ mark, releaseMark s.gone (me s f) F.rel F.scope = (v, .ok mark) →
        ((F.kind = .copy ∨ F.kind = .copyt → b.num 0 4 ≤ 5) → (s.cmds.filter (fun d => d.eng == F.eng b && d.q == F.q && d.kind != .join)).length < 32) →
        (code = 0 → exec i s = .next (v.enqueue (me s f) F L b mark)) ∧
        (code ≠ 0 → exec i s = .next ((if F.kind = .dpost ∧ code = 0x13 then v.logScratch (v.asidOf s.cur.launch) (v.coreOf (me s f)) else v).refuse (me s f) F b code))))) ∧
  ∀ (s : State) (id : FibId) (F : CmdForm) (L : Launch) (b : Block) (mark : Option Nat), tokenThere s id.launch id.wgid F.g → F.close b ≠ some F.g →
    ∃ (u : State) (d : Command), s.enqueue id F L b mark = u.serve (F.eng b) ∧ u.cmds = s.cmds ++ [d] ∧ d.id = s.fresh ∧ d.eng = F.eng b ∧ d.q = F.q ∧ d.kind = F.kind ∧ d.g = F.g ∧ d.st = .queued ∧
      d.blk = b.bytes ∧ d.scope = F.scope ∧ d.mark = mark ∧ (u.greg id.launch id.wgid F.g).pending = true ∧ u.mem = s.mem) ∧
  (∀ (s : State) (f : Fibre) (e : BitVec 6) (m : BitVec 16), s.alone (.qfence e m) f = true →
    let E := namedEngine (myCore s f) e.toNat
    let before := s.cmds.filter (fun c => s.inQueue E c && m.getLsbD c.q && decide (c.q < 16) && c.kind != .join)
    let qs := (List.range 16).filter (fun q => m.getLsbD q)
    ∃ (w : State) (joins : List Command), exec (.qfence e m) s = .next (w.serve E) ∧ w.cmds = s.cmds ++ joins ∧
      joins.map (fun j => (j.kind, j.eng, j.q, j.deps)) = qs.map (fun q => (CmdKind.join, E, q, before.map (·.id))) ∧ fibreChange s w (me s f) (f.passes s) ∧ w.mem = s.mem)

/-- R199, R384, R392: RCALL of one fibre whose block, request, destination and WAKE cell pass their checks, with a tag and room on its link and its release at system scope done: its token is pending, a command counts its request, and the fibre performs 0x004, which writes the record and sends the request. That the call is issued once everything it needs is at hand is the model's reading (log entry 17). -/
def Obligations.remote_calls : Prop :=
  ∀ (s u : State) (f : Fibre) (g : BitVec 5) (c : BitVec 4) (x : BitVec 6) (p : CallPlan), s.alone (.rcall g c x) f = true → s.limitedOnly = false →
    s.gone.callPlans c x [f.passes s] = (u, [(f.fid, .ok p)]) → p.lost = false → u.cur = s.cur → (∀ k, k < 4 → u.linkRoom k (if p.call.link = k then 1 else 0) = true) →
    f.mark = none → u.fib (me s f) = some (f.passes s) → (u.release (u.coreOf ⟨s.cur.launch, s.cur.wgid, 0⟩) 5 u.fresh).2 = true →
    let v := (u.release (u.coreOf ⟨s.cur.launch, s.cur.wgid, 0⟩) 5 u.fresh).1.modFib (me s f) (fun y => { y with mark := none })
    v.cur = s.cur → (∀ y, v.fib (me s f) = some y → y.lost = 0) →
    let w := State.poke { (v.pend s.cur.launch s.cur.wgid g.toNat).stamp with cmds := (v.pend s.cur.launch s.cur.wgid g.toNat).stamp.cmds ++ [callCommand v g.toNat] } 1 v.fresh
    exec (.rcall g c x) s = .next (w.raise (me s f) ⟨0x004, 0, true, s.cur.next, none, .none, some { p.call with cmd := v.fresh, req := w.reqBytes s.cur.launch p.parts }⟩)

/-- R160, R165, R196, R229, R377, R397: what ends a wait of a fibre: its oldest scoreboarded result is written; a fibre that waits for its release looks again, and one whose capture waits for it performs its effect (R186); a sleeper whose time has come, of a gang on its cores, is ready; the device supervisor, where one serves, answers a service call in v0. No other fibre and nothing else changes. R157, R158, R230, R239: a finished command writes its token (bit 31 set, bit 30 its error, its code and its count) and leaves its queue; the fibres that wait for the token issue again. Where no command waits for a release memory does not change. R165: once a fibre's covered results have been taken up at its issue count, a register reads as the latest covered write to it left it, in program order, or as before all of them; what is still outstanding is uncovered. -/
def Obligations.fibre_events : Prop :=
  ((∀ (s : State) (id : FibId) (f : Fibre) (ws : List WB) (rest : List (List WB)), s.fib id = some f → f.infl = ws :: rest →
    ∃ t, exec (.resultWriteback id) s = .next t ∧ fibreChange s t id { f.applyScored ws with infl := rest } ∧ t.bare = s.bare ∧
      ∀ r x, ws = [.v r x] → r < f.v.length → (t.fib id).map (fun g => g.v.getD r 0) = some x) ∧
  (∀ (s : State) (id : FibId) (f : Fibre), s.fib id = some f → f.pend = none → f.copy = none → f.wait = .unacked → ∃ t, exec (.releaseComplete id) s = .next t ∧ fibreChange s t id { f with wait := .none } ∧ t.bare = s.bare) ∧
  (∀ (s : State) (id : FibId) (f : Fibre) (e : Eff), s.fib id = some f → f.pend = some e → f.wait = .capture → s.onCores id = true →
    exec (.releaseComplete id) s = .next (((s.modFib id (fun g => { g with wait := .none, pend := none })).performGo id e).settle id.launch id.wgid)) ∧
  (∀ (s : State), ∃ t, exec .sleepExpiry s = .next t ∧ t.bare = s.bare ∧ ∀ id f, s.fib id = some f →
    (∀ til, f.wait = .sleep til → til ≤ s.ticks → s.sleeps id = true → t.fib id = some { f with wait := .none }) ∧
    ((∀ til, f.wait = .sleep til → s.ticks < til) → t.fib id = some f)) ∧
  ∀ (s : State), s.supervised = true → ∃ t, exec .serviceCallReply s = .next t ∧ t.bare = s.bare ∧ ∀ id f, s.fib id = some f →
    (∀ imm, f.wait = .supervisor imm → ∃ x : Word, t.fib id = some { f.apply (.v 0 x) with wait := .none } ∧ (imm = 0 → x = 0) ∧
      (∀ d, imm = 1 → s.asid (s.asidOf id.launch) = some d → x.toNat = min d.free.length 0xFFFFFFFF) ∧ (imm ≠ 0 → imm ≠ 1 → x = 0xFFFFFFFF)) ∧
    ((∀ imm, f.wait ≠ .supervisor imm) → t.fib id = some f)) ∧
  (∀ (s : State) (n : Nat) (c : Command), s.cmd n = some c → s.cmdStopped c = false → c.st = .finished → c.kind ≠ .dpost → (∀ d ∈ s.cmds, d.mark = none) → tokenThere s c.launch c.wgid c.g →
    ∃ t, exec (.tokenCompletion n) s = .next t ∧ t.cmd n = none ∧ t.mem = s.mem ∧
      t.greg c.launch c.wgid c.g = ⟨tokenValue c.err c.code.toNat c.count, false, none, c.kind == .mma && c.code == 1⟩ ∧
      ∀ id f, s.fib id = some f → id.launch = c.launch → id.wgid = c.wgid → f.wait = .token c.g → t.fib id = some { f with wait := .none }) ∧
  (∀ f : Fibre,
    (∀ n, n < f.v.length → f.settle.reg n = (((f.out.filter (fun w => decide (w.due ≤ f.k))).filterMap (fun w => writeTo n w.wb)).getLast?).getD (f.reg n)) ∧
    (∀ w ∈ f.settle.out, w ∈ f.out ∧ f.k < w.due) ∧
    (∀ w ∈ f.out, f.k < w.due → (∀ x ∈ f.out, x.wb.same w.wb = true → x = w) → w ∈ f.settle.out) ∧
    f.settle.pc = f.pc ∧ f.settle.k = f.k ∧ f.settle.infl = f.infl ∧ f.settle.fflags = f.fflags ∧ f.settle.v.length = f.v.length)

/-- R178, R180, R212, R221: what a cache completes by itself: a walk enters its object entry or page word, unless that is lost, in the caches of its die, and the accesses that joined it go on; the oldest line of a dirty FIFO is written back, its masked bytes and no others; an instruction-cache line, and a Cupboard's segment whose page is resident, come to the core, and what waited for them goes on. R195, R285, R289, R292: a packet or slot that is illegal performs 0x0E7 in each fibre; a fetch whose program counter names no slot performs 0x0E7, and one that the code capability refuses performs the tag of the first failed check, with the packet's offset as argument. The tags of a fetch from a host or peer object and of a lost line are the model's reading (log entry 25). -/
def Obligations.cache_events_and_fetch_faults : Prop :=
  ((∀ (s : State) (die asid obj : Nat) (page : Option Nat), ⟨die, asid, obj, page⟩ ∈ s.walks →
    ∃ t, exec (.translationWalk die asid obj page) s = .next t ∧ ⟨die, asid, obj, page⟩ ∉ t.walks ∧ t.mem = s.mem ∧
      (∀ e, page = none → s.entry asid obj = some e → s.wordLost (s.entryAt asid obj) 32 = false → ⟨die, asid, obj, e⟩ ∈ t.objCache) ∧
      (∀ p e, page = some p → s.entry asid obj = some e → e.paged = true → s.wordLost (e.wordPA p) 8 = false → ⟨die, asid, obj, p, BitVec.ofNat 64 (s.mem.num (e.wordPA p) 8), e.gen⟩ ∈ t.regCache) ∧
      ∀ id f, s.fib id = some f → t.fib id = some (if f.wait = .walk die asid obj page then { f with wait := .none } else f)) ∧
  (∀ (s : State) (core a o n pa : Nat) (rest : List (Nat × Nat × Nat)) (l : L1Line), s.mem.wf = true → s.queues = [] → intact s → (s.core core).fifo = (a, o, n) :: rest → (s.core core).line a o n = some l →
    s.paOf a o (256 * n) = some pa → s.latched pa = false →
    ∃ t, exec (.l1WriteBack core) s = .next t ∧ (a, o, n) ∉ (t.core core).fifo ∧
      (∀ j, j < 256 → t.mem.get (pa + j) = if l.mask.getLsbD j then l.byte j else s.mem.get (pa + j)) ∧ ∀ q, q < pa ∨ pa + 256 ≤ q → t.mem.get q = s.mem.get q) ∧
  (∀ (s : State) (core asid obj line : Nat), s.lineBytesOf asid obj line ≠ [] → s.lineLost asid obj line = false → s.lineHeld asid obj line = false →
    let ws := s.allFibres.filter (fun x => x.2.wait == .icache asid obj line && blockOf (s.coreOf x.1) == blockOf core)
    (ws = [] → ∃ t, exec (.icacheFill core asid obj line) s = .next t ∧ ⟨asid, obj, line, s.lineBytesOf asid obj line⟩ ∈ (t.core core).icache ∧ t.mem = s.mem ∧ t.wgs = s.wgs) ∧
    ∀ id f, ws = [(id, f)] → s.fib id = some f → s.fetchFault asid obj line f.pc = none →
      ∃ t, exec (.icacheFill core asid obj line) s = .next t ∧ ⟨asid, obj, line, s.lineBytesOf asid obj line⟩ ∈ (t.core (s.coreOf id)).icache ∧
        fibreChange s t id { f with wait := .none } ∧ t.mem = s.mem) ∧
  ∀ (s : State) (core asid seg : Nat), (s.segPA asid seg).isSome = true → ∃ t, exec (.cupboardFill core asid seg) s = .next t ∧ t.inCupboard core asid seg = true ∧ t.mem = s.mem ∧
    (∀ n, n ≠ core → t.inCupboard n asid seg = false) ∧
    ∀ id f, s.fib id = some f → t.fib id = some (if f.wait = .cupboard asid seg ∧ s.coreOf id = core then { f with wait := .none } else f)) ∧
  (∀ (s : State) (f : Fibre), onlyFibre s f →
    exec .illegalInstruction s = .next (faultAt s s f 0x0E7 0) ∧
    (slotAt f.pc = 0 → exec .instructionFetchFault s = .next (faultAt s s f 0x0E7 0)) ∧
    ∀ t, slotAt f.pc ≠ 0 → fetchRefusal f.code (packetAt f.pc) = some t → exec .instructionFetchFault s = .next (faultAt s s f t (BitVec.ofNat 32 (packetAt f.pc))))

/-- R107, R137, R148, R179, R195, R223, R279: an uncorrectable error in an on-chip memory. A load of a hurt scratchpad byte, or of a hurt sector that its core's L1 answers, performs 0x0D0, which ERRLOG enters with UNIT 4 or 2; a hurt dirty sector that is written back writes nothing, and each running gang with the core and the ASID is marked; WORKGROUP_RETIREMENT retires a marked gang, whose launch will complete with code 0x13; a dirty hurt sector of a home-slice line that goes is lost, and a gang of its ASID is marked; CALL in a fibre whose top segment is hurt ends the fibre; an MMA that would read a hurt byte in its index vector or its next chunk ends with code 0x13. Which gang owns a line of a home slice, and what of R107 is done when, are the model's readings (log entry 47). -/
def Obligations.on_chip_losses : Prop :=
  (∀ (s : State) (i : Instr) (f : Fibre) (c : BitVec 4) (x : BitVec 6) (disp : Int) (n : Nat) (ks rs : List Nat) (val : List Byte → List WB),
    accessForm i = some (c, x, disp, n, ks, rs) → loadForm i = some val → s.alone i f = true →
    let k := f.cap c.toNat
    let off := offsetOf f x disp
    let o := objectOffset k off
    let lost (unit whr : Nat) : State := s.gone.raise (me s f) ⟨0x0D0, BitVec.ofInt 32 off, true, s.cur.first, some ⟨myAsid s, unit, some whr, false⟩, .none, none⟩
    permits k ks rs off n n →
    (∀ b, k.kind = 2 → (localPlace s f k off).2 ≤ b → b < (localPlace s f k off).2 + n → Hurt.scratch s.cur.launch (localPlace s f k off).1 b ∈ s.hurts →
      exec i s = .next (lost 4 (Config.scratchWhere (myCore s f)))) ∧
    (∀ bs, k.kind ≠ 2 → s.isHeap (me s f) k = false → s.storeAheadHere (myCore s f) (myAsid s) k.obj.toNat o n = false → s.l1Hit (myCore s f) (myAsid s) k.obj.toNat o n = some bs → Hurt.l1 (myCore s f) (myAsid s) k.obj.toNat (o / 64) ∈ s.hurts →
      exec i s = .next (lost 2 (((s.paOf (myAsid s) k.obj.toNat o).getD 0) / 1048576)))) ∧
  (∀ (s : State) (core a o n pa k : Nat) (rest : List (Nat × Nat × Nat)) (l : L1Line), s.mem.wf = true → s.queues = [] → (s.core core).fifo = (a, o, n) :: rest → (s.core core).line a o n = some l →
    s.paOf a o (256 * n) = some pa → s.latched pa = false → k < 4 → Hurt.l1 core a o (4 * n + k) ∈ s.hurts → (∃ j, j < 64 ∧ l.mask.getLsbD (64 * k + j) = true) →
    ∃ t, exec (.l1WriteBack core) s = .next t ∧ (a, o, n) ∉ (t.core core).fifo ∧ (∀ j, j < 64 → t.mem.get (pa + 64 * k + j) = s.mem.get (pa + 64 * k + j)) ∧
      ∀ g L, g ∈ s.gangs → core ∈ g.cores → g.st = .running → s.launch g.launch = some L → L.asid = a → Hurt.gang g.launch g.index ∈ t.hurts) ∧
  (∀ (s : State) (l : Nat) (w : Wg) (g : Gang) (L : Launch), s.wg l w.wgid = some w → s.gang l w.gang = some g → s.launch l = some L → Hurt.gang l w.gang ∈ s.hurts →
    ∃ t, exec (.workgroupRetirement l w.wgid) s = .next t ∧ (t.gang l w.gang).map (·.st) = some .retired ∧ (∀ x ∈ t.wgs, ¬ (x.launch = l ∧ x.gang = w.gang)) ∧
      (t.launch l).map (fun M => (M.lost, M.aborted)) = some (true, L.aborted) ∧ Hurt.gang l w.gang ∉ t.hurts ∧ ∀ id f, id.launch ≠ l → s.fib id = some f → (t.fib id).map (·.v) = some f.v) ∧
  (∀ (s : State) (h : HomeLine) (b a : Nat), Hurt.home b a ∈ s.hurts → b / 4 = h.line →
    Hurt.home b a ∉ (s.homeGone h).hurts ∧ (s.homeGone h).mem = s.mem ∧ (h.dirty.getLsbD (b % 4) = true → b ∈ (s.homeGone h).bad ∧
      ∀ g L, g ∈ s.gangs → g.st = .running → s.launch g.launch = some L → L.asid = a → ∃ y M, y ∈ s.gangs ∧ s.launch y.launch = some M ∧ M.asid = a ∧ Hurt.gang y.launch y.index ∈ (s.homeGone h).hurts)) ∧
  (∀ (s : State) (f : Fibre) (d : BitVec 24), s.alone (.call d) f = true → s.inCupboard (myCore s f) (myAsid s) f.seg = true → Hurt.segment (myAsid s) f.seg ∈ s.hurts → f.seg ∈ s.heldSegs (me s f) f →
    ∃ t, exec (.call d) s = .next t ∧ t.fib (me s f) = none) ∧
  ∀ (s : State) (n x : Nat) (c : Command) (L : Launch) (y : Layout), s.cmd n = some c → s.cmdStopped c = false → c.st = .running → c.kind = .mma → s.launch c.launch = some L → (mblock c.blk).lay = some y →
    let b := mblock c.blk
    let ix := if c.prog = 0 then b.indexVector (s.scratch c.launch c.wgid) else (c.buf.headD (0, [])).2
    (c.prog = 0 ∧ b.inIndex x = true) ∨ (b.reads L y ix c.prog x = true ∧ (c.prog = 0 → ∀ j, j < b.m → indexOf ix j = 0xFFFF ∨ indexOf ix j < b.arows)) → Hurt.scratch c.launch c.wgid x ∈ s.hurts →
    ∃ t, exec (.tokenCompletion n) s = .next t ∧ (t.cmd n).map (fun d => (d.st, d.code, d.err)) = some (.finished, 0x13, true) ∧ t.mem = s.mem ∧ t.scratch c.launch c.wgid = s.scratch c.launch c.wgid

/-- R32, R33, R34, R36, R39: a request of a peer, none of whose lines is latched against it, is performed once and answered under its tag: LDREQ with the bytes, those of a line fill up to the end of the object, STREQ with an ACK after its masked bytes stand in memory, ATREQ with the value before the operation, TLDREQ with the tile in packets of up to 512 bytes, PUT with an ACK after its bytes and its counter's increment, GETREQ with the bytes; TSTDAT stages until the last packet is there. A request that the owner's translation refuses is answered by a NACK. The packing of the fields, and which failing check is reported, are the model's (log entries 19 and 30). -/
def Obligations.fabric_requests : Prop :=
  ∀ (s : State) (p : Packet) (rest : List Packet), s.rxq = p :: rest → s.rxBlocked p = false →
    let u := fabricTaken s rest
    let a := p.asid.toNat
    (p.kind = 0x01 → accessSizes p.len ∨ p.len = 256 →
      (∀ e, u.served p p.obj.toNat p.off.toNat (u.fillLen p) false = .error e → ∃ t, exec .ldreq s = .next t ∧ t.mem = s.mem ∧ answered s t p (nackPacket e.1 e.2)) ∧
      ∀ segs, u.served p p.obj.toNat p.off.toNat (u.fillLen p) false = .ok segs → u.segsGone segs = false → ∃ t rc, exec .ldreq s = .next t ∧ t.mem = s.mem ∧
        answered s t p { Packet.zero with kind := 0x02, rcok := rc, len := u.fillLen p, payload := segs.flatMap (fun x => s.rd (s.keyOf a) x.1 x.2) }) ∧
    (p.kind = 0x03 → accessSizes p.len → s.mem.wf = true → s.queues = [] →
      (∀ e, u.served p p.obj.toNat p.off.toNat p.len true = .error e → ∃ t, exec .streq s = .next t ∧ t.mem = s.mem ∧ answered s t p (nackPacket e.1 e.2)) ∧
      ∀ x n more, u.served p p.obj.toNat p.off.toNat p.len true = .ok ((x, n) :: more) → u.segsGone ((x, n) :: more) = false → ∃ t, exec .streq s = .next t ∧ answered s t p ackPacket ∧
        (∀ j, j < p.payload.length → t.mem.get (x + j) = if p.op.getLsbD (if p.len = 16 then j / 2 else j) then p.payload.getD j 0 else s.mem.get (x + j)) ∧
        ∀ y, y < x ∨ x + p.payload.length ≤ y → t.mem.get y = s.mem.get y) ∧
    (p.kind = 0x04 → p.op.toNat ≤ 0x0A ∨ p.op.getLsbD 7 = true → p.len = atomicSrc p.op → p.off.toNat % atomicSize p.op = 0 →
      ∀ x n more, u.served p p.obj.toNat p.off.toNat (atomicSize p.op) true = .ok ((x, n) :: more) → u.segsGone ((x, n) :: more) = false →
        ∃ t, exec .atreq s = .next t ∧ t.mem = (u.atomicHome (s.keyOf a) x p.op (littleEndian p.payload)).1.mem ∧
          answered s t p { Packet.zero with kind := 0x05, len := atomicSize p.op, payload := natBytes (atomicSize p.op) (littleEndian (s.rd (s.keyOf a) x (atomicSize p.op))) }) ∧
    (p.kind = 0x08 → ∀ segs v, u.servedTile p false = .ok segs → u.segsGone segs = false → s.via p.src.val = some v →
      ∃ t ks, exec .tldreq s = .next t ∧ t.mem = s.mem ∧ t.txq = s.txq ++ ks ∧ ks.flatMap (·.payload) = segs.flatMap (fun x => s.rd (s.keyOf a) x.1 x.2) ∧
        ∀ k ∈ ks, k.kind = 0x09 ∧ k.dst = p.src ∧ k.tag = p.tag ∧ k.payload.length = k.len ∧ k.len ≤ 512) ∧
    (p.kind = 0x0A → ∀ segs, u.servedTile p true = .ok segs → u.segsGone segs = false →
      let t := (stagedOf u p).add p.cobj.toNat p.payload
      (t.whole 0 (segs.map (·.2)).sum = none → ∃ w, exec .tstdat s = .next w ∧ w.mem = s.mem ∧ w.txq = s.txq ∧ t ∈ w.staged) ∧
      ∀ bs, t.whole 0 (segs.map (·.2)).sum = some bs →
        ∃ w, exec .tstdat s = .next w ∧ w.mem = ((u.unstage p).segsWrite a segs bs).mem ∧ (∀ v, s.via p.src.val = some v → w.txq.length = s.txq.length + t.got.length)) ∧
    (p.kind = 0x0B → ∀ x y n, s.mem.wf = true → s.queues = [] → u.counterAt p = .ok y → u.served p p.obj.toNat p.off.toNat p.len true = .ok [(x, n)] → u.segsGone [(y, 8), (x, n)] = false →
      p.payload.length = n → y + 8 ≤ x ∨ x + n ≤ y → s.keyed = [] → ∃ t, exec .put s = .next t ∧ answered s t p ackPacket ∧ (∀ j, j < n → t.mem.get (x + j) = p.payload.getD j 0) ∧
        t.mem.num y 8 = (littleEndian (s.rd (s.keyOf a) y 8) + p.len) % 2 ^ 64 ∧ ∀ z, (z < x ∨ x + n ≤ z) → (z < y ∨ y + 8 ≤ z) → t.mem.get z = s.mem.get z) ∧
    (p.kind = 0x0C → ∀ segs, u.served p p.obj.toNat p.off.toNat p.len false = .ok segs → u.segsGone segs = false →
      ∃ t, exec .getreq s = .next t ∧ t.mem = s.mem ∧ answered s t p { Packet.zero with kind := 0x0D, len := p.len, payload := segs.flatMap (fun x => s.rd (s.keyOf a) x.1 x.2) })

/-- R38, R200: SHOOT drops every line that came from its region, whose RC counts here no more, and is acknowledged at once when no load of the region is outstanding, else later; CMIG, whose destination is not latched against it, is gathered until the continuation is whole, which is then taken into new segments, its capability stored, and acknowledged; with too few free segments it is refused with status 0x29. Which segments a migrated continuation takes is left open (log entry 2). -/
def Obligations.shoot_downs_and_migrations : Prop :=
  ∀ (s : State) (p : Packet) (rest : List Packet), s.rxq = p :: rest →
    let u := fabricTaken s rest
    (p.kind = 0x0E → s.shootsIn = [] → ∃ t, exec .shoot s = .next t ∧ (∀ r ∈ t.rcLines, r.shot p = false) ∧ (p.src.val, p.asid.toNat, p.obj.toNat, p.off.toNat / 2097152) ∈ t.unrc ∧ t.mem = s.mem ∧ (u.loadOpen p = false → t.shootsIn = [] ∧ answered s t p ackPacket) ∧
      (u.loadOpen p = true → t.shootsIn = [p] ∧ t.txq = s.txq)) ∧
    (p.kind = 0x10 → s.rxBlocked p = false →
      let k := p.coff.toNat
      let g := ((stagedOf u p).add k p.payload).add (2 ^ 40 + k) (p.gtags.map (fun b => if b then 1 else 0))
      let n := p.cobj.toNat + 1
      (g.whole 0 (1024 * n) = none → ∃ t, exec .cmig s = .next t ∧ t.mem = s.mem ∧ t.txq = s.txq ∧ g ∈ t.staged) ∧
      ∀ bs d dest nt, g.whole 0 (1024 * n) = some bs → u.xlatNow false ⟨p.asid.toNat, p.obj.toNat, p.off.toNat, 16, true, false⟩ = .pa dest nt → s.asid p.asid.toNat = some d →
        (d.free.length < n → ∃ t, exec .cmig s = .next t ∧ t.mem = s.mem ∧ answered s t p (nackPacket 0x29 0)) ∧
        (n ≤ d.free.length → ∃ t, exec .cmig s = .next t ∧ answered s t p ackPacket ∧ (t.asid p.asid.toNat).map (·.free) = some (d.free.drop n) ∧ t.mem.tag dest = true))

/-- R31, R34 to R37, R39, R40: the answer to an outstanding request ends its transaction: a load or atomic gives its bytes to the fibres that wait for it, an acknowledged store lets them go on, tile bytes enter the tile access, whose fibres go on with the last of a TLD's, an acknowledged PUT is counted by its command, and bytes of a GETREQ are written and counted; a NACK makes the fibres perform the effect of its status, or ends the command with it and with its other requests. No cell is still to be raised, and no SHOOT to be sent. R35, R41, R55, R151: a packet for another position goes on over virtual channel 1, or into the relay store in the window of a relay fold, or is dropped when its destination is dead; a NOTE releases or ends a Hamper record of this package, fails barrier units, or asks for a region: one that is resident is granted at once. The payload of a NOTE between service pairs is the model's own (log entry 30). -/
def Obligations.fabric_answers_and_notes : Prop :=
  (∀ (s : State) (p : Packet) (rest : List Packet) (x : Tx), s.rxq = p :: rest → (fabricTaken s rest).txOf p = some x → calm s →
    let u := fabricTaken s rest
    (∀ f off, p.kind = 0x02 → x.kind = .load f off → ∃ t, exec .ldrsp s = .next t ∧ t.mem = s.mem ∧ t.txs = txsWithout s x ∧ remoteAnswered s t x.dst x.tag p.payload) ∧
    (∀ f off, p.kind = 0x05 → x.kind = .atomic f off → ∃ t, exec .atrsp s = .next t ∧ t.mem = s.mem ∧ t.txs = txsWithout s x ∧ remoteAnswered s t x.dst x.tag p.payload) ∧
    (∀ f off, p.kind = 0x06 → x.kind = .store f off → ∃ t, exec .ack s = .next t ∧ t.mem = s.mem ∧ t.txs = txsWithout s x ∧ remoteAnswered s t x.dst x.tag []) ∧
    (∀ n off len c, p.kind = 0x06 → x.kind = .put n off len → s.cmd n = some c → c.kind = .xput → c.exch = false →
      ∃ t, exec .ack s = .next t ∧ t.mem = s.mem ∧ t.txs = txsWithout s x ∧ t.cmd n = some { c with acked := c.acked + 1 }) ∧
    (∀ f n off y, p.kind = 0x09 → p.op = 0 → x.kind = .tile f n off → s.tile n = some y →
      let z := { y with data := y.data.take p.cobj.toNat ++ p.payload ++ y.data.drop (p.cobj.toNat + p.payload.length), count := y.count + p.payload.length }
      ∃ t, exec .tlddat s = .next t ∧ t.mem = s.mem ∧ t.tile n = some z ∧ (y.load = true → z.finished = false → ∀ id, t.fib id = s.fib id) ∧
        (y.load = false ∨ z.finished = true → remoteAnswered s t x.dst x.tag [])) ∧
    (∀ n off len c dst y m more, p.kind = 0x0D → x.kind = .get n off len → (u.dropTx x).cmd n = some c → c.st ≠ .finished → (u.dropTx x).cmdStopped c = false →
      (u.dropTx x).span c (c.cap 1) off len true = dst → (∀ e, dst ≠ .failed e) → (∀ k, dst ≠ .stall k) → (∀ a, dst ≠ .lost a) → (∀ d a b e, dst ≠ .walk d a b e) → (u.dropTx x).span c (c.cap 3) 0 8 true = .mem ((y, m) :: more) →
      (u.dropTx x).isBad y 8 = false → (u.dropTx x).spanLatched true dst = false → (u.dropTx x).spanLatched true (.mem ((y, m) :: more)) = false →
      ∃ t, exec .getdat s = .next t ∧ t.cmd n = some { c with acked := c.acked + 1 } ∧ t.mem = (((u.dropTx x).spanWrite c p.payload dst).countIn (s.keyOf c.asid) y len).mem) ∧
    (p.kind = 0x07 → ¬ ((p.op = 0x21 ∨ p.op = 0x22) ∧ p.len = 6) →
      (∀ f off g, x.kind = .load f off ∨ x.kind = .store f off ∨ x.kind = .atomic f off → s.allFibres.filter (fun z => z.2.wait == .remote x.dst x.tag) = [(f, g)] →
        exec .nack s = .next (((u.modFib f (fun h => { h with wait := .none })).raise f (Eff.fault (refusedEffect p) off g.pc (if p.op = 0x11 then some x.key else none))).dropTx x)) ∧
      ∀ n off len c, x.kind = .put n off len ∨ x.kind = .get n off len → s.cmd n = some c → c.st = .running → p.op ≠ 0x11 → p.op ≠ 0 → c.exch = false →
        ∃ t, exec .nack s = .next t ∧ t.mem = s.mem ∧ (∀ z ∈ t.txs, (z.dst ≠ x.dst ∨ z.tag ≠ x.tag) ∧ z.kind.isOf n = false) ∧ t.cmd n = some { c with st := .finished, code := p.op, err := true, count := c.reached })) ∧
  (∀ (s : State) (p : Packet) (rest : List Packet), s.rxq = p :: rest →
    let u := fabricTaken s rest
    (p.dst.val ≠ s.pos → ∃ t, exec .detourRelay s = .next t ∧ t.rxq = rest ∧ t.mem = s.mem ∧ t.wgs = s.wgs ∧
      ((s.peer p.dst.val).died = true → t.txq = s.txq ∧ t.relay = s.relay) ∧
      ((s.peer p.dst.val).died = false → p.kind = 0x0B → u.relayWindow p = true → t.txq = s.txq ∧ t.relay = s.relay ++ [p]) ∧
      ((s.peer p.dst.val).died = false → p.kind ≠ 0x0B ∨ u.relayWindow p = false → t.relay = s.relay ∧ t.txq = s.txq ++ [{ p with hop2 := true, vc := true, sched := false }])) ∧
    (p.kind = 0x11 →
      let die := littleEndian (p.payload.take 4)
      let n := littleEndian ((p.payload.drop 4).take 8)
      (p.op = 2 → s.wakes = [] → ∃ t, exec .note s = .next t ∧ t.mem = s.mem ∧ (∀ id f, s.fib id = some f → f.wait.onRec die n = true → t.fib id = some { f with wait := .none }) ∧
        ((∀ x ∈ s.allFibres, x.2.wait.onRec die n = false) → ∀ id, t.fib id = s.fib id)) ∧
      (p.op = 3 → exec .note s = .next (u.endRec die n)) ∧
      (p.op = 4 → exec .note s = .next (u.failUnits (fun x => x.level == die && x.num == n && x.mask.getLsbD p.src.val))) ∧
      ∀ e, p.op = 1 → s.entry p.asid.toNat p.obj.toNat = some e → p.cobj.getLsbD 0 = false → u.regionResident e (p.off.toNat / 2097152) = true →
        exec .note s = .next (u.noteTo p.src.val 2 ⟨p.asid.toNat, p.obj.toNat, some (p.off.toNat / 2097152), false⟩ die n)))

/-- R23, R24, R31, R35, R38, R40: a remote load or atomic without an answer for 100 µs makes its fibres perform 0x0D0, a store is marked as lost, and a bulk command ends with code 0x15; each tag stays taken until its answer comes. A peer not heard from for 50 µs, or whose acknowledgement of a shoot-down is overdue, is declared dead, and management is told; one heard from since, and that a path reaches, is looked at again. A peer whose links have trained is live. That the time-out counts for each packet of a command is the model's reading (log entry 26). -/
def Obligations.fabric_failures : Prop :=
  (∀ (s : State) (dst : Fin 16) (tag : BitVec 12) (x : Tx) (f : FibId) (off : Word) (g : Fibre), s.txs.find? (fun t => t.dst == dst.val && t.tag == tag.toNat && decide (t.issued + 100000 ≤ s.ticks)) = some x → s.fib f = some g →
    (x.kind = .load f off ∨ x.kind = .atomic f off → s.allFibres.filter (fun z => z.2.wait == .remote x.dst x.tag) = [(f, g)] →
      exec (.remoteRequestTimeout dst tag) s = .next (((s.modFib f (fun h => { h with wait := .none })).raise f (Eff.fault 0x0D0 off g.pc none)).leaveTx x false)) ∧
    (x.kind = .store f off → ∃ t, exec (.remoteRequestTimeout dst tag) s = .next t ∧ t.mem = s.mem ∧ t.txs = txsLeft s x ∧ (t.fib f).map (·.lost) = some (g.lost ||| 1))) ∧
  (∀ (s : State) (n off len : Nat) (x : Tx) (c : Command), (s.cmdTxs n).find? (fun t => decide (t.issued + 100000 ≤ s.ticks)) = some x → x.kind = .put n off len ∨ x.kind = .get n off len → s.cmd n = some c → c.st ≠ .finished → c.exch = false →
    ∃ t, exec (.fabricTimeout n) s = .next t ∧ t.mem = s.mem ∧ (∀ z ∈ t.txs, z.kind.isOf n = false) ∧ t.cmd n = some { c with st := .finished, code := 0x15, err := true, count := c.reached }) ∧
  (∀ (s : State) (q : Fin 16), q.val < s.peers.length → (s.peer q.val).live = true → (s.peer q.val).died = false →
    ((s.peer q.val).lastHeard + 50000 ≤ s.ticks → ∃ t, exec (.peerDead q) s = .next t ∧ (t.peer q.val).died = true ∧ (t.peer q.val).live = false ∧ .deadPeer q.val ∈ t.mgmtOut) ∧
    (s.ticks < (s.peer q.val).lastHeard + 50000 → (s.via q.val).isSome = true →
      exec (.peerDead q) s = .next (if s.agenda.any (fun t => t.ev == .peerDead q) then s else s.at ((s.peer q.val).lastHeard + 50000) (.peerDead q)))) ∧
  (∀ (s : State) (a o r : Nat) (x : Tx), s.peers.length = 16 → x ∈ s.txs → x.kind = .shoot a o r → x.issued + 100000 ≤ s.ticks → x.dst < 16 →
    ∃ t, exec (.shootDownOverdue a o r) s = .next t ∧ (t.peer x.dst).died = true ∧ .deadPeer x.dst ∈ t.mgmtOut) ∧
  ∀ (s : State) (q : Fin 16), q.val < s.peers.length → (s.peer q.val).died = false → q.val ≠ s.pos → (∀ k ∈ pairsOf s.pos q.val, s.boot.dark.getLsbD k = false) →
    ∃ t, exec (.linkTrainingComplete q) s = .next t ∧ t.mem = s.mem ∧ t.wgs = s.wgs ∧
    (t.peer q.val).live = true ∧ (t.peer q.val).populated = true ∧ (t.peer q.val).lastHeard = s.ticks ∧
    ((∀ k ∈ pairsOf s.pos q.val, (s.pair k).lanes = [] ∧ (s.pair k).failedNow = false) → t.direct q.val = true)

/-- R46 to R50, R53: a DPOST starts an exchange, whose close and computation are then on the agenda, or joins the one in collection; at the close it is noted which positions are live and which links have failed; 5 µs later the collection is closed, its base 60 µs after the window's end, its folds and posted set those of the fold algorithm on what was noted, and the Folding Table that acts sends its calendars in pieces. R53: every fold is a matching, each source and each destination in it once and each pair with demand left; and over the folds that the algorithm makes, no unit is lost: what they carry and what is left add up to the demand. That the newest of two posts counts, and the calendar packets' fields, are the model's (log entries 28 and 30). -/
def Obligations.exchange_schedule : Prop :=
  ((∀ (s : State) (p : Packet) (rest : List Packet), s.rxq = p :: rest → p.kind = 0x0F → p.op = 0x01 →
    let x : Word := BitVec.ofNat 32 (littleEndian ((p.payload.drop 128).take 4))
    let y := postOf s p
    (s.exchOf x = none → (s.ft.exchs.filter (fun e => !e.ended s.fabric)).length < 8 →
      ∃ t e, exec .exchangeDpost s = .next t ∧ t.exchOf x = some e ∧ e.posts = [y] ∧ e.first = y.stamp ∧ e.closed = false ∧ e.sample = none ∧
        ⟨y.stamp + s.ft.window + s.epoch, .collectionClose x⟩ ∈ t.agenda ∧ ⟨y.stamp + s.ft.window + 5000 + s.epoch, .collectionClose x⟩ ∈ t.agenda) ∧
    ∀ e, s.exchOf x = some e → e.closed = false → ∃ t, exec .exchangeDpost s = .next t ∧ t.exchOf x = some { e with posts := e.posts ++ [y], first := min e.first y.stamp }) ∧
  (∀ (s : State) (x : Word), s.ft.exchs.length ≤ 8 → ∃ t, exec (.collectionClose x) s = .next t ∧ ∀ e ∈ t.ft.exchs, e.closed = true ∨ s.fabric < e.first + s.ft.window + 5000) ∧
  (∀ (s : State) (x : Word) (e : Exch), s.ft.exchs = [e] → e.closed = false → e.sample = none → e.first + s.ft.window ≤ s.fabric → s.fabric < e.first + s.ft.window + 5000 →
    ∃ t links, exec (.collectionClose x) s = .next t ∧ t.ft.exchs = [{ e with sample := some (s.livePositions, links) }] ∧
      (∀ a b, a < 16 → b < 16 → (links.getD a 0).getLsbD b = s.reportsNone a b) ∧ t.mem = s.mem ∧ t.wgs = s.wgs ∧ t.txq = s.txq) ∧
  ∀ (s : State) (x : Word) (e : Exch), s.ft.exchs = [e] → e.closed = false → e.sample ≠ none → e.first + s.ft.window + 5000 ≤ s.fabric →
    ∃ t e', exec (.collectionClose x) s = .next t ∧ t.ft.exchs = [e'] ∧ e'.closed = true ∧ e'.base = e.first + s.ft.window + 60000 ∧ e'.folds = (s.demandOf e).plan.folds ∧
      e'.posted.toNat = (((List.range 16).filter (s.demandOf e).posted).map (2 ^ ·)).sum ∧ t.mem = s.mem ∧ t.wgs = s.wgs ∧
      (s.ftSends = true → ∀ p ∈ e.posts, some p.mask = e.leader.map (·.mask) → p.pos ∈ s.livePositions → p.pos ≠ s.pos → s.via p.pos ≠ none →
        let bs := if s.ft.acting = true then actingFlag (e'.calendarOf p.pos) else e'.calendarOf p.pos
        ∀ k, 496 * k < bs.length → ∃ z ∈ t.txq, calendarPiece p.pos bs k z)) ∧
  ((∀ M : List (List Nat), ((chooseMatching M).map (·.1)).Nodup ∧ ((chooseMatching M).map (·.2)).Nodup ∧ ∀ p ∈ chooseMatching M, 0 < mget M p.1 p.2) ∧
  ∀ (M : List (List Nat)) (phase n a b : Nat), carried (runFolds phase n M []).1 a b + mget (runFolds phase n M []).2 a b = mget M a b)

/-- R49, R58, R63, R64, R66: this package's part of an exchange: a calendar that has come whole is taken into use, written where the DPOST asked, and ends the DPOST; without one by the time-out the DPOST, waiting or still in its queue, fails with code 0x20; at BASE + END, with its own transfers done, a CLOSE with the bytes sent goes to each posted member; the close token completes when the last close is in, with code 0x10 when a member that has not closed is dead, and with code 0x15 by time-out; where this package has one DPOST for the ID. R55, R58: at its start a window's budget is granted to the bytes held for its destination, or a second leg leaves the relay store; at its end what it granted and has not sent goes on as unscheduled overflow; a window in which a late poster only stores a first leg starts nothing. A grant takes the held ranges of a command from the front. The close bookkeeping is the model's reading (log entry 28). -/
def Obligations.exchange_member : Prop :=
  ((∀ (s : State) (p : Packet) (rest : List Packet) (e : MyExch) (n : Nat) (c : Command), s.rxq = p :: rest → p.kind = 0x0F → p.op = 0x02 →
    let x : Word := BitVec.ofNat 32 (littleEndian (p.payload.take 4))
    onlyDpost s x e → (∀ y ∈ s.exchs, y.cmd = e.cmd → y = e) → e.calendar = none → e.pieces = [] → littleEndian ((p.payload.drop 4).take 2) = 0 → littleEndian ((p.payload.drop 6).take 2) = n → 0 < n → n ≤ 496 → p.payload.length = 16 + n →
    s.exchRuns e = true → s.wg e.launch e.wgid ≠ none → s.cmd e.cmd = some c →
    ∃ t, exec .calendar s = .next t ∧ (t.myExch x).map (·.calendar) = some (some (p.payload.drop 16)) ∧ (t.myExch x).map (·.landed) = some true ∧
      t.scratch e.launch e.wgid = (s.scratch e.launch e.wgid).write e.calOff (p.payload.drop 16) ∧ (t.cmd e.cmd).map (·.st) = some .finished) ∧
  (∀ (s : State) (x : Word) (e : MyExch) (c : Command), s.myExch x = some e → e.calendar = none → e.stamp + s.ft.window + 200000 ≤ s.fabric → s.cmd e.cmd = some c →
    ∃ t, exec (.dpostTimeout x) s = .next t ∧ (t.cmd e.cmd).map (fun c => (c.st, c.code, c.err, c.count)) = some (.finished, 0x20, true, 0) ∧ t.mem = s.mem) ∧
  (∀ (s : State) (x : Word) (c : Command), s.cmd c.id = some c → c.kind = .dpost → c.st = .queued → c.prog = 0 → c.num 8 4 = x.toNat → (c.exps.headD 0).toNat + s.ft.window + 200000 ≤ s.fabric →
    ∃ t, exec (.dpostTimeout x) s = .next t ∧ (t.cmd c.id).map (fun c => (c.st, c.code, c.err, c.count)) = some (.finished, 0x20, true, 0) ∧ t.mem = s.mem) ∧
  (∀ (s : State) (x : Word) (e : MyExch), s.myExch x = some e → e.calendar ≠ none → e.closeSent = false → e.endAt ≤ s.fabric → s.exchBusy x = false →
    ∃ t, exec (.closeSend x) s = .next t ∧ (t.myExch x).map (·.closeSent) = some true ∧ ∀ q v, q < 16 → e.posted.getLsbD q = true → q ≠ s.pos → s.via q = some v →
      ∃ k ∈ t.txq, k.kind = 0x0F ∧ k.op = 0x03 ∧ k.dst = posF q ∧ k.payload = natBytes 4 x.toNat ++ natBytes 4 0 ++ natBytes 8 (((e.sentTo.filter (fun t => t.1 == q)).map (·.2)).sum)) ∧
  (∀ (s : State) (p : Packet) (rest : List Packet) (e : MyExch), s.rxq = p :: rest → p.kind = 0x0F → p.op = 0x03 →
    let x : Word := BitVec.ofNat 32 (littleEndian (p.payload.take 4))
    let cs := e.closes ||| ((1 : BitVec 16) <<< p.src.val)
    onlyDpost s x e → ∃ t, exec .close s = .next t ∧ (t.myExch x).map (·.closes) = some cs ∧
      (e.closeDone = false → e.calendar ≠ none → e.endAt ≤ s.fabric → (∀ q ∈ e.awaited s.pos, cs.getLsbD q = true) → tokenThere s e.launch e.wgid e.closeG → closed t x e 0 (e.awaited s.pos).length)) ∧
  ∀ (s : State) (x : Word) (e : MyExch), onlyDpost s x e → e.closeDone = false → e.calendar ≠ none → tokenThere s e.launch e.wgid e.closeG →
    let missing := (e.awaited s.pos).filter (fun q => !e.closes.getLsbD q)
    let count := ((e.awaited s.pos).filter (fun q => e.closes.getLsbD q)).length
    (e.endAt ≤ s.fabric → missing = [] → ∃ t, exec (.lateCloseCompletion x) s = .next t ∧ closed t x e 0 count) ∧
    (e.endAt ≤ s.fabric → missing ≠ [] → (∀ q ∈ missing, s.alive q = false) → ∃ t, exec (.lateCloseCompletion x) s = .next t ∧ closed t x e 0x10 count) ∧
    (∀ q ∈ missing, s.alive q = true → max e.endAt ((s.peer q).lastPkt - s.epoch) + 100000 ≤ s.fabric → ∃ t, exec (.closeTimeout x) s = .next t ∧ closed t x e 0x15 count)) ∧
  ((∀ (s : State) (x : Word) (n : Nat) (e : MyExch) (w : Window), s.windowOf x n = some (e, w) →
    (w.send = false → exec (.foldWindowStart x n) s = .next s) ∧
    (w.send = true → w.start ≤ s.fabric → s.fabric < w.stop → w.dest = s.pos ∨ s.reachable w.dest = true → (∀ g ∈ e.granted, g.1 ≠ w.num) →
      (∀ d, w.feeds = some d → exec (.foldWindowStart x n) s = .next ((s.modExch e.cmd (fun y => { y with granted := y.granted ++ [(w.num, d, w.budget)] })).exchOffer x)) ∧
      ∀ p, w.feeds = none → s.relay.filter w.stored = [p] → p.len ≤ w.budget →
        ∃ t, exec (.foldWindowStart x n) s = .next t ∧ t.relay = s.relay.erase p ∧ t.txq = s.txq ++ [{ p with hop2 := true, vc := true, sched := true }] ∧ t.mem = s.mem ∧ t.wgs = s.wgs) ∧
    (∀ d, w.feeds = some d → exec (.foldWindowEnd x n) s = .next ((s.modExch e.cmd (fun y => { y with granted := y.granted.filter (fun g => g.1 != w.num) })).windowOver x d |>.exchOffer x)) ∧
    (w.feeds = none → ∃ t, exec (.foldWindowEnd x n) s = .next t ∧ (∀ p ∈ s.relay.filter w.stored, { p with hop2 := true, vc := true, sched := false } ∈ t.txq) ∧ t.mem = s.mem ∧ t.wgs = s.wgs)) ∧
  ∀ (s : State) (c : Command) (n o m : Nat), s.cmd c.id = some c → c.cuts = [(o, m)] → 0 < n →
    (s.grantTo [c.id] n).2 = n - m ∧ (s.grantTo [c.id] n).1.cmd c.id = some { c with win := c.win ++ [(o, min n m)], cuts := if m ≤ n then [] else [(o + n, m - n)] })

/-- R70, R71, R76, R81 to R83: a connection opens with its window, timer and numbers as given; closing, a peer's close and the eighth expiry without progress end its commands with code 0x31; an acknowledgement that is due is sent with E and SACK; the timer resends every unacknowledged packet with RETRY and doubles itself; after an RNR packets go again from the refused one on, where their sources can be read; a fetched context is on chip. R76, R77, R80, R81, R83: a packet whose connection's context is on chip: DATA in sequence with its buffer is placed and E advances, without a buffer it is refused by RNR, received before it is acknowledged again; an ACK takes away what it covers and completes the messages all of whose packets are acknowledged; an RNR sets the connection to resend after 20 µs, from the earliest refused packet on. A packet whose context is not on chip is staged, and the context fetched. The first numbers of a connection, what counts as an expiry, and a buffer that is not resident are the model's (log entries 29 and 33). -/
def Obligations.scale_out : Prop :=
  ((∀ (s : State) (n asid : Nat) (ep : Word) (con : BitVec 16), n < 65536 → s.mg.full = true → (∀ c, s.conn n = some c → c.st = .closed) →
    ∃ t c, exec (.connectionOpen n asid ep con) s = .next t ∧ t.conn n = some c ∧ c.st = .opened ∧ c.asid = asid ∧ c.peerEp = ep ∧ c.peerCon = con ∧ c.nextPsn = 0 ∧ c.nextMsn = 0 ∧ c.expect = 0 ∧
      c.window = 262144 ∧ c.timer = 50000 ∧ c.sends = [] ∧ c.bufs = [] ∧ c.unacked = [] ∧ t.mem = s.mem) ∧
  ∀ (s : State) (n : Nat) (c : Conn), s.conn n = some c →
    (c.st ≠ .closed → ∃ t, exec (.connectionClose n) s = .next t ∧ connectionEnded s t n .closed ∧ t.mem = s.mem) ∧
    (c.st = .opened → ∃ t, exec (.peerClose n) s = .next t ∧ connectionEnded s t n .error ∧ t.mem = s.mem) ∧
    (c.st = .opened → 0 < c.sinceAck → ∃ t a, exec (.delayedAck n) s = .next t ∧ t.soTx = s.soTx ++ [a] ∧ ofConnection s c a ∧ a.kind = 2 ∧ a.ackpsn = c.expect ∧
      (∀ k, k < 64 → a.sack.getLsbD k = c.accepted.contains (c.expect + 1 + BitVec.ofNat 32 k)) ∧ t.conn n = some { c with echo := false, sinceAck := 0 }) ∧
    (∀ due, c.st = .opened → c.unacked ≠ [] → c.timerDue = some due → due ≤ s.ticks →
      (c.rnr = none → 7 ≤ c.expiries → ∃ t, exec (.retransmissionTimer n) s = .next t ∧ connectionEnded s t n .error) ∧
      (c.expiries < 7 → (∀ p ∈ c.unacked, resendable s c p) → ∃ t ps, exec (.retransmissionTimer n) s = .next t ∧ t.soTx = s.soTx ++ ps ∧ ps.map (·.psn) = c.unacked.map (·.psn) ∧ (∀ p ∈ ps, p.flags.getLsbD 2 = true ∧ p.crc = soCrc p) ∧
        t.conn n = some { c with expiries := if c.rnr.isSome then c.expiries else c.expiries + 1, window := 8192, timer := min 6400000 (2 * c.timer), timerDue := some (s.ticks + min 6400000 (2 * c.timer)) } ∧
        ⟨s.ticks + min 6400000 (2 * c.timer), .retransmissionTimer n⟩ ∈ t.agenda)) ∧
    (∀ r, c.st = .opened → c.rnr = some r → (∀ p ∈ c.unacked, resendable s c p) → ∃ t ps, exec (.rnrResend n) s = .next t ∧ t.soTx = s.soTx ++ ps ∧ t.mem = s.mem ∧
      ps.map (·.psn) = (c.unacked.filter (fun p => decide ((p.psn - r).toNat < 2 ^ 31))).map (·.psn) ∧ ∀ p ∈ ps, p.flags.getLsbD 2 = true) ∧
    ∀ port, (s.conns.filter (·.onChip)).length < 4096 → (∀ x ∈ s.staging, x.2.dstCon.toNat ≠ n) →
      ∃ t, exec (.contextFetch port n) s = .next t ∧ t.conn n = some { c with onChip := true, used := s.fresh } ∧ t.mem = s.mem) ∧
  (∀ (s : State) (p : SoPacket) (rest : List SoPacket) (c : Conn), s.soRx = p :: rest → s.conn p.dstCon.toNat = some c →
    let n := p.dstCon.toNat
    let port := (s.soPort n).getD (n % 13)
    (∀ i, (p.kind = 1 ∧ i = .scaleoutData) ∨ (p.kind = 2 ∧ i = .scaleoutAck) ∨ (p.kind = 3 ∧ i = .rnr) → c.onChip = false →
      ((s.staging.filter (fun x => x.1 == port)).map (fun x => 64 + x.2.payload.length)).sum + 64 + p.payload.length ≤ 65536 →
      ∃ t, exec i s = .next t ∧ t.soRx = rest ∧ t.staging = s.staging ++ [(port, p)] ∧ t.mem = s.mem ∧ ∃ x ∈ t.agenda, x.ev = .contextFetch port n) ∧
    (p.kind = 1 → c.onChip = true → c.st = .opened →
      (∀ b d segs, p.psn = c.expect → c.accepted = [] → c.bufs.find? (fun b => b.msn == p.msn) = some b → s.cmd b.cmd = some d → b.code = 0 → p.payload ≠ [] → p.moff.toNat + p.payload.length ≤ b.len →
        s.span d (d.cap 1) p.moff.toNat p.payload.length true = .mem segs → s.spanLatched true (.mem segs) = false → s.segsBad segs = false →
        ∃ t, exec .scaleoutData s = .next t ∧ t.mem = (s.spanWrite d p.payload (.mem segs)).mem ∧ (t.conn n).map (·.expect) = some (c.expect + 1)) ∧
      (p.psn = c.expect → p.psn ∉ c.accepted → c.bufs.find? (fun b => b.msn == p.msn) = none →
        ∃ t r, exec .scaleoutData s = .next t ∧ t.soTx = s.soTx ++ [r] ∧ r.kind = 3 ∧ r.psn = p.psn ∧ ofConnection s c r ∧ t.mem = s.mem) ∧
      (2 ^ 31 ≤ (p.psn - c.expect).toNat → s.soHeld p = false → ∃ t a, exec .scaleoutData s = .next t ∧ t.soTx = s.soTx ++ [a] ∧ a.kind = 2 ∧ a.ackpsn = c.expect ∧ ofConnection s c a ∧ t.mem = s.mem)) ∧
    (p.kind = 2 → c.onChip = true → c.st = .opened → (∀ o ∈ c.sends, o.formed = o.packets) →
      ∃ t, exec .scaleoutAck s = .next t ∧ (t.conn n).map (·.unacked) = some (c.unacked.filter (fun q => !soCovers p q)) ∧ t.mem = s.mem ∧
        ∀ o d, o ∈ c.sends → (∀ q ∈ c.unacked, q.msn = o.msn → soCovers p q = true) → s.cmd o.cmd = some d → d.st ≠ .finished → (t.cmd o.cmd).map (fun x => (x.st, x.code, x.err)) = some (.finished, 0, false)) ∧
    (p.kind = 3 → c.onChip = true → c.st = .opened → (∃ q ∈ c.unacked, q.psn = p.psn) →
      ∃ t, exec .rnr s = .next t ∧ (t.conn n).map (·.rnr) = some (some (match c.rnr with
          | some r => if (p.psn - r).toNat < 2 ^ 31 then r else p.psn
          | none => p.psn)) ∧
        ((∀ x ∈ s.agenda, x.ev ≠ .rnrResend n) → ⟨s.ticks + 20000, .rnrResend n⟩ ∈ t.agenda) ∧ t.mem = s.mem))

/-- R84, R87 to R90, R242: a request of the host, none of whose lines is latched against it: one that fails a check is refused by a NACK with the status of the first that fails; DRD is answered with the bytes, sealed where the link is bound, DWR with a DWRA once its bytes stand at the home slices, NOTE writes, adds to or raises its cell in one step, and RPLY fills the reply slot of a live record that awaits it. The order of two failing checks and the conditions of RPLY are the model's reading (log entry 18). -/
def Obligations.host_requests : Prop :=
  ∀ (s : State) (p : Packet) (k : Nat) (rest : List (Nat × Packet)), s.trayRx = (k, p) :: rest → s.trayBlocked k p = false → k < s.tray.length →
    let u := trayTaken s rest
    let a := p.asid.toNat
    let nack (st : BitVec 8) : Packet := { Packet.zero with kind := 0x0C, tag := p.tag, op := st }
    (∀ i n w bad st, (p.kind = 0x05 ∧ i = .drd ∧ n = p.len ∧ w = false ∧ bad = (fun _ => false)) ∨ (p.kind = 0x07 ∧ i = .dwr ∧ n = p.payload.length ∧ w = true ∧ bad = (fun _ => false)) ∨
        (p.kind = 0x09 ∧ i = .trayNote ∧ n = 8 ∧ w = true ∧ bad = noteBad p) ∨ (p.kind = 0x0A ∧ i = .rply ∧ n = 1024 ∧ w = false ∧ bad = (fun _ => false)) →
      hostRefusal u k p n w bad = some st → ∃ t, exec i s = .next t ∧ traySent s t k (nack st) ∧ t.mem = s.mem) ∧
    (p.kind = 0x05 → ∀ segs, u.hostCheck k p p.len false false (fun _ => false) = .ok segs → u.segsGone segs = false →
      ∃ t, exec .drd s = .next t ∧ traySent s t k { Packet.zero with kind := 0x06, tag := p.tag, len := p.len, payload := s.sealTo a k (segs.flatMap (fun x => s.rd (s.keyOf a) x.1 x.2)) } ∧ t.mem = s.mem) ∧
    (p.kind = 0x07 → ∀ x n, s.mem.wf = true → s.queues = [] → u.hostCheck k p p.payload.length true true (fun _ => false) = .ok [(x, n)] → u.segsGone [(x, n)] = false → p.payload.length = n →
      ∃ t, exec .dwr s = .next t ∧ traySent s t k { Packet.zero with kind := 0x08, tag := p.tag } ∧ (∀ j, j < n → t.mem.get (x + j) = p.payload.getD j 0) ∧ ∀ y, y < x ∨ x + n ≤ y → t.mem.get y = s.mem.get y) ∧
    (p.kind = 0x09 → ∀ x n more, s.mem.wf = true → s.queues = [] → u.hostCheck k p 8 true true (noteBad p) = .ok ((x, n) :: more) → u.segsGone ((x, n) :: more) = false →
      let old := littleEndian (s.rd (s.keyOf a) x 8)
      let v := littleEndian (p.payload.take 8)
      let op := (p.payload.getD 8 0).toNat
      ∃ t, exec .trayNote s = .next t ∧ t.mem.num x 8 = (if op = 0 then v else if op = 1 then old + v else max old v) % 2 ^ 64 ∧ (∀ y, y < x ∨ x + 8 ≤ y → t.mem.get y = s.mem.get y) ∧
        ∀ id f b, s.fib id = some f → f.wait = .cell x b → b = true → t.fib id = some { f with wait := .none }) ∧
    (p.kind = 0x0A → ∀ segs, u.hostCheck k p 1024 true false (fun _ => false) = .ok segs → u.segsGone segs = false →
      let r := p.off.toNat / 1024
      let w := u.recWord a r
      let n := p.payload.length - 8
      let fits : Bool := decide (8 ≤ p.payload.length) && decide (n ≤ 64) && p.off.toNat % 1024 == 0 && p.obj.toNat == u.heapObj a && u.isRecord a r && recState w == stLive && recSerial w == littleEndian (p.payload.take 4) && recReply w == 1
      (fits = false → ∃ t, exec .rply s = .next t ∧ traySent s t k (nack 0x44) ∧ t.mem = s.mem) ∧
      ∀ q, fits = true → u.segPA a r = some q →
        exec .rply s = .next (((((u.put (u.keyOf a) (addrs (q + 0x70) (p.payload.drop 8))).segSet a r 0x60 2 n).setRecWord a r (recSerial w) 2 stLive)).replyReady a r))

/-- R84 to R86, R99: the answer to a request to the host ends it: bytes of HRDR reach the fibres that wait for them, or the copy or tile they are for; HWRA ends a store or a copy's piece; a NACK, and 100 µs without an answer, make a load perform 0x0D0, mark a store as lost, and end a command with the status or with 0x15; over a working link the tag of a request that timed out stays in use. A DOE message sets or drops the keys of an IDE stream, or moves a TDI to the state it names; a measurement that the device offers is answered signed. What a NACK of the host does to a load or store, and the order inside measurement 3, are the model's (log entries 4 and 18). -/
def Obligations.host_answers : Prop :=
  (∀ (s : State) (p : Packet) (k : Nat) (rest : List (Nat × Packet)) (x : HTx), s.trayRx = (k, p) :: rest → s.htxOf k p.tag.toNat = some x →
    let ended (t : State) : Prop := t.htxs = s.htxs.filter (fun y => !(y.link == x.link && y.tag == x.tag)) ∧ t.mem = s.mem
    let cut (n : Nat) (t : State) : Prop :=
      t.htxs = (s.htxs.filter (fun y => !(y.link == x.link && y.tag == x.tag))).map (fun y => if y.kind.isOf n then { y with kind := .gone } else y) ∧ t.mem = s.mem
    (p.kind = 0x02 →
      (∀ f off, x.kind = .load f off → ∃ t, exec .hrdr s = .next t ∧ ended t ∧
        ∀ id g, s.fib id = some g → t.fib id = some (if g.wait = .host x.link x.tag then { g with wait := .none, resp := some (g.resp.getD [] ++ p.payload) } else g)) ∧
      (∀ n off len c, x.kind = .engine n off len → s.cmd n = some c → ∃ t, exec .hrdr s = .next t ∧ ended t ∧ t.cmd n = some { c with buf := c.buf ++ [(off, p.payload)] }) ∧
      ∀ n off len y, x.kind = .tile n off len → s.tile n = some y → ∃ t, exec .hrdr s = .next t ∧ ended t ∧
        t.tile n = some { y with data := y.data.take off ++ p.payload ++ y.data.drop (off + p.payload.length), count := y.count + len }) ∧
    (p.kind = 0x04 →
      (∀ f off, x.kind = .store f off → ∃ t, exec .hwra s = .next t ∧ ended t ∧ ∀ id, t.fib id = s.fib id) ∧
      ∀ n off len c, x.kind = .engine n off len → s.cmd n = some c → ∃ t, exec .hwra s = .next t ∧ ended t ∧ t.cmd n = some { c with cuts := c.cuts ++ [(off, len)] }) ∧
    (p.kind = 0x0C →
      (∀ f off g, x.kind = .load f off → s.allFibres.filter (fun z => z.2.wait == .host x.link x.tag) = [(f, g)] →
        exec .trayNack s = .next ((((trayTaken s rest).modFib f (fun h => { h with wait := .none })).raise f (Eff.fault 0x0D0 off g.pc none)).dropHtx x)) ∧
      (∀ f off g, x.kind = .store f off → s.fib f = some g → ∃ t, exec .trayNack s = .next t ∧ ended t ∧ t.fib f = some { g with lost := g.lost ||| 2 }) ∧
      ∀ n off len c, x.kind = .engine n off len → s.cmd n = some c → c.st ≠ .finished → c.exch = false → p.op ≠ 0 →
        ∃ t, exec .trayNack s = .next t ∧ cut n t ∧ t.cmd n = some { c with st := .finished, code := p.op, err := true, count := c.reached })) ∧
  (∀ (s : State) (k : Fin 4) (tag : BitVec 10) (x : HTx), s.htxOf k.val tag.toNat = some x →
    (∀ n off len c, x.kind = .engine n off len → s.cmd n = some c → c.st ≠ .finished → c.exch = false → x.issued + 100000 ≤ s.ticks → (s.trayOf x.link).failed = false →
      ∃ t, exec (.hostRequestTimeout k tag) s = .next t ∧ t.mem = s.mem ∧ t.htxOf k.val tag.toNat = some { x with kind := .gone, len := 0 } ∧ t.cmd n = some { c with st := .finished, code := 0x15, err := true, count := c.reached }) ∧
    (∀ f off g, x.kind = .load f off → x.issued + 100000 ≤ s.ticks → s.allFibres.filter (fun z => z.2.wait == .host x.link x.tag) = [(f, g)] →
      exec (.hostRequestTimeout k tag) s = .next (((s.modFib f (fun h => { h with wait := .none })).raise f (Eff.fault 0x0D0 off g.pc none)).leaveHtx x false)) ∧
    (s.ticks < x.issued + 100000 → (s.trayOf x.link).failed = false → exec (.hostRequestTimeout k tag) s = .next s)) ∧
  ∀ (s : State) (nonce : List Byte), s.mg.mgmt = true →
    (∀ (stream : Fin 5) on, ∃ t, exec (.doeMessage (.ide stream on) nonce) s = .next t ∧ (∀ j : Fin 5, t.ide.getLsbD j.val = if j = stream then on else s.ide.getLsbD j.val) ∧ t.mem = s.mem) ∧
    (∀ i : Fin 64, i.val < s.tdis.length → ((s.tdi i.val).st = .unlocked → ∃ t, exec (.doeMessage (.lock i true) nonce) s = .next t ∧ (t.tdi i.val).st = .locked ∧ t.mem = s.mem) ∧
      (∃ t, exec (.doeMessage (.lock i false) nonce) s = .next t ∧ (t.tdi i.val).st = .unlocked) ∧ ∃ t, exec (.doeMessage (.fail i) nonce) s = .next t ∧ (t.tdi i.val).st = .error) ∧
    ∀ (i : Nat) (d : BitVec 512), (i = 1 ∧ d = Config.sha512 Config.bootRom) ∨ (i = 2 ∧ d = s.mg.imageDigest) ∨
      (i = 4 ∧ d = if s.mg.raised then Config.sha512 (s.mg.accept.flatMap (fun w => natBytes 4 w.toNat)) else 0) →
    exec (.doeMessage (.measure i) nonce) s = .next (s.toMgmt (.attest d (Config.ed25519Sign (nonce ++ natBytes 64 d.toNat))))

/-- R25, R28, R29, R31: a lane sends a codeword every 85 ns: one that was asked for again, else the next twenty flits, taken from packets for which the pair holds credit; an acknowledgement frees the codewords up to it, a replay message marks those from it on; credit comes back; an intact codeword in sequence is acknowledged and its sideband message delivered, one received before is acknowledged again, a bad one is counted and asked for again. A packet's header flit gives the packet back. The credit granted at training is a free value (log entry 2); where CMIG carries its granule tags is the model's (log entry 30). -/
def Obligations.lane_events : Prop :=
  (∀ (s : State) (p : Fin 64) (l : Fin 16) (y : Lane), (s.pair p.val).lane l.val = some y → y.locked = true → (s.pair p.val).failedNow = false →
    ∃ t, exec (.laneCodewordSend p l) s = .next t ∧ ⟨s.ticks + 85, .laneCodewordSend p l⟩ ∈ t.agenda ∧ t.mem = s.mem ∧ t.wgs = s.wgs ∧
      ((∀ c ∈ y.replay, c.replay = false) → 20 ≤ y.txFlits.length ∨ s.takeNext p.val = none → (t.pair p.val).lane l.val =
        some { y with nextSeq := y.nextSeq + 1, txFlits := y.txFlits.drop 20, sbQ := y.sbQ.drop 1, replay := y.replay ++ [⟨y.nextSeq, false, y.txFlits.take 20, y.sbQ.headD ⟨0, 0⟩⟩] }) ∧
      (∀ k q, (∀ c ∈ y.replay, c.replay = false) → y.txFlits = [] → s.pairUse p.val = .fabric q → s.txq = [k] → s.hop k = q → k.vc = false → (packetFlits k).length ≤ (s.pair p.val).credit0 →
        t.txq = [] ∧ (t.pair p.val).credit0 = (s.pair p.val).credit0 - (packetFlits k).length ∧ ((t.pair p.val).lane l.val).map (·.txFlits) = some ((packetFlits k).drop 20) ∧
        ((t.pair p.val).lane l.val).map (·.replay) = some (y.replay ++ [⟨y.nextSeq, false, (packetFlits k).take 20, y.sbQ.headD ⟨0, 0⟩⟩])) ∧
      (∀ c, y.replay.find? (·.replay) = some c → (t.pair p.val).lane l.val = some { y with replay := y.replay.map (fun d => if d.seq == c.seq then { d with replay := false } else d) })) ∧
  (∀ (s : State) (k ln : Nat) (m : Sideband) (rest : List (Nat × Nat × Sideband)), s.sbRx = (k, ln, m) :: rest →
    (m.type.toNat = 0 → exec .idle s = .next (sidebandTaken s rest)) ∧
    (∀ y c before after, (s.pair k).lane (m.body.toNat / 4096) = some y → y.replay = before ++ c :: after → c.seq = m.body.setWidth 12 → (∀ d ∈ before, d.seq ≠ c.seq) →
      (m.type.toNat = 1 → ∃ t, exec .laneAcknowledgement s = .next t ∧ ((t.pair k).lane (m.body.toNat / 4096)).map (·.replay) = some after ∧ t.mem = s.mem ∧ t.wgs = s.wgs) ∧
      (m.type.toNat = 2 → ∃ t, exec .laneReplay s = .next t ∧ (t.pair k).lane (m.body.toNat / 4096) = some { y with replay := before ++ (c :: after).map (fun d => { d with replay := true }) } ∧ t.mem = s.mem ∧ t.wgs = s.wgs)) ∧
    (m.type.toNat = 3 → ∃ t, exec .creditReturn s = .next t ∧ (t.pair k).credit0 = (s.pair k).credit0 + (if m.body.getLsbD 15 then 0 else m.body.toNat % 32768) ∧
      (t.pair k).credit1 = (s.pair k).credit1 + (if m.body.getLsbD 15 then m.body.toNat % 32768 else 0) ∧ (t.pair k).lanes = (s.pair k).lanes)) ∧
  (∀ (s : State) (p : Fin 64) (l : Fin 16) (y : Lane) (cw : Codeword), (s.pair p.val).lane l.val = some y → y.locked = true → (s.pair p.val).failedNow = false →
    let ack : Sideband := ⟨1, BitVec.ofNat 16 (l.val * 4096 + cw.seq.toNat)⟩
    let again : Sideband := ⟨2, BitVec.ofNat 16 (l.val * 4096 + y.rxSeq.toNat)⟩
    (cw.seq = y.rxSeq → cw.flits = [] → y.rxFlits = [] → ∃ t, exec (.codewordReceive p l cw true) s = .next t ∧ ((t.pair p.val).lane l.val).map (fun z => (z.rxSeq, z.discarding)) = some (y.rxSeq + 1, false) ∧ queuedOn t p.val ack ∧
      t.sbRx = (if cw.msg.type.toNat < 8 then s.sbRx ++ [(p.val, l.val, cw.msg)] else s.sbRx)) ∧
    (cw.seq ≠ y.rxSeq → (y.rxSeq - cw.seq).toNat < 2048 → ∃ t, exec (.codewordReceive p l cw true) s = .next t ∧ queuedOn t p.val ack ∧ t.rxq = s.rxq ∧ t.sbRx = s.sbRx) ∧
    (y.discarding = false → cw.seq ≠ y.rxSeq → 2048 ≤ (y.rxSeq - cw.seq).toNat →
      ∃ t, exec (.codewordReceive p l cw true) s = .next t ∧ queuedOn t p.val again ∧ ((t.pair p.val).lane l.val).map (·.discarding) = some true ∧ t.rxq = s.rxq ∧ t.sbRx = s.sbRx) ∧
    let unc := if (s.pair p.val).frame = s.frameNum then (s.pair p.val).uncNow else 0
    ∃ t, exec (.codewordReceive p l cw false) s = .next t ∧ queuedOn t p.val again ∧ ((t.pair p.val).lane l.val).map (·.discarding) = some true ∧ (t.pair p.val).uncNow = unc + 1 ∧ t.rxq = s.rxq ∧ t.sbRx = s.sbRx ∧
      (16 ≤ unc + 1 → ⟨s.ticks, .pairFailure ⟨p, 0⟩⟩ ∈ t.agenda)) ∧
  ∀ p : Packet, p.len < 1024 → p.sched = false → (p.kind = 0x01 ∨ p.kind = 0x0C → p.coff = 0) → (p.kind = 0x10 → p.gtags.length = 32 ∧ p.op = 0 ∧ p.coff.toNat % 512 = 0 ∧ p.coff.toNat < 2 ^ 33) → (p.kind ≠ 0x10 → p.gtags = []) → headerPacket (headerFlit p) p.payload = p

/-- R16, R26, R27, R41, R42: a pair that fails is marked, each lane that lost lock shows it, and it gets a spare after 50 µs while there is one; the spare takes its use over, its lanes locked anew; the link status words are refreshed from the pairs, with the uncorrectable codewords of the last house frame; liveness and link state is sent every microsecond on every working pair, and taken in as it comes. R43, R106, R150: a barrier arrival from its origin that is meant for this package counts at the bound unit of its phase, and is held without one; one meant for another is repeated to it, and counts nowhere here; at a house frame's start the last run is forgotten; the fourth message of a run completes it, and with the run sent and both received, fabric time is set right by half the difference, at once before FULL, by slewing after it. R50, R51, R65: the acting primary, the primary or the standby sends its heartbeat on every working pair, with its role and the next sequence number, every 10 µs; a primary's heartbeat is noted, an acting primary's silences this table; a standby that has heard no primary for 30 µs acts. What a failing pair loses, and when a dead peer counts as alive again, are the model's (log entries 27 and 31). -/
def Obligations.link_and_node_events : Prop :=
  ((∀ (s : State) (p : Fin 64) (lost : BitVec 16), (s.pair p.val).failedNow = false → (s.pair p.val).lanes ≠ [] → ∃ t, exec (.pairFailure ⟨p, lost⟩) s = .next t ∧ (t.pair p.val).failedNow = true ∧ (t.pair p.val).spareNow = false ∧
    (t.pair p.val).lanes.map (fun x => (x.1, x.2.locked)) = (s.pair p.val).lanes.map (fun x => (x.1, x.2.locked && !lost.getLsbD x.1)) ∧
    (s.pairUse p.val ≠ .spare → s.spares < 2 → t.spares = s.spares + 1 ∧ (t.pair p.val).substituting ≠ none ∧ ⟨s.ticks + 50000, .spareSubstitution p⟩ ∈ t.agenda) ∧ (2 ≤ s.spares → t.spares = s.spares)) ∧
  (∀ (s : State) (p : Fin 64), (s.pair p.val).substituting ≠ none → ∃ t, exec (.spareSubstitution p) s = .next t ∧ (t.pair p.val).works = true ∧ (t.pair p.val).spareNow = true ∧ (t.pair p.val).substituting = none) ∧
  (∀ s : State, ∃ t, exec .linkstatRefresh s = .next t ∧ ⟨s.ticks + 1024000, .linkstatRefresh⟩ ∈ t.agenda ∧ t.mem = s.mem ∧ ∀ k v, (k, v) ∈ s.pairs → (v.lanes.map (·.1)).Nodup → (∀ l ∈ v.lanes, l.1 < 16) →
    let last := if v.frame = s.frameNum then v.uncLast else if v.frame + 1 = s.frameNum then v.uncNow else 0
    ∃ w z, (k, z) ∈ t.pairs ∧ z.linkstat = w ∧ z.lanes = v.lanes ∧ z.uncLast = last ∧ w.getLsbD 31 = (v.failedNow && !v.spareNow) ∧ w.getLsbD 30 = v.spareNow ∧ w.toNat / 65536 % 4096 = min last 0xFFF ∧
      ∀ j, j < 16 → w.getLsbD j = v.lanes.any (fun l => l.1 == j && l.2.locked)) ∧
  (∀ s : State, ∃ t, exec .livenessSend s = .next t ∧ ⟨s.ticks + 1000, .livenessSend⟩ ∈ t.agenda ∧ beatOn s t ⟨5, s.linkMask⟩ ∧ (∀ q, q < 16 → s.linkMask.getLsbD q = (q != s.pos && s.direct q))) ∧
  ∀ (s : State) (k l q : Nat) (m : Sideband) (rest : List (Nat × Nat × Sideband)), s.sbRx = (k, l, m) :: rest → m.type.toNat = 5 → peerOfPair s.pos k = some q → q < s.peers.length →
    ∃ t, exec .livenessAndLinkState s = .next t ∧ t.sbRx = rest ∧ (t.peer q).pairsTo = m.body ∧ (∀ r, r ≠ q → t.peer r = s.peer r) ∧ t.mem = s.mem ∧ t.wgs = s.wgs) ∧
  ((∀ (s : State) (k l q : Nat) (m : Sideband) (rest : List (Nat × Nat × Sideband)), s.sbRx = (k, l, m) :: rest → m.type.toNat = 4 → peerOfPair s.pos k = some q → m.body.toNat / 16 % 16 = q → q ≠ s.pos →
    let v := (sidebandTaken s rest).modPeer q (fun p => { p with lastHeard := s.ticks })
    let lvl := if m.body.getLsbD 15 then 8 else 7
    let num := if m.body.getLsbD 14 then 1 else 0
    let r := m.body.toNat % 16
    (r ≠ s.pos → r ≠ q → ∃ t, exec .barrierArrival s = .next t ∧ (∀ j ∈ pairsOf s.pos r, (s.pair j).works = true → queuedOn t j ⟨4, m.body &&& 0xE0FF⟩) ∧ t.units = s.units ∧ t.heldArrivals = s.heldArrivals ∧ t.wgs = s.wgs) ∧
    (∀ u, r = s.pos → s.units.find? (fun u => u.level == lvl && u.num == num) = some u → u.mask.getLsbD q = true → u.phase = m.body.getLsbD 13 →
      exec .barrierArrival s = .next ((v.modUnit u.launch lvl num (fun x => { x with seen := x.seen ||| ((1 : BitVec 16) <<< q) })).settleBarriers u.launch)) ∧
    (r = s.pos → s.units.find? (fun u => u.level == lvl && u.num == num) = none → ∃ t, exec .barrierArrival s = .next t ∧ ⟨lvl, num, m.body.getLsbD 13, q⟩ ∈ t.heldArrivals ∧ t.units = s.units ∧ t.wgs = s.wgs)) ∧
  (∀ s : State, ∃ t, exec .nodeTimeSync s = .next t ∧ t.sync.t1 = none ∧ t.sync.t2 = none ∧ t.sync.t3 = none ∧ t.sync.run = [] ∧ t.ftime = s.ftime ∧ ⟨(s.fabric / 1024000 + 1) * 1024000 + s.epoch, .nodeTimeSync⟩ ∈ t.agenda ∧ t.mem = s.mem ∧ t.wgs = s.wgs) ∧
  ∀ (s : State) (k l q began : Nat) (m : Sideband) (rest : List (Nat × Nat × Sideband)) (a b c : BitVec 16), s.sbRx = (k, l, m) :: rest → m.type.toNat = 6 → peerOfPair s.pos k = some q →
    (s.sync.run = [] → ∃ t, exec .timeSynchronisation s = .next t ∧ t.sync.run = [(k, s.fabric, [m.body])] ∧ t.ftime = s.ftime) ∧
    ∀ t1 t2 t3, s.sync.run = [(k, began, [a, b, c])] → s.timeUp = some q → s.sync.t1 = some t1 → s.sync.t2 = some t2 → s.sync.t3 = some t3 →
      let d := timeOffset t1 t2 t3 (((a.toNat * 65536 + b.toNat) * 65536 + c.toNat) * 65536 + m.body.toNat)
      ∃ t, exec .timeSynchronisation s = .next t ∧ t.sync.run = [] ∧ t.sync.t1 = none ∧ t.mem = s.mem ∧ t.wgs = s.wgs ∧
        (s.mg.full = false → t.ftime = BitVec.ofInt 64 ((s.ftime.toNat : Int) - d)) ∧ (s.mg.full = true → t.ftime = s.ftime ∧ t.sync.slew = s.sync.slew - d)) ∧
  ((∀ s : State, ∃ t, exec .heartbeatSend s = .next t ∧ ⟨s.ticks + 10000, .heartbeatSend⟩ ∈ t.agenda ∧ t.mem = s.mem ∧ t.wgs = s.wgs ∧
    (s.ftSilenced = true → t.ft = s.ft ∧ t.pairs = s.pairs) ∧
    (s.ftSilenced = false → s.ft.acting = true ∨ s.livePositions.head? = some s.pos ∨ s.ftStandby = true → t.ft.seq = s.ft.seq + 1 ∧
      beatOn s t ⟨7, BitVec.ofNat 16 ((if s.ft.acting then 1 else if s.livePositions.head? = some s.pos then 0 else 2) * 16384 + (s.ft.seq + 1).toNat)⟩)) ∧
  (∀ (s : State) (k l q : Nat) (m : Sideband) (rest : List (Nat × Nat × Sideband)), s.sbRx = (k, l, m) :: rest → m.type.toNat = 7 → m.body.toNat / 16384 < 2 → peerOfPair s.pos k = some q →
    ∃ t, exec .foldingTableHeartbeat s = .next t ∧ t.sbRx = rest ∧ t.ft.lastPrimary = s.ticks ∧ ⟨s.ticks + 30000, .standbyTakeover⟩ ∈ t.agenda ∧
      (m.body.toNat / 16384 = 1 → t.ft.silenced = some q ∧ t.ft.acting = false) ∧ (m.body.toNat / 16384 = 0 → t.ft.silenced = s.ft.silenced ∧ t.ft.acting = s.ft.acting)) ∧
  ∀ s : State, s.ftStandby = true → s.ft.acting = false →
    (s.ft.lastPrimary + 30000 ≤ s.ticks → ∃ t, exec .standbyTakeover s = .next t ∧ t.ft.acting = true ∧ t.ft.seq = s.ft.seq + 1 ∧ t.mem = s.mem) ∧
    (s.ticks < s.ft.lastPrimary + 30000 → exec .standbyTakeover s = .next s))

/-- R94 to R98, R102, R103: power-good starts with nothing in memory or running, the healthy pair on the lowest die leading, or BOOTERR 0x07 without one; a trained PCI Express link sets MGMT and starts the sequence on the image in flash; FWGO does so on the staged image and RESET anew on that in flash; calibration follows an image that is taken, and marks the pairs that do not lock, or ends with a clock or a stack that fails; memory comes up die by die, die 0 first, giving LIMITED, and a failure after it bars FULL; ACCEPT words are taken, masked with the offer, until FULL; RAISE, honoured in step 4 once every ACCEPT word is written, leads to FULL. What a restart keeps, and how long an unfinished look waits before the next one, are the model's (log entries 7 and 23). -/
def Obligations.bring_up_events : Prop :=
  (∀ (s : State) (h : BitVec 4) (b : BootReport), ∃ t, exec (.powerGood ⟨h, b⟩) s = .next t ∧ t.boot = b ∧ t.mem = Mem.empty ∧ nothingRuns t ∧ t.mg.mgmt = false ∧ t.mg.limited = false ∧ t.mg.full = false ∧ t.mg.step = 0 ∧ t.mg.flash = s.mg.flash ∧
    (h = 0 → t.mg.booterr = 7) ∧ ∀ d, d < 4 → h.getLsbD d = true → (∀ e, e < d → h.getLsbD e = false) → t.mg.leader.toNat = d ∧ t.mg.booterr = 0) ∧
  (∀ s : State, ∃ t, exec .pcieLinkTrained s = .next t ∧ t.mg.mgmt = true ∧ t.mem = s.mem ∧ (s.mg.mgmt = false → s.healthy ≠ [] → imageTaken t (imageCode s s.mg.flash))) ∧
  (∀ s : State, s.mg.mgmt = true → s.healthy ≠ [] → s.takeover = none →
    (s.mg.step = 1 ∨ s.mg.step = 15 → ∃ t, exec .ctrlFwgo s = .next t ∧ nothingRuns t ∧ imageTaken t (imageCode s s.stagedImage)) ∧
    ∃ t, exec .ctrlReset s = .next t ∧ nothingRuns t ∧ t.mg.limited = false ∧ t.mg.full = false ∧ imageTaken t (imageCode s s.mg.flash)) ∧
  (∀ s : State, s.mg.step = 2 →
    (s.boot.clocks = false → ∃ t, exec .recalibration s = .next t ∧ t.mg.step = 15 ∧ t.mg.booterr = 4) ∧
    (s.boot.clocks = true → ∃ t, exec .recalibration s = .next t ∧ t.mem = s.mem ∧ t.dies = (List.range 4).map (fun d => ⟨false, [0, 1, 2].any (fun k => s.boot.untrained.getLsbD (3 * d + k))⟩) ∧
      (s.boot.untrained = 0 → t.mg.step = 3 ∧ t.mg.booterr = s.mg.booterr) ∧ (s.boot.untrained ≠ 0 → t.mg.step = 15 ∧ t.mg.booterr = 5) ∧
      ∀ p ∈ (List.range 13).map portPair ++ (List.range 4).map trayPair, if s.boot.dark.getLsbD p = true then (t.pair p).failedNow = true else (t.pair p).works = true)) ∧
  (∀ (s : State) (d : Fin 4) (x : DieState), s.dies[d.val]? = some x → x.initialised = false → x.unusable = false → s.power.stopped = false → s.mg.step = 3 ∨ s.mg.step = 4 →
    (d.val ≠ 0 → s.mg.limited = false → ∀ ok, exec (.dieMemoryInitialised d ok) s = .next (s.later 1000000 (.dieMemoryInitialised d ok))) ∧
    (d.val = 0 ∨ s.mg.limited = true → (∃ t, exec (.dieMemoryInitialised d false) s = .next t ∧ t.mg.step = 15 ∧ t.mg.booterr = 6 ∧ t.dies[d.val]? = some ⟨false, true⟩ ∧ t.mg.limited = s.mg.limited ∧ t.mg.noFull = s.mg.limited ∧ t.mem = s.mem) ∧
    (s.mg.raised = false → ∃ t, exec (.dieMemoryInitialised d true) s = .next t ∧ t.dies[d.val]? = some ⟨true, false⟩ ∧ (d.val = 0 → t.mg.limited = true ∧ t.mg.step = 4) ∧
      ∀ a, t.mem.get a = (if a / Config.dieBytes = d.val then 0 else s.mem.get a)))) ∧
  (∀ (s : State) (i : Fin 4) (v : Word), s.mg.mgmt = true → s.mg.full = false → ∃ t, exec (.acceptWrite i v) s = .next t ∧ t.mg.accept = s.mg.accept.set i.val (if i.val = 0 then v &&& Config.offer0 else 0) ∧
    t.mg.acceptWritten = s.mg.acceptWritten.set i.val true) ∧
  (∀ s : State, s.mg.noFull = true → s.takeover = none → exec .ctrlRaise s = .next s) ∧
  ∀ s : State, s.mg.mgmt = true → s.power.stopped = false → s.mg.noFull = false → s.takeover = none → s.mg.step = 4 → (∀ b ∈ s.mg.acceptWritten, b = true) → ∃ t, exec .ctrlRaise s = .next t ∧ t.mg.raised = true ∧
    ((∀ x ∈ s.dies, x.initialised = true) → fullSet s t) ∧ ((∃ x ∈ s.dies, x.initialised = false) → t.mg.full = s.mg.full)

/-- R22, R94, R96, R102, R109, R110: a management access that is not of four aligned bytes is aborted; one to CTRL does as its event, one to PWRSTAT clears the sticky bits written as 1, one to FWSTAGE stages four bytes, and one to a read-only or unlisted register nothing; a lockstep mismatch takes a service pair out of service; the leader beats every 100 µs, and after 300 µs without a beat the healthy pair on the lowest die begins to take over: the old leader is stopped for good, and once the fence is through the new leader is named, which is logged and told, the migrations in progress start again, and it beats. R20 to R22, R104, R105, R107, R108: the house frame's tasks recur in their slots, patrol visits in slots 41 to 52 and sampling in slot 57; a patrol finding that was not corrected makes its sector unreadable, and each finding is logged, as is each lost sector that a visit passes; sensor values stand in PWRSTAT; at 115 °C in a junction or 105 °C in a stack every clock stops, nothing runs any more, and FULL and LIMITED are clear; the throttle state moves by one towards its target, and the evaluation sets the target that the triggers demand. The time of a takeover and the UNIT of a finding are the model's (log entries 16 and 23). -/
def Obligations.management_and_power_events : Prop :=
  ((∀ (s : State) (off size : Nat) (v : Word), s.mg.mgmt = true →
    (size ≠ 4 ∨ off % 4 ≠ 0 → exec (.mgmtRegisterWrite off size v) s = .next (s.toMgmt (.completerAbort off))) ∧
    (off = 0x0004 → size = 4 → s.takeover = none → (v.toNat % 8 ∉ [1, 2, 4] → exec (.mgmtRegisterWrite off size v) s = .next s) ∧ (v.toNat % 8 = 1 → exec (.mgmtRegisterWrite off size v) s = exec .ctrlRaise s) ∧ (v.toNat % 8 = 2 → exec (.mgmtRegisterWrite off size v) s = exec .ctrlFwgo s) ∧
      (v.toNat % 8 = 4 → exec (.mgmtRegisterWrite off size v) s = exec .ctrlReset s)) ∧
    (∀ i : Fin 4, off = 0x0020 + 4 * i.val → size = 4 → exec (.mgmtRegisterWrite off size v) s = exec (.acceptWrite i v) s) ∧
    (off = 0x0400 → size = 4 → ∃ t, exec (.mgmtRegisterWrite off size v) s = .next t ∧ t.mem = s.mem ∧ ∀ k, k < 32 → t.mg.pwrstat.getLsbD k = (s.mg.pwrstat.getLsbD k && !(decide (4 ≤ k ∧ k < 8) && v.getLsbD k))) ∧
    (∀ a, a % 4 = 0 → a < 0xF00000 → off = 0x100000 + a → size = 4 → ∃ t, exec (.mgmtRegisterWrite off size v) s = .next t ∧ t.mem = s.mem ∧
      (∀ j, j < 4 → cellsOk none s.mg.fwstage = true → cellsGet t.mg.fwstage (a + j) = BitVec.ofNat 8 (v.toNat / 256 ^ j))) ∧
    (off % 4 = 0 → size = 4 → off ≠ 0x0004 → (off < 0x0020 ∨ 0x0030 ≤ off) → off ≠ 0x0400 → off < 0x100000 → exec (.mgmtRegisterWrite off size v) s = .next s)) ∧
  (∀ (s : State) (d : Fin 4) (x : SvcPair), s.svc[d.val]? = some x → ∃ t, exec (.lockstepMismatch d) s = .next t ∧ t.svc = s.svc.set d.val { x with healthy := false } ∧ t.mem = s.mem ∧ t.mg = s.mg) ∧
  (∀ (s : State) (x : SvcPair), s.svc[s.mg.leader.toNat]? = some x → x.healthy = true → ∃ t, exec .leaderBeat s = .next t ∧ ⟨s.ticks + 100000, .leaderBeat⟩ ∈ t.agenda ∧ (∀ y ∈ t.svc, y.lastBeat = s.ticks) ∧
    t.svc.map (·.healthy) = s.svc.map (·.healthy) ∧ t.mg = s.mg ∧ t.mem = s.mem) ∧
  (∀ (s : State) (d : Nat) (x : SvcPair), s.takeover = none → s.svc[d]? = some x → s.heir = some d →
    (s.ticks < x.lastBeat + 300000 → exec .leaderTakeover s = .next (s.at (x.lastBeat + 300000) .leaderTakeover)) ∧
    (x.lastBeat + 300000 ≤ s.ticks → ∃ t, exec .leaderTakeover s = .next t ∧ t.takeover = some d ∧ t.mg = s.mg ∧ t.mem = s.mem ∧ ⟨s.ticks + 36000, .leaderTakeover⟩ ∈ t.agenda ∧
      ∀ y, s.svc[s.mg.leader.toNat]? = some y → t.svc[s.mg.leader.toNat]? = some { y with healthy := false, fenced := true })) ∧
  ∀ (s : State) (d : Nat), s.takeover = some d → d < 4 → ∃ t, exec .leaderTakeover s = .next t ∧ t.takeover = none ∧ t.mg.leader.toNat = d ∧ .msix 1 ∈ t.mgmtOut ∧ t.mg.errhead = (s.mg.errhead + 1) % 32 ∧ t.mem = s.mem ∧
    t.svc.map (fun y => (y.healthy, y.fenced)) = s.svc.map (fun y => (y.healthy, y.fenced)) ∧ (∀ m ∈ s.migrs, ⟨s.ticks, .regionMigration m.grant⟩ ∈ t.agenda) ∧ ⟨s.ticks, .leaderBeat⟩ ∈ t.agenda ∧
    (s.mg.errhead < s.mg.errlog.length → (t.mg.errlog[s.mg.errhead]?).map (fun e => (e.toNat % 16, e.toNat / 16 % 16, e.toNat / 2 ^ 40)) = some (5, 6, s.fabric / 1024 % 2 ^ 24))) ∧
  ((∀ s : State, ∃ t, exec .hbmRefresh s = .next t ∧ t.house.refreshed = (List.range 12).map (fun k => s.house.refreshed.getD k 0 + (if 85 < s.power.readings.hbm.getD k 0 then 2 else 1)) ∧ inSlots s t .hbmRefresh 1 40 ∧ t.mem = s.mem) ∧
  (∀ s : State, s.mg.step ≠ 2 → ∃ t, exec .recalibration s = .next t ∧ t.house.trims = s.house.trims + 1 ∧ inSlots s t .recalibration 53 56 ∧ t.mem = s.mem) ∧
  (∀ s : State, ∃ t, exec .telemetryCollection s = .next t ∧ t.house.telemetry = s.house.telemetry + 1 ∧ inSlots s t .telemetryCollection 58 58 ∧ t.mem = s.mem) ∧
  (∀ (s : State) (fs : List Finding), s.slotNow < 41 ∨ 52 < s.slotNow → ∃ t, exec (.patrolScrub fs) s = .next t ∧ inSlots s t (.patrolScrub fs) 41 52 ∧ t.mg = s.mg ∧ t.house = s.house ∧ t.mem = s.mem) ∧
  (∀ s : State, 41 ≤ s.slotNow → s.slotNow ≤ 52 → s.scrubbedBad ≠ [] → ∃ t, exec (.patrolScrub []) s = .next t ∧ t.mg.errhead = (s.mg.errhead + s.scrubbedBad.length) % 32 ∧ t.bad = s.bad ∧ t.hurts = s.hurts ∧ t.mem = s.mem) ∧
  (∀ (s : State) (f : Finding), 41 ≤ s.slotNow → s.slotNow ≤ 52 → s.scrubbedBad = [] → ∃ t, exec (.patrolScrub [f]) s = .next t ∧ ((∀ x ∈ s.agenda, x.ev ≠ .patrolScrub []) → inSlots s t (.patrolScrub []) 41 52) ∧ t.mg.errhead = (s.mg.errhead + 1) % 32 ∧ t.mem = s.mem ∧ t.wgs = s.wgs ∧ (∀ b, b ∈ t.bad ↔ b ∈ s.bad ∨ (f.corrected = false ∧ f.unit = 0 ∧ b = f.pa / 64)) ∧
    (f.corrected = false → f.unit = 1 → Hurt.home (f.pa / 64) f.asid.toNat ∈ t.hurts) ∧ (f.corrected = true → t.bad = s.bad ∧ t.hurts = s.hurts) ∧
    (s.mg.errhead < s.mg.errlog.length → (t.mg.errlog[s.mg.errhead]?).map (fun e => (e.toNat % 16, e.toNat / 16 % 16, e.toNat / 256 % 2 ^ 20, e.toNat / 2 ^ 28 % 4096, e.toNat / 2 ^ 40)) = some (3, f.unit.toNat, f.pa / 2 ^ 20 % 2 ^ 20, f.asid.toNat, s.fabric / 1024 % 2 ^ 24))) ∧
  (∀ (s : State) (r : Readings), s.slotNow ≠ 57 → ∃ t, exec (.sensorSampling r) s = .next t ∧ inSlots s t (.sensorSampling r) 57 57 ∧ t.mg = s.mg ∧ t.power = s.power ∧ t.mem = s.mem) ∧
  (∀ (s : State) (r : Readings), s.slotNow = 57 → ∃ t, exec (.sensorSampling r) s = .next t ∧
    ((∃ x ∈ r.junction, 115 ≤ x) ∨ (∃ x ∈ r.hbm, 105 ≤ x) → t.power.stopped = true ∧ t.mg.full = false ∧ t.mg.limited = false ∧ nothingRuns t ∧ t.mg.pwrstat.getLsbD 7 = true ∧ t.mg.mgmt = s.mg.mgmt) ∧
    ((∀ x ∈ r.junction, x < 115) → (∀ x ∈ r.hbm, x < 105) → t.mem = s.mem ∧ t.wgs = s.wgs ∧ t.power.readings = r ∧ t.mg.pwrstat.toNat / 2 ^ 20 = min r.power 4095 ∧ t.mg.pwrstat.toNat / 4096 % 256 = (r.junction ++ r.hbm).foldl max 0 ∧
      t.mg.pwrstat.toNat % 4096 = s.mg.pwrstat.toNat % 4096)) ∧
  (∀ s : State, let r := s.power.readings
    let demand : Bool := decide (2800 < r.average) || r.junction.any (fun x => decide (100 ≤ x))
    ∃ t, exec .throttleEvaluation s = .next t ∧ t.mem = s.mem ∧ t.wgs = s.wgs ∧ t.mg.throttle = s.mg.throttle ∧ ⟨(s.fabric / 1024000 + 1) * 1024000 + s.epoch, .throttleEvaluation⟩ ∈ t.agenda ∧ (demand = true → 1 ≤ t.power.target.toNat) ∧
      ((∃ x ∈ r.hbm, 95 ≤ x) → 2 ≤ t.power.target.toNat) ∧ (demand = false → s.power.hbmDemand = false → (∀ x ∈ r.hbm, x < 95) → t.power.target = 0) ∧ (s.mg.throttle < t.power.target.toNat → ⟨s.ticks, .throttleStep⟩ ∈ t.agenda)) ∧
  ∀ s : State, (s.power.lastMove = 0 ∨ s.power.lastMove + 1000000 ≤ s.ticks) →
    (s.mg.throttle < s.power.target.toNat → ∃ t, exec .throttleStep s = .next t ∧ t.mg.throttle = s.mg.throttle + 1 ∧ t.power.lastMove = s.ticks ∧ ⟨s.ticks + 1000000, .throttleStep⟩ ∈ t.agenda ∧ t.wgs = s.wgs ∧ t.mem = s.mem) ∧
    ∀ c, s.power.target.toNat < s.mg.throttle → s.power.clearSince = some c → c + 20000000 ≤ s.ticks →
      ∃ t, exec .throttleStep s = .next t ∧ t.mg.throttle = s.mg.throttle - 1 ∧ t.power.lastMove = s.ticks ∧ t.power.clearSince = some s.ticks ∧ t.wgs = s.wgs ∧ t.mem = s.mem)

/-- R111 to R115, R126 to R131, R135 to R143, R145 to R149: a queue is bound with TAIL, HEAD and LASTERR zero and unbound while it holds no record; a published record whose READY matches is consumed once no earlier one of the queue is still to complete unplaced, HEAD advancing before any check; checks refuse, or lead to the dependences, these to hand-over, this to the placer's table. Candidates get free groups, or groups are held and their occupants halted; an expired quantum is renewed unless a rival of its priority waits; a halted gang saves its image, or retires when its fibres have ended, is restored on new cores, and retires with its last workgroup; a launch that ends writes its event word. That halting, saving and restoring are one step each, and the corners of the dispatcher's reads, are the model's (log entries 37 and 38). -/
def Obligations.dispatcher_and_placer_events : Prop :=
  (∀ (s : State) (q : Fin 1024) (b : Binding) (p : Nat), s.supervised = true → s.queue q.val = none → b.ringOff % 256 = 0 → b.ctlOff % 64 = 0 → 2 ≤ b.log2size → b.log2size ≤ 16 → b.pcap ≤ 7 → s.ctlPA b 0 = some p →
    (s.ctlHeld b = true → exec (.queueBind q b) s = .next (s.later 1000 (.queueBind q b))) ∧
    (s.ctlHeld b = false → ∃ t, exec (.queueBind q b) s = .next t ∧ t.queues = s.queues ++ [⟨q.val, b, .idle, 0, [], [], none, none, none, false, false⟩] ∧
      (s.queues = [] → s.mem.wf = true → (s.ctlWrite b 0 0).ctlPA b 8 = some (p + 8) → ((s.ctlWrite b 0 0).ctlWrite b 8 0).ctlPA b 16 = some (p + 16) → ∀ j, t.mem.get j = (if p ≤ j ∧ j < p + 24 then 0 else s.mem.get j)))) ∧
  (∀ (s : State) (q : Fin 1024) (x : Queue), s.queue q.val = some x →
    (s.supervised = true → x.st = .idle ∨ x.st = .waitReady → (∀ L ∈ s.launches, L.queue ≠ x.q) → ∃ t, exec (.queueUnbind q) s = .next t ∧ t.queues = s.queues.filter (fun y => y.q != q.val) ∧ t.mem = s.mem) ∧
    (x.st ≠ .idle ∧ x.st ≠ .waitReady ∨ (∃ L ∈ s.launches, L.queue = x.q) → exec (.queueUnbind q) s = .next s) ∧
    (x.stall = none →
      (x.st = .idle → x.n < s.tailOf x.binding → (∀ L ∈ s.launches, L.queue = x.q → L.placedLaunch = true) → exec (.recordConsumption q) s = .next (s.modQueue q.val (fun y => { y with st := .waitReady }))) ∧
      (∀ bs p h m, x.st = .waitReady → s.readyRead x = .bytes bs → bytesNat bs = (x.n + 1) % 2 ^ 32 → s.xlatNow false ⟨x.binding.asid, x.binding.ringObj, x.place, 256, false, false⟩ = .pa p m → s.isBad p 256 = false →
        s.ctlHeld x.binding = false → s.spanLatched false (.mem [(p, 256)]) = false → s.mem.wf = true → s.ctlPA x.binding 8 = some h → (∀ w ∈ s.tailWords, w + 8 ≤ h ∨ h + 8 ≤ w) →
        ∃ t, exec (.recordConsumption q) s = .next t ∧ (t.queue q.val).map (·.n) = some (x.n + 1) ∧ (t.mgmtOut = s.mgmtOut → t.mem.num h 8 = (x.n + 1) % 2 ^ 64)) ∧
      (∀ L, x.st = .check → x.cur = some L → s.eventOk x.binding L = true → s.ctlHeld x.binding = false →
        (∀ M, s.checkRest x L = .pass M → M.count ≠ 0 ∨ L.early = false ∧ L.indirect = true →
          exec (.recordConsumption q) s = .next (s.modQueue q.val (fun y => { y with st := .depWait, cur := some M, unfit := false, told := false }))) ∧
        (∀ M, s.checkRest x L = .pass M → M.count = 0 → L.early = true ∨ L.indirect = false →
          ∃ t, exec (.recordConsumption q) s = .next t ∧ t.launches = s.launches ++ [{ M with refusal := 0, placedLaunch := false }] ∧ (t.queue q.val).map (·.st) = some .idle ∧ t.mem = s.mem) ∧
        ∀ code, s.checkRest x L = .refuse code → ∃ t, exec (.recordConsumption q) s = .next t ∧ t.launches = s.launches ++ [{ L with refusal := code, placedLaunch := false }] ∧ (t.queue q.val).map (·.st) = some .idle ∧ t.mem = s.mem) ∧
      ∀ L, x.st = .depWait → x.cur = some L → (∀ d ∈ [L.dep0, L.dep1], d.2 = 0 ∨ ∃ bs, s.depRead L d = .bytes bs ∧ d.2.toNat ≤ bytesNat bs) → L.early = true ∨ (∀ n, x.last = some n → s.launch n = none) →
        let M : Launch := { L with dep0 := (L.dep0.1, 0), dep1 := (L.dep1.1, 0) }
        ∀ N, (if L.indirect = true ∧ L.early = false then s.readCount x M else .pass M) = .pass N →
          (N.count ≠ 0 → ∃ t, exec (.dependenceMet q) s = .next t ∧ t.queue q.val = some { x with st := .handover, cur := some N, unfit := false } ∧ t.mem = s.mem ∧ t.launches = s.launches) ∧
          (N.count = 0 → ∃ t, exec (.dependenceMet q) s = .next t ∧ t.launches = s.launches ++ [{ N with refusal := 0, placedLaunch := false }] ∧ (t.queue q.val).map (·.st) = some .idle ∧ t.mem = s.mem)) ∧
    ∀ L, x.st = .handover → x.cur = some L → s.tableRoom = true →
      (L.cores = false → ∃ t, exec (.launchHandover q) s = .next t ∧ t.launches = s.launches ++ [{ L with placedLaunch := true }] ∧
        t.queue q.val = some { x with st := .idle, cur := none, raw := [], rawTags := [], last := some L.id } ∧ t.mem = s.mem) ∧
      (L.cores = true → s.wholePlan { L with placedLaunch := true } = none → ∃ t, exec (.launchHandover q) s = .next t ∧ t.launches = s.launches ++ [{ L with placedLaunch := false, refusal := 0x6B }] ∧ t.holds = s.holds ∧ t.units = s.units) ∧
      ∀ gs, L.cores = true → s.wholePlan { L with placedLaunch := true } = some gs → ∃ t, exec (.launchHandover q) s = .next t ∧ t.launches = s.launches ++ [{ L with placedLaunch := true }] ∧
        t.holds = s.holds ++ ((List.range L.gangCount).zip gs).map (fun y => ⟨y.2, L.id, y.1⟩) ∧ (t.queue q.val).map (·.st) = some .idle ∧ t.mem = s.mem) ∧
  (∀ (s : State) (L : Launch) (p : Nat) (m : Bool), s.launch L.id = some L → s.ending L = true → L.stall = none → s.coresReleased L = true → s.completionHeld L = false →
    let u := s.over (s.coresRun L) (fun s c => (s.releaseAll c 5).1)
    u.xlatNow false ⟨L.asid, L.event.obj.toNat, L.event.base.toNat + L.compOff, 8, true, L.event.kind == 4#4⟩ = .pa p m → u.latched p = false → u.isBad p 8 = false → u.mem.wf = true → (∀ w ∈ u.tailWords, w + 8 ≤ p ∨ p + 8 ≤ w) →
    let old := bytesNat (u.rd (u.keyOf L.asid) p 8)
    ∃ t, exec (.launchCompletion L.id) s = .next t ∧ t.launches = s.launches.filter (fun x => x.id != L.id) ∧ (∀ j, j < p ∨ p + 8 ≤ j → t.mem.get j = u.mem.get j) ∧
      t.mem.num p 8 % 2 ^ 32 = max (old % 2 ^ 32) L.compVal.toNat ∧ t.mem.num p 8 / 2 ^ 32 % 4096 = min 0xFFF (old / 2 ^ 32 % 4096 + L.aborted) ∧
      t.mem.num p 8 / 2 ^ 56 = (if old / 2 ^ 56 = 0 then L.endCode.toNat else old / 2 ^ 56)) ∧
  (∀ s : State,
    (∀ c gs, s.placeNext = some (c, true, gs) → ∀ L, s.launch c.launch = some L → ∃ t, exec .gangPlacement s = .next t ∧ t.cursors = s.cursors.set c.prio c.queue ∧
      (c.saved = false → (t.launch L.id).map (·.nextGang) = some (L.nextGang + c.gangs.length) ∧ ∀ x ∈ c.gangs.zip gs, ⟨L.id, x.1, .running, x.2, false, false, false, s.ticks + 2000000, s.ticks⟩ ∈ t.gangs ∧
        ∀ j n, x.2[j]? = some n → ∃ w ∈ t.wgs, w.launch = L.id ∧ w.wgid = L.size * x.1 + j ∧ w.core = n) ∧
      (c.saved = true → ∀ k cores g, c.gangs = [k] → gs = [cores] → s.gang c.launch k = some g → t.gang c.launch k = some { g with st := .restoring, cores := cores })) ∧
    (∀ c gs, s.placeNext = some (c, false, gs) → ∃ t, exec .gangPlacement s = .next t ∧ t.holds = s.holds ++ (c.gangs.zip gs).map (fun x => ⟨x.2, c.launch, x.1⟩) ∧ t.mem = s.mem ∧
      ∀ o ∈ gs.flatMap s.occupants, o.st = .running → ∃ y ∈ t.gangs, y.launch = o.launch ∧ y.index = o.index ∧ y.st = .halting) ∧
    ∀ c g, s.evictNext = some (c, g) → ∃ t, exec .parkEviction s = .next t ∧ t.holds = s.holds ++ [⟨g.cores, c.launch, c.gangs.headD 0⟩] ∧ t.mem = s.mem ∧
      t.gangs = s.gangs.map (fun x => if x = g then { x with st := .halting, woken := false, toSleep := true } else x)) ∧
  (∀ (s : State) (l k : Nat) (g : Gang), s.gang l k = some g →
    (∀ L, g.st = .running → g.quantumEnd ≤ s.ticks → s.launch l = some L →
      ((∀ c ∈ s.cands, c.prio = L.prio → c.queue ≠ L.queue → s.fit c ≠ none) → exec (.quantumExpiry l k) s = .next (s.modGang l k (fun x => { x with quantumEnd := s.ticks + 2000000 }))) ∧
      ∀ before c after, s.cands = before ++ c :: after → (∀ d ∈ before, d.prio = L.prio → d.queue ≠ L.queue → s.fit d ≠ none) → c.prio = L.prio → c.queue ≠ L.queue → s.fit c = none → s.poolRoom (s.setOf g) = true →
        ∃ t, exec (.quantumExpiry l k) s = .next t ∧ t.gang l k = some { g with st := .halting, woken := false, toSleep := false } ∧ (∃ h ∈ t.holds, h.launch = c.launch ∧ ∀ n ∈ g.cores, n ∈ h.cores) ∧ t.mem = s.mem) ∧
    (∀ L, g.st = .halting → s.launch l = some L → (∀ x ∈ s.tiles, x.launch = l → L.gangOf x.wgid = k → x.granted = []) →
      (s.gangFibres g = [] → ∃ t, exec (.coreHalt l k) s = .next t ∧ (t.gang l k).map (fun x => (x.st, x.cores)) = some (.retiring, g.cores)) ∧
      (s.gangFibres g ≠ [] → ∃ t, exec (.coreHalt l k) s = .next t ∧ t.gang l k = some { g with st := .saving } ∧ t.mem = s.mem ∧
        ∀ w ∈ s.wgs, w.launch = l → w.gang = k → ∃ w' ∈ t.wgs, w'.launch = l ∧ w'.wgid = w.wgid ∧ w'.fibres.map (fun f => (f.fid, f.pc, f.seg, f.out, f.infl)) = w.fibres.map (fun f => (f.fid, f.pc, f.seg, [], [])))) ∧
    (g.st = .saving → s.gangFibres g = [] → ∃ t, exec (.contextImageSaved l k) s = .next t ∧ (t.gang l k).map (fun x => (x.st, x.cores)) = some (.retiring, g.cores)) ∧
    (g.st = .saving → s.gangFibres g ≠ [] → s.gangReleased g = true → ∃ t x, exec (.contextImageSaved l k) s = .next t ∧ t.gang l k = some x ∧ x.st = .saved ∧ (x.asleep = true → g.toSleep = true ∧ g.woken = false) ∧ ∀ w ∈ t.wgs, w.launch = l → w.gang = k → w.placed = false) ∧
    (g.st = .restoring → (s.launch l).any (·.cores) = false → (∀ h ∈ s.holds, h.launch ≠ l → ∀ n ∈ g.cores, n ∉ h.cores) → ∃ t, exec (.gangRestoration l k) s = .next t ∧
      (t.gang l k).map (fun x => (x.st, x.cores, x.asleep, x.quantumEnd, x.since)) = some (.running, g.cores, false, s.ticks + 2000000, s.ticks) ∧ ∀ w ∈ t.wgs, w.launch = l → w.gang = k → w.placed = true) ∧
    ∀ w, s.wg l w.wgid = some w → w.gang = k → Hurt.gang l k ∉ s.hurts → w.fibres = [] → g.st = .running ∨ g.st = .retiring → s.wgClear w = true → (∀ x ∈ s.wgs, x.launch = l → x.gang = k → x = w ∨ (x.retired = true ∧ x.fibres = [])) → (∀ x ∈ s.wgs, x.launch = l → x.wgid = w.wgid → x = w) →
      ∃ t, exec (.workgroupRetirement l w.wgid) s = .next t ∧ (t.gang l k).map (·.st) = some .retired ∧ t.wgs = s.wgs.filter (fun x => !(x.launch == l && x.gang == k)) ∧ t.mem = s.mem)

/-- R92, R193, R207, R213 to R215, R217: a Hamper window that ends hands its records over as a batch; a served record releases what waits on it; a migration blocks writes to its region first, and once what was translated before has been answered moves a page's bytes, installs its new word and lets writes go on; an object-table update writes the entry, raises GEN and drops its cached translations; an ASID is created live with SERIAL 1, and destroyed with its cached translations; a locked TDI that enters RUN creates its confidential ASID under a fresh key, and leaving RUN ends the ASID. How often a migration looks again, and which ASID a TDI takes over, are the model's (log entry 39). -/
def Obligations.supervisor_events : Prop :=
  (∀ (s : State) (d : Fin 4) (h : Hamper) (e : Nat), s.hampers[d.val]? = some h → h.windowEnd = some e → e ≤ s.ticks → ∃ t, exec (.hamperWindowEnd d) s = .next t ∧ t.hampers = s.hampers.set d.val ⟨[], none, h.batches ++ [h.recs]⟩ ∧ t.mem = s.mem ∧ t.wgs = s.wgs) ∧
  (∀ (s : State) (d : Fin 4) (h : Hamper) (r : HamperRec) (rest : List (List HamperRec)) (n : Nat) (e : OEntry), s.supervised = true → s.hampers[d.val]? = some h → h.batches = [r] :: rest → s.limitedOnly = false → r.key.region = some n →
    s.entry r.key.asid r.key.obj = some e → e.typ ≠ 5 → r.key.write = false → s.regionResident e n = true → s.asks = [] → s.wakes = [] →
    ∃ t, exec (.hamperRelease d []) s = .next t ∧ t.hampers = s.hampers.set d.val { h with batches := rest } ∧ t.mem = s.mem ∧ (∀ id f, s.fib id = some f → f.wait.onRec d.val r.num = true → t.fib id = some { f with wait := .none }) ∧
      ∀ id, (∀ x ∈ s.allFibres, x.1 = id → x.2.wait.onRec d.val r.num = false) → t.fib id = s.fib id) ∧
  (∀ (s : State) (g : PageGrant) (e : OEntry) (d : AsidDesc) (k : Nat) (w v : DWord), s.supervised = true → s.asid g.asid = some d → s.entry g.asid g.obj = some e → e.paged = true → s.movedPages e g = [(k, w, v)] →
    s.queues = [] → s.mem.wf = true →
    let dst := pageAddr v
    let word := e.wordPA k
    let entry := d.entryPA g.obj
    (entry + 32 ≤ word ∨ word + 8 ≤ entry) →
    (s.migrs = [] → ((e.pages g.region).filter (fun p => decide (p * e.pageSize < e.size))).length = 1 → pageP w = true → pageP v = true → pageMig v = false → w ≠ v →
      ∃ t, exec (.regionMigration g) s = .next t ∧ t.migrs.map (·.grant) = [g] ∧ ⟨s.ticks + 1000, .regionMigration g⟩ ∈ t.agenda ∧ t.mem.num word 8 = (w ||| 0x4000000000000000#64).toNat ∧ (t.mem.num entry 8).testBit 57 = true ∧
        (∀ j, (j < word ∨ word + 8 ≤ j) → (j < entry ∨ entry + 16 ≤ j) → t.mem.get j = s.mem.get j) ∧ ∀ c ∈ t.regCache, ¬ (c.asid = g.asid ∧ c.obj = g.obj)) ∧
    ∀ m, s.migrs = [⟨g, m⟩] →
      (s.tileIn e.pageSize [(k, w, v)] m = true ∨ s.translated g.asid (some g.obj) m = true → exec (.regionMigration g) s = .next (s.later 1000 (.regionMigration g))) ∧
      (s.tileIn e.pageSize [(k, w, v)] m = false → s.translated g.asid (some g.obj) m = false → s.cores = [] → s.asks = [] → s.wakes = [] →
        (word + 8 ≤ dst ∨ dst + e.pageSize ≤ word) → (entry + 32 ≤ dst ∨ dst + e.pageSize ≤ entry) → pageAddr w % 16 = 0 → dst % 16 = 0 →
        ∃ t, exec (.regionMigration g) s = .next t ∧ t.migrs = [] ∧ (∀ j, j < e.pageSize → t.mem.get (dst + j) = s.mem.get (pageAddr w + j)) ∧ t.mem.num word 8 = v.toNat ∧ (t.mem.num entry 8).testBit 57 = false ∧
          ∀ c ∈ t.regCache, ¬ (c.asid = g.asid ∧ c.obj = g.obj))) ∧
  (∀ (s : State) (a o : Nat) (d : AsidDesc) (e : OEntry) (w0 w1 w2 w3 : DWord), s.supervised = true → s.asid a = some d → s.entry a o = some e → s.queues = [] → s.mem.wf = true →
    let p := d.entryPA o
    ∃ t, exec (.objectTableUpdate a o [w0, w1, w2, w3] []) s = .next t ∧ t.mem.num p 8 = w0.toNat ∧ t.mem.num (p + 8) 8 = w1.toNat % 2 ^ 32 + (e.gen + 1) % 2 ^ 32 * 2 ^ 32 ∧ t.mem.num (p + 16) 8 = w2.toNat ∧ t.mem.num (p + 24) 8 = w3.toNat ∧
      (∀ j, j < p ∨ p + 32 ≤ j → t.mem.get j = s.mem.get j) ∧ (∀ c ∈ t.objCache, ¬ (c.asid = a ∧ c.obj = o)) ∧ ∀ c ∈ t.regCache, ¬ (c.asid = a ∧ c.obj = o)) ∧
  (∀ (s : State) (a root objects heap : Nat) (segs : List Nat), s.supervised = true → a ≤ 4095 → s.asid a = none → root % 32 = 0 → 1 ≤ objects → objects ≤ 2 ^ 20 → heap < 2 ^ 20 → segs.Nodup →
    ∃ t, exec (.asidCreate a root objects heap segs) s = .next t ∧ t.asid a = some ⟨a, root, objects, heap, 1, true, false, 0, segs⟩ ∧ (∀ b, b ≠ a → t.asid b = s.asid b) ∧ t.mem = s.mem) ∧
  (∀ (s : State) (a : Nat) (d : AsidDesc), s.supervised = true → s.asid a = some d → ∃ t, exec (.asidDestroy a) s = .next t ∧ t.asid a = none ∧ (∀ b, b ≠ a → t.asid b = s.asid b) ∧ (∀ c ∈ t.objCache, c.asid ≠ a) ∧ (∀ c ∈ t.regCache, c.asid ≠ a) ∧ (d.conf = false → t.mem = s.mem ∧ t.launches = s.launches)) ∧
  (∀ (s : State) (i : Fin 64) (a root objects heap : Nat) (segs : List Nat) (links : BitVec 4) (x : Tdi), s.supervised = true → s.acceptNow.getLsbD 13 = true → s.ide ≠ 0 → s.tdis[i.val]? = some x → x.st = .locked → s.keys.length < 256 →
    a ≤ 4095 → s.asid a = none → root % 32 = 0 → 1 ≤ objects → objects ≤ 2 ^ 20 → heap < 2 ^ 20 → segs.Nodup →
    ∃ t, exec (.tdiRun i ⟨a, root, objects, heap, segs⟩ links) s = .next t ∧ t.asid a = some ⟨a, root, objects, heap, 1, true, true, s.fresh, segs⟩ ∧ (∀ b, b ≠ a → t.asid b = s.asid b) ∧ t.keys = s.keys ++ [s.fresh] ∧
      t.tdis = s.tdis.set i.val ⟨.run, a, links, s.fresh + 1⟩ ∧ t.mem = s.mem) ∧
  ∀ (s : State) (i : Fin 64) (x : Tdi), s.tdis[i.val]? = some x → x.st = .run → ∃ t, exec (.tdiLeaveRun i) s = .next t ∧ t.asid x.asid = none ∧ (∀ y ∈ t.tdis, ¬ (y.st = .run ∧ y.asid = x.asid)) ∧
    (i.val < t.tdis.length → (t.tdi i.val).st = .unlocked)

/-- R22, R95, R132, R140, R156, R214, R278: what reset leaves: MGMT, LIMITED and FULL clear, PWRSTAT zero, every priority's cursor at 1,023, a Hamper window of 20 µs; and a fibre and a workgroup that start: pc at slot 1 of ENTRY, registers and predicates zero, c0 to c11 null, c13 to c15 as R132 gives them, %cmask naming the whole crew, %fmode and %fflags zero, group registers and accumulators zero. That memory nothing has written reads zero with clear tags before its initialisation, and a scratchpad zero at a workgroup's start, is the model's choice (log entry 6). -/
def Obligations.reset_values : Prop :=
  State.reset.memOk = true ∧ (∀ a, State.reset.mem.get a = 0 ∧ State.reset.mem.tag a = false) ∧ State.reset.mg.mgmt = false ∧ State.reset.mg.limited = false ∧ State.reset.mg.full = false ∧ State.reset.mg.pwrstat = 0 ∧
  (∀ p, p < 8 → State.reset.cursors[p]? = some 1023) ∧ State.reset.hamperWindow = 20000 ∧
  (∀ (L : Launch) (fid seg : Nat), let f := Fibre.fresh L fid seg
    f.pc = BitVec.ofNat 32 (L.entry + 4) ∧ f.code.obj = L.code.obj ∧ f.v.length = L.regs ∧ (∀ n, f.reg n = 0) ∧ (∀ n, n < 7 → f.pred n = false) ∧ f.pred 7 = true ∧ (∀ n, n < 12 → f.cap n = Cap.null) ∧
    f.cap 13 = { L.args with tag := true } ∧ f.cap 14 = ⟨true, 1, 0xDC, 2, 0, BitVec.ofNat 48 (if L.gangLog = 0 then 0 else 2 ^ L.gangLog * (L.sp * 65536))⟩ ∧ f.cap 15 = ⟨true, 0, 0xDC, 2, 0, BitVec.ofNat 48 (L.sp * 65536)⟩ ∧
    (∀ n, n < 64 → f.cmask.getLsbD n = (decide (n < 32) || L.crew == 64)) ∧ f.fmode = 0 ∧ f.fflags = 0 ∧ f.hchain = 0xFFFFFFFF ∧ f.wait = .none) ∧
  ∀ (L : Launch) (w core : Nat), (∀ n, n < 32 → ((Wg.start L w core).g[n]?).map (fun g => (g.val, g.pending)) = some (0, false)) ∧ (∀ a, (Wg.start L w core).scratch.get a = 0) ∧ (Wg.start L w core).acc = []

/-- R283, R290, R294 and the encoding tables of the instruction chapters: slot words written out from them decode to the instructions they stand for, one for each family; words with an unassigned opcode or a reserved field that is not zero do not. -/
def Obligations.decode_words : Prop :=
  decodeTableWord 32 0x10082110 = some (.add 2 2 4 false true false) ∧ decodeTableWord 32 0xF10C0800 = some (.sets 3 0x020) ∧ decodeTableWord 32 0xF0000040 = some (.gets 0 0x001) ∧
  decodeTableWord 32 0xF3244000 = some (.setg 9 4) ∧ decodeTableWord 32 0xF2149000 = some (.getg 5 9) ∧ decodeTableWord 32 0xEB149000 = some (.tokq 5 9) ∧ decodeTableWord 32 0xCB149000 = some (.waitt 5 9) ∧
  decodeTableWord 32 0x09000000 = some .exit ∧ decodeTableWord 32 0x07000000 = some .ret ∧ decodeTableWord 32 0x0A000000 = some .nop ∧ decodeTableWord 32 0x01FFFFFF = some (.bra 0xFFFFFF) ∧
  decodeTableWord 32 0x110C5FFF = some (.addi 3 5 0xFFF) ∧ decodeTableWord 64 0x8000000137040000 = some (.movl 1 0x80000001) ∧
  decodeTableWord 32 0x00000000 = none ∧ decodeTableWord 32 0x09000001 = none ∧ decodeTableWord 32 0x70000000 = none

/-- R290, R294: decoding the words of an instruction gives the instruction back, with every operand at every value; the rows that are events have no words. -/
def Obligations.decode_encode : Prop :=
  ∀ i : Instr, encode i ≠ [] → decodeSlot ((encode i).getD 0 0) ((encode i).getD 1 0) ((encode i).getD 2 0) = .ok i

/-- What a step does besides the issue of instructions, and in which order (the agenda and its order are the model's: log entry 35): an operation on the agenda whose time has come, else a sideband message, a packet of the fabric, of a tray link or of the scale-out link that need not wait, else a unit's own action; else the next quarter with an awake fibre has its turn, or the cycle ends. With the clocks stopped (R21) nothing but the agenda and arrivals is served, and the machine stops when these are empty. -/
def Obligations.step_serves_operations : Prop :=
  ∀ s : State,
    (∀ due ev rest, s.agenda = ⟨due, ev⟩ :: rest → due ≤ s.ticks → step s = exec ev (s.withAgenda rest)) ∧
    (∀ due ev rest, s.agenda = ⟨due, ev⟩ :: rest → s.ticks < due → s.sbRx = [] → s.rxq = [] → s.trayRx = [] → s.soRx = [] → s.power.stopped = false →
      (∀ e, s.unitEvent = some e → step s = exec e s) ∧ (s.unitEvent = none → s.nextVisit = none → step s = .next s.advance)) ∧
    (∀ m rest, (∀ x ∈ s.agenda, s.ticks < x.due) → s.sbRx = m :: rest → ∀ e, sidebandEvent m.2.2 = some e → step s = exec e s) ∧
    (∀ p rest, (∀ x ∈ s.agenda, s.ticks < x.due) → s.sbRx = [] → s.rxq = p :: rest → s.rxBlocked p = false → ∀ e, s.fabricEvent p = some e → step s = exec e s) ∧
    (∀ p rest, (∀ x ∈ s.agenda, s.ticks < x.due) → s.sbRx = [] → s.rxq = [] → s.trayRx = p :: rest → s.trayBlocked p.1 p.2 = false → ∀ e, trayEvent p.2 = some e → step s = exec e s) ∧
    (∀ p rest, (∀ x ∈ s.agenda, s.ticks < x.due) → s.sbRx = [] → s.rxq = [] → s.trayRx = [] → s.soRx = p :: rest → s.soHeld p = false → ∀ e, soEvent p = some e → step s = exec e s) ∧
    (s.power.stopped = true → s.agenda = [] → s.sbRx = [] → s.rxq = [] → s.trayRx = [] → s.soRx = [] → step s = .fault .clocksStopped)

/-- R161, R165, R180, R283 to R285: a step runs the decoded instruction: where nothing else comes first and the next quarter to be served holds one awake fibre, whose program counter names a slot of a packet in its core's instruction cache that its code capability lets it fetch, and the slot, alone in its chain, decodes to an instruction none of whose registers is pending and whose pipe is free, the step is exec of that instruction in the state in which the pipe is taken and the covered results are in the registers; then the fibre's issue count and the earliest next issue advance by the stall count. -/
def Obligations.step_runs_instruction : Prop :=
  ∀ (s : State) (L : Launch) (g : Wg) (q : Nat) (f : Fibre) (bs : List Byte) (i : Instr), s.nextEvent = none → s.power.stopped = false → s.nextVisit = some (L, g, q) → s.wg g.launch g.wgid = some g → g.fibres = [f] →
    let k := slotAt f.pc
    let p := packetOf bs
    let ctl := BitVec.ofNat 8 (p.ctlByte k)
    f.pc.toNat % 4 = 0 → 4 ≤ f.pc.toNat % 16 → fetchRefusal f.code (f.pc.toNat / 16 * 16) = none → (s.core g.core).packet L.asid f.code.obj.toNat (f.pc.toNat / 16 * 16) = some bs → bs.length = 16 →
    p.isExt k = false → p.isEmpty k = false → p.illegal = false → chainOf p k = [k] → p.decode k = .ok i → s.unblocked L g.wgid f.settle [(i, ctl)] = true →
    (∀ x, pipeOf (p.op k) = some x → (s.core g.core).pipesFree q s.clock.toNat [x] = true) → (pipeOf (p.op k) = some .eng → (prepare s L g q).engServes L g q = true) →
    let cur : Cur := ⟨L.id, g.wgid, [f.fid], BitVec.ofNat 32 (f.pc.toNat / 16 * 16), k, ctl, BitVec.ofNat 32 (successor p (f.pc.toNat / 16 * 16) (k + 1)), f.pc, false, [], [], [f.fid]⟩
    let u := withCur (preIssue (takePipes (prepare s L g q) g.core q (pipeOf (p.op k)).toList) L.id g.wgid [f.fid] (hasWaitm p k)) cur
    let stall := max 1 (p.ctlByte k / 16)
    (u.fib ⟨L.id, g.wgid, f.fid⟩ = some { f.settle with age := 0, parked := if hasWaitm p k then f.parked else none }) ∧
    (∀ t, exec i u = .next t → ∃ t', step s = .next t' ∧ t'.cur = Cur.reset ∧ t'.turn = 4 * g.core + q + 1 ∧ t'.mem = t.mem ∧
      (∀ h, t.fib ⟨L.id, g.wgid, f.fid⟩ = some h → t.cur.held = [] → t'.fib ⟨L.id, g.wgid, f.fid⟩ = some { h with k := h.k + stall, readyAt := t.clock.toNat + stall, resp := none, parked := if h.wait = .none then none else h.parked }) ∧
      ∀ id, id ≠ ⟨L.id, g.wgid, f.fid⟩ → t'.fib id = t.fib id) ∧
    ((∃ r, exec i u = .fault r) → ∃ r, step s = .fault r) ∧ ((∃ r, exec i u = .refused r) → ∃ r, step s = .refused r)

/-- Nothing that the package can be asked to do ends its run: every instruction and every event answers a next state in every state, and so does a step, until a thermal trip has stopped the clocks (R21) and nothing is left on the agenda or in a receive queue. That an event whose condition does not hold leaves the state is the model's (log entry 43). -/
def Obligations.nothing_ends_a_run : Prop :=
  (∀ (i : Instr) (s : State), ∃ t, exec i s = .next t) ∧ ∀ s : State, s.power.stopped = false ∨ s.quiet = false → s.safeStep

/-- Every step keeps device memory and every scratchpad in canonical form: addresses strictly rising, no zero byte listed, tags strictly rising. The canonical form is the model's own (log entry 6). -/
def Obligations.memory_stays_canonical : Prop :=
  ∀ s t : State, s.memOk = true → step s = .next t → t.memOk = true
end

