-- ==== Sys2Proof/Laws/Fields.lean ====
section
/-! SUPPORT. Words put together from bit fields: what enc makes of its fields, and what the decoder's field readers give back. -/

namespace Sys2Proof.Laws

/-! ## Reading a field -/

theorem b2n_lt (b : Bool) : b2n b < 2 ^ 1 := by cases b <;> decide

theorem bv_eq {n : Nat} {w lo : Nat} {x : BitVec n} (h : w / 2 ^ lo % 2 ^ n = x.toNat) : bv n w lo = x := by
  apply BitVec.eq_of_toNat_eq; simp [bv, BitVec.toNat_ofNat, h]

theorem bit_eq {w lo : Nat} {b : Bool} (h : w / 2 ^ lo % 2 ^ 1 = b2n b) : bit w lo = b := by
  unfold bit; rw [show w / 2 ^ lo % 2 = b2n b from h]; cases b <;> rfl

theorem zf_eq {w lo n : Nat} (h : w / 2 ^ lo % 2 ^ n = 0) : zf w lo n = true := by simp [zf, h]

theorem zf_ne {w lo n v : Nat} (h : w / 2 ^ lo % 2 ^ n = v) (hv : v ≠ 0) : zf w lo n = false := by simp [zf, h, hv]

theorem fv_ne {w lo n v x : Nat} (h : w / 2 ^ lo % 2 ^ n = v) (hv : v ≠ x) : fv w lo n x = false := by simp [fv, h, hv]

theorem fv_eq {w lo n v : Nat} (h : w / 2 ^ lo % 2 ^ n = v) : fv w lo n v = true := by simp [fv, h]

/-! ## Words put together from fields -/

/-- Fields (value, lowest bit, width) as enc takes them. -/
def places (fs : List (Nat × Nat × Nat)) : List (Nat × Nat) := fs.map (fun f => (f.1, f.2.1))

/-- Two bit ranges (lowest bit, width) do not meet. -/
def apart (a b : Nat × Nat) : Bool := decide (a.1 + a.2 ≤ b.1) || decide (b.1 + b.2 ≤ a.1)

/-- The ranges are zero in the base word and do not meet one another. -/
def layoutOk (base : Nat) : List (Nat × Nat) → Bool
  | [] => true
  | a :: as => base / 2 ^ a.1 % 2 ^ a.2 == 0 && as.all (apart a) && layoutOk base as

/-- Every value fits its field. -/
def fit : List (Nat × Nat × Nat) → Prop
  | [] => True
  | f :: fs => f.1 < 2 ^ f.2.2 ∧ fit fs

/-- A field put into a word reads as its value. -/
theorem insert_same {v lo n r : Nat} (hv : v < 2 ^ n) (hz : r / 2 ^ lo % 2 ^ n = 0) : (v * 2 ^ lo + r) / 2 ^ lo % 2 ^ n = v := by
  rw [Nat.add_comm, Nat.add_mul_div_right _ _ (Nat.two_pow_pos lo), Nat.add_mod, hz, Nat.zero_add, Nat.mod_mod, Nat.mod_eq_of_lt hv]

/-- A field put into a word leaves the other ranges as they were. -/
theorem insert_other {v lo n r lo' n' : Nat} (hv : v < 2 ^ n) (hz : r / 2 ^ lo % 2 ^ n = 0) (ha : apart (lo, n) (lo', n') = true) :
    (v * 2 ^ lo + r) / 2 ^ lo' % 2 ^ n' = r / 2 ^ lo' % 2 ^ n' := by
  simp only [apart, Bool.or_eq_true, decide_eq_true_eq] at ha
  rcases ha with ha | ha
  · obtain ⟨k, rfl⟩ := Nat.exists_eq_add_of_le ha
    have h1 : (v * 2 ^ lo + r) / 2 ^ (lo + n) = r / 2 ^ (lo + n) := by
      rw [Nat.pow_add, ← Nat.div_div_eq_div_mul, ← Nat.div_div_eq_div_mul, Nat.add_comm, Nat.add_mul_div_right _ _ (Nat.two_pow_pos lo)]
      have : r / 2 ^ lo = 2 ^ n * (r / 2 ^ lo / 2 ^ n) := by
        have := Nat.div_add_mod (r / 2 ^ lo) (2 ^ n); omega
      rw [this, Nat.add_comm, Nat.add_mul_div_left _ _ (Nat.two_pow_pos n), Nat.div_eq_of_lt hv, Nat.zero_add, Nat.mul_div_cancel_left _ (Nat.two_pow_pos n)]
    rw [Nat.pow_add, ← Nat.div_div_eq_div_mul, ← Nat.div_div_eq_div_mul, h1]
  · obtain ⟨k, rfl⟩ := Nat.exists_eq_add_of_le ha
    rw [Nat.pow_add, Nat.pow_add, show v * (2 ^ lo' * 2 ^ n' * 2 ^ k) + r = r + 2 ^ lo' * (2 ^ n' * (v * 2 ^ k)) by ring,
      Nat.add_mul_div_left _ _ (Nat.two_pow_pos lo'), Nat.add_mul_mod_self_left]

/-- A range outside the fields reads as in the base word. -/
theorem enc_rest {base : Nat} {fs : List (Nat × Nat × Nat)} (ok : layoutOk base (fs.map (·.2)) = true) (hf : fit fs) (lo n : Nat) (off : (fs.map (·.2)).all (fun a => apart a (lo, n)) = true) :
    enc base (places fs) / 2 ^ lo % 2 ^ n = base / 2 ^ lo % 2 ^ n := by
  induction fs generalizing lo n with
  | nil => rfl
  | cons f fs ih =>
    obtain ⟨v, l, k⟩ := f
    simp only [List.map_cons, layoutOk, Bool.and_eq_true, beq_iff_eq, List.all_cons] at ok off
    have hz : enc base (places fs) / 2 ^ l % 2 ^ k = 0 := by
      rw [ih ok.2 hf.2 l k ?_]; exact ok.1.1
      have := ok.1.2
      simp only [List.all_eq_true] at this ⊢
      intro a ha; have := this a ha
      simpa [apart, or_comm] using this
    show (v * 2 ^ l + enc base (places fs)) / 2 ^ lo % 2 ^ n = _
    rw [insert_other hf.1 hz off.1, ih ok.2 hf.2 lo n off.2]

/-- Each field reads as its value. -/
theorem enc_field {base : Nat} {fs : List (Nat × Nat × Nat)} (ok : layoutOk base (fs.map (·.2)) = true) (hf : fit fs) (i v lo n : Nat) (hi : fs[i]? = some (v, lo, n)) :
    enc base (places fs) / 2 ^ lo % 2 ^ n = v := by
  induction fs generalizing i with
  | nil => simp at hi
  | cons f fs ih =>
    obtain ⟨x, l, k⟩ := f
    simp only [List.map_cons, layoutOk, Bool.and_eq_true, beq_iff_eq] at ok
    have hall := ok.1.2
    simp only [List.all_eq_true] at hall
    have hz : enc base (places fs) / 2 ^ l % 2 ^ k = 0 := by
      rw [enc_rest ok.2 hf.2 l k ?_]; exact ok.1.1
      simp only [List.all_eq_true]
      intro a ha; have := hall a ha
      simpa [apart, or_comm] using this
    show (x * 2 ^ l + enc base (places fs)) / 2 ^ lo % 2 ^ n = _
    cases i with
    | zero => 
      simp only [List.getElem?_cons_zero, Option.some.injEq, Prod.mk.injEq] at hi
      obtain ⟨rfl, rfl, rfl⟩ := hi
      exact insert_same hf.1 hz
    | succ i =>
      rw [List.getElem?_cons_succ] at hi
      have hm : (lo, n) ∈ fs.map (·.2) := List.mem_map.mpr ⟨_, List.mem_of_getElem? hi, rfl⟩
      rw [insert_other hf.1 hz (hall _ hm), ih ok.2 hf.2 i hi]

end Sys2Proof.Laws
end

