-- ==== Sys2Proof/Laws/Frame.lean ====
section
/-! SUPPORT. What a change of one fibre, and of the fibres of a bundle one after the other, leaves as it was. -/

namespace Sys2Proof.Machine

/-! ## One fibre -/

theorem find_map_same {α : Type} (p : α → Bool) (f : α → α) (hp : ∀ x, p (f x) = p x) (xs : List α) :
    (xs.map (fun x => if p x then f x else x)).find? p = (xs.find? p).map f := by
  induction xs with
  | nil => rfl
  | cons x xs ih => by_cases h : p x <;> simp [h, hp, ih]

theorem find_map_other {α : Type} (p q : α → Bool) (f : α → α) (hq : ∀ x, q (f x) = q x) (hpq : ∀ x, q x = true → p x = false) (xs : List α) :
    (xs.map (fun x => if p x then f x else x)).find? q = xs.find? q := by
  induction xs with
  | nil => rfl
  | cons x xs ih =>
    by_cases h : q x
    · simp [h, hpq x h]
    · by_cases h' : p x <;> simp [h, h', hq, ih]

theorem wg_modWg_same (s : State) (l w : Nat) (h : Wg → Wg) (hl : ∀ g, (h g).launch = g.launch) (hw : ∀ g, (h g).wgid = g.wgid) :
    (s.modWg l w h).wg l w = (s.wg l w).map h :=
  find_map_same _ h (fun g => by simp [hl, hw]) s.wgs

theorem wg_modWg_other (s : State) (l w l' w' : Nat) (h : Wg → Wg) (hl : ∀ g, (h g).launch = g.launch) (hw : ∀ g, (h g).wgid = g.wgid)
    (hne : l' ≠ l ∨ w' ≠ w) : (s.modWg l w h).wg l' w' = s.wg l' w' := by
  refine find_map_other _ _ h (fun g => by simp [hl, hw]) (fun g hg => ?_) s.wgs
  simp only [Bool.and_eq_true, beq_iff_eq] at hg
  rcases hne with h1 | h1 <;> simp [hg.1, hg.2, h1]

theorem fib_modFib_same (s : State) (id : FibId) (h : Fibre → Fibre) (hf : ∀ x, (h x).fid = x.fid) :
    (s.modFib id h).fib id = (s.fib id).map h := by
  unfold State.modFib State.fib
  rw [wg_modWg_same _ _ _ (fun g => g.modFib id.fid h) (fun _ => rfl) (fun _ => rfl)]
  cases s.wg id.launch id.wgid with
  | none => rfl
  | some g =>
    exact find_map_same (fun f : Fibre => f.fid == id.fid) h (fun f => by simp [hf]) g.fibres

theorem fib_modFib_other (s : State) (id j : FibId) (h : Fibre → Fibre) (hf : ∀ x, (h x).fid = x.fid) (hne : j ≠ id) :
    (s.modFib id h).fib j = s.fib j := by
  unfold State.modFib State.fib
  by_cases hk : j.launch = id.launch ∧ j.wgid = id.wgid
  · rw [hk.1, hk.2, wg_modWg_same _ _ _ (fun g => g.modFib id.fid h) (fun _ => rfl) (fun _ => rfl)]
    cases s.wg id.launch id.wgid with
    | none => rfl
    | some g =>
      have : j.fid ≠ id.fid := fun e => hne (by cases j; cases id; simp_all)
      refine find_map_other _ _ h (fun f => by simp [hf]) (fun f hfj => ?_) g.fibres
      simp only [beq_iff_eq] at hfj
      simp [hfj, this]
  · rw [wg_modWg_other s id.launch id.wgid _ _ (fun g => g.modFib id.fid h) (fun _ => rfl) (fun _ => rfl) (by tauto)]

theorem bare_modFib (s : State) (id : FibId) (h : Fibre → Fibre) : (s.modFib id h).bare = s.bare := by
  simp only [State.modFib, State.modWg, State.bare, List.map_map]
  congr 1
  apply List.map_congr_left
  intro g _
  dsimp only [Function.comp_def]
  split <;> rfl

/-! ## What the fibres do not touch -/

theorem bare_field {α : Type} (p : State → α) (hp : ∀ s : State, p s.bare = p s) {s t : State} (h : t.bare = s.bare) : p t = p s := by
  rw [← hp t, ← hp s, h]

theorem cur_of_bare {s t : State} (h : t.bare = s.bare) : t.cur = s.cur := bare_field (·.cur) (fun _ => rfl) h
theorem launches_of_bare {s t : State} (h : t.bare = s.bare) : t.launches = s.launches := bare_field (·.launches) (fun _ => rfl) h
theorem launch_of_bare {s t : State} (h : t.bare = s.bare) (l : Nat) : t.launch l = s.launch l := by
  unfold State.launch; rw [launches_of_bare h]

theorem greg_bare (s : State) (l w n : Nat) : s.bare.greg l w n = s.greg l w n := by
  unfold State.greg State.wg State.bare
  simp only [List.find?_map]
  show (match (Option.map _ (List.find? _ s.wgs) : Option Wg) with | none => _ | some g => _) = _
  have : ((fun g : Wg => g.launch == l && g.wgid == w) ∘ fun g : Wg => { g with fibres := [] }) = fun g : Wg => g.launch == l && g.wgid == w := rfl
  rw [this]
  cases List.find? (fun g : Wg => g.launch == l && g.wgid == w) s.wgs <;> rfl

theorem greg_of_bare {s t : State} (h : t.bare = s.bare) (l w n : Nat) : t.greg l w n = s.greg l w n := by
  rw [← greg_bare t, ← greg_bare s, h]

/-! ## The fibres of a bundle -/

theorem fid_of_fib {s : State} {id : FibId} {f : Fibre} (h : s.fib id = some f) : f.fid = id.fid := by
  unfold State.fib at h
  obtain ⟨g, _, hg⟩ := Option.bind_eq_some_iff.mp h
  have := List.find?_some hg
  simpa using this

theorem each_cons (s : State) (n : Nat) (xs : List Nat) (F : State → FibId → Fibre → State) :
    s.each (n :: xs) F = (match s.fib (s.curId n) with
      | none => s
      | some x => F s (s.curId n) x).each xs F := rfl

/-- Acting on distinct live fibres one after the other, where each action changes its own fibre by h and the rest of the state by B: the rest is the fold of B, and every fibre is as said. P holds of the rest throughout. -/
theorem each_change (F : State → FibId → Fibre → State) (h : Fibre → Fibre) (B : State → Nat → State) (P : State → Prop) (c : Cur)
    (hc : ∀ b, P b → b.cur = c) (hPB : ∀ b n, P b → P (B b n)) (xs : List Nat) (hnd : xs.Nodup) (s : State) (hP : P s.bare)
    (hF : ∀ u n f, n ∈ xs → P u.bare → s.fib (s.curId n) = some f → u.fib (u.curId n) = some f →
      (F u (u.curId n) f).bare = B u.bare n ∧ (F u (u.curId n) f).fib (u.curId n) = some (h f) ∧
      ∀ j, j ≠ u.curId n → (F u (u.curId n) f).fib j = u.fib j)
    (hlive : ∀ n ∈ xs, (s.fib (s.curId n)).isSome) :
    (s.each xs F).bare = xs.foldl B s.bare ∧ (∀ n ∈ xs, (s.each xs F).fib (s.curId n) = (s.fib (s.curId n)).map h) ∧
      ∀ id : FibId, ¬(id.launch = c.launch ∧ id.wgid = c.wgid ∧ id.fid ∈ xs) → (s.each xs F).fib id = s.fib id := by
  induction xs generalizing s with
  | nil => exact ⟨rfl, by simp, fun _ _ => rfl⟩
  | cons n xs ih =>
    have hcs : s.cur = c := hc s.bare hP
    obtain ⟨f, hf⟩ := Option.isSome_iff_exists.mp (hlive n (by simp))
    obtain ⟨hb, hsame, hoth⟩ := hF s n f (by simp) hP hf hf
    have he : s.each (n :: xs) F = (F s (s.curId n) f).each xs F := by rw [each_cons, hf]
    rw [he]
    have hP' : P (F s (s.curId n) f).bare := by rw [hb]; exact hPB _ _ hP
    have hc' : (F s (s.curId n) f).cur = c := hc (F s (s.curId n) f).bare hP'
    have hid : ∀ m, (F s (s.curId n) f).curId m = s.curId m := fun m => by
      show FibId.mk _ _ m = FibId.mk _ _ m
      rw [hc', hcs]
    have hn : n ∉ xs := (List.nodup_cons.mp hnd).1
    have hne : ∀ m ∈ xs, s.curId m ≠ s.curId n := fun m hm e => by
      have : m = n := congrArg FibId.fid e
      exact hn (this ▸ hm)
    obtain ⟨i1, i2, i3⟩ := ih (List.nodup_cons.mp hnd).2 (F s (s.curId n) f) hP'
      (fun u m g hm hPu h0 hu => hF u m g (by simp [hm]) hPu (by rw [hid, hoth _ (hne m hm)] at h0; exact h0) hu)
      (fun m hm => by rw [hid, hoth _ (hne m hm)]; exact hlive m (by simp [hm]))
    refine ⟨by rw [i1, hb]; rfl, ?_, ?_⟩
    · intro m hm
      rcases List.mem_cons.mp hm with rfl | hm
      · rw [i3 _ (by simp [State.curId, hn]), hsame, hf]; rfl
      · have := i2 m hm
        rwa [hid, hoth _ (hne m hm)] at this
    · intro id hout
      rw [i3 id (fun hx => hout ⟨hx.1, hx.2.1, by simp [hx.2.2]⟩), hoth id]
      rintro rfl
      exact hout ⟨by simp [State.curId, hcs], by simp [State.curId, hcs], by simp [State.curId]⟩

end Sys2Proof.Machine
end

