-- ==== Sys2Proof/Laws/Hurt.lean ====
section
/-! SUPPORT. Where no on-chip memory has an error (R107), the checks and repairs of errors do nothing. -/

namespace Sys2Proof.Machine

theorem State.homeHurts_nil {s : State} (h : s.hurts = []) : s.homeHurts = [] := by simp [State.homeHurts, h]

theorem State.isBad_nil {s : State} (h : s.hurts = []) (a n : Nat) : s.isBad a n = s.bad.any (sectorIn a n) := by
  simp [State.isBad, State.homeHurts_nil h]

theorem State.scratchHurt_nil {s : State} (h : s.hurts = []) (l w : Nat) (p : Nat → Bool) : s.scratchHurt l w p = false := by
  simp [State.scratchHurt, h]

theorem State.localHurt_nil {s : State} (h : s.hurts = []) (id : FibId) (obj o n : Nat) : s.localHurt id obj o n = false :=
  State.scratchHurt_nil h ..

theorem State.l1Hurt_nil {s : State} (h : s.hurts = []) (core asid obj sector : Nat) : s.l1Hurt core asid obj sector = false := by
  simp [State.l1Hurt, h]

theorem State.scratchWrote_nil {s : State} (h : s.hurts = []) (l w : Nat) (p : Nat → Bool) : s.scratchWrote l w p = s := by
  cases s; simp_all [State.scratchWrote]

theorem State.l1Heal_nil {s : State} (h : s.hurts = []) (core asid obj sector : Nat) : s.l1Heal core asid obj sector = s := by
  cases s; simp_all [State.l1Heal]

theorem State.l1Fresh_nil {s : State} (h : s.hurts = []) (core asid obj off : Nat) : s.l1Fresh core asid obj off = s := by
  unfold State.l1Fresh
  split
  · exact State.l1Heal_nil h ..
  · split
    · exact State.l1Heal_nil h ..
    · rfl

theorem State.homeGone_nil {s : State} (h : s.hurts = []) (x : HomeLine) : s.homeGone x = s := by
  cases s; simp_all [State.homeGone, State.over]

end Sys2Proof.Machine
end

