-- ==== Sys2Proof/Laws/Issue.lean ====
section
/-! SUPPORT. What the issue of an instruction does when nothing keeps a fibre from it: the checks pass, every fibre of the bundle takes its successor, and the body acts on those that execute. -/

namespace Sys2Proof.Machine

/-! ## The bundle -/

theorem lone_launch {s : State} {i : Instr} (h : s.lone i = true) :
    s.cur.inChain = false ∧ s.cur.fids.Nodup ∧ ∃ L, s.launch s.cur.launch = some L ∧ legalIn L i = true ∧ ∀ n ∈ s.cur.fids, s.clear L i n = true := by
  unfold State.lone at h
  cases hL : s.launch s.cur.launch with
  | none => simp [hL] at h
  | some L =>
    simp only [hL, Bool.and_eq_true, Bool.not_eq_true', decide_eq_true_eq, List.all_eq_true] at h
    exact ⟨h.1.1, h.1.2, L, rfl, h.2.1, h.2.2⟩

theorem clear_live {s : State} {L : Launch} {i : Instr} {n : Nat} (h : s.clear L i n = true) : (s.fib (s.curId n)).isSome := by
  unfold State.clear at h
  cases hf : s.fib (s.curId n) with
  | none => simp [hf] at h
  | some f => rfl

theorem lone_live {s : State} {i : Instr} (h : s.lone i = true) : ∀ n ∈ s.cur.fids, (s.fib (s.curId n)).isSome := by
  obtain ⟨_, _, L, _, _, hc⟩ := lone_launch h
  exact fun n hn => clear_live (hc n hn)

theorem curFibs_fids {s : State} (xs : List Nat) (h : ∀ n ∈ xs, (s.fib (s.curId n)).isSome) : (s.curFibs xs).map (·.fid) = xs := by
  induction xs with
  | nil => rfl
  | cons n xs ih =>
    obtain ⟨f, hf⟩ := Option.isSome_iff_exists.mp (h n (by simp))
    have : f.fid = n := fid_of_fib hf
    simp only [State.curFibs, List.filterMap_cons, hf, List.map_cons, this]
    exact congrArg _ (ih fun m hm => h m (by simp [hm]))

theorem mem_curFibs {s : State} {xs : List Nat} {f : Fibre} (h : f ∈ s.curFibs xs) : ∃ n ∈ xs, s.fib (s.curId n) = some f := by
  obtain ⟨n, hn, hf⟩ := List.mem_filterMap.mp h
  exact ⟨n, hn, hf⟩

/-- The checks before an issue pass for the whole bundle. -/
theorem precheck_lone {s : State} {i : Instr} (h : s.lone i = true) :
    ∃ L, s.launch s.cur.launch = some L ∧ s.precheck L [(i, s.cur.ctl)] = (s, s.cur.fids, []) := by
  obtain ⟨_, _, L, hL, hleg, hc⟩ := lone_launch h
  refine ⟨L, hL, ?_⟩
  have hsch : (if L.schk then (s.curFibs s.cur.fids).filter (fun f => readsUncovered L f [] [(i, s.cur.ctl)]) else []) = [] := by
    split
    · rename_i hs
      apply List.filter_eq_nil_iff.mpr
      intro f hf
      obtain ⟨n, hn, hfib⟩ := mem_curFibs hf
      have := hc n hn
      simp only [State.clear, hfib, hs] at this
      simp_all
    · rfl
  have hchk : (if L.check then (s.curFibs s.cur.fids).find? (fun f => (s.badToken L [(i, s.cur.ctl)] f).isSome) else none) = none := by
    split
    · rename_i hs
      apply List.find?_eq_none.mpr
      intro f hf
      obtain ⟨n, hn, hfib⟩ := mem_curFibs hf
      have := hc n hn
      simp only [State.clear, hfib, hs] at this
      simp_all
    · rfl
  unfold State.precheck
  simp only [List.all_cons, List.all_nil, hleg, hsch]
  simp [hchk, curFibs_fids _ (lone_live h)]

/-- A lone instruction with nothing against it: its body acts after every fibre has taken its successor. -/
theorem issue_lone {s : State} {i : Instr} (h : s.lone i = true) (body : State → List Nat → List Nat → State) :
    s.issue i body = .next (s.issueBody s.cur.ctl s.cur.fids body) := by
  obtain ⟨L, hL, hp⟩ := precheck_lone h
  unfold State.issue
  simp [(lone_launch h).1, hL, hp]

theorem issueBody_eq (s : State) (body : State → List Nat → List Nat → State) :
    s.issueBody s.cur.ctl s.cur.fids body = body s.gone s.cur.fids s.exeOf := rfl

theorem jump_bare (s : State) (id : FibId) (x : Word) : (s.jump id x).bare = s.bare := bare_modFib ..

/-- After the successors have been taken. -/
theorem gone_change {s : State} {i : Instr} (h : s.lone i = true) : bundleChange s s.gone (fun f => f.passes s) := by
  obtain ⟨h1, h2, h3⟩ := each_change (fun u id _ => u.jump id u.cur.next) (fun f => f.passes s) (fun b _ => b) (fun b => b = s.bare) s.cur
    (fun b hb => by rw [hb]; rfl) (fun _ _ hb => hb) s.cur.fids (lone_launch h).2.1 s rfl
    (fun u n f _ hP _ hu => ⟨jump_bare .., by
      have hcur : u.cur = s.cur := cur_of_bare hP
      show (u.modFib _ _).fib _ = _
      rw [fib_modFib_same u (u.curId n) (fun f => { f with pc := u.cur.next }) (fun _ => rfl), hu, hcur]; rfl,
      fun j hj => fib_modFib_other _ _ _ _ (fun _ => rfl) hj⟩)
    (lone_live h)
  refine ⟨?_, fun id hid => h3 id hid, ?_⟩
  · rintro ⟨l, w, n⟩ f ⟨hl, hw, hn⟩ hf
    have hidn : (⟨l, w, n⟩ : FibId) = s.curId n := by simp_all [State.curId]
    rw [hidn] at hf ⊢
    have := h2 n hn
    rw [hf] at this; exact this
  · rw [State.gone, h1]
    generalize s.bare = b
    induction s.cur.fids with
    | nil => rfl
    | cons _ _ ih => exact ih

theorem mem_exeOf {s : State} {n : Nat} : n ∈ s.exeOf ↔ n ∈ s.cur.fids ∧ ∃ f, s.fib (s.curId n) = some f ∧ f.guard s.cur.ctl = true := by
  unfold State.exeOf
  simp only [List.mem_map, List.mem_filter]
  constructor
  · rintro ⟨f, ⟨hf, hg⟩, rfl⟩
    obtain ⟨m, hm, hfib⟩ := mem_curFibs hf
    have : f.fid = m := fid_of_fib hfib
    exact ⟨this ▸ hm, f, this ▸ hfib, hg⟩
  · rintro ⟨hn, f, hf, hg⟩
    exact ⟨f, ⟨List.mem_filterMap.mpr ⟨n, hn, hf⟩, hg⟩, fid_of_fib hf⟩

theorem exeOf_nodup {s : State} {i : Instr} (h : s.lone i = true) : s.exeOf.Nodup := by
  have h1 : (s.exeOf).Sublist ((s.curFibs s.cur.fids).map (·.fid)) := (List.filter_sublist).map _
  rw [curFibs_fids _ (lone_live h)] at h1
  exact h1.nodup (lone_launch h).2.1

/-! ## Acting on each executing fibre -/

/-- An instruction that acts on each executing fibre by itself: F changes its fibre by h and the rest of the state by B. -/
theorem issueEach_change {s : State} {i : Instr} (hl : s.lone i = true) (F : State → FibId → Fibre → State) (h : Fibre → Fibre)
    (B : State → Nat → State) (P : State → Prop) (hc : ∀ b, P b → b.cur = s.cur) (hPB : ∀ b n, P b → P (B b n)) (hP : P s.bare)
    (hF : ∀ u n f, n ∈ s.exeOf → s.fib (s.curId n) = some f → P u.bare → u.fib (u.curId n) = some (f.passes s) →
      (F u (u.curId n) (f.passes s)).bare = B u.bare n ∧ (F u (u.curId n) (f.passes s)).fib (u.curId n) = some (h f) ∧
      ∀ j, j ≠ u.curId n → (F u (u.curId n) (f.passes s)).fib j = u.fib j) :
    ∃ t, s.issueEach i F = .next t ∧ t.bare = s.exeOf.foldl B s.bare ∧
      (∀ id f, s.inBundle id → s.fib id = some f → t.fib id = some (if f.guard s.cur.ctl then h f else f.passes s)) ∧
      ∀ id, ¬ s.inBundle id → t.fib id = s.fib id := by
  have hg := gone_change hl
  refine ⟨s.gone.each s.exeOf F, by rw [State.issueEach, issue_lone hl, issueBody_eq], ?_⟩
  have hcur : s.gone.cur = s.cur := cur_of_bare hg.2.2
  have hid : ∀ n, s.gone.curId n = s.curId n := fun n => by show FibId.mk _ _ n = _; rw [hcur]; rfl
  have hin : ∀ n ∈ s.cur.fids, s.inBundle (s.curId n) := fun n hn => ⟨rfl, rfl, hn⟩
  -- each fibre of the bundle, by the way in which it leaves
  obtain ⟨h1, h2, h3⟩ := each_change F (fun f => match s.fib (s.curId f.fid) with
      | none => f
      | some f0 => h f0) B P s.cur hc hPB s.exeOf (exeOf_nodup hl) s.gone (by rw [hg.2.2]; exact hP)
    (fun u n f hn hPu hf hu => by
      obtain ⟨hn', f0, hf0, _⟩ := mem_exeOf.mp hn
      have hgf := hg.1 _ f0 (hin n hn') hf0
      rw [hid, hgf] at hf
      obtain rfl : f0.passes s = f := Option.some.inj hf
      have := hF u n f0 hn hf0 hPu hu
      have hfid : (f0.passes s).fid = n := fid_of_fib hf0
      rw [hfid, hf0]; exact this)
    (fun n hn => by
      obtain ⟨hn', f0, hf0, _⟩ := mem_exeOf.mp hn
      rw [hid, hg.1 _ f0 (hin n hn') hf0]; rfl)
  refine ⟨by rw [h1, hg.2.2], ?_, ?_⟩
  · rintro ⟨l, w, n⟩ f ⟨hl', hw', hn⟩ hf
    have hidn : (⟨l, w, n⟩ : FibId) = s.curId n := by simp_all [State.curId]
    rw [hidn] at hf ⊢
    have hgf := hg.1 _ f (hin n hn) hf
    by_cases hgd : f.guard s.cur.ctl = true
    · have hne : n ∈ s.exeOf := mem_exeOf.mpr ⟨hn, f, hf, hgd⟩
      have := h2 n hne
      have hfid : (f.passes s).fid = n := fid_of_fib hf
      rw [hid, hgf] at this
      simp only [Option.map_some, hfid, hf] at this
      rw [this, if_pos hgd]
    · rw [if_neg hgd, h3 (s.curId n) (fun hx => hgd ?_), hgf]
      obtain ⟨_, f1, hf1, hg1⟩ := mem_exeOf.mp (show n ∈ s.exeOf from hx.2.2)
      rw [hf] at hf1
      exact Option.some.inj hf1 ▸ hg1
  · intro id hid'
    rw [h3 id (fun hx => hid' ⟨hx.1, hx.2.1, (mem_exeOf.mp hx.2.2).1⟩), hg.2.1 id hid']

theorem passes_guard (f : Fibre) (s : State) (c : BitVec 8) : (f.passes s).guard c = f.guard c := rfl

/-- As issueEach_change, where nothing but fibres changes. -/
theorem issueEach_bundle {s : State} {i : Instr} (hl : s.lone i = true) (F : State → FibId → Fibre → State) (h : Fibre → Fibre)
    (hF : ∀ u n f, n ∈ s.exeOf → s.fib (s.curId n) = some f → u.bare = s.bare → u.fib (u.curId n) = some (f.passes s) →
      (F u (u.curId n) (f.passes s)).bare = u.bare ∧ (F u (u.curId n) (f.passes s)).fib (u.curId n) = some (h f) ∧
      ∀ j, j ≠ u.curId n → (F u (u.curId n) (f.passes s)).fib j = u.fib j) :
    ∃ t, s.issueEach i F = .next t ∧ bundleChange s t (fun f => if f.guard s.cur.ctl then h f else f.passes s) := by
  obtain ⟨t, h0, h1, h2, h3⟩ := issueEach_change hl F h (fun b _ => b) (fun b => b = s.bare) (fun b hb => by rw [hb]; rfl) (fun _ _ hb => hb) rfl hF
  refine ⟨t, h0, h2, h3, ?_⟩
  rw [h1]
  generalize s.bare = b
  induction s.exeOf with
  | nil => rfl
  | cons _ _ ih => exact ih

/-! ## Results of fixed latency -/

theorem traps_quiet (s : State) (id : FibId) (f : Fibre) (fl : Word) (h : f.quietOn fl = true) : s.traps id f.fmode fl none = s := by
  unfold Fibre.quietOn at h
  simp only [Bool.and_eq_true, Bool.not_eq_true'] at h
  unfold State.traps
  rw [h.1, h.2]; rfl

/-- An instruction whose result is a function of one fibre's registers. -/
theorem compute_lone {s : State} {i : Instr} (hl : s.lone i = true) (lat : Nat) (w : State → Fibre → List WB × Word)
    (hw : ∀ u f, u.bare = s.bare → w u (f.passes s) = w s f)
    (hq : ∀ id f, s.inBundle id → s.fib id = some f → f.guard s.cur.ctl = true → f.quietOn (w s f).2 = true) :
    ∃ t, s.compute i lat w = .next t ∧
      bundleChange s t (fun f => if f.guard s.cur.ctl then f.results s lat (w s f).1 (w s f).2 else f.passes s) := by
  refine issueEach_bundle hl _ (fun f => f.results s lat (w s f).1 (w s f).2) (fun u n f hn hf hu hfu => ?_)
  obtain ⟨hn', f1, hf1, hg1⟩ := mem_exeOf.mp hn
  obtain rfl : f = f1 := Option.some.inj (hf.symm.trans hf1)
  dsimp only
  rw [hw u f hu]
  have hqq : (f.passes s).quietOn (w s f).2 = true := hq (s.curId n) f ⟨rfl, rfl, hn'⟩ hf hg1
  rw [traps_quiet _ _ _ _ hqq]
  refine ⟨?_, ?_, ?_⟩
  · rw [State.fixed, bare_modFib, bare_modFib]
  · rw [State.fixed, fib_modFib_same, fib_modFib_same, hfu]
    · rfl
    all_goals exact fun _ => rfl
  · intro j hj
    rw [State.fixed, fib_modFib_other (hne := hj), fib_modFib_other (hne := hj)]
    all_goals exact fun _ => rfl

/-! ## Scoreboarded results -/

theorem scored_spec (s : State) (id : FibId) (f : Fibre) (ws : List WB) (hf : s.fib id = some f) :
    (s.scored id ws).bare = s.bare.withAgenda (agendaInsert s.agenda ⟨s.ticks + 1, .resultWriteback id⟩) ∧
      (s.scored id ws).fib id = some { f with infl := f.infl ++ [ws] } ∧ ∀ j, j ≠ id → (s.scored id ws).fib j = s.fib j := by
  have hb := bare_modFib s id (fun f => { f with infl := f.infl ++ [ws] })
  refine ⟨?_, ?_, ?_⟩
  · exact congrArg (fun b : State => b.withAgenda (agendaInsert s.agenda ⟨s.ticks + 1, .resultWriteback id⟩)) hb
  · show (s.modFib id _).fib id = _
    rw [fib_modFib_same s id (fun f => { f with infl := f.infl ++ [ws] }) (fun _ => rfl), hf]; rfl
  · exact fun j hj => fib_modFib_other _ _ _ _ (fun _ => rfl) hj

/-- The rest of the state after one write-back has been asked for. -/
def addWriteback (b : State) (n : Nat) : State := b.withAgenda (agendaInsert b.agenda ⟨b.ticks + 1, .resultWriteback (b.curId n)⟩)

theorem addWriteback_fold (ns : List Nat) (s : State) : ns.foldl addWriteback s.bare = (s.withWritebacks ns).bare := by
  induction ns generalizing s with
  | nil => rfl
  | cons n ns ih => exact ih (addWriteback s n)

/-- As compute_lone, for a scoreboarded result. -/
theorem computeScored_lone {s : State} {i : Instr} (hl : s.lone i = true) (w : State → Fibre → List WB × Word × Option Word)
    (hw : ∀ u f, u.bare = s.bare.withAgenda u.agenda → w u (f.passes s) = w s f)
    (hq : ∀ id f, s.inBundle id → s.fib id = some f → f.guard s.cur.ctl = true →
      ((w s f).2.1.getLsbD 0 && f.fmode.getLsbD 9) = false ∧
      (match (w s f).2.2 with
        | none => ((w s f).2.1.getLsbD 1 && f.fmode.getLsbD 10) = false
        | some _ => ((w s f).2.1.getLsbD 1 && f.fmode.getLsbD 11) = false)) :
    ∃ t, s.computeScored i w = .next t ∧
      bundleChange (s.withWritebacks s.exeOf) t (fun f => if f.guard s.cur.ctl then f.pends s (w s f).1 (w s f).2.1 else f.passes s) := by
  obtain ⟨t, h0, h1, h2, h3⟩ := issueEach_change hl (fun u id x => ((u.modFib id (fun y => y.flag (w u x).2.1)).scored id (w u x).1).traps id x.fmode (w u x).2.1 (w u x).2.2)
    (fun f => f.pends s (w s f).1 (w s f).2.1) addWriteback
    (fun b => b = s.bare.withAgenda b.agenda) (fun b hb => by rw [hb]; rfl) (fun b n hb => by
      show addWriteback b n = s.bare.withAgenda (addWriteback b n).agenda
      unfold addWriteback
      rw [hb]; rfl) rfl (fun u n f hn hf hu hfu => by
      obtain ⟨hn', f1, hf1, hg1⟩ := mem_exeOf.mp hn
      obtain rfl : f = f1 := Option.some.inj (hf.symm.trans hf1)
      rw [hw u f hu]
      obtain ⟨q1, q2⟩ := hq (s.curId n) f ⟨rfl, rfl, hn'⟩ hf hg1
      have ht : ∀ v : State, v.traps (u.curId n) (f.passes s).fmode (w s f).2.1 (w s f).2.2 = v := fun v => by
        unfold State.traps
        show (if _ then _ else _) = v
        rw [show (f.passes s).fmode = f.fmode from rfl, if_neg (by rw [q1]; exact Bool.false_ne_true)]
        cases h : (w s f).2.2 with
        | none => rw [h] at q2; exact if_neg (by rw [q2]; exact Bool.false_ne_true)
        | some x => rw [h] at q2; exact if_neg (by rw [q2]; exact Bool.false_ne_true)
      rw [ht]
      have hm : (u.modFib (u.curId n) (fun y => y.flag (w s f).2.1)).fib (u.curId n) = some ((f.passes s).flag (w s f).2.1) := by
        rw [fib_modFib_same, hfu]
        · rfl
        · exact fun _ => rfl
      obtain ⟨a1, a2, a3⟩ := scored_spec _ (u.curId n) _ (w s f).1 hm
      refine ⟨?_, a2, fun j hj => by rw [a3 j hj, fib_modFib_other (hne := hj)]; exact fun _ => rfl⟩
      rw [a1, bare_modFib]
      rfl)
  refine ⟨t, h0, h2, h3, ?_⟩
  rw [h1, addWriteback_fold]

end Sys2Proof.Machine
end

