-- ==== Sys2Proof/Laws/Mem.lean ====
section
/-! SUPPORT. Memory: what a read gives after a write, and that every operation keeps the canonical form (cells and tags rising, no zero byte listed). -/

namespace Sys2Proof.Machine

/-! ## Reading after writing -/

theorem cellsGet_low : ∀ {cs : List Host.Cell} {lo a : Nat}, cellsOk (some lo) cs = true → a ≤ lo → cellsGet cs a = 0#8
  | [], _, _, _, _ => rfl
  | c :: cs, lo, a, h, ha => by
    simp only [cellsOk, Bool.and_eq_true, decide_eq_true_eq] at h
    have : a ≠ c.1 := by omega
    simp only [cellsGet, if_neg this]
    exact cellsGet_low h.2 (by omega)

theorem cellsOk_weaken {cs : List Host.Cell} {lo : Nat} (h : cellsOk (some lo) cs = true) : cellsOk none cs = true := by
  cases cs with
  | nil => rfl
  | cons c cs => simp only [cellsOk, Bool.and_eq_true] at h ⊢; exact ⟨⟨trivial, h.1.2⟩, h.2⟩

/-- A byte of a list of cells after a byte has been set. -/
theorem cellsGet_set : ∀ {cs : List Host.Cell} (a : Nat) (b : Byte) (j : Nat), cellsOk none cs = true → cellsGet (cellsSet cs a b) j = if j = a then b else cellsGet cs j
  | [], a, b, j, _ => by
    unfold cellsSet
    split <;> simp_all [cellsGet]
  | c :: cs, a, b, j, h => by
    simp only [cellsOk, Bool.and_eq_true] at h
    have hc := h.2
    have hl : ∀ x, x ≤ c.1 → cellsGet cs x = 0#8 := fun x hx => cellsGet_low hc hx
    have ih := cellsGet_set (cs := cs) a b j (cellsOk_weaken hc)
    unfold cellsSet
    split
    · split
      · by_cases hj : j = a
        · subst hj; simp [cellsGet, show ¬ j = c.1 by omega, hl j (by omega), *]
        · simp [hj]
      · by_cases hj : j = a <;> simp [cellsGet, hj]
    · split
      · split
        · by_cases hj : j = a
          · subst hj; simp [*]
          · simp [cellsGet, hj, show ¬ j = c.1 by omega]
        · by_cases hj : j = a
          · simp [cellsGet, hj]
          · simp [cellsGet, hj, show ¬ j = c.1 by omega]
      · by_cases hj : j = c.1
        · simp [cellsGet, hj, show ¬ c.1 = a by omega]
        · simp [cellsGet, hj, ih]

/-- Setting a byte keeps a list of cells above its bound in form. -/
theorem cellsOk_set : ∀ {cs : List Host.Cell} {lo : Option Nat} (a : Nat) (b : Byte), cellsOk lo cs = true → (∀ l, lo = some l → l < a) → cellsOk lo (cellsSet cs a b) = true
  | [], lo, a, b, _, hl => by
    unfold cellsSet
    split
    · rfl
    · cases lo with
      | none => simp [cellsOk, *]
      | some l => simp [cellsOk, hl l rfl, *]
  | c :: cs, lo, a, b, h, hl => by
    have h0 := h
    simp only [cellsOk, Bool.and_eq_true] at h
    unfold cellsSet
    split
    · split
      · exact h0
      · cases lo with
        | none => simp [cellsOk, *]
        | some l => simp [cellsOk, hl l rfl, *]
    · split
      · split
        · cases cs with
          | nil => rfl
          | cons d ds =>
            have := h.2
            simp only [cellsOk, Bool.and_eq_true, decide_eq_true_eq] at this ⊢
            refine ⟨⟨?_, this.1.2⟩, this.2⟩
            cases lo with
            | none => rfl
            | some l => have := hl l rfl; simp only [decide_eq_true_eq]; omega
        · simp only [cellsOk, Bool.and_eq_true]
          refine ⟨⟨?_, by simp [*]⟩, by simp [*]⟩
          cases lo with
          | none => rfl
          | some l => simp [hl l rfl]
      · simp only [cellsOk, Bool.and_eq_true]
        exact ⟨h.1, cellsOk_set a b h.2 (by simp; omega)⟩

/-- Setting membership keeps a rising list above its bound. -/
theorem risingOk_set : ∀ {cs : List Nat} {lo : Option Nat} (a : Nat) (b : Bool), risingOk lo cs = true → (∀ l, lo = some l → l < a) → risingOk lo (risingSet cs a b) = true
  | [], lo, a, b, _, hl => by
    unfold risingSet
    split
    · cases lo with
      | none => rfl
      | some l => simp [risingOk, hl l rfl]
    · rfl
  | c :: cs, lo, a, b, h, hl => by
    have h0 := h
    simp only [risingOk, Bool.and_eq_true] at h
    unfold risingSet
    split
    · split
      · cases lo with
        | none => simp [risingOk, *]
        | some l => simp [risingOk, hl l rfl, *]
      · exact h0
    · split
      · split
        · exact h0
        · cases cs with
          | nil => rfl
          | cons d ds =>
            have := h.2
            simp only [risingOk, Bool.and_eq_true, decide_eq_true_eq] at this ⊢
            refine ⟨?_, this.2⟩
            cases lo with
            | none => rfl
            | some l => have := hl l rfl; simp only [decide_eq_true_eq]; omega
      · simp only [risingOk, Bool.and_eq_true]
        exact ⟨h.1, risingOk_set a b h.2 (by simp; omega)⟩

/-! ## Filters and copies -/

theorem cellsOk_lower {cs : List Host.Cell} {a b : Nat} (h : cellsOk (some b) cs = true) (hab : a ≤ b) : cellsOk (some a) cs = true := by
  cases cs with
  | nil => rfl
  | cons c cs => simp only [cellsOk, Bool.and_eq_true, decide_eq_true_eq] at h ⊢; exact ⟨⟨by omega, h.1.2⟩, h.2⟩

theorem cellsOk_filter (p : Host.Cell → Bool) : ∀ {cs : List Host.Cell} {lo : Option Nat}, cellsOk lo cs = true → cellsOk lo (cs.filter p) = true
  | [], _, _ => rfl
  | c :: cs, lo, h => by
    simp only [cellsOk, Bool.and_eq_true] at h
    have ih := cellsOk_filter p h.2
    rw [List.filter_cons]
    split
    · simp only [cellsOk, Bool.and_eq_true]; exact ⟨h.1, ih⟩
    · cases lo with
      | none => exact cellsOk_weaken ih
      | some l => exact cellsOk_lower ih (by have := h.1.1; simp at this; omega)

theorem risingOk_weaken {cs : List Nat} {lo : Nat} (h : risingOk (some lo) cs = true) : risingOk none cs = true := by
  cases cs with
  | nil => rfl
  | cons c cs => simp only [risingOk, Bool.and_eq_true] at h ⊢; exact ⟨trivial, h.2⟩

theorem risingOk_filter (p : Nat → Bool) : ∀ {cs : List Nat} {lo : Option Nat}, risingOk lo cs = true → risingOk lo (cs.filter p) = true
  | [], _, _ => rfl
  | c :: cs, lo, h => by
    simp only [risingOk, Bool.and_eq_true] at h
    have ih := risingOk_filter p h.2
    rw [List.filter_cons]
    split
    · simp only [risingOk, Bool.and_eq_true]; exact ⟨h.1, ih⟩
    · cases lo with
      | none => exact risingOk_weaken ih
      | some l =>
        cases hc : cs.filter p with
        | nil => rfl
        | cons d ds => rw [hc] at ih; have := h.1; simp only [risingOk, Bool.and_eq_true, decide_eq_true_eq] at ih this ⊢; exact ⟨by omega, ih.2⟩

theorem foldl_keeps {α β : Type} (P : β → Prop) (f : β → α → β) (hf : ∀ b a, P b → P (f b a)) : ∀ (xs : List α) (b : β), P b → P (xs.foldl f b)
  | [], _, h => h
  | x :: xs, b, h => foldl_keeps P f hf xs (f b x) (hf b x h)

/-! ## The operations of memory -/

theorem Mem.wf_iff {m : Mem} : m.wf = true ↔ cellsOk none m.cells = true ∧ risingOk none m.tags = true := by simp [Mem.wf]

@[simp] theorem Mem.wf_empty : Mem.empty.wf = true := rfl

theorem Mem.wf_set {m : Mem} (h : m.wf = true) (a : Nat) (b : Byte) : (m.set a b).wf = true := by
  rw [Mem.wf_iff] at *; exact ⟨cellsOk_set a b h.1 (by simp), risingOk_set _ _ h.2 (by simp)⟩

theorem Mem.wf_setTag {m : Mem} (h : m.wf = true) (a : Nat) (t : Bool) : (m.setTag a t).wf = true := by
  rw [Mem.wf_iff] at *; exact ⟨h.1, risingOk_set _ _ h.2 (by simp)⟩

theorem Mem.wf_write : ∀ (bs : List Byte) {m : Mem} (_ : m.wf = true) (a : Nat), (m.write a bs).wf = true
  | [], _, h, _ => h
  | _ :: bs, _, h, _ => Mem.wf_write bs (Mem.wf_set h ..) _

theorem Mem.wf_writeAt {m : Mem} (h : m.wf = true) (ps : List (Nat × Byte)) : (m.writeAt ps).wf = true :=
  foldl_keeps (fun m : Mem => m.wf = true) _ (fun _ _ h => Mem.wf_set h ..) ps m h

theorem Mem.wf_setNum {m : Mem} (h : m.wf = true) (a n x : Nat) : (m.setNum a n x).wf = true := Mem.wf_write _ h _

theorem Mem.wf_setCap {m : Mem} (h : m.wf = true) (a : Nat) (c : Cap) : (m.setCap a c).wf = true := Mem.wf_setTag (Mem.wf_write _ h _) ..

theorem Mem.wf_copyRange {m : Mem} (h : m.wf = true) (src dst n : Nat) : (m.copyRange src dst n).wf = true := by
  rw [Mem.wf_iff] at *
  exact ⟨foldl_keeps (fun cs => cellsOk none cs = true) _ (fun _ _ h => cellsOk_set _ _ h (by simp)) _ _ (cellsOk_filter _ h.1),
    foldl_keeps (fun cs => risingOk none cs = true) _ (fun _ _ h => risingOk_set _ _ h (by simp)) _ _ (risingOk_filter _ h.2)⟩

/-- A byte after a byte has been set. -/
theorem Mem.get_set {m : Mem} (h : m.wf = true) (a : Nat) (b : Byte) (j : Nat) : (m.set a b).get j = if j = a then b else m.get j :=
  cellsGet_set a b j (Mem.wf_iff.mp h).1

@[simp] theorem Mem.get_setTag (m : Mem) (a : Nat) (t : Bool) (j : Nat) : (m.setTag a t).get j = m.get j := rfl

/-- A byte after bytes have been written from an address up. -/
theorem Mem.get_write : ∀ (bs : List Byte) {m : Mem} (_ : m.wf = true) (a j : Nat), (m.write a bs).get j = if a ≤ j ∧ j < a + bs.length then bs.getD (j - a) 0#8 else m.get j
  | [], m, _, a, j => by simp [Mem.write]
  | b :: bs, m, h, a, j => by
    rw [Mem.write, Mem.get_write bs (Mem.wf_set h a b), Mem.get_set h]
    by_cases hj : j = a
    · subst hj; simp
    · simp only [hj, if_false, List.length_cons]
      by_cases hin : a + 1 ≤ j ∧ j < a + 1 + bs.length
      · rw [if_pos hin, if_pos (by omega)]
        obtain ⟨k, hk⟩ : ∃ k, j - a = k + 1 := ⟨j - a - 1, by omega⟩
        rw [hk, show j - (a + 1) = k by omega]; rfl
      · rw [if_neg hin, if_neg (by omega)]

/-- The bytes that were written are read back. -/
theorem Mem.read_write {m : Mem} (h : m.wf = true) (a : Nat) (bs : List Byte) : (m.write a bs).read a bs.length = bs := by
  apply List.ext_getElem
  · simp [Mem.read]
  · intro i hi hb
    simp [Mem.read, Mem.get_write bs h, hb]

/-- Every other range reads as before. -/
theorem Mem.read_write_other {m : Mem} (h : m.wf = true) (a : Nat) (bs : List Byte) (b n : Nat) (hd : b + n ≤ a ∨ a + bs.length ≤ b) : (m.write a bs).read b n = m.read b n := by
  unfold Mem.read
  apply List.map_congr_left
  intro k hk
  rw [List.mem_range] at hk
  rw [Mem.get_write bs h, if_neg (by omega)]

/-! ## Numbers -/

@[simp] theorem natBytes_length : ∀ (n x : Nat), (natBytes n x).length = n
  | 0, _ => rfl
  | n + 1, x => by simp [natBytes, natBytes_length n]

theorem bytesNat_natBytes : ∀ (n x : Nat), bytesNat (natBytes n x) = x % 256 ^ n
  | 0, x => by simp [natBytes, bytesNat, Nat.mod_one]
  | n + 1, x => by
    rw [natBytes, bytesNat, bytesNat_natBytes n, Nat.pow_succ, Nat.mul_comm (256 ^ n) 256, Nat.mod_mul]
    simp

theorem Mem.num_setNum {m : Mem} (h : m.wf = true) (a n x : Nat) : (m.setNum a n x).num a n = x % 256 ^ n := by
  have e := Mem.read_write h a (natBytes n x)
  rw [natBytes_length] at e
  rw [Mem.num, Mem.setNum, e, bytesNat_natBytes]

theorem wf_elemPut {m : Mem} (h : m.wf = true) (place : Nat → Nat) (w k x : Nat) : (elemPut m place w k x).wf = true := Mem.wf_writeAt h _

end Sys2Proof.Machine
end

