-- ==== Sys2Proof/Laws/PerInstr.lean ====
section
/-! SUPPORT. The family Encoding: for each instruction, decoding its words gives it back (R290, R294). -/

namespace Sys2Proof.Laws.Encoding

open Sys2Proof.Laws

/-- Decoding the words of an instruction gives the instruction; an event has no words. -/
def Statement (i : Instr) : Prop :=
  encode i ≠ [] → decodeSlot ((encode i).getD 0 0) ((encode i).getD 1 0) ((encode i).getD 2 0) = .ok i

theorem one {i : Instr} {w : Nat} (e : encode i = [w]) (h : decodeSlot w 0 0 = .ok i) : Statement i := fun _ => by rw [e]; exact h

theorem two {i : Instr} {w x : Nat} (e : encode i = [w, x]) (h : decodeSlot w x 0 = .ok i) : Statement i := fun _ => by rw [e]; exact h

theorem three {i : Instr} {w x y : Nat} (e : encode i = [w, x, y]) (h : decodeSlot w x y = .ok i) : Statement i := fun _ => by rw [e]; exact h

theorem ctrlReset : Statement (.ctrlReset) := fun h => absurd rfl h

theorem ctrlFwgo : Statement (.ctrlFwgo) := fun h => absurd rfl h

theorem ctrlRaise : Statement (.ctrlRaise) := fun h => absurd rfl h

theorem acceptWrite (x0 x1) : Statement (.acceptWrite x0 x1) := fun h => absurd rfl h

theorem mgmtRegisterWrite (x0 x1 x2) : Statement (.mgmtRegisterWrite x0 x1 x2) := fun h => absurd rfl h

theorem powerGood (x0) : Statement (.powerGood x0) := fun h => absurd rfl h

theorem pcieLinkTrained : Statement (.pcieLinkTrained) := fun h => absurd rfl h

theorem dieMemoryInitialised (x0 x1) : Statement (.dieMemoryInitialised x0 x1) := fun h => absurd rfl h

theorem lockstepMismatch (x0) : Statement (.lockstepMismatch x0) := fun h => absurd rfl h

theorem leaderBeat : Statement (.leaderBeat) := fun h => absurd rfl h

theorem leaderTakeover : Statement (.leaderTakeover) := fun h => absurd rfl h

theorem throttleEvaluation : Statement (.throttleEvaluation) := fun h => absurd rfl h

theorem throttleStep : Statement (.throttleStep) := fun h => absurd rfl h

theorem sensorSampling (x0) : Statement (.sensorSampling x0) := fun h => absurd rfl h

theorem hbmRefresh : Statement (.hbmRefresh) := fun h => absurd rfl h

theorem patrolScrub (x0) : Statement (.patrolScrub x0) := fun h => absurd rfl h

theorem recalibration : Statement (.recalibration) := fun h => absurd rfl h

theorem telemetryCollection : Statement (.telemetryCollection) := fun h => absurd rfl h

theorem linkstatRefresh : Statement (.linkstatRefresh) := fun h => absurd rfl h

theorem nodeTimeSync : Statement (.nodeTimeSync) := fun h => absurd rfl h

theorem timeSynchronisation : Statement (.timeSynchronisation) := fun h => absurd rfl h

theorem pairFailure (x0) : Statement (.pairFailure x0) := fun h => absurd rfl h

theorem spareSubstitution (x0) : Statement (.spareSubstitution x0) := fun h => absurd rfl h

theorem laneCodewordSend (x0 x1) : Statement (.laneCodewordSend x0 x1) := fun h => absurd rfl h

theorem codewordReceive (x0 x1 x2 x3) : Statement (.codewordReceive x0 x1 x2 x3) := fun h => absurd rfl h

theorem idle : Statement (.idle) := fun h => absurd rfl h

theorem laneAcknowledgement : Statement (.laneAcknowledgement) := fun h => absurd rfl h

theorem laneReplay : Statement (.laneReplay) := fun h => absurd rfl h

theorem creditReturn : Statement (.creditReturn) := fun h => absurd rfl h

theorem barrierArrival : Statement (.barrierArrival) := fun h => absurd rfl h

theorem livenessAndLinkState : Statement (.livenessAndLinkState) := fun h => absurd rfl h

theorem livenessSend : Statement (.livenessSend) := fun h => absurd rfl h

theorem peerDead (x0) : Statement (.peerDead x0) := fun h => absurd rfl h

theorem foldingTableHeartbeat : Statement (.foldingTableHeartbeat) := fun h => absurd rfl h

theorem heartbeatSend : Statement (.heartbeatSend) := fun h => absurd rfl h

theorem standbyTakeover : Statement (.standbyTakeover) := fun h => absurd rfl h

theorem ldreq : Statement (.ldreq) := fun h => absurd rfl h

theorem ldrsp : Statement (.ldrsp) := fun h => absurd rfl h

theorem streq : Statement (.streq) := fun h => absurd rfl h

theorem atreq : Statement (.atreq) := fun h => absurd rfl h

theorem atrsp : Statement (.atrsp) := fun h => absurd rfl h

theorem ack : Statement (.ack) := fun h => absurd rfl h

theorem nack : Statement (.nack) := fun h => absurd rfl h

theorem tldreq : Statement (.tldreq) := fun h => absurd rfl h

theorem tlddat : Statement (.tlddat) := fun h => absurd rfl h

theorem tstdat : Statement (.tstdat) := fun h => absurd rfl h

theorem put : Statement (.put) := fun h => absurd rfl h

theorem getreq : Statement (.getreq) := fun h => absurd rfl h

theorem getdat : Statement (.getdat) := fun h => absurd rfl h

theorem shoot : Statement (.shoot) := fun h => absurd rfl h

theorem shootDownOverdue (x0 x1 x2) : Statement (.shootDownOverdue x0 x1 x2) := fun h => absurd rfl h

theorem cmig : Statement (.cmig) := fun h => absurd rfl h

theorem note : Statement (.note) := fun h => absurd rfl h

theorem detourRelay : Statement (.detourRelay) := fun h => absurd rfl h

theorem remoteRequestTimeout (x0 x1) : Statement (.remoteRequestTimeout x0 x1) := fun h => absurd rfl h

theorem fabricTimeout (x0) : Statement (.fabricTimeout x0) := fun h => absurd rfl h

theorem exchangeDpost : Statement (.exchangeDpost) := fun h => absurd rfl h

theorem collectionClose (x0) : Statement (.collectionClose x0) := fun h => absurd rfl h

theorem calendar : Statement (.calendar) := fun h => absurd rfl h

theorem dpostTimeout (x0) : Statement (.dpostTimeout x0) := fun h => absurd rfl h

theorem foldWindowStart (x0 x1) : Statement (.foldWindowStart x0 x1) := fun h => absurd rfl h

theorem foldWindowEnd (x0 x1) : Statement (.foldWindowEnd x0 x1) := fun h => absurd rfl h

theorem closeSend (x0) : Statement (.closeSend x0) := fun h => absurd rfl h

theorem close : Statement (.close) := fun h => absurd rfl h

theorem closeTimeout (x0) : Statement (.closeTimeout x0) := fun h => absurd rfl h

theorem lateCloseCompletion (x0) : Statement (.lateCloseCompletion x0) := fun h => absurd rfl h

theorem scaleoutData : Statement (.scaleoutData) := fun h => absurd rfl h

theorem scaleoutAck : Statement (.scaleoutAck) := fun h => absurd rfl h

theorem rnr : Statement (.rnr) := fun h => absurd rfl h

theorem rnrResend (x0) : Statement (.rnrResend x0) := fun h => absurd rfl h

theorem delayedAck (x0) : Statement (.delayedAck x0) := fun h => absurd rfl h

theorem retransmissionTimer (x0) : Statement (.retransmissionTimer x0) := fun h => absurd rfl h

theorem contextFetch (x0 x1) : Statement (.contextFetch x0 x1) := fun h => absurd rfl h

theorem connectionOpen (x0 x1 x2 x3) : Statement (.connectionOpen x0 x1 x2 x3) := fun h => absurd rfl h

theorem connectionClose (x0) : Statement (.connectionClose x0) := fun h => absurd rfl h

theorem peerClose (x0) : Statement (.peerClose x0) := fun h => absurd rfl h

theorem hrdr : Statement (.hrdr) := fun h => absurd rfl h

theorem hwra : Statement (.hwra) := fun h => absurd rfl h

theorem drd : Statement (.drd) := fun h => absurd rfl h

theorem dwr : Statement (.dwr) := fun h => absurd rfl h

theorem trayNote : Statement (.trayNote) := fun h => absurd rfl h

theorem rply : Statement (.rply) := fun h => absurd rfl h

theorem trayNack : Statement (.trayNack) := fun h => absurd rfl h

theorem hostRequestTimeout (x0 x1) : Statement (.hostRequestTimeout x0 x1) := fun h => absurd rfl h

theorem tdiRun (x0 x1 x2) : Statement (.tdiRun x0 x1 x2) := fun h => absurd rfl h

theorem tdiLeaveRun (x0) : Statement (.tdiLeaveRun x0) := fun h => absurd rfl h

theorem doeMessage (x0 x1) : Statement (.doeMessage x0 x1) := fun h => absurd rfl h

theorem recordConsumption (x0) : Statement (.recordConsumption x0) := fun h => absurd rfl h

theorem dependenceMet (x0) : Statement (.dependenceMet x0) := fun h => absurd rfl h

theorem launchHandover (x0) : Statement (.launchHandover x0) := fun h => absurd rfl h

theorem launchCompletion (x0) : Statement (.launchCompletion x0) := fun h => absurd rfl h

theorem gangPlacement : Statement (.gangPlacement) := fun h => absurd rfl h

theorem parkEviction : Statement (.parkEviction) := fun h => absurd rfl h

theorem quantumExpiry (x0 x1) : Statement (.quantumExpiry x0 x1) := fun h => absurd rfl h

theorem coreHalt (x0 x1) : Statement (.coreHalt x0 x1) := fun h => absurd rfl h

theorem contextImageSaved (x0 x1) : Statement (.contextImageSaved x0 x1) := fun h => absurd rfl h

theorem gangRestoration (x0 x1) : Statement (.gangRestoration x0 x1) := fun h => absurd rfl h

theorem workgroupRetirement (x0 x1) : Statement (.workgroupRetirement x0 x1) := fun h => absurd rfl h

theorem hamperWindowEnd (x0) : Statement (.hamperWindowEnd x0) := fun h => absurd rfl h

theorem hamperRelease (x0 x1) : Statement (.hamperRelease x0 x1) := fun h => absurd rfl h

theorem regionMigration (x0) : Statement (.regionMigration x0) := fun h => absurd rfl h

theorem translationWalk (x0 x1 x2 x3) : Statement (.translationWalk x0 x1 x2 x3) := fun h => absurd rfl h

theorem l1WriteBack (x0) : Statement (.l1WriteBack x0) := fun h => absurd rfl h

theorem releaseComplete (x0) : Statement (.releaseComplete x0) := fun h => absurd rfl h

theorem resultWriteback (x0) : Statement (.resultWriteback x0) := fun h => absurd rfl h

theorem icacheFill (x0 x1 x2 x3) : Statement (.icacheFill x0 x1 x2 x3) := fun h => absurd rfl h

theorem cupboardFill (x0 x1 x2) : Statement (.cupboardFill x0 x1 x2) := fun h => absurd rfl h

theorem tileLatchGrant (x0) : Statement (.tileLatchGrant x0) := fun h => absurd rfl h

theorem tileUnlatch (x0) : Statement (.tileUnlatch x0) := fun h => absurd rfl h

theorem tokenCompletion (x0) : Statement (.tokenCompletion x0) := fun h => absurd rfl h

theorem sleepExpiry : Statement (.sleepExpiry) := fun h => absurd rfl h

theorem serviceCallReply : Statement (.serviceCallReply) := fun h => absurd rfl h

theorem bra (o) : Statement (.bra o : Instr) := by
  have k0 : layoutOk 0x1000000 [(0, 24)] = true := by decide
  have f0 : fit [(o.toNat, 0, 24)] := ⟨o.isLt, trivial⟩
  have key : ∀ ww : Nat, ww / 2 ^ 28 % 16 = 0 → ww / 2 ^ 24 % 16 = 1 → bv 24 ww 0 = o → decodeSlot ww 0 0 = .ok (.bra o : Instr) := by
    intro ww h0 h1 h2
    simp only [decodeSlot, decodeRow0, h0, h1, h2]
  exact one (i := (.bra o : Instr)) rfl (key (enc 0x1000000 [(o.toNat, 0)])
    (enc_rest k0 f0 28 4 rfl)
    (enc_rest k0 f0 24 4 rfl)
    (bv_eq (enc_field k0 f0 0 _ _ _ rfl)))

theorem bru (o) : Statement (.bru o : Instr) := by
  have k0 : layoutOk 0x2000000 [(0, 24)] = true := by decide
  have f0 : fit [(o.toNat, 0, 24)] := ⟨o.isLt, trivial⟩
  have key : ∀ ww : Nat, ww / 2 ^ 28 % 16 = 0 → ww / 2 ^ 24 % 16 = 2 → bv 24 ww 0 = o → decodeSlot ww 0 0 = .ok (.bru o : Instr) := by
    intro ww h0 h1 h2
    simp only [decodeSlot, decodeRow0, h0, h1, h2]
  exact one (i := (.bru o : Instr)) rfl (key (enc 0x2000000 [(o.toNat, 0)])
    (enc_rest k0 f0 28 4 rfl)
    (enc_rest k0 f0 24 4 rfl)
    (bv_eq (enc_field k0 f0 0 _ _ _ rfl)))

theorem bway (w0 w1 w2 w3 t0 t1 t2 t3) : Statement (.bway w0 w1 w2 w3 t0 t1 t2 t3 : Instr) := by
  have k0 : layoutOk 0x3000000 [(20, 4), (16, 4), (12, 4), (8, 4)] = true := by decide
  have f0 : fit [(w0.toNat, 20, 4), (w1.toNat, 16, 4), (w2.toNat, 12, 4), (w3.toNat, 8, 4)] := ⟨w0.isLt, w1.isLt, w2.isLt, w3.isLt, trivial⟩
  have k1 : layoutOk 0x0 [(0, 16), (16, 16)] = true := by decide
  have f1 : fit [(t0.toNat, 0, 16), (t1.toNat, 16, 16)] := ⟨t0.isLt, t1.isLt, trivial⟩
  have k2 : layoutOk 0x0 [(0, 16), (16, 16)] = true := by decide
  have f2 : fit [(t2.toNat, 0, 16), (t3.toNat, 16, 16)] := ⟨t2.isLt, t3.isLt, trivial⟩
  have key : ∀ ww xx yy : Nat, ww / 2 ^ 28 % 16 = 0 → ww / 2 ^ 24 % 16 = 3 → zf ww 0 8 = true → bv 4 ww 20 = w0 → bv 4 ww 16 = w1 → bv 4 ww 12 = w2 → bv 4 ww 8 = w3 → bv 16 xx 0 = t0 → bv 16 xx 16 = t1 → bv 16 yy 0 = t2 → bv 16 yy 16 = t3 → decodeSlot ww xx yy = .ok (.bway w0 w1 w2 w3 t0 t1 t2 t3 : Instr) := by
    intro ww xx yy h0 h1 h2 h3 h4 h5 h6 h7 h8 h9 h10
    simp only [decodeSlot, decodeRow0, h0, h1, h2, h3, h4, h5, h6, h7, h8, h9, h10, if_true]
  exact three (i := (.bway w0 w1 w2 w3 t0 t1 t2 t3 : Instr)) rfl (key (enc 0x3000000 [(w0.toNat, 20), (w1.toNat, 16), (w2.toNat, 12), (w3.toNat, 8)]) (enc 0x0 [(t0.toNat, 0), (t1.toNat, 16)]) (enc 0x0 [(t2.toNat, 0), (t3.toNat, 16)])
    (enc_rest k0 f0 28 4 rfl)
    (enc_rest k0 f0 24 4 rfl)
    (zf_eq (enc_rest k0 f0 0 8 rfl))
    (bv_eq (enc_field k0 f0 0 _ _ _ rfl))
    (bv_eq (enc_field k0 f0 1 _ _ _ rfl))
    (bv_eq (enc_field k0 f0 2 _ _ _ rfl))
    (bv_eq (enc_field k0 f0 3 _ _ _ rfl))
    (bv_eq (enc_field k1 f1 0 _ _ _ rfl))
    (bv_eq (enc_field k1 f1 1 _ _ _ rfl))
    (bv_eq (enc_field k2 f2 0 _ _ _ rfl))
    (bv_eq (enc_field k2 f2 1 _ _ _ rfl)))

theorem call (o) : Statement (.call o : Instr) := by
  have k0 : layoutOk 0x4000000 [(0, 24)] = true := by decide
  have f0 : fit [(o.toNat, 0, 24)] := ⟨o.isLt, trivial⟩
  have key : ∀ ww : Nat, ww / 2 ^ 28 % 16 = 0 → ww / 2 ^ 24 % 16 = 4 → bv 24 ww 0 = o → decodeSlot ww 0 0 = .ok (.call o : Instr) := by
    intro ww h0 h1 h2
    simp only [decodeSlot, decodeRow0, h0, h1, h2]
  exact one (i := (.call o : Instr)) rfl (key (enc 0x4000000 [(o.toNat, 0)])
    (enc_rest k0 f0 28 4 rfl)
    (enc_rest k0 f0 24 4 rfl)
    (bv_eq (enc_field k0 f0 0 _ _ _ rfl)))

theorem calli (c x i) : Statement (.calli c x i : Instr) := by
  have k0 : layoutOk 0x5000000 [(14, 4), (8, 6), (0, 8)] = true := by decide
  have f0 : fit [(c.toNat, 14, 4), (x.toNat, 8, 6), (i.toNat, 0, 8)] := ⟨c.isLt, x.isLt, i.isLt, trivial⟩
  have key : ∀ ww : Nat, ww / 2 ^ 28 % 16 = 0 → ww / 2 ^ 24 % 16 = 5 → zf ww 18 6 = true → bv 4 ww 14 = c → bv 6 ww 8 = x → bv 8 ww 0 = i → decodeSlot ww 0 0 = .ok (.calli c x i : Instr) := by
    intro ww h0 h1 h2 h3 h4 h5
    simp only [decodeSlot, decodeRow0, h0, h1, h2, h3, h4, h5, if_true]
  exact one (i := (.calli c x i : Instr)) rfl (key (enc 0x5000000 [(c.toNat, 14), (x.toNat, 8), (i.toNat, 0)])
    (enc_rest k0 f0 28 4 rfl)
    (enc_rest k0 f0 24 4 rfl)
    (zf_eq (enc_rest k0 f0 18 6 rfl))
    (bv_eq (enc_field k0 f0 0 _ _ _ rfl))
    (bv_eq (enc_field k0 f0 1 _ _ _ rfl))
    (bv_eq (enc_field k0 f0 2 _ _ _ rfl)))

theorem jmpi (c x i) : Statement (.jmpi c x i : Instr) := by
  have k0 : layoutOk 0x6000000 [(14, 4), (8, 6), (0, 8)] = true := by decide
  have f0 : fit [(c.toNat, 14, 4), (x.toNat, 8, 6), (i.toNat, 0, 8)] := ⟨c.isLt, x.isLt, i.isLt, trivial⟩
  have key : ∀ ww : Nat, ww / 2 ^ 28 % 16 = 0 → ww / 2 ^ 24 % 16 = 6 → zf ww 18 6 = true → bv 4 ww 14 = c → bv 6 ww 8 = x → bv 8 ww 0 = i → decodeSlot ww 0 0 = .ok (.jmpi c x i : Instr) := by
    intro ww h0 h1 h2 h3 h4 h5
    simp only [decodeSlot, decodeRow0, h0, h1, h2, h3, h4, h5, if_true]
  exact one (i := (.jmpi c x i : Instr)) rfl (key (enc 0x6000000 [(c.toNat, 14), (x.toNat, 8), (i.toNat, 0)])
    (enc_rest k0 f0 28 4 rfl)
    (enc_rest k0 f0 24 4 rfl)
    (zf_eq (enc_rest k0 f0 18 6 rfl))
    (bv_eq (enc_field k0 f0 0 _ _ _ rfl))
    (bv_eq (enc_field k0 f0 1 _ _ _ rfl))
    (bv_eq (enc_field k0 f0 2 _ _ _ rfl)))

theorem ret : Statement (.ret : Instr) := by
  have k0 : layoutOk 0x7000000 [] = true := by decide
  have f0 : fit [] := trivial
  have key : ∀ ww : Nat, ww / 2 ^ 28 % 16 = 0 → ww / 2 ^ 24 % 16 = 7 → zf ww 0 24 = true → decodeSlot ww 0 0 = .ok (.ret : Instr) := by
    intro ww h0 h1 h2
    simp only [decodeSlot, decodeRow0, h0, h1, h2, if_true]
  exact one (i := (.ret : Instr)) rfl (key (enc 0x7000000 [])
    (enc_rest k0 f0 28 4 rfl)
    (enc_rest k0 f0 24 4 rfl)
    (zf_eq (enc_rest k0 f0 0 24 rfl)))

theorem meet (i) : Statement (.meet i : Instr) := by
  have k0 : layoutOk 0x8000000 [(0, 12)] = true := by decide
  have f0 : fit [(i.toNat, 0, 12)] := ⟨i.isLt, trivial⟩
  have key : ∀ ww : Nat, ww / 2 ^ 28 % 16 = 0 → ww / 2 ^ 24 % 16 = 8 → zf ww 12 12 = true → bv 12 ww 0 = i → decodeSlot ww 0 0 = .ok (.meet i : Instr) := by
    intro ww h0 h1 h2 h3
    simp only [decodeSlot, decodeRow0, h0, h1, h2, h3, if_true]
  exact one (i := (.meet i : Instr)) rfl (key (enc 0x8000000 [(i.toNat, 0)])
    (enc_rest k0 f0 28 4 rfl)
    (enc_rest k0 f0 24 4 rfl)
    (zf_eq (enc_rest k0 f0 12 12 rfl))
    (bv_eq (enc_field k0 f0 0 _ _ _ rfl)))

theorem exit : Statement (.exit : Instr) := by
  have k0 : layoutOk 0x9000000 [] = true := by decide
  have f0 : fit [] := trivial
  have key : ∀ ww : Nat, ww / 2 ^ 28 % 16 = 0 → ww / 2 ^ 24 % 16 = 9 → zf ww 0 24 = true → decodeSlot ww 0 0 = .ok (.exit : Instr) := by
    intro ww h0 h1 h2
    simp only [decodeSlot, decodeRow0, h0, h1, h2, if_true]
  exact one (i := (.exit : Instr)) rfl (key (enc 0x9000000 [])
    (enc_rest k0 f0 28 4 rfl)
    (enc_rest k0 f0 24 4 rfl)
    (zf_eq (enc_rest k0 f0 0 24 rfl)))

theorem nop : Statement (.nop : Instr) := by
  have k0 : layoutOk 0xa000000 [] = true := by decide
  have f0 : fit [] := trivial
  have key : ∀ ww : Nat, ww / 2 ^ 28 % 16 = 0 → ww / 2 ^ 24 % 16 = 10 → zf ww 0 24 = true → decodeSlot ww 0 0 = .ok (.nop : Instr) := by
    intro ww h0 h1 h2
    simp only [decodeSlot, decodeRow0, h0, h1, h2, if_true]
  exact one (i := (.nop : Instr)) rfl (key (enc 0xa000000 [])
    (enc_rest k0 f0 28 4 rfl)
    (enc_rest k0 f0 24 4 rfl)
    (zf_eq (enc_rest k0 f0 0 24 rfl)))

theorem frame (i) : Statement (.frame i : Instr) := by
  have k0 : layoutOk 0xb000000 [(0, 12)] = true := by decide
  have f0 : fit [(i.toNat, 0, 12)] := ⟨i.isLt, trivial⟩
  have key : ∀ ww : Nat, ww / 2 ^ 28 % 16 = 0 → ww / 2 ^ 24 % 16 = 11 → zf ww 12 12 = true → bv 12 ww 0 = i → decodeSlot ww 0 0 = .ok (.frame i : Instr) := by
    intro ww h0 h1 h2 h3
    simp only [decodeSlot, decodeRow0, h0, h1, h2, h3, if_true]
  exact one (i := (.frame i : Instr)) rfl (key (enc 0xb000000 [(i.toNat, 0)])
    (enc_rest k0 f0 28 4 rfl)
    (enc_rest k0 f0 24 4 rfl)
    (zf_eq (enc_rest k0 f0 12 12 rfl))
    (bv_eq (enc_field k0 f0 0 _ _ _ rfl)))

theorem unframe : Statement (.unframe : Instr) := by
  have k0 : layoutOk 0xc000000 [] = true := by decide
  have f0 : fit [] := trivial
  have key : ∀ ww : Nat, ww / 2 ^ 28 % 16 = 0 → ww / 2 ^ 24 % 16 = 12 → zf ww 0 24 = true → decodeSlot ww 0 0 = .ok (.unframe : Instr) := by
    intro ww h0 h1 h2
    simp only [decodeSlot, decodeRow0, h0, h1, h2, if_true]
  exact one (i := (.unframe : Instr)) rfl (key (enc 0xc000000 [])
    (enc_rest k0 f0 28 4 rfl)
    (enc_rest k0 f0 24 4 rfl)
    (zf_eq (enc_rest k0 f0 0 24 rfl)))

theorem loop (d i) : Statement (.loop d i : Instr) := by
  have k0 : layoutOk 0xd000000 [(18, 6), (0, 12)] = true := by decide
  have f0 : fit [(d.toNat, 18, 6), (i.toNat, 0, 12)] := ⟨d.isLt, i.isLt, trivial⟩
  have key : ∀ ww : Nat, ww / 2 ^ 28 % 16 = 0 → ww / 2 ^ 24 % 16 = 13 → zf ww 12 6 = true → bv 6 ww 18 = d → bv 12 ww 0 = i → decodeSlot ww 0 0 = .ok (.loop d i : Instr) := by
    intro ww h0 h1 h2 h3 h4
    simp only [decodeSlot, decodeRow0, h0, h1, h2, h3, h4, if_true]
  exact one (i := (.loop d i : Instr)) rfl (key (enc 0xd000000 [(d.toNat, 18), (i.toNat, 0)])
    (enc_rest k0 f0 28 4 rfl)
    (enc_rest k0 f0 24 4 rfl)
    (zf_eq (enc_rest k0 f0 12 6 rfl))
    (bv_eq (enc_field k0 f0 0 _ _ _ rfl))
    (bv_eq (enc_field k0 f0 1 _ _ _ rfl)))

theorem assert (n p) : Statement (.assert n p : Instr) := by
  have k0 : layoutOk 0xe000000 [(3, 1), (0, 3)] = true := by decide
  have f0 : fit [(b2n n, 3, 1), (p.toNat, 0, 3)] := ⟨b2n_lt n, p.isLt, trivial⟩
  have key : ∀ ww : Nat, ww / 2 ^ 28 % 16 = 0 → ww / 2 ^ 24 % 16 = 14 → zf ww 4 20 = true → bit ww 3 = n → bv 3 ww 0 = p → decodeSlot ww 0 0 = .ok (.assert n p : Instr) := by
    intro ww h0 h1 h2 h3 h4
    simp only [decodeSlot, decodeRow0, h0, h1, h2, h3, h4, if_true]
  exact one (i := (.assert n p : Instr)) rfl (key (enc 0xe000000 [(b2n n, 3), (p.toNat, 0)])
    (enc_rest k0 f0 28 4 rfl)
    (enc_rest k0 f0 24 4 rfl)
    (zf_eq (enc_rest k0 f0 4 20 rfl))
    (bit_eq (enc_field k0 f0 0 _ _ _ rfl))
    (bv_eq (enc_field k0 f0 1 _ _ _ rfl)))

theorem add (d a b g s u) : Statement (.add d a b g s u : Instr) := by
  have k0 : layoutOk 0x10000000 [(18, 6), (12, 6), (6, 6), (5, 1), (4, 1), (3, 1)] = true := by decide
  have f0 : fit [(d.toNat, 18, 6), (a.toNat, 12, 6), (b.toNat, 6, 6), (b2n g, 5, 1), (b2n s, 4, 1), (b2n u, 3, 1)] := ⟨d.isLt, a.isLt, b.isLt, b2n_lt g, b2n_lt s, b2n_lt u, trivial⟩
  have key : ∀ ww : Nat, ww / 2 ^ 28 % 16 = 1 → ww / 2 ^ 24 % 16 = 0 → zf ww 0 3 = true → bv 6 ww 18 = d → bv 6 ww 12 = a → bv 6 ww 6 = b → bit ww 5 = g → bit ww 4 = s → bit ww 3 = u → decodeSlot ww 0 0 = .ok (.add d a b g s u : Instr) := by
    intro ww h0 h1 h2 h3 h4 h5 h6 h7 h8
    simp only [decodeSlot, decodeRow1, h0, h1, h2, h3, h4, h5, h6, h7, h8, if_true]
  exact one (i := (.add d a b g s u : Instr)) rfl (key (enc 0x10000000 [(d.toNat, 18), (a.toNat, 12), (b.toNat, 6), (b2n g, 5), (b2n s, 4), (b2n u, 3)])
    (enc_rest k0 f0 28 4 rfl)
    (enc_rest k0 f0 24 4 rfl)
    (zf_eq (enc_rest k0 f0 0 3 rfl))
    (bv_eq (enc_field k0 f0 0 _ _ _ rfl))
    (bv_eq (enc_field k0 f0 1 _ _ _ rfl))
    (bv_eq (enc_field k0 f0 2 _ _ _ rfl))
    (bit_eq (enc_field k0 f0 3 _ _ _ rfl))
    (bit_eq (enc_field k0 f0 4 _ _ _ rfl))
    (bit_eq (enc_field k0 f0 5 _ _ _ rfl)))

theorem addi (d a i) : Statement (.addi d a i : Instr) := by
  have k0 : layoutOk 0x11000000 [(18, 6), (12, 6), (0, 12)] = true := by decide
  have f0 : fit [(d.toNat, 18, 6), (a.toNat, 12, 6), (i.toNat, 0, 12)] := ⟨d.isLt, a.isLt, i.isLt, trivial⟩
  have key : ∀ ww : Nat, ww / 2 ^ 28 % 16 = 1 → ww / 2 ^ 24 % 16 = 1 → bv 6 ww 18 = d → bv 6 ww 12 = a → bv 12 ww 0 = i → decodeSlot ww 0 0 = .ok (.addi d a i : Instr) := by
    intro ww h0 h1 h2 h3 h4
    simp only [decodeSlot, decodeRow1, h0, h1, h2, h3, h4]
  exact one (i := (.addi d a i : Instr)) rfl (key (enc 0x11000000 [(d.toNat, 18), (a.toNat, 12), (i.toNat, 0)])
    (enc_rest k0 f0 28 4 rfl)
    (enc_rest k0 f0 24 4 rfl)
    (bv_eq (enc_field k0 f0 0 _ _ _ rfl))
    (bv_eq (enc_field k0 f0 1 _ _ _ rfl))
    (bv_eq (enc_field k0 f0 2 _ _ _ rfl)))

theorem sub (d a b g s u) : Statement (.sub d a b g s u : Instr) := by
  have k0 : layoutOk 0x12000000 [(18, 6), (12, 6), (6, 6), (5, 1), (4, 1), (3, 1)] = true := by decide
  have f0 : fit [(d.toNat, 18, 6), (a.toNat, 12, 6), (b.toNat, 6, 6), (b2n g, 5, 1), (b2n s, 4, 1), (b2n u, 3, 1)] := ⟨d.isLt, a.isLt, b.isLt, b2n_lt g, b2n_lt s, b2n_lt u, trivial⟩
  have key : ∀ ww : Nat, ww / 2 ^ 28 % 16 = 1 → ww / 2 ^ 24 % 16 = 2 → zf ww 0 3 = true → bv 6 ww 18 = d → bv 6 ww 12 = a → bv 6 ww 6 = b → bit ww 5 = g → bit ww 4 = s → bit ww 3 = u → decodeSlot ww 0 0 = .ok (.sub d a b g s u : Instr) := by
    intro ww h0 h1 h2 h3 h4 h5 h6 h7 h8
    simp only [decodeSlot, decodeRow1, h0, h1, h2, h3, h4, h5, h6, h7, h8, if_true]
  exact one (i := (.sub d a b g s u : Instr)) rfl (key (enc 0x12000000 [(d.toNat, 18), (a.toNat, 12), (b.toNat, 6), (b2n g, 5), (b2n s, 4), (b2n u, 3)])
    (enc_rest k0 f0 28 4 rfl)
    (enc_rest k0 f0 24 4 rfl)
    (zf_eq (enc_rest k0 f0 0 3 rfl))
    (bv_eq (enc_field k0 f0 0 _ _ _ rfl))
    (bv_eq (enc_field k0 f0 1 _ _ _ rfl))
    (bv_eq (enc_field k0 f0 2 _ _ _ rfl))
    (bit_eq (enc_field k0 f0 3 _ _ _ rfl))
    (bit_eq (enc_field k0 f0 4 _ _ _ rfl))
    (bit_eq (enc_field k0 f0 5 _ _ _ rfl)))

theorem addc (d a b g) : Statement (.addc d a b g : Instr) := by
  have k0 : layoutOk 0x13000000 [(18, 6), (12, 6), (6, 6), (5, 1)] = true := by decide
  have f0 : fit [(d.toNat, 18, 6), (a.toNat, 12, 6), (b.toNat, 6, 6), (b2n g, 5, 1)] := ⟨d.isLt, a.isLt, b.isLt, b2n_lt g, trivial⟩
  have key : ∀ ww : Nat, ww / 2 ^ 28 % 16 = 1 → ww / 2 ^ 24 % 16 = 3 → zf ww 0 5 = true → bv 6 ww 18 = d → bv 6 ww 12 = a → bv 6 ww 6 = b → bit ww 5 = g → decodeSlot ww 0 0 = .ok (.addc d a b g : Instr) := by
    intro ww h0 h1 h2 h3 h4 h5 h6
    simp only [decodeSlot, decodeRow1, h0, h1, h2, h3, h4, h5, h6, if_true]
  exact one (i := (.addc d a b g : Instr)) rfl (key (enc 0x13000000 [(d.toNat, 18), (a.toNat, 12), (b.toNat, 6), (b2n g, 5)])
    (enc_rest k0 f0 28 4 rfl)
    (enc_rest k0 f0 24 4 rfl)
    (zf_eq (enc_rest k0 f0 0 5 rfl))
    (bv_eq (enc_field k0 f0 0 _ _ _ rfl))
    (bv_eq (enc_field k0 f0 1 _ _ _ rfl))
    (bv_eq (enc_field k0 f0 2 _ _ _ rfl))
    (bit_eq (enc_field k0 f0 3 _ _ _ rfl)))

theorem mul (d a b g s u) : Statement (.mul d a b g s u : Instr) := by
  have k0 : layoutOk 0x14000000 [(18, 6), (12, 6), (6, 6), (5, 1), (4, 1), (3, 1)] = true := by decide
  have f0 : fit [(d.toNat, 18, 6), (a.toNat, 12, 6), (b.toNat, 6, 6), (b2n g, 5, 1), (b2n s, 4, 1), (b2n u, 3, 1)] := ⟨d.isLt, a.isLt, b.isLt, b2n_lt g, b2n_lt s, b2n_lt u, trivial⟩
  have key : ∀ ww : Nat, ww / 2 ^ 28 % 16 = 1 → ww / 2 ^ 24 % 16 = 4 → zf ww 0 3 = true → bv 6 ww 18 = d → bv 6 ww 12 = a → bv 6 ww 6 = b → bit ww 5 = g → bit ww 4 = s → bit ww 3 = u → decodeSlot ww 0 0 = .ok (.mul d a b g s u : Instr) := by
    intro ww h0 h1 h2 h3 h4 h5 h6 h7 h8
    simp only [decodeSlot, decodeRow1, h0, h1, h2, h3, h4, h5, h6, h7, h8, if_true]
  exact one (i := (.mul d a b g s u : Instr)) rfl (key (enc 0x14000000 [(d.toNat, 18), (a.toNat, 12), (b.toNat, 6), (b2n g, 5), (b2n s, 4), (b2n u, 3)])
    (enc_rest k0 f0 28 4 rfl)
    (enc_rest k0 f0 24 4 rfl)
    (zf_eq (enc_rest k0 f0 0 3 rfl))
    (bv_eq (enc_field k0 f0 0 _ _ _ rfl))
    (bv_eq (enc_field k0 f0 1 _ _ _ rfl))
    (bv_eq (enc_field k0 f0 2 _ _ _ rfl))
    (bit_eq (enc_field k0 f0 3 _ _ _ rfl))
    (bit_eq (enc_field k0 f0 4 _ _ _ rfl))
    (bit_eq (enc_field k0 f0 5 _ _ _ rfl)))

theorem mulhi (d a b g u) : Statement (.mulhi d a b g u : Instr) := by
  have k0 : layoutOk 0x15000000 [(18, 6), (12, 6), (6, 6), (5, 1), (3, 1)] = true := by decide
  have f0 : fit [(d.toNat, 18, 6), (a.toNat, 12, 6), (b.toNat, 6, 6), (b2n g, 5, 1), (b2n u, 3, 1)] := ⟨d.isLt, a.isLt, b.isLt, b2n_lt g, b2n_lt u, trivial⟩
  have key : ∀ ww : Nat, ww / 2 ^ 28 % 16 = 1 → ww / 2 ^ 24 % 16 = 5 → zf ww 0 3 = true → zf ww 4 1 = true → bv 6 ww 18 = d → bv 6 ww 12 = a → bv 6 ww 6 = b → bit ww 5 = g → bit ww 3 = u → decodeSlot ww 0 0 = .ok (.mulhi d a b g u : Instr) := by
    intro ww h0 h1 h2 h3 h4 h5 h6 h7 h8
    simp only [decodeSlot, decodeRow1, h0, h1, h2, h3, h4, h5, h6, h7, h8, Bool.and_self, if_true]
  exact one (i := (.mulhi d a b g u : Instr)) rfl (key (enc 0x15000000 [(d.toNat, 18), (a.toNat, 12), (b.toNat, 6), (b2n g, 5), (b2n u, 3)])
    (enc_rest k0 f0 28 4 rfl)
    (enc_rest k0 f0 24 4 rfl)
    (zf_eq (enc_rest k0 f0 0 3 rfl))
    (zf_eq (enc_rest k0 f0 4 1 rfl))
    (bv_eq (enc_field k0 f0 0 _ _ _ rfl))
    (bv_eq (enc_field k0 f0 1 _ _ _ rfl))
    (bv_eq (enc_field k0 f0 2 _ _ _ rfl))
    (bit_eq (enc_field k0 f0 3 _ _ _ rfl))
    (bit_eq (enc_field k0 f0 4 _ _ _ rfl)))

theorem mad (d a b c) : Statement (.mad d a b c : Instr) := by
  have k0 : layoutOk 0x16000000 [(18, 6), (12, 6), (6, 6), (0, 6)] = true := by decide
  have f0 : fit [(d.toNat, 18, 6), (a.toNat, 12, 6), (b.toNat, 6, 6), (c.toNat, 0, 6)] := ⟨d.isLt, a.isLt, b.isLt, c.isLt, trivial⟩
  have key : ∀ ww : Nat, ww / 2 ^ 28 % 16 = 1 → ww / 2 ^ 24 % 16 = 6 → bv 6 ww 18 = d → bv 6 ww 12 = a → bv 6 ww 6 = b → bv 6 ww 0 = c → decodeSlot ww 0 0 = .ok (.mad d a b c : Instr) := by
    intro ww h0 h1 h2 h3 h4 h5
    simp only [decodeSlot, decodeRow1, h0, h1, h2, h3, h4, h5]
  exact one (i := (.mad d a b c : Instr)) rfl (key (enc 0x16000000 [(d.toNat, 18), (a.toNat, 12), (b.toNat, 6), (c.toNat, 0)])
    (enc_rest k0 f0 28 4 rfl)
    (enc_rest k0 f0 24 4 rfl)
    (bv_eq (enc_field k0 f0 0 _ _ _ rfl))
    (bv_eq (enc_field k0 f0 1 _ _ _ rfl))
    (bv_eq (enc_field k0 f0 2 _ _ _ rfl))
    (bv_eq (enc_field k0 f0 3 _ _ _ rfl)))

theorem madw (d a b c) : Statement (.madw d a b c : Instr) := by
  have k0 : layoutOk 0x17000000 [(18, 6), (12, 6), (6, 6), (0, 6)] = true := by decide
  have f0 : fit [(d.toNat, 18, 6), (a.toNat, 12, 6), (b.toNat, 6, 6), (c.toNat, 0, 6)] := ⟨d.isLt, a.isLt, b.isLt, c.isLt, trivial⟩
  have key : ∀ ww : Nat, ww / 2 ^ 28 % 16 = 1 → ww / 2 ^ 24 % 16 = 7 → bv 6 ww 18 = d → bv 6 ww 12 = a → bv 6 ww 6 = b → bv 6 ww 0 = c → decodeSlot ww 0 0 = .ok (.madw d a b c : Instr) := by
    intro ww h0 h1 h2 h3 h4 h5
    simp only [decodeSlot, decodeRow1, h0, h1, h2, h3, h4, h5]
  exact one (i := (.madw d a b c : Instr)) rfl (key (enc 0x17000000 [(d.toNat, 18), (a.toNat, 12), (b.toNat, 6), (c.toNat, 0)])
    (enc_rest k0 f0 28 4 rfl)
    (enc_rest k0 f0 24 4 rfl)
    (bv_eq (enc_field k0 f0 0 _ _ _ rfl))
    (bv_eq (enc_field k0 f0 1 _ _ _ rfl))
    (bv_eq (enc_field k0 f0 2 _ _ _ rfl))
    (bv_eq (enc_field k0 f0 3 _ _ _ rfl)))

theorem div (d a b g s u) : Statement (.div d a b g s u : Instr) := by
  have k0 : layoutOk 0x18000000 [(18, 6), (12, 6), (6, 6), (5, 1), (4, 1), (3, 1)] = true := by decide
  have f0 : fit [(d.toNat, 18, 6), (a.toNat, 12, 6), (b.toNat, 6, 6), (b2n g, 5, 1), (b2n s, 4, 1), (b2n u, 3, 1)] := ⟨d.isLt, a.isLt, b.isLt, b2n_lt g, b2n_lt s, b2n_lt u, trivial⟩
  have key : ∀ ww : Nat, ww / 2 ^ 28 % 16 = 1 → ww / 2 ^ 24 % 16 = 8 → zf ww 0 3 = true → bv 6 ww 18 = d → bv 6 ww 12 = a → bv 6 ww 6 = b → bit ww 5 = g → bit ww 4 = s → bit ww 3 = u → decodeSlot ww 0 0 = .ok (.div d a b g s u : Instr) := by
    intro ww h0 h1 h2 h3 h4 h5 h6 h7 h8
    simp only [decodeSlot, decodeRow1, h0, h1, h2, h3, h4, h5, h6, h7, h8, if_true]
  exact one (i := (.div d a b g s u : Instr)) rfl (key (enc 0x18000000 [(d.toNat, 18), (a.toNat, 12), (b.toNat, 6), (b2n g, 5), (b2n s, 4), (b2n u, 3)])
    (enc_rest k0 f0 28 4 rfl)
    (enc_rest k0 f0 24 4 rfl)
    (zf_eq (enc_rest k0 f0 0 3 rfl))
    (bv_eq (enc_field k0 f0 0 _ _ _ rfl))
    (bv_eq (enc_field k0 f0 1 _ _ _ rfl))
    (bv_eq (enc_field k0 f0 2 _ _ _ rfl))
    (bit_eq (enc_field k0 f0 3 _ _ _ rfl))
    (bit_eq (enc_field k0 f0 4 _ _ _ rfl))
    (bit_eq (enc_field k0 f0 5 _ _ _ rfl)))

theorem rem (d a b g u) : Statement (.rem d a b g u : Instr) := by
  have k0 : layoutOk 0x19000000 [(18, 6), (12, 6), (6, 6), (5, 1), (3, 1)] = true := by decide
  have f0 : fit [(d.toNat, 18, 6), (a.toNat, 12, 6), (b.toNat, 6, 6), (b2n g, 5, 1), (b2n u, 3, 1)] := ⟨d.isLt, a.isLt, b.isLt, b2n_lt g, b2n_lt u, trivial⟩
  have key : ∀ ww : Nat, ww / 2 ^ 28 % 16 = 1 → ww / 2 ^ 24 % 16 = 9 → zf ww 0 3 = true → zf ww 4 1 = true → bv 6 ww 18 = d → bv 6 ww 12 = a → bv 6 ww 6 = b → bit ww 5 = g → bit ww 3 = u → decodeSlot ww 0 0 = .ok (.rem d a b g u : Instr) := by
    intro ww h0 h1 h2 h3 h4 h5 h6 h7 h8
    simp only [decodeSlot, decodeRow1, h0, h1, h2, h3, h4, h5, h6, h7, h8, Bool.and_self, if_true]
  exact one (i := (.rem d a b g u : Instr)) rfl (key (enc 0x19000000 [(d.toNat, 18), (a.toNat, 12), (b.toNat, 6), (b2n g, 5), (b2n u, 3)])
    (enc_rest k0 f0 28 4 rfl)
    (enc_rest k0 f0 24 4 rfl)
    (zf_eq (enc_rest k0 f0 0 3 rfl))
    (zf_eq (enc_rest k0 f0 4 1 rfl))
    (bv_eq (enc_field k0 f0 0 _ _ _ rfl))
    (bv_eq (enc_field k0 f0 1 _ _ _ rfl))
    (bv_eq (enc_field k0 f0 2 _ _ _ rfl))
    (bit_eq (enc_field k0 f0 3 _ _ _ rfl))
    (bit_eq (enc_field k0 f0 4 _ _ _ rfl)))

theorem min (d a b g u) : Statement (.min d a b g u : Instr) := by
  have k0 : layoutOk 0x1a000000 [(18, 6), (12, 6), (6, 6), (5, 1), (3, 1)] = true := by decide
  have f0 : fit [(d.toNat, 18, 6), (a.toNat, 12, 6), (b.toNat, 6, 6), (b2n g, 5, 1), (b2n u, 3, 1)] := ⟨d.isLt, a.isLt, b.isLt, b2n_lt g, b2n_lt u, trivial⟩
  have key : ∀ ww : Nat, ww / 2 ^ 28 % 16 = 1 → ww / 2 ^ 24 % 16 = 10 → zf ww 0 3 = true → zf ww 4 1 = true → bv 6 ww 18 = d → bv 6 ww 12 = a → bv 6 ww 6 = b → bit ww 5 = g → bit ww 3 = u → decodeSlot ww 0 0 = .ok (.min d a b g u : Instr) := by
    intro ww h0 h1 h2 h3 h4 h5 h6 h7 h8
    simp only [decodeSlot, decodeRow1, h0, h1, h2, h3, h4, h5, h6, h7, h8, Bool.and_self, if_true]
  exact one (i := (.min d a b g u : Instr)) rfl (key (enc 0x1a000000 [(d.toNat, 18), (a.toNat, 12), (b.toNat, 6), (b2n g, 5), (b2n u, 3)])
    (enc_rest k0 f0 28 4 rfl)
    (enc_rest k0 f0 24 4 rfl)
    (zf_eq (enc_rest k0 f0 0 3 rfl))
    (zf_eq (enc_rest k0 f0 4 1 rfl))
    (bv_eq (enc_field k0 f0 0 _ _ _ rfl))
    (bv_eq (enc_field k0 f0 1 _ _ _ rfl))
    (bv_eq (enc_field k0 f0 2 _ _ _ rfl))
    (bit_eq (enc_field k0 f0 3 _ _ _ rfl))
    (bit_eq (enc_field k0 f0 4 _ _ _ rfl)))

theorem max (d a b g u) : Statement (.max d a b g u : Instr) := by
  have k0 : layoutOk 0x1b000000 [(18, 6), (12, 6), (6, 6), (5, 1), (3, 1)] = true := by decide
  have f0 : fit [(d.toNat, 18, 6), (a.toNat, 12, 6), (b.toNat, 6, 6), (b2n g, 5, 1), (b2n u, 3, 1)] := ⟨d.isLt, a.isLt, b.isLt, b2n_lt g, b2n_lt u, trivial⟩
  have key : ∀ ww : Nat, ww / 2 ^ 28 % 16 = 1 → ww / 2 ^ 24 % 16 = 11 → zf ww 0 3 = true → zf ww 4 1 = true → bv 6 ww 18 = d → bv 6 ww 12 = a → bv 6 ww 6 = b → bit ww 5 = g → bit ww 3 = u → decodeSlot ww 0 0 = .ok (.max d a b g u : Instr) := by
    intro ww h0 h1 h2 h3 h4 h5 h6 h7 h8
    simp only [decodeSlot, decodeRow1, h0, h1, h2, h3, h4, h5, h6, h7, h8, Bool.and_self, if_true]
  exact one (i := (.max d a b g u : Instr)) rfl (key (enc 0x1b000000 [(d.toNat, 18), (a.toNat, 12), (b.toNat, 6), (b2n g, 5), (b2n u, 3)])
    (enc_rest k0 f0 28 4 rfl)
    (enc_rest k0 f0 24 4 rfl)
    (zf_eq (enc_rest k0 f0 0 3 rfl))
    (zf_eq (enc_rest k0 f0 4 1 rfl))
    (bv_eq (enc_field k0 f0 0 _ _ _ rfl))
    (bv_eq (enc_field k0 f0 1 _ _ _ rfl))
    (bv_eq (enc_field k0 f0 2 _ _ _ rfl))
    (bit_eq (enc_field k0 f0 3 _ _ _ rfl))
    (bit_eq (enc_field k0 f0 4 _ _ _ rfl)))

theorem abs (d a g s) : Statement (.abs d a g s : Instr) := by
  have k0 : layoutOk 0x1c000000 [(18, 6), (12, 6), (5, 1), (4, 1)] = true := by decide
  have f0 : fit [(d.toNat, 18, 6), (a.toNat, 12, 6), (b2n g, 5, 1), (b2n s, 4, 1)] := ⟨d.isLt, a.isLt, b2n_lt g, b2n_lt s, trivial⟩
  have key : ∀ ww : Nat, ww / 2 ^ 28 % 16 = 1 → ww / 2 ^ 24 % 16 = 12 → zf ww 0 4 = true → zf ww 6 6 = true → bv 6 ww 18 = d → bv 6 ww 12 = a → bit ww 5 = g → bit ww 4 = s → decodeSlot ww 0 0 = .ok (.abs d a g s : Instr) := by
    intro ww h0 h1 h2 h3 h4 h5 h6 h7
    simp only [decodeSlot, decodeRow1, h0, h1, h2, h3, h4, h5, h6, h7, Bool.and_self, if_true]
  exact one (i := (.abs d a g s : Instr)) rfl (key (enc 0x1c000000 [(d.toNat, 18), (a.toNat, 12), (b2n g, 5), (b2n s, 4)])
    (enc_rest k0 f0 28 4 rfl)
    (enc_rest k0 f0 24 4 rfl)
    (zf_eq (enc_rest k0 f0 0 4 rfl))
    (zf_eq (enc_rest k0 f0 6 6 rfl))
    (bv_eq (enc_field k0 f0 0 _ _ _ rfl))
    (bv_eq (enc_field k0 f0 1 _ _ _ rfl))
    (bit_eq (enc_field k0 f0 2 _ _ _ rfl))
    (bit_eq (enc_field k0 f0 3 _ _ _ rfl)))

theorem neg (d a g s) : Statement (.neg d a g s : Instr) := by
  have k0 : layoutOk 0x1d000000 [(18, 6), (12, 6), (5, 1), (4, 1)] = true := by decide
  have f0 : fit [(d.toNat, 18, 6), (a.toNat, 12, 6), (b2n g, 5, 1), (b2n s, 4, 1)] := ⟨d.isLt, a.isLt, b2n_lt g, b2n_lt s, trivial⟩
  have key : ∀ ww : Nat, ww / 2 ^ 28 % 16 = 1 → ww / 2 ^ 24 % 16 = 13 → zf ww 0 4 = true → zf ww 6 6 = true → bv 6 ww 18 = d → bv 6 ww 12 = a → bit ww 5 = g → bit ww 4 = s → decodeSlot ww 0 0 = .ok (.neg d a g s : Instr) := by
    intro ww h0 h1 h2 h3 h4 h5 h6 h7
    simp only [decodeSlot, decodeRow1, h0, h1, h2, h3, h4, h5, h6, h7, Bool.and_self, if_true]
  exact one (i := (.neg d a g s : Instr)) rfl (key (enc 0x1d000000 [(d.toNat, 18), (a.toNat, 12), (b2n g, 5), (b2n s, 4)])
    (enc_rest k0 f0 28 4 rfl)
    (enc_rest k0 f0 24 4 rfl)
    (zf_eq (enc_rest k0 f0 0 4 rfl))
    (zf_eq (enc_rest k0 f0 6 6 rfl))
    (bv_eq (enc_field k0 f0 0 _ _ _ rfl))
    (bv_eq (enc_field k0 f0 1 _ _ _ rfl))
    (bit_eq (enc_field k0 f0 2 _ _ _ rfl))
    (bit_eq (enc_field k0 f0 3 _ _ _ rfl)))

theorem and (d a b g) : Statement (.and d a b g : Instr) := by
  have k0 : layoutOk 0x1e000000 [(18, 6), (12, 6), (6, 6), (5, 1)] = true := by decide
  have f0 : fit [(d.toNat, 18, 6), (a.toNat, 12, 6), (b.toNat, 6, 6), (b2n g, 5, 1)] := ⟨d.isLt, a.isLt, b.isLt, b2n_lt g, trivial⟩
  have key : ∀ ww : Nat, ww / 2 ^ 28 % 16 = 1 → ww / 2 ^ 24 % 16 = 14 → zf ww 0 5 = true → bv 6 ww 18 = d → bv 6 ww 12 = a → bv 6 ww 6 = b → bit ww 5 = g → decodeSlot ww 0 0 = .ok (.and d a b g : Instr) := by
    intro ww h0 h1 h2 h3 h4 h5 h6
    simp only [decodeSlot, decodeRow1, h0, h1, h2, h3, h4, h5, h6, if_true]
  exact one (i := (.and d a b g : Instr)) rfl (key (enc 0x1e000000 [(d.toNat, 18), (a.toNat, 12), (b.toNat, 6), (b2n g, 5)])
    (enc_rest k0 f0 28 4 rfl)
    (enc_rest k0 f0 24 4 rfl)
    (zf_eq (enc_rest k0 f0 0 5 rfl))
    (bv_eq (enc_field k0 f0 0 _ _ _ rfl))
    (bv_eq (enc_field k0 f0 1 _ _ _ rfl))
    (bv_eq (enc_field k0 f0 2 _ _ _ rfl))
    (bit_eq (enc_field k0 f0 3 _ _ _ rfl)))

theorem andi (d a i) : Statement (.andi d a i : Instr) := by
  have k0 : layoutOk 0x1f000000 [(18, 6), (12, 6), (0, 12)] = true := by decide
  have f0 : fit [(d.toNat, 18, 6), (a.toNat, 12, 6), (i.toNat, 0, 12)] := ⟨d.isLt, a.isLt, i.isLt, trivial⟩
  have key : ∀ ww : Nat, ww / 2 ^ 28 % 16 = 1 → ww / 2 ^ 24 % 16 = 15 → bv 6 ww 18 = d → bv 6 ww 12 = a → bv 12 ww 0 = i → decodeSlot ww 0 0 = .ok (.andi d a i : Instr) := by
    intro ww h0 h1 h2 h3 h4
    simp only [decodeSlot, decodeRow1, h0, h1, h2, h3, h4]
  exact one (i := (.andi d a i : Instr)) rfl (key (enc 0x1f000000 [(d.toNat, 18), (a.toNat, 12), (i.toNat, 0)])
    (enc_rest k0 f0 28 4 rfl)
    (enc_rest k0 f0 24 4 rfl)
    (bv_eq (enc_field k0 f0 0 _ _ _ rfl))
    (bv_eq (enc_field k0 f0 1 _ _ _ rfl))
    (bv_eq (enc_field k0 f0 2 _ _ _ rfl)))

theorem or (d a b g) : Statement (.or d a b g : Instr) := by
  have k0 : layoutOk 0x20000000 [(18, 6), (12, 6), (6, 6), (5, 1)] = true := by decide
  have f0 : fit [(d.toNat, 18, 6), (a.toNat, 12, 6), (b.toNat, 6, 6), (b2n g, 5, 1)] := ⟨d.isLt, a.isLt, b.isLt, b2n_lt g, trivial⟩
  have key : ∀ ww : Nat, ww / 2 ^ 28 % 16 = 2 → ww / 2 ^ 24 % 16 = 0 → zf ww 0 5 = true → bv 6 ww 18 = d → bv 6 ww 12 = a → bv 6 ww 6 = b → bit ww 5 = g → decodeSlot ww 0 0 = .ok (.or d a b g : Instr) := by
    intro ww h0 h1 h2 h3 h4 h5 h6
    simp only [decodeSlot, decodeRow2, h0, h1, h2, h3, h4, h5, h6, if_true]
  exact one (i := (.or d a b g : Instr)) rfl (key (enc 0x20000000 [(d.toNat, 18), (a.toNat, 12), (b.toNat, 6), (b2n g, 5)])
    (enc_rest k0 f0 28 4 rfl)
    (enc_rest k0 f0 24 4 rfl)
    (zf_eq (enc_rest k0 f0 0 5 rfl))
    (bv_eq (enc_field k0 f0 0 _ _ _ rfl))
    (bv_eq (enc_field k0 f0 1 _ _ _ rfl))
    (bv_eq (enc_field k0 f0 2 _ _ _ rfl))
    (bit_eq (enc_field k0 f0 3 _ _ _ rfl)))

theorem ori (d a i) : Statement (.ori d a i : Instr) := by
  have k0 : layoutOk 0x21000000 [(18, 6), (12, 6), (0, 12)] = true := by decide
  have f0 : fit [(d.toNat, 18, 6), (a.toNat, 12, 6), (i.toNat, 0, 12)] := ⟨d.isLt, a.isLt, i.isLt, trivial⟩
  have key : ∀ ww : Nat, ww / 2 ^ 28 % 16 = 2 → ww / 2 ^ 24 % 16 = 1 → bv 6 ww 18 = d → bv 6 ww 12 = a → bv 12 ww 0 = i → decodeSlot ww 0 0 = .ok (.ori d a i : Instr) := by
    intro ww h0 h1 h2 h3 h4
    simp only [decodeSlot, decodeRow2, h0, h1, h2, h3, h4]
  exact one (i := (.ori d a i : Instr)) rfl (key (enc 0x21000000 [(d.toNat, 18), (a.toNat, 12), (i.toNat, 0)])
    (enc_rest k0 f0 28 4 rfl)
    (enc_rest k0 f0 24 4 rfl)
    (bv_eq (enc_field k0 f0 0 _ _ _ rfl))
    (bv_eq (enc_field k0 f0 1 _ _ _ rfl))
    (bv_eq (enc_field k0 f0 2 _ _ _ rfl)))

theorem xor (d a b g) : Statement (.xor d a b g : Instr) := by
  have k0 : layoutOk 0x22000000 [(18, 6), (12, 6), (6, 6), (5, 1)] = true := by decide
  have f0 : fit [(d.toNat, 18, 6), (a.toNat, 12, 6), (b.toNat, 6, 6), (b2n g, 5, 1)] := ⟨d.isLt, a.isLt, b.isLt, b2n_lt g, trivial⟩
  have key : ∀ ww : Nat, ww / 2 ^ 28 % 16 = 2 → ww / 2 ^ 24 % 16 = 2 → zf ww 0 5 = true → bv 6 ww 18 = d → bv 6 ww 12 = a → bv 6 ww 6 = b → bit ww 5 = g → decodeSlot ww 0 0 = .ok (.xor d a b g : Instr) := by
    intro ww h0 h1 h2 h3 h4 h5 h6
    simp only [decodeSlot, decodeRow2, h0, h1, h2, h3, h4, h5, h6, if_true]
  exact one (i := (.xor d a b g : Instr)) rfl (key (enc 0x22000000 [(d.toNat, 18), (a.toNat, 12), (b.toNat, 6), (b2n g, 5)])
    (enc_rest k0 f0 28 4 rfl)
    (enc_rest k0 f0 24 4 rfl)
    (zf_eq (enc_rest k0 f0 0 5 rfl))
    (bv_eq (enc_field k0 f0 0 _ _ _ rfl))
    (bv_eq (enc_field k0 f0 1 _ _ _ rfl))
    (bv_eq (enc_field k0 f0 2 _ _ _ rfl))
    (bit_eq (enc_field k0 f0 3 _ _ _ rfl)))

theorem xori (d a i) : Statement (.xori d a i : Instr) := by
  have k0 : layoutOk 0x23000000 [(18, 6), (12, 6), (0, 12)] = true := by decide
  have f0 : fit [(d.toNat, 18, 6), (a.toNat, 12, 6), (i.toNat, 0, 12)] := ⟨d.isLt, a.isLt, i.isLt, trivial⟩
  have key : ∀ ww : Nat, ww / 2 ^ 28 % 16 = 2 → ww / 2 ^ 24 % 16 = 3 → bv 6 ww 18 = d → bv 6 ww 12 = a → bv 12 ww 0 = i → decodeSlot ww 0 0 = .ok (.xori d a i : Instr) := by
    intro ww h0 h1 h2 h3 h4
    simp only [decodeSlot, decodeRow2, h0, h1, h2, h3, h4]
  exact one (i := (.xori d a i : Instr)) rfl (key (enc 0x23000000 [(d.toNat, 18), (a.toNat, 12), (i.toNat, 0)])
    (enc_rest k0 f0 28 4 rfl)
    (enc_rest k0 f0 24 4 rfl)
    (bv_eq (enc_field k0 f0 0 _ _ _ rfl))
    (bv_eq (enc_field k0 f0 1 _ _ _ rfl))
    (bv_eq (enc_field k0 f0 2 _ _ _ rfl)))

theorem andn (d a b g) : Statement (.andn d a b g : Instr) := by
  have k0 : layoutOk 0x24000000 [(18, 6), (12, 6), (6, 6), (5, 1)] = true := by decide
  have f0 : fit [(d.toNat, 18, 6), (a.toNat, 12, 6), (b.toNat, 6, 6), (b2n g, 5, 1)] := ⟨d.isLt, a.isLt, b.isLt, b2n_lt g, trivial⟩
  have key : ∀ ww : Nat, ww / 2 ^ 28 % 16 = 2 → ww / 2 ^ 24 % 16 = 4 → zf ww 0 5 = true → bv 6 ww 18 = d → bv 6 ww 12 = a → bv 6 ww 6 = b → bit ww 5 = g → decodeSlot ww 0 0 = .ok (.andn d a b g : Instr) := by
    intro ww h0 h1 h2 h3 h4 h5 h6
    simp only [decodeSlot, decodeRow2, h0, h1, h2, h3, h4, h5, h6, if_true]
  exact one (i := (.andn d a b g : Instr)) rfl (key (enc 0x24000000 [(d.toNat, 18), (a.toNat, 12), (b.toNat, 6), (b2n g, 5)])
    (enc_rest k0 f0 28 4 rfl)
    (enc_rest k0 f0 24 4 rfl)
    (zf_eq (enc_rest k0 f0 0 5 rfl))
    (bv_eq (enc_field k0 f0 0 _ _ _ rfl))
    (bv_eq (enc_field k0 f0 1 _ _ _ rfl))
    (bv_eq (enc_field k0 f0 2 _ _ _ rfl))
    (bit_eq (enc_field k0 f0 3 _ _ _ rfl)))

theorem shl (d a b g s u) : Statement (.shl d a b g s u : Instr) := by
  have k0 : layoutOk 0x25000000 [(18, 6), (12, 6), (6, 6), (5, 1), (4, 1), (3, 1)] = true := by decide
  have f0 : fit [(d.toNat, 18, 6), (a.toNat, 12, 6), (b.toNat, 6, 6), (b2n g, 5, 1), (b2n s, 4, 1), (b2n u, 3, 1)] := ⟨d.isLt, a.isLt, b.isLt, b2n_lt g, b2n_lt s, b2n_lt u, trivial⟩
  have key : ∀ ww : Nat, ww / 2 ^ 28 % 16 = 2 → ww / 2 ^ 24 % 16 = 5 → zf ww 0 3 = true → bv 6 ww 18 = d → bv 6 ww 12 = a → bv 6 ww 6 = b → bit ww 5 = g → bit ww 4 = s → bit ww 3 = u → decodeSlot ww 0 0 = .ok (.shl d a b g s u : Instr) := by
    intro ww h0 h1 h2 h3 h4 h5 h6 h7 h8
    simp only [decodeSlot, decodeRow2, h0, h1, h2, h3, h4, h5, h6, h7, h8, if_true]
  exact one (i := (.shl d a b g s u : Instr)) rfl (key (enc 0x25000000 [(d.toNat, 18), (a.toNat, 12), (b.toNat, 6), (b2n g, 5), (b2n s, 4), (b2n u, 3)])
    (enc_rest k0 f0 28 4 rfl)
    (enc_rest k0 f0 24 4 rfl)
    (zf_eq (enc_rest k0 f0 0 3 rfl))
    (bv_eq (enc_field k0 f0 0 _ _ _ rfl))
    (bv_eq (enc_field k0 f0 1 _ _ _ rfl))
    (bv_eq (enc_field k0 f0 2 _ _ _ rfl))
    (bit_eq (enc_field k0 f0 3 _ _ _ rfl))
    (bit_eq (enc_field k0 f0 4 _ _ _ rfl))
    (bit_eq (enc_field k0 f0 5 _ _ _ rfl)))

theorem shli (d a k) : Statement (.shli d a k : Instr) := by
  have k0 : layoutOk 0x26000000 [(18, 6), (12, 6), (0, 5)] = true := by decide
  have f0 : fit [(d.toNat, 18, 6), (a.toNat, 12, 6), (k.toNat, 0, 5)] := ⟨d.isLt, a.isLt, k.isLt, trivial⟩
  have key : ∀ ww : Nat, ww / 2 ^ 28 % 16 = 2 → ww / 2 ^ 24 % 16 = 6 → zf ww 5 7 = true → bv 6 ww 18 = d → bv 6 ww 12 = a → bv 5 ww 0 = k → decodeSlot ww 0 0 = .ok (.shli d a k : Instr) := by
    intro ww h0 h1 h2 h3 h4 h5
    simp only [decodeSlot, decodeRow2, h0, h1, h2, h3, h4, h5, if_true]
  exact one (i := (.shli d a k : Instr)) rfl (key (enc 0x26000000 [(d.toNat, 18), (a.toNat, 12), (k.toNat, 0)])
    (enc_rest k0 f0 28 4 rfl)
    (enc_rest k0 f0 24 4 rfl)
    (zf_eq (enc_rest k0 f0 5 7 rfl))
    (bv_eq (enc_field k0 f0 0 _ _ _ rfl))
    (bv_eq (enc_field k0 f0 1 _ _ _ rfl))
    (bv_eq (enc_field k0 f0 2 _ _ _ rfl)))

theorem shr (d a b g u) : Statement (.shr d a b g u : Instr) := by
  have k0 : layoutOk 0x27000000 [(18, 6), (12, 6), (6, 6), (5, 1), (3, 1)] = true := by decide
  have f0 : fit [(d.toNat, 18, 6), (a.toNat, 12, 6), (b.toNat, 6, 6), (b2n g, 5, 1), (b2n u, 3, 1)] := ⟨d.isLt, a.isLt, b.isLt, b2n_lt g, b2n_lt u, trivial⟩
  have key : ∀ ww : Nat, ww / 2 ^ 28 % 16 = 2 → ww / 2 ^ 24 % 16 = 7 → zf ww 0 3 = true → zf ww 4 1 = true → bv 6 ww 18 = d → bv 6 ww 12 = a → bv 6 ww 6 = b → bit ww 5 = g → bit ww 3 = u → decodeSlot ww 0 0 = .ok (.shr d a b g u : Instr) := by
    intro ww h0 h1 h2 h3 h4 h5 h6 h7 h8
    simp only [decodeSlot, decodeRow2, h0, h1, h2, h3, h4, h5, h6, h7, h8, Bool.and_self, if_true]
  exact one (i := (.shr d a b g u : Instr)) rfl (key (enc 0x27000000 [(d.toNat, 18), (a.toNat, 12), (b.toNat, 6), (b2n g, 5), (b2n u, 3)])
    (enc_rest k0 f0 28 4 rfl)
    (enc_rest k0 f0 24 4 rfl)
    (zf_eq (enc_rest k0 f0 0 3 rfl))
    (zf_eq (enc_rest k0 f0 4 1 rfl))
    (bv_eq (enc_field k0 f0 0 _ _ _ rfl))
    (bv_eq (enc_field k0 f0 1 _ _ _ rfl))
    (bv_eq (enc_field k0 f0 2 _ _ _ rfl))
    (bit_eq (enc_field k0 f0 3 _ _ _ rfl))
    (bit_eq (enc_field k0 f0 4 _ _ _ rfl)))

theorem shri (d a z k) : Statement (.shri d a z k : Instr) := by
  have k0 : layoutOk 0x28000000 [(18, 6), (12, 6), (5, 1), (0, 5)] = true := by decide
  have f0 : fit [(d.toNat, 18, 6), (a.toNat, 12, 6), (b2n z, 5, 1), (k.toNat, 0, 5)] := ⟨d.isLt, a.isLt, b2n_lt z, k.isLt, trivial⟩
  have key : ∀ ww : Nat, ww / 2 ^ 28 % 16 = 2 → ww / 2 ^ 24 % 16 = 8 → zf ww 6 6 = true → bv 6 ww 18 = d → bv 6 ww 12 = a → bit ww 5 = z → bv 5 ww 0 = k → decodeSlot ww 0 0 = .ok (.shri d a z k : Instr) := by
    intro ww h0 h1 h2 h3 h4 h5 h6
    simp only [decodeSlot, decodeRow2, h0, h1, h2, h3, h4, h5, h6, if_true]
  exact one (i := (.shri d a z k : Instr)) rfl (key (enc 0x28000000 [(d.toNat, 18), (a.toNat, 12), (b2n z, 5), (k.toNat, 0)])
    (enc_rest k0 f0 28 4 rfl)
    (enc_rest k0 f0 24 4 rfl)
    (zf_eq (enc_rest k0 f0 6 6 rfl))
    (bv_eq (enc_field k0 f0 0 _ _ _ rfl))
    (bv_eq (enc_field k0 f0 1 _ _ _ rfl))
    (bit_eq (enc_field k0 f0 2 _ _ _ rfl))
    (bv_eq (enc_field k0 f0 3 _ _ _ rfl)))

theorem rot (d a b g) : Statement (.rot d a b g : Instr) := by
  have k0 : layoutOk 0x29000000 [(18, 6), (12, 6), (6, 6), (5, 1)] = true := by decide
  have f0 : fit [(d.toNat, 18, 6), (a.toNat, 12, 6), (b.toNat, 6, 6), (b2n g, 5, 1)] := ⟨d.isLt, a.isLt, b.isLt, b2n_lt g, trivial⟩
  have key : ∀ ww : Nat, ww / 2 ^ 28 % 16 = 2 → ww / 2 ^ 24 % 16 = 9 → zf ww 0 5 = true → bv 6 ww 18 = d → bv 6 ww 12 = a → bv 6 ww 6 = b → bit ww 5 = g → decodeSlot ww 0 0 = .ok (.rot d a b g : Instr) := by
    intro ww h0 h1 h2 h3 h4 h5 h6
    simp only [decodeSlot, decodeRow2, h0, h1, h2, h3, h4, h5, h6, if_true]
  exact one (i := (.rot d a b g : Instr)) rfl (key (enc 0x29000000 [(d.toNat, 18), (a.toNat, 12), (b.toNat, 6), (b2n g, 5)])
    (enc_rest k0 f0 28 4 rfl)
    (enc_rest k0 f0 24 4 rfl)
    (zf_eq (enc_rest k0 f0 0 5 rfl))
    (bv_eq (enc_field k0 f0 0 _ _ _ rfl))
    (bv_eq (enc_field k0 f0 1 _ _ _ rfl))
    (bv_eq (enc_field k0 f0 2 _ _ _ rfl))
    (bit_eq (enc_field k0 f0 3 _ _ _ rfl)))

theorem funnel (d a b c) : Statement (.funnel d a b c : Instr) := by
  have k0 : layoutOk 0x2a000000 [(18, 6), (12, 6), (6, 6), (0, 6)] = true := by decide
  have f0 : fit [(d.toNat, 18, 6), (a.toNat, 12, 6), (b.toNat, 6, 6), (c.toNat, 0, 6)] := ⟨d.isLt, a.isLt, b.isLt, c.isLt, trivial⟩
  have key : ∀ ww : Nat, ww / 2 ^ 28 % 16 = 2 → ww / 2 ^ 24 % 16 = 10 → bv 6 ww 18 = d → bv 6 ww 12 = a → bv 6 ww 6 = b → bv 6 ww 0 = c → decodeSlot ww 0 0 = .ok (.funnel d a b c : Instr) := by
    intro ww h0 h1 h2 h3 h4 h5
    simp only [decodeSlot, decodeRow2, h0, h1, h2, h3, h4, h5]
  exact one (i := (.funnel d a b c : Instr)) rfl (key (enc 0x2a000000 [(d.toNat, 18), (a.toNat, 12), (b.toNat, 6), (c.toNat, 0)])
    (enc_rest k0 f0 28 4 rfl)
    (enc_rest k0 f0 24 4 rfl)
    (bv_eq (enc_field k0 f0 0 _ _ _ rfl))
    (bv_eq (enc_field k0 f0 1 _ _ _ rfl))
    (bv_eq (enc_field k0 f0 2 _ _ _ rfl))
    (bv_eq (enc_field k0 f0 3 _ _ _ rfl)))

theorem bfx (d a b g u) : Statement (.bfx d a b g u : Instr) := by
  have k0 : layoutOk 0x2b000000 [(18, 6), (12, 6), (6, 6), (5, 1), (3, 1)] = true := by decide
  have f0 : fit [(d.toNat, 18, 6), (a.toNat, 12, 6), (b.toNat, 6, 6), (b2n g, 5, 1), (b2n u, 3, 1)] := ⟨d.isLt, a.isLt, b.isLt, b2n_lt g, b2n_lt u, trivial⟩
  have key : ∀ ww : Nat, ww / 2 ^ 28 % 16 = 2 → ww / 2 ^ 24 % 16 = 11 → zf ww 0 3 = true → zf ww 4 1 = true → bv 6 ww 18 = d → bv 6 ww 12 = a → bv 6 ww 6 = b → bit ww 5 = g → bit ww 3 = u → decodeSlot ww 0 0 = .ok (.bfx d a b g u : Instr) := by
    intro ww h0 h1 h2 h3 h4 h5 h6 h7 h8
    simp only [decodeSlot, decodeRow2, h0, h1, h2, h3, h4, h5, h6, h7, h8, Bool.and_self, if_true]
  exact one (i := (.bfx d a b g u : Instr)) rfl (key (enc 0x2b000000 [(d.toNat, 18), (a.toNat, 12), (b.toNat, 6), (b2n g, 5), (b2n u, 3)])
    (enc_rest k0 f0 28 4 rfl)
    (enc_rest k0 f0 24 4 rfl)
    (zf_eq (enc_rest k0 f0 0 3 rfl))
    (zf_eq (enc_rest k0 f0 4 1 rfl))
    (bv_eq (enc_field k0 f0 0 _ _ _ rfl))
    (bv_eq (enc_field k0 f0 1 _ _ _ rfl))
    (bv_eq (enc_field k0 f0 2 _ _ _ rfl))
    (bit_eq (enc_field k0 f0 3 _ _ _ rfl))
    (bit_eq (enc_field k0 f0 4 _ _ _ rfl)))

theorem bfi (d a b c) : Statement (.bfi d a b c : Instr) := by
  have k0 : layoutOk 0x2c000000 [(18, 6), (12, 6), (6, 6), (0, 6)] = true := by decide
  have f0 : fit [(d.toNat, 18, 6), (a.toNat, 12, 6), (b.toNat, 6, 6), (c.toNat, 0, 6)] := ⟨d.isLt, a.isLt, b.isLt, c.isLt, trivial⟩
  have key : ∀ ww : Nat, ww / 2 ^ 28 % 16 = 2 → ww / 2 ^ 24 % 16 = 12 → bv 6 ww 18 = d → bv 6 ww 12 = a → bv 6 ww 6 = b → bv 6 ww 0 = c → decodeSlot ww 0 0 = .ok (.bfi d a b c : Instr) := by
    intro ww h0 h1 h2 h3 h4 h5
    simp only [decodeSlot, decodeRow2, h0, h1, h2, h3, h4, h5]
  exact one (i := (.bfi d a b c : Instr)) rfl (key (enc 0x2c000000 [(d.toNat, 18), (a.toNat, 12), (b.toNat, 6), (c.toNat, 0)])
    (enc_rest k0 f0 28 4 rfl)
    (enc_rest k0 f0 24 4 rfl)
    (bv_eq (enc_field k0 f0 0 _ _ _ rfl))
    (bv_eq (enc_field k0 f0 1 _ _ _ rfl))
    (bv_eq (enc_field k0 f0 2 _ _ _ rfl))
    (bv_eq (enc_field k0 f0 3 _ _ _ rfl)))

theorem popc (d a g) : Statement (.popc d a g : Instr) := by
  have k0 : layoutOk 0x2d000000 [(18, 6), (12, 6), (5, 1)] = true := by decide
  have f0 : fit [(d.toNat, 18, 6), (a.toNat, 12, 6), (b2n g, 5, 1)] := ⟨d.isLt, a.isLt, b2n_lt g, trivial⟩
  have key : ∀ ww : Nat, ww / 2 ^ 28 % 16 = 2 → ww / 2 ^ 24 % 16 = 13 → zf ww 0 5 = true → zf ww 6 6 = true → bv 6 ww 18 = d → bv 6 ww 12 = a → bit ww 5 = g → decodeSlot ww 0 0 = .ok (.popc d a g : Instr) := by
    intro ww h0 h1 h2 h3 h4 h5 h6
    simp only [decodeSlot, decodeRow2, h0, h1, h2, h3, h4, h5, h6, Bool.and_self, if_true]
  exact one (i := (.popc d a g : Instr)) rfl (key (enc 0x2d000000 [(d.toNat, 18), (a.toNat, 12), (b2n g, 5)])
    (enc_rest k0 f0 28 4 rfl)
    (enc_rest k0 f0 24 4 rfl)
    (zf_eq (enc_rest k0 f0 0 5 rfl))
    (zf_eq (enc_rest k0 f0 6 6 rfl))
    (bv_eq (enc_field k0 f0 0 _ _ _ rfl))
    (bv_eq (enc_field k0 f0 1 _ _ _ rfl))
    (bit_eq (enc_field k0 f0 2 _ _ _ rfl)))

theorem clz (d a g) : Statement (.clz d a g : Instr) := by
  have k0 : layoutOk 0x2e000000 [(18, 6), (12, 6), (5, 1)] = true := by decide
  have f0 : fit [(d.toNat, 18, 6), (a.toNat, 12, 6), (b2n g, 5, 1)] := ⟨d.isLt, a.isLt, b2n_lt g, trivial⟩
  have key : ∀ ww : Nat, ww / 2 ^ 28 % 16 = 2 → ww / 2 ^ 24 % 16 = 14 → zf ww 0 5 = true → zf ww 6 6 = true → bv 6 ww 18 = d → bv 6 ww 12 = a → bit ww 5 = g → decodeSlot ww 0 0 = .ok (.clz d a g : Instr) := by
    intro ww h0 h1 h2 h3 h4 h5 h6
    simp only [decodeSlot, decodeRow2, h0, h1, h2, h3, h4, h5, h6, Bool.and_self, if_true]
  exact one (i := (.clz d a g : Instr)) rfl (key (enc 0x2e000000 [(d.toNat, 18), (a.toNat, 12), (b2n g, 5)])
    (enc_rest k0 f0 28 4 rfl)
    (enc_rest k0 f0 24 4 rfl)
    (zf_eq (enc_rest k0 f0 0 5 rfl))
    (zf_eq (enc_rest k0 f0 6 6 rfl))
    (bv_eq (enc_field k0 f0 0 _ _ _ rfl))
    (bv_eq (enc_field k0 f0 1 _ _ _ rfl))
    (bit_eq (enc_field k0 f0 2 _ _ _ rfl)))

theorem ctz (d a g) : Statement (.ctz d a g : Instr) := by
  have k0 : layoutOk 0x2f000000 [(18, 6), (12, 6), (5, 1)] = true := by decide
  have f0 : fit [(d.toNat, 18, 6), (a.toNat, 12, 6), (b2n g, 5, 1)] := ⟨d.isLt, a.isLt, b2n_lt g, trivial⟩
  have key : ∀ ww : Nat, ww / 2 ^ 28 % 16 = 2 → ww / 2 ^ 24 % 16 = 15 → zf ww 0 5 = true → zf ww 6 6 = true → bv 6 ww 18 = d → bv 6 ww 12 = a → bit ww 5 = g → decodeSlot ww 0 0 = .ok (.ctz d a g : Instr) := by
    intro ww h0 h1 h2 h3 h4 h5 h6
    simp only [decodeSlot, decodeRow2, h0, h1, h2, h3, h4, h5, h6, Bool.and_self, if_true]
  exact one (i := (.ctz d a g : Instr)) rfl (key (enc 0x2f000000 [(d.toNat, 18), (a.toNat, 12), (b2n g, 5)])
    (enc_rest k0 f0 28 4 rfl)
    (enc_rest k0 f0 24 4 rfl)
    (zf_eq (enc_rest k0 f0 0 5 rfl))
    (zf_eq (enc_rest k0 f0 6 6 rfl))
    (bv_eq (enc_field k0 f0 0 _ _ _ rfl))
    (bv_eq (enc_field k0 f0 1 _ _ _ rfl))
    (bit_eq (enc_field k0 f0 2 _ _ _ rfl)))

theorem brev (d a g) : Statement (.brev d a g : Instr) := by
  have k0 : layoutOk 0x30000000 [(18, 6), (12, 6), (5, 1)] = true := by decide
  have f0 : fit [(d.toNat, 18, 6), (a.toNat, 12, 6), (b2n g, 5, 1)] := ⟨d.isLt, a.isLt, b2n_lt g, trivial⟩
  have key : ∀ ww : Nat, ww / 2 ^ 28 % 16 = 3 → ww / 2 ^ 24 % 16 = 0 → zf ww 0 5 = true → zf ww 6 6 = true → bv 6 ww 18 = d → bv 6 ww 12 = a → bit ww 5 = g → decodeSlot ww 0 0 = .ok (.brev d a g : Instr) := by
    intro ww h0 h1 h2 h3 h4 h5 h6
    simp only [decodeSlot, decodeRow3, h0, h1, h2, h3, h4, h5, h6, Bool.and_self, if_true]
  exact one (i := (.brev d a g : Instr)) rfl (key (enc 0x30000000 [(d.toNat, 18), (a.toNat, 12), (b2n g, 5)])
    (enc_rest k0 f0 28 4 rfl)
    (enc_rest k0 f0 24 4 rfl)
    (zf_eq (enc_rest k0 f0 0 5 rfl))
    (zf_eq (enc_rest k0 f0 6 6 rfl))
    (bv_eq (enc_field k0 f0 0 _ _ _ rfl))
    (bv_eq (enc_field k0 f0 1 _ _ _ rfl))
    (bit_eq (enc_field k0 f0 2 _ _ _ rfl)))

theorem sel (d a b g n p) : Statement (.sel d a b g n p : Instr) := by
  have k0 : layoutOk 0x31000000 [(18, 6), (12, 6), (6, 6), (5, 1), (3, 1), (0, 3)] = true := by decide
  have f0 : fit [(d.toNat, 18, 6), (a.toNat, 12, 6), (b.toNat, 6, 6), (b2n g, 5, 1), (b2n n, 3, 1), (p.toNat, 0, 3)] := ⟨d.isLt, a.isLt, b.isLt, b2n_lt g, b2n_lt n, p.isLt, trivial⟩
  have key : ∀ ww : Nat, ww / 2 ^ 28 % 16 = 3 → ww / 2 ^ 24 % 16 = 1 → zf ww 4 1 = true → bv 6 ww 18 = d → bv 6 ww 12 = a → bv 6 ww 6 = b → bit ww 5 = g → bit ww 3 = n → bv 3 ww 0 = p → decodeSlot ww 0 0 = .ok (.sel d a b g n p : Instr) := by
    intro ww h0 h1 h2 h3 h4 h5 h6 h7 h8
    simp only [decodeSlot, decodeRow3, h0, h1, h2, h3, h4, h5, h6, h7, h8, if_true]
  exact one (i := (.sel d a b g n p : Instr)) rfl (key (enc 0x31000000 [(d.toNat, 18), (a.toNat, 12), (b.toNat, 6), (b2n g, 5), (b2n n, 3), (p.toNat, 0)])
    (enc_rest k0 f0 28 4 rfl)
    (enc_rest k0 f0 24 4 rfl)
    (zf_eq (enc_rest k0 f0 4 1 rfl))
    (bv_eq (enc_field k0 f0 0 _ _ _ rfl))
    (bv_eq (enc_field k0 f0 1 _ _ _ rfl))
    (bv_eq (enc_field k0 f0 2 _ _ _ rfl))
    (bit_eq (enc_field k0 f0 3 _ _ _ rfl))
    (bit_eq (enc_field k0 f0 4 _ _ _ rfl))
    (bv_eq (enc_field k0 f0 5 _ _ _ rfl)))

theorem cmp (k p a b g n) : Statement (.cmp k p a b g n : Instr) := by
  have k0 : layoutOk 0x32000000 [(21, 3), (18, 3), (12, 6), (6, 6), (5, 1), (0, 3)] = true := by decide
  have f0 : fit [(k.toNat, 21, 3), (p.toNat, 18, 3), (a.toNat, 12, 6), (b.toNat, 6, 6), (b2n g, 5, 1), (n.toNat, 0, 3)] := ⟨k.isLt, p.isLt, a.isLt, b.isLt, b2n_lt g, n.isLt, trivial⟩
  have key : ∀ ww : Nat, ww / 2 ^ 28 % 16 = 3 → ww / 2 ^ 24 % 16 = 2 → zf ww 3 2 = true → bv 3 ww 21 = k → bv 3 ww 18 = p → bv 6 ww 12 = a → bv 6 ww 6 = b → bit ww 5 = g → bv 3 ww 0 = n → decodeSlot ww 0 0 = .ok (.cmp k p a b g n : Instr) := by
    intro ww h0 h1 h2 h3 h4 h5 h6 h7 h8
    simp only [decodeSlot, decodeRow3, h0, h1, h2, h3, h4, h5, h6, h7, h8, if_true]
  exact one (i := (.cmp k p a b g n : Instr)) rfl (key (enc 0x32000000 [(k.toNat, 21), (p.toNat, 18), (a.toNat, 12), (b.toNat, 6), (b2n g, 5), (n.toNat, 0)])
    (enc_rest k0 f0 28 4 rfl)
    (enc_rest k0 f0 24 4 rfl)
    (zf_eq (enc_rest k0 f0 3 2 rfl))
    (bv_eq (enc_field k0 f0 0 _ _ _ rfl))
    (bv_eq (enc_field k0 f0 1 _ _ _ rfl))
    (bv_eq (enc_field k0 f0 2 _ _ _ rfl))
    (bv_eq (enc_field k0 f0 3 _ _ _ rfl))
    (bit_eq (enc_field k0 f0 4 _ _ _ rfl))
    (bv_eq (enc_field k0 f0 5 _ _ _ rfl)))

theorem cmpi (k p a i n) : Statement (.cmpi k p a i n : Instr) := by
  have k0 : layoutOk 0x33000000 [(21, 3), (18, 3), (12, 6), (3, 9), (0, 3)] = true := by decide
  have f0 : fit [(k.toNat, 21, 3), (p.toNat, 18, 3), (a.toNat, 12, 6), (i.toNat, 3, 9), (n.toNat, 0, 3)] := ⟨k.isLt, p.isLt, a.isLt, i.isLt, n.isLt, trivial⟩
  have key : ∀ ww : Nat, ww / 2 ^ 28 % 16 = 3 → ww / 2 ^ 24 % 16 = 3 → bv 3 ww 21 = k → bv 3 ww 18 = p → bv 6 ww 12 = a → bv 9 ww 3 = i → bv 3 ww 0 = n → decodeSlot ww 0 0 = .ok (.cmpi k p a i n : Instr) := by
    intro ww h0 h1 h2 h3 h4 h5 h6
    simp only [decodeSlot, decodeRow3, h0, h1, h2, h3, h4, h5, h6]
  exact one (i := (.cmpi k p a i n : Instr)) rfl (key (enc 0x33000000 [(k.toNat, 21), (p.toNat, 18), (a.toNat, 12), (i.toNat, 3), (n.toNat, 0)])
    (enc_rest k0 f0 28 4 rfl)
    (enc_rest k0 f0 24 4 rfl)
    (bv_eq (enc_field k0 f0 0 _ _ _ rfl))
    (bv_eq (enc_field k0 f0 1 _ _ _ rfl))
    (bv_eq (enc_field k0 f0 2 _ _ _ rfl))
    (bv_eq (enc_field k0 f0 3 _ _ _ rfl))
    (bv_eq (enc_field k0 f0 4 _ _ _ rfl)))

theorem plog (k p a b t) : Statement (.plog k p a b t : Instr) := by
  have k0 : layoutOk 0x34000000 [(21, 3), (18, 3), (12, 3), (6, 3), (0, 4)] = true := by decide
  have f0 : fit [(k.toNat, 21, 3), (p.toNat, 18, 3), (a.toNat, 12, 3), (b.toNat, 6, 3), (t.toNat, 0, 4)] := ⟨k.isLt, p.isLt, a.isLt, b.isLt, t.isLt, trivial⟩
  have key : ∀ ww : Nat, ww / 2 ^ 28 % 16 = 3 → ww / 2 ^ 24 % 16 = 4 → zf ww 4 2 = true → zf ww 9 3 = true → zf ww 15 3 = true → bv 3 ww 21 = k → bv 3 ww 18 = p → bv 3 ww 12 = a → bv 3 ww 6 = b → bv 4 ww 0 = t → decodeSlot ww 0 0 = .ok (.plog k p a b t : Instr) := by
    intro ww h0 h1 h2 h3 h4 h5 h6 h7 h8 h9
    simp only [decodeSlot, decodeRow3, h0, h1, h2, h3, h4, h5, h6, h7, h8, h9, Bool.and_self, if_true]
  exact one (i := (.plog k p a b t : Instr)) rfl (key (enc 0x34000000 [(k.toNat, 21), (p.toNat, 18), (a.toNat, 12), (b.toNat, 6), (t.toNat, 0)])
    (enc_rest k0 f0 28 4 rfl)
    (enc_rest k0 f0 24 4 rfl)
    (zf_eq (enc_rest k0 f0 4 2 rfl))
    (zf_eq (enc_rest k0 f0 9 3 rfl))
    (zf_eq (enc_rest k0 f0 15 3 rfl))
    (bv_eq (enc_field k0 f0 0 _ _ _ rfl))
    (bv_eq (enc_field k0 f0 1 _ _ _ rfl))
    (bv_eq (enc_field k0 f0 2 _ _ _ rfl))
    (bv_eq (enc_field k0 f0 3 _ _ _ rfl))
    (bv_eq (enc_field k0 f0 4 _ _ _ rfl)))

theorem mov (d a g) : Statement (.mov d a g : Instr) := by
  have k0 : layoutOk 0x35000000 [(18, 6), (12, 6), (5, 1)] = true := by decide
  have f0 : fit [(d.toNat, 18, 6), (a.toNat, 12, 6), (b2n g, 5, 1)] := ⟨d.isLt, a.isLt, b2n_lt g, trivial⟩
  have key : ∀ ww : Nat, ww / 2 ^ 28 % 16 = 3 → ww / 2 ^ 24 % 16 = 5 → zf ww 0 5 = true → zf ww 6 6 = true → bv 6 ww 18 = d → bv 6 ww 12 = a → bit ww 5 = g → decodeSlot ww 0 0 = .ok (.mov d a g : Instr) := by
    intro ww h0 h1 h2 h3 h4 h5 h6
    simp only [decodeSlot, decodeRow3, h0, h1, h2, h3, h4, h5, h6, Bool.and_self, if_true]
  exact one (i := (.mov d a g : Instr)) rfl (key (enc 0x35000000 [(d.toNat, 18), (a.toNat, 12), (b2n g, 5)])
    (enc_rest k0 f0 28 4 rfl)
    (enc_rest k0 f0 24 4 rfl)
    (zf_eq (enc_rest k0 f0 0 5 rfl))
    (zf_eq (enc_rest k0 f0 6 6 rfl))
    (bv_eq (enc_field k0 f0 0 _ _ _ rfl))
    (bv_eq (enc_field k0 f0 1 _ _ _ rfl))
    (bit_eq (enc_field k0 f0 2 _ _ _ rfl)))

theorem movi (d i) : Statement (.movi d i : Instr) := by
  have k0 : layoutOk 0x36000000 [(18, 6), (0, 18)] = true := by decide
  have f0 : fit [(d.toNat, 18, 6), (i.toNat, 0, 18)] := ⟨d.isLt, i.isLt, trivial⟩
  have key : ∀ ww : Nat, ww / 2 ^ 28 % 16 = 3 → ww / 2 ^ 24 % 16 = 6 → bv 6 ww 18 = d → bv 18 ww 0 = i → decodeSlot ww 0 0 = .ok (.movi d i : Instr) := by
    intro ww h0 h1 h2 h3
    simp only [decodeSlot, decodeRow3, h0, h1, h2, h3]
  exact one (i := (.movi d i : Instr)) rfl (key (enc 0x36000000 [(d.toNat, 18), (i.toNat, 0)])
    (enc_rest k0 f0 28 4 rfl)
    (enc_rest k0 f0 24 4 rfl)
    (bv_eq (enc_field k0 f0 0 _ _ _ rfl))
    (bv_eq (enc_field k0 f0 1 _ _ _ rfl)))

theorem movl (d i) : Statement (.movl d i : Instr) := by
  have k0 : layoutOk 0x37000000 [(18, 6)] = true := by decide
  have f0 : fit [(d.toNat, 18, 6)] := ⟨d.isLt, trivial⟩
  have k1 : layoutOk 0x0 [(0, 32)] = true := by decide
  have f1 : fit [(i.toNat, 0, 32)] := ⟨i.isLt, trivial⟩
  have key : ∀ ww xx : Nat, ww / 2 ^ 28 % 16 = 3 → ww / 2 ^ 24 % 16 = 7 → zf ww 0 18 = true → bv 6 ww 18 = d → bv 32 xx 0 = i → decodeSlot ww xx 0 = .ok (.movl d i : Instr) := by
    intro ww xx h0 h1 h2 h3 h4
    simp only [decodeSlot, decodeRow3, h0, h1, h2, h3, h4, if_true]
  exact two (i := (.movl d i : Instr)) rfl (key (enc 0x37000000 [(d.toNat, 18)]) (enc 0x0 [(i.toNat, 0)])
    (enc_rest k0 f0 28 4 rfl)
    (enc_rest k0 f0 24 4 rfl)
    (zf_eq (enc_rest k0 f0 0 18 rfl))
    (bv_eq (enc_field k0 f0 0 _ _ _ rfl))
    (bv_eq (enc_field k1 f1 0 _ _ _ rfl)))

theorem addl (d a i) : Statement (.addl d a i : Instr) := by
  have k0 : layoutOk 0x38000000 [(18, 6), (12, 6)] = true := by decide
  have f0 : fit [(d.toNat, 18, 6), (a.toNat, 12, 6)] := ⟨d.isLt, a.isLt, trivial⟩
  have k1 : layoutOk 0x0 [(0, 32)] = true := by decide
  have f1 : fit [(i.toNat, 0, 32)] := ⟨i.isLt, trivial⟩
  have key : ∀ ww xx : Nat, ww / 2 ^ 28 % 16 = 3 → ww / 2 ^ 24 % 16 = 8 → zf ww 0 12 = true → bv 6 ww 18 = d → bv 6 ww 12 = a → bv 32 xx 0 = i → decodeSlot ww xx 0 = .ok (.addl d a i : Instr) := by
    intro ww xx h0 h1 h2 h3 h4 h5
    simp only [decodeSlot, decodeRow3, h0, h1, h2, h3, h4, h5, if_true]
  exact two (i := (.addl d a i : Instr)) rfl (key (enc 0x38000000 [(d.toNat, 18), (a.toNat, 12)]) (enc 0x0 [(i.toNat, 0)])
    (enc_rest k0 f0 28 4 rfl)
    (enc_rest k0 f0 24 4 rfl)
    (zf_eq (enc_rest k0 f0 0 12 rfl))
    (bv_eq (enc_field k0 f0 0 _ _ _ rfl))
    (bv_eq (enc_field k0 f0 1 _ _ _ rfl))
    (bv_eq (enc_field k1 f1 0 _ _ _ rfl)))

theorem muli (d a i) : Statement (.muli d a i : Instr) := by
  have k0 : layoutOk 0x39000000 [(18, 6), (12, 6), (0, 12)] = true := by decide
  have f0 : fit [(d.toNat, 18, 6), (a.toNat, 12, 6), (i.toNat, 0, 12)] := ⟨d.isLt, a.isLt, i.isLt, trivial⟩
  have key : ∀ ww : Nat, ww / 2 ^ 28 % 16 = 3 → ww / 2 ^ 24 % 16 = 9 → bv 6 ww 18 = d → bv 6 ww 12 = a → bv 12 ww 0 = i → decodeSlot ww 0 0 = .ok (.muli d a i : Instr) := by
    intro ww h0 h1 h2 h3 h4
    simp only [decodeSlot, decodeRow3, h0, h1, h2, h3, h4]
  exact one (i := (.muli d a i : Instr)) rfl (key (enc 0x39000000 [(d.toNat, 18), (a.toNat, 12), (i.toNat, 0)])
    (enc_rest k0 f0 28 4 rfl)
    (enc_rest k0 f0 24 4 rfl)
    (bv_eq (enc_field k0 f0 0 _ _ _ rfl))
    (bv_eq (enc_field k0 f0 1 _ _ _ rfl))
    (bv_eq (enc_field k0 f0 2 _ _ _ rfl)))

theorem fadd (d a b g t r) : Statement (.fadd d a b g t r : Instr) := by
  have k0 : layoutOk 0x40000000 [(18, 6), (12, 6), (6, 6), (5, 1), (3, 2), (0, 3)] = true := by decide
  have f0 : fit [(d.toNat, 18, 6), (a.toNat, 12, 6), (b.toNat, 6, 6), (b2n g, 5, 1), (t.toNat, 3, 2), (r.toNat, 0, 3)] := ⟨d.isLt, a.isLt, b.isLt, b2n_lt g, t.isLt, r.isLt, trivial⟩
  have key : ∀ ww : Nat, ww / 2 ^ 28 % 16 = 4 → ww / 2 ^ 24 % 16 = 0 → bv 6 ww 18 = d → bv 6 ww 12 = a → bv 6 ww 6 = b → bit ww 5 = g → bv 2 ww 3 = t → bv 3 ww 0 = r → decodeSlot ww 0 0 = .ok (.fadd d a b g t r : Instr) := by
    intro ww h0 h1 h2 h3 h4 h5 h6 h7
    simp only [decodeSlot, decodeRow4, h0, h1, h2, h3, h4, h5, h6, h7]
  exact one (i := (.fadd d a b g t r : Instr)) rfl (key (enc 0x40000000 [(d.toNat, 18), (a.toNat, 12), (b.toNat, 6), (b2n g, 5), (t.toNat, 3), (r.toNat, 0)])
    (enc_rest k0 f0 28 4 rfl)
    (enc_rest k0 f0 24 4 rfl)
    (bv_eq (enc_field k0 f0 0 _ _ _ rfl))
    (bv_eq (enc_field k0 f0 1 _ _ _ rfl))
    (bv_eq (enc_field k0 f0 2 _ _ _ rfl))
    (bit_eq (enc_field k0 f0 3 _ _ _ rfl))
    (bv_eq (enc_field k0 f0 4 _ _ _ rfl))
    (bv_eq (enc_field k0 f0 5 _ _ _ rfl)))

theorem fsub (d a b g t r) : Statement (.fsub d a b g t r : Instr) := by
  have k0 : layoutOk 0x41000000 [(18, 6), (12, 6), (6, 6), (5, 1), (3, 2), (0, 3)] = true := by decide
  have f0 : fit [(d.toNat, 18, 6), (a.toNat, 12, 6), (b.toNat, 6, 6), (b2n g, 5, 1), (t.toNat, 3, 2), (r.toNat, 0, 3)] := ⟨d.isLt, a.isLt, b.isLt, b2n_lt g, t.isLt, r.isLt, trivial⟩
  have key : ∀ ww : Nat, ww / 2 ^ 28 % 16 = 4 → ww / 2 ^ 24 % 16 = 1 → bv 6 ww 18 = d → bv 6 ww 12 = a → bv 6 ww 6 = b → bit ww 5 = g → bv 2 ww 3 = t → bv 3 ww 0 = r → decodeSlot ww 0 0 = .ok (.fsub d a b g t r : Instr) := by
    intro ww h0 h1 h2 h3 h4 h5 h6 h7
    simp only [decodeSlot, decodeRow4, h0, h1, h2, h3, h4, h5, h6, h7]
  exact one (i := (.fsub d a b g t r : Instr)) rfl (key (enc 0x41000000 [(d.toNat, 18), (a.toNat, 12), (b.toNat, 6), (b2n g, 5), (t.toNat, 3), (r.toNat, 0)])
    (enc_rest k0 f0 28 4 rfl)
    (enc_rest k0 f0 24 4 rfl)
    (bv_eq (enc_field k0 f0 0 _ _ _ rfl))
    (bv_eq (enc_field k0 f0 1 _ _ _ rfl))
    (bv_eq (enc_field k0 f0 2 _ _ _ rfl))
    (bit_eq (enc_field k0 f0 3 _ _ _ rfl))
    (bv_eq (enc_field k0 f0 4 _ _ _ rfl))
    (bv_eq (enc_field k0 f0 5 _ _ _ rfl)))

theorem fmul (d a b g t r) : Statement (.fmul d a b g t r : Instr) := by
  have k0 : layoutOk 0x42000000 [(18, 6), (12, 6), (6, 6), (5, 1), (3, 2), (0, 3)] = true := by decide
  have f0 : fit [(d.toNat, 18, 6), (a.toNat, 12, 6), (b.toNat, 6, 6), (b2n g, 5, 1), (t.toNat, 3, 2), (r.toNat, 0, 3)] := ⟨d.isLt, a.isLt, b.isLt, b2n_lt g, t.isLt, r.isLt, trivial⟩
  have key : ∀ ww : Nat, ww / 2 ^ 28 % 16 = 4 → ww / 2 ^ 24 % 16 = 2 → bv 6 ww 18 = d → bv 6 ww 12 = a → bv 6 ww 6 = b → bit ww 5 = g → bv 2 ww 3 = t → bv 3 ww 0 = r → decodeSlot ww 0 0 = .ok (.fmul d a b g t r : Instr) := by
    intro ww h0 h1 h2 h3 h4 h5 h6 h7
    simp only [decodeSlot, decodeRow4, h0, h1, h2, h3, h4, h5, h6, h7]
  exact one (i := (.fmul d a b g t r : Instr)) rfl (key (enc 0x42000000 [(d.toNat, 18), (a.toNat, 12), (b.toNat, 6), (b2n g, 5), (t.toNat, 3), (r.toNat, 0)])
    (enc_rest k0 f0 28 4 rfl)
    (enc_rest k0 f0 24 4 rfl)
    (bv_eq (enc_field k0 f0 0 _ _ _ rfl))
    (bv_eq (enc_field k0 f0 1 _ _ _ rfl))
    (bv_eq (enc_field k0 f0 2 _ _ _ rfl))
    (bit_eq (enc_field k0 f0 3 _ _ _ rfl))
    (bv_eq (enc_field k0 f0 4 _ _ _ rfl))
    (bv_eq (enc_field k0 f0 5 _ _ _ rfl)))

theorem ffma (d a b c) : Statement (.ffma d a b c : Instr) := by
  have k0 : layoutOk 0x43000000 [(18, 6), (12, 6), (6, 6), (0, 6)] = true := by decide
  have f0 : fit [(d.toNat, 18, 6), (a.toNat, 12, 6), (b.toNat, 6, 6), (c.toNat, 0, 6)] := ⟨d.isLt, a.isLt, b.isLt, c.isLt, trivial⟩
  have key : ∀ ww : Nat, ww / 2 ^ 28 % 16 = 4 → ww / 2 ^ 24 % 16 = 3 → bv 6 ww 18 = d → bv 6 ww 12 = a → bv 6 ww 6 = b → bv 6 ww 0 = c → decodeSlot ww 0 0 = .ok (.ffma d a b c : Instr) := by
    intro ww h0 h1 h2 h3 h4 h5
    simp only [decodeSlot, decodeRow4, h0, h1, h2, h3, h4, h5]
  exact one (i := (.ffma d a b c : Instr)) rfl (key (enc 0x43000000 [(d.toNat, 18), (a.toNat, 12), (b.toNat, 6), (c.toNat, 0)])
    (enc_rest k0 f0 28 4 rfl)
    (enc_rest k0 f0 24 4 rfl)
    (bv_eq (enc_field k0 f0 0 _ _ _ rfl))
    (bv_eq (enc_field k0 f0 1 _ _ _ rfl))
    (bv_eq (enc_field k0 f0 2 _ _ _ rfl))
    (bv_eq (enc_field k0 f0 3 _ _ _ rfl)))

theorem hfma2 (d a b c) : Statement (.hfma2 d a b c : Instr) := by
  have k0 : layoutOk 0x44000000 [(18, 6), (12, 6), (6, 6), (0, 6)] = true := by decide
  have f0 : fit [(d.toNat, 18, 6), (a.toNat, 12, 6), (b.toNat, 6, 6), (c.toNat, 0, 6)] := ⟨d.isLt, a.isLt, b.isLt, c.isLt, trivial⟩
  have key : ∀ ww : Nat, ww / 2 ^ 28 % 16 = 4 → ww / 2 ^ 24 % 16 = 4 → bv 6 ww 18 = d → bv 6 ww 12 = a → bv 6 ww 6 = b → bv 6 ww 0 = c → decodeSlot ww 0 0 = .ok (.hfma2 d a b c : Instr) := by
    intro ww h0 h1 h2 h3 h4 h5
    simp only [decodeSlot, decodeRow4, h0, h1, h2, h3, h4, h5]
  exact one (i := (.hfma2 d a b c : Instr)) rfl (key (enc 0x44000000 [(d.toNat, 18), (a.toNat, 12), (b.toNat, 6), (c.toNat, 0)])
    (enc_rest k0 f0 28 4 rfl)
    (enc_rest k0 f0 24 4 rfl)
    (bv_eq (enc_field k0 f0 0 _ _ _ rfl))
    (bv_eq (enc_field k0 f0 1 _ _ _ rfl))
    (bv_eq (enc_field k0 f0 2 _ _ _ rfl))
    (bv_eq (enc_field k0 f0 3 _ _ _ rfl)))

theorem bfma2 (d a b c) : Statement (.bfma2 d a b c : Instr) := by
  have k0 : layoutOk 0x45000000 [(18, 6), (12, 6), (6, 6), (0, 6)] = true := by decide
  have f0 : fit [(d.toNat, 18, 6), (a.toNat, 12, 6), (b.toNat, 6, 6), (c.toNat, 0, 6)] := ⟨d.isLt, a.isLt, b.isLt, c.isLt, trivial⟩
  have key : ∀ ww : Nat, ww / 2 ^ 28 % 16 = 4 → ww / 2 ^ 24 % 16 = 5 → bv 6 ww 18 = d → bv 6 ww 12 = a → bv 6 ww 6 = b → bv 6 ww 0 = c → decodeSlot ww 0 0 = .ok (.bfma2 d a b c : Instr) := by
    intro ww h0 h1 h2 h3 h4 h5
    simp only [decodeSlot, decodeRow4, h0, h1, h2, h3, h4, h5]
  exact one (i := (.bfma2 d a b c : Instr)) rfl (key (enc 0x45000000 [(d.toNat, 18), (a.toNat, 12), (b.toNat, 6), (c.toNat, 0)])
    (enc_rest k0 f0 28 4 rfl)
    (enc_rest k0 f0 24 4 rfl)
    (bv_eq (enc_field k0 f0 0 _ _ _ rfl))
    (bv_eq (enc_field k0 f0 1 _ _ _ rfl))
    (bv_eq (enc_field k0 f0 2 _ _ _ rfl))
    (bv_eq (enc_field k0 f0 3 _ _ _ rfl)))

theorem fmin (d a b g t) : Statement (.fmin d a b g t : Instr) := by
  have k0 : layoutOk 0x46000000 [(18, 6), (12, 6), (6, 6), (5, 1), (3, 2)] = true := by decide
  have f0 : fit [(d.toNat, 18, 6), (a.toNat, 12, 6), (b.toNat, 6, 6), (b2n g, 5, 1), (t.toNat, 3, 2)] := ⟨d.isLt, a.isLt, b.isLt, b2n_lt g, t.isLt, trivial⟩
  have key : ∀ ww : Nat, ww / 2 ^ 28 % 16 = 4 → ww / 2 ^ 24 % 16 = 6 → zf ww 0 3 = true → bv 6 ww 18 = d → bv 6 ww 12 = a → bv 6 ww 6 = b → bit ww 5 = g → bv 2 ww 3 = t → decodeSlot ww 0 0 = .ok (.fmin d a b g t : Instr) := by
    intro ww h0 h1 h2 h3 h4 h5 h6 h7
    simp only [decodeSlot, decodeRow4, h0, h1, h2, h3, h4, h5, h6, h7, if_true]
  exact one (i := (.fmin d a b g t : Instr)) rfl (key (enc 0x46000000 [(d.toNat, 18), (a.toNat, 12), (b.toNat, 6), (b2n g, 5), (t.toNat, 3)])
    (enc_rest k0 f0 28 4 rfl)
    (enc_rest k0 f0 24 4 rfl)
    (zf_eq (enc_rest k0 f0 0 3 rfl))
    (bv_eq (enc_field k0 f0 0 _ _ _ rfl))
    (bv_eq (enc_field k0 f0 1 _ _ _ rfl))
    (bv_eq (enc_field k0 f0 2 _ _ _ rfl))
    (bit_eq (enc_field k0 f0 3 _ _ _ rfl))
    (bv_eq (enc_field k0 f0 4 _ _ _ rfl)))

theorem fmax (d a b g t) : Statement (.fmax d a b g t : Instr) := by
  have k0 : layoutOk 0x47000000 [(18, 6), (12, 6), (6, 6), (5, 1), (3, 2)] = true := by decide
  have f0 : fit [(d.toNat, 18, 6), (a.toNat, 12, 6), (b.toNat, 6, 6), (b2n g, 5, 1), (t.toNat, 3, 2)] := ⟨d.isLt, a.isLt, b.isLt, b2n_lt g, t.isLt, trivial⟩
  have key : ∀ ww : Nat, ww / 2 ^ 28 % 16 = 4 → ww / 2 ^ 24 % 16 = 7 → zf ww 0 3 = true → bv 6 ww 18 = d → bv 6 ww 12 = a → bv 6 ww 6 = b → bit ww 5 = g → bv 2 ww 3 = t → decodeSlot ww 0 0 = .ok (.fmax d a b g t : Instr) := by
    intro ww h0 h1 h2 h3 h4 h5 h6 h7
    simp only [decodeSlot, decodeRow4, h0, h1, h2, h3, h4, h5, h6, h7, if_true]
  exact one (i := (.fmax d a b g t : Instr)) rfl (key (enc 0x47000000 [(d.toNat, 18), (a.toNat, 12), (b.toNat, 6), (b2n g, 5), (t.toNat, 3)])
    (enc_rest k0 f0 28 4 rfl)
    (enc_rest k0 f0 24 4 rfl)
    (zf_eq (enc_rest k0 f0 0 3 rfl))
    (bv_eq (enc_field k0 f0 0 _ _ _ rfl))
    (bv_eq (enc_field k0 f0 1 _ _ _ rfl))
    (bv_eq (enc_field k0 f0 2 _ _ _ rfl))
    (bit_eq (enc_field k0 f0 3 _ _ _ rfl))
    (bv_eq (enc_field k0 f0 4 _ _ _ rfl)))

theorem fabs (d a g t) : Statement (.fabs d a g t : Instr) := by
  have k0 : layoutOk 0x48000000 [(18, 6), (12, 6), (5, 1), (3, 2)] = true := by decide
  have f0 : fit [(d.toNat, 18, 6), (a.toNat, 12, 6), (b2n g, 5, 1), (t.toNat, 3, 2)] := ⟨d.isLt, a.isLt, b2n_lt g, t.isLt, trivial⟩
  have key : ∀ ww : Nat, ww / 2 ^ 28 % 16 = 4 → ww / 2 ^ 24 % 16 = 8 → zf ww 0 3 = true → zf ww 6 6 = true → bv 6 ww 18 = d → bv 6 ww 12 = a → bit ww 5 = g → bv 2 ww 3 = t → decodeSlot ww 0 0 = .ok (.fabs d a g t : Instr) := by
    intro ww h0 h1 h2 h3 h4 h5 h6 h7
    simp only [decodeSlot, decodeRow4, h0, h1, h2, h3, h4, h5, h6, h7, Bool.and_self, if_true]
  exact one (i := (.fabs d a g t : Instr)) rfl (key (enc 0x48000000 [(d.toNat, 18), (a.toNat, 12), (b2n g, 5), (t.toNat, 3)])
    (enc_rest k0 f0 28 4 rfl)
    (enc_rest k0 f0 24 4 rfl)
    (zf_eq (enc_rest k0 f0 0 3 rfl))
    (zf_eq (enc_rest k0 f0 6 6 rfl))
    (bv_eq (enc_field k0 f0 0 _ _ _ rfl))
    (bv_eq (enc_field k0 f0 1 _ _ _ rfl))
    (bit_eq (enc_field k0 f0 2 _ _ _ rfl))
    (bv_eq (enc_field k0 f0 3 _ _ _ rfl)))

theorem fneg (d a g t) : Statement (.fneg d a g t : Instr) := by
  have k0 : layoutOk 0x49000000 [(18, 6), (12, 6), (5, 1), (3, 2)] = true := by decide
  have f0 : fit [(d.toNat, 18, 6), (a.toNat, 12, 6), (b2n g, 5, 1), (t.toNat, 3, 2)] := ⟨d.isLt, a.isLt, b2n_lt g, t.isLt, trivial⟩
  have key : ∀ ww : Nat, ww / 2 ^ 28 % 16 = 4 → ww / 2 ^ 24 % 16 = 9 → zf ww 0 3 = true → zf ww 6 6 = true → bv 6 ww 18 = d → bv 6 ww 12 = a → bit ww 5 = g → bv 2 ww 3 = t → decodeSlot ww 0 0 = .ok (.fneg d a g t : Instr) := by
    intro ww h0 h1 h2 h3 h4 h5 h6 h7
    simp only [decodeSlot, decodeRow4, h0, h1, h2, h3, h4, h5, h6, h7, Bool.and_self, if_true]
  exact one (i := (.fneg d a g t : Instr)) rfl (key (enc 0x49000000 [(d.toNat, 18), (a.toNat, 12), (b2n g, 5), (t.toNat, 3)])
    (enc_rest k0 f0 28 4 rfl)
    (enc_rest k0 f0 24 4 rfl)
    (zf_eq (enc_rest k0 f0 0 3 rfl))
    (zf_eq (enc_rest k0 f0 6 6 rfl))
    (bv_eq (enc_field k0 f0 0 _ _ _ rfl))
    (bv_eq (enc_field k0 f0 1 _ _ _ rfl))
    (bit_eq (enc_field k0 f0 2 _ _ _ rfl))
    (bv_eq (enc_field k0 f0 3 _ _ _ rfl)))

theorem fcmp (k p a b g t n) : Statement (.fcmp k p a b g t n : Instr) := by
  have k0 : layoutOk 0x4a000000 [(21, 3), (18, 3), (12, 6), (6, 6), (5, 1), (3, 2), (0, 3)] = true := by decide
  have f0 : fit [(k.toNat, 21, 3), (p.toNat, 18, 3), (a.toNat, 12, 6), (b.toNat, 6, 6), (b2n g, 5, 1), (t.toNat, 3, 2), (n.toNat, 0, 3)] := ⟨k.isLt, p.isLt, a.isLt, b.isLt, b2n_lt g, t.isLt, n.isLt, trivial⟩
  have key : ∀ ww : Nat, ww / 2 ^ 28 % 16 = 4 → ww / 2 ^ 24 % 16 = 10 → bv 3 ww 21 = k → bv 3 ww 18 = p → bv 6 ww 12 = a → bv 6 ww 6 = b → bit ww 5 = g → bv 2 ww 3 = t → bv 3 ww 0 = n → decodeSlot ww 0 0 = .ok (.fcmp k p a b g t n : Instr) := by
    intro ww h0 h1 h2 h3 h4 h5 h6 h7 h8
    simp only [decodeSlot, decodeRow4, h0, h1, h2, h3, h4, h5, h6, h7, h8]
  exact one (i := (.fcmp k p a b g t n : Instr)) rfl (key (enc 0x4a000000 [(k.toNat, 21), (p.toNat, 18), (a.toNat, 12), (b.toNat, 6), (b2n g, 5), (t.toNat, 3), (n.toNat, 0)])
    (enc_rest k0 f0 28 4 rfl)
    (enc_rest k0 f0 24 4 rfl)
    (bv_eq (enc_field k0 f0 0 _ _ _ rfl))
    (bv_eq (enc_field k0 f0 1 _ _ _ rfl))
    (bv_eq (enc_field k0 f0 2 _ _ _ rfl))
    (bv_eq (enc_field k0 f0 3 _ _ _ rfl))
    (bit_eq (enc_field k0 f0 4 _ _ _ rfl))
    (bv_eq (enc_field k0 f0 5 _ _ _ rfl))
    (bv_eq (enc_field k0 f0 6 _ _ _ rfl)))

theorem fclass (d a g t) : Statement (.fclass d a g t : Instr) := by
  have k0 : layoutOk 0x4b000000 [(18, 6), (12, 6), (5, 1), (3, 2)] = true := by decide
  have f0 : fit [(d.toNat, 18, 6), (a.toNat, 12, 6), (b2n g, 5, 1), (t.toNat, 3, 2)] := ⟨d.isLt, a.isLt, b2n_lt g, t.isLt, trivial⟩
  have key : ∀ ww : Nat, ww / 2 ^ 28 % 16 = 4 → ww / 2 ^ 24 % 16 = 11 → zf ww 0 3 = true → zf ww 6 6 = true → bv 6 ww 18 = d → bv 6 ww 12 = a → bit ww 5 = g → bv 2 ww 3 = t → decodeSlot ww 0 0 = .ok (.fclass d a g t : Instr) := by
    intro ww h0 h1 h2 h3 h4 h5 h6 h7
    simp only [decodeSlot, decodeRow4, h0, h1, h2, h3, h4, h5, h6, h7, Bool.and_self, if_true]
  exact one (i := (.fclass d a g t : Instr)) rfl (key (enc 0x4b000000 [(d.toNat, 18), (a.toNat, 12), (b2n g, 5), (t.toNat, 3)])
    (enc_rest k0 f0 28 4 rfl)
    (enc_rest k0 f0 24 4 rfl)
    (zf_eq (enc_rest k0 f0 0 3 rfl))
    (zf_eq (enc_rest k0 f0 6 6 rfl))
    (bv_eq (enc_field k0 f0 0 _ _ _ rfl))
    (bv_eq (enc_field k0 f0 1 _ _ _ rfl))
    (bit_eq (enc_field k0 f0 2 _ _ _ rfl))
    (bv_eq (enc_field k0 f0 3 _ _ _ rfl)))

theorem frcp (d a g t r) : Statement (.frcp d a g t r : Instr) := by
  have k0 : layoutOk 0x4c000000 [(18, 6), (12, 6), (5, 1), (3, 2), (0, 3)] = true := by decide
  have f0 : fit [(d.toNat, 18, 6), (a.toNat, 12, 6), (b2n g, 5, 1), (t.toNat, 3, 2), (r.toNat, 0, 3)] := ⟨d.isLt, a.isLt, b2n_lt g, t.isLt, r.isLt, trivial⟩
  have key : ∀ ww : Nat, ww / 2 ^ 28 % 16 = 4 → ww / 2 ^ 24 % 16 = 12 → zf ww 6 6 = true → bv 6 ww 18 = d → bv 6 ww 12 = a → bit ww 5 = g → bv 2 ww 3 = t → bv 3 ww 0 = r → decodeSlot ww 0 0 = .ok (.frcp d a g t r : Instr) := by
    intro ww h0 h1 h2 h3 h4 h5 h6 h7
    simp only [decodeSlot, decodeRow4, h0, h1, h2, h3, h4, h5, h6, h7, if_true]
  exact one (i := (.frcp d a g t r : Instr)) rfl (key (enc 0x4c000000 [(d.toNat, 18), (a.toNat, 12), (b2n g, 5), (t.toNat, 3), (r.toNat, 0)])
    (enc_rest k0 f0 28 4 rfl)
    (enc_rest k0 f0 24 4 rfl)
    (zf_eq (enc_rest k0 f0 6 6 rfl))
    (bv_eq (enc_field k0 f0 0 _ _ _ rfl))
    (bv_eq (enc_field k0 f0 1 _ _ _ rfl))
    (bit_eq (enc_field k0 f0 2 _ _ _ rfl))
    (bv_eq (enc_field k0 f0 3 _ _ _ rfl))
    (bv_eq (enc_field k0 f0 4 _ _ _ rfl)))

theorem frsq (d a g t r) : Statement (.frsq d a g t r : Instr) := by
  have k0 : layoutOk 0x4d000000 [(18, 6), (12, 6), (5, 1), (3, 2), (0, 3)] = true := by decide
  have f0 : fit [(d.toNat, 18, 6), (a.toNat, 12, 6), (b2n g, 5, 1), (t.toNat, 3, 2), (r.toNat, 0, 3)] := ⟨d.isLt, a.isLt, b2n_lt g, t.isLt, r.isLt, trivial⟩
  have key : ∀ ww : Nat, ww / 2 ^ 28 % 16 = 4 → ww / 2 ^ 24 % 16 = 13 → zf ww 6 6 = true → bv 6 ww 18 = d → bv 6 ww 12 = a → bit ww 5 = g → bv 2 ww 3 = t → bv 3 ww 0 = r → decodeSlot ww 0 0 = .ok (.frsq d a g t r : Instr) := by
    intro ww h0 h1 h2 h3 h4 h5 h6 h7
    simp only [decodeSlot, decodeRow4, h0, h1, h2, h3, h4, h5, h6, h7, if_true]
  exact one (i := (.frsq d a g t r : Instr)) rfl (key (enc 0x4d000000 [(d.toNat, 18), (a.toNat, 12), (b2n g, 5), (t.toNat, 3), (r.toNat, 0)])
    (enc_rest k0 f0 28 4 rfl)
    (enc_rest k0 f0 24 4 rfl)
    (zf_eq (enc_rest k0 f0 6 6 rfl))
    (bv_eq (enc_field k0 f0 0 _ _ _ rfl))
    (bv_eq (enc_field k0 f0 1 _ _ _ rfl))
    (bit_eq (enc_field k0 f0 2 _ _ _ rfl))
    (bv_eq (enc_field k0 f0 3 _ _ _ rfl))
    (bv_eq (enc_field k0 f0 4 _ _ _ rfl)))

theorem fsqrt (d a g t r) : Statement (.fsqrt d a g t r : Instr) := by
  have k0 : layoutOk 0x4e000000 [(18, 6), (12, 6), (5, 1), (3, 2), (0, 3)] = true := by decide
  have f0 : fit [(d.toNat, 18, 6), (a.toNat, 12, 6), (b2n g, 5, 1), (t.toNat, 3, 2), (r.toNat, 0, 3)] := ⟨d.isLt, a.isLt, b2n_lt g, t.isLt, r.isLt, trivial⟩
  have key : ∀ ww : Nat, ww / 2 ^ 28 % 16 = 4 → ww / 2 ^ 24 % 16 = 14 → zf ww 6 6 = true → bv 6 ww 18 = d → bv 6 ww 12 = a → bit ww 5 = g → bv 2 ww 3 = t → bv 3 ww 0 = r → decodeSlot ww 0 0 = .ok (.fsqrt d a g t r : Instr) := by
    intro ww h0 h1 h2 h3 h4 h5 h6 h7
    simp only [decodeSlot, decodeRow4, h0, h1, h2, h3, h4, h5, h6, h7, if_true]
  exact one (i := (.fsqrt d a g t r : Instr)) rfl (key (enc 0x4e000000 [(d.toNat, 18), (a.toNat, 12), (b2n g, 5), (t.toNat, 3), (r.toNat, 0)])
    (enc_rest k0 f0 28 4 rfl)
    (enc_rest k0 f0 24 4 rfl)
    (zf_eq (enc_rest k0 f0 6 6 rfl))
    (bv_eq (enc_field k0 f0 0 _ _ _ rfl))
    (bv_eq (enc_field k0 f0 1 _ _ _ rfl))
    (bit_eq (enc_field k0 f0 2 _ _ _ rfl))
    (bv_eq (enc_field k0 f0 3 _ _ _ rfl))
    (bv_eq (enc_field k0 f0 4 _ _ _ rfl)))

theorem fdiv (d a b g t r) : Statement (.fdiv d a b g t r : Instr) := by
  have k0 : layoutOk 0x4f000000 [(18, 6), (12, 6), (6, 6), (5, 1), (3, 2), (0, 3)] = true := by decide
  have f0 : fit [(d.toNat, 18, 6), (a.toNat, 12, 6), (b.toNat, 6, 6), (b2n g, 5, 1), (t.toNat, 3, 2), (r.toNat, 0, 3)] := ⟨d.isLt, a.isLt, b.isLt, b2n_lt g, t.isLt, r.isLt, trivial⟩
  have key : ∀ ww : Nat, ww / 2 ^ 28 % 16 = 4 → ww / 2 ^ 24 % 16 = 15 → bv 6 ww 18 = d → bv 6 ww 12 = a → bv 6 ww 6 = b → bit ww 5 = g → bv 2 ww 3 = t → bv 3 ww 0 = r → decodeSlot ww 0 0 = .ok (.fdiv d a b g t r : Instr) := by
    intro ww h0 h1 h2 h3 h4 h5 h6 h7
    simp only [decodeSlot, decodeRow4, h0, h1, h2, h3, h4, h5, h6, h7]
  exact one (i := (.fdiv d a b g t r : Instr)) rfl (key (enc 0x4f000000 [(d.toNat, 18), (a.toNat, 12), (b.toNat, 6), (b2n g, 5), (t.toNat, 3), (r.toNat, 0)])
    (enc_rest k0 f0 28 4 rfl)
    (enc_rest k0 f0 24 4 rfl)
    (bv_eq (enc_field k0 f0 0 _ _ _ rfl))
    (bv_eq (enc_field k0 f0 1 _ _ _ rfl))
    (bv_eq (enc_field k0 f0 2 _ _ _ rfl))
    (bit_eq (enc_field k0 f0 3 _ _ _ rfl))
    (bv_eq (enc_field k0 f0 4 _ _ _ rfl))
    (bv_eq (enc_field k0 f0 5 _ _ _ rfl)))

theorem fexp2 (d a g t r) : Statement (.fexp2 d a g t r : Instr) := by
  have k0 : layoutOk 0x50000000 [(18, 6), (12, 6), (5, 1), (3, 2), (0, 3)] = true := by decide
  have f0 : fit [(d.toNat, 18, 6), (a.toNat, 12, 6), (b2n g, 5, 1), (t.toNat, 3, 2), (r.toNat, 0, 3)] := ⟨d.isLt, a.isLt, b2n_lt g, t.isLt, r.isLt, trivial⟩
  have key : ∀ ww : Nat, ww / 2 ^ 28 % 16 = 5 → ww / 2 ^ 24 % 16 = 0 → zf ww 6 6 = true → bv 6 ww 18 = d → bv 6 ww 12 = a → bit ww 5 = g → bv 2 ww 3 = t → bv 3 ww 0 = r → decodeSlot ww 0 0 = .ok (.fexp2 d a g t r : Instr) := by
    intro ww h0 h1 h2 h3 h4 h5 h6 h7
    simp only [decodeSlot, decodeRow5, h0, h1, h2, h3, h4, h5, h6, h7, if_true]
  exact one (i := (.fexp2 d a g t r : Instr)) rfl (key (enc 0x50000000 [(d.toNat, 18), (a.toNat, 12), (b2n g, 5), (t.toNat, 3), (r.toNat, 0)])
    (enc_rest k0 f0 28 4 rfl)
    (enc_rest k0 f0 24 4 rfl)
    (zf_eq (enc_rest k0 f0 6 6 rfl))
    (bv_eq (enc_field k0 f0 0 _ _ _ rfl))
    (bv_eq (enc_field k0 f0 1 _ _ _ rfl))
    (bit_eq (enc_field k0 f0 2 _ _ _ rfl))
    (bv_eq (enc_field k0 f0 3 _ _ _ rfl))
    (bv_eq (enc_field k0 f0 4 _ _ _ rfl)))

theorem flog2 (d a g t r) : Statement (.flog2 d a g t r : Instr) := by
  have k0 : layoutOk 0x51000000 [(18, 6), (12, 6), (5, 1), (3, 2), (0, 3)] = true := by decide
  have f0 : fit [(d.toNat, 18, 6), (a.toNat, 12, 6), (b2n g, 5, 1), (t.toNat, 3, 2), (r.toNat, 0, 3)] := ⟨d.isLt, a.isLt, b2n_lt g, t.isLt, r.isLt, trivial⟩
  have key : ∀ ww : Nat, ww / 2 ^ 28 % 16 = 5 → ww / 2 ^ 24 % 16 = 1 → zf ww 6 6 = true → bv 6 ww 18 = d → bv 6 ww 12 = a → bit ww 5 = g → bv 2 ww 3 = t → bv 3 ww 0 = r → decodeSlot ww 0 0 = .ok (.flog2 d a g t r : Instr) := by
    intro ww h0 h1 h2 h3 h4 h5 h6 h7
    simp only [decodeSlot, decodeRow5, h0, h1, h2, h3, h4, h5, h6, h7, if_true]
  exact one (i := (.flog2 d a g t r : Instr)) rfl (key (enc 0x51000000 [(d.toNat, 18), (a.toNat, 12), (b2n g, 5), (t.toNat, 3), (r.toNat, 0)])
    (enc_rest k0 f0 28 4 rfl)
    (enc_rest k0 f0 24 4 rfl)
    (zf_eq (enc_rest k0 f0 6 6 rfl))
    (bv_eq (enc_field k0 f0 0 _ _ _ rfl))
    (bv_eq (enc_field k0 f0 1 _ _ _ rfl))
    (bit_eq (enc_field k0 f0 2 _ _ _ rfl))
    (bv_eq (enc_field k0 f0 3 _ _ _ rfl))
    (bv_eq (enc_field k0 f0 4 _ _ _ rfl)))

theorem fsinpi (d a g t r) : Statement (.fsinpi d a g t r : Instr) := by
  have k0 : layoutOk 0x52000000 [(18, 6), (12, 6), (5, 1), (3, 2), (0, 3)] = true := by decide
  have f0 : fit [(d.toNat, 18, 6), (a.toNat, 12, 6), (b2n g, 5, 1), (t.toNat, 3, 2), (r.toNat, 0, 3)] := ⟨d.isLt, a.isLt, b2n_lt g, t.isLt, r.isLt, trivial⟩
  have key : ∀ ww : Nat, ww / 2 ^ 28 % 16 = 5 → ww / 2 ^ 24 % 16 = 2 → zf ww 6 6 = true → bv 6 ww 18 = d → bv 6 ww 12 = a → bit ww 5 = g → bv 2 ww 3 = t → bv 3 ww 0 = r → decodeSlot ww 0 0 = .ok (.fsinpi d a g t r : Instr) := by
    intro ww h0 h1 h2 h3 h4 h5 h6 h7
    simp only [decodeSlot, decodeRow5, h0, h1, h2, h3, h4, h5, h6, h7, if_true]
  exact one (i := (.fsinpi d a g t r : Instr)) rfl (key (enc 0x52000000 [(d.toNat, 18), (a.toNat, 12), (b2n g, 5), (t.toNat, 3), (r.toNat, 0)])
    (enc_rest k0 f0 28 4 rfl)
    (enc_rest k0 f0 24 4 rfl)
    (zf_eq (enc_rest k0 f0 6 6 rfl))
    (bv_eq (enc_field k0 f0 0 _ _ _ rfl))
    (bv_eq (enc_field k0 f0 1 _ _ _ rfl))
    (bit_eq (enc_field k0 f0 2 _ _ _ rfl))
    (bv_eq (enc_field k0 f0 3 _ _ _ rfl))
    (bv_eq (enc_field k0 f0 4 _ _ _ rfl)))

theorem fcospi (d a g t r) : Statement (.fcospi d a g t r : Instr) := by
  have k0 : layoutOk 0x53000000 [(18, 6), (12, 6), (5, 1), (3, 2), (0, 3)] = true := by decide
  have f0 : fit [(d.toNat, 18, 6), (a.toNat, 12, 6), (b2n g, 5, 1), (t.toNat, 3, 2), (r.toNat, 0, 3)] := ⟨d.isLt, a.isLt, b2n_lt g, t.isLt, r.isLt, trivial⟩
  have key : ∀ ww : Nat, ww / 2 ^ 28 % 16 = 5 → ww / 2 ^ 24 % 16 = 3 → zf ww 6 6 = true → bv 6 ww 18 = d → bv 6 ww 12 = a → bit ww 5 = g → bv 2 ww 3 = t → bv 3 ww 0 = r → decodeSlot ww 0 0 = .ok (.fcospi d a g t r : Instr) := by
    intro ww h0 h1 h2 h3 h4 h5 h6 h7
    simp only [decodeSlot, decodeRow5, h0, h1, h2, h3, h4, h5, h6, h7, if_true]
  exact one (i := (.fcospi d a g t r : Instr)) rfl (key (enc 0x53000000 [(d.toNat, 18), (a.toNat, 12), (b2n g, 5), (t.toNat, 3), (r.toNat, 0)])
    (enc_rest k0 f0 28 4 rfl)
    (enc_rest k0 f0 24 4 rfl)
    (zf_eq (enc_rest k0 f0 6 6 rfl))
    (bv_eq (enc_field k0 f0 0 _ _ _ rfl))
    (bv_eq (enc_field k0 f0 1 _ _ _ rfl))
    (bit_eq (enc_field k0 f0 2 _ _ _ rfl))
    (bv_eq (enc_field k0 f0 3 _ _ _ rfl))
    (bv_eq (enc_field k0 f0 4 _ _ _ rfl)))

theorem ftanh (d a g t r) : Statement (.ftanh d a g t r : Instr) := by
  have k0 : layoutOk 0x54000000 [(18, 6), (12, 6), (5, 1), (3, 2), (0, 3)] = true := by decide
  have f0 : fit [(d.toNat, 18, 6), (a.toNat, 12, 6), (b2n g, 5, 1), (t.toNat, 3, 2), (r.toNat, 0, 3)] := ⟨d.isLt, a.isLt, b2n_lt g, t.isLt, r.isLt, trivial⟩
  have key : ∀ ww : Nat, ww / 2 ^ 28 % 16 = 5 → ww / 2 ^ 24 % 16 = 4 → zf ww 6 6 = true → bv 6 ww 18 = d → bv 6 ww 12 = a → bit ww 5 = g → bv 2 ww 3 = t → bv 3 ww 0 = r → decodeSlot ww 0 0 = .ok (.ftanh d a g t r : Instr) := by
    intro ww h0 h1 h2 h3 h4 h5 h6 h7
    simp only [decodeSlot, decodeRow5, h0, h1, h2, h3, h4, h5, h6, h7, if_true]
  exact one (i := (.ftanh d a g t r : Instr)) rfl (key (enc 0x54000000 [(d.toNat, 18), (a.toNat, 12), (b2n g, 5), (t.toNat, 3), (r.toNat, 0)])
    (enc_rest k0 f0 28 4 rfl)
    (enc_rest k0 f0 24 4 rfl)
    (zf_eq (enc_rest k0 f0 6 6 rfl))
    (bv_eq (enc_field k0 f0 0 _ _ _ rfl))
    (bv_eq (enc_field k0 f0 1 _ _ _ rfl))
    (bit_eq (enc_field k0 f0 2 _ _ _ rfl))
    (bv_eq (enc_field k0 f0 3 _ _ _ rfl))
    (bv_eq (enc_field k0 f0 4 _ _ _ rfl)))

theorem fround (d a g t r) : Statement (.fround d a g t r : Instr) := by
  have k0 : layoutOk 0x55000000 [(18, 6), (12, 6), (5, 1), (3, 2), (0, 3)] = true := by decide
  have f0 : fit [(d.toNat, 18, 6), (a.toNat, 12, 6), (b2n g, 5, 1), (t.toNat, 3, 2), (r.toNat, 0, 3)] := ⟨d.isLt, a.isLt, b2n_lt g, t.isLt, r.isLt, trivial⟩
  have key : ∀ ww : Nat, ww / 2 ^ 28 % 16 = 5 → ww / 2 ^ 24 % 16 = 5 → zf ww 6 6 = true → bv 6 ww 18 = d → bv 6 ww 12 = a → bit ww 5 = g → bv 2 ww 3 = t → bv 3 ww 0 = r → decodeSlot ww 0 0 = .ok (.fround d a g t r : Instr) := by
    intro ww h0 h1 h2 h3 h4 h5 h6 h7
    simp only [decodeSlot, decodeRow5, h0, h1, h2, h3, h4, h5, h6, h7, if_true]
  exact one (i := (.fround d a g t r : Instr)) rfl (key (enc 0x55000000 [(d.toNat, 18), (a.toNat, 12), (b2n g, 5), (t.toNat, 3), (r.toNat, 0)])
    (enc_rest k0 f0 28 4 rfl)
    (enc_rest k0 f0 24 4 rfl)
    (zf_eq (enc_rest k0 f0 6 6 rfl))
    (bv_eq (enc_field k0 f0 0 _ _ _ rfl))
    (bv_eq (enc_field k0 f0 1 _ _ _ rfl))
    (bit_eq (enc_field k0 f0 2 _ _ _ rfl))
    (bv_eq (enc_field k0 f0 3 _ _ _ rfl))
    (bv_eq (enc_field k0 f0 4 _ _ _ rfl)))

theorem fscale (d a b g t r) : Statement (.fscale d a b g t r : Instr) := by
  have k0 : layoutOk 0x56000000 [(18, 6), (12, 6), (6, 6), (5, 1), (3, 2), (0, 3)] = true := by decide
  have f0 : fit [(d.toNat, 18, 6), (a.toNat, 12, 6), (b.toNat, 6, 6), (b2n g, 5, 1), (t.toNat, 3, 2), (r.toNat, 0, 3)] := ⟨d.isLt, a.isLt, b.isLt, b2n_lt g, t.isLt, r.isLt, trivial⟩
  have key : ∀ ww : Nat, ww / 2 ^ 28 % 16 = 5 → ww / 2 ^ 24 % 16 = 6 → bv 6 ww 18 = d → bv 6 ww 12 = a → bv 6 ww 6 = b → bit ww 5 = g → bv 2 ww 3 = t → bv 3 ww 0 = r → decodeSlot ww 0 0 = .ok (.fscale d a b g t r : Instr) := by
    intro ww h0 h1 h2 h3 h4 h5 h6 h7
    simp only [decodeSlot, decodeRow5, h0, h1, h2, h3, h4, h5, h6, h7]
  exact one (i := (.fscale d a b g t r : Instr)) rfl (key (enc 0x56000000 [(d.toNat, 18), (a.toNat, 12), (b.toNat, 6), (b2n g, 5), (t.toNat, 3), (r.toNat, 0)])
    (enc_rest k0 f0 28 4 rfl)
    (enc_rest k0 f0 24 4 rfl)
    (bv_eq (enc_field k0 f0 0 _ _ _ rfl))
    (bv_eq (enc_field k0 f0 1 _ _ _ rfl))
    (bv_eq (enc_field k0 f0 2 _ _ _ rfl))
    (bit_eq (enc_field k0 f0 3 _ _ _ rfl))
    (bv_eq (enc_field k0 f0 4 _ _ _ rfl))
    (bv_eq (enc_field k0 f0 5 _ _ _ rfl)))

theorem fdot2 (d a b c) : Statement (.fdot2 d a b c : Instr) := by
  have k0 : layoutOk 0x57000000 [(18, 6), (12, 6), (6, 6), (0, 6)] = true := by decide
  have f0 : fit [(d.toNat, 18, 6), (a.toNat, 12, 6), (b.toNat, 6, 6), (c.toNat, 0, 6)] := ⟨d.isLt, a.isLt, b.isLt, c.isLt, trivial⟩
  have key : ∀ ww : Nat, ww / 2 ^ 28 % 16 = 5 → ww / 2 ^ 24 % 16 = 7 → bv 6 ww 18 = d → bv 6 ww 12 = a → bv 6 ww 6 = b → bv 6 ww 0 = c → decodeSlot ww 0 0 = .ok (.fdot2 d a b c : Instr) := by
    intro ww h0 h1 h2 h3 h4 h5
    simp only [decodeSlot, decodeRow5, h0, h1, h2, h3, h4, h5]
  exact one (i := (.fdot2 d a b c : Instr)) rfl (key (enc 0x57000000 [(d.toNat, 18), (a.toNat, 12), (b.toNat, 6), (c.toNat, 0)])
    (enc_rest k0 f0 28 4 rfl)
    (enc_rest k0 f0 24 4 rfl)
    (bv_eq (enc_field k0 f0 0 _ _ _ rfl))
    (bv_eq (enc_field k0 f0 1 _ _ _ rfl))
    (bv_eq (enc_field k0 f0 2 _ _ _ rfl))
    (bv_eq (enc_field k0 f0 3 _ _ _ rfl)))

theorem bdot2 (d a b c) : Statement (.bdot2 d a b c : Instr) := by
  have k0 : layoutOk 0x58000000 [(18, 6), (12, 6), (6, 6), (0, 6)] = true := by decide
  have f0 : fit [(d.toNat, 18, 6), (a.toNat, 12, 6), (b.toNat, 6, 6), (c.toNat, 0, 6)] := ⟨d.isLt, a.isLt, b.isLt, c.isLt, trivial⟩
  have key : ∀ ww : Nat, ww / 2 ^ 28 % 16 = 5 → ww / 2 ^ 24 % 16 = 8 → bv 6 ww 18 = d → bv 6 ww 12 = a → bv 6 ww 6 = b → bv 6 ww 0 = c → decodeSlot ww 0 0 = .ok (.bdot2 d a b c : Instr) := by
    intro ww h0 h1 h2 h3 h4 h5
    simp only [decodeSlot, decodeRow5, h0, h1, h2, h3, h4, h5]
  exact one (i := (.bdot2 d a b c : Instr)) rfl (key (enc 0x58000000 [(d.toNat, 18), (a.toNat, 12), (b.toNat, 6), (c.toNat, 0)])
    (enc_rest k0 f0 28 4 rfl)
    (enc_rest k0 f0 24 4 rfl)
    (bv_eq (enc_field k0 f0 0 _ _ _ rfl))
    (bv_eq (enc_field k0 f0 1 _ _ _ rfl))
    (bv_eq (enc_field k0 f0 2 _ _ _ rfl))
    (bv_eq (enc_field k0 f0 3 _ _ _ rfl)))

theorem cvt (d a s f r t) : Statement (.cvt d a s f r t : Instr) := by
  have k0 : layoutOk 0x60000000 [(18, 6), (12, 6), (9, 3), (6, 3), (3, 3), (2, 1)] = true := by decide
  have f0 : fit [(d.toNat, 18, 6), (a.toNat, 12, 6), (s.toNat, 9, 3), (f.toNat, 6, 3), (r.toNat, 3, 3), (b2n t, 2, 1)] := ⟨d.isLt, a.isLt, s.isLt, f.isLt, r.isLt, b2n_lt t, trivial⟩
  have key : ∀ ww : Nat, ww / 2 ^ 28 % 16 = 6 → ww / 2 ^ 24 % 16 = 0 → zf ww 0 2 = true → bv 6 ww 18 = d → bv 6 ww 12 = a → bv 3 ww 9 = s → bv 3 ww 6 = f → bv 3 ww 3 = r → bit ww 2 = t → decodeSlot ww 0 0 = .ok (.cvt d a s f r t : Instr) := by
    intro ww h0 h1 h2 h3 h4 h5 h6 h7 h8
    simp only [decodeSlot, decodeRow6, h0, h1, h2, h3, h4, h5, h6, h7, h8, if_true]
  exact one (i := (.cvt d a s f r t : Instr)) rfl (key (enc 0x60000000 [(d.toNat, 18), (a.toNat, 12), (s.toNat, 9), (f.toNat, 6), (r.toNat, 3), (b2n t, 2)])
    (enc_rest k0 f0 28 4 rfl)
    (enc_rest k0 f0 24 4 rfl)
    (zf_eq (enc_rest k0 f0 0 2 rfl))
    (bv_eq (enc_field k0 f0 0 _ _ _ rfl))
    (bv_eq (enc_field k0 f0 1 _ _ _ rfl))
    (bv_eq (enc_field k0 f0 2 _ _ _ rfl))
    (bv_eq (enc_field k0 f0 3 _ _ _ rfl))
    (bv_eq (enc_field k0 f0 4 _ _ _ rfl))
    (bit_eq (enc_field k0 f0 5 _ _ _ rfl)))

theorem qpack (d a b t s) : Statement (.qpack d a b t s : Instr) := by
  have k0 : layoutOk 0x61000000 [(18, 6), (12, 6), (6, 6), (3, 1), (0, 3)] = true := by decide
  have f0 : fit [(d.toNat, 18, 6), (a.toNat, 12, 6), (b.toNat, 6, 6), (b2n t, 3, 1), (s.toNat, 0, 3)] := ⟨d.isLt, a.isLt, b.isLt, b2n_lt t, s.isLt, trivial⟩
  have key : ∀ ww : Nat, ww / 2 ^ 28 % 16 = 6 → ww / 2 ^ 24 % 16 = 1 → zf ww 4 2 = true → bv 6 ww 18 = d → bv 6 ww 12 = a → bv 6 ww 6 = b → bit ww 3 = t → bv 3 ww 0 = s → decodeSlot ww 0 0 = .ok (.qpack d a b t s : Instr) := by
    intro ww h0 h1 h2 h3 h4 h5 h6 h7
    simp only [decodeSlot, decodeRow6, h0, h1, h2, h3, h4, h5, h6, h7, if_true]
  exact one (i := (.qpack d a b t s : Instr)) rfl (key (enc 0x61000000 [(d.toNat, 18), (a.toNat, 12), (b.toNat, 6), (b2n t, 3), (s.toNat, 0)])
    (enc_rest k0 f0 28 4 rfl)
    (enc_rest k0 f0 24 4 rfl)
    (zf_eq (enc_rest k0 f0 4 2 rfl))
    (bv_eq (enc_field k0 f0 0 _ _ _ rfl))
    (bv_eq (enc_field k0 f0 1 _ _ _ rfl))
    (bv_eq (enc_field k0 f0 2 _ _ _ rfl))
    (bit_eq (enc_field k0 f0 3 _ _ _ rfl))
    (bv_eq (enc_field k0 f0 4 _ _ _ rfl)))

theorem qpack4 (d a b t s) : Statement (.qpack4 d a b t s : Instr) := by
  have k0 : layoutOk 0x62000000 [(18, 6), (12, 6), (6, 6), (3, 1), (0, 3)] = true := by decide
  have f0 : fit [(d.toNat, 18, 6), (a.toNat, 12, 6), (b.toNat, 6, 6), (b2n t, 3, 1), (s.toNat, 0, 3)] := ⟨d.isLt, a.isLt, b.isLt, b2n_lt t, s.isLt, trivial⟩
  have key : ∀ ww : Nat, ww / 2 ^ 28 % 16 = 6 → ww / 2 ^ 24 % 16 = 2 → zf ww 4 2 = true → bv 6 ww 18 = d → bv 6 ww 12 = a → bv 6 ww 6 = b → bit ww 3 = t → bv 3 ww 0 = s → decodeSlot ww 0 0 = .ok (.qpack4 d a b t s : Instr) := by
    intro ww h0 h1 h2 h3 h4 h5 h6 h7
    simp only [decodeSlot, decodeRow6, h0, h1, h2, h3, h4, h5, h6, h7, if_true]
  exact one (i := (.qpack4 d a b t s : Instr)) rfl (key (enc 0x62000000 [(d.toNat, 18), (a.toNat, 12), (b.toNat, 6), (b2n t, 3), (s.toNat, 0)])
    (enc_rest k0 f0 28 4 rfl)
    (enc_rest k0 f0 24 4 rfl)
    (zf_eq (enc_rest k0 f0 4 2 rfl))
    (bv_eq (enc_field k0 f0 0 _ _ _ rfl))
    (bv_eq (enc_field k0 f0 1 _ _ _ rfl))
    (bv_eq (enc_field k0 f0 2 _ _ _ rfl))
    (bit_eq (enc_field k0 f0 3 _ _ _ rfl))
    (bv_eq (enc_field k0 f0 4 _ _ _ rfl)))

theorem qunpk (d a b h s) : Statement (.qunpk d a b h s : Instr) := by
  have k0 : layoutOk 0x63000000 [(18, 6), (12, 6), (6, 6), (4, 2), (0, 3)] = true := by decide
  have f0 : fit [(d.toNat, 18, 6), (a.toNat, 12, 6), (b.toNat, 6, 6), (h.toNat, 4, 2), (s.toNat, 0, 3)] := ⟨d.isLt, a.isLt, b.isLt, h.isLt, s.isLt, trivial⟩
  have key : ∀ ww : Nat, ww / 2 ^ 28 % 16 = 6 → ww / 2 ^ 24 % 16 = 3 → zf ww 3 1 = true → bv 6 ww 18 = d → bv 6 ww 12 = a → bv 6 ww 6 = b → bv 2 ww 4 = h → bv 3 ww 0 = s → decodeSlot ww 0 0 = .ok (.qunpk d a b h s : Instr) := by
    intro ww h0 h1 h2 h3 h4 h5 h6 h7
    simp only [decodeSlot, decodeRow6, h0, h1, h2, h3, h4, h5, h6, h7, if_true]
  exact one (i := (.qunpk d a b h s : Instr)) rfl (key (enc 0x63000000 [(d.toNat, 18), (a.toNat, 12), (b.toNat, 6), (h.toNat, 4), (s.toNat, 0)])
    (enc_rest k0 f0 28 4 rfl)
    (enc_rest k0 f0 24 4 rfl)
    (zf_eq (enc_rest k0 f0 3 1 rfl))
    (bv_eq (enc_field k0 f0 0 _ _ _ rfl))
    (bv_eq (enc_field k0 f0 1 _ _ _ rfl))
    (bv_eq (enc_field k0 f0 2 _ _ _ rfl))
    (bv_eq (enc_field k0 f0 3 _ _ _ rfl))
    (bv_eq (enc_field k0 f0 4 _ _ _ rfl)))

theorem dot4 (d a b c) : Statement (.dot4 d a b c : Instr) := by
  have k0 : layoutOk 0x64000000 [(18, 6), (12, 6), (6, 6), (0, 6)] = true := by decide
  have f0 : fit [(d.toNat, 18, 6), (a.toNat, 12, 6), (b.toNat, 6, 6), (c.toNat, 0, 6)] := ⟨d.isLt, a.isLt, b.isLt, c.isLt, trivial⟩
  have key : ∀ ww : Nat, ww / 2 ^ 28 % 16 = 6 → ww / 2 ^ 24 % 16 = 4 → bv 6 ww 18 = d → bv 6 ww 12 = a → bv 6 ww 6 = b → bv 6 ww 0 = c → decodeSlot ww 0 0 = .ok (.dot4 d a b c : Instr) := by
    intro ww h0 h1 h2 h3 h4 h5
    simp only [decodeSlot, decodeRow6, h0, h1, h2, h3, h4, h5]
  exact one (i := (.dot4 d a b c : Instr)) rfl (key (enc 0x64000000 [(d.toNat, 18), (a.toNat, 12), (b.toNat, 6), (c.toNat, 0)])
    (enc_rest k0 f0 28 4 rfl)
    (enc_rest k0 f0 24 4 rfl)
    (bv_eq (enc_field k0 f0 0 _ _ _ rfl))
    (bv_eq (enc_field k0 f0 1 _ _ _ rfl))
    (bv_eq (enc_field k0 f0 2 _ _ _ rfl))
    (bv_eq (enc_field k0 f0 3 _ _ _ rfl)))

theorem dot8 (d a b c) : Statement (.dot8 d a b c : Instr) := by
  have k0 : layoutOk 0x65000000 [(18, 6), (12, 6), (6, 6), (0, 6)] = true := by decide
  have f0 : fit [(d.toNat, 18, 6), (a.toNat, 12, 6), (b.toNat, 6, 6), (c.toNat, 0, 6)] := ⟨d.isLt, a.isLt, b.isLt, c.isLt, trivial⟩
  have key : ∀ ww : Nat, ww / 2 ^ 28 % 16 = 6 → ww / 2 ^ 24 % 16 = 5 → bv 6 ww 18 = d → bv 6 ww 12 = a → bv 6 ww 6 = b → bv 6 ww 0 = c → decodeSlot ww 0 0 = .ok (.dot8 d a b c : Instr) := by
    intro ww h0 h1 h2 h3 h4 h5
    simp only [decodeSlot, decodeRow6, h0, h1, h2, h3, h4, h5]
  exact one (i := (.dot8 d a b c : Instr)) rfl (key (enc 0x65000000 [(d.toNat, 18), (a.toNat, 12), (b.toNat, 6), (c.toNat, 0)])
    (enc_rest k0 f0 28 4 rfl)
    (enc_rest k0 f0 24 4 rfl)
    (bv_eq (enc_field k0 f0 0 _ _ _ rfl))
    (bv_eq (enc_field k0 f0 1 _ _ _ rfl))
    (bv_eq (enc_field k0 f0 2 _ _ _ rfl))
    (bv_eq (enc_field k0 f0 3 _ _ _ rfl)))

theorem fdot4 (d a b c) : Statement (.fdot4 d a b c : Instr) := by
  have k0 : layoutOk 0x66000000 [(18, 6), (12, 6), (6, 6), (0, 6)] = true := by decide
  have f0 : fit [(d.toNat, 18, 6), (a.toNat, 12, 6), (b.toNat, 6, 6), (c.toNat, 0, 6)] := ⟨d.isLt, a.isLt, b.isLt, c.isLt, trivial⟩
  have key : ∀ ww : Nat, ww / 2 ^ 28 % 16 = 6 → ww / 2 ^ 24 % 16 = 6 → bv 6 ww 18 = d → bv 6 ww 12 = a → bv 6 ww 6 = b → bv 6 ww 0 = c → decodeSlot ww 0 0 = .ok (.fdot4 d a b c : Instr) := by
    intro ww h0 h1 h2 h3 h4 h5
    simp only [decodeSlot, decodeRow6, h0, h1, h2, h3, h4, h5]
  exact one (i := (.fdot4 d a b c : Instr)) rfl (key (enc 0x66000000 [(d.toNat, 18), (a.toNat, 12), (b.toNat, 6), (c.toNat, 0)])
    (enc_rest k0 f0 28 4 rfl)
    (enc_rest k0 f0 24 4 rfl)
    (bv_eq (enc_field k0 f0 0 _ _ _ rfl))
    (bv_eq (enc_field k0 f0 1 _ _ _ rfl))
    (bv_eq (enc_field k0 f0 2 _ _ _ rfl))
    (bv_eq (enc_field k0 f0 3 _ _ _ rfl)))

theorem mac2 (d a b c) : Statement (.mac2 d a b c : Instr) := by
  have k0 : layoutOk 0x67000000 [(18, 6), (12, 6), (6, 6), (0, 6)] = true := by decide
  have f0 : fit [(d.toNat, 18, 6), (a.toNat, 12, 6), (b.toNat, 6, 6), (c.toNat, 0, 6)] := ⟨d.isLt, a.isLt, b.isLt, c.isLt, trivial⟩
  have key : ∀ ww : Nat, ww / 2 ^ 28 % 16 = 6 → ww / 2 ^ 24 % 16 = 7 → bv 6 ww 18 = d → bv 6 ww 12 = a → bv 6 ww 6 = b → bv 6 ww 0 = c → decodeSlot ww 0 0 = .ok (.mac2 d a b c : Instr) := by
    intro ww h0 h1 h2 h3 h4 h5
    simp only [decodeSlot, decodeRow6, h0, h1, h2, h3, h4, h5]
  exact one (i := (.mac2 d a b c : Instr)) rfl (key (enc 0x67000000 [(d.toNat, 18), (a.toNat, 12), (b.toNat, 6), (c.toNat, 0)])
    (enc_rest k0 f0 28 4 rfl)
    (enc_rest k0 f0 24 4 rfl)
    (bv_eq (enc_field k0 f0 0 _ _ _ rfl))
    (bv_eq (enc_field k0 f0 1 _ _ _ rfl))
    (bv_eq (enc_field k0 f0 2 _ _ _ rfl))
    (bv_eq (enc_field k0 f0 3 _ _ _ rfl)))

theorem shrr (d a b g s u) : Statement (.shrr d a b g s u : Instr) := by
  have k0 : layoutOk 0x68000000 [(18, 6), (12, 6), (6, 6), (5, 1), (4, 1), (3, 1)] = true := by decide
  have f0 : fit [(d.toNat, 18, 6), (a.toNat, 12, 6), (b.toNat, 6, 6), (b2n g, 5, 1), (b2n s, 4, 1), (b2n u, 3, 1)] := ⟨d.isLt, a.isLt, b.isLt, b2n_lt g, b2n_lt s, b2n_lt u, trivial⟩
  have key : ∀ ww : Nat, ww / 2 ^ 28 % 16 = 6 → ww / 2 ^ 24 % 16 = 8 → zf ww 0 3 = true → bv 6 ww 18 = d → bv 6 ww 12 = a → bv 6 ww 6 = b → bit ww 5 = g → bit ww 4 = s → bit ww 3 = u → decodeSlot ww 0 0 = .ok (.shrr d a b g s u : Instr) := by
    intro ww h0 h1 h2 h3 h4 h5 h6 h7 h8
    simp only [decodeSlot, decodeRow6, h0, h1, h2, h3, h4, h5, h6, h7, h8, if_true]
  exact one (i := (.shrr d a b g s u : Instr)) rfl (key (enc 0x68000000 [(d.toNat, 18), (a.toNat, 12), (b.toNat, 6), (b2n g, 5), (b2n s, 4), (b2n u, 3)])
    (enc_rest k0 f0 28 4 rfl)
    (enc_rest k0 f0 24 4 rfl)
    (zf_eq (enc_rest k0 f0 0 3 rfl))
    (bv_eq (enc_field k0 f0 0 _ _ _ rfl))
    (bv_eq (enc_field k0 f0 1 _ _ _ rfl))
    (bv_eq (enc_field k0 f0 2 _ _ _ rfl))
    (bit_eq (enc_field k0 f0 3 _ _ _ rfl))
    (bit_eq (enc_field k0 f0 4 _ _ _ rfl))
    (bit_eq (enc_field k0 f0 5 _ _ _ rfl)))

theorem pk16 (d a b g s u) : Statement (.pk16 d a b g s u : Instr) := by
  have k0 : layoutOk 0x69000000 [(18, 6), (12, 6), (6, 6), (5, 1), (4, 1), (3, 1)] = true := by decide
  have f0 : fit [(d.toNat, 18, 6), (a.toNat, 12, 6), (b.toNat, 6, 6), (b2n g, 5, 1), (b2n s, 4, 1), (b2n u, 3, 1)] := ⟨d.isLt, a.isLt, b.isLt, b2n_lt g, b2n_lt s, b2n_lt u, trivial⟩
  have key : ∀ ww : Nat, ww / 2 ^ 28 % 16 = 6 → ww / 2 ^ 24 % 16 = 9 → zf ww 0 3 = true → bv 6 ww 18 = d → bv 6 ww 12 = a → bv 6 ww 6 = b → bit ww 5 = g → bit ww 4 = s → bit ww 3 = u → decodeSlot ww 0 0 = .ok (.pk16 d a b g s u : Instr) := by
    intro ww h0 h1 h2 h3 h4 h5 h6 h7 h8
    simp only [decodeSlot, decodeRow6, h0, h1, h2, h3, h4, h5, h6, h7, h8, if_true]
  exact one (i := (.pk16 d a b g s u : Instr)) rfl (key (enc 0x69000000 [(d.toNat, 18), (a.toNat, 12), (b.toNat, 6), (b2n g, 5), (b2n s, 4), (b2n u, 3)])
    (enc_rest k0 f0 28 4 rfl)
    (enc_rest k0 f0 24 4 rfl)
    (zf_eq (enc_rest k0 f0 0 3 rfl))
    (bv_eq (enc_field k0 f0 0 _ _ _ rfl))
    (bv_eq (enc_field k0 f0 1 _ _ _ rfl))
    (bv_eq (enc_field k0 f0 2 _ _ _ rfl))
    (bit_eq (enc_field k0 f0 3 _ _ _ rfl))
    (bit_eq (enc_field k0 f0 4 _ _ _ rfl))
    (bit_eq (enc_field k0 f0 5 _ _ _ rfl)))

theorem scalep (a s) : Statement (.scalep a s : Instr) := by
  have k0 : layoutOk 0x6a000000 [(12, 6), (0, 3)] = true := by decide
  have f0 : fit [(a.toNat, 12, 6), (s.toNat, 0, 3)] := ⟨a.isLt, s.isLt, trivial⟩
  have key : ∀ ww : Nat, ww / 2 ^ 28 % 16 = 6 → ww / 2 ^ 24 % 16 = 10 → zf ww 3 9 = true → zf ww 18 6 = true → bv 6 ww 12 = a → bv 3 ww 0 = s → decodeSlot ww 0 0 = .ok (.scalep a s : Instr) := by
    intro ww h0 h1 h2 h3 h4 h5
    simp only [decodeSlot, decodeRow6, h0, h1, h2, h3, h4, h5, Bool.and_self, if_true]
  exact one (i := (.scalep a s : Instr)) rfl (key (enc 0x6a000000 [(a.toNat, 12), (s.toNat, 0)])
    (enc_rest k0 f0 28 4 rfl)
    (enc_rest k0 f0 24 4 rfl)
    (zf_eq (enc_rest k0 f0 3 9 rfl))
    (zf_eq (enc_rest k0 f0 18 6 rfl))
    (bv_eq (enc_field k0 f0 0 _ _ _ rfl))
    (bv_eq (enc_field k0 f0 1 _ _ _ rfl)))

theorem scalec (s) : Statement (.scalec s : Instr) := by
  have k0 : layoutOk 0x6b000000 [(0, 3)] = true := by decide
  have f0 : fit [(s.toNat, 0, 3)] := ⟨s.isLt, trivial⟩
  have key : ∀ ww : Nat, ww / 2 ^ 28 % 16 = 6 → ww / 2 ^ 24 % 16 = 11 → zf ww 3 21 = true → bv 3 ww 0 = s → decodeSlot ww 0 0 = .ok (.scalec s : Instr) := by
    intro ww h0 h1 h2 h3
    simp only [decodeSlot, decodeRow6, h0, h1, h2, h3, if_true]
  exact one (i := (.scalec s : Instr)) rfl (key (enc 0x6b000000 [(s.toNat, 0)])
    (enc_rest k0 f0 28 4 rfl)
    (enc_rest k0 f0 24 4 rfl)
    (zf_eq (enc_rest k0 f0 3 21 rfl))
    (bv_eq (enc_field k0 f0 0 _ _ _ rfl)))

theorem scaleg (d s) : Statement (.scaleg d s : Instr) := by
  have k0 : layoutOk 0x6c000000 [(18, 6), (0, 3)] = true := by decide
  have f0 : fit [(d.toNat, 18, 6), (s.toNat, 0, 3)] := ⟨d.isLt, s.isLt, trivial⟩
  have key : ∀ ww : Nat, ww / 2 ^ 28 % 16 = 6 → ww / 2 ^ 24 % 16 = 12 → zf ww 3 15 = true → bv 6 ww 18 = d → bv 3 ww 0 = s → decodeSlot ww 0 0 = .ok (.scaleg d s : Instr) := by
    intro ww h0 h1 h2 h3 h4
    simp only [decodeSlot, decodeRow6, h0, h1, h2, h3, h4, if_true]
  exact one (i := (.scaleg d s : Instr)) rfl (key (enc 0x6c000000 [(d.toNat, 18), (s.toNat, 0)])
    (enc_rest k0 f0 28 4 rfl)
    (enc_rest k0 f0 24 4 rfl)
    (zf_eq (enc_rest k0 f0 3 15 rfl))
    (bv_eq (enc_field k0 f0 0 _ _ _ rfl))
    (bv_eq (enc_field k0 f0 1 _ _ _ rfl)))

theorem add2 (d a b g s u) : Statement (.add2 d a b g s u : Instr) := by
  have k0 : layoutOk 0x6d000000 [(18, 6), (12, 6), (6, 6), (5, 1), (4, 1), (3, 1)] = true := by decide
  have f0 : fit [(d.toNat, 18, 6), (a.toNat, 12, 6), (b.toNat, 6, 6), (b2n g, 5, 1), (b2n s, 4, 1), (b2n u, 3, 1)] := ⟨d.isLt, a.isLt, b.isLt, b2n_lt g, b2n_lt s, b2n_lt u, trivial⟩
  have key : ∀ ww : Nat, ww / 2 ^ 28 % 16 = 6 → ww / 2 ^ 24 % 16 = 13 → zf ww 0 3 = true → bv 6 ww 18 = d → bv 6 ww 12 = a → bv 6 ww 6 = b → bit ww 5 = g → bit ww 4 = s → bit ww 3 = u → decodeSlot ww 0 0 = .ok (.add2 d a b g s u : Instr) := by
    intro ww h0 h1 h2 h3 h4 h5 h6 h7 h8
    simp only [decodeSlot, decodeRow6, h0, h1, h2, h3, h4, h5, h6, h7, h8, if_true]
  exact one (i := (.add2 d a b g s u : Instr)) rfl (key (enc 0x6d000000 [(d.toNat, 18), (a.toNat, 12), (b.toNat, 6), (b2n g, 5), (b2n s, 4), (b2n u, 3)])
    (enc_rest k0 f0 28 4 rfl)
    (enc_rest k0 f0 24 4 rfl)
    (zf_eq (enc_rest k0 f0 0 3 rfl))
    (bv_eq (enc_field k0 f0 0 _ _ _ rfl))
    (bv_eq (enc_field k0 f0 1 _ _ _ rfl))
    (bv_eq (enc_field k0 f0 2 _ _ _ rfl))
    (bit_eq (enc_field k0 f0 3 _ _ _ rfl))
    (bit_eq (enc_field k0 f0 4 _ _ _ rfl))
    (bit_eq (enc_field k0 f0 5 _ _ _ rfl)))

theorem sub2 (d a b g s u) : Statement (.sub2 d a b g s u : Instr) := by
  have k0 : layoutOk 0x6e000000 [(18, 6), (12, 6), (6, 6), (5, 1), (4, 1), (3, 1)] = true := by decide
  have f0 : fit [(d.toNat, 18, 6), (a.toNat, 12, 6), (b.toNat, 6, 6), (b2n g, 5, 1), (b2n s, 4, 1), (b2n u, 3, 1)] := ⟨d.isLt, a.isLt, b.isLt, b2n_lt g, b2n_lt s, b2n_lt u, trivial⟩
  have key : ∀ ww : Nat, ww / 2 ^ 28 % 16 = 6 → ww / 2 ^ 24 % 16 = 14 → zf ww 0 3 = true → bv 6 ww 18 = d → bv 6 ww 12 = a → bv 6 ww 6 = b → bit ww 5 = g → bit ww 4 = s → bit ww 3 = u → decodeSlot ww 0 0 = .ok (.sub2 d a b g s u : Instr) := by
    intro ww h0 h1 h2 h3 h4 h5 h6 h7 h8
    simp only [decodeSlot, decodeRow6, h0, h1, h2, h3, h4, h5, h6, h7, h8, if_true]
  exact one (i := (.sub2 d a b g s u : Instr)) rfl (key (enc 0x6e000000 [(d.toNat, 18), (a.toNat, 12), (b.toNat, 6), (b2n g, 5), (b2n s, 4), (b2n u, 3)])
    (enc_rest k0 f0 28 4 rfl)
    (enc_rest k0 f0 24 4 rfl)
    (zf_eq (enc_rest k0 f0 0 3 rfl))
    (bv_eq (enc_field k0 f0 0 _ _ _ rfl))
    (bv_eq (enc_field k0 f0 1 _ _ _ rfl))
    (bv_eq (enc_field k0 f0 2 _ _ _ rfl))
    (bit_eq (enc_field k0 f0 3 _ _ _ rfl))
    (bit_eq (enc_field k0 f0 4 _ _ _ rfl))
    (bit_eq (enc_field k0 f0 5 _ _ _ rfl)))

theorem mul2 (d a b g s u) : Statement (.mul2 d a b g s u : Instr) := by
  have k0 : layoutOk 0x6f000000 [(18, 6), (12, 6), (6, 6), (5, 1), (4, 1), (3, 1)] = true := by decide
  have f0 : fit [(d.toNat, 18, 6), (a.toNat, 12, 6), (b.toNat, 6, 6), (b2n g, 5, 1), (b2n s, 4, 1), (b2n u, 3, 1)] := ⟨d.isLt, a.isLt, b.isLt, b2n_lt g, b2n_lt s, b2n_lt u, trivial⟩
  have key : ∀ ww : Nat, ww / 2 ^ 28 % 16 = 6 → ww / 2 ^ 24 % 16 = 15 → zf ww 0 3 = true → bv 6 ww 18 = d → bv 6 ww 12 = a → bv 6 ww 6 = b → bit ww 5 = g → bit ww 4 = s → bit ww 3 = u → decodeSlot ww 0 0 = .ok (.mul2 d a b g s u : Instr) := by
    intro ww h0 h1 h2 h3 h4 h5 h6 h7 h8
    simp only [decodeSlot, decodeRow6, h0, h1, h2, h3, h4, h5, h6, h7, h8, if_true]
  exact one (i := (.mul2 d a b g s u : Instr)) rfl (key (enc 0x6f000000 [(d.toNat, 18), (a.toNat, 12), (b.toNat, 6), (b2n g, 5), (b2n s, 4), (b2n u, 3)])
    (enc_rest k0 f0 28 4 rfl)
    (enc_rest k0 f0 24 4 rfl)
    (zf_eq (enc_rest k0 f0 0 3 rfl))
    (bv_eq (enc_field k0 f0 0 _ _ _ rfl))
    (bv_eq (enc_field k0 f0 1 _ _ _ rfl))
    (bv_eq (enc_field k0 f0 2 _ _ _ rfl))
    (bit_eq (enc_field k0 f0 3 _ _ _ rfl))
    (bit_eq (enc_field k0 f0 4 _ _ _ rfl))
    (bit_eq (enc_field k0 f0 5 _ _ _ rfl)))

theorem shfl (d a b) : Statement (.shfl d a b : Instr) := by
  have k0 : layoutOk 0x80000000 [(18, 6), (12, 6), (6, 6)] = true := by decide
  have f0 : fit [(d.toNat, 18, 6), (a.toNat, 12, 6), (b.toNat, 6, 6)] := ⟨d.isLt, a.isLt, b.isLt, trivial⟩
  have key : ∀ ww : Nat, ww / 2 ^ 28 % 16 = 8 → ww / 2 ^ 24 % 16 = 0 → zf ww 0 6 = true → bv 6 ww 18 = d → bv 6 ww 12 = a → bv 6 ww 6 = b → decodeSlot ww 0 0 = .ok (.shfl d a b : Instr) := by
    intro ww h0 h1 h2 h3 h4 h5
    simp only [decodeSlot, decodeRow8, h0, h1, h2, h3, h4, h5, if_true]
  exact one (i := (.shfl d a b : Instr)) rfl (key (enc 0x80000000 [(d.toNat, 18), (a.toNat, 12), (b.toNat, 6)])
    (enc_rest k0 f0 28 4 rfl)
    (enc_rest k0 f0 24 4 rfl)
    (zf_eq (enc_rest k0 f0 0 6 rfl))
    (bv_eq (enc_field k0 f0 0 _ _ _ rfl))
    (bv_eq (enc_field k0 f0 1 _ _ _ rfl))
    (bv_eq (enc_field k0 f0 2 _ _ _ rfl)))

theorem shflx (d a b) : Statement (.shflx d a b : Instr) := by
  have k0 : layoutOk 0x81000000 [(18, 6), (12, 6), (6, 6)] = true := by decide
  have f0 : fit [(d.toNat, 18, 6), (a.toNat, 12, 6), (b.toNat, 6, 6)] := ⟨d.isLt, a.isLt, b.isLt, trivial⟩
  have key : ∀ ww : Nat, ww / 2 ^ 28 % 16 = 8 → ww / 2 ^ 24 % 16 = 1 → zf ww 0 6 = true → bv 6 ww 18 = d → bv 6 ww 12 = a → bv 6 ww 6 = b → decodeSlot ww 0 0 = .ok (.shflx d a b : Instr) := by
    intro ww h0 h1 h2 h3 h4 h5
    simp only [decodeSlot, decodeRow8, h0, h1, h2, h3, h4, h5, if_true]
  exact one (i := (.shflx d a b : Instr)) rfl (key (enc 0x81000000 [(d.toNat, 18), (a.toNat, 12), (b.toNat, 6)])
    (enc_rest k0 f0 28 4 rfl)
    (enc_rest k0 f0 24 4 rfl)
    (zf_eq (enc_rest k0 f0 0 6 rfl))
    (bv_eq (enc_field k0 f0 0 _ _ _ rfl))
    (bv_eq (enc_field k0 f0 1 _ _ _ rfl))
    (bv_eq (enc_field k0 f0 2 _ _ _ rfl)))

theorem slide (d a b u k) : Statement (.slide d a b u k : Instr) := by
  have k0 : layoutOk 0x82000000 [(18, 6), (12, 6), (6, 6), (5, 1), (0, 5)] = true := by decide
  have f0 : fit [(d.toNat, 18, 6), (a.toNat, 12, 6), (b.toNat, 6, 6), (b2n u, 5, 1), (k.toNat, 0, 5)] := ⟨d.isLt, a.isLt, b.isLt, b2n_lt u, k.isLt, trivial⟩
  have key : ∀ ww : Nat, ww / 2 ^ 28 % 16 = 8 → ww / 2 ^ 24 % 16 = 2 → bv 6 ww 18 = d → bv 6 ww 12 = a → bv 6 ww 6 = b → bit ww 5 = u → bv 5 ww 0 = k → decodeSlot ww 0 0 = .ok (.slide d a b u k : Instr) := by
    intro ww h0 h1 h2 h3 h4 h5 h6
    simp only [decodeSlot, decodeRow8, h0, h1, h2, h3, h4, h5, h6]
  exact one (i := (.slide d a b u k : Instr)) rfl (key (enc 0x82000000 [(d.toNat, 18), (a.toNat, 12), (b.toNat, 6), (b2n u, 5), (k.toNat, 0)])
    (enc_rest k0 f0 28 4 rfl)
    (enc_rest k0 f0 24 4 rfl)
    (bv_eq (enc_field k0 f0 0 _ _ _ rfl))
    (bv_eq (enc_field k0 f0 1 _ _ _ rfl))
    (bv_eq (enc_field k0 f0 2 _ _ _ rfl))
    (bit_eq (enc_field k0 f0 3 _ _ _ rfl))
    (bv_eq (enc_field k0 f0 4 _ _ _ rfl)))

theorem voteBallot (d s) : Statement (.voteBallot d s : Instr) := by
  have k0 : layoutOk 0x83000000 [(18, 6), (3, 3)] = true := by decide
  have f0 : fit [(d.toNat, 18, 6), (s.toNat, 3, 3)] := ⟨d.isLt, s.isLt, trivial⟩
  have key : ∀ ww : Nat, ww / 2 ^ 28 % 16 = 8 → ww / 2 ^ 24 % 16 = 3 → zf ww 0 3 = true → zf ww 6 12 = true → bv 6 ww 18 = d → bv 3 ww 3 = s → decodeSlot ww 0 0 = .ok (.voteBallot d s : Instr) := by
    intro ww h0 h1 h2 h3 h4 h5
    simp only [decodeSlot, decodeRow8, h0, h1, h2, h3, h4, h5, Bool.and_self, if_true]
  exact one (i := (.voteBallot d s : Instr)) rfl (key (enc 0x83000000 [(d.toNat, 18), (s.toNat, 3)])
    (enc_rest k0 f0 28 4 rfl)
    (enc_rest k0 f0 24 4 rfl)
    (zf_eq (enc_rest k0 f0 0 3 rfl))
    (zf_eq (enc_rest k0 f0 6 12 rfl))
    (bv_eq (enc_field k0 f0 0 _ _ _ rfl))
    (bv_eq (enc_field k0 f0 1 _ _ _ rfl)))

theorem voteAny (k p s) : Statement (.voteAny k p s : Instr) := by
  have k0 : layoutOk 0x83000001 [(21, 3), (18, 3), (3, 3)] = true := by decide
  have f0 : fit [(k.toNat, 21, 3), (p.toNat, 18, 3), (s.toNat, 3, 3)] := ⟨k.isLt, p.isLt, s.isLt, trivial⟩
  have key : ∀ ww : Nat, ww / 2 ^ 28 % 16 = 8 → ww / 2 ^ 24 % 16 = 3 → zf ww 0 3 = false → fv ww 0 3 1 = true → zf ww 6 12 = true → bv 3 ww 21 = k → bv 3 ww 18 = p → bv 3 ww 3 = s → decodeSlot ww 0 0 = .ok (.voteAny k p s : Instr) := by
    intro ww h0 h1 h2 h3 h4 h5 h6 h7
    simp only [decodeSlot, decodeRow8, h0, h1, h2, h3, h4, h5, h6, h7, Bool.and_self, Bool.false_and, if_true, Bool.false_eq_true, if_false]
  exact one (i := (.voteAny k p s : Instr)) rfl (key (enc 0x83000001 [(k.toNat, 21), (p.toNat, 18), (s.toNat, 3)])
    (enc_rest k0 f0 28 4 rfl)
    (enc_rest k0 f0 24 4 rfl)
    (zf_ne (enc_rest k0 f0 0 3 rfl) (by decide))
    (fv_eq (enc_rest k0 f0 0 3 rfl))
    (zf_eq (enc_rest k0 f0 6 12 rfl))
    (bv_eq (enc_field k0 f0 0 _ _ _ rfl))
    (bv_eq (enc_field k0 f0 1 _ _ _ rfl))
    (bv_eq (enc_field k0 f0 2 _ _ _ rfl)))

theorem voteAll (k p s) : Statement (.voteAll k p s : Instr) := by
  have k0 : layoutOk 0x83000002 [(21, 3), (18, 3), (3, 3)] = true := by decide
  have f0 : fit [(k.toNat, 21, 3), (p.toNat, 18, 3), (s.toNat, 3, 3)] := ⟨k.isLt, p.isLt, s.isLt, trivial⟩
  have key : ∀ ww : Nat, ww / 2 ^ 28 % 16 = 8 → ww / 2 ^ 24 % 16 = 3 → zf ww 0 3 = false → fv ww 0 3 1 = false → fv ww 0 3 2 = true → zf ww 6 12 = true → bv 3 ww 21 = k → bv 3 ww 18 = p → bv 3 ww 3 = s → decodeSlot ww 0 0 = .ok (.voteAll k p s : Instr) := by
    intro ww h0 h1 h2 h3 h4 h5 h6 h7 h8
    simp only [decodeSlot, decodeRow8, h0, h1, h2, h3, h4, h5, h6, h7, h8, Bool.and_self, Bool.false_and, if_true, Bool.false_eq_true, if_false]
  exact one (i := (.voteAll k p s : Instr)) rfl (key (enc 0x83000002 [(k.toNat, 21), (p.toNat, 18), (s.toNat, 3)])
    (enc_rest k0 f0 28 4 rfl)
    (enc_rest k0 f0 24 4 rfl)
    (zf_ne (enc_rest k0 f0 0 3 rfl) (by decide))
    (fv_ne (enc_rest k0 f0 0 3 rfl) (by decide))
    (fv_eq (enc_rest k0 f0 0 3 rfl))
    (zf_eq (enc_rest k0 f0 6 12 rfl))
    (bv_eq (enc_field k0 f0 0 _ _ _ rfl))
    (bv_eq (enc_field k0 f0 1 _ _ _ rfl))
    (bv_eq (enc_field k0 f0 2 _ _ _ rfl)))

theorem voteCount (d s) : Statement (.voteCount d s : Instr) := by
  have k0 : layoutOk 0x83000003 [(18, 6), (3, 3)] = true := by decide
  have f0 : fit [(d.toNat, 18, 6), (s.toNat, 3, 3)] := ⟨d.isLt, s.isLt, trivial⟩
  have key : ∀ ww : Nat, ww / 2 ^ 28 % 16 = 8 → ww / 2 ^ 24 % 16 = 3 → zf ww 0 3 = false → fv ww 0 3 1 = false → fv ww 0 3 2 = false → fv ww 0 3 3 = true → zf ww 6 12 = true → bv 6 ww 18 = d → bv 3 ww 3 = s → decodeSlot ww 0 0 = .ok (.voteCount d s : Instr) := by
    intro ww h0 h1 h2 h3 h4 h5 h6 h7 h8
    simp only [decodeSlot, decodeRow8, h0, h1, h2, h3, h4, h5, h6, h7, h8, Bool.and_self, Bool.false_and, if_true, Bool.false_eq_true, if_false]
  exact one (i := (.voteCount d s : Instr)) rfl (key (enc 0x83000003 [(d.toNat, 18), (s.toNat, 3)])
    (enc_rest k0 f0 28 4 rfl)
    (enc_rest k0 f0 24 4 rfl)
    (zf_ne (enc_rest k0 f0 0 3 rfl) (by decide))
    (fv_ne (enc_rest k0 f0 0 3 rfl) (by decide))
    (fv_ne (enc_rest k0 f0 0 3 rfl) (by decide))
    (fv_eq (enc_rest k0 f0 0 3 rfl))
    (zf_eq (enc_rest k0 f0 6 12 rfl))
    (bv_eq (enc_field k0 f0 0 _ _ _ rfl))
    (bv_eq (enc_field k0 f0 1 _ _ _ rfl)))

theorem cred (d a o) : Statement (.cred d a o : Instr) := by
  have k0 : layoutOk 0x84000000 [(18, 6), (12, 6), (0, 4)] = true := by decide
  have f0 : fit [(d.toNat, 18, 6), (a.toNat, 12, 6), (o.toNat, 0, 4)] := ⟨d.isLt, a.isLt, o.isLt, trivial⟩
  have key : ∀ ww : Nat, ww / 2 ^ 28 % 16 = 8 → ww / 2 ^ 24 % 16 = 4 → zf ww 4 8 = true → bv 6 ww 18 = d → bv 6 ww 12 = a → bv 4 ww 0 = o → decodeSlot ww 0 0 = .ok (.cred d a o : Instr) := by
    intro ww h0 h1 h2 h3 h4 h5
    simp only [decodeSlot, decodeRow8, h0, h1, h2, h3, h4, h5, if_true]
  exact one (i := (.cred d a o : Instr)) rfl (key (enc 0x84000000 [(d.toNat, 18), (a.toNat, 12), (o.toNat, 0)])
    (enc_rest k0 f0 28 4 rfl)
    (enc_rest k0 f0 24 4 rfl)
    (zf_eq (enc_rest k0 f0 4 8 rfl))
    (bv_eq (enc_field k0 f0 0 _ _ _ rfl))
    (bv_eq (enc_field k0 f0 1 _ _ _ rfl))
    (bv_eq (enc_field k0 f0 2 _ _ _ rfl)))

theorem cscan (d a x o) : Statement (.cscan d a x o : Instr) := by
  have k0 : layoutOk 0x85000000 [(18, 6), (12, 6), (4, 1), (0, 4)] = true := by decide
  have f0 : fit [(d.toNat, 18, 6), (a.toNat, 12, 6), (b2n x, 4, 1), (o.toNat, 0, 4)] := ⟨d.isLt, a.isLt, b2n_lt x, o.isLt, trivial⟩
  have key : ∀ ww : Nat, ww / 2 ^ 28 % 16 = 8 → ww / 2 ^ 24 % 16 = 5 → zf ww 5 7 = true → bv 6 ww 18 = d → bv 6 ww 12 = a → bit ww 4 = x → bv 4 ww 0 = o → decodeSlot ww 0 0 = .ok (.cscan d a x o : Instr) := by
    intro ww h0 h1 h2 h3 h4 h5 h6
    simp only [decodeSlot, decodeRow8, h0, h1, h2, h3, h4, h5, h6, if_true]
  exact one (i := (.cscan d a x o : Instr)) rfl (key (enc 0x85000000 [(d.toNat, 18), (a.toNat, 12), (b2n x, 4), (o.toNat, 0)])
    (enc_rest k0 f0 28 4 rfl)
    (enc_rest k0 f0 24 4 rfl)
    (zf_eq (enc_rest k0 f0 5 7 rfl))
    (bv_eq (enc_field k0 f0 0 _ _ _ rfl))
    (bv_eq (enc_field k0 f0 1 _ _ _ rfl))
    (bit_eq (enc_field k0 f0 2 _ _ _ rfl))
    (bv_eq (enc_field k0 f0 3 _ _ _ rfl)))

theorem cmask (a m) : Statement (.cmask a m : Instr) := by
  have k0 : layoutOk 0x86000000 [(12, 6), (0, 2)] = true := by decide
  have f0 : fit [(a.toNat, 12, 6), (m.toNat, 0, 2)] := ⟨a.isLt, m.isLt, trivial⟩
  have key : ∀ ww : Nat, ww / 2 ^ 28 % 16 = 8 → ww / 2 ^ 24 % 16 = 6 → zf ww 2 10 = true → zf ww 18 6 = true → bv 6 ww 12 = a → bv 2 ww 0 = m → decodeSlot ww 0 0 = .ok (.cmask a m : Instr) := by
    intro ww h0 h1 h2 h3 h4 h5
    simp only [decodeSlot, decodeRow8, h0, h1, h2, h3, h4, h5, Bool.and_self, if_true]
  exact one (i := (.cmask a m : Instr)) rfl (key (enc 0x86000000 [(a.toNat, 12), (m.toNat, 0)])
    (enc_rest k0 f0 28 4 rfl)
    (enc_rest k0 f0 24 4 rfl)
    (zf_eq (enc_rest k0 f0 2 10 rfl))
    (zf_eq (enc_rest k0 f0 18 6 rfl))
    (bv_eq (enc_field k0 f0 0 _ _ _ rfl))
    (bv_eq (enc_field k0 f0 1 _ _ _ rfl)))

theorem elect (p a) : Statement (.elect p a : Instr) := by
  have k0 : layoutOk 0x87000000 [(18, 3), (12, 6)] = true := by decide
  have f0 : fit [(p.toNat, 18, 3), (a.toNat, 12, 6)] := ⟨p.isLt, a.isLt, trivial⟩
  have key : ∀ ww : Nat, ww / 2 ^ 28 % 16 = 8 → ww / 2 ^ 24 % 16 = 7 → zf ww 0 12 = true → zf ww 21 3 = true → bv 3 ww 18 = p → bv 6 ww 12 = a → decodeSlot ww 0 0 = .ok (.elect p a : Instr) := by
    intro ww h0 h1 h2 h3 h4 h5
    simp only [decodeSlot, decodeRow8, h0, h1, h2, h3, h4, h5, Bool.and_self, if_true]
  exact one (i := (.elect p a : Instr)) rfl (key (enc 0x87000000 [(p.toNat, 18), (a.toNat, 12)])
    (enc_rest k0 f0 28 4 rfl)
    (enc_rest k0 f0 24 4 rfl)
    (zf_eq (enc_rest k0 f0 0 12 rfl))
    (zf_eq (enc_rest k0 f0 21 3 rfl))
    (bv_eq (enc_field k0 f0 0 _ _ _ rfl))
    (bv_eq (enc_field k0 f0 1 _ _ _ rfl)))

theorem matchv (d a) : Statement (.matchv d a : Instr) := by
  have k0 : layoutOk 0x88000000 [(18, 6), (12, 6)] = true := by decide
  have f0 : fit [(d.toNat, 18, 6), (a.toNat, 12, 6)] := ⟨d.isLt, a.isLt, trivial⟩
  have key : ∀ ww : Nat, ww / 2 ^ 28 % 16 = 8 → ww / 2 ^ 24 % 16 = 8 → zf ww 0 12 = true → bv 6 ww 18 = d → bv 6 ww 12 = a → decodeSlot ww 0 0 = .ok (.matchv d a : Instr) := by
    intro ww h0 h1 h2 h3 h4
    simp only [decodeSlot, decodeRow8, h0, h1, h2, h3, h4, if_true]
  exact one (i := (.matchv d a : Instr)) rfl (key (enc 0x88000000 [(d.toNat, 18), (a.toNat, 12)])
    (enc_rest k0 f0 28 4 rfl)
    (enc_rest k0 f0 24 4 rfl)
    (zf_eq (enc_rest k0 f0 0 12 rfl))
    (bv_eq (enc_field k0 f0 0 _ _ _ rfl))
    (bv_eq (enc_field k0 f0 1 _ _ _ rfl)))

theorem ld8s (t c x i) : Statement (.ld8s t c x i : Instr) := by
  have k0 : layoutOk 0x90000000 [(18, 6), (14, 4), (8, 6), (0, 8)] = true := by decide
  have f0 : fit [(t.toNat, 18, 6), (c.toNat, 14, 4), (x.toNat, 8, 6), (i.toNat, 0, 8)] := ⟨t.isLt, c.isLt, x.isLt, i.isLt, trivial⟩
  have key : ∀ ww : Nat, ww / 2 ^ 28 % 16 = 9 → ww / 2 ^ 24 % 16 = 0 → bv 6 ww 18 = t → bv 4 ww 14 = c → bv 6 ww 8 = x → bv 8 ww 0 = i → decodeSlot ww 0 0 = .ok (.ld8s t c x i : Instr) := by
    intro ww h0 h1 h2 h3 h4 h5
    simp only [decodeSlot, decodeRow9, h0, h1, h2, h3, h4, h5]
  exact one (i := (.ld8s t c x i : Instr)) rfl (key (enc 0x90000000 [(t.toNat, 18), (c.toNat, 14), (x.toNat, 8), (i.toNat, 0)])
    (enc_rest k0 f0 28 4 rfl)
    (enc_rest k0 f0 24 4 rfl)
    (bv_eq (enc_field k0 f0 0 _ _ _ rfl))
    (bv_eq (enc_field k0 f0 1 _ _ _ rfl))
    (bv_eq (enc_field k0 f0 2 _ _ _ rfl))
    (bv_eq (enc_field k0 f0 3 _ _ _ rfl)))

theorem ld8z (t c x i) : Statement (.ld8z t c x i : Instr) := by
  have k0 : layoutOk 0x91000000 [(18, 6), (14, 4), (8, 6), (0, 8)] = true := by decide
  have f0 : fit [(t.toNat, 18, 6), (c.toNat, 14, 4), (x.toNat, 8, 6), (i.toNat, 0, 8)] := ⟨t.isLt, c.isLt, x.isLt, i.isLt, trivial⟩
  have key : ∀ ww : Nat, ww / 2 ^ 28 % 16 = 9 → ww / 2 ^ 24 % 16 = 1 → bv 6 ww 18 = t → bv 4 ww 14 = c → bv 6 ww 8 = x → bv 8 ww 0 = i → decodeSlot ww 0 0 = .ok (.ld8z t c x i : Instr) := by
    intro ww h0 h1 h2 h3 h4 h5
    simp only [decodeSlot, decodeRow9, h0, h1, h2, h3, h4, h5]
  exact one (i := (.ld8z t c x i : Instr)) rfl (key (enc 0x91000000 [(t.toNat, 18), (c.toNat, 14), (x.toNat, 8), (i.toNat, 0)])
    (enc_rest k0 f0 28 4 rfl)
    (enc_rest k0 f0 24 4 rfl)
    (bv_eq (enc_field k0 f0 0 _ _ _ rfl))
    (bv_eq (enc_field k0 f0 1 _ _ _ rfl))
    (bv_eq (enc_field k0 f0 2 _ _ _ rfl))
    (bv_eq (enc_field k0 f0 3 _ _ _ rfl)))

theorem ld16s (t c x i) : Statement (.ld16s t c x i : Instr) := by
  have k0 : layoutOk 0x92000000 [(18, 6), (14, 4), (8, 6), (0, 8)] = true := by decide
  have f0 : fit [(t.toNat, 18, 6), (c.toNat, 14, 4), (x.toNat, 8, 6), (i.toNat, 0, 8)] := ⟨t.isLt, c.isLt, x.isLt, i.isLt, trivial⟩
  have key : ∀ ww : Nat, ww / 2 ^ 28 % 16 = 9 → ww / 2 ^ 24 % 16 = 2 → bv 6 ww 18 = t → bv 4 ww 14 = c → bv 6 ww 8 = x → bv 8 ww 0 = i → decodeSlot ww 0 0 = .ok (.ld16s t c x i : Instr) := by
    intro ww h0 h1 h2 h3 h4 h5
    simp only [decodeSlot, decodeRow9, h0, h1, h2, h3, h4, h5]
  exact one (i := (.ld16s t c x i : Instr)) rfl (key (enc 0x92000000 [(t.toNat, 18), (c.toNat, 14), (x.toNat, 8), (i.toNat, 0)])
    (enc_rest k0 f0 28 4 rfl)
    (enc_rest k0 f0 24 4 rfl)
    (bv_eq (enc_field k0 f0 0 _ _ _ rfl))
    (bv_eq (enc_field k0 f0 1 _ _ _ rfl))
    (bv_eq (enc_field k0 f0 2 _ _ _ rfl))
    (bv_eq (enc_field k0 f0 3 _ _ _ rfl)))

theorem ld16z (t c x i) : Statement (.ld16z t c x i : Instr) := by
  have k0 : layoutOk 0x93000000 [(18, 6), (14, 4), (8, 6), (0, 8)] = true := by decide
  have f0 : fit [(t.toNat, 18, 6), (c.toNat, 14, 4), (x.toNat, 8, 6), (i.toNat, 0, 8)] := ⟨t.isLt, c.isLt, x.isLt, i.isLt, trivial⟩
  have key : ∀ ww : Nat, ww / 2 ^ 28 % 16 = 9 → ww / 2 ^ 24 % 16 = 3 → bv 6 ww 18 = t → bv 4 ww 14 = c → bv 6 ww 8 = x → bv 8 ww 0 = i → decodeSlot ww 0 0 = .ok (.ld16z t c x i : Instr) := by
    intro ww h0 h1 h2 h3 h4 h5
    simp only [decodeSlot, decodeRow9, h0, h1, h2, h3, h4, h5]
  exact one (i := (.ld16z t c x i : Instr)) rfl (key (enc 0x93000000 [(t.toNat, 18), (c.toNat, 14), (x.toNat, 8), (i.toNat, 0)])
    (enc_rest k0 f0 28 4 rfl)
    (enc_rest k0 f0 24 4 rfl)
    (bv_eq (enc_field k0 f0 0 _ _ _ rfl))
    (bv_eq (enc_field k0 f0 1 _ _ _ rfl))
    (bv_eq (enc_field k0 f0 2 _ _ _ rfl))
    (bv_eq (enc_field k0 f0 3 _ _ _ rfl)))

theorem ld32 (t c x i) : Statement (.ld32 t c x i : Instr) := by
  have k0 : layoutOk 0x94000000 [(18, 6), (14, 4), (8, 6), (0, 8)] = true := by decide
  have f0 : fit [(t.toNat, 18, 6), (c.toNat, 14, 4), (x.toNat, 8, 6), (i.toNat, 0, 8)] := ⟨t.isLt, c.isLt, x.isLt, i.isLt, trivial⟩
  have key : ∀ ww : Nat, ww / 2 ^ 28 % 16 = 9 → ww / 2 ^ 24 % 16 = 4 → bv 6 ww 18 = t → bv 4 ww 14 = c → bv 6 ww 8 = x → bv 8 ww 0 = i → decodeSlot ww 0 0 = .ok (.ld32 t c x i : Instr) := by
    intro ww h0 h1 h2 h3 h4 h5
    simp only [decodeSlot, decodeRow9, h0, h1, h2, h3, h4, h5]
  exact one (i := (.ld32 t c x i : Instr)) rfl (key (enc 0x94000000 [(t.toNat, 18), (c.toNat, 14), (x.toNat, 8), (i.toNat, 0)])
    (enc_rest k0 f0 28 4 rfl)
    (enc_rest k0 f0 24 4 rfl)
    (bv_eq (enc_field k0 f0 0 _ _ _ rfl))
    (bv_eq (enc_field k0 f0 1 _ _ _ rfl))
    (bv_eq (enc_field k0 f0 2 _ _ _ rfl))
    (bv_eq (enc_field k0 f0 3 _ _ _ rfl)))

theorem ld64 (t c x i) : Statement (.ld64 t c x i : Instr) := by
  have k0 : layoutOk 0x95000000 [(18, 6), (14, 4), (8, 6), (0, 8)] = true := by decide
  have f0 : fit [(t.toNat, 18, 6), (c.toNat, 14, 4), (x.toNat, 8, 6), (i.toNat, 0, 8)] := ⟨t.isLt, c.isLt, x.isLt, i.isLt, trivial⟩
  have key : ∀ ww : Nat, ww / 2 ^ 28 % 16 = 9 → ww / 2 ^ 24 % 16 = 5 → bv 6 ww 18 = t → bv 4 ww 14 = c → bv 6 ww 8 = x → bv 8 ww 0 = i → decodeSlot ww 0 0 = .ok (.ld64 t c x i : Instr) := by
    intro ww h0 h1 h2 h3 h4 h5
    simp only [decodeSlot, decodeRow9, h0, h1, h2, h3, h4, h5]
  exact one (i := (.ld64 t c x i : Instr)) rfl (key (enc 0x95000000 [(t.toNat, 18), (c.toNat, 14), (x.toNat, 8), (i.toNat, 0)])
    (enc_rest k0 f0 28 4 rfl)
    (enc_rest k0 f0 24 4 rfl)
    (bv_eq (enc_field k0 f0 0 _ _ _ rfl))
    (bv_eq (enc_field k0 f0 1 _ _ _ rfl))
    (bv_eq (enc_field k0 f0 2 _ _ _ rfl))
    (bv_eq (enc_field k0 f0 3 _ _ _ rfl)))

theorem ld128 (t c x i) : Statement (.ld128 t c x i : Instr) := by
  have k0 : layoutOk 0x96000000 [(18, 6), (14, 4), (8, 6), (0, 8)] = true := by decide
  have f0 : fit [(t.toNat, 18, 6), (c.toNat, 14, 4), (x.toNat, 8, 6), (i.toNat, 0, 8)] := ⟨t.isLt, c.isLt, x.isLt, i.isLt, trivial⟩
  have key : ∀ ww : Nat, ww / 2 ^ 28 % 16 = 9 → ww / 2 ^ 24 % 16 = 6 → bv 6 ww 18 = t → bv 4 ww 14 = c → bv 6 ww 8 = x → bv 8 ww 0 = i → decodeSlot ww 0 0 = .ok (.ld128 t c x i : Instr) := by
    intro ww h0 h1 h2 h3 h4 h5
    simp only [decodeSlot, decodeRow9, h0, h1, h2, h3, h4, h5]
  exact one (i := (.ld128 t c x i : Instr)) rfl (key (enc 0x96000000 [(t.toNat, 18), (c.toNat, 14), (x.toNat, 8), (i.toNat, 0)])
    (enc_rest k0 f0 28 4 rfl)
    (enc_rest k0 f0 24 4 rfl)
    (bv_eq (enc_field k0 f0 0 _ _ _ rfl))
    (bv_eq (enc_field k0 f0 1 _ _ _ rfl))
    (bv_eq (enc_field k0 f0 2 _ _ _ rfl))
    (bv_eq (enc_field k0 f0 3 _ _ _ rfl)))

theorem st8 (t c x i) : Statement (.st8 t c x i : Instr) := by
  have k0 : layoutOk 0x97000000 [(18, 6), (14, 4), (8, 6), (0, 8)] = true := by decide
  have f0 : fit [(t.toNat, 18, 6), (c.toNat, 14, 4), (x.toNat, 8, 6), (i.toNat, 0, 8)] := ⟨t.isLt, c.isLt, x.isLt, i.isLt, trivial⟩
  have key : ∀ ww : Nat, ww / 2 ^ 28 % 16 = 9 → ww / 2 ^ 24 % 16 = 7 → bv 6 ww 18 = t → bv 4 ww 14 = c → bv 6 ww 8 = x → bv 8 ww 0 = i → decodeSlot ww 0 0 = .ok (.st8 t c x i : Instr) := by
    intro ww h0 h1 h2 h3 h4 h5
    simp only [decodeSlot, decodeRow9, h0, h1, h2, h3, h4, h5]
  exact one (i := (.st8 t c x i : Instr)) rfl (key (enc 0x97000000 [(t.toNat, 18), (c.toNat, 14), (x.toNat, 8), (i.toNat, 0)])
    (enc_rest k0 f0 28 4 rfl)
    (enc_rest k0 f0 24 4 rfl)
    (bv_eq (enc_field k0 f0 0 _ _ _ rfl))
    (bv_eq (enc_field k0 f0 1 _ _ _ rfl))
    (bv_eq (enc_field k0 f0 2 _ _ _ rfl))
    (bv_eq (enc_field k0 f0 3 _ _ _ rfl)))

theorem st16 (t c x i) : Statement (.st16 t c x i : Instr) := by
  have k0 : layoutOk 0x98000000 [(18, 6), (14, 4), (8, 6), (0, 8)] = true := by decide
  have f0 : fit [(t.toNat, 18, 6), (c.toNat, 14, 4), (x.toNat, 8, 6), (i.toNat, 0, 8)] := ⟨t.isLt, c.isLt, x.isLt, i.isLt, trivial⟩
  have key : ∀ ww : Nat, ww / 2 ^ 28 % 16 = 9 → ww / 2 ^ 24 % 16 = 8 → bv 6 ww 18 = t → bv 4 ww 14 = c → bv 6 ww 8 = x → bv 8 ww 0 = i → decodeSlot ww 0 0 = .ok (.st16 t c x i : Instr) := by
    intro ww h0 h1 h2 h3 h4 h5
    simp only [decodeSlot, decodeRow9, h0, h1, h2, h3, h4, h5]
  exact one (i := (.st16 t c x i : Instr)) rfl (key (enc 0x98000000 [(t.toNat, 18), (c.toNat, 14), (x.toNat, 8), (i.toNat, 0)])
    (enc_rest k0 f0 28 4 rfl)
    (enc_rest k0 f0 24 4 rfl)
    (bv_eq (enc_field k0 f0 0 _ _ _ rfl))
    (bv_eq (enc_field k0 f0 1 _ _ _ rfl))
    (bv_eq (enc_field k0 f0 2 _ _ _ rfl))
    (bv_eq (enc_field k0 f0 3 _ _ _ rfl)))

theorem st32 (t c x i) : Statement (.st32 t c x i : Instr) := by
  have k0 : layoutOk 0x99000000 [(18, 6), (14, 4), (8, 6), (0, 8)] = true := by decide
  have f0 : fit [(t.toNat, 18, 6), (c.toNat, 14, 4), (x.toNat, 8, 6), (i.toNat, 0, 8)] := ⟨t.isLt, c.isLt, x.isLt, i.isLt, trivial⟩
  have key : ∀ ww : Nat, ww / 2 ^ 28 % 16 = 9 → ww / 2 ^ 24 % 16 = 9 → bv 6 ww 18 = t → bv 4 ww 14 = c → bv 6 ww 8 = x → bv 8 ww 0 = i → decodeSlot ww 0 0 = .ok (.st32 t c x i : Instr) := by
    intro ww h0 h1 h2 h3 h4 h5
    simp only [decodeSlot, decodeRow9, h0, h1, h2, h3, h4, h5]
  exact one (i := (.st32 t c x i : Instr)) rfl (key (enc 0x99000000 [(t.toNat, 18), (c.toNat, 14), (x.toNat, 8), (i.toNat, 0)])
    (enc_rest k0 f0 28 4 rfl)
    (enc_rest k0 f0 24 4 rfl)
    (bv_eq (enc_field k0 f0 0 _ _ _ rfl))
    (bv_eq (enc_field k0 f0 1 _ _ _ rfl))
    (bv_eq (enc_field k0 f0 2 _ _ _ rfl))
    (bv_eq (enc_field k0 f0 3 _ _ _ rfl)))

theorem st64 (t c x i) : Statement (.st64 t c x i : Instr) := by
  have k0 : layoutOk 0x9a000000 [(18, 6), (14, 4), (8, 6), (0, 8)] = true := by decide
  have f0 : fit [(t.toNat, 18, 6), (c.toNat, 14, 4), (x.toNat, 8, 6), (i.toNat, 0, 8)] := ⟨t.isLt, c.isLt, x.isLt, i.isLt, trivial⟩
  have key : ∀ ww : Nat, ww / 2 ^ 28 % 16 = 9 → ww / 2 ^ 24 % 16 = 10 → bv 6 ww 18 = t → bv 4 ww 14 = c → bv 6 ww 8 = x → bv 8 ww 0 = i → decodeSlot ww 0 0 = .ok (.st64 t c x i : Instr) := by
    intro ww h0 h1 h2 h3 h4 h5
    simp only [decodeSlot, decodeRow9, h0, h1, h2, h3, h4, h5]
  exact one (i := (.st64 t c x i : Instr)) rfl (key (enc 0x9a000000 [(t.toNat, 18), (c.toNat, 14), (x.toNat, 8), (i.toNat, 0)])
    (enc_rest k0 f0 28 4 rfl)
    (enc_rest k0 f0 24 4 rfl)
    (bv_eq (enc_field k0 f0 0 _ _ _ rfl))
    (bv_eq (enc_field k0 f0 1 _ _ _ rfl))
    (bv_eq (enc_field k0 f0 2 _ _ _ rfl))
    (bv_eq (enc_field k0 f0 3 _ _ _ rfl)))

theorem st128 (t c x i) : Statement (.st128 t c x i : Instr) := by
  have k0 : layoutOk 0x9b000000 [(18, 6), (14, 4), (8, 6), (0, 8)] = true := by decide
  have f0 : fit [(t.toNat, 18, 6), (c.toNat, 14, 4), (x.toNat, 8, 6), (i.toNat, 0, 8)] := ⟨t.isLt, c.isLt, x.isLt, i.isLt, trivial⟩
  have key : ∀ ww : Nat, ww / 2 ^ 28 % 16 = 9 → ww / 2 ^ 24 % 16 = 11 → bv 6 ww 18 = t → bv 4 ww 14 = c → bv 6 ww 8 = x → bv 8 ww 0 = i → decodeSlot ww 0 0 = .ok (.st128 t c x i : Instr) := by
    intro ww h0 h1 h2 h3 h4 h5
    simp only [decodeSlot, decodeRow9, h0, h1, h2, h3, h4, h5]
  exact one (i := (.st128 t c x i : Instr)) rfl (key (enc 0x9b000000 [(t.toNat, 18), (c.toNat, 14), (x.toNat, 8), (i.toNat, 0)])
    (enc_rest k0 f0 28 4 rfl)
    (enc_rest k0 f0 24 4 rfl)
    (bv_eq (enc_field k0 f0 0 _ _ _ rfl))
    (bv_eq (enc_field k0 f0 1 _ _ _ rfl))
    (bv_eq (enc_field k0 f0 2 _ _ _ rfl))
    (bv_eq (enc_field k0 f0 3 _ _ _ rfl)))

theorem lda (d c x e) : Statement (.lda d c x e : Instr) := by
  have k0 : layoutOk 0x9c000000 [(18, 6), (14, 4), (8, 6), (0, 2)] = true := by decide
  have f0 : fit [(d.toNat, 18, 6), (c.toNat, 14, 4), (x.toNat, 8, 6), (e.toNat, 0, 2)] := ⟨d.isLt, c.isLt, x.isLt, e.isLt, trivial⟩
  have key : ∀ ww : Nat, ww / 2 ^ 28 % 16 = 9 → ww / 2 ^ 24 % 16 = 12 → zf ww 2 6 = true → bv 6 ww 18 = d → bv 4 ww 14 = c → bv 6 ww 8 = x → bv 2 ww 0 = e → decodeSlot ww 0 0 = .ok (.lda d c x e : Instr) := by
    intro ww h0 h1 h2 h3 h4 h5 h6
    simp only [decodeSlot, decodeRow9, h0, h1, h2, h3, h4, h5, h6, if_true]
  exact one (i := (.lda d c x e : Instr)) rfl (key (enc 0x9c000000 [(d.toNat, 18), (c.toNat, 14), (x.toNat, 8), (e.toNat, 0)])
    (enc_rest k0 f0 28 4 rfl)
    (enc_rest k0 f0 24 4 rfl)
    (zf_eq (enc_rest k0 f0 2 6 rfl))
    (bv_eq (enc_field k0 f0 0 _ _ _ rfl))
    (bv_eq (enc_field k0 f0 1 _ _ _ rfl))
    (bv_eq (enc_field k0 f0 2 _ _ _ rfl))
    (bv_eq (enc_field k0 f0 3 _ _ _ rfl)))

theorem stl (c x s e) : Statement (.stl c x s e : Instr) := by
  have k0 : layoutOk 0x9d000000 [(14, 4), (8, 6), (2, 6), (0, 2)] = true := by decide
  have f0 : fit [(c.toNat, 14, 4), (x.toNat, 8, 6), (s.toNat, 2, 6), (e.toNat, 0, 2)] := ⟨c.isLt, x.isLt, s.isLt, e.isLt, trivial⟩
  have key : ∀ ww : Nat, ww / 2 ^ 28 % 16 = 9 → ww / 2 ^ 24 % 16 = 13 → zf ww 18 6 = true → bv 4 ww 14 = c → bv 6 ww 8 = x → bv 6 ww 2 = s → bv 2 ww 0 = e → decodeSlot ww 0 0 = .ok (.stl c x s e : Instr) := by
    intro ww h0 h1 h2 h3 h4 h5 h6
    simp only [decodeSlot, decodeRow9, h0, h1, h2, h3, h4, h5, h6, if_true]
  exact one (i := (.stl c x s e : Instr)) rfl (key (enc 0x9d000000 [(c.toNat, 14), (x.toNat, 8), (s.toNat, 2), (e.toNat, 0)])
    (enc_rest k0 f0 28 4 rfl)
    (enc_rest k0 f0 24 4 rfl)
    (zf_eq (enc_rest k0 f0 18 6 rfl))
    (bv_eq (enc_field k0 f0 0 _ _ _ rfl))
    (bv_eq (enc_field k0 f0 1 _ _ _ rfl))
    (bv_eq (enc_field k0 f0 2 _ _ _ rfl))
    (bv_eq (enc_field k0 f0 3 _ _ _ rfl)))

theorem pref (t c x i) : Statement (.pref t c x i : Instr) := by
  have k0 : layoutOk 0x9e000000 [(18, 2), (14, 4), (8, 6), (0, 8)] = true := by decide
  have f0 : fit [(t.toNat, 18, 2), (c.toNat, 14, 4), (x.toNat, 8, 6), (i.toNat, 0, 8)] := ⟨t.isLt, c.isLt, x.isLt, i.isLt, trivial⟩
  have key : ∀ ww : Nat, ww / 2 ^ 28 % 16 = 9 → ww / 2 ^ 24 % 16 = 14 → zf ww 20 4 = true → bv 2 ww 18 = t → bv 4 ww 14 = c → bv 6 ww 8 = x → bv 8 ww 0 = i → decodeSlot ww 0 0 = .ok (.pref t c x i : Instr) := by
    intro ww h0 h1 h2 h3 h4 h5 h6
    simp only [decodeSlot, decodeRow9, h0, h1, h2, h3, h4, h5, h6, if_true]
  exact one (i := (.pref t c x i : Instr)) rfl (key (enc 0x9e000000 [(t.toNat, 18), (c.toNat, 14), (x.toNat, 8), (i.toNat, 0)])
    (enc_rest k0 f0 28 4 rfl)
    (enc_rest k0 f0 24 4 rfl)
    (zf_eq (enc_rest k0 f0 20 4 rfl))
    (bv_eq (enc_field k0 f0 0 _ _ _ rfl))
    (bv_eq (enc_field k0 f0 1 _ _ _ rfl))
    (bv_eq (enc_field k0 f0 2 _ _ _ rfl))
    (bv_eq (enc_field k0 f0 3 _ _ _ rfl)))

theorem ldc (t c x i) : Statement (.ldc t c x i : Instr) := by
  have k0 : layoutOk 0x9f000000 [(18, 4), (14, 4), (8, 6), (0, 8)] = true := by decide
  have f0 : fit [(t.toNat, 18, 4), (c.toNat, 14, 4), (x.toNat, 8, 6), (i.toNat, 0, 8)] := ⟨t.isLt, c.isLt, x.isLt, i.isLt, trivial⟩
  have key : ∀ ww : Nat, ww / 2 ^ 28 % 16 = 9 → ww / 2 ^ 24 % 16 = 15 → zf ww 22 2 = true → bv 4 ww 18 = t → bv 4 ww 14 = c → bv 6 ww 8 = x → bv 8 ww 0 = i → decodeSlot ww 0 0 = .ok (.ldc t c x i : Instr) := by
    intro ww h0 h1 h2 h3 h4 h5 h6
    simp only [decodeSlot, decodeRow9, h0, h1, h2, h3, h4, h5, h6, if_true]
  exact one (i := (.ldc t c x i : Instr)) rfl (key (enc 0x9f000000 [(t.toNat, 18), (c.toNat, 14), (x.toNat, 8), (i.toNat, 0)])
    (enc_rest k0 f0 28 4 rfl)
    (enc_rest k0 f0 24 4 rfl)
    (zf_eq (enc_rest k0 f0 22 2 rfl))
    (bv_eq (enc_field k0 f0 0 _ _ _ rfl))
    (bv_eq (enc_field k0 f0 1 _ _ _ rfl))
    (bv_eq (enc_field k0 f0 2 _ _ _ rfl))
    (bv_eq (enc_field k0 f0 3 _ _ _ rfl)))

theorem stc (t c x i) : Statement (.stc t c x i : Instr) := by
  have k0 : layoutOk 0xa0000000 [(18, 4), (14, 4), (8, 6), (0, 8)] = true := by decide
  have f0 : fit [(t.toNat, 18, 4), (c.toNat, 14, 4), (x.toNat, 8, 6), (i.toNat, 0, 8)] := ⟨t.isLt, c.isLt, x.isLt, i.isLt, trivial⟩
  have key : ∀ ww : Nat, ww / 2 ^ 28 % 16 = 10 → ww / 2 ^ 24 % 16 = 0 → zf ww 22 2 = true → bv 4 ww 18 = t → bv 4 ww 14 = c → bv 6 ww 8 = x → bv 8 ww 0 = i → decodeSlot ww 0 0 = .ok (.stc t c x i : Instr) := by
    intro ww h0 h1 h2 h3 h4 h5 h6
    simp only [decodeSlot, decodeRowA, h0, h1, h2, h3, h4, h5, h6, if_true]
  exact one (i := (.stc t c x i : Instr)) rfl (key (enc 0xa0000000 [(t.toNat, 18), (c.toNat, 14), (x.toNat, 8), (i.toNat, 0)])
    (enc_rest k0 f0 28 4 rfl)
    (enc_rest k0 f0 24 4 rfl)
    (zf_eq (enc_rest k0 f0 22 2 rfl))
    (bv_eq (enc_field k0 f0 0 _ _ _ rfl))
    (bv_eq (enc_field k0 f0 1 _ _ _ rfl))
    (bv_eq (enc_field k0 f0 2 _ _ _ rfl))
    (bv_eq (enc_field k0 f0 3 _ _ _ rfl)))

theorem cmov (d a) : Statement (.cmov d a : Instr) := by
  have k0 : layoutOk 0xa1000000 [(18, 4), (12, 4)] = true := by decide
  have f0 : fit [(d.toNat, 18, 4), (a.toNat, 12, 4)] := ⟨d.isLt, a.isLt, trivial⟩
  have key : ∀ ww : Nat, ww / 2 ^ 28 % 16 = 10 → ww / 2 ^ 24 % 16 = 1 → zf ww 0 12 = true → zf ww 16 2 = true → zf ww 22 2 = true → bv 4 ww 18 = d → bv 4 ww 12 = a → decodeSlot ww 0 0 = .ok (.cmov d a : Instr) := by
    intro ww h0 h1 h2 h3 h4 h5 h6
    simp only [decodeSlot, decodeRowA, h0, h1, h2, h3, h4, h5, h6, Bool.and_self, if_true]
  exact one (i := (.cmov d a : Instr)) rfl (key (enc 0xa1000000 [(d.toNat, 18), (a.toNat, 12)])
    (enc_rest k0 f0 28 4 rfl)
    (enc_rest k0 f0 24 4 rfl)
    (zf_eq (enc_rest k0 f0 0 12 rfl))
    (zf_eq (enc_rest k0 f0 16 2 rfl))
    (zf_eq (enc_rest k0 f0 22 2 rfl))
    (bv_eq (enc_field k0 f0 0 _ _ _ rfl))
    (bv_eq (enc_field k0 f0 1 _ _ _ rfl)))

theorem cadd (d a b) : Statement (.cadd d a b : Instr) := by
  have k0 : layoutOk 0xa2000000 [(18, 4), (12, 4), (6, 6)] = true := by decide
  have f0 : fit [(d.toNat, 18, 4), (a.toNat, 12, 4), (b.toNat, 6, 6)] := ⟨d.isLt, a.isLt, b.isLt, trivial⟩
  have key : ∀ ww : Nat, ww / 2 ^ 28 % 16 = 10 → ww / 2 ^ 24 % 16 = 2 → zf ww 0 6 = true → zf ww 16 2 = true → zf ww 22 2 = true → bv 4 ww 18 = d → bv 4 ww 12 = a → bv 6 ww 6 = b → decodeSlot ww 0 0 = .ok (.cadd d a b : Instr) := by
    intro ww h0 h1 h2 h3 h4 h5 h6 h7
    simp only [decodeSlot, decodeRowA, h0, h1, h2, h3, h4, h5, h6, h7, Bool.and_self, if_true]
  exact one (i := (.cadd d a b : Instr)) rfl (key (enc 0xa2000000 [(d.toNat, 18), (a.toNat, 12), (b.toNat, 6)])
    (enc_rest k0 f0 28 4 rfl)
    (enc_rest k0 f0 24 4 rfl)
    (zf_eq (enc_rest k0 f0 0 6 rfl))
    (zf_eq (enc_rest k0 f0 16 2 rfl))
    (zf_eq (enc_rest k0 f0 22 2 rfl))
    (bv_eq (enc_field k0 f0 0 _ _ _ rfl))
    (bv_eq (enc_field k0 f0 1 _ _ _ rfl))
    (bv_eq (enc_field k0 f0 2 _ _ _ rfl)))

theorem cnarrow (d a b c) : Statement (.cnarrow d a b c : Instr) := by
  have k0 : layoutOk 0xa3000000 [(18, 4), (12, 4), (6, 6), (0, 6)] = true := by decide
  have f0 : fit [(d.toNat, 18, 4), (a.toNat, 12, 4), (b.toNat, 6, 6), (c.toNat, 0, 6)] := ⟨d.isLt, a.isLt, b.isLt, c.isLt, trivial⟩
  have key : ∀ ww : Nat, ww / 2 ^ 28 % 16 = 10 → ww / 2 ^ 24 % 16 = 3 → zf ww 16 2 = true → zf ww 22 2 = true → bv 4 ww 18 = d → bv 4 ww 12 = a → bv 6 ww 6 = b → bv 6 ww 0 = c → decodeSlot ww 0 0 = .ok (.cnarrow d a b c : Instr) := by
    intro ww h0 h1 h2 h3 h4 h5 h6 h7
    simp only [decodeSlot, decodeRowA, h0, h1, h2, h3, h4, h5, h6, h7, Bool.and_self, if_true]
  exact one (i := (.cnarrow d a b c : Instr)) rfl (key (enc 0xa3000000 [(d.toNat, 18), (a.toNat, 12), (b.toNat, 6), (c.toNat, 0)])
    (enc_rest k0 f0 28 4 rfl)
    (enc_rest k0 f0 24 4 rfl)
    (zf_eq (enc_rest k0 f0 16 2 rfl))
    (zf_eq (enc_rest k0 f0 22 2 rfl))
    (bv_eq (enc_field k0 f0 0 _ _ _ rfl))
    (bv_eq (enc_field k0 f0 1 _ _ _ rfl))
    (bv_eq (enc_field k0 f0 2 _ _ _ rfl))
    (bv_eq (enc_field k0 f0 3 _ _ _ rfl)))

theorem cdrop (d a m) : Statement (.cdrop d a m : Instr) := by
  have k0 : layoutOk 0xa4000000 [(18, 4), (12, 4), (0, 8)] = true := by decide
  have f0 : fit [(d.toNat, 18, 4), (a.toNat, 12, 4), (m.toNat, 0, 8)] := ⟨d.isLt, a.isLt, m.isLt, trivial⟩
  have key : ∀ ww : Nat, ww / 2 ^ 28 % 16 = 10 → ww / 2 ^ 24 % 16 = 4 → zf ww 8 4 = true → zf ww 16 2 = true → zf ww 22 2 = true → bv 4 ww 18 = d → bv 4 ww 12 = a → bv 8 ww 0 = m → decodeSlot ww 0 0 = .ok (.cdrop d a m : Instr) := by
    intro ww h0 h1 h2 h3 h4 h5 h6 h7
    simp only [decodeSlot, decodeRowA, h0, h1, h2, h3, h4, h5, h6, h7, Bool.and_self, if_true]
  exact one (i := (.cdrop d a m : Instr)) rfl (key (enc 0xa4000000 [(d.toNat, 18), (a.toNat, 12), (m.toNat, 0)])
    (enc_rest k0 f0 28 4 rfl)
    (enc_rest k0 f0 24 4 rfl)
    (zf_eq (enc_rest k0 f0 8 4 rfl))
    (zf_eq (enc_rest k0 f0 16 2 rfl))
    (zf_eq (enc_rest k0 f0 22 2 rfl))
    (bv_eq (enc_field k0 f0 0 _ _ _ rfl))
    (bv_eq (enc_field k0 f0 1 _ _ _ rfl))
    (bv_eq (enc_field k0 f0 2 _ _ _ rfl)))

theorem cget (d a f) : Statement (.cget d a f : Instr) := by
  have k0 : layoutOk 0xa5000000 [(18, 6), (12, 4), (0, 3)] = true := by decide
  have f0 : fit [(d.toNat, 18, 6), (a.toNat, 12, 4), (f.toNat, 0, 3)] := ⟨d.isLt, a.isLt, f.isLt, trivial⟩
  have key : ∀ ww : Nat, ww / 2 ^ 28 % 16 = 10 → ww / 2 ^ 24 % 16 = 5 → zf ww 3 9 = true → zf ww 16 2 = true → bv 6 ww 18 = d → bv 4 ww 12 = a → bv 3 ww 0 = f → decodeSlot ww 0 0 = .ok (.cget d a f : Instr) := by
    intro ww h0 h1 h2 h3 h4 h5 h6
    simp only [decodeSlot, decodeRowA, h0, h1, h2, h3, h4, h5, h6, Bool.and_self, if_true]
  exact one (i := (.cget d a f : Instr)) rfl (key (enc 0xa5000000 [(d.toNat, 18), (a.toNat, 12), (f.toNat, 0)])
    (enc_rest k0 f0 28 4 rfl)
    (enc_rest k0 f0 24 4 rfl)
    (zf_eq (enc_rest k0 f0 3 9 rfl))
    (zf_eq (enc_rest k0 f0 16 2 rfl))
    (bv_eq (enc_field k0 f0 0 _ _ _ rfl))
    (bv_eq (enc_field k0 f0 1 _ _ _ rfl))
    (bv_eq (enc_field k0 f0 2 _ _ _ rfl)))

theorem ctest (k p a b) : Statement (.ctest k p a b : Instr) := by
  have k0 : layoutOk 0xa6000000 [(21, 3), (18, 3), (12, 4), (6, 6)] = true := by decide
  have f0 : fit [(k.toNat, 21, 3), (p.toNat, 18, 3), (a.toNat, 12, 4), (b.toNat, 6, 6)] := ⟨k.isLt, p.isLt, a.isLt, b.isLt, trivial⟩
  have key : ∀ ww : Nat, ww / 2 ^ 28 % 16 = 10 → ww / 2 ^ 24 % 16 = 6 → zf ww 0 6 = true → zf ww 16 2 = true → bv 3 ww 21 = k → bv 3 ww 18 = p → bv 4 ww 12 = a → bv 6 ww 6 = b → decodeSlot ww 0 0 = .ok (.ctest k p a b : Instr) := by
    intro ww h0 h1 h2 h3 h4 h5 h6 h7
    simp only [decodeSlot, decodeRowA, h0, h1, h2, h3, h4, h5, h6, h7, Bool.and_self, if_true]
  exact one (i := (.ctest k p a b : Instr)) rfl (key (enc 0xa6000000 [(k.toNat, 21), (p.toNat, 18), (a.toNat, 12), (b.toNat, 6)])
    (enc_rest k0 f0 28 4 rfl)
    (enc_rest k0 f0 24 4 rfl)
    (zf_eq (enc_rest k0 f0 0 6 rfl))
    (zf_eq (enc_rest k0 f0 16 2 rfl))
    (bv_eq (enc_field k0 f0 0 _ _ _ rfl))
    (bv_eq (enc_field k0 f0 1 _ _ _ rfl))
    (bv_eq (enc_field k0 f0 2 _ _ _ rfl))
    (bv_eq (enc_field k0 f0 3 _ _ _ rfl)))

theorem tld (g q c x r s) : Statement (.tld g q c x r s : Instr) := by
  have k0 : layoutOk 0xa7000000 [(19, 5), (14, 5), (10, 4), (4, 6), (3, 1), (0, 3)] = true := by decide
  have f0 : fit [(g.toNat, 19, 5), (q.toNat, 14, 5), (c.toNat, 10, 4), (x.toNat, 4, 6), (b2n r, 3, 1), (s.toNat, 0, 3)] := ⟨g.isLt, q.isLt, c.isLt, x.isLt, b2n_lt r, s.isLt, trivial⟩
  have key : ∀ ww : Nat, ww / 2 ^ 28 % 16 = 10 → ww / 2 ^ 24 % 16 = 7 → bv 5 ww 19 = g → bv 5 ww 14 = q → bv 4 ww 10 = c → bv 6 ww 4 = x → bit ww 3 = r → bv 3 ww 0 = s → decodeSlot ww 0 0 = .ok (.tld g q c x r s : Instr) := by
    intro ww h0 h1 h2 h3 h4 h5 h6 h7
    simp only [decodeSlot, decodeRowA, h0, h1, h2, h3, h4, h5, h6, h7]
  exact one (i := (.tld g q c x r s : Instr)) rfl (key (enc 0xa7000000 [(g.toNat, 19), (q.toNat, 14), (c.toNat, 10), (x.toNat, 4), (b2n r, 3), (s.toNat, 0)])
    (enc_rest k0 f0 28 4 rfl)
    (enc_rest k0 f0 24 4 rfl)
    (bv_eq (enc_field k0 f0 0 _ _ _ rfl))
    (bv_eq (enc_field k0 f0 1 _ _ _ rfl))
    (bv_eq (enc_field k0 f0 2 _ _ _ rfl))
    (bv_eq (enc_field k0 f0 3 _ _ _ rfl))
    (bit_eq (enc_field k0 f0 4 _ _ _ rfl))
    (bv_eq (enc_field k0 f0 5 _ _ _ rfl)))

theorem tst (g q c x r s) : Statement (.tst g q c x r s : Instr) := by
  have k0 : layoutOk 0xa8000000 [(19, 5), (14, 5), (10, 4), (4, 6), (3, 1), (0, 3)] = true := by decide
  have f0 : fit [(g.toNat, 19, 5), (q.toNat, 14, 5), (c.toNat, 10, 4), (x.toNat, 4, 6), (b2n r, 3, 1), (s.toNat, 0, 3)] := ⟨g.isLt, q.isLt, c.isLt, x.isLt, b2n_lt r, s.isLt, trivial⟩
  have key : ∀ ww : Nat, ww / 2 ^ 28 % 16 = 10 → ww / 2 ^ 24 % 16 = 8 → bv 5 ww 19 = g → bv 5 ww 14 = q → bv 4 ww 10 = c → bv 6 ww 4 = x → bit ww 3 = r → bv 3 ww 0 = s → decodeSlot ww 0 0 = .ok (.tst g q c x r s : Instr) := by
    intro ww h0 h1 h2 h3 h4 h5 h6 h7
    simp only [decodeSlot, decodeRowA, h0, h1, h2, h3, h4, h5, h6, h7]
  exact one (i := (.tst g q c x r s : Instr)) rfl (key (enc 0xa8000000 [(g.toNat, 19), (q.toNat, 14), (c.toNat, 10), (x.toNat, 4), (b2n r, 3), (s.toNat, 0)])
    (enc_rest k0 f0 28 4 rfl)
    (enc_rest k0 f0 24 4 rfl)
    (bv_eq (enc_field k0 f0 0 _ _ _ rfl))
    (bv_eq (enc_field k0 f0 1 _ _ _ rfl))
    (bv_eq (enc_field k0 f0 2 _ _ _ rfl))
    (bv_eq (enc_field k0 f0 3 _ _ _ rfl))
    (bit_eq (enc_field k0 f0 4 _ _ _ rfl))
    (bv_eq (enc_field k0 f0 5 _ _ _ rfl)))

theorem aadd (d c x s e) : Statement (.aadd d c x s e : Instr) := by
  have k0 : layoutOk 0xb0000000 [(18, 6), (14, 4), (8, 6), (2, 6), (0, 2)] = true := by decide
  have f0 : fit [(d.toNat, 18, 6), (c.toNat, 14, 4), (x.toNat, 8, 6), (s.toNat, 2, 6), (e.toNat, 0, 2)] := ⟨d.isLt, c.isLt, x.isLt, s.isLt, e.isLt, trivial⟩
  have key : ∀ ww : Nat, ww / 2 ^ 28 % 16 = 11 → ww / 2 ^ 24 % 16 = 0 → bv 6 ww 18 = d → bv 4 ww 14 = c → bv 6 ww 8 = x → bv 6 ww 2 = s → bv 2 ww 0 = e → decodeSlot ww 0 0 = .ok (.aadd d c x s e : Instr) := by
    intro ww h0 h1 h2 h3 h4 h5 h6
    simp only [decodeSlot, decodeRowB, h0, h1, h2, h3, h4, h5, h6]
  exact one (i := (.aadd d c x s e : Instr)) rfl (key (enc 0xb0000000 [(d.toNat, 18), (c.toNat, 14), (x.toNat, 8), (s.toNat, 2), (e.toNat, 0)])
    (enc_rest k0 f0 28 4 rfl)
    (enc_rest k0 f0 24 4 rfl)
    (bv_eq (enc_field k0 f0 0 _ _ _ rfl))
    (bv_eq (enc_field k0 f0 1 _ _ _ rfl))
    (bv_eq (enc_field k0 f0 2 _ _ _ rfl))
    (bv_eq (enc_field k0 f0 3 _ _ _ rfl))
    (bv_eq (enc_field k0 f0 4 _ _ _ rfl)))

theorem aand (d c x s e) : Statement (.aand d c x s e : Instr) := by
  have k0 : layoutOk 0xb1000000 [(18, 6), (14, 4), (8, 6), (2, 6), (0, 2)] = true := by decide
  have f0 : fit [(d.toNat, 18, 6), (c.toNat, 14, 4), (x.toNat, 8, 6), (s.toNat, 2, 6), (e.toNat, 0, 2)] := ⟨d.isLt, c.isLt, x.isLt, s.isLt, e.isLt, trivial⟩
  have key : ∀ ww : Nat, ww / 2 ^ 28 % 16 = 11 → ww / 2 ^ 24 % 16 = 1 → bv 6 ww 18 = d → bv 4 ww 14 = c → bv 6 ww 8 = x → bv 6 ww 2 = s → bv 2 ww 0 = e → decodeSlot ww 0 0 = .ok (.aand d c x s e : Instr) := by
    intro ww h0 h1 h2 h3 h4 h5 h6
    simp only [decodeSlot, decodeRowB, h0, h1, h2, h3, h4, h5, h6]
  exact one (i := (.aand d c x s e : Instr)) rfl (key (enc 0xb1000000 [(d.toNat, 18), (c.toNat, 14), (x.toNat, 8), (s.toNat, 2), (e.toNat, 0)])
    (enc_rest k0 f0 28 4 rfl)
    (enc_rest k0 f0 24 4 rfl)
    (bv_eq (enc_field k0 f0 0 _ _ _ rfl))
    (bv_eq (enc_field k0 f0 1 _ _ _ rfl))
    (bv_eq (enc_field k0 f0 2 _ _ _ rfl))
    (bv_eq (enc_field k0 f0 3 _ _ _ rfl))
    (bv_eq (enc_field k0 f0 4 _ _ _ rfl)))

theorem aor (d c x s e) : Statement (.aor d c x s e : Instr) := by
  have k0 : layoutOk 0xb2000000 [(18, 6), (14, 4), (8, 6), (2, 6), (0, 2)] = true := by decide
  have f0 : fit [(d.toNat, 18, 6), (c.toNat, 14, 4), (x.toNat, 8, 6), (s.toNat, 2, 6), (e.toNat, 0, 2)] := ⟨d.isLt, c.isLt, x.isLt, s.isLt, e.isLt, trivial⟩
  have key : ∀ ww : Nat, ww / 2 ^ 28 % 16 = 11 → ww / 2 ^ 24 % 16 = 2 → bv 6 ww 18 = d → bv 4 ww 14 = c → bv 6 ww 8 = x → bv 6 ww 2 = s → bv 2 ww 0 = e → decodeSlot ww 0 0 = .ok (.aor d c x s e : Instr) := by
    intro ww h0 h1 h2 h3 h4 h5 h6
    simp only [decodeSlot, decodeRowB, h0, h1, h2, h3, h4, h5, h6]
  exact one (i := (.aor d c x s e : Instr)) rfl (key (enc 0xb2000000 [(d.toNat, 18), (c.toNat, 14), (x.toNat, 8), (s.toNat, 2), (e.toNat, 0)])
    (enc_rest k0 f0 28 4 rfl)
    (enc_rest k0 f0 24 4 rfl)
    (bv_eq (enc_field k0 f0 0 _ _ _ rfl))
    (bv_eq (enc_field k0 f0 1 _ _ _ rfl))
    (bv_eq (enc_field k0 f0 2 _ _ _ rfl))
    (bv_eq (enc_field k0 f0 3 _ _ _ rfl))
    (bv_eq (enc_field k0 f0 4 _ _ _ rfl)))

theorem axor (d c x s e) : Statement (.axor d c x s e : Instr) := by
  have k0 : layoutOk 0xb3000000 [(18, 6), (14, 4), (8, 6), (2, 6), (0, 2)] = true := by decide
  have f0 : fit [(d.toNat, 18, 6), (c.toNat, 14, 4), (x.toNat, 8, 6), (s.toNat, 2, 6), (e.toNat, 0, 2)] := ⟨d.isLt, c.isLt, x.isLt, s.isLt, e.isLt, trivial⟩
  have key : ∀ ww : Nat, ww / 2 ^ 28 % 16 = 11 → ww / 2 ^ 24 % 16 = 3 → bv 6 ww 18 = d → bv 4 ww 14 = c → bv 6 ww 8 = x → bv 6 ww 2 = s → bv 2 ww 0 = e → decodeSlot ww 0 0 = .ok (.axor d c x s e : Instr) := by
    intro ww h0 h1 h2 h3 h4 h5 h6
    simp only [decodeSlot, decodeRowB, h0, h1, h2, h3, h4, h5, h6]
  exact one (i := (.axor d c x s e : Instr)) rfl (key (enc 0xb3000000 [(d.toNat, 18), (c.toNat, 14), (x.toNat, 8), (s.toNat, 2), (e.toNat, 0)])
    (enc_rest k0 f0 28 4 rfl)
    (enc_rest k0 f0 24 4 rfl)
    (bv_eq (enc_field k0 f0 0 _ _ _ rfl))
    (bv_eq (enc_field k0 f0 1 _ _ _ rfl))
    (bv_eq (enc_field k0 f0 2 _ _ _ rfl))
    (bv_eq (enc_field k0 f0 3 _ _ _ rfl))
    (bv_eq (enc_field k0 f0 4 _ _ _ rfl)))

theorem amins (d c x s e) : Statement (.amins d c x s e : Instr) := by
  have k0 : layoutOk 0xb4000000 [(18, 6), (14, 4), (8, 6), (2, 6), (0, 2)] = true := by decide
  have f0 : fit [(d.toNat, 18, 6), (c.toNat, 14, 4), (x.toNat, 8, 6), (s.toNat, 2, 6), (e.toNat, 0, 2)] := ⟨d.isLt, c.isLt, x.isLt, s.isLt, e.isLt, trivial⟩
  have key : ∀ ww : Nat, ww / 2 ^ 28 % 16 = 11 → ww / 2 ^ 24 % 16 = 4 → bv 6 ww 18 = d → bv 4 ww 14 = c → bv 6 ww 8 = x → bv 6 ww 2 = s → bv 2 ww 0 = e → decodeSlot ww 0 0 = .ok (.amins d c x s e : Instr) := by
    intro ww h0 h1 h2 h3 h4 h5 h6
    simp only [decodeSlot, decodeRowB, h0, h1, h2, h3, h4, h5, h6]
  exact one (i := (.amins d c x s e : Instr)) rfl (key (enc 0xb4000000 [(d.toNat, 18), (c.toNat, 14), (x.toNat, 8), (s.toNat, 2), (e.toNat, 0)])
    (enc_rest k0 f0 28 4 rfl)
    (enc_rest k0 f0 24 4 rfl)
    (bv_eq (enc_field k0 f0 0 _ _ _ rfl))
    (bv_eq (enc_field k0 f0 1 _ _ _ rfl))
    (bv_eq (enc_field k0 f0 2 _ _ _ rfl))
    (bv_eq (enc_field k0 f0 3 _ _ _ rfl))
    (bv_eq (enc_field k0 f0 4 _ _ _ rfl)))

theorem aminz (d c x s e) : Statement (.aminz d c x s e : Instr) := by
  have k0 : layoutOk 0xb5000000 [(18, 6), (14, 4), (8, 6), (2, 6), (0, 2)] = true := by decide
  have f0 : fit [(d.toNat, 18, 6), (c.toNat, 14, 4), (x.toNat, 8, 6), (s.toNat, 2, 6), (e.toNat, 0, 2)] := ⟨d.isLt, c.isLt, x.isLt, s.isLt, e.isLt, trivial⟩
  have key : ∀ ww : Nat, ww / 2 ^ 28 % 16 = 11 → ww / 2 ^ 24 % 16 = 5 → bv 6 ww 18 = d → bv 4 ww 14 = c → bv 6 ww 8 = x → bv 6 ww 2 = s → bv 2 ww 0 = e → decodeSlot ww 0 0 = .ok (.aminz d c x s e : Instr) := by
    intro ww h0 h1 h2 h3 h4 h5 h6
    simp only [decodeSlot, decodeRowB, h0, h1, h2, h3, h4, h5, h6]
  exact one (i := (.aminz d c x s e : Instr)) rfl (key (enc 0xb5000000 [(d.toNat, 18), (c.toNat, 14), (x.toNat, 8), (s.toNat, 2), (e.toNat, 0)])
    (enc_rest k0 f0 28 4 rfl)
    (enc_rest k0 f0 24 4 rfl)
    (bv_eq (enc_field k0 f0 0 _ _ _ rfl))
    (bv_eq (enc_field k0 f0 1 _ _ _ rfl))
    (bv_eq (enc_field k0 f0 2 _ _ _ rfl))
    (bv_eq (enc_field k0 f0 3 _ _ _ rfl))
    (bv_eq (enc_field k0 f0 4 _ _ _ rfl)))

theorem amaxs (d c x s e) : Statement (.amaxs d c x s e : Instr) := by
  have k0 : layoutOk 0xb6000000 [(18, 6), (14, 4), (8, 6), (2, 6), (0, 2)] = true := by decide
  have f0 : fit [(d.toNat, 18, 6), (c.toNat, 14, 4), (x.toNat, 8, 6), (s.toNat, 2, 6), (e.toNat, 0, 2)] := ⟨d.isLt, c.isLt, x.isLt, s.isLt, e.isLt, trivial⟩
  have key : ∀ ww : Nat, ww / 2 ^ 28 % 16 = 11 → ww / 2 ^ 24 % 16 = 6 → bv 6 ww 18 = d → bv 4 ww 14 = c → bv 6 ww 8 = x → bv 6 ww 2 = s → bv 2 ww 0 = e → decodeSlot ww 0 0 = .ok (.amaxs d c x s e : Instr) := by
    intro ww h0 h1 h2 h3 h4 h5 h6
    simp only [decodeSlot, decodeRowB, h0, h1, h2, h3, h4, h5, h6]
  exact one (i := (.amaxs d c x s e : Instr)) rfl (key (enc 0xb6000000 [(d.toNat, 18), (c.toNat, 14), (x.toNat, 8), (s.toNat, 2), (e.toNat, 0)])
    (enc_rest k0 f0 28 4 rfl)
    (enc_rest k0 f0 24 4 rfl)
    (bv_eq (enc_field k0 f0 0 _ _ _ rfl))
    (bv_eq (enc_field k0 f0 1 _ _ _ rfl))
    (bv_eq (enc_field k0 f0 2 _ _ _ rfl))
    (bv_eq (enc_field k0 f0 3 _ _ _ rfl))
    (bv_eq (enc_field k0 f0 4 _ _ _ rfl)))

theorem amaxz (d c x s e) : Statement (.amaxz d c x s e : Instr) := by
  have k0 : layoutOk 0xb7000000 [(18, 6), (14, 4), (8, 6), (2, 6), (0, 2)] = true := by decide
  have f0 : fit [(d.toNat, 18, 6), (c.toNat, 14, 4), (x.toNat, 8, 6), (s.toNat, 2, 6), (e.toNat, 0, 2)] := ⟨d.isLt, c.isLt, x.isLt, s.isLt, e.isLt, trivial⟩
  have key : ∀ ww : Nat, ww / 2 ^ 28 % 16 = 11 → ww / 2 ^ 24 % 16 = 7 → bv 6 ww 18 = d → bv 4 ww 14 = c → bv 6 ww 8 = x → bv 6 ww 2 = s → bv 2 ww 0 = e → decodeSlot ww 0 0 = .ok (.amaxz d c x s e : Instr) := by
    intro ww h0 h1 h2 h3 h4 h5 h6
    simp only [decodeSlot, decodeRowB, h0, h1, h2, h3, h4, h5, h6]
  exact one (i := (.amaxz d c x s e : Instr)) rfl (key (enc 0xb7000000 [(d.toNat, 18), (c.toNat, 14), (x.toNat, 8), (s.toNat, 2), (e.toNat, 0)])
    (enc_rest k0 f0 28 4 rfl)
    (enc_rest k0 f0 24 4 rfl)
    (bv_eq (enc_field k0 f0 0 _ _ _ rfl))
    (bv_eq (enc_field k0 f0 1 _ _ _ rfl))
    (bv_eq (enc_field k0 f0 2 _ _ _ rfl))
    (bv_eq (enc_field k0 f0 3 _ _ _ rfl))
    (bv_eq (enc_field k0 f0 4 _ _ _ rfl)))

theorem axchg (d c x s e) : Statement (.axchg d c x s e : Instr) := by
  have k0 : layoutOk 0xb8000000 [(18, 6), (14, 4), (8, 6), (2, 6), (0, 2)] = true := by decide
  have f0 : fit [(d.toNat, 18, 6), (c.toNat, 14, 4), (x.toNat, 8, 6), (s.toNat, 2, 6), (e.toNat, 0, 2)] := ⟨d.isLt, c.isLt, x.isLt, s.isLt, e.isLt, trivial⟩
  have key : ∀ ww : Nat, ww / 2 ^ 28 % 16 = 11 → ww / 2 ^ 24 % 16 = 8 → bv 6 ww 18 = d → bv 4 ww 14 = c → bv 6 ww 8 = x → bv 6 ww 2 = s → bv 2 ww 0 = e → decodeSlot ww 0 0 = .ok (.axchg d c x s e : Instr) := by
    intro ww h0 h1 h2 h3 h4 h5 h6
    simp only [decodeSlot, decodeRowB, h0, h1, h2, h3, h4, h5, h6]
  exact one (i := (.axchg d c x s e : Instr)) rfl (key (enc 0xb8000000 [(d.toNat, 18), (c.toNat, 14), (x.toNat, 8), (s.toNat, 2), (e.toNat, 0)])
    (enc_rest k0 f0 28 4 rfl)
    (enc_rest k0 f0 24 4 rfl)
    (bv_eq (enc_field k0 f0 0 _ _ _ rfl))
    (bv_eq (enc_field k0 f0 1 _ _ _ rfl))
    (bv_eq (enc_field k0 f0 2 _ _ _ rfl))
    (bv_eq (enc_field k0 f0 3 _ _ _ rfl))
    (bv_eq (enc_field k0 f0 4 _ _ _ rfl)))

theorem acas (d c x s e) : Statement (.acas d c x s e : Instr) := by
  have k0 : layoutOk 0xb9000000 [(18, 6), (14, 4), (8, 6), (2, 6), (0, 2)] = true := by decide
  have f0 : fit [(d.toNat, 18, 6), (c.toNat, 14, 4), (x.toNat, 8, 6), (s.toNat, 2, 6), (e.toNat, 0, 2)] := ⟨d.isLt, c.isLt, x.isLt, s.isLt, e.isLt, trivial⟩
  have key : ∀ ww : Nat, ww / 2 ^ 28 % 16 = 11 → ww / 2 ^ 24 % 16 = 9 → bv 6 ww 18 = d → bv 4 ww 14 = c → bv 6 ww 8 = x → bv 6 ww 2 = s → bv 2 ww 0 = e → decodeSlot ww 0 0 = .ok (.acas d c x s e : Instr) := by
    intro ww h0 h1 h2 h3 h4 h5 h6
    simp only [decodeSlot, decodeRowB, h0, h1, h2, h3, h4, h5, h6]
  exact one (i := (.acas d c x s e : Instr)) rfl (key (enc 0xb9000000 [(d.toNat, 18), (c.toNat, 14), (x.toNat, 8), (s.toNat, 2), (e.toNat, 0)])
    (enc_rest k0 f0 28 4 rfl)
    (enc_rest k0 f0 24 4 rfl)
    (bv_eq (enc_field k0 f0 0 _ _ _ rfl))
    (bv_eq (enc_field k0 f0 1 _ _ _ rfl))
    (bv_eq (enc_field k0 f0 2 _ _ _ rfl))
    (bv_eq (enc_field k0 f0 3 _ _ _ rfl))
    (bv_eq (enc_field k0 f0 4 _ _ _ rfl)))

theorem aadd64 (d c x s e) : Statement (.aadd64 d c x s e : Instr) := by
  have k0 : layoutOk 0xba000000 [(18, 6), (14, 4), (8, 6), (2, 6), (0, 2)] = true := by decide
  have f0 : fit [(d.toNat, 18, 6), (c.toNat, 14, 4), (x.toNat, 8, 6), (s.toNat, 2, 6), (e.toNat, 0, 2)] := ⟨d.isLt, c.isLt, x.isLt, s.isLt, e.isLt, trivial⟩
  have key : ∀ ww : Nat, ww / 2 ^ 28 % 16 = 11 → ww / 2 ^ 24 % 16 = 10 → bv 6 ww 18 = d → bv 4 ww 14 = c → bv 6 ww 8 = x → bv 6 ww 2 = s → bv 2 ww 0 = e → decodeSlot ww 0 0 = .ok (.aadd64 d c x s e : Instr) := by
    intro ww h0 h1 h2 h3 h4 h5 h6
    simp only [decodeSlot, decodeRowB, h0, h1, h2, h3, h4, h5, h6]
  exact one (i := (.aadd64 d c x s e : Instr)) rfl (key (enc 0xba000000 [(d.toNat, 18), (c.toNat, 14), (x.toNat, 8), (s.toNat, 2), (e.toNat, 0)])
    (enc_rest k0 f0 28 4 rfl)
    (enc_rest k0 f0 24 4 rfl)
    (bv_eq (enc_field k0 f0 0 _ _ _ rfl))
    (bv_eq (enc_field k0 f0 1 _ _ _ rfl))
    (bv_eq (enc_field k0 f0 2 _ _ _ rfl))
    (bv_eq (enc_field k0 f0 3 _ _ _ rfl))
    (bv_eq (enc_field k0 f0 4 _ _ _ rfl)))

theorem rfadd (t c x s e r) : Statement (.rfadd t c x s e r : Instr) := by
  have k0 : layoutOk 0xbb000000 [(18, 2), (14, 4), (8, 6), (2, 6), (0, 2)] = true := by decide
  have f0 : fit [(t.toNat, 18, 2), (c.toNat, 14, 4), (x.toNat, 8, 6), (s.toNat, 2, 6), (e.toNat, 0, 2)] := ⟨t.isLt, c.isLt, x.isLt, s.isLt, e.isLt, trivial⟩
  have k1 : layoutOk 0x0 [(0, 3)] = true := by decide
  have f1 : fit [(r.toNat, 0, 3)] := ⟨r.isLt, trivial⟩
  have key : ∀ ww xx : Nat, ww / 2 ^ 28 % 16 = 11 → ww / 2 ^ 24 % 16 = 11 → zf ww 20 4 = true → zf xx 3 29 = true → bv 2 ww 18 = t → bv 4 ww 14 = c → bv 6 ww 8 = x → bv 6 ww 2 = s → bv 2 ww 0 = e → bv 3 xx 0 = r → decodeSlot ww xx 0 = .ok (.rfadd t c x s e r : Instr) := by
    intro ww xx h0 h1 h2 h3 h4 h5 h6 h7 h8 h9
    simp only [decodeSlot, decodeRowB, h0, h1, h2, h3, h4, h5, h6, h7, h8, h9, Bool.and_self, if_true]
  exact two (i := (.rfadd t c x s e r : Instr)) rfl (key (enc 0xbb000000 [(t.toNat, 18), (c.toNat, 14), (x.toNat, 8), (s.toNat, 2), (e.toNat, 0)]) (enc 0x0 [(r.toNat, 0)])
    (enc_rest k0 f0 28 4 rfl)
    (enc_rest k0 f0 24 4 rfl)
    (zf_eq (enc_rest k0 f0 20 4 rfl))
    (zf_eq (enc_rest k1 f1 3 29 rfl))
    (bv_eq (enc_field k0 f0 0 _ _ _ rfl))
    (bv_eq (enc_field k0 f0 1 _ _ _ rfl))
    (bv_eq (enc_field k0 f0 2 _ _ _ rfl))
    (bv_eq (enc_field k0 f0 3 _ _ _ rfl))
    (bv_eq (enc_field k0 f0 4 _ _ _ rfl))
    (bv_eq (enc_field k1 f1 0 _ _ _ rfl)))

theorem rfmin (t c x s e r) : Statement (.rfmin t c x s e r : Instr) := by
  have k0 : layoutOk 0xbc000000 [(18, 2), (14, 4), (8, 6), (2, 6), (0, 2)] = true := by decide
  have f0 : fit [(t.toNat, 18, 2), (c.toNat, 14, 4), (x.toNat, 8, 6), (s.toNat, 2, 6), (e.toNat, 0, 2)] := ⟨t.isLt, c.isLt, x.isLt, s.isLt, e.isLt, trivial⟩
  have k1 : layoutOk 0x0 [(0, 3)] = true := by decide
  have f1 : fit [(r.toNat, 0, 3)] := ⟨r.isLt, trivial⟩
  have key : ∀ ww xx : Nat, ww / 2 ^ 28 % 16 = 11 → ww / 2 ^ 24 % 16 = 12 → zf ww 20 4 = true → zf xx 3 29 = true → bv 2 ww 18 = t → bv 4 ww 14 = c → bv 6 ww 8 = x → bv 6 ww 2 = s → bv 2 ww 0 = e → bv 3 xx 0 = r → decodeSlot ww xx 0 = .ok (.rfmin t c x s e r : Instr) := by
    intro ww xx h0 h1 h2 h3 h4 h5 h6 h7 h8 h9
    simp only [decodeSlot, decodeRowB, h0, h1, h2, h3, h4, h5, h6, h7, h8, h9, Bool.and_self, if_true]
  exact two (i := (.rfmin t c x s e r : Instr)) rfl (key (enc 0xbc000000 [(t.toNat, 18), (c.toNat, 14), (x.toNat, 8), (s.toNat, 2), (e.toNat, 0)]) (enc 0x0 [(r.toNat, 0)])
    (enc_rest k0 f0 28 4 rfl)
    (enc_rest k0 f0 24 4 rfl)
    (zf_eq (enc_rest k0 f0 20 4 rfl))
    (zf_eq (enc_rest k1 f1 3 29 rfl))
    (bv_eq (enc_field k0 f0 0 _ _ _ rfl))
    (bv_eq (enc_field k0 f0 1 _ _ _ rfl))
    (bv_eq (enc_field k0 f0 2 _ _ _ rfl))
    (bv_eq (enc_field k0 f0 3 _ _ _ rfl))
    (bv_eq (enc_field k0 f0 4 _ _ _ rfl))
    (bv_eq (enc_field k1 f1 0 _ _ _ rfl)))

theorem rfmax (t c x s e r) : Statement (.rfmax t c x s e r : Instr) := by
  have k0 : layoutOk 0xbd000000 [(18, 2), (14, 4), (8, 6), (2, 6), (0, 2)] = true := by decide
  have f0 : fit [(t.toNat, 18, 2), (c.toNat, 14, 4), (x.toNat, 8, 6), (s.toNat, 2, 6), (e.toNat, 0, 2)] := ⟨t.isLt, c.isLt, x.isLt, s.isLt, e.isLt, trivial⟩
  have k1 : layoutOk 0x0 [(0, 3)] = true := by decide
  have f1 : fit [(r.toNat, 0, 3)] := ⟨r.isLt, trivial⟩
  have key : ∀ ww xx : Nat, ww / 2 ^ 28 % 16 = 11 → ww / 2 ^ 24 % 16 = 13 → zf ww 20 4 = true → zf xx 3 29 = true → bv 2 ww 18 = t → bv 4 ww 14 = c → bv 6 ww 8 = x → bv 6 ww 2 = s → bv 2 ww 0 = e → bv 3 xx 0 = r → decodeSlot ww xx 0 = .ok (.rfmax t c x s e r : Instr) := by
    intro ww xx h0 h1 h2 h3 h4 h5 h6 h7 h8 h9
    simp only [decodeSlot, decodeRowB, h0, h1, h2, h3, h4, h5, h6, h7, h8, h9, Bool.and_self, if_true]
  exact two (i := (.rfmax t c x s e r : Instr)) rfl (key (enc 0xbd000000 [(t.toNat, 18), (c.toNat, 14), (x.toNat, 8), (s.toNat, 2), (e.toNat, 0)]) (enc 0x0 [(r.toNat, 0)])
    (enc_rest k0 f0 28 4 rfl)
    (enc_rest k0 f0 24 4 rfl)
    (zf_eq (enc_rest k0 f0 20 4 rfl))
    (zf_eq (enc_rest k1 f1 3 29 rfl))
    (bv_eq (enc_field k0 f0 0 _ _ _ rfl))
    (bv_eq (enc_field k0 f0 1 _ _ _ rfl))
    (bv_eq (enc_field k0 f0 2 _ _ _ rfl))
    (bv_eq (enc_field k0 f0 3 _ _ _ rfl))
    (bv_eq (enc_field k0 f0 4 _ _ _ rfl))
    (bv_eq (enc_field k1 f1 0 _ _ _ rfl)))

theorem radd (c x s e) : Statement (.radd c x s e : Instr) := by
  have k0 : layoutOk 0xbe000000 [(14, 4), (8, 6), (2, 6), (0, 2)] = true := by decide
  have f0 : fit [(c.toNat, 14, 4), (x.toNat, 8, 6), (s.toNat, 2, 6), (e.toNat, 0, 2)] := ⟨c.isLt, x.isLt, s.isLt, e.isLt, trivial⟩
  have key : ∀ ww : Nat, ww / 2 ^ 28 % 16 = 11 → ww / 2 ^ 24 % 16 = 14 → zf ww 18 6 = true → bv 4 ww 14 = c → bv 6 ww 8 = x → bv 6 ww 2 = s → bv 2 ww 0 = e → decodeSlot ww 0 0 = .ok (.radd c x s e : Instr) := by
    intro ww h0 h1 h2 h3 h4 h5 h6
    simp only [decodeSlot, decodeRowB, h0, h1, h2, h3, h4, h5, h6, if_true]
  exact one (i := (.radd c x s e : Instr)) rfl (key (enc 0xbe000000 [(c.toNat, 14), (x.toNat, 8), (s.toNat, 2), (e.toNat, 0)])
    (enc_rest k0 f0 28 4 rfl)
    (enc_rest k0 f0 24 4 rfl)
    (zf_eq (enc_rest k0 f0 18 6 rfl))
    (bv_eq (enc_field k0 f0 0 _ _ _ rfl))
    (bv_eq (enc_field k0 f0 1 _ _ _ rfl))
    (bv_eq (enc_field k0 f0 2 _ _ _ rfl))
    (bv_eq (enc_field k0 f0 3 _ _ _ rfl)))

theorem afadd (d c x s e r) : Statement (.afadd d c x s e r : Instr) := by
  have k0 : layoutOk 0xbf000000 [(18, 6), (14, 4), (8, 6), (2, 6), (0, 2)] = true := by decide
  have f0 : fit [(d.toNat, 18, 6), (c.toNat, 14, 4), (x.toNat, 8, 6), (s.toNat, 2, 6), (e.toNat, 0, 2)] := ⟨d.isLt, c.isLt, x.isLt, s.isLt, e.isLt, trivial⟩
  have k1 : layoutOk 0x0 [(0, 3)] = true := by decide
  have f1 : fit [(r.toNat, 0, 3)] := ⟨r.isLt, trivial⟩
  have key : ∀ ww xx : Nat, ww / 2 ^ 28 % 16 = 11 → ww / 2 ^ 24 % 16 = 15 → zf xx 3 29 = true → bv 6 ww 18 = d → bv 4 ww 14 = c → bv 6 ww 8 = x → bv 6 ww 2 = s → bv 2 ww 0 = e → bv 3 xx 0 = r → decodeSlot ww xx 0 = .ok (.afadd d c x s e r : Instr) := by
    intro ww xx h0 h1 h2 h3 h4 h5 h6 h7 h8
    simp only [decodeSlot, decodeRowB, h0, h1, h2, h3, h4, h5, h6, h7, h8, if_true]
  exact two (i := (.afadd d c x s e r : Instr)) rfl (key (enc 0xbf000000 [(d.toNat, 18), (c.toNat, 14), (x.toNat, 8), (s.toNat, 2), (e.toNat, 0)]) (enc 0x0 [(r.toNat, 0)])
    (enc_rest k0 f0 28 4 rfl)
    (enc_rest k0 f0 24 4 rfl)
    (zf_eq (enc_rest k1 f1 3 29 rfl))
    (bv_eq (enc_field k0 f0 0 _ _ _ rfl))
    (bv_eq (enc_field k0 f0 1 _ _ _ rfl))
    (bv_eq (enc_field k0 f0 2 _ _ _ rfl))
    (bv_eq (enc_field k0 f0 3 _ _ _ rfl))
    (bv_eq (enc_field k0 f0 4 _ _ _ rfl))
    (bv_eq (enc_field k1 f1 0 _ _ _ rfl)))

theorem rel (s) : Statement (.rel s : Instr) := by
  have k0 : layoutOk 0xc0000000 [(0, 3)] = true := by decide
  have f0 : fit [(s.toNat, 0, 3)] := ⟨s.isLt, trivial⟩
  have key : ∀ ww : Nat, ww / 2 ^ 28 % 16 = 12 → ww / 2 ^ 24 % 16 = 0 → zf ww 3 21 = true → bv 3 ww 0 = s → decodeSlot ww 0 0 = .ok (.rel s : Instr) := by
    intro ww h0 h1 h2 h3
    simp only [decodeSlot, decodeRowC, h0, h1, h2, h3, if_true]
  exact one (i := (.rel s : Instr)) rfl (key (enc 0xc0000000 [(s.toNat, 0)])
    (enc_rest k0 f0 28 4 rfl)
    (enc_rest k0 f0 24 4 rfl)
    (zf_eq (enc_rest k0 f0 3 21 rfl))
    (bv_eq (enc_field k0 f0 0 _ _ _ rfl)))

theorem acq (s) : Statement (.acq s : Instr) := by
  have k0 : layoutOk 0xc1000000 [(0, 3)] = true := by decide
  have f0 : fit [(s.toNat, 0, 3)] := ⟨s.isLt, trivial⟩
  have key : ∀ ww : Nat, ww / 2 ^ 28 % 16 = 12 → ww / 2 ^ 24 % 16 = 1 → zf ww 3 21 = true → bv 3 ww 0 = s → decodeSlot ww 0 0 = .ok (.acq s : Instr) := by
    intro ww h0 h1 h2 h3
    simp only [decodeSlot, decodeRowC, h0, h1, h2, h3, if_true]
  exact one (i := (.acq s : Instr)) rfl (key (enc 0xc1000000 [(s.toNat, 0)])
    (enc_rest k0 f0 28 4 rfl)
    (enc_rest k0 f0 24 4 rfl)
    (zf_eq (enc_rest k0 f0 3 21 rfl))
    (bv_eq (enc_field k0 f0 0 _ _ _ rfl)))

theorem phase (s) : Statement (.phase s : Instr) := by
  have k0 : layoutOk 0xc2000000 [(0, 3)] = true := by decide
  have f0 : fit [(s.toNat, 0, 3)] := ⟨s.isLt, trivial⟩
  have key : ∀ ww : Nat, ww / 2 ^ 28 % 16 = 12 → ww / 2 ^ 24 % 16 = 2 → zf ww 3 21 = true → bv 3 ww 0 = s → decodeSlot ww 0 0 = .ok (.phase s : Instr) := by
    intro ww h0 h1 h2 h3
    simp only [decodeSlot, decodeRowC, h0, h1, h2, h3, if_true]
  exact one (i := (.phase s : Instr)) rfl (key (enc 0xc2000000 [(s.toNat, 0)])
    (enc_rest k0 f0 28 4 rfl)
    (enc_rest k0 f0 24 4 rfl)
    (zf_eq (enc_rest k0 f0 3 21 rfl))
    (bv_eq (enc_field k0 f0 0 _ _ _ rfl)))

theorem fence : Statement (.fence : Instr) := by
  have k0 : layoutOk 0xc3000000 [] = true := by decide
  have f0 : fit [] := trivial
  have key : ∀ ww : Nat, ww / 2 ^ 28 % 16 = 12 → ww / 2 ^ 24 % 16 = 3 → zf ww 0 24 = true → decodeSlot ww 0 0 = .ok (.fence : Instr) := by
    intro ww h0 h1 h2
    simp only [decodeSlot, decodeRowC, h0, h1, h2, if_true]
  exact one (i := (.fence : Instr)) rfl (key (enc 0xc3000000 [])
    (enc_rest k0 f0 28 4 rfl)
    (enc_rest k0 f0 24 4 rfl)
    (zf_eq (enc_rest k0 f0 0 24 rfl)))

theorem ifence : Statement (.ifence : Instr) := by
  have k0 : layoutOk 0xc4000000 [] = true := by decide
  have f0 : fit [] := trivial
  have key : ∀ ww : Nat, ww / 2 ^ 28 % 16 = 12 → ww / 2 ^ 24 % 16 = 4 → zf ww 0 24 = true → decodeSlot ww 0 0 = .ok (.ifence : Instr) := by
    intro ww h0 h1 h2
    simp only [decodeSlot, decodeRowC, h0, h1, h2, if_true]
  exact one (i := (.ifence : Instr)) rfl (key (enc 0xc4000000 [])
    (enc_rest k0 f0 28 4 rfl)
    (enc_rest k0 f0 24 4 rfl)
    (zf_eq (enc_rest k0 f0 0 24 rfl)))

theorem qfence (e m) : Statement (.qfence e m : Instr) := by
  have k0 : layoutOk 0xc5000000 [(18, 6), (0, 16)] = true := by decide
  have f0 : fit [(e.toNat, 18, 6), (m.toNat, 0, 16)] := ⟨e.isLt, m.isLt, trivial⟩
  have key : ∀ ww : Nat, ww / 2 ^ 28 % 16 = 12 → ww / 2 ^ 24 % 16 = 5 → zf ww 16 2 = true → bv 6 ww 18 = e → bv 16 ww 0 = m → decodeSlot ww 0 0 = .ok (.qfence e m : Instr) := by
    intro ww h0 h1 h2 h3 h4
    simp only [decodeSlot, decodeRowC, h0, h1, h2, h3, h4, if_true]
  exact one (i := (.qfence e m : Instr)) rfl (key (enc 0xc5000000 [(e.toNat, 18), (m.toNat, 0)])
    (enc_rest k0 f0 28 4 rfl)
    (enc_rest k0 f0 24 4 rfl)
    (zf_eq (enc_rest k0 f0 16 2 rfl))
    (bv_eq (enc_field k0 f0 0 _ _ _ rfl))
    (bv_eq (enc_field k0 f0 1 _ _ _ rfl)))

theorem bar (l n) : Statement (.bar l n : Instr) := by
  have k0 : layoutOk 0xc6000000 [(8, 4), (0, 8)] = true := by decide
  have f0 : fit [(l.toNat, 8, 4), (n.toNat, 0, 8)] := ⟨l.isLt, n.isLt, trivial⟩
  have key : ∀ ww : Nat, ww / 2 ^ 28 % 16 = 12 → ww / 2 ^ 24 % 16 = 6 → zf ww 12 12 = true → bv 4 ww 8 = l → bv 8 ww 0 = n → decodeSlot ww 0 0 = .ok (.bar l n : Instr) := by
    intro ww h0 h1 h2 h3 h4
    simp only [decodeSlot, decodeRowC, h0, h1, h2, h3, h4, if_true]
  exact one (i := (.bar l n : Instr)) rfl (key (enc 0xc6000000 [(l.toNat, 8), (n.toNat, 0)])
    (enc_rest k0 f0 28 4 rfl)
    (enc_rest k0 f0 24 4 rfl)
    (zf_eq (enc_rest k0 f0 12 12 rfl))
    (bv_eq (enc_field k0 f0 0 _ _ _ rfl))
    (bv_eq (enc_field k0 f0 1 _ _ _ rfl)))

theorem bara (l n) : Statement (.bara l n : Instr) := by
  have k0 : layoutOk 0xc7000000 [(8, 4), (0, 8)] = true := by decide
  have f0 : fit [(l.toNat, 8, 4), (n.toNat, 0, 8)] := ⟨l.isLt, n.isLt, trivial⟩
  have key : ∀ ww : Nat, ww / 2 ^ 28 % 16 = 12 → ww / 2 ^ 24 % 16 = 7 → zf ww 12 12 = true → bv 4 ww 8 = l → bv 8 ww 0 = n → decodeSlot ww 0 0 = .ok (.bara l n : Instr) := by
    intro ww h0 h1 h2 h3 h4
    simp only [decodeSlot, decodeRowC, h0, h1, h2, h3, h4, if_true]
  exact one (i := (.bara l n : Instr)) rfl (key (enc 0xc7000000 [(l.toNat, 8), (n.toNat, 0)])
    (enc_rest k0 f0 28 4 rfl)
    (enc_rest k0 f0 24 4 rfl)
    (zf_eq (enc_rest k0 f0 12 12 rfl))
    (bv_eq (enc_field k0 f0 0 _ _ _ rfl))
    (bv_eq (enc_field k0 f0 1 _ _ _ rfl)))

theorem barw (l n) : Statement (.barw l n : Instr) := by
  have k0 : layoutOk 0xc8000000 [(8, 4), (0, 8)] = true := by decide
  have f0 : fit [(l.toNat, 8, 4), (n.toNat, 0, 8)] := ⟨l.isLt, n.isLt, trivial⟩
  have key : ∀ ww : Nat, ww / 2 ^ 28 % 16 = 12 → ww / 2 ^ 24 % 16 = 8 → zf ww 12 12 = true → bv 4 ww 8 = l → bv 8 ww 0 = n → decodeSlot ww 0 0 = .ok (.barw l n : Instr) := by
    intro ww h0 h1 h2 h3 h4
    simp only [decodeSlot, decodeRowC, h0, h1, h2, h3, h4, if_true]
  exact one (i := (.barw l n : Instr)) rfl (key (enc 0xc8000000 [(l.toNat, 8), (n.toNat, 0)])
    (enc_rest k0 f0 28 4 rfl)
    (enc_rest k0 f0 24 4 rfl)
    (zf_eq (enc_rest k0 f0 12 12 rfl))
    (bv_eq (enc_field k0 f0 0 _ _ _ rfl))
    (bv_eq (enc_field k0 f0 1 _ _ _ rfl)))

theorem waitm (k c x s e) : Statement (.waitm k c x s e : Instr) := by
  have k0 : layoutOk 0xc9000000 [(18, 2), (14, 4), (8, 6), (2, 6), (0, 2)] = true := by decide
  have f0 : fit [(k.toNat, 18, 2), (c.toNat, 14, 4), (x.toNat, 8, 6), (s.toNat, 2, 6), (e.toNat, 0, 2)] := ⟨k.isLt, c.isLt, x.isLt, s.isLt, e.isLt, trivial⟩
  have key : ∀ ww : Nat, ww / 2 ^ 28 % 16 = 12 → ww / 2 ^ 24 % 16 = 9 → zf ww 20 4 = true → bv 2 ww 18 = k → bv 4 ww 14 = c → bv 6 ww 8 = x → bv 6 ww 2 = s → bv 2 ww 0 = e → decodeSlot ww 0 0 = .ok (.waitm k c x s e : Instr) := by
    intro ww h0 h1 h2 h3 h4 h5 h6 h7
    simp only [decodeSlot, decodeRowC, h0, h1, h2, h3, h4, h5, h6, h7, if_true]
  exact one (i := (.waitm k c x s e : Instr)) rfl (key (enc 0xc9000000 [(k.toNat, 18), (c.toNat, 14), (x.toNat, 8), (s.toNat, 2), (e.toNat, 0)])
    (enc_rest k0 f0 28 4 rfl)
    (enc_rest k0 f0 24 4 rfl)
    (zf_eq (enc_rest k0 f0 20 4 rfl))
    (bv_eq (enc_field k0 f0 0 _ _ _ rfl))
    (bv_eq (enc_field k0 f0 1 _ _ _ rfl))
    (bv_eq (enc_field k0 f0 2 _ _ _ rfl))
    (bv_eq (enc_field k0 f0 3 _ _ _ rfl))
    (bv_eq (enc_field k0 f0 4 _ _ _ rfl)))

theorem notify (t c x i) : Statement (.notify t c x i : Instr) := by
  have k0 : layoutOk 0xca000000 [(18, 6), (14, 4), (8, 6), (0, 8)] = true := by decide
  have f0 : fit [(t.toNat, 18, 6), (c.toNat, 14, 4), (x.toNat, 8, 6), (i.toNat, 0, 8)] := ⟨t.isLt, c.isLt, x.isLt, i.isLt, trivial⟩
  have key : ∀ ww : Nat, ww / 2 ^ 28 % 16 = 12 → ww / 2 ^ 24 % 16 = 10 → bv 6 ww 18 = t → bv 4 ww 14 = c → bv 6 ww 8 = x → bv 8 ww 0 = i → decodeSlot ww 0 0 = .ok (.notify t c x i : Instr) := by
    intro ww h0 h1 h2 h3 h4 h5
    simp only [decodeSlot, decodeRowC, h0, h1, h2, h3, h4, h5]
  exact one (i := (.notify t c x i : Instr)) rfl (key (enc 0xca000000 [(t.toNat, 18), (c.toNat, 14), (x.toNat, 8), (i.toNat, 0)])
    (enc_rest k0 f0 28 4 rfl)
    (enc_rest k0 f0 24 4 rfl)
    (bv_eq (enc_field k0 f0 0 _ _ _ rfl))
    (bv_eq (enc_field k0 f0 1 _ _ _ rfl))
    (bv_eq (enc_field k0 f0 2 _ _ _ rfl))
    (bv_eq (enc_field k0 f0 3 _ _ _ rfl)))

theorem waitt (d a) : Statement (.waitt d a : Instr) := by
  have k0 : layoutOk 0xcb000000 [(18, 6), (12, 5)] = true := by decide
  have f0 : fit [(d.toNat, 18, 6), (a.toNat, 12, 5)] := ⟨d.isLt, a.isLt, trivial⟩
  have key : ∀ ww : Nat, ww / 2 ^ 28 % 16 = 12 → ww / 2 ^ 24 % 16 = 11 → zf ww 0 12 = true → zf ww 17 1 = true → bv 6 ww 18 = d → bv 5 ww 12 = a → decodeSlot ww 0 0 = .ok (.waitt d a : Instr) := by
    intro ww h0 h1 h2 h3 h4 h5
    simp only [decodeSlot, decodeRowC, h0, h1, h2, h3, h4, h5, Bool.and_self, if_true]
  exact one (i := (.waitt d a : Instr)) rfl (key (enc 0xcb000000 [(d.toNat, 18), (a.toNat, 12)])
    (enc_rest k0 f0 28 4 rfl)
    (enc_rest k0 f0 24 4 rfl)
    (zf_eq (enc_rest k0 f0 0 12 rfl))
    (zf_eq (enc_rest k0 f0 17 1 rfl))
    (bv_eq (enc_field k0 f0 0 _ _ _ rfl))
    (bv_eq (enc_field k0 f0 1 _ _ _ rfl)))

theorem sleep (i) : Statement (.sleep i : Instr) := by
  have k0 : layoutOk 0xcc000000 [(0, 12)] = true := by decide
  have f0 : fit [(i.toNat, 0, 12)] := ⟨i.isLt, trivial⟩
  have key : ∀ ww : Nat, ww / 2 ^ 28 % 16 = 12 → ww / 2 ^ 24 % 16 = 12 → zf ww 12 12 = true → bv 12 ww 0 = i → decodeSlot ww 0 0 = .ok (.sleep i : Instr) := by
    intro ww h0 h1 h2 h3
    simp only [decodeSlot, decodeRowC, h0, h1, h2, h3, if_true]
  exact one (i := (.sleep i : Instr)) rfl (key (enc 0xcc000000 [(i.toNat, 0)])
    (enc_rest k0 f0 28 4 rfl)
    (enc_rest k0 f0 24 4 rfl)
    (zf_eq (enc_rest k0 f0 12 12 rfl))
    (bv_eq (enc_field k0 f0 0 _ _ _ rfl)))

theorem handle (k m h j) : Statement (.handle k m h j : Instr) := by
  have k0 : layoutOk 0xd0000000 [(12, 12), (0, 12)] = true := by decide
  have f0 : fit [(k.toNat, 12, 12), (m.toNat, 0, 12)] := ⟨k.isLt, m.isLt, trivial⟩
  have k1 : layoutOk 0x0 [(16, 16), (0, 16)] = true := by decide
  have f1 : fit [(h.toNat, 16, 16), (j.toNat, 0, 16)] := ⟨h.isLt, j.isLt, trivial⟩
  have key : ∀ ww xx : Nat, ww / 2 ^ 28 % 16 = 13 → ww / 2 ^ 24 % 16 = 0 → bv 12 ww 12 = k → bv 12 ww 0 = m → bv 16 xx 16 = h → bv 16 xx 0 = j → decodeSlot ww xx 0 = .ok (.handle k m h j : Instr) := by
    intro ww xx h0 h1 h2 h3 h4 h5
    simp only [decodeSlot, decodeRowD, h0, h1, h2, h3, h4, h5]
  exact two (i := (.handle k m h j : Instr)) rfl (key (enc 0xd0000000 [(k.toNat, 12), (m.toNat, 0)]) (enc 0x0 [(h.toNat, 16), (j.toNat, 0)])
    (enc_rest k0 f0 28 4 rfl)
    (enc_rest k0 f0 24 4 rfl)
    (bv_eq (enc_field k0 f0 0 _ _ _ rfl))
    (bv_eq (enc_field k0 f0 1 _ _ _ rfl))
    (bv_eq (enc_field k1 f1 0 _ _ _ rfl))
    (bv_eq (enc_field k1 f1 1 _ _ _ rfl)))

theorem unhandle : Statement (.unhandle : Instr) := by
  have k0 : layoutOk 0xd1000000 [] = true := by decide
  have f0 : fit [] := trivial
  have key : ∀ ww : Nat, ww / 2 ^ 28 % 16 = 13 → ww / 2 ^ 24 % 16 = 1 → zf ww 0 24 = true → decodeSlot ww 0 0 = .ok (.unhandle : Instr) := by
    intro ww h0 h1 h2
    simp only [decodeSlot, decodeRowD, h0, h1, h2, if_true]
  exact one (i := (.unhandle : Instr)) rfl (key (enc 0xd1000000 [])
    (enc_rest k0 f0 28 4 rfl)
    (enc_rest k0 f0 24 4 rfl)
    (zf_eq (enc_rest k0 f0 0 24 rfl)))

theorem perform (t a) : Statement (.perform t a : Instr) := by
  have k0 : layoutOk 0xd2000000 [(12, 12), (6, 6)] = true := by decide
  have f0 : fit [(t.toNat, 12, 12), (a.toNat, 6, 6)] := ⟨t.isLt, a.isLt, trivial⟩
  have key : ∀ ww : Nat, ww / 2 ^ 28 % 16 = 13 → ww / 2 ^ 24 % 16 = 2 → zf ww 0 6 = true → bv 12 ww 12 = t → bv 6 ww 6 = a → decodeSlot ww 0 0 = .ok (.perform t a : Instr) := by
    intro ww h0 h1 h2 h3 h4
    simp only [decodeSlot, decodeRowD, h0, h1, h2, h3, h4, if_true]
  exact one (i := (.perform t a : Instr)) rfl (key (enc 0xd2000000 [(t.toNat, 12), (a.toNat, 6)])
    (enc_rest k0 f0 28 4 rfl)
    (enc_rest k0 f0 24 4 rfl)
    (zf_eq (enc_rest k0 f0 0 6 rfl))
    (bv_eq (enc_field k0 f0 0 _ _ _ rfl))
    (bv_eq (enc_field k0 f0 1 _ _ _ rfl)))

theorem performr (a b) : Statement (.performr a b : Instr) := by
  have k0 : layoutOk 0xd3000000 [(12, 6), (6, 6)] = true := by decide
  have f0 : fit [(a.toNat, 12, 6), (b.toNat, 6, 6)] := ⟨a.isLt, b.isLt, trivial⟩
  have key : ∀ ww : Nat, ww / 2 ^ 28 % 16 = 13 → ww / 2 ^ 24 % 16 = 3 → zf ww 0 6 = true → zf ww 18 6 = true → bv 6 ww 12 = a → bv 6 ww 6 = b → decodeSlot ww 0 0 = .ok (.performr a b : Instr) := by
    intro ww h0 h1 h2 h3 h4 h5
    simp only [decodeSlot, decodeRowD, h0, h1, h2, h3, h4, h5, Bool.and_self, if_true]
  exact one (i := (.performr a b : Instr)) rfl (key (enc 0xd3000000 [(a.toNat, 12), (b.toNat, 6)])
    (enc_rest k0 f0 28 4 rfl)
    (enc_rest k0 f0 24 4 rfl)
    (zf_eq (enc_rest k0 f0 0 6 rfl))
    (zf_eq (enc_rest k0 f0 18 6 rfl))
    (bv_eq (enc_field k0 f0 0 _ _ _ rfl))
    (bv_eq (enc_field k0 f0 1 _ _ _ rfl)))

theorem resume (a b t) : Statement (.resume a b t : Instr) := by
  have k0 : layoutOk 0xd4000000 [(12, 4), (6, 6), (0, 1)] = true := by decide
  have f0 : fit [(a.toNat, 12, 4), (b.toNat, 6, 6), (b2n t, 0, 1)] := ⟨a.isLt, b.isLt, b2n_lt t, trivial⟩
  have key : ∀ ww : Nat, ww / 2 ^ 28 % 16 = 13 → ww / 2 ^ 24 % 16 = 4 → zf ww 1 5 = true → zf ww 16 8 = true → bv 4 ww 12 = a → bv 6 ww 6 = b → bit ww 0 = t → decodeSlot ww 0 0 = .ok (.resume a b t : Instr) := by
    intro ww h0 h1 h2 h3 h4 h5 h6
    simp only [decodeSlot, decodeRowD, h0, h1, h2, h3, h4, h5, h6, Bool.and_self, if_true]
  exact one (i := (.resume a b t : Instr)) rfl (key (enc 0xd4000000 [(a.toNat, 12), (b.toNat, 6), (b2n t, 0)])
    (enc_rest k0 f0 28 4 rfl)
    (enc_rest k0 f0 24 4 rfl)
    (zf_eq (enc_rest k0 f0 1 5 rfl))
    (zf_eq (enc_rest k0 f0 16 8 rfl))
    (bv_eq (enc_field k0 f0 0 _ _ _ rfl))
    (bv_eq (enc_field k0 f0 1 _ _ _ rfl))
    (bit_eq (enc_field k0 f0 2 _ _ _ rfl)))

theorem resumex (t a b c) : Statement (.resumex t a b c : Instr) := by
  have k0 : layoutOk 0xd5000000 [(18, 1), (12, 4), (6, 6), (0, 6)] = true := by decide
  have f0 : fit [(b2n t, 18, 1), (a.toNat, 12, 4), (b.toNat, 6, 6), (c.toNat, 0, 6)] := ⟨b2n_lt t, a.isLt, b.isLt, c.isLt, trivial⟩
  have key : ∀ ww : Nat, ww / 2 ^ 28 % 16 = 13 → ww / 2 ^ 24 % 16 = 5 → zf ww 16 2 = true → zf ww 19 5 = true → bit ww 18 = t → bv 4 ww 12 = a → bv 6 ww 6 = b → bv 6 ww 0 = c → decodeSlot ww 0 0 = .ok (.resumex t a b c : Instr) := by
    intro ww h0 h1 h2 h3 h4 h5 h6 h7
    simp only [decodeSlot, decodeRowD, h0, h1, h2, h3, h4, h5, h6, h7, Bool.and_self, if_true]
  exact one (i := (.resumex t a b c : Instr)) rfl (key (enc 0xd5000000 [(b2n t, 18), (a.toNat, 12), (b.toNat, 6), (c.toNat, 0)])
    (enc_rest k0 f0 28 4 rfl)
    (enc_rest k0 f0 24 4 rfl)
    (zf_eq (enc_rest k0 f0 16 2 rfl))
    (zf_eq (enc_rest k0 f0 19 5 rfl))
    (bit_eq (enc_field k0 f0 0 _ _ _ rfl))
    (bv_eq (enc_field k0 f0 1 _ _ _ rfl))
    (bv_eq (enc_field k0 f0 2 _ _ _ rfl))
    (bv_eq (enc_field k0 f0 3 _ _ _ rfl)))

theorem discard (a) : Statement (.discard a : Instr) := by
  have k0 : layoutOk 0xd6000000 [(12, 4)] = true := by decide
  have f0 : fit [(a.toNat, 12, 4)] := ⟨a.isLt, trivial⟩
  have key : ∀ ww : Nat, ww / 2 ^ 28 % 16 = 13 → ww / 2 ^ 24 % 16 = 6 → zf ww 0 12 = true → zf ww 16 8 = true → bv 4 ww 12 = a → decodeSlot ww 0 0 = .ok (.discard a : Instr) := by
    intro ww h0 h1 h2 h3 h4
    simp only [decodeSlot, decodeRowD, h0, h1, h2, h3, h4, Bool.and_self, if_true]
  exact one (i := (.discard a : Instr)) rfl (key (enc 0xd6000000 [(a.toNat, 12)])
    (enc_rest k0 f0 28 4 rfl)
    (enc_rest k0 f0 24 4 rfl)
    (zf_eq (enc_rest k0 f0 0 12 rfl))
    (zf_eq (enc_rest k0 f0 16 8 rfl))
    (bv_eq (enc_field k0 f0 0 _ _ _ rfl)))

theorem hret (a) : Statement (.hret a : Instr) := by
  have k0 : layoutOk 0xd7000000 [(12, 6)] = true := by decide
  have f0 : fit [(a.toNat, 12, 6)] := ⟨a.isLt, trivial⟩
  have key : ∀ ww : Nat, ww / 2 ^ 28 % 16 = 13 → ww / 2 ^ 24 % 16 = 7 → zf ww 0 12 = true → zf ww 18 6 = true → bv 6 ww 12 = a → decodeSlot ww 0 0 = .ok (.hret a : Instr) := by
    intro ww h0 h1 h2 h3 h4
    simp only [decodeSlot, decodeRowD, h0, h1, h2, h3, h4, Bool.and_self, if_true]
  exact one (i := (.hret a : Instr)) rfl (key (enc 0xd7000000 [(a.toNat, 12)])
    (enc_rest k0 f0 28 4 rfl)
    (enc_rest k0 f0 24 4 rfl)
    (zf_eq (enc_rest k0 f0 0 12 rfl))
    (zf_eq (enc_rest k0 f0 18 6 rfl))
    (bv_eq (enc_field k0 f0 0 _ _ _ rfl)))

theorem spawn (d a b c) : Statement (.spawn d a b c : Instr) := by
  have k0 : layoutOk 0xd8000000 [(18, 4), (12, 4), (6, 6), (0, 6)] = true := by decide
  have f0 : fit [(d.toNat, 18, 4), (a.toNat, 12, 4), (b.toNat, 6, 6), (c.toNat, 0, 6)] := ⟨d.isLt, a.isLt, b.isLt, c.isLt, trivial⟩
  have key : ∀ ww : Nat, ww / 2 ^ 28 % 16 = 13 → ww / 2 ^ 24 % 16 = 8 → zf ww 16 2 = true → zf ww 22 2 = true → bv 4 ww 18 = d → bv 4 ww 12 = a → bv 6 ww 6 = b → bv 6 ww 0 = c → decodeSlot ww 0 0 = .ok (.spawn d a b c : Instr) := by
    intro ww h0 h1 h2 h3 h4 h5 h6 h7
    simp only [decodeSlot, decodeRowD, h0, h1, h2, h3, h4, h5, h6, h7, Bool.and_self, if_true]
  exact one (i := (.spawn d a b c : Instr)) rfl (key (enc 0xd8000000 [(d.toNat, 18), (a.toNat, 12), (b.toNat, 6), (c.toNat, 0)])
    (enc_rest k0 f0 28 4 rfl)
    (enc_rest k0 f0 24 4 rfl)
    (zf_eq (enc_rest k0 f0 16 2 rfl))
    (zf_eq (enc_rest k0 f0 22 2 rfl))
    (bv_eq (enc_field k0 f0 0 _ _ _ rfl))
    (bv_eq (enc_field k0 f0 1 _ _ _ rfl))
    (bv_eq (enc_field k0 f0 2 _ _ _ rfl))
    (bv_eq (enc_field k0 f0 3 _ _ _ rfl)))

theorem cmigr (g q c x m) : Statement (.cmigr g q c x m : Instr) := by
  have k0 : layoutOk 0xd9000000 [(19, 5), (14, 5), (10, 4), (4, 6), (0, 4)] = true := by decide
  have f0 : fit [(g.toNat, 19, 5), (q.toNat, 14, 5), (c.toNat, 10, 4), (x.toNat, 4, 6), (m.toNat, 0, 4)] := ⟨g.isLt, q.isLt, c.isLt, x.isLt, m.isLt, trivial⟩
  have key : ∀ ww : Nat, ww / 2 ^ 28 % 16 = 13 → ww / 2 ^ 24 % 16 = 9 → bv 5 ww 19 = g → bv 5 ww 14 = q → bv 4 ww 10 = c → bv 6 ww 4 = x → bv 4 ww 0 = m → decodeSlot ww 0 0 = .ok (.cmigr g q c x m : Instr) := by
    intro ww h0 h1 h2 h3 h4 h5 h6
    simp only [decodeSlot, decodeRowD, h0, h1, h2, h3, h4, h5, h6]
  exact one (i := (.cmigr g q c x m : Instr)) rfl (key (enc 0xd9000000 [(g.toNat, 19), (q.toNat, 14), (c.toNat, 10), (x.toNat, 4), (m.toNat, 0)])
    (enc_rest k0 f0 28 4 rfl)
    (enc_rest k0 f0 24 4 rfl)
    (bv_eq (enc_field k0 f0 0 _ _ _ rfl))
    (bv_eq (enc_field k0 f0 1 _ _ _ rfl))
    (bv_eq (enc_field k0 f0 2 _ _ _ rfl))
    (bv_eq (enc_field k0 f0 3 _ _ _ rfl))
    (bv_eq (enc_field k0 f0 4 _ _ _ rfl)))

theorem mma (g q c x) : Statement (.mma g q c x : Instr) := by
  have k0 : layoutOk 0xe0000000 [(19, 5), (14, 2), (10, 4), (4, 6)] = true := by decide
  have f0 : fit [(g.toNat, 19, 5), (q.toNat, 14, 2), (c.toNat, 10, 4), (x.toNat, 4, 6)] := ⟨g.isLt, q.isLt, c.isLt, x.isLt, trivial⟩
  have key : ∀ ww : Nat, ww / 2 ^ 28 % 16 = 14 → ww / 2 ^ 24 % 16 = 0 → zf ww 0 4 = true → zf ww 16 3 = true → bv 5 ww 19 = g → bv 2 ww 14 = q → bv 4 ww 10 = c → bv 6 ww 4 = x → decodeSlot ww 0 0 = .ok (.mma g q c x : Instr) := by
    intro ww h0 h1 h2 h3 h4 h5 h6 h7
    simp only [decodeSlot, decodeRowE, h0, h1, h2, h3, h4, h5, h6, h7, Bool.and_self, if_true]
  exact one (i := (.mma g q c x : Instr)) rfl (key (enc 0xe0000000 [(g.toNat, 19), (q.toNat, 14), (c.toNat, 10), (x.toNat, 4)])
    (enc_rest k0 f0 28 4 rfl)
    (enc_rest k0 f0 24 4 rfl)
    (zf_eq (enc_rest k0 f0 0 4 rfl))
    (zf_eq (enc_rest k0 f0 16 3 rfl))
    (bv_eq (enc_field k0 f0 0 _ _ _ rfl))
    (bv_eq (enc_field k0 f0 1 _ _ _ rfl))
    (bv_eq (enc_field k0 f0 2 _ _ _ rfl))
    (bv_eq (enc_field k0 f0 3 _ _ _ rfl)))

theorem mzero (g q c x) : Statement (.mzero g q c x : Instr) := by
  have k0 : layoutOk 0xe1000000 [(19, 5), (14, 2), (10, 4), (4, 6)] = true := by decide
  have f0 : fit [(g.toNat, 19, 5), (q.toNat, 14, 2), (c.toNat, 10, 4), (x.toNat, 4, 6)] := ⟨g.isLt, q.isLt, c.isLt, x.isLt, trivial⟩
  have key : ∀ ww : Nat, ww / 2 ^ 28 % 16 = 14 → ww / 2 ^ 24 % 16 = 1 → zf ww 0 4 = true → zf ww 16 3 = true → bv 5 ww 19 = g → bv 2 ww 14 = q → bv 4 ww 10 = c → bv 6 ww 4 = x → decodeSlot ww 0 0 = .ok (.mzero g q c x : Instr) := by
    intro ww h0 h1 h2 h3 h4 h5 h6 h7
    simp only [decodeSlot, decodeRowE, h0, h1, h2, h3, h4, h5, h6, h7, Bool.and_self, if_true]
  exact one (i := (.mzero g q c x : Instr)) rfl (key (enc 0xe1000000 [(g.toNat, 19), (q.toNat, 14), (c.toNat, 10), (x.toNat, 4)])
    (enc_rest k0 f0 28 4 rfl)
    (enc_rest k0 f0 24 4 rfl)
    (zf_eq (enc_rest k0 f0 0 4 rfl))
    (zf_eq (enc_rest k0 f0 16 3 rfl))
    (bv_eq (enc_field k0 f0 0 _ _ _ rfl))
    (bv_eq (enc_field k0 f0 1 _ _ _ rfl))
    (bv_eq (enc_field k0 f0 2 _ _ _ rfl))
    (bv_eq (enc_field k0 f0 3 _ _ _ rfl)))

theorem mdrain (g q c x t r) : Statement (.mdrain g q c x t r : Instr) := by
  have k0 : layoutOk 0xe2000000 [(19, 5), (14, 2), (10, 4), (4, 6), (3, 1), (0, 3)] = true := by decide
  have f0 : fit [(g.toNat, 19, 5), (q.toNat, 14, 2), (c.toNat, 10, 4), (x.toNat, 4, 6), (b2n t, 3, 1), (r.toNat, 0, 3)] := ⟨g.isLt, q.isLt, c.isLt, x.isLt, b2n_lt t, r.isLt, trivial⟩
  have key : ∀ ww : Nat, ww / 2 ^ 28 % 16 = 14 → ww / 2 ^ 24 % 16 = 2 → zf ww 16 3 = true → bv 5 ww 19 = g → bv 2 ww 14 = q → bv 4 ww 10 = c → bv 6 ww 4 = x → bit ww 3 = t → bv 3 ww 0 = r → decodeSlot ww 0 0 = .ok (.mdrain g q c x t r : Instr) := by
    intro ww h0 h1 h2 h3 h4 h5 h6 h7 h8
    simp only [decodeSlot, decodeRowE, h0, h1, h2, h3, h4, h5, h6, h7, h8, if_true]
  exact one (i := (.mdrain g q c x t r : Instr)) rfl (key (enc 0xe2000000 [(g.toNat, 19), (q.toNat, 14), (c.toNat, 10), (x.toNat, 4), (b2n t, 3), (r.toNat, 0)])
    (enc_rest k0 f0 28 4 rfl)
    (enc_rest k0 f0 24 4 rfl)
    (zf_eq (enc_rest k0 f0 16 3 rfl))
    (bv_eq (enc_field k0 f0 0 _ _ _ rfl))
    (bv_eq (enc_field k0 f0 1 _ _ _ rfl))
    (bv_eq (enc_field k0 f0 2 _ _ _ rfl))
    (bv_eq (enc_field k0 f0 3 _ _ _ rfl))
    (bit_eq (enc_field k0 f0 4 _ _ _ rfl))
    (bv_eq (enc_field k0 f0 5 _ _ _ rfl)))

theorem copy (g q c x r s) : Statement (.copy g q c x r s : Instr) := by
  have k0 : layoutOk 0xe3000000 [(19, 5), (14, 4), (10, 4), (4, 6), (3, 1), (0, 3)] = true := by decide
  have f0 : fit [(g.toNat, 19, 5), (q.toNat, 14, 4), (c.toNat, 10, 4), (x.toNat, 4, 6), (b2n r, 3, 1), (s.toNat, 0, 3)] := ⟨g.isLt, q.isLt, c.isLt, x.isLt, b2n_lt r, s.isLt, trivial⟩
  have key : ∀ ww : Nat, ww / 2 ^ 28 % 16 = 14 → ww / 2 ^ 24 % 16 = 3 → zf ww 18 1 = true → bv 5 ww 19 = g → bv 4 ww 14 = q → bv 4 ww 10 = c → bv 6 ww 4 = x → bit ww 3 = r → bv 3 ww 0 = s → decodeSlot ww 0 0 = .ok (.copy g q c x r s : Instr) := by
    intro ww h0 h1 h2 h3 h4 h5 h6 h7 h8
    simp only [decodeSlot, decodeRowE, h0, h1, h2, h3, h4, h5, h6, h7, h8, if_true]
  exact one (i := (.copy g q c x r s : Instr)) rfl (key (enc 0xe3000000 [(g.toNat, 19), (q.toNat, 14), (c.toNat, 10), (x.toNat, 4), (b2n r, 3), (s.toNat, 0)])
    (enc_rest k0 f0 28 4 rfl)
    (enc_rest k0 f0 24 4 rfl)
    (zf_eq (enc_rest k0 f0 18 1 rfl))
    (bv_eq (enc_field k0 f0 0 _ _ _ rfl))
    (bv_eq (enc_field k0 f0 1 _ _ _ rfl))
    (bv_eq (enc_field k0 f0 2 _ _ _ rfl))
    (bv_eq (enc_field k0 f0 3 _ _ _ rfl))
    (bit_eq (enc_field k0 f0 4 _ _ _ rfl))
    (bv_eq (enc_field k0 f0 5 _ _ _ rfl)))

theorem copyt (g q c x r s) : Statement (.copyt g q c x r s : Instr) := by
  have k0 : layoutOk 0xe4000000 [(19, 5), (14, 4), (10, 4), (4, 6), (3, 1), (0, 3)] = true := by decide
  have f0 : fit [(g.toNat, 19, 5), (q.toNat, 14, 4), (c.toNat, 10, 4), (x.toNat, 4, 6), (b2n r, 3, 1), (s.toNat, 0, 3)] := ⟨g.isLt, q.isLt, c.isLt, x.isLt, b2n_lt r, s.isLt, trivial⟩
  have key : ∀ ww : Nat, ww / 2 ^ 28 % 16 = 14 → ww / 2 ^ 24 % 16 = 4 → zf ww 18 1 = true → bv 5 ww 19 = g → bv 4 ww 14 = q → bv 4 ww 10 = c → bv 6 ww 4 = x → bit ww 3 = r → bv 3 ww 0 = s → decodeSlot ww 0 0 = .ok (.copyt g q c x r s : Instr) := by
    intro ww h0 h1 h2 h3 h4 h5 h6 h7 h8
    simp only [decodeSlot, decodeRowE, h0, h1, h2, h3, h4, h5, h6, h7, h8, if_true]
  exact one (i := (.copyt g q c x r s : Instr)) rfl (key (enc 0xe4000000 [(g.toNat, 19), (q.toNat, 14), (c.toNat, 10), (x.toNat, 4), (b2n r, 3), (s.toNat, 0)])
    (enc_rest k0 f0 28 4 rfl)
    (enc_rest k0 f0 24 4 rfl)
    (zf_eq (enc_rest k0 f0 18 1 rfl))
    (bv_eq (enc_field k0 f0 0 _ _ _ rfl))
    (bv_eq (enc_field k0 f0 1 _ _ _ rfl))
    (bv_eq (enc_field k0 f0 2 _ _ _ rfl))
    (bv_eq (enc_field k0 f0 3 _ _ _ rfl))
    (bit_eq (enc_field k0 f0 4 _ _ _ rfl))
    (bv_eq (enc_field k0 f0 5 _ _ _ rfl)))

theorem xput (g q c x r s) : Statement (.xput g q c x r s : Instr) := by
  have k0 : layoutOk 0xe5000000 [(19, 5), (14, 4), (10, 4), (4, 6), (3, 1), (0, 3)] = true := by decide
  have f0 : fit [(g.toNat, 19, 5), (q.toNat, 14, 4), (c.toNat, 10, 4), (x.toNat, 4, 6), (b2n r, 3, 1), (s.toNat, 0, 3)] := ⟨g.isLt, q.isLt, c.isLt, x.isLt, b2n_lt r, s.isLt, trivial⟩
  have key : ∀ ww : Nat, ww / 2 ^ 28 % 16 = 14 → ww / 2 ^ 24 % 16 = 5 → zf ww 18 1 = true → bv 5 ww 19 = g → bv 4 ww 14 = q → bv 4 ww 10 = c → bv 6 ww 4 = x → bit ww 3 = r → bv 3 ww 0 = s → decodeSlot ww 0 0 = .ok (.xput g q c x r s : Instr) := by
    intro ww h0 h1 h2 h3 h4 h5 h6 h7 h8
    simp only [decodeSlot, decodeRowE, h0, h1, h2, h3, h4, h5, h6, h7, h8, if_true]
  exact one (i := (.xput g q c x r s : Instr)) rfl (key (enc 0xe5000000 [(g.toNat, 19), (q.toNat, 14), (c.toNat, 10), (x.toNat, 4), (b2n r, 3), (s.toNat, 0)])
    (enc_rest k0 f0 28 4 rfl)
    (enc_rest k0 f0 24 4 rfl)
    (zf_eq (enc_rest k0 f0 18 1 rfl))
    (bv_eq (enc_field k0 f0 0 _ _ _ rfl))
    (bv_eq (enc_field k0 f0 1 _ _ _ rfl))
    (bv_eq (enc_field k0 f0 2 _ _ _ rfl))
    (bv_eq (enc_field k0 f0 3 _ _ _ rfl))
    (bit_eq (enc_field k0 f0 4 _ _ _ rfl))
    (bv_eq (enc_field k0 f0 5 _ _ _ rfl)))

theorem xget (g q c x r s) : Statement (.xget g q c x r s : Instr) := by
  have k0 : layoutOk 0xe6000000 [(19, 5), (14, 4), (10, 4), (4, 6), (3, 1), (0, 3)] = true := by decide
  have f0 : fit [(g.toNat, 19, 5), (q.toNat, 14, 4), (c.toNat, 10, 4), (x.toNat, 4, 6), (b2n r, 3, 1), (s.toNat, 0, 3)] := ⟨g.isLt, q.isLt, c.isLt, x.isLt, b2n_lt r, s.isLt, trivial⟩
  have key : ∀ ww : Nat, ww / 2 ^ 28 % 16 = 14 → ww / 2 ^ 24 % 16 = 6 → zf ww 18 1 = true → bv 5 ww 19 = g → bv 4 ww 14 = q → bv 4 ww 10 = c → bv 6 ww 4 = x → bit ww 3 = r → bv 3 ww 0 = s → decodeSlot ww 0 0 = .ok (.xget g q c x r s : Instr) := by
    intro ww h0 h1 h2 h3 h4 h5 h6 h7 h8
    simp only [decodeSlot, decodeRowE, h0, h1, h2, h3, h4, h5, h6, h7, h8, if_true]
  exact one (i := (.xget g q c x r s : Instr)) rfl (key (enc 0xe6000000 [(g.toNat, 19), (q.toNat, 14), (c.toNat, 10), (x.toNat, 4), (b2n r, 3), (s.toNat, 0)])
    (enc_rest k0 f0 28 4 rfl)
    (enc_rest k0 f0 24 4 rfl)
    (zf_eq (enc_rest k0 f0 18 1 rfl))
    (bv_eq (enc_field k0 f0 0 _ _ _ rfl))
    (bv_eq (enc_field k0 f0 1 _ _ _ rfl))
    (bv_eq (enc_field k0 f0 2 _ _ _ rfl))
    (bv_eq (enc_field k0 f0 3 _ _ _ rfl))
    (bit_eq (enc_field k0 f0 4 _ _ _ rfl))
    (bv_eq (enc_field k0 f0 5 _ _ _ rfl)))

theorem dpost (g q c x) : Statement (.dpost g q c x : Instr) := by
  have k0 : layoutOk 0xe7000000 [(19, 5), (14, 4), (10, 4), (4, 6)] = true := by decide
  have f0 : fit [(g.toNat, 19, 5), (q.toNat, 14, 4), (c.toNat, 10, 4), (x.toNat, 4, 6)] := ⟨g.isLt, q.isLt, c.isLt, x.isLt, trivial⟩
  have key : ∀ ww : Nat, ww / 2 ^ 28 % 16 = 14 → ww / 2 ^ 24 % 16 = 7 → zf ww 0 4 = true → zf ww 18 1 = true → bv 5 ww 19 = g → bv 4 ww 14 = q → bv 4 ww 10 = c → bv 6 ww 4 = x → decodeSlot ww 0 0 = .ok (.dpost g q c x : Instr) := by
    intro ww h0 h1 h2 h3 h4 h5 h6 h7
    simp only [decodeSlot, decodeRowE, h0, h1, h2, h3, h4, h5, h6, h7, Bool.and_self, if_true]
  exact one (i := (.dpost g q c x : Instr)) rfl (key (enc 0xe7000000 [(g.toNat, 19), (q.toNat, 14), (c.toNat, 10), (x.toNat, 4)])
    (enc_rest k0 f0 28 4 rfl)
    (enc_rest k0 f0 24 4 rfl)
    (zf_eq (enc_rest k0 f0 0 4 rfl))
    (zf_eq (enc_rest k0 f0 18 1 rfl))
    (bv_eq (enc_field k0 f0 0 _ _ _ rfl))
    (bv_eq (enc_field k0 f0 1 _ _ _ rfl))
    (bv_eq (enc_field k0 f0 2 _ _ _ rfl))
    (bv_eq (enc_field k0 f0 3 _ _ _ rfl)))

theorem send (g q c x r s) : Statement (.send g q c x r s : Instr) := by
  have k0 : layoutOk 0xe8000000 [(19, 5), (14, 4), (10, 4), (4, 6), (3, 1), (0, 3)] = true := by decide
  have f0 : fit [(g.toNat, 19, 5), (q.toNat, 14, 4), (c.toNat, 10, 4), (x.toNat, 4, 6), (b2n r, 3, 1), (s.toNat, 0, 3)] := ⟨g.isLt, q.isLt, c.isLt, x.isLt, b2n_lt r, s.isLt, trivial⟩
  have key : ∀ ww : Nat, ww / 2 ^ 28 % 16 = 14 → ww / 2 ^ 24 % 16 = 8 → zf ww 18 1 = true → bv 5 ww 19 = g → bv 4 ww 14 = q → bv 4 ww 10 = c → bv 6 ww 4 = x → bit ww 3 = r → bv 3 ww 0 = s → decodeSlot ww 0 0 = .ok (.send g q c x r s : Instr) := by
    intro ww h0 h1 h2 h3 h4 h5 h6 h7 h8
    simp only [decodeSlot, decodeRowE, h0, h1, h2, h3, h4, h5, h6, h7, h8, if_true]
  exact one (i := (.send g q c x r s : Instr)) rfl (key (enc 0xe8000000 [(g.toNat, 19), (q.toNat, 14), (c.toNat, 10), (x.toNat, 4), (b2n r, 3), (s.toNat, 0)])
    (enc_rest k0 f0 28 4 rfl)
    (enc_rest k0 f0 24 4 rfl)
    (zf_eq (enc_rest k0 f0 18 1 rfl))
    (bv_eq (enc_field k0 f0 0 _ _ _ rfl))
    (bv_eq (enc_field k0 f0 1 _ _ _ rfl))
    (bv_eq (enc_field k0 f0 2 _ _ _ rfl))
    (bv_eq (enc_field k0 f0 3 _ _ _ rfl))
    (bit_eq (enc_field k0 f0 4 _ _ _ rfl))
    (bv_eq (enc_field k0 f0 5 _ _ _ rfl)))

theorem rpost (g q c x r s) : Statement (.rpost g q c x r s : Instr) := by
  have k0 : layoutOk 0xe9000000 [(19, 5), (14, 4), (10, 4), (4, 6), (3, 1), (0, 3)] = true := by decide
  have f0 : fit [(g.toNat, 19, 5), (q.toNat, 14, 4), (c.toNat, 10, 4), (x.toNat, 4, 6), (b2n r, 3, 1), (s.toNat, 0, 3)] := ⟨g.isLt, q.isLt, c.isLt, x.isLt, b2n_lt r, s.isLt, trivial⟩
  have key : ∀ ww : Nat, ww / 2 ^ 28 % 16 = 14 → ww / 2 ^ 24 % 16 = 9 → zf ww 18 1 = true → bv 5 ww 19 = g → bv 4 ww 14 = q → bv 4 ww 10 = c → bv 6 ww 4 = x → bit ww 3 = r → bv 3 ww 0 = s → decodeSlot ww 0 0 = .ok (.rpost g q c x r s : Instr) := by
    intro ww h0 h1 h2 h3 h4 h5 h6 h7 h8
    simp only [decodeSlot, decodeRowE, h0, h1, h2, h3, h4, h5, h6, h7, h8, if_true]
  exact one (i := (.rpost g q c x r s : Instr)) rfl (key (enc 0xe9000000 [(g.toNat, 19), (q.toNat, 14), (c.toNat, 10), (x.toNat, 4), (b2n r, 3), (s.toNat, 0)])
    (enc_rest k0 f0 28 4 rfl)
    (enc_rest k0 f0 24 4 rfl)
    (zf_eq (enc_rest k0 f0 18 1 rfl))
    (bv_eq (enc_field k0 f0 0 _ _ _ rfl))
    (bv_eq (enc_field k0 f0 1 _ _ _ rfl))
    (bv_eq (enc_field k0 f0 2 _ _ _ rfl))
    (bv_eq (enc_field k0 f0 3 _ _ _ rfl))
    (bit_eq (enc_field k0 f0 4 _ _ _ rfl))
    (bv_eq (enc_field k0 f0 5 _ _ _ rfl)))

theorem rcall (g c x) : Statement (.rcall g c x : Instr) := by
  have k0 : layoutOk 0xea000000 [(19, 5), (10, 4), (4, 6)] = true := by decide
  have f0 : fit [(g.toNat, 19, 5), (c.toNat, 10, 4), (x.toNat, 4, 6)] := ⟨g.isLt, c.isLt, x.isLt, trivial⟩
  have key : ∀ ww : Nat, ww / 2 ^ 28 % 16 = 14 → ww / 2 ^ 24 % 16 = 10 → zf ww 0 4 = true → zf ww 14 5 = true → bv 5 ww 19 = g → bv 4 ww 10 = c → bv 6 ww 4 = x → decodeSlot ww 0 0 = .ok (.rcall g c x : Instr) := by
    intro ww h0 h1 h2 h3 h4 h5 h6
    simp only [decodeSlot, decodeRowE, h0, h1, h2, h3, h4, h5, h6, Bool.and_self, if_true]
  exact one (i := (.rcall g c x : Instr)) rfl (key (enc 0xea000000 [(g.toNat, 19), (c.toNat, 10), (x.toNat, 4)])
    (enc_rest k0 f0 28 4 rfl)
    (enc_rest k0 f0 24 4 rfl)
    (zf_eq (enc_rest k0 f0 0 4 rfl))
    (zf_eq (enc_rest k0 f0 14 5 rfl))
    (bv_eq (enc_field k0 f0 0 _ _ _ rfl))
    (bv_eq (enc_field k0 f0 1 _ _ _ rfl))
    (bv_eq (enc_field k0 f0 2 _ _ _ rfl)))

theorem tokq (d a) : Statement (.tokq d a : Instr) := by
  have k0 : layoutOk 0xeb000000 [(18, 6), (12, 5)] = true := by decide
  have f0 : fit [(d.toNat, 18, 6), (a.toNat, 12, 5)] := ⟨d.isLt, a.isLt, trivial⟩
  have key : ∀ ww : Nat, ww / 2 ^ 28 % 16 = 14 → ww / 2 ^ 24 % 16 = 11 → zf ww 0 12 = true → zf ww 17 1 = true → bv 6 ww 18 = d → bv 5 ww 12 = a → decodeSlot ww 0 0 = .ok (.tokq d a : Instr) := by
    intro ww h0 h1 h2 h3 h4 h5
    simp only [decodeSlot, decodeRowE, h0, h1, h2, h3, h4, h5, Bool.and_self, if_true]
  exact one (i := (.tokq d a : Instr)) rfl (key (enc 0xeb000000 [(d.toNat, 18), (a.toNat, 12)])
    (enc_rest k0 f0 28 4 rfl)
    (enc_rest k0 f0 24 4 rfl)
    (zf_eq (enc_rest k0 f0 0 12 rfl))
    (zf_eq (enc_rest k0 f0 17 1 rfl))
    (bv_eq (enc_field k0 f0 0 _ _ _ rfl))
    (bv_eq (enc_field k0 f0 1 _ _ _ rfl)))

theorem gets (d n) : Statement (.gets d n : Instr) := by
  have k0 : layoutOk 0xf0000000 [(18, 6), (6, 12)] = true := by decide
  have f0 : fit [(d.toNat, 18, 6), (n.toNat, 6, 12)] := ⟨d.isLt, n.isLt, trivial⟩
  have key : ∀ ww : Nat, ww / 2 ^ 28 % 16 = 15 → ww / 2 ^ 24 % 16 = 0 → zf ww 0 6 = true → bv 6 ww 18 = d → bv 12 ww 6 = n → decodeSlot ww 0 0 = .ok (.gets d n : Instr) := by
    intro ww h0 h1 h2 h3 h4
    simp only [decodeSlot, decodeRowF, h0, h1, h2, h3, h4, if_true]
  exact one (i := (.gets d n : Instr)) rfl (key (enc 0xf0000000 [(d.toNat, 18), (n.toNat, 6)])
    (enc_rest k0 f0 28 4 rfl)
    (enc_rest k0 f0 24 4 rfl)
    (zf_eq (enc_rest k0 f0 0 6 rfl))
    (bv_eq (enc_field k0 f0 0 _ _ _ rfl))
    (bv_eq (enc_field k0 f0 1 _ _ _ rfl)))

theorem sets (d n) : Statement (.sets d n : Instr) := by
  have k0 : layoutOk 0xf1000000 [(18, 6), (6, 12)] = true := by decide
  have f0 : fit [(d.toNat, 18, 6), (n.toNat, 6, 12)] := ⟨d.isLt, n.isLt, trivial⟩
  have key : ∀ ww : Nat, ww / 2 ^ 28 % 16 = 15 → ww / 2 ^ 24 % 16 = 1 → zf ww 0 6 = true → bv 6 ww 18 = d → bv 12 ww 6 = n → decodeSlot ww 0 0 = .ok (.sets d n : Instr) := by
    intro ww h0 h1 h2 h3 h4
    simp only [decodeSlot, decodeRowF, h0, h1, h2, h3, h4, if_true]
  exact one (i := (.sets d n : Instr)) rfl (key (enc 0xf1000000 [(d.toNat, 18), (n.toNat, 6)])
    (enc_rest k0 f0 28 4 rfl)
    (enc_rest k0 f0 24 4 rfl)
    (zf_eq (enc_rest k0 f0 0 6 rfl))
    (bv_eq (enc_field k0 f0 0 _ _ _ rfl))
    (bv_eq (enc_field k0 f0 1 _ _ _ rfl)))

theorem getg (d a) : Statement (.getg d a : Instr) := by
  have k0 : layoutOk 0xf2000000 [(18, 6), (12, 5)] = true := by decide
  have f0 : fit [(d.toNat, 18, 6), (a.toNat, 12, 5)] := ⟨d.isLt, a.isLt, trivial⟩
  have key : ∀ ww : Nat, ww / 2 ^ 28 % 16 = 15 → ww / 2 ^ 24 % 16 = 2 → zf ww 0 12 = true → zf ww 17 1 = true → bv 6 ww 18 = d → bv 5 ww 12 = a → decodeSlot ww 0 0 = .ok (.getg d a : Instr) := by
    intro ww h0 h1 h2 h3 h4 h5
    simp only [decodeSlot, decodeRowF, h0, h1, h2, h3, h4, h5, Bool.and_self, if_true]
  exact one (i := (.getg d a : Instr)) rfl (key (enc 0xf2000000 [(d.toNat, 18), (a.toNat, 12)])
    (enc_rest k0 f0 28 4 rfl)
    (enc_rest k0 f0 24 4 rfl)
    (zf_eq (enc_rest k0 f0 0 12 rfl))
    (zf_eq (enc_rest k0 f0 17 1 rfl))
    (bv_eq (enc_field k0 f0 0 _ _ _ rfl))
    (bv_eq (enc_field k0 f0 1 _ _ _ rfl)))

theorem setg (d a) : Statement (.setg d a : Instr) := by
  have k0 : layoutOk 0xf3000000 [(18, 5), (12, 6)] = true := by decide
  have f0 : fit [(d.toNat, 18, 5), (a.toNat, 12, 6)] := ⟨d.isLt, a.isLt, trivial⟩
  have key : ∀ ww : Nat, ww / 2 ^ 28 % 16 = 15 → ww / 2 ^ 24 % 16 = 3 → zf ww 0 12 = true → zf ww 23 1 = true → bv 5 ww 18 = d → bv 6 ww 12 = a → decodeSlot ww 0 0 = .ok (.setg d a : Instr) := by
    intro ww h0 h1 h2 h3 h4 h5
    simp only [decodeSlot, decodeRowF, h0, h1, h2, h3, h4, h5, Bool.and_self, if_true]
  exact one (i := (.setg d a : Instr)) rfl (key (enc 0xf3000000 [(d.toNat, 18), (a.toNat, 12)])
    (enc_rest k0 f0 28 4 rfl)
    (enc_rest k0 f0 24 4 rfl)
    (zf_eq (enc_rest k0 f0 0 12 rfl))
    (zf_eq (enc_rest k0 f0 23 1 rfl))
    (bv_eq (enc_field k0 f0 0 _ _ _ rfl))
    (bv_eq (enc_field k0 f0 1 _ _ _ rfl)))

theorem brk : Statement (.brk : Instr) := by
  have k0 : layoutOk 0xf4000000 [] = true := by decide
  have f0 : fit [] := trivial
  have key : ∀ ww : Nat, ww / 2 ^ 28 % 16 = 15 → ww / 2 ^ 24 % 16 = 4 → zf ww 0 24 = true → decodeSlot ww 0 0 = .ok (.brk : Instr) := by
    intro ww h0 h1 h2
    simp only [decodeSlot, decodeRowF, h0, h1, h2, if_true]
  exact one (i := (.brk : Instr)) rfl (key (enc 0xf4000000 [])
    (enc_rest k0 f0 28 4 rfl)
    (enc_rest k0 f0 24 4 rfl)
    (zf_eq (enc_rest k0 f0 0 24 rfl)))

theorem svc (i) : Statement (.svc i : Instr) := by
  have k0 : layoutOk 0xf5000000 [(0, 12)] = true := by decide
  have f0 : fit [(i.toNat, 0, 12)] := ⟨i.isLt, trivial⟩
  have key : ∀ ww : Nat, ww / 2 ^ 28 % 16 = 15 → ww / 2 ^ 24 % 16 = 5 → zf ww 12 12 = true → bv 12 ww 0 = i → decodeSlot ww 0 0 = .ok (.svc i : Instr) := by
    intro ww h0 h1 h2 h3
    simp only [decodeSlot, decodeRowF, h0, h1, h2, h3, if_true]
  exact one (i := (.svc i : Instr)) rfl (key (enc 0xf5000000 [(i.toNat, 0)])
    (enc_rest k0 f0 28 4 rfl)
    (enc_rest k0 f0 24 4 rfl)
    (zf_eq (enc_rest k0 f0 12 12 rfl))
    (bv_eq (enc_field k0 f0 0 _ _ _ rfl)))

theorem oinv (a b) : Statement (.oinv a b : Instr) := by
  have k0 : layoutOk 0xf6000000 [(12, 4), (6, 6)] = true := by decide
  have f0 : fit [(a.toNat, 12, 4), (b.toNat, 6, 6)] := ⟨a.isLt, b.isLt, trivial⟩
  have key : ∀ ww : Nat, ww / 2 ^ 28 % 16 = 15 → ww / 2 ^ 24 % 16 = 6 → zf ww 0 6 = true → zf ww 16 8 = true → bv 4 ww 12 = a → bv 6 ww 6 = b → decodeSlot ww 0 0 = .ok (.oinv a b : Instr) := by
    intro ww h0 h1 h2 h3 h4 h5
    simp only [decodeSlot, decodeRowF, h0, h1, h2, h3, h4, h5, Bool.and_self, if_true]
  exact one (i := (.oinv a b : Instr)) rfl (key (enc 0xf6000000 [(a.toNat, 12), (b.toNat, 6)])
    (enc_rest k0 f0 28 4 rfl)
    (enc_rest k0 f0 24 4 rfl)
    (zf_eq (enc_rest k0 f0 0 6 rfl))
    (zf_eq (enc_rest k0 f0 16 8 rfl))
    (bv_eq (enc_field k0 f0 0 _ _ _ rfl))
    (bv_eq (enc_field k0 f0 1 _ _ _ rfl)))

theorem illegalInstruction : Statement (.illegalInstruction) := fun h => absurd rfl h

theorem instructionFetchFault : Statement (.instructionFetchFault) := fun h => absurd rfl h

theorem linkTrainingComplete (x0) : Statement (.linkTrainingComplete x0) := fun h => absurd rfl h

theorem queueBind (x0 x1) : Statement (.queueBind x0 x1) := fun h => absurd rfl h

theorem queueUnbind (x0) : Statement (.queueUnbind x0) := fun h => absurd rfl h

theorem objectTableUpdate (x0 x1 x2 x3) : Statement (.objectTableUpdate x0 x1 x2 x3) := fun h => absurd rfl h

theorem asidCreate (x0 x1 x2 x3 x4) : Statement (.asidCreate x0 x1 x2 x3 x4) := fun h => absurd rfl h

theorem asidDestroy (x0) : Statement (.asidDestroy x0) := fun h => absurd rfl h

end Sys2Proof.Laws.Encoding
end

