-- ==== Sys2Proof/Laws/State.lean ====
section
/-! SUPPORT. What the named updates of State leave as it was: one equation for each update and each field that most statements speak of, so that no proof unfolds an update. What modFib and modWg do to the fibres is said in Laws/Frame. -/

namespace Sys2Proof.Machine

/-! ## modWg -/

@[simp] theorem State.modWg_mem (s : State) (l w : Nat) (f : Wg → Wg) : (s.modWg l w f).mem = s.mem := rfl
@[simp] theorem State.modWg_bad (s : State) (l w : Nat) (f : Wg → Wg) : (s.modWg l w f).bad = s.bad := rfl
@[simp] theorem State.modWg_hurts (s : State) (l w : Nat) (f : Wg → Wg) : (s.modWg l w f).hurts = s.hurts := rfl
@[simp] theorem State.modWg_ftime (s : State) (l w : Nat) (f : Wg → Wg) : (s.modWg l w f).ftime = s.ftime := rfl
@[simp] theorem State.modWg_clock (s : State) (l w : Nat) (f : Wg → Wg) : (s.modWg l w f).clock = s.clock := rfl
@[simp] theorem State.modWg_turn (s : State) (l w : Nat) (f : Wg → Wg) : (s.modWg l w f).turn = s.turn := rfl
@[simp] theorem State.modWg_cur (s : State) (l w : Nat) (f : Wg → Wg) : (s.modWg l w f).cur = s.cur := rfl
@[simp] theorem State.modWg_agenda (s : State) (l w : Nat) (f : Wg → Wg) : (s.modWg l w f).agenda = s.agenda := rfl
@[simp] theorem State.modWg_mg (s : State) (l w : Nat) (f : Wg → Wg) : (s.modWg l w f).mg = s.mg := rfl
@[simp] theorem State.modWg_power (s : State) (l w : Nat) (f : Wg → Wg) : (s.modWg l w f).power = s.power := rfl
@[simp] theorem State.modWg_launches (s : State) (l w : Nat) (f : Wg → Wg) : (s.modWg l w f).launches = s.launches := rfl
@[simp] theorem State.modWg_gangs (s : State) (l w : Nat) (f : Wg → Wg) : (s.modWg l w f).gangs = s.gangs := rfl
@[simp] theorem State.modWg_queues (s : State) (l w : Nat) (f : Wg → Wg) : (s.modWg l w f).queues = s.queues := rfl
@[simp] theorem State.modWg_cores (s : State) (l w : Nat) (f : Wg → Wg) : (s.modWg l w f).cores = s.cores := rfl
@[simp] theorem State.modWg_asids (s : State) (l w : Nat) (f : Wg → Wg) : (s.modWg l w f).asids = s.asids := rfl
@[simp] theorem State.modWg_cmds (s : State) (l w : Nat) (f : Wg → Wg) : (s.modWg l w f).cmds = s.cmds := rfl
@[simp] theorem State.modWg_tiles (s : State) (l w : Nat) (f : Wg → Wg) : (s.modWg l w f).tiles = s.tiles := rfl
@[simp] theorem State.modWg_hampers (s : State) (l w : Nat) (f : Wg → Wg) : (s.modWg l w f).hampers = s.hampers := rfl

/-! ## modFib -/

@[simp] theorem State.modFib_mem (s : State) (id : FibId) (f : Fibre → Fibre) : (s.modFib id f).mem = s.mem := rfl
@[simp] theorem State.modFib_bad (s : State) (id : FibId) (f : Fibre → Fibre) : (s.modFib id f).bad = s.bad := rfl
@[simp] theorem State.modFib_hurts (s : State) (id : FibId) (f : Fibre → Fibre) : (s.modFib id f).hurts = s.hurts := rfl
@[simp] theorem State.modFib_ftime (s : State) (id : FibId) (f : Fibre → Fibre) : (s.modFib id f).ftime = s.ftime := rfl
@[simp] theorem State.modFib_clock (s : State) (id : FibId) (f : Fibre → Fibre) : (s.modFib id f).clock = s.clock := rfl
@[simp] theorem State.modFib_turn (s : State) (id : FibId) (f : Fibre → Fibre) : (s.modFib id f).turn = s.turn := rfl
@[simp] theorem State.modFib_cur (s : State) (id : FibId) (f : Fibre → Fibre) : (s.modFib id f).cur = s.cur := rfl
@[simp] theorem State.modFib_agenda (s : State) (id : FibId) (f : Fibre → Fibre) : (s.modFib id f).agenda = s.agenda := rfl
@[simp] theorem State.modFib_mg (s : State) (id : FibId) (f : Fibre → Fibre) : (s.modFib id f).mg = s.mg := rfl
@[simp] theorem State.modFib_power (s : State) (id : FibId) (f : Fibre → Fibre) : (s.modFib id f).power = s.power := rfl
@[simp] theorem State.modFib_launches (s : State) (id : FibId) (f : Fibre → Fibre) : (s.modFib id f).launches = s.launches := rfl
@[simp] theorem State.modFib_gangs (s : State) (id : FibId) (f : Fibre → Fibre) : (s.modFib id f).gangs = s.gangs := rfl
@[simp] theorem State.modFib_queues (s : State) (id : FibId) (f : Fibre → Fibre) : (s.modFib id f).queues = s.queues := rfl
@[simp] theorem State.modFib_cores (s : State) (id : FibId) (f : Fibre → Fibre) : (s.modFib id f).cores = s.cores := rfl
@[simp] theorem State.modFib_asids (s : State) (id : FibId) (f : Fibre → Fibre) : (s.modFib id f).asids = s.asids := rfl
@[simp] theorem State.modFib_cmds (s : State) (id : FibId) (f : Fibre → Fibre) : (s.modFib id f).cmds = s.cmds := rfl
@[simp] theorem State.modFib_tiles (s : State) (id : FibId) (f : Fibre → Fibre) : (s.modFib id f).tiles = s.tiles := rfl
@[simp] theorem State.modFib_hampers (s : State) (id : FibId) (f : Fibre → Fibre) : (s.modFib id f).hampers = s.hampers := rfl

/-! ## mapFibres -/

@[simp] theorem State.mapFibres_mem (s : State) (f : FibId → Fibre → Fibre) : (s.mapFibres f).mem = s.mem := rfl
@[simp] theorem State.mapFibres_bad (s : State) (f : FibId → Fibre → Fibre) : (s.mapFibres f).bad = s.bad := rfl
@[simp] theorem State.mapFibres_hurts (s : State) (f : FibId → Fibre → Fibre) : (s.mapFibres f).hurts = s.hurts := rfl
@[simp] theorem State.mapFibres_ftime (s : State) (f : FibId → Fibre → Fibre) : (s.mapFibres f).ftime = s.ftime := rfl
@[simp] theorem State.mapFibres_clock (s : State) (f : FibId → Fibre → Fibre) : (s.mapFibres f).clock = s.clock := rfl
@[simp] theorem State.mapFibres_turn (s : State) (f : FibId → Fibre → Fibre) : (s.mapFibres f).turn = s.turn := rfl
@[simp] theorem State.mapFibres_cur (s : State) (f : FibId → Fibre → Fibre) : (s.mapFibres f).cur = s.cur := rfl
@[simp] theorem State.mapFibres_agenda (s : State) (f : FibId → Fibre → Fibre) : (s.mapFibres f).agenda = s.agenda := rfl
@[simp] theorem State.mapFibres_mg (s : State) (f : FibId → Fibre → Fibre) : (s.mapFibres f).mg = s.mg := rfl
@[simp] theorem State.mapFibres_power (s : State) (f : FibId → Fibre → Fibre) : (s.mapFibres f).power = s.power := rfl
@[simp] theorem State.mapFibres_launches (s : State) (f : FibId → Fibre → Fibre) : (s.mapFibres f).launches = s.launches := rfl
@[simp] theorem State.mapFibres_gangs (s : State) (f : FibId → Fibre → Fibre) : (s.mapFibres f).gangs = s.gangs := rfl
@[simp] theorem State.mapFibres_queues (s : State) (f : FibId → Fibre → Fibre) : (s.mapFibres f).queues = s.queues := rfl
@[simp] theorem State.mapFibres_cores (s : State) (f : FibId → Fibre → Fibre) : (s.mapFibres f).cores = s.cores := rfl
@[simp] theorem State.mapFibres_asids (s : State) (f : FibId → Fibre → Fibre) : (s.mapFibres f).asids = s.asids := rfl
@[simp] theorem State.mapFibres_cmds (s : State) (f : FibId → Fibre → Fibre) : (s.mapFibres f).cmds = s.cmds := rfl
@[simp] theorem State.mapFibres_tiles (s : State) (f : FibId → Fibre → Fibre) : (s.mapFibres f).tiles = s.tiles := rfl
@[simp] theorem State.mapFibres_hampers (s : State) (f : FibId → Fibre → Fibre) : (s.mapFibres f).hampers = s.hampers := rfl

/-! ## modLaunch -/

@[simp] theorem State.modLaunch_mem (s : State) (l : Nat) (f : Launch → Launch) : (s.modLaunch l f).mem = s.mem := rfl
@[simp] theorem State.modLaunch_bad (s : State) (l : Nat) (f : Launch → Launch) : (s.modLaunch l f).bad = s.bad := rfl
@[simp] theorem State.modLaunch_hurts (s : State) (l : Nat) (f : Launch → Launch) : (s.modLaunch l f).hurts = s.hurts := rfl
@[simp] theorem State.modLaunch_ftime (s : State) (l : Nat) (f : Launch → Launch) : (s.modLaunch l f).ftime = s.ftime := rfl
@[simp] theorem State.modLaunch_clock (s : State) (l : Nat) (f : Launch → Launch) : (s.modLaunch l f).clock = s.clock := rfl
@[simp] theorem State.modLaunch_turn (s : State) (l : Nat) (f : Launch → Launch) : (s.modLaunch l f).turn = s.turn := rfl
@[simp] theorem State.modLaunch_cur (s : State) (l : Nat) (f : Launch → Launch) : (s.modLaunch l f).cur = s.cur := rfl
@[simp] theorem State.modLaunch_agenda (s : State) (l : Nat) (f : Launch → Launch) : (s.modLaunch l f).agenda = s.agenda := rfl
@[simp] theorem State.modLaunch_mg (s : State) (l : Nat) (f : Launch → Launch) : (s.modLaunch l f).mg = s.mg := rfl
@[simp] theorem State.modLaunch_power (s : State) (l : Nat) (f : Launch → Launch) : (s.modLaunch l f).power = s.power := rfl
@[simp] theorem State.modLaunch_wgs (s : State) (l : Nat) (f : Launch → Launch) : (s.modLaunch l f).wgs = s.wgs := rfl
@[simp] theorem State.modLaunch_gangs (s : State) (l : Nat) (f : Launch → Launch) : (s.modLaunch l f).gangs = s.gangs := rfl
@[simp] theorem State.modLaunch_queues (s : State) (l : Nat) (f : Launch → Launch) : (s.modLaunch l f).queues = s.queues := rfl
@[simp] theorem State.modLaunch_cores (s : State) (l : Nat) (f : Launch → Launch) : (s.modLaunch l f).cores = s.cores := rfl
@[simp] theorem State.modLaunch_asids (s : State) (l : Nat) (f : Launch → Launch) : (s.modLaunch l f).asids = s.asids := rfl
@[simp] theorem State.modLaunch_cmds (s : State) (l : Nat) (f : Launch → Launch) : (s.modLaunch l f).cmds = s.cmds := rfl
@[simp] theorem State.modLaunch_tiles (s : State) (l : Nat) (f : Launch → Launch) : (s.modLaunch l f).tiles = s.tiles := rfl
@[simp] theorem State.modLaunch_hampers (s : State) (l : Nat) (f : Launch → Launch) : (s.modLaunch l f).hampers = s.hampers := rfl

/-! ## modGang -/

@[simp] theorem State.modGang_mem (s : State) (l k : Nat) (f : Gang → Gang) : (s.modGang l k f).mem = s.mem := rfl
@[simp] theorem State.modGang_bad (s : State) (l k : Nat) (f : Gang → Gang) : (s.modGang l k f).bad = s.bad := rfl
@[simp] theorem State.modGang_hurts (s : State) (l k : Nat) (f : Gang → Gang) : (s.modGang l k f).hurts = s.hurts := rfl
@[simp] theorem State.modGang_ftime (s : State) (l k : Nat) (f : Gang → Gang) : (s.modGang l k f).ftime = s.ftime := rfl
@[simp] theorem State.modGang_clock (s : State) (l k : Nat) (f : Gang → Gang) : (s.modGang l k f).clock = s.clock := rfl
@[simp] theorem State.modGang_turn (s : State) (l k : Nat) (f : Gang → Gang) : (s.modGang l k f).turn = s.turn := rfl
@[simp] theorem State.modGang_cur (s : State) (l k : Nat) (f : Gang → Gang) : (s.modGang l k f).cur = s.cur := rfl
@[simp] theorem State.modGang_agenda (s : State) (l k : Nat) (f : Gang → Gang) : (s.modGang l k f).agenda = s.agenda := rfl
@[simp] theorem State.modGang_mg (s : State) (l k : Nat) (f : Gang → Gang) : (s.modGang l k f).mg = s.mg := rfl
@[simp] theorem State.modGang_power (s : State) (l k : Nat) (f : Gang → Gang) : (s.modGang l k f).power = s.power := rfl
@[simp] theorem State.modGang_wgs (s : State) (l k : Nat) (f : Gang → Gang) : (s.modGang l k f).wgs = s.wgs := rfl
@[simp] theorem State.modGang_launches (s : State) (l k : Nat) (f : Gang → Gang) : (s.modGang l k f).launches = s.launches := rfl
@[simp] theorem State.modGang_queues (s : State) (l k : Nat) (f : Gang → Gang) : (s.modGang l k f).queues = s.queues := rfl
@[simp] theorem State.modGang_cores (s : State) (l k : Nat) (f : Gang → Gang) : (s.modGang l k f).cores = s.cores := rfl
@[simp] theorem State.modGang_asids (s : State) (l k : Nat) (f : Gang → Gang) : (s.modGang l k f).asids = s.asids := rfl
@[simp] theorem State.modGang_cmds (s : State) (l k : Nat) (f : Gang → Gang) : (s.modGang l k f).cmds = s.cmds := rfl
@[simp] theorem State.modGang_tiles (s : State) (l k : Nat) (f : Gang → Gang) : (s.modGang l k f).tiles = s.tiles := rfl
@[simp] theorem State.modGang_hampers (s : State) (l k : Nat) (f : Gang → Gang) : (s.modGang l k f).hampers = s.hampers := rfl

/-! ## modQueue -/

@[simp] theorem State.modQueue_mem (s : State) (q : Nat) (f : Queue → Queue) : (s.modQueue q f).mem = s.mem := rfl
@[simp] theorem State.modQueue_bad (s : State) (q : Nat) (f : Queue → Queue) : (s.modQueue q f).bad = s.bad := rfl
@[simp] theorem State.modQueue_hurts (s : State) (q : Nat) (f : Queue → Queue) : (s.modQueue q f).hurts = s.hurts := rfl
@[simp] theorem State.modQueue_ftime (s : State) (q : Nat) (f : Queue → Queue) : (s.modQueue q f).ftime = s.ftime := rfl
@[simp] theorem State.modQueue_clock (s : State) (q : Nat) (f : Queue → Queue) : (s.modQueue q f).clock = s.clock := rfl
@[simp] theorem State.modQueue_turn (s : State) (q : Nat) (f : Queue → Queue) : (s.modQueue q f).turn = s.turn := rfl
@[simp] theorem State.modQueue_cur (s : State) (q : Nat) (f : Queue → Queue) : (s.modQueue q f).cur = s.cur := rfl
@[simp] theorem State.modQueue_agenda (s : State) (q : Nat) (f : Queue → Queue) : (s.modQueue q f).agenda = s.agenda := rfl
@[simp] theorem State.modQueue_mg (s : State) (q : Nat) (f : Queue → Queue) : (s.modQueue q f).mg = s.mg := rfl
@[simp] theorem State.modQueue_power (s : State) (q : Nat) (f : Queue → Queue) : (s.modQueue q f).power = s.power := rfl
@[simp] theorem State.modQueue_wgs (s : State) (q : Nat) (f : Queue → Queue) : (s.modQueue q f).wgs = s.wgs := rfl
@[simp] theorem State.modQueue_launches (s : State) (q : Nat) (f : Queue → Queue) : (s.modQueue q f).launches = s.launches := rfl
@[simp] theorem State.modQueue_gangs (s : State) (q : Nat) (f : Queue → Queue) : (s.modQueue q f).gangs = s.gangs := rfl
@[simp] theorem State.modQueue_cores (s : State) (q : Nat) (f : Queue → Queue) : (s.modQueue q f).cores = s.cores := rfl
@[simp] theorem State.modQueue_asids (s : State) (q : Nat) (f : Queue → Queue) : (s.modQueue q f).asids = s.asids := rfl
@[simp] theorem State.modQueue_cmds (s : State) (q : Nat) (f : Queue → Queue) : (s.modQueue q f).cmds = s.cmds := rfl
@[simp] theorem State.modQueue_tiles (s : State) (q : Nat) (f : Queue → Queue) : (s.modQueue q f).tiles = s.tiles := rfl
@[simp] theorem State.modQueue_hampers (s : State) (q : Nat) (f : Queue → Queue) : (s.modQueue q f).hampers = s.hampers := rfl

/-! ## modCmd -/

@[simp] theorem State.modCmd_mem (s : State) (n : Nat) (f : Command → Command) : (s.modCmd n f).mem = s.mem := rfl
@[simp] theorem State.modCmd_bad (s : State) (n : Nat) (f : Command → Command) : (s.modCmd n f).bad = s.bad := rfl
@[simp] theorem State.modCmd_hurts (s : State) (n : Nat) (f : Command → Command) : (s.modCmd n f).hurts = s.hurts := rfl
@[simp] theorem State.modCmd_ftime (s : State) (n : Nat) (f : Command → Command) : (s.modCmd n f).ftime = s.ftime := rfl
@[simp] theorem State.modCmd_clock (s : State) (n : Nat) (f : Command → Command) : (s.modCmd n f).clock = s.clock := rfl
@[simp] theorem State.modCmd_turn (s : State) (n : Nat) (f : Command → Command) : (s.modCmd n f).turn = s.turn := rfl
@[simp] theorem State.modCmd_cur (s : State) (n : Nat) (f : Command → Command) : (s.modCmd n f).cur = s.cur := rfl
@[simp] theorem State.modCmd_agenda (s : State) (n : Nat) (f : Command → Command) : (s.modCmd n f).agenda = s.agenda := rfl
@[simp] theorem State.modCmd_mg (s : State) (n : Nat) (f : Command → Command) : (s.modCmd n f).mg = s.mg := rfl
@[simp] theorem State.modCmd_power (s : State) (n : Nat) (f : Command → Command) : (s.modCmd n f).power = s.power := rfl
@[simp] theorem State.modCmd_wgs (s : State) (n : Nat) (f : Command → Command) : (s.modCmd n f).wgs = s.wgs := rfl
@[simp] theorem State.modCmd_launches (s : State) (n : Nat) (f : Command → Command) : (s.modCmd n f).launches = s.launches := rfl
@[simp] theorem State.modCmd_gangs (s : State) (n : Nat) (f : Command → Command) : (s.modCmd n f).gangs = s.gangs := rfl
@[simp] theorem State.modCmd_queues (s : State) (n : Nat) (f : Command → Command) : (s.modCmd n f).queues = s.queues := rfl
@[simp] theorem State.modCmd_cores (s : State) (n : Nat) (f : Command → Command) : (s.modCmd n f).cores = s.cores := rfl
@[simp] theorem State.modCmd_asids (s : State) (n : Nat) (f : Command → Command) : (s.modCmd n f).asids = s.asids := rfl
@[simp] theorem State.modCmd_tiles (s : State) (n : Nat) (f : Command → Command) : (s.modCmd n f).tiles = s.tiles := rfl
@[simp] theorem State.modCmd_hampers (s : State) (n : Nat) (f : Command → Command) : (s.modCmd n f).hampers = s.hampers := rfl

/-! ## modAsid -/

@[simp] theorem State.modAsid_mem (s : State) (a : Nat) (f : AsidDesc → AsidDesc) : (s.modAsid a f).mem = s.mem := rfl
@[simp] theorem State.modAsid_bad (s : State) (a : Nat) (f : AsidDesc → AsidDesc) : (s.modAsid a f).bad = s.bad := rfl
@[simp] theorem State.modAsid_hurts (s : State) (a : Nat) (f : AsidDesc → AsidDesc) : (s.modAsid a f).hurts = s.hurts := rfl
@[simp] theorem State.modAsid_ftime (s : State) (a : Nat) (f : AsidDesc → AsidDesc) : (s.modAsid a f).ftime = s.ftime := rfl
@[simp] theorem State.modAsid_clock (s : State) (a : Nat) (f : AsidDesc → AsidDesc) : (s.modAsid a f).clock = s.clock := rfl
@[simp] theorem State.modAsid_turn (s : State) (a : Nat) (f : AsidDesc → AsidDesc) : (s.modAsid a f).turn = s.turn := rfl
@[simp] theorem State.modAsid_cur (s : State) (a : Nat) (f : AsidDesc → AsidDesc) : (s.modAsid a f).cur = s.cur := rfl
@[simp] theorem State.modAsid_agenda (s : State) (a : Nat) (f : AsidDesc → AsidDesc) : (s.modAsid a f).agenda = s.agenda := rfl
@[simp] theorem State.modAsid_mg (s : State) (a : Nat) (f : AsidDesc → AsidDesc) : (s.modAsid a f).mg = s.mg := rfl
@[simp] theorem State.modAsid_power (s : State) (a : Nat) (f : AsidDesc → AsidDesc) : (s.modAsid a f).power = s.power := rfl
@[simp] theorem State.modAsid_wgs (s : State) (a : Nat) (f : AsidDesc → AsidDesc) : (s.modAsid a f).wgs = s.wgs := rfl
@[simp] theorem State.modAsid_launches (s : State) (a : Nat) (f : AsidDesc → AsidDesc) : (s.modAsid a f).launches = s.launches := rfl
@[simp] theorem State.modAsid_gangs (s : State) (a : Nat) (f : AsidDesc → AsidDesc) : (s.modAsid a f).gangs = s.gangs := rfl
@[simp] theorem State.modAsid_queues (s : State) (a : Nat) (f : AsidDesc → AsidDesc) : (s.modAsid a f).queues = s.queues := rfl
@[simp] theorem State.modAsid_cores (s : State) (a : Nat) (f : AsidDesc → AsidDesc) : (s.modAsid a f).cores = s.cores := rfl
@[simp] theorem State.modAsid_cmds (s : State) (a : Nat) (f : AsidDesc → AsidDesc) : (s.modAsid a f).cmds = s.cmds := rfl
@[simp] theorem State.modAsid_tiles (s : State) (a : Nat) (f : AsidDesc → AsidDesc) : (s.modAsid a f).tiles = s.tiles := rfl
@[simp] theorem State.modAsid_hampers (s : State) (a : Nat) (f : AsidDesc → AsidDesc) : (s.modAsid a f).hampers = s.hampers := rfl

/-! ## modPeer -/

@[simp] theorem State.modPeer_mem (s : State) (p : Nat) (f : Peer → Peer) : (s.modPeer p f).mem = s.mem := rfl
@[simp] theorem State.modPeer_bad (s : State) (p : Nat) (f : Peer → Peer) : (s.modPeer p f).bad = s.bad := rfl
@[simp] theorem State.modPeer_hurts (s : State) (p : Nat) (f : Peer → Peer) : (s.modPeer p f).hurts = s.hurts := rfl
@[simp] theorem State.modPeer_ftime (s : State) (p : Nat) (f : Peer → Peer) : (s.modPeer p f).ftime = s.ftime := rfl
@[simp] theorem State.modPeer_clock (s : State) (p : Nat) (f : Peer → Peer) : (s.modPeer p f).clock = s.clock := rfl
@[simp] theorem State.modPeer_turn (s : State) (p : Nat) (f : Peer → Peer) : (s.modPeer p f).turn = s.turn := rfl
@[simp] theorem State.modPeer_cur (s : State) (p : Nat) (f : Peer → Peer) : (s.modPeer p f).cur = s.cur := rfl
@[simp] theorem State.modPeer_agenda (s : State) (p : Nat) (f : Peer → Peer) : (s.modPeer p f).agenda = s.agenda := rfl
@[simp] theorem State.modPeer_mg (s : State) (p : Nat) (f : Peer → Peer) : (s.modPeer p f).mg = s.mg := rfl
@[simp] theorem State.modPeer_power (s : State) (p : Nat) (f : Peer → Peer) : (s.modPeer p f).power = s.power := rfl
@[simp] theorem State.modPeer_wgs (s : State) (p : Nat) (f : Peer → Peer) : (s.modPeer p f).wgs = s.wgs := rfl
@[simp] theorem State.modPeer_launches (s : State) (p : Nat) (f : Peer → Peer) : (s.modPeer p f).launches = s.launches := rfl
@[simp] theorem State.modPeer_gangs (s : State) (p : Nat) (f : Peer → Peer) : (s.modPeer p f).gangs = s.gangs := rfl
@[simp] theorem State.modPeer_queues (s : State) (p : Nat) (f : Peer → Peer) : (s.modPeer p f).queues = s.queues := rfl
@[simp] theorem State.modPeer_cores (s : State) (p : Nat) (f : Peer → Peer) : (s.modPeer p f).cores = s.cores := rfl
@[simp] theorem State.modPeer_asids (s : State) (p : Nat) (f : Peer → Peer) : (s.modPeer p f).asids = s.asids := rfl
@[simp] theorem State.modPeer_cmds (s : State) (p : Nat) (f : Peer → Peer) : (s.modPeer p f).cmds = s.cmds := rfl
@[simp] theorem State.modPeer_tiles (s : State) (p : Nat) (f : Peer → Peer) : (s.modPeer p f).tiles = s.tiles := rfl
@[simp] theorem State.modPeer_hampers (s : State) (p : Nat) (f : Peer → Peer) : (s.modPeer p f).hampers = s.hampers := rfl

/-! ## at -/

@[simp] theorem State.at_mem (s : State) (due : Nat) (ev : Instr) : (s.at due ev).mem = s.mem := rfl
@[simp] theorem State.at_bad (s : State) (due : Nat) (ev : Instr) : (s.at due ev).bad = s.bad := rfl
@[simp] theorem State.at_hurts (s : State) (due : Nat) (ev : Instr) : (s.at due ev).hurts = s.hurts := rfl
@[simp] theorem State.at_ftime (s : State) (due : Nat) (ev : Instr) : (s.at due ev).ftime = s.ftime := rfl
@[simp] theorem State.at_clock (s : State) (due : Nat) (ev : Instr) : (s.at due ev).clock = s.clock := rfl
@[simp] theorem State.at_turn (s : State) (due : Nat) (ev : Instr) : (s.at due ev).turn = s.turn := rfl
@[simp] theorem State.at_cur (s : State) (due : Nat) (ev : Instr) : (s.at due ev).cur = s.cur := rfl
@[simp] theorem State.at_mg (s : State) (due : Nat) (ev : Instr) : (s.at due ev).mg = s.mg := rfl
@[simp] theorem State.at_power (s : State) (due : Nat) (ev : Instr) : (s.at due ev).power = s.power := rfl
@[simp] theorem State.at_wgs (s : State) (due : Nat) (ev : Instr) : (s.at due ev).wgs = s.wgs := rfl
@[simp] theorem State.at_launches (s : State) (due : Nat) (ev : Instr) : (s.at due ev).launches = s.launches := rfl
@[simp] theorem State.at_gangs (s : State) (due : Nat) (ev : Instr) : (s.at due ev).gangs = s.gangs := rfl
@[simp] theorem State.at_queues (s : State) (due : Nat) (ev : Instr) : (s.at due ev).queues = s.queues := rfl
@[simp] theorem State.at_cores (s : State) (due : Nat) (ev : Instr) : (s.at due ev).cores = s.cores := rfl
@[simp] theorem State.at_asids (s : State) (due : Nat) (ev : Instr) : (s.at due ev).asids = s.asids := rfl
@[simp] theorem State.at_cmds (s : State) (due : Nat) (ev : Instr) : (s.at due ev).cmds = s.cmds := rfl
@[simp] theorem State.at_tiles (s : State) (due : Nat) (ev : Instr) : (s.at due ev).tiles = s.tiles := rfl
@[simp] theorem State.at_hampers (s : State) (due : Nat) (ev : Instr) : (s.at due ev).hampers = s.hampers := rfl

/-! ## later -/

@[simp] theorem State.later_mem (s : State) (ns : Nat) (ev : Instr) : (s.later ns ev).mem = s.mem := rfl
@[simp] theorem State.later_bad (s : State) (ns : Nat) (ev : Instr) : (s.later ns ev).bad = s.bad := rfl
@[simp] theorem State.later_hurts (s : State) (ns : Nat) (ev : Instr) : (s.later ns ev).hurts = s.hurts := rfl
@[simp] theorem State.later_ftime (s : State) (ns : Nat) (ev : Instr) : (s.later ns ev).ftime = s.ftime := rfl
@[simp] theorem State.later_clock (s : State) (ns : Nat) (ev : Instr) : (s.later ns ev).clock = s.clock := rfl
@[simp] theorem State.later_turn (s : State) (ns : Nat) (ev : Instr) : (s.later ns ev).turn = s.turn := rfl
@[simp] theorem State.later_cur (s : State) (ns : Nat) (ev : Instr) : (s.later ns ev).cur = s.cur := rfl
@[simp] theorem State.later_mg (s : State) (ns : Nat) (ev : Instr) : (s.later ns ev).mg = s.mg := rfl
@[simp] theorem State.later_power (s : State) (ns : Nat) (ev : Instr) : (s.later ns ev).power = s.power := rfl
@[simp] theorem State.later_wgs (s : State) (ns : Nat) (ev : Instr) : (s.later ns ev).wgs = s.wgs := rfl
@[simp] theorem State.later_launches (s : State) (ns : Nat) (ev : Instr) : (s.later ns ev).launches = s.launches := rfl
@[simp] theorem State.later_gangs (s : State) (ns : Nat) (ev : Instr) : (s.later ns ev).gangs = s.gangs := rfl
@[simp] theorem State.later_queues (s : State) (ns : Nat) (ev : Instr) : (s.later ns ev).queues = s.queues := rfl
@[simp] theorem State.later_cores (s : State) (ns : Nat) (ev : Instr) : (s.later ns ev).cores = s.cores := rfl
@[simp] theorem State.later_asids (s : State) (ns : Nat) (ev : Instr) : (s.later ns ev).asids = s.asids := rfl
@[simp] theorem State.later_cmds (s : State) (ns : Nat) (ev : Instr) : (s.later ns ev).cmds = s.cmds := rfl
@[simp] theorem State.later_tiles (s : State) (ns : Nat) (ev : Instr) : (s.later ns ev).tiles = s.tiles := rfl
@[simp] theorem State.later_hampers (s : State) (ns : Nat) (ev : Instr) : (s.later ns ev).hampers = s.hampers := rfl

/-! ## stamp -/

@[simp] theorem State.stamp_mem (s : State) : (s.stamp).mem = s.mem := rfl
@[simp] theorem State.stamp_bad (s : State) : (s.stamp).bad = s.bad := rfl
@[simp] theorem State.stamp_hurts (s : State) : (s.stamp).hurts = s.hurts := rfl
@[simp] theorem State.stamp_ftime (s : State) : (s.stamp).ftime = s.ftime := rfl
@[simp] theorem State.stamp_clock (s : State) : (s.stamp).clock = s.clock := rfl
@[simp] theorem State.stamp_turn (s : State) : (s.stamp).turn = s.turn := rfl
@[simp] theorem State.stamp_cur (s : State) : (s.stamp).cur = s.cur := rfl
@[simp] theorem State.stamp_agenda (s : State) : (s.stamp).agenda = s.agenda := rfl
@[simp] theorem State.stamp_mg (s : State) : (s.stamp).mg = s.mg := rfl
@[simp] theorem State.stamp_power (s : State) : (s.stamp).power = s.power := rfl
@[simp] theorem State.stamp_wgs (s : State) : (s.stamp).wgs = s.wgs := rfl
@[simp] theorem State.stamp_launches (s : State) : (s.stamp).launches = s.launches := rfl
@[simp] theorem State.stamp_gangs (s : State) : (s.stamp).gangs = s.gangs := rfl
@[simp] theorem State.stamp_queues (s : State) : (s.stamp).queues = s.queues := rfl
@[simp] theorem State.stamp_cores (s : State) : (s.stamp).cores = s.cores := rfl
@[simp] theorem State.stamp_asids (s : State) : (s.stamp).asids = s.asids := rfl
@[simp] theorem State.stamp_cmds (s : State) : (s.stamp).cmds = s.cmds := rfl
@[simp] theorem State.stamp_tiles (s : State) : (s.stamp).tiles = s.tiles := rfl
@[simp] theorem State.stamp_hampers (s : State) : (s.stamp).hampers = s.hampers := rfl

/-! ## toMgmt -/

@[simp] theorem State.toMgmt_mem (s : State) (m : MgmtOut) : (s.toMgmt m).mem = s.mem := rfl
@[simp] theorem State.toMgmt_bad (s : State) (m : MgmtOut) : (s.toMgmt m).bad = s.bad := rfl
@[simp] theorem State.toMgmt_hurts (s : State) (m : MgmtOut) : (s.toMgmt m).hurts = s.hurts := rfl
@[simp] theorem State.toMgmt_ftime (s : State) (m : MgmtOut) : (s.toMgmt m).ftime = s.ftime := rfl
@[simp] theorem State.toMgmt_clock (s : State) (m : MgmtOut) : (s.toMgmt m).clock = s.clock := rfl
@[simp] theorem State.toMgmt_turn (s : State) (m : MgmtOut) : (s.toMgmt m).turn = s.turn := rfl
@[simp] theorem State.toMgmt_cur (s : State) (m : MgmtOut) : (s.toMgmt m).cur = s.cur := rfl
@[simp] theorem State.toMgmt_agenda (s : State) (m : MgmtOut) : (s.toMgmt m).agenda = s.agenda := rfl
@[simp] theorem State.toMgmt_mg (s : State) (m : MgmtOut) : (s.toMgmt m).mg = s.mg := rfl
@[simp] theorem State.toMgmt_power (s : State) (m : MgmtOut) : (s.toMgmt m).power = s.power := rfl
@[simp] theorem State.toMgmt_wgs (s : State) (m : MgmtOut) : (s.toMgmt m).wgs = s.wgs := rfl
@[simp] theorem State.toMgmt_launches (s : State) (m : MgmtOut) : (s.toMgmt m).launches = s.launches := rfl
@[simp] theorem State.toMgmt_gangs (s : State) (m : MgmtOut) : (s.toMgmt m).gangs = s.gangs := rfl
@[simp] theorem State.toMgmt_queues (s : State) (m : MgmtOut) : (s.toMgmt m).queues = s.queues := rfl
@[simp] theorem State.toMgmt_cores (s : State) (m : MgmtOut) : (s.toMgmt m).cores = s.cores := rfl
@[simp] theorem State.toMgmt_asids (s : State) (m : MgmtOut) : (s.toMgmt m).asids = s.asids := rfl
@[simp] theorem State.toMgmt_cmds (s : State) (m : MgmtOut) : (s.toMgmt m).cmds = s.cmds := rfl
@[simp] theorem State.toMgmt_tiles (s : State) (m : MgmtOut) : (s.toMgmt m).tiles = s.tiles := rfl
@[simp] theorem State.toMgmt_hampers (s : State) (m : MgmtOut) : (s.toMgmt m).hampers = s.hampers := rfl

/-! ## modCore -/

@[simp] theorem State.modCore_mem (s : State) (n : Nat) (f : Core → Core) : (s.modCore n f).mem = s.mem := rfl
@[simp] theorem State.modCore_bad (s : State) (n : Nat) (f : Core → Core) : (s.modCore n f).bad = s.bad := rfl
@[simp] theorem State.modCore_hurts (s : State) (n : Nat) (f : Core → Core) : (s.modCore n f).hurts = s.hurts := rfl
@[simp] theorem State.modCore_ftime (s : State) (n : Nat) (f : Core → Core) : (s.modCore n f).ftime = s.ftime := rfl
@[simp] theorem State.modCore_clock (s : State) (n : Nat) (f : Core → Core) : (s.modCore n f).clock = s.clock := rfl
@[simp] theorem State.modCore_turn (s : State) (n : Nat) (f : Core → Core) : (s.modCore n f).turn = s.turn := rfl
@[simp] theorem State.modCore_cur (s : State) (n : Nat) (f : Core → Core) : (s.modCore n f).cur = s.cur := rfl
@[simp] theorem State.modCore_agenda (s : State) (n : Nat) (f : Core → Core) : (s.modCore n f).agenda = s.agenda := rfl
@[simp] theorem State.modCore_mg (s : State) (n : Nat) (f : Core → Core) : (s.modCore n f).mg = s.mg := rfl
@[simp] theorem State.modCore_power (s : State) (n : Nat) (f : Core → Core) : (s.modCore n f).power = s.power := rfl
@[simp] theorem State.modCore_wgs (s : State) (n : Nat) (f : Core → Core) : (s.modCore n f).wgs = s.wgs := rfl
@[simp] theorem State.modCore_launches (s : State) (n : Nat) (f : Core → Core) : (s.modCore n f).launches = s.launches := rfl
@[simp] theorem State.modCore_gangs (s : State) (n : Nat) (f : Core → Core) : (s.modCore n f).gangs = s.gangs := rfl
@[simp] theorem State.modCore_queues (s : State) (n : Nat) (f : Core → Core) : (s.modCore n f).queues = s.queues := rfl
@[simp] theorem State.modCore_asids (s : State) (n : Nat) (f : Core → Core) : (s.modCore n f).asids = s.asids := rfl
@[simp] theorem State.modCore_cmds (s : State) (n : Nat) (f : Core → Core) : (s.modCore n f).cmds = s.cmds := rfl
@[simp] theorem State.modCore_tiles (s : State) (n : Nat) (f : Core → Core) : (s.modCore n f).tiles = s.tiles := rfl
@[simp] theorem State.modCore_hampers (s : State) (n : Nat) (f : Core → Core) : (s.modCore n f).hampers = s.hampers := rfl

/-! ## jump -/

@[simp] theorem State.jump_mem (s : State) (id : FibId) (pc : Word) : (s.jump id pc).mem = s.mem := rfl
@[simp] theorem State.jump_bad (s : State) (id : FibId) (pc : Word) : (s.jump id pc).bad = s.bad := rfl
@[simp] theorem State.jump_hurts (s : State) (id : FibId) (pc : Word) : (s.jump id pc).hurts = s.hurts := rfl
@[simp] theorem State.jump_ftime (s : State) (id : FibId) (pc : Word) : (s.jump id pc).ftime = s.ftime := rfl
@[simp] theorem State.jump_clock (s : State) (id : FibId) (pc : Word) : (s.jump id pc).clock = s.clock := rfl
@[simp] theorem State.jump_turn (s : State) (id : FibId) (pc : Word) : (s.jump id pc).turn = s.turn := rfl
@[simp] theorem State.jump_cur (s : State) (id : FibId) (pc : Word) : (s.jump id pc).cur = s.cur := rfl
@[simp] theorem State.jump_agenda (s : State) (id : FibId) (pc : Word) : (s.jump id pc).agenda = s.agenda := rfl
@[simp] theorem State.jump_mg (s : State) (id : FibId) (pc : Word) : (s.jump id pc).mg = s.mg := rfl
@[simp] theorem State.jump_power (s : State) (id : FibId) (pc : Word) : (s.jump id pc).power = s.power := rfl
@[simp] theorem State.jump_launches (s : State) (id : FibId) (pc : Word) : (s.jump id pc).launches = s.launches := rfl
@[simp] theorem State.jump_gangs (s : State) (id : FibId) (pc : Word) : (s.jump id pc).gangs = s.gangs := rfl
@[simp] theorem State.jump_queues (s : State) (id : FibId) (pc : Word) : (s.jump id pc).queues = s.queues := rfl
@[simp] theorem State.jump_cores (s : State) (id : FibId) (pc : Word) : (s.jump id pc).cores = s.cores := rfl
@[simp] theorem State.jump_asids (s : State) (id : FibId) (pc : Word) : (s.jump id pc).asids = s.asids := rfl
@[simp] theorem State.jump_cmds (s : State) (id : FibId) (pc : Word) : (s.jump id pc).cmds = s.cmds := rfl
@[simp] theorem State.jump_tiles (s : State) (id : FibId) (pc : Word) : (s.jump id pc).tiles = s.tiles := rfl
@[simp] theorem State.jump_hampers (s : State) (id : FibId) (pc : Word) : (s.jump id pc).hampers = s.hampers := rfl

/-! ## modG -/

@[simp] theorem State.modG_mem (s : State) (l w n : Nat) (f : GReg → GReg) : (s.modG l w n f).mem = s.mem := rfl
@[simp] theorem State.modG_bad (s : State) (l w n : Nat) (f : GReg → GReg) : (s.modG l w n f).bad = s.bad := rfl
@[simp] theorem State.modG_hurts (s : State) (l w n : Nat) (f : GReg → GReg) : (s.modG l w n f).hurts = s.hurts := rfl
@[simp] theorem State.modG_ftime (s : State) (l w n : Nat) (f : GReg → GReg) : (s.modG l w n f).ftime = s.ftime := rfl
@[simp] theorem State.modG_clock (s : State) (l w n : Nat) (f : GReg → GReg) : (s.modG l w n f).clock = s.clock := rfl
@[simp] theorem State.modG_turn (s : State) (l w n : Nat) (f : GReg → GReg) : (s.modG l w n f).turn = s.turn := rfl
@[simp] theorem State.modG_cur (s : State) (l w n : Nat) (f : GReg → GReg) : (s.modG l w n f).cur = s.cur := rfl
@[simp] theorem State.modG_agenda (s : State) (l w n : Nat) (f : GReg → GReg) : (s.modG l w n f).agenda = s.agenda := rfl
@[simp] theorem State.modG_mg (s : State) (l w n : Nat) (f : GReg → GReg) : (s.modG l w n f).mg = s.mg := rfl
@[simp] theorem State.modG_power (s : State) (l w n : Nat) (f : GReg → GReg) : (s.modG l w n f).power = s.power := rfl
@[simp] theorem State.modG_launches (s : State) (l w n : Nat) (f : GReg → GReg) : (s.modG l w n f).launches = s.launches := rfl
@[simp] theorem State.modG_gangs (s : State) (l w n : Nat) (f : GReg → GReg) : (s.modG l w n f).gangs = s.gangs := rfl
@[simp] theorem State.modG_queues (s : State) (l w n : Nat) (f : GReg → GReg) : (s.modG l w n f).queues = s.queues := rfl
@[simp] theorem State.modG_cores (s : State) (l w n : Nat) (f : GReg → GReg) : (s.modG l w n f).cores = s.cores := rfl
@[simp] theorem State.modG_asids (s : State) (l w n : Nat) (f : GReg → GReg) : (s.modG l w n f).asids = s.asids := rfl
@[simp] theorem State.modG_cmds (s : State) (l w n : Nat) (f : GReg → GReg) : (s.modG l w n f).cmds = s.cmds := rfl
@[simp] theorem State.modG_tiles (s : State) (l w n : Nat) (f : GReg → GReg) : (s.modG l w n f).tiles = s.tiles := rfl
@[simp] theorem State.modG_hampers (s : State) (l w n : Nat) (f : GReg → GReg) : (s.modG l w n f).hampers = s.hampers := rfl

/-! ## What an update gives -/

@[simp] theorem State.stamp_fresh (s : State) : s.stamp.fresh = s.fresh + 1 := rfl
@[simp] theorem State.toMgmt_mgmtOut (s : State) (m : MgmtOut) : (s.toMgmt m).mgmtOut = s.mgmtOut ++ [m] := rfl
@[simp] theorem State.later_ticks (s : State) (ns : Nat) (ev : Instr) : (s.later ns ev).ticks = s.ticks := rfl
@[simp] theorem State.at_ticks (s : State) (due : Nat) (ev : Instr) : (s.at due ev).ticks = s.ticks := rfl

theorem mem_agendaInsert (xs : List Timed) (x y : Timed) : y ∈ agendaInsert xs x ↔ y = x ∨ y ∈ xs := by
  induction xs with
  | nil => simp [agendaInsert]
  | cons z zs ih => unfold agendaInsert; (split <;> simp [ih]); tauto

/-- What is put on the agenda stands on it, and nothing leaves it. -/
theorem State.mem_at (s : State) (due : Nat) (ev : Instr) (y : Timed) : y ∈ (s.at due ev).agenda ↔ y = ⟨due, ev⟩ ∨ y ∈ s.agenda := mem_agendaInsert ..

end Sys2Proof.Machine
end

