-- ==== Sys2Proof/Tests/Slice0.lean ====
section
/-! SUPPORT. Tests: small states and, for each obligation, states and operands that meet its premises; words of every instruction, written field by field, and what they decode to; ill-formed terms. -/

namespace Sys2Proof.Tests

set_option Elab.async false

open Sys2Proof Sys2Proof.Machine Sys2Proof.Claims

/-! ## Small states -/

/-- The test launch: the probe's, with a ring in format slot 1. -/
def lau : Launch := { loadLaunch with formats := [0, 0x21] ++ List.replicate 6 0 }

/-- A fibre of it with a few values in its registers. -/
def fib (n : Nat) : Fibre := { Fibre.fresh lau n 0 with v := [0, 7, 3, 0, 5] ++ List.replicate 59 0 }

/-- The issue of a bundle, all of whose fibres execute. -/
def cur (ns : List Nat) : Cur := ⟨1, 0, ns, 0, 1, 0x07, 8, 4, false, [], [], []⟩

/-- One workgroup of these fibres that issues for these numbers; nothing in memory. -/
def st (fs : List Fibre) (ns : List Nat) : State :=
  { State.reset with launches := [lau], asids := [loadAsid], wgs := [{ Wg.start lau 0 0 with fibres := fs }], gangs := [⟨1, 0, .running, [0], false, false, false, 0, 0⟩],
                     cores := [{ Core.empty 0 with cupboard := [⟨1, 0, true⟩, ⟨1, 1, true⟩] }], cur := cur ns,
                     mg := { Mgmt.reset with mgmt := true, full := true, inForce := Config.offer0 }, svc := State.reset.svc.set 0 ⟨true, 0, false⟩ }

/-- Two fibres; and one alone. -/
def two : State := st [fib 0, fib 1] [0, 1]
def one : State := st [fib 0] [0]

/-- One fibre after a change. -/
def oneOf (h : Fibre → Fibre) : State := st [h (fib 0)] [0]

/-- The same with every fibre guarded by p0, which the fibres hold as given. -/
def split2 (a b : Bool) : State :=
  let s := st [{ fib 0 with p := [a, false, false, false, false, false, false] }, { fib 1 with p := [b, false, false, false, false, false, false] }] [0, 1]
  { s with cur := { s.cur with ctl := 0x00 } }

/-- A property of every fibre of the bundle, from one of the list of them. -/
theorem bundle_all {s : State} {P : Fibre → Prop} (h : ∀ f ∈ s.curFibs s.cur.fids, P f) : ∀ id f, s.inBundle id → s.fib id = some f → P f := by
  intro id f ⟨h1, h2, h3⟩ hf
  apply h
  simp only [State.curFibs, List.mem_filterMap]
  refine ⟨id.fid, h3, ?_⟩
  have : s.curId id.fid = id := by cases id; simp_all [State.curId]
  rw [this]; exact hf

/-! ## Witnesses: states and operands that meet the premises of each statement -/

/-- Existence, by evaluation. -/
theorem some_of {α : Type} {o : Option α} (h : o.isSome = true) : ∃ a, o = some a := Option.isSome_iff_exists.mp h
theorem some2_of {α β : Type} {o : Option (α × β)} (h : o.isSome = true) : ∃ a b, o = some (a, b) := by
  obtain ⟨⟨a, b⟩, h⟩ := some_of h; exact ⟨a, b, h⟩
theorem ok_of {ε α β : Type} {x : α × Except ε β} (h : x.2.toOption.isSome = true) : ∃ u a, x = (u, .ok a) := by
  obtain ⟨u, e | a⟩ := x
  · simp [Except.toOption] at h
  · exact ⟨u, a, rfl⟩
theorem ok2_of {ε α β : Type} {x : Except ε (α × β)} (h : x.toOption.isSome = true) : ∃ a b, x = .ok (a, b) := by
  obtain e | ⟨a, b⟩ := x
  · simp [Except.toOption] at h
  · exact ⟨a, b, rfl⟩

/-- The memory of the loaded machine: object table (objects 1 to 3, extents of 64 KiB), one packet of empty slots, the bottom segment and its first frame. -/
def table0 : List Host.Cell := [(65570, 1), (65575, 16), (65586, 2), (65602, 1), (65606, 64), (65607, 16), (65618, 3), (65634, 1), (65639, 16), (65650, 4)]
def code0 : List Host.Cell := [(131072, 7), (131073, 15), (131074, 15), (131083, 10), (131087, 10)]
def heap0 : List Host.Cell :=
  [(196608, 255), (196609, 255), (196610, 255), (196611, 255), (196612, 255), (196613, 255), (196614, 255), (196615, 255), (196616, 32), (196624, 255), (196625, 255), (196626, 255), (196627, 255), (196628, 16)]

theorem load_memory : (State.reset.load 0).mem = ⟨table0 ++ code0 ++ heap0, []⟩ := by decide +kernel

/-- The entries of objects 1 to 3. -/
def entries0 : List ObjCached := [⟨0, 1, 1, ⟨1, false, false, false, false, 0, 0x10000, 0, 0x20000, 0⟩⟩, ⟨0, 1, 2, ⟨1, false, false, false, false, 1, 0x10000, 0, 0x30000, 0⟩⟩, ⟨0, 1, 3, ⟨1, false, false, false, false, 0, 0x10000, 0, 0x40000, 0⟩⟩]

theorem table_entries : entries0.map (·.entry) = [0x10020, 0x10040, 0x10060].map (OEntry.read ⟨table0, []⟩) := by decide +kernel

/-- The fibre of the loaded machine, with a few values in its registers a code capability in c1 and one of the frame heap in c3; segment 0 is its first. -/
def mfib : Fibre := { fib 0 with c := (((fib 0).c.set 1 ⟨true, 1, 0xA0, 1, 0, 0x10000⟩).set 12 ⟨true, 2, 0xC4, 0, 0x20, 0⟩).set 3 ⟨true, 2, 0xFC, 0, 0x200, 0x100⟩ }

/-- A machine with that memory and a fibre, the translations of its objects at hand. -/
def memWith (cs : List Host.Cell) (tags : List Nat) (f : Fibre) : State :=
  { st [f] [0] with mem := ⟨cs, tags⟩, objCache := entries0, asids := [{ loadAsid with free := List.range' 1 63 }] }
def mem0 : State := memWith (table0 ++ code0 ++ heap0) [] mfib

/-- The same with the fibre changed. -/
def memOf (h : Fibre → Fibre) : State := mem0.modFib ⟨1, 0, 0⟩ h

/-- The translation of object 3 replaced by another entry. -/
def withEntry (s : State) (e : OEntry) : State := { s with objCache := [⟨0, 1, 3, e⟩] }

/-- The one fibre of a state. -/
def fibOf (s : State) : Fibre := (s.fib ⟨1, 0, 0⟩).getD mfib

/-- After a call; after a call into a fresh segment. -/
def called : State := (mem0.pushFrame ⟨1, 0, 0⟩ 8 none).getD mem0
def calledFar : State := ((mem0.setUsed 1 0 0x400).pushFrame ⟨1, 0, 0⟩ 8 none).getD mem0

/-- The heap in the body of a handler for tag 0x100 that segment 0 holds: the handler frame, and the body's in segment 1. -/
def body0 : List Host.Cell :=
  [(196608, 255), (196609, 255), (196610, 255), (196611, 255), (196612, 255), (196613, 255), (196614, 255), (196615, 255), (196616, 80), (196618, 1), (196624, 255), (196625, 255), (196626, 255),
   (196627, 255), (196628, 16), (196641, 1), (196645, 2), (196649, 1), (196650, 255), (196651, 15), (196652, 255), (196653, 255), (196654, 255), (196655, 255), (196656, 16), (196674, 1), (196684, 1),
   (196685, 26), (197640, 48), (197648, 4), (197649, 2), (197652, 16), (197654, 7), (197666, 1), (197676, 1), (197677, 26)]
def inBody : State := { memWith (table0 ++ code0 ++ body0) [] { mfib with seg := 1, hchain := 0 } with asids := [{ loadAsid with free := List.range' 2 62 }] }

theorem test_handle_writes : (mem0.install ⟨1, 0, 0⟩ 0x100 0xFFF 0x100 0x200).map (·.mem.cells) = some inBody.mem.cells := by decide +kernel

/-- A LIVE record with serial 1 in segment 5, of a stack that is segment 6 alone, and its capability in c2. -/
def cont0 : List Host.Cell :=
  [(0x30000 + 5 * 1024 + 10, 2), (0x30000 + 5 * 1024 + 0x10, 1), (0x30000 + 5 * 1024 + 0x14, 1), (0x30000 + 5 * 1024 + 0x30, 6), (0x30000 + 5 * 1024 + 0x34, 6)] ++
  (List.range 4).map (fun k => (0x30000 + 5 * 1024 + 0x3C + k, 255)) ++ [(0x30000 + 5 * 1024 + 0x42, 1)]
def withCont (f : Fibre) : Fibre := { f with c := f.c.set 2 ⟨true, 2, 0x03, 3, 5 * 1024, 0x10400⟩ }

/-- A translation at a port that answers leaves the state. -/
theorem atPort_ok {s : State} {id : FibId} {c : Cap} {o n : Nat} {w : Bool} {x : XOut} (hm : ∀ p, x ≠ .miss p) (hf : ∀ t, x ≠ .fault t) (hl : ∀ p, x ≠ .lost p)
    (h : s.xlatPort (dieOf (s.coreOf id)) (s.trayOk id.launch) ⟨s.asidOf id.launch, c.obj.toNat, o, n, w, c.kind == 4#4⟩ = x) : s.atPort id c o n w = (s, .ok x) := by
  unfold State.atPort
  simp only [h]

theorem atPort_pa {s : State} {id : FibId} {c : Cap} {o n : Nat} {w : Bool} {p : Nat} {nt : Bool}
    (h : s.xlatPort (dieOf (s.coreOf id)) (s.trayOk id.launch) ⟨s.asidOf id.launch, c.obj.toNat, o, n, w, c.kind == 4#4⟩ = .pa p nt) : s.atPort id c o n w = (s, .ok (.pa p nt)) :=
  atPort_ok (by simp) (by simp) (by simp) h

/-- An answer without a value. -/
theorem unit_ok {ε α : Type} {x : α × Except ε Unit} (h : x.2.toOption.isSome = true) : x = (x.1, .ok ()) := by
  obtain ⟨u, a, rfl⟩ := ok_of h; rfl

/-- One fibre whose scratchpad holds these bytes, and capabilities as mfib has them. -/
def withPad (cs : List Host.Cell) : State := { one with wgs := [{ Wg.start lau 0 0 with fibres := [mfib], scratch := ⟨cs, []⟩ }] }

/-- The properties of a value that is there. -/
theorem all_of {α : Type} {o : Option α} {P : α → Prop} [DecidablePred P] (h : o.all (fun a => decide (P a)) = true) : ∀ a, o = some a → P a := by
  intro a e; subst e; simpa using h

theorem exc_of {ε α : Type} {x : Except ε α} (h : x.toOption.isSome = true) : ∃ a, x = .ok a := by
  obtain e | a := x
  · simp [Except.toOption] at h
  · exact ⟨a, rfl⟩

/-- Package 1 is live, and its first pair works; a packet from it about object 3. -/
def lane0 : Lane := { Lane.reset with locked := true }
def livePeer : Peer := ⟨true, true, false, 0, 0, 0⟩
def linked (s : State) : State := { s with peers := s.peers.set 1 livePeer, pairs := [(0, { Pair.reset with credit0 := 8, lanes := [(0, lane0)] })] }
def pkt (k : BitVec 5) (n : Nat) (bs : List Byte) : Packet := { Packet.zero with kind := k, src := 1, asid := 1, obj := 3, tag := 5, len := n, payload := bs }
def got (p : Packet) : State := { linked mem0 with rxq := [p] }


/-- Later fabric times. -/
def at_ (n : DWord) (s : State) : State := { s with ftime := n }
theorem wit_integer_r_forms : (∃ F, intForm (.add 1 2 3 false false false) = some F) ∧ two.lone (.add 1 2 3 false false false) = true :=
  ⟨⟨_, rfl⟩, by decide +kernel⟩

theorem wit_integer_division : (∃ d a b g op, divRem (.div 5 1 2 false false false) = some (d, a, b, g, op) ∧
    ∀ id f, two.inBundle id → two.fib id = some f → f.guard two.cur.ctl = true → f.reg b.toNat = 0 → f.fmode.getLsbD 11 = false) ∧
    two.lone (.div 5 1 2 false false false) = true :=
  ⟨⟨_, _, _, _, _, rfl, bundle_all (by decide +kernel)⟩, by decide +kernel⟩

/-- The fibre with IDZT set. -/
def idzt : State := oneOf (fun f => { f with fmode := 0x800 })

theorem wit_divide_trap : ∃ f, idzt.alone (.div 5 1 3 false false false) f = true ∧ f.reg 3 = 0 ∧ f.fmode.getLsbD 11 = true :=
  ⟨{ fib 0 with fmode := 0x800 }, by decide +kernel⟩

theorem wit_immediate_and_four_operand_forms : (∃ l w, plainForm (.addi 1 2 5) = some (l, w)) ∧ two.lone (.addi 1 2 5) = true :=
  ⟨⟨_, _, rfl⟩, by decide +kernel⟩

theorem wit_compares_and_select : (∃ k p c, compareForm (.cmp 0 1 2 3 false 2) = some (k, p, c)) ∧ two.lone (.cmp 0 1 2 3 false 2) = true ∧ two.lone (.sel 1 2 3 false false 0) = true :=
  ⟨⟨_, _, _, rfl⟩, by decide +kernel⟩

theorem wit_float_r_forms : ∃ F, floatForm (.fadd 1 2 3 false 0 0) = some F ∧ two.lone (.fadd 1 2 3 false 0 0) = true ∧
    ∀ id f, two.inBundle id → two.fib id = some f → f.guard two.cur.ctl = true → f.quietOn (F.value two f).2 = true :=
  ⟨_, rfl, by decide +kernel, bundle_all (by decide +kernel)⟩

theorem wit_fused_and_class_forms : ∃ d l w, fusedForm (.ffma 1 2 3 4) = some (d, l, w) ∧ two.lone (.ffma 1 2 3 4) = true ∧
    ∀ id f, two.inBundle id → two.fib id = some f → f.guard two.cur.ctl = true → f.quietOn (w two f).2 = true :=
  ⟨_, _, _, rfl, by decide +kernel, bundle_all (by decide +kernel)⟩

theorem wit_float_division_and_compare : (two.lone (.fdiv 1 2 2 false 0 0) = true ∧
    ∀ id f, two.inBundle id → two.fib id = some f → f.guard two.cur.ctl = true →
      f.quietOn (elements 0 (opVal two f false 2) (f.reg 2) (fun fm => element fm (ftz f) (fm.divBits .rne))).2 = true) ∧
    two.lone (.fcmp 0 1 2 3 false 0 2) = true ∧
    ∀ id f, two.inBundle id → two.fib id = some f → f.guard two.cur.ctl = true →
      f.quietOn (if (floatPairs two f false 0 2 3).any (fun x => floatNV x.1 2 x.2.1 x.2.2) then 1 else 0) = true :=
  ⟨⟨by decide +kernel, bundle_all (by decide +kernel)⟩, by decide +kernel, bundle_all (by decide +kernel)⟩

theorem wit_float_traps_and_special_cases : ∃ f F, floatForm (.frcp 1 3 false 0 0) = some F ∧ (oneOf (fun f => { f with fmode := 0x400 })).alone (.frcp 1 3 false 0 0) f = true ∧
    f.quietOn (F.value (oneOf (fun f => { f with fmode := 0x400 })) f).2 = false :=
  ⟨{ fib 0 with fmode := 0x400 }, _, rfl, by decide +kernel⟩

theorem wit_packed_integer_forms : ∃ d l w, packedForm (.add2 1 2 3 false true false) = some (d, l, w) ∧ two.lone (.add2 1 2 3 false true false) = true ∧
    ∀ id f, two.inBundle id → two.fib id = some f → f.guard two.cur.ctl = true → f.quietOn (w two f).2 = true :=
  ⟨_, _, _, rfl, by decide +kernel, bundle_all (by decide +kernel)⟩

theorem wit_format_conversions : ∃ w, formatForm (.cvt 1 2 0 0 0 false) = some w ∧ two.lone (.cvt 1 2 0 0 0 false) = true ∧
    ∀ id f, two.inBundle id → two.fib id = some f → f.guard two.cur.ctl = true → f.quietOn (w two f).2 = true :=
  ⟨_, rfl, by decide +kernel, bundle_all (by decide +kernel)⟩

/-- Capabilities: a local one in c14, and the launch's of object 3 in c13; c1 names the code. -/
def codeCap : Cap := ⟨true, 1, 0xA0, 1, 0, 0x10000⟩

theorem wit_capability_instructions : (∃ w, capForm (.cadd 1 13 2) = some w) ∧ two.lone (.cadd 1 13 2) = true ∧ two.lone (.ctest 0 1 13 2) = true :=
  ⟨⟨_, rfl⟩, by decide +kernel⟩

theorem wit_local_capabilities : intact one ∧ one.alone (.ldc 1 15 0 2) (fib 0) = true ∧ one.alone (.stc 13 15 0 2) (fib 0) = true ∧ ((fib 0).cap 15).kind = 2 ∧
    permits ((fib 0).cap 15) [0, 2] [7, 2] (offsetOf (fib 0) 0 32) 16 16 ∧ permits ((fib 0).cap 15) [0, 2] [6, 2] (offsetOf (fib 0) 0 32) 16 16 ∧
    (localPlace one (fib 0) ((fib 0).cap 15) 32).2 % 16 = 0 ∧ scratchThere one (localPlace one (fib 0) ((fib 0).cap 15) 32).1 := by
  unfold intact permits scratchThere; decide +kernel

theorem wit_stc_on_device_memory : one.alone (.stc 15 13 0 0) (fib 0) = true ∧ ((fib 0).cap 13).kind = 0 ∧ permits ((fib 0).cap 13) [0, 2] [6, 2] (offsetOf (fib 0) 0 0) 16 16 ∧
    one.isHeap (me one (fib 0)) ((fib 0).cap 13) = false ∧ ((fib 0).cap 15).tag = true ∧ ((fib 0).cap 15).rights.getLsbD 0 = false := by
  unfold permits; decide +kernel

theorem wit_scale_rings : two.lone (.scalep 1 1) = true ∧ two.lone (.scalec 1) = true ∧ two.exeOf ≠ [] ∧ two.lone (.scaleg 1 1) = true := by decide +kernel

/-- Two fibres whose masks name both. -/
def crew2 : State := st [{ fib 0 with cmask := 3 }, { fib 1 with cmask := 3 }] [0, 1]

theorem wit_crew_operations : ∃ (g : Wg) (r : Nat → Fibre → List WB × Word), crew2.lone (.shflx 5 1 2) = true ∧ crew2.launch crew2.cur.launch = some lau ∧ (lau.crew = 32 ∨ lau.crew = 64) ∧ crew2.wg crew2.cur.launch crew2.cur.wgid = some g ∧
    g.fibres.filter (fun f => f.fid / lau.crew == 0) = crew2.curFibs crew2.cur.fids ∧ crew2.cur.fids ≠ [] ∧
    (∀ f ∈ g.fibres, f.arrived = false) ∧ (∀ x ∈ crew2.allFibres, x.1.launch = crew2.cur.launch → ∀ a ∈ x.2.arr, a.done = true) ∧
    (∀ f ∈ crew2.curFibs crew2.cur.fids, f.cmask = 3 ∧ (3 : DWord).getLsbD (f.fid % lau.crew) = true ∧ f.fmode.getLsbD 9 = false) ∧
    ∀ n f, crewForm lau.crew (fun n => ((crew2.curFibs crew2.cur.fids).filter (fun f => f.guard crew2.cur.ctl)).find? (fun f => f.fid % lau.crew == n))
      (fun n => (3 : DWord).getLsbD n && (crew2.curFibs crew2.cur.fids).any (fun f => f.fid % lau.crew == n)) n f (.shflx 5 1 2) = some (r n f) :=
  ⟨{ Wg.start lau 0 0 with fibres := [{ fib 0 with cmask := 3 }, { fib 1 with cmask := 3 }] }, _, by decide +kernel, by decide +kernel, by decide +kernel, by decide +kernel, by decide +kernel, by decide +kernel,
    by decide +kernel, by decide +kernel, by decide +kernel, fun _ _ => rfl⟩

theorem wit_crew_mask : two.lone (.cmask 1 0) = true ∧ two.launch two.cur.launch = some lau := by decide +kernel

/-- The launch with CHECK set. -/
def checked (s : State) : State := { s with launches := [{ lau with check := true }] }

theorem wit_branches : (∃ w, branchForm (.bra 2) = some w) ∧ two.lone (.bra 2) = true ∧ two.lone (.loop 1 2) = true ∧ two.lone .nop = true ∧ two.lone .fence = true :=
  ⟨⟨_, rfl⟩, by decide +kernel⟩

theorem wit_bru : (two.lone (.bru 2) = true ∧ two.launch two.cur.launch = some lau ∧ two.exeOf = two.cur.fids) ∧
    ((split2 false false).lone (.bru 2) = true ∧ (split2 false false).exeOf = []) ∧
    ((split2 true false).lone (.bru 2) = true ∧ (split2 true false).exeOf ≠ [] ∧ (split2 true false).exeOf ≠ (split2 true false).cur.fids ∧ lau.check = false) ∧
    (checked (split2 true false)).lone (.bru 2) = true ∧ (checked (split2 true false)).launch 1 = some { lau with check := true } ∧
      (checked (split2 true false)).exeOf ≠ [] ∧ (checked (split2 true false)).exeOf ≠ (checked (split2 true false)).cur.fids := by decide +kernel

theorem wit_raising_instructions : (two.lone (.assert true 0) = true ∧ ∀ f ∈ two.curFibs two.exeOf, (f.pred 0 ^^ true) = true) ∧
    (one.alone (.assert false 0) (fib 0) = true ∧ ((fib 0).pred 0 ^^ false) = false) ∧
    one.alone .brk (fib 0) = true ∧ one.alone (.svc 5) (fib 0) = true ∧ one.alone (.perform 0 1) (fib 0) = true ∧ one.alone (.perform 0x100 1) (fib 0) = true ∧ one.alone (.performr 1 2) (fib 0) = true ∧
    one.alone (.performr 3 2) (fib 0) = true := by decide +kernel
theorem wit_calls : mem0.alone (.call 3) mfib = true ∧ held mem0 mfib mfib.seg ∧ mem0.alone (.calli 1 0 0) mfib = true ∧
    permits (mfib.cap 1) [1] [5] (offsetOf mfib 0 0) 16 16 ∧ mem0.lone (.jmpi 1 0 0) = true ∧
    ∀ f ∈ mem0.curFibs mem0.exeOf, permits (f.cap 1) [1] [5] (offsetOf f 0 0) 16 16 := by
  unfold permits held atHand; decide +kernel

/-- A number read from memory depends only on its bytes. -/
theorem num_congr {m m' : Mem} {a n : Nat} (h : ∀ k, k < n → m.get (a + k) = m'.get (a + k)) : m.num a n = m'.num a n := by
  simp only [Mem.num, Mem.read]
  congr 1
  exact List.map_congr_left (fun k hk => h k (List.mem_range.mp hk))

/-- So does an object-table entry. -/
theorem entry_congr {m m' : Mem} {a : Nat} (h : ∀ k, k < 32 → m.get (a + k) = m'.get (a + k)) : OEntry.read m a = OEntry.read m' a := by
  have h8 (d : Nat) (hd : d ≤ 24) : m.num (a + d) 8 = m'.num (a + d) 8 := num_congr (fun k hk => by have := h (d + k) (by omega); rwa [Nat.add_assoc])
  have h0 : m.num a 8 = m'.num a 8 := h8 0 (by omega)
  simp only [OEntry.read, h0, h8 8 (by omega), h8 16 (by omega), h8 24 (by omega)]

/-- A heap that is one extent, whose entry stays as it is, keeps its segments in place. -/
theorem segPA_stays (s : State) (m : Mem) (d : AsidDesc) (a seg pa : Nat) (hd : s.asid a = some d) (hl : d.live = true) (ho : d.heapObj < d.objects)
    (ht : (OEntry.read s.mem (d.entryPA d.heapObj)).typ = 1) (hs : 1024 * seg < (OEntry.read s.mem (d.entryPA d.heapObj)).size)
    (hp : (OEntry.read s.mem (d.entryPA d.heapObj)).t0.toNat % 2 ^ 40 + 1024 * seg = pa) (hb : pa < Config.memTop) (hm : ∀ k, k < 32 → m.get (d.entryPA d.heapObj + k) = s.mem.get (d.entryPA d.heapObj + k)) :
    ({ s with mem := m } : State).segPA a seg = some pa := by
  have e := entry_congr hm
  have hd' : ({ s with mem := m } : State).asid a = some d := hd
  unfold State.segPA State.paOf State.heapObj State.entry
  simp only [hd', Option.bind_some, hl, ho, e, decide_true, Bool.and_self, if_true, ht, hp, Nat.not_le.mpr hs, if_false, inMemory, hb]

/-- Two segments of the small states' heap lie apart, wherever other bytes change. -/
theorem apart_of {s : State} {d : AsidDesc} {m n : Nat} (hk : s.keyOf 1 = 0) (hy : s.keyed = []) (hd : s.asid 1 = some d) (hl : d.live = true) (ho : d.heapObj < d.objects)
    (ht : (OEntry.read s.mem (d.entryPA d.heapObj)).typ = 1) (he : d.entryPA d.heapObj + 32 ≤ 0x30000) (hb : (OEntry.read s.mem (d.entryPA d.heapObj)).t0.toNat % 2 ^ 40 = 0x30000)
    (hz : (OEntry.read s.mem (d.entryPA d.heapObj)).size = 0x10000) (hm : m < 64) (hn : n < 64) (hne : m ≠ n) : apart s 1 m n (0x30000 + 1024 * m) (0x30000 + 1024 * n) := by
  refine ⟨hk, hy, by omega, fun M hM => ⟨?_, ?_⟩⟩
  · exact segPA_stays s M d 1 m _ hd hl ho ht (by omega) (by rw [hb]) (by unfold Config.memTop; omega) (fun k hk => hM _ (Or.inl (by omega)) (Or.inl (by omega)))
  · exact segPA_stays s M d 1 n _ hd hl ho ht (by omega) (by rw [hb]) (by unfold Config.memTop; omega) (fun k hk => hM _ (Or.inl (by omega)) (Or.inl (by omega)))

theorem wit_pushed_frame : ∃ f, mem0.fib ⟨1, 0, 0⟩ = some f ∧ f.c.length = 16 ∧ 4 < 2 ^ 32 ∧ f.frameOff < 2 ^ 16 ∧ mem0.keyOf (mem0.asidOf 1) = 0 ∧ mem0.keyed = [] ∧
    16 ≤ mem0.used 1 f.seg ∧ mem0.used 1 f.seg + 16 ≤ 0x400 ∧
    ∀ m : Mem, (∀ x, (x < 0x30000 ∨ 0x30000 + 1024 ≤ x) → m.get x = mem0.mem.get x) → ({ mem0 with mem := m } : State).segPA 1 f.seg = some 0x30000 := by
  refine ⟨mfib, by decide +kernel, by decide +kernel, by decide +kernel, by decide +kernel, by decide +kernel, by decide +kernel, by decide +kernel, by decide +kernel, fun m h => ?_⟩
  exact segPA_stays mem0 m { loadAsid with free := List.range' 1 63 } 1 mfib.seg 0x30000 (by decide +kernel) (by decide +kernel) (by decide +kernel) (by decide +kernel) (by decide +kernel) (by decide +kernel) (by decide +kernel)
    (fun k hk => h _ (Or.inl (by have : ({ loadAsid with free := List.range' 1 63 } : AsidDesc).entryPA loadAsid.heapObj = 0x10040 := by decide +kernel
                                 show ({ loadAsid with free := List.range' 1 63 } : AsidDesc).entryPA loadAsid.heapObj + k < _
                                 omega)))
theorem wit_returns_and_exits : (noArrivals mem0 ∧ mem0.alone .ret mfib = true ∧ held mem0 mfib mfib.seg ∧ (myFrame mem0 mfib).ret = 0xFFFFFFFF) ∧
    (noArrivals called ∧ called.alone .ret (fibOf called) = true ∧ held called (fibOf called) (fibOf called).seg ∧ (myFrame called (fibOf called)).ret ≠ 0xFFFFFFFF ∧
      (myFrame called (fibOf called)).hb = false ∧ (myFrame called (fibOf called)).below = false) ∧
    (noArrivals calledFar ∧ calledFar.alone .ret (fibOf calledFar) = true ∧ held calledFar (fibOf calledFar) (fibOf calledFar).seg ∧ (myFrame calledFar (fibOf calledFar)).ret ≠ 0xFFFFFFFF ∧
      (myFrame calledFar (fibOf calledFar)).hb = false ∧ (myFrame calledFar (fibOf calledFar)).below = true ∧
      atHand (onTop calledFar (fibOf calledFar)) 0 1 (calledFar.link 1 (fibOf calledFar).seg)) ∧
    (noArrivals inBody ∧ inBody.alone .ret (fibOf inBody) = true ∧ held inBody (fibOf inBody) (fibOf inBody).seg ∧ (myFrame inBody (fibOf inBody)).ret ≠ 0xFFFFFFFF ∧
      (myFrame inBody (fibOf inBody)).hb = true ∧ atHand (onTop inBody (fibOf inBody)) 0 1 (inBody.link 1 (fibOf inBody).seg)) ∧
    mem0.alone .exit mfib = true := by
  unfold held atHand noArrivals; decide +kernel

theorem wit_frames_and_handlers : mem0.alone (.frame 16) mfib = true ∧ mem0.alone .unframe mfib = true ∧ mem0.alone (.handle 0x100 0xFFF 3 4) mfib = true ∧ held mem0 mfib mfib.seg ∧
    inBody.alone .unhandle (fibOf inBody) = true ∧ inBody.alone (.hret 1) (fibOf inBody) = true ∧ held inBody (fibOf inBody) (fibOf inBody).seg ∧
    (myFrame inBody (fibOf inBody)).hb = true ∧ atHand (onTop inBody (fibOf inBody)) 0 1 (inBody.link 1 (fibOf inBody).seg) ∧
    (inBody.hframe 1 (inBody.link 1 (fibOf inBody).seg)).state = 0 ∧ (fibOf inBody).hchain.toNat = inBody.link 1 (fibOf inBody).seg := by
  unfold held atHand; decide +kernel

theorem wit_effect_capture : (∃ d n1 n2 rest h oc, inBody.fib ⟨1, 0, 0⟩ = some (fibOf inBody) ∧ (fibOf inBody).spare = none ∧ (fibOf inBody).out = [] ∧ (fibOf inBody).infl = [] ∧
      2 ≤ (fibOf inBody).v.length ∧ (fibOf inBody).c.length = 16 ∧ inBody.asidOf 1 = 1 ∧ inBody.asid 1 = some d ∧ d.free = n1 :: n2 :: rest ∧ (inBody.core (inBody.coreOf ⟨1, 0, 0⟩)).fifo = [] ∧
      inBody.search 1 0x100 maxSegs (fibOf inBody).hchain.toNat rootFrame = (some h, oc)) ∧
    (0x0E0 ∉ [0x001, 0x002, 0x003, 0x004, 0x0D1, 0x0D2, 0x0F0, 0x0F1] ∧ (inBody.search 1 0x0E0 maxSegs (fibOf inBody).hchain.toNat rootFrame).1 = none ∧ inBody.launch 1 = some lau) := by
  refine ⟨⟨(inBody.asid 1).getD loadAsid, 2, 3, ((inBody.asid 1).getD loadAsid).free.drop 2, 0, rootFrame, ?_⟩, ?_⟩ <;> decide +kernel

/-- The two states with a continuation: at the first frame, and in a body frame for a tail resumption. -/
def cont1 : State := memWith (table0 ++ code0 ++ heap0 ++ cont0) [] (withCont mfib)
def cont2 : State := memWith (table0 ++ code0 ++ body0 ++ cont0) [] { withCont mfib with seg := 1, hchain := 0 }

/-- The continuation of c2 in these states: its record is segment 5. -/
def contCap (s : State) : Cap := (fibOf s).cap 2
def contOf (s : State) (dest : Nat) : State := claimed s.gone 1 (contCap s) dest

theorem wit_continuations : claimable cont1 (myAsid cont1) (contCap cont1) ∧ (contOf cont1 2).recBad 1 5 = false ∧ cont1.alone (.resume 2 1 false) (fibOf cont1) = true ∧
    cont1.alone (.resumex false 2 1 2) (fibOf cont1) = true ∧ cont1.alone (.discard 2) (fibOf cont1) = true ∧ BitVec.ofNat 12 ((fibOf cont1).reg 2).toNat ≠ 0 ∧
    ∃ d, cont1.asid (myAsid cont1) = some d := by
  refine ⟨by unfold claimable; decide +kernel, by decide +kernel, by decide +kernel, by decide +kernel, by decide +kernel, by decide +kernel, some_of (by decide +kernel)⟩

theorem wit_continuations_tail : claimable cont2 (myAsid cont2) (contCap cont2) ∧ (contOf cont2 2).recBad 1 5 = false ∧ cont2.alone (.resume 2 1 true) (fibOf cont2) = true ∧
    cont2.alone (.resumex true 2 1 2) (fibOf cont2) = true ∧ (myFrame cont2 (fibOf cont2)).hb = true ∧ BitVec.ofNat 12 ((fibOf cont2).reg 2).toNat ≠ 0 := by
  unfold claimable; decide +kernel

/-- The same continuation with a full record. -/
def cont3 : State := { cont1 with mem := cont1.mem.set 0x31419 0x10 }
theorem wit_continuations_linked : (apart (contOf cont1 2) (myAsid cont1) 5 6 0x31400 0x31800 ∧ (contOf cont1 2).segNum 1 5 0x34 4 = 6 ∧ (fibOf cont1).hchain = 0xFFFFFFFF ∧ (contOf cont1 2).segNum 1 5 0x3C 4 = 0xFFFFFFFF ∧
      (contOf cont1 2).segNum 1 5 0x18 4 % 0x1000 ≠ 4 ∧ (contOf cont1 2).segNum 1 5 0x18 4 / 0x1000 % 2 = 0 ∧ (fibOf cont1).out = [] ∧ (fibOf cont1).infl = [] ∧ 0 < (fibOf cont1).v.length) ∧
    apart (contOf cont3 2) (myAsid cont3) 5 6 0x31400 0x31800 ∧ (contOf cont3 2).segNum 1 5 0x18 4 = 0x1000 ∧ claimable cont3 (myAsid cont3) (contCap cont3) ∧ cont3.alone (.resume 2 1 false) (fibOf cont3) = true := by
  unfold claimable
  refine ⟨⟨apart_of (d := (cont1.asid 1).getD loadAsid) (m := 5) (n := 6) ?_ ?_ ?_ ?_ ?_ ?_ ?_ ?_ ?_ ?_ ?_ ?_, ?_⟩,
    apart_of (d := (cont1.asid 1).getD loadAsid) (m := 5) (n := 6) ?_ ?_ ?_ ?_ ?_ ?_ ?_ ?_ ?_ ?_ ?_ ?_, ?_⟩ <;> decide +kernel

/-- Continuations that may not be claimed: without tag, of another kind, without right M, consumed. -/
def contBut (h : Cap → Cap) : State := memWith (table0 ++ code0 ++ heap0 ++ cont0) [] { mfib with c := (withCont mfib).c.set 2 (h (contCap cont1)) }
theorem wit_continuations_barred : ∀ s ∈ [contBut (fun k => { k with tag := false }), contBut (fun k => { k with kind := 1 }), contBut (fun k => { k with rights := 1 }), contOf cont1 2],
    s.alone (.resume 2 1 false) (fibOf s) = true ∧ s.alone (.discard 2) (fibOf s) = true ∧ s.alone (.resumex false 2 1 2) (fibOf s) = true ∧ ¬ claimable s (myAsid s) (contCap s) := by
  unfold claimable; decide +kernel

theorem wit_spawn : mem0.alone (.spawn 3 1 0 2) mfib = true ∧ permits (mfib.cap 1) [1] [5] (offsetOf mfib 0 0) 16 16 ∧ mfib.mark = none ∧ (mem0.core (myCore mem0 mfib)).fifo = [] ∧ mfib.spare = none ∧
    ∃ x, mem0.asid (myAsid mem0) = some x ∧ x.free = 1 :: 2 :: List.range' 3 61 ∧ apart mem0 (myAsid mem0) 1 2 0x30400 0x30800 := by
  refine ⟨by decide +kernel, by unfold permits; decide +kernel, by decide +kernel, by decide +kernel, by decide +kernel, (mem0.asid 1).getD loadAsid, by decide +kernel, by decide +kernel,
    apart_of (d := (mem0.asid 1).getD loadAsid) (m := 1) (n := 2) ?_ ?_ ?_ ?_ ?_ ?_ ?_ ?_ ?_ ?_ ?_ ?_⟩ <;> decide +kernel
theorem wit_access_checks : (∃ c x d n ks rs, accessForm (.ld32 5 0 0 1) = some (c, x, d, n, ks, rs) ∧ ¬ permits (mfib.cap c.toNat) ks rs (offsetOf mfib x d) n n) ∧
    mem0.alone (.ld32 5 0 0 1) mfib = true :=
  ⟨⟨_, _, _, _, _, _, rfl, by unfold permits; decide +kernel⟩, by decide +kernel⟩

theorem wit_local_accesses : intact two ∧ intact one ∧ (∃ c x d n ks rs val, accessForm (.ld32 5 15 0 1) = some (c, x, d, n, ks, rs) ∧ loadForm (.ld32 5 15 0 1) = some val ∧ two.lone (.ld32 5 15 0 1) = true ∧
      ∀ f ∈ two.curFibs two.exeOf, (f.cap c.toNat).kind = 2 ∧ permits (f.cap c.toNat) ks rs (offsetOf f x d) n n) ∧
    ∃ c x t d n ks rs, accessForm (.st32 1 15 0 1) = some (c, x, d, n, ks, rs) ∧ storeForm (.st32 1 15 0 1) = some (t, n) ∧ one.alone (.st32 1 15 0 1) (fib 0) = true ∧
      ((fib 0).cap c.toNat).kind = 2 ∧ permits ((fib 0).cap c.toNat) ks rs (offsetOf (fib 0) x d) n n ∧ scratchThere one (localPlace one (fib 0) ((fib 0).cap c.toNat) (offsetOf (fib 0) x d)).1 :=
  ⟨rfl, rfl, ⟨_, _, _, _, _, _, _, rfl, rfl, by decide +kernel, by unfold permits; decide +kernel⟩, ⟨_, _, _, _, _, _, _, rfl, rfl, by decide +kernel, by decide +kernel, by unfold permits; decide +kernel, by unfold scratchThere; decide +kernel⟩⟩

/-- The machine with a line of object 3 in its L1. -/
def filled : State := mem0.l1Fill 0 1 3 0 0x40000

theorem wit_device_loads_hit : intact filled ∧ (∃ c x d n ks rs val bs, accessForm (.ld32 5 13 0 1) = some (c, x, d, n, ks, rs) ∧ loadForm (.ld32 5 13 0 1) = some val ∧ filled.alone (.ld32 5 13 0 1) mfib = true ∧
      (mfib.cap c.toNat).kind ≠ 2 ∧ permits (mfib.cap c.toNat) ks rs (offsetOf mfib x d) n n ∧ filled.isHeap (me filled mfib) (mfib.cap c.toNat) = false ∧
      filled.l1Hit (myCore filled mfib) (myAsid filled) 3 4 4 = some bs ∧ filled.storeAheadHere 0 1 3 4 4 = false) := by
  obtain ⟨bs, hb⟩ := some_of (o := filled.l1Hit (myCore filled mfib) (myAsid filled) 3 4 4) (by decide +kernel)
  exact ⟨by unfold intact; decide +kernel, _, _, _, _, _, _, _, bs, rfl, rfl, by decide +kernel, by decide +kernel, by unfold permits; decide +kernel, by decide +kernel, hb, by decide +kernel⟩

theorem wit_device_loads_miss : intact mem0 ∧ mem0.alone (.ld32 5 13 0 1) mfib = true ∧ (mem0.core 0).line 1 3 0 = none ∧ mem0.gone.atPort (me mem0 mfib) (mfib.cap 13) 4 4 false = (mem0.gone, .ok (.pa 0x40004 false)) ∧
    free mem0 0x40004 4 ∧ ((mem0.core 0).l1.filter (fun l => l.line % 64 == 0)).length < 8 :=
  ⟨rfl, by decide +kernel, by decide +kernel, atPort_pa (by decide +kernel), by unfold free; decide +kernel, by decide +kernel⟩

theorem wit_prefetches : (mem0.alone (.pref 1 0 0 0) mfib = true ∧ ¬ permits (mfib.cap 0) [0] [7] (offsetOf mfib 0 0) 1 1) ∧
    mem0.alone (.pref 0 13 0 0) mfib = true ∧ permits (mfib.cap 13) [0] [7] (offsetOf mfib 0 0) 1 1 ∧ mem0.isHeap (me mem0 mfib) (mfib.cap 13) = false ∧
    mem0.xlatNow (mem0.trayOk 1) ⟨1, 3, 0, 1, false, false⟩ = .pa 0x40000 false ∧ free mem0 0x40000 1 := by
  unfold permits free; decide +kernel

theorem wit_device_stores : intact mem0 ∧ mem0.alone (.st32 1 13 0 1) mfib = true ∧ (mfib.cap 13).kind ≠ 2 ∧ permits (mfib.cap 13) [0, 2, 4] [6] (offsetOf mfib 0 4) 4 4 ∧ mem0.isHeap (me mem0 mfib) (mfib.cap 13) = false ∧
    mem0.gone.atPort (me mem0 mfib) (mfib.cap 13) 4 4 true = (mem0.gone, .ok (.pa 0x40004 false)) ∧ mem0.cores.any (fun x => x.id == 0) = true ∧ (mem0.core 0).fifo.length < 256 :=
  ⟨rfl, by decide +kernel, by decide +kernel, by unfold permits; decide +kernel, by decide +kernel, atPort_pa (by decide +kernel), by decide +kernel, by decide +kernel⟩

theorem wit_heap_accesses : ∃ u p v q, mem0.alone (.ld32 5 3 0 1) mfib = true ∧ mem0.alone (.st32 1 3 0 1) mfib = true ∧ mem0.alone (.aadd 5 3 0 1 2) mfib = true ∧ mem0.isHeap (me mem0 mfib) (mfib.cap 3) = true ∧
    permits (mfib.cap 3) [0, 1, 2, 4] [7] (offsetOf mfib 0 4) 4 4 ∧ permits (mfib.cap 3) [0, 2, 4] [6] (offsetOf mfib 0 4) 4 4 ∧ permits (mfib.cap 3) [0, 2, 4] [4] (offsetOf mfib 0 0) 4 4 ∧
    mem0.gone.heapAt (me mem0 mfib) (mfib.cap 3) 0x204 4 false = (u, .ok p) ∧ mem0.gone.heapAt (me mem0 mfib) (mfib.cap 3) 0x204 4 true = (v, .ok q) := by
  obtain ⟨u, p, h⟩ := ok_of (x := mem0.gone.heapAt (me mem0 mfib) (mfib.cap 3) 0x204 4 false) (by decide +kernel)
  obtain ⟨v, q, k⟩ := ok_of (x := mem0.gone.heapAt (me mem0 mfib) (mfib.cap 3) 0x204 4 true) (by decide +kernel)
  exact ⟨u, p, v, q, by decide +kernel, by decide +kernel, by decide +kernel, by decide +kernel, by unfold permits; decide +kernel, by unfold permits; decide +kernel, by unfold permits; decide +kernel, h, k⟩

/-- Object 3 behind tray link 0, and at package 1, where the fibre's answer has come. -/
def answeredFib : Fibre := { mfib with resp := some [1, 2, 3, 4] }
def hosted (f : Fibre) : State := withEntry (memWith (table0 ++ heap0) [] f) ⟨4, false, false, false, false, 0, 0x10000, 0, 0x8000, 0⟩
def remote (f : Fibre) : State := withEntry (memWith (table0 ++ heap0) [] f) ⟨5, false, false, false, false, 0, 0x10000, 0, 0, 0x0000000700050001⟩

theorem wit_remote_loads : answeredFib.resp = some [1, 2, 3, 4] ∧ (hosted answeredFib).alone (.ld32 5 13 0 0) answeredFib = true ∧ (hosted answeredFib).l1Hit 0 1 3 0 4 = none ∧
    (hosted answeredFib).gone.atPort (me (hosted answeredFib) answeredFib) (answeredFib.cap 13) 0 4 false = ((hosted answeredFib).gone, .ok (.host 0 0x8000)) ∧
    (remote answeredFib).alone (.ld32 5 13 0 0) answeredFib = true ∧ (remote answeredFib).l1Hit 0 1 3 0 4 = none ∧
    (remote answeredFib).gone.atPort (me (remote answeredFib) answeredFib) (answeredFib.cap 13) 0 4 false = ((remote answeredFib).gone, .ok (.peer 1 5 7 false)) :=
  ⟨rfl, by decide +kernel, by decide +kernel, atPort_ok (by simp) (by simp) (by simp) (by decide +kernel), by decide +kernel, by decide +kernel, atPort_ok (by simp) (by simp) (by simp) (by decide +kernel)⟩

theorem wit_remote_stores : ∃ u m, (remote answeredFib).alone (.st32 1 13 0 0) answeredFib = true ∧ (remote answeredFib).l1Writable 0 1 3 0 = false ∧
    (remote answeredFib).gone.atPort (me (remote answeredFib) answeredFib) (answeredFib.cap 13) 0 4 true = ((remote answeredFib).gone, .ok (.peer 1 5 7 false)) ∧
    (hosted mfib).alone (.st32 1 13 0 0) mfib = true ∧ (hosted mfib).l1Writable 0 1 3 0 = false ∧
    (hosted mfib).gone.atPort (me (hosted mfib) mfib) (mfib.cap 13) 0 4 true = ((hosted mfib).gone, .ok (.host 0 0x8000)) ∧
    (hosted mfib).gone.hostRequest 0 (hostPacket 0x03#5 0x8000 4 ((List.range 4).map (storedByte mfib 1))) (.store (me (hosted mfib) mfib) (BitVec.ofInt 32 (offsetOf mfib 0 0))) 0 4 ⟨1, 3, some 0, true⟩ = some (u, m) ∧ 0x8000 % 1024 + 4 ≤ 1024 := by
  obtain ⟨u, m, h⟩ := some2_of (o := (hosted mfib).gone.hostRequest 0 (hostPacket 0x03#5 0x8000 4 ((List.range 4).map (storedByte mfib 1))) (.store (me (hosted mfib) mfib) (BitVec.ofInt 32 (offsetOf mfib 0 0))) 0 4 ⟨1, 3, some 0, true⟩) (by decide +kernel)
  exact ⟨u, m, by decide +kernel, by decide +kernel, atPort_ok (by simp) (by simp) (by simp) (by decide +kernel), by decide +kernel, by decide +kernel, atPort_ok (by simp) (by simp) (by simp) (by decide +kernel), h, by decide⟩

theorem wit_atomics : (∃ op ws, atomicForm (.aadd 5 15 0 1 2) = some (op, ws) ∧ atomicForm (.aadd 5 13 0 1 2) = some (op, ws)) ∧
    (intact one ∧ one.alone (.aadd 5 15 0 1 2) (fib 0) = true ∧ ((fib 0).cap 15).kind = 2 ∧ permits ((fib 0).cap 15) [0, 2, 4] [4] (offsetOf (fib 0) 0 0) 4 4 ∧ scratchThere one (localPlace one (fib 0) ((fib 0).cap 15) 0).1) ∧
    mem0.alone (.aadd 5 13 0 1 2) mfib = true ∧ permits (mfib.cap 13) [0, 2, 4] [4] (offsetOf mfib 0 0) 4 4 ∧ mem0.isHeap (me mem0 mfib) (mfib.cap 13) = false ∧
    mem0.gone.atPort (me mem0 mfib) (mfib.cap 13) 0 4 true = (mem0.gone, .ok (.pa 0x40000 false)) ∧ free mem0 0x40000 4 :=
  ⟨⟨_, _, rfl, rfl⟩, by unfold intact permits scratchThere; decide +kernel, by decide +kernel, by unfold permits; decide +kernel, by decide +kernel, atPort_pa (by decide +kernel), by unfold free; decide +kernel⟩

/-- The state after the release of an STL or NOTIFY. -/
def drained : State := (mem0.gone.releaseFor (me mem0 mfib) 2).1

theorem wit_acquiring_and_releasing_accesses : (mem0.alone (.lda 5 13 0 1) mfib = true ∧ permits (mfib.cap 13) [0, 1, 2, 4] [7] (offsetOf mfib 0 0) 4 4 ∧
      mem0.gone.atPort (me mem0 mfib) (mfib.cap 13) 0 4 false = (mem0.gone, .ok (.pa 0x40000 false)) ∧ free mem0 0x40000 4) ∧
    (intact one ∧ one.alone (.lda 5 15 0 1) (fib 0) = true ∧ ((fib 0).cap 15).kind = 2 ∧ permits ((fib 0).cap 15) [0, 1, 2, 4] [7] (offsetOf (fib 0) 0 0) 4 4) ∧
    mem0.alone (.stl 13 0 1 0) mfib = true ∧ mem0.gone.releaseFor (me mem0 mfib) 2 = (drained, .ok ()) ∧ permits (mfib.cap 13) [0, 2, 4] [6] (offsetOf mfib 0 0) 4 4 ∧
    drained.isHeap (me mem0 mfib) (mfib.cap 13) = false ∧ drained.atPort (me mem0 mfib) (mfib.cap 13) 0 4 true = (drained, .ok (.pa 0x40000 false)) ∧ free drained 0x40000 4 ∧ drained.asidOf 1 = myAsid mem0 :=
  ⟨⟨by decide +kernel, by unfold permits; decide +kernel, atPort_pa (by decide +kernel), by unfold free; decide +kernel⟩, by unfold intact permits; decide +kernel, by decide +kernel, unit_ok (by decide +kernel),
    by unfold permits; decide +kernel, by decide +kernel, atPort_pa (by decide +kernel), by unfold free; decide +kernel, by decide +kernel⟩
/-- A fibre that waits for a cell, and a bound queue whose TAIL stands in object 3. -/
def waiting : State := memWith (table0 ++ heap0) [] { mfib with wait := .cell 0x40000 false }
def bound : State := { mem0 with queues := [⟨0, ⟨1, 3, 0x100, 4, 3, 0x40, 1, false⟩, .idle, 0, [], [], none, none, none, false, false⟩] }

theorem wit_home_writes : (waiting.mem.wf = true ∧ waiting.tailWords = [] ∧ waiting.fib ⟨1, 0, 0⟩ = some { mfib with wait := .cell 0x40000 false } ∧ waiting.mem.get 0x40007 ≠ 1) ∧
    (mem0.tailWords = [] ∧ ∀ x ∈ mem0.allFibres, ∀ pa b, x.2.wait ≠ .cell pa b) ∧
    bound.mem.wf = true ∧ bound.tailWords = [0x40040] := by
  refine ⟨by decide +kernel, ⟨by decide +kernel, ?_⟩, by decide +kernel⟩
  have h : ∀ x ∈ mem0.allFibres, x.2.wait = .none := by decide +kernel
  intro x hx pa b; rw [h x hx]; simp

theorem wit_releases_and_acquires : mem0.alone (.rel 4) mfib = true ∧ mem0.alone (.acq 0) mfib = true ∧ mem0.alone (.acq 4) mfib = true ∧ mem0.alone (.phase 0) mfib = true ∧ mem0.alone (.phase 5) mfib = true ∧
    mem0.alone .ifence mfib = true := by decide +kernel

/-- A capability of the object table in c2. -/
def tableFib (k : Cap) : Fibre := { mfib with c := mfib.c.set 2 k }
def tables (k : Cap) : State := memWith (table0 ++ heap0) [] (tableFib k)

/-- The same with a peer's answer outstanding for an object of the address space. -/
def owed (obj : Nat) : State := { tables ⟨true, 1, 0xC0, 6, 0, 0⟩ with txs := [⟨1, 5, .get 3 0 4, 0, 0, ⟨1, obj, none, false⟩, [], 0⟩], fresh := 1 }

theorem wit_invalidations : ((tables ⟨true, 1, 0xC0, 6, 0, 0⟩).alone (.oinv 2 1) (tableFib ⟨true, 1, 0xC0, 6, 0, 0⟩) = true ∧ (tables ⟨true, 1, 0xC0, 6, 0, 0⟩).translated 1 (some 7) 0 = false) ∧
    ((tables ⟨false, 1, 0xC0, 6, 0, 0⟩).alone (.oinv 2 1) (tableFib ⟨false, 1, 0xC0, 6, 0, 0⟩) = true) ∧
    ((tables ⟨true, 1, 0xC0, 5, 0, 0⟩).alone (.oinv 2 1) (tableFib ⟨true, 1, 0xC0, 5, 0, 0⟩) = true) ∧
    ((tables ⟨true, 1, 0x80, 6, 0, 0⟩).alone (.oinv 2 1) (tableFib ⟨true, 1, 0x80, 6, 0, 0⟩) = true) ∧
    ((owed 7).alone (.oinv 2 1) (tableFib ⟨true, 1, 0xC0, 6, 0, 0⟩) = true ∧ (owed 7).translated 1 (some 7) (owed 7).fresh = true) ∧
    (owed 8).alone (.oinv 2 1) (tableFib ⟨true, 1, 0xC0, 6, 0, 0⟩) = true ∧ (owed 8).translated 1 (some 7) (owed 8).fresh = false := by decide +kernel

/-- The launch with a grid level, one of whose barriers has lost a member. -/
def gridLau : Launch := { lau with hier := lau.hier ++ [⟨8, 5, 4, 1⟩] }
def broken : State := { mem0 with launches := [gridLau], units := [⟨8, 2, 0, 1, 1, false, 0, true⟩] }

theorem wit_barriers : (mem0.alone (.bar 6 0) mfib = true ∧ mem0.launch 1 = some lau ∧ lau.hier.find? (fun x => x.domain == 6) = none) ∧
    (broken.alone (.bar 8 2) mfib = true ∧ broken.launch 1 = some gridLau ∧ gridLau.hier.find? (fun x => x.domain == 8) = some ⟨8, 5, 4, 1⟩ ∧ broken.barFailed 8 2 = true) ∧
    (lau.hier.find? (fun x => x.domain == 3) = some ⟨3, 0, 16, 1⟩ ∧ mem0.barFailed 3 15 = false ∧ mfib.arr.find? (fun a => a.level == 3 && a.num == 15) = none ∧ mfib.lost = 0 ∧ mfib.mark = none ∧ (mem0.gone.release 0 0 mem0.fresh).2 = true ∧
      mem0.alone (.bara 3 15) mfib = true ∧ mem0.alone (.bar 3 15) mfib = true ∧ mem0.alone (.barw 3 15) mfib = true) := by decide +kernel

/-- Two fibres of a crew barrier: one waits for it, the other has arrived or not. -/
def round (x : Bool) : State :=
  st [{ fib 0 with arr := [⟨3, 5, false⟩], wait := .barrier 3 5 (some 8) }, { fib 1 with arr := if x then [⟨3, 5, false⟩] else [] }] [0, 1]

theorem wit_rounds : ((round true).launch 1 = some lau ∧ lau.hier.find? (fun x => x.domain == 3) = some ⟨3, 0, 16, 1⟩) ∧ (∃ x ∈ (round false).barMembers lau 3 ⟨1, 0, 0⟩, x.2.pendingAt 3 5 = false) ∧
    (∀ x ∈ (round true).barMembers lau 3 ⟨1, 0, 0⟩, x.2.pendingAt 3 5 = true) ∧ (((round true).barMembers lau 3 ⟨1, 0, 0⟩).map (·.1)).Nodup ∧
    (∀ x ∈ (round true).barMembers lau 3 ⟨1, 0, 0⟩, (round true).fib x.1 = some x.2) ∧ ((round true).barMembers lau 3 ⟨1, 0, 0⟩).length = 2 := by decide +kernel

/-- The state after the release of a NOTIFY. -/
def notified : State := ((mem0.gone.l1Sync 0 1 3 0).releaseFor (me mem0 mfib) 5).1

theorem wit_memory_waits : (mem0.alone (.waitm 1 13 0 2 3) mfib = true ∧ mem0.alone (.waitm 0 13 0 2 3) mfib = true ∧ permits (mfib.cap 13) [0, 4] [4] (offsetOf mfib 0 0) 8 8 ∧ mem0.isHeap (me mem0 mfib) (mfib.cap 13) = false ∧
      free mem0 0x40000 8 ∧ cellHolds 1 0 (pairOf mfib 2) ∧ ¬ cellHolds 0 0 (pairOf mfib 2) ∧
      littleEndian ((mem0.gone.l1Sync 0 1 3 0).rd 0 0x40000 8) = 0) ∧
    mem0.alone (.notify 2 13 0 0) mfib = true ∧ permits (mfib.cap 13) [0, 4] [4, 6] (offsetOf mfib 0 0) 8 8 := by
  unfold permits free cellHolds; decide +kernel

theorem wit_memory_waits_port : mem0.gone.atPort (me mem0 mfib) (mfib.cap 13) 0 8 false = (mem0.gone, .ok (.pa 0x40000 false)) ∧ mem0.gone.atPort (me mem0 mfib) (mfib.cap 13) 0 8 true = (mem0.gone, .ok (.pa 0x40000 false)) ∧
    (mem0.gone.l1Sync 0 1 3 0).releaseFor (me mem0 mfib) 5 = (notified, .ok ()) :=
  ⟨atPort_pa (by decide +kernel), atPort_pa (by decide +kernel), unit_ok (by decide +kernel)⟩

/-- One fibre whose group register g9 is a pending token. -/
def pended : State := { one with wgs := [{ Wg.start lau 0 0 with fibres := [fib 0], g := (List.replicate 32 ⟨0, false, none, false⟩).set 9 ⟨0, true, none, false⟩ }] }

theorem wit_tokens_and_sleep : (two.lone (.waitt 0 9) = true ∧ (group two 9).pending = false) ∧ (pended.alone (.waitt 0 9) (fib 0) = true ∧ (group pended 9).pending = true) ∧
    two.lone (.tokq 1 9) = true ∧ two.lone (.sleep 0) = true ∧ two.lone (.sleep 3) = true := by decide +kernel

theorem wit_system_registers : two.lone (.gets 0 0x030) = true ∧ two.lone (.gets 0 0x040) = false ∧ two.lone (.sets 4 0x010) = true ∧ two.lone (.sets 4 0x020) = true ∧ two.lone (.sets 4 0x021) = true ∧ two.launch 1 = some lau := by decide +kernel

theorem wit_group_registers : two.lone (.getg 5 9) = true ∧ two.lone (.setg 9 4) = true ∧ (∃ w, two.wg 1 0 = some w ∧ 9 < w.g.length) ∧ (group two 9).setAt = none ∧ 0 ∈ two.exeOf ∧ (∀ m ∈ two.exeOf, 0 ≤ m) ∧ two.fib (two.curId 0) = some (fib 0) :=
  ⟨by decide +kernel, by decide +kernel, ⟨{ Wg.start lau 0 0 with fibres := [fib 0, fib 1] }, by decide +kernel⟩, by decide +kernel, by decide +kernel, by decide +kernel, by decide +kernel⟩

/-- The loaded machine with a tile of one row of four bytes described in g4 to g7. -/
def tiled : State := { mem0 with wgs := [{ Wg.start lau 0 0 with fibres := [mfib], g := (List.replicate 32 ⟨0, false, none, false⟩).set 5 ⟨4, false, none, false⟩ |>.set 6 ⟨0x1001, false, none, false⟩ |>.set 7 ⟨4, false, none, false⟩ }] }

theorem wit_tile_accesses : mem0.alone (.tld 1 4 13 0 false 1) mfib = true ∧ mem0.alone (.tst 1 4 13 0 false 1) mfib = true ∧ mem0.launch 1 = some lau ∧ mfib.resp = none ∧ tileGeo lau (tileWords mem0 4) = none ∧
    tiled.alone (.tld 1 4 13 0 false 1) mfib = true ∧ tiled.alone (.tst 1 4 13 0 false 1) mfib = true := by decide +kernel

/-- The geometry that they describe, and where the tile lies. -/
def tileY : TileGeo := ⟨⟨0, 0, 4, 0, 0, 1, 1, 1⟩, 1, 4, 4⟩
theorem tile_reached (w : Bool) (h : tiled.gone.xlatPort (dieOf (tiled.gone.coreOf (me tiled mfib))) (tiled.gone.trayOk (me tiled mfib).launch) ⟨tiled.gone.asidOf (me tiled mfib).launch, (mfib.cap 13).obj.toNat, 0, 4, w, (mfib.cap 13).kind == 4#4⟩ = .pa 0x40000 false) :
    tiled.gone.tileMem (me tiled mfib) (mfib.cap 13) tileY 0 w = (tiled.gone, .ok (.mem [0x40000, 0x40001, 0x40002, 0x40003])) := by
  have e : (tileY.ranges 0).flatMap (fun r => pieces 65536 r.1 r.2) = [(0, 4)] := by decide +kernel
  unfold State.tileMem
  rw [if_neg (by decide +kernel), e]
  simp only [State.tileReach, atPort_pa h]
  rfl
theorem wit_tile_starts : tileGeo lau (tileWords tiled 4) = some tileY ∧ (∀ p ∈ tileY.scratch, p < lau.sp * 65536) ∧ tokenThere tiled tiled.cur.launch tiled.cur.wgid 1 ∧
    (permits (mfib.cap 13) [0, 2] [7, 3] (mfib.reg 0).toNat tileY.span 64 ∧ permits (mfib.cap 13) [0, 2] [6, 3] (mfib.reg 0).toNat tileY.span 64 ∧
      (∀ l ∈ tileY.l1Lines 0, tiled.l1Dirty 0 1 3 (256 * l) = false) ∧
      tiled.gone.tileMem (me tiled mfib) (mfib.cap 13) tileY 0 false = (tiled.gone, .ok (.mem [0x40000, 0x40001, 0x40002, 0x40003])) ∧
      tiled.gone.tileMem (me tiled mfib) (mfib.cap 13) tileY 0 true = (tiled.gone, .ok (.mem [0x40000, 0x40001, 0x40002, 0x40003]))) ∧
    (permits (mfib.cap 15) [0, 2] [7, 3] (mfib.reg 0).toNat tileY.span 64 ∧ permits (mfib.cap 15) [0, 2] [6, 3] (mfib.reg 0).toNat tileY.span 64 ∧ tiled.tiles = [] ∧
      tiled.alone (.tld 1 4 15 0 false 1) mfib = true ∧ tiled.alone (.tst 1 4 15 0 false 1) mfib = true ∧
      ∃ as, ∀ w, tiled.gone.tileMem (me tiled mfib) (mfib.cap 15) tileY 0 w = (tiled.gone, .ok (.scratch as))) := by
  exact ⟨by decide +kernel, by decide +kernel, ⟨_, rfl, by decide +kernel⟩, ⟨by unfold permits; decide +kernel, by unfold permits; decide +kernel, by decide +kernel, tile_reached false (by decide +kernel), tile_reached true (by decide +kernel)⟩,
    by unfold permits; decide +kernel, by unfold permits; decide +kernel, by decide +kernel, by decide +kernel, by decide +kernel, _, fun _ => rfl⟩

/-- A tile access with two slices to go, one with its last slice to go as TLD and as TST, and one that has finished. -/
def tileOp : TileOp := ⟨7, true, 1, 0, 3, 0, 0, [(0x40000, 0x100)], [0, 1], [], [], true, 0, 1, .mem, 0, none⟩
def tileRun : State := { one with tiles := [tileOp] }
def tileLast (load : Bool) : State := { one with tiles := [{ tileOp with load := load, slices := [1], granted := [0x400] }] }
def tileEnd : State := { one with tiles := [{ tileOp with slices := [], data := [0x55], count := 1 }] }

theorem wit_tile_events : (tileRun.tile 7 = some tileOp ∧ tileOp.slices = [0, 1] ∧ tileOp.mark = none ∧ tileRun.tileStopped tileOp = false ∧ ∀ u ∈ tileRun.tiles, tileOp.waitsFor u 0 tileRun.tileStopped = false) ∧
    (∀ load, (tileLast load).tile 7 = some { tileOp with load := load, slices := [1], granted := [0x400] } ∧ (tileLast load).tileStopped { tileOp with load := load, slices := [1], granted := [0x400] } = false ∧
      (tileLast load).tileHurt { tileOp with load := load, slices := [1], granted := [0x400] } = false ∧
      ∀ u ∈ (tileLast load).tiles, ({ tileOp with load := load, slices := [1], granted := [0x400] } : TileOp).waitsFor u 1 (tileLast load).tileStopped = false) ∧
    (∃ t, tileEnd.tile 7 = some t ∧ t.finished = true ∧ t.ready = true ∧ tokenThere tileEnd t.launch t.wgid t.g) ∧ tileEnd.wakes = [] ∧ (∀ c ∈ tileEnd.cores, ∀ l ∈ c.l1, l.leaving = false) :=
  ⟨by decide +kernel, by decide +kernel, ⟨{ tileOp with slices := [], data := [0x55], count := 1 }, by decide +kernel, by decide +kernel, by decide +kernel, ⟨_, rfl, by decide +kernel⟩⟩, by decide +kernel, by decide +kernel⟩
/-- Scratchpads with a block for MZERO of 16 by 16, one for an MDRAIN that pushes to a slot without a ring, and an empty one. -/
def zeroPad : State := withPad [(4, 16), (6, 16), (56, 64)]
def badPad : State := withPad [(1, 0x40)]
def noPad : State := withPad []

theorem wit_engine_commands : intact zeroPad ∧ ∃ F c x, commandForm zeroPad (.mzero 1 0 15 0) = some (F, c, x) ∧ zeroPad.alone (.mzero 1 0 15 0) mfib = true ∧ zeroPad.launch 1 = some lau ∧ (mfib.cap c.toNat).kind = 2 ∧
    permits (mfib.cap c.toNat) [0, 2] [7] (mfib.reg x.toNat).toNat 64 64 ∧
    F.legal zeroPad.gone lau (localBlock zeroPad (localPlace zeroPad mfib (mfib.cap c.toNat) 0)) = true ∧ (F.limited && zeroPad.limitedOnly) = false ∧
    (∀ n, F.close (localBlock zeroPad (0, 0)) = some n → False) ∧ releaseMark zeroPad.gone (me zeroPad mfib) F.rel F.scope = (zeroPad.gone, .ok none) ∧
    F.check zeroPad.gone (me zeroPad mfib) lau (localBlock zeroPad (localPlace zeroPad mfib (mfib.cap c.toNat) 0)) = 0 ∧ zeroPad.cmds.length < 32 ∧
    tokenThere zeroPad 1 0 F.g :=
  ⟨rfl, _, _, _, rfl, by decide +kernel, by decide +kernel, by decide +kernel, by unfold permits; decide +kernel, by decide +kernel, by decide +kernel, by simp [mangleForm], by simp [releaseMark, mangleForm], by decide +kernel, by decide +kernel,
    ⟨_, rfl, by decide +kernel⟩⟩

theorem wit_engine_refusals : intact noPad ∧ intact badPad ∧ (∃ F c x, commandForm noPad (.mzero 1 0 15 0) = some (F, c, x) ∧ noPad.alone (.mzero 1 0 15 0) mfib = true ∧
      F.check noPad.gone (me noPad mfib) lau (localBlock noPad (localPlace noPad mfib (mfib.cap c.toNat) 0)) = 0x36 ∧ noPad.cmds.length < 32) ∧
    (∃ F c x, commandForm badPad (.mdrain 1 0 15 0 false 0) = some (F, c, x) ∧ badPad.alone (.mdrain 1 0 15 0 false 0) mfib = true ∧
      F.legal badPad.gone lau (localBlock badPad (localPlace badPad mfib (mfib.cap c.toNat) 0)) = false) ∧
    ∃ F c x, commandForm { zeroPad with mg := { zeroPad.mg with limited := true, full := false } } (.mzero 1 0 15 0) = some (F, c, x) ∧ F.limited = true ∧
      ({ zeroPad with mg := { zeroPad.mg with limited := true, full := false } } : State).limitedOnly = true :=
  ⟨rfl, rfl, ⟨_, _, _, rfl, by decide +kernel, by decide +kernel, by decide +kernel⟩, ⟨_, _, _, rfl, by decide +kernel, by decide +kernel⟩, ⟨_, _, _, rfl, by decide +kernel, by decide +kernel⟩⟩

theorem wit_queue_fence : one.alone (.qfence 1 0x0005) (fib 0) = true := by decide +kernel

/-- A fibre with a destination for its reply in c7, and a block without a request or a WAKE cell. -/
def callFib : Fibre := { mfib with c := mfib.c.set 7 (mfib.cap 13) }
def callPad : State :=
  { mem0 with wgs := [{ Wg.start lau 0 0 with fibres := [callFib], scratch := ⟨(List.range 8).map (fun k => (0x20 + k, 0xFF)), []⟩ }] }

/-- One fibre's plan. -/
theorem one_plan {x : State × List (Nat × Except Stop CallPlan)} {n : Nat} (h : (match x.2 with | [(m, .ok p)] => m == n && !p.lost | _ => false) = true) :
    ∃ p, x = (x.1, [(n, .ok p)]) ∧ p.lost = false := by
  obtain ⟨u, l⟩ := x
  simp only at h ⊢
  split at h
  · rename_i m p; simp at h; exact ⟨p, by rw [h.1], h.2⟩
  · simp at h

/-- The states after its checks and after its release. -/
def planned : State := (callPad.gone.callPlans 15 0 [callFib.passes callPad]).1
def callDrained : State := (planned.release (planned.coreOf ⟨1, 0, 0⟩) 5 planned.fresh).1.modFib (me callPad callFib) (fun y => { y with mark := none })

theorem wit_remote_calls : ∃ p, callPad.alone (.rcall 1 15 0) callFib = true ∧ callPad.limitedOnly = false ∧ callPad.gone.callPlans 15 0 [callFib.passes callPad] = (planned, [(callFib.fid, .ok p)]) ∧ p.lost = false ∧
    planned.cur = callPad.cur ∧ (∀ k, k < 4 → planned.linkRoom k (if p.call.link = k then 1 else 0) = true) ∧ callFib.mark = none ∧ planned.fib (me callPad callFib) = some (callFib.passes callPad) ∧
    (planned.release (planned.coreOf ⟨1, 0, 0⟩) 5 planned.fresh).2 = true ∧ callDrained.cur = callPad.cur ∧
    ∀ y, callDrained.fib ⟨1, 0, 0⟩ = some y → y.lost = 0 := by
  obtain ⟨p, h, hp⟩ := one_plan (x := callPad.gone.callPlans 15 0 [callFib.passes callPad]) (n := callFib.fid) (by decide +kernel)
  refine ⟨p, by decide +kernel, by decide +kernel, h, hp, by decide +kernel, ?_, by decide +kernel, by decide +kernel, by decide +kernel, by decide +kernel, all_of (by decide +kernel)⟩
  have r : ∀ k, k < 4 → planned.linkRoom k 0 = true ∧ planned.linkRoom k 1 = true := by decide +kernel
  intro k hk
  split
  · exact (r k hk).2
  · exact (r k hk).1

/-- Fibres that wait: with a result pending, for a release, asleep, asleep for longer, for the supervisor. -/
def waits : State := { st [{ fib 0 with infl := [[.v 3 9]] }, { fib 1 with wait := .unacked }, { fib 2 with wait := .sleep 0 }, { fib 3 with wait := .sleep 80 }, { fib 4 with wait := .supervisor 1 }, { fib 5 with wait := .token 3 }] [0] with
  cmds := [⟨4, .port 0, 16, .copy, 1, 0, 3, 1, 0, 0, [], [], .finished, 0, 0, 0, [], 0, false, 12, [], [], 0, [], [], [], 0, none⟩] }

theorem wit_fibre_events : (∃ f, waits.fib ⟨1, 0, 0⟩ = some f ∧ f.infl = [[.v 3 9]] ∧ 3 < f.v.length) ∧ (∃ f, waits.fib ⟨1, 0, 1⟩ = some f ∧ f.pend = none ∧ f.copy = none ∧ f.wait = .unacked) ∧ (∀ d ∈ waits.cmds, d.mark = none) ∧ waits.supervised = true ∧
    (∃ f, waits.fib ⟨1, 0, 2⟩ = some f ∧ f.wait = .sleep 0 ∧ 0 ≤ waits.ticks ∧ waits.sleeps ⟨1, 0, 2⟩ = true) ∧ (∃ f, waits.fib ⟨1, 0, 3⟩ = some f ∧ f.wait = .sleep 80 ∧ waits.ticks < 80) ∧
    (∃ f d, waits.fib ⟨1, 0, 4⟩ = some f ∧ f.wait = .supervisor 1 ∧ waits.asid (waits.asidOf 1) = some d) ∧
    (∃ c, waits.cmd 4 = some c ∧ waits.cmdStopped c = false ∧ c.st = .finished ∧ c.kind ≠ .dpost ∧ tokenThere waits c.launch c.wgid c.g) ∧ ∃ f, waits.fib ⟨1, 0, 5⟩ = some f ∧ f.wait = .token 3 :=
  ⟨⟨_, rfl, by decide +kernel⟩, ⟨_, rfl, by decide +kernel⟩, by decide +kernel, by decide +kernel, ⟨_, rfl, by decide +kernel⟩, ⟨_, rfl, by decide +kernel⟩, ⟨_, loadAsid, rfl, by decide +kernel⟩,
    ⟨_, rfl, by decide +kernel, by decide +kernel, by decide +kernel, ⟨_, rfl, by decide +kernel⟩⟩, ⟨_, rfl, by decide +kernel⟩⟩

/-- A fibre whose capture of an effect waits for its release. -/
def capturing : State := oneOf (fun f => { f with wait := .capture, pend := some (Eff.fault 0x0E0 0 8 none) })
theorem wit_capture_waits : ∃ f e, capturing.fib ⟨1, 0, 0⟩ = some f ∧ f.pend = some e ∧ f.wait = .capture ∧ capturing.onCores ⟨1, 0, 0⟩ = true := ⟨_, _, rfl, rfl, by decide +kernel⟩

/-- A fibre with a covered and an uncovered result. -/
theorem wit_results_covered : ∃ f : Fibre, 3 < f.v.length ∧ (∃ w ∈ f.out, w.due ≤ f.k) ∧ ∃ w ∈ f.out, f.k < w.due ∧ ∀ x ∈ f.out, x.wb.same w.wb = true → x = w :=
  ⟨{ fib 0 with k := 5, out := [⟨.v 3 1, 4⟩, ⟨.v 2 8, 9⟩] }, by decide +kernel⟩

/-- The loaded machine with walks under way, a dirty line, and fibres that wait for an instruction line or a segment. -/
def walking : State := { mem0 with walks := [⟨0, 1, 3, none⟩, ⟨0, 1, 3, some 2⟩] }
def dirty : State := { mem0 with cores := [{ Core.empty 0 with l1 := [⟨1, 3, 0, 0, 0, 1, true, false, 0, 1, 0, false⟩], fifo := [(1, 3, 0)] }] }
def fetching : State := memWith (table0 ++ code0 ++ heap0) [] { mfib with wait := .icache 1 1 0 }

theorem wit_cache_events : (⟨0, 1, 3, none⟩ ∈ walking.walks ∧ walking.entry 1 3 ≠ none ∧ walking.wordLost (walking.entryAt 1 3) 32 = false ∧ ⟨0, 1, 3, some 2⟩ ∈ walking.walks) ∧
    (dirty.hurts = [] ∧ dirty.mem.wf = true ∧ dirty.queues = [] ∧ (dirty.core 0).fifo = [(1, 3, 0)] ∧ ((dirty.core 0).line 1 3 0).isSome = true ∧ dirty.paOf 1 3 0 = some 0x40000 ∧ dirty.latched 0x40000 = false) ∧
    (mem0.lineBytesOf 1 1 0 ≠ [] ∧ mem0.lineLost 1 1 0 = false ∧ mem0.lineHeld 1 1 0 = false ∧ mem0.allFibres.filter (fun x => x.2.wait == .icache 1 1 0 && blockOf (mem0.coreOf x.1) == blockOf 0) = []) ∧
    fetching.lineBytesOf 1 1 0 ≠ [] ∧ fetching.lineLost 1 1 0 = false ∧ fetching.lineHeld 1 1 0 = false ∧ (mem0.segPA 1 0).isSome = true ∧
      fetching.allFibres.filter (fun x => x.2.wait == .icache 1 1 0 && blockOf (fetching.coreOf x.1) == blockOf 0) = [(⟨1, 0, 0⟩, { mfib with wait := .icache 1 1 0 })] ∧
      fetching.fib ⟨1, 0, 0⟩ = some { mfib with wait := .icache 1 1 0 } ∧ fetching.fetchFault 1 1 0 mfib.pc = none := by decide +kernel

/-- An object that is a page list, so that a page word is walked for. -/
def paged : State := { walking with mem := ⟨[(65634, 1), (65639, 32), (65650, 1)], []⟩ }
theorem wit_page_walk : ⟨0, 1, 3, some 2⟩ ∈ paged.walks ∧ (paged.entry 1 3).any (fun e => e.paged && !paged.wordLost (e.wordPA 2) 8) = true := by decide +kernel

theorem wit_fetch_faults : (onlyFibre one (fib 0) ∧ slotAt (fib 0).pc ≠ 0 ∧ fetchRefusal (fib 0).code (packetAt (fib 0).pc) = none) ∧
    (onlyFibre (oneOf (fun f => { f with pc := 6 })) { fib 0 with pc := 6 } ∧ slotAt 6 = 0) ∧
    onlyFibre (oneOf (fun f => { f with pc := 0x10004 })) { fib 0 with pc := 0x10004 } ∧ slotAt 0x10004 ≠ 0 ∧ fetchRefusal (fib 0).code (packetAt 0x10004) = some 0x0C1 := by
  unfold onlyFibre; decide +kernel
/-- The requests of package 1. -/
def rLd : Packet := pkt 0x01 16 []
/-- A line fill that ends past the object. -/
def rLine : Packet := { pkt 0x01 256 [] with off := 0xFFE0 }
def rSt : Packet := { pkt 0x03 4 [1, 2, 3, 4] with op := 0x0F }
def rAt : Packet := { pkt 0x04 4 [1, 0, 0, 0] with op := 0x00 }
def rTile : Packet := { pkt 0x08 0 [] with coff := 0x100000004 }
def rTst : Packet := { pkt 0x0A 4 [1, 2, 3, 4] with coff := 0x100000004 }
def rPut : Packet := { pkt 0x0B 8 [1, 2, 3, 4, 5, 6, 7, 8] with cobj := 3, coff := 0x40 }
def rGet : Packet := pkt 0x0C 8 []
def rBad : Packet := { pkt 0x01 16 [] with obj := 9 }

theorem wit_fabric_loads : ((got rLd).rxBlocked rLd = false ∧ rLd.kind = 0x01 ∧ accessSizes rLd.len ∧ (fabricTaken (got rLd) []).fillLen rLd = 16 ∧ (fabricTaken (got rLd) []).served rLd 3 0 16 false = .ok [(0x40000, 16)] ∧ (fabricTaken (got rLd) []).segsGone [(0x40000, 16)] = false) ∧
    ((got rLine).rxBlocked rLine = false ∧ rLine.kind = 0x01 ∧ rLine.len = 256 ∧ (fabricTaken (got rLine) []).fillLen rLine = 32 ∧ (fabricTaken (got rLine) []).served rLine 3 0xFFE0 32 false = .ok [(0x4FFE0, 32)]) ∧
    (∃ e, (fabricTaken (got rBad) []).served rBad 9 0 16 false = .error e) ∧
    (∃ v, (got rLd).via 1 = some v) ∧
    ((got rGet).rxBlocked rGet = false ∧ rGet.kind = 0x0C ∧ (fabricTaken (got rGet) []).served rGet 3 0 8 false = .ok [(0x40000, 8)]) ∧
    (got rTile).rxBlocked rTile = false ∧ rTile.kind = 0x08 ∧ (fabricTaken (got rTile) []).servedTile rTile false = .ok [(0x40000, 4)] :=
  ⟨by unfold accessSizes; decide +kernel, by decide +kernel, ⟨(0x14, 0), by decide +kernel⟩, some_of (by decide +kernel), by decide +kernel, by decide +kernel⟩

theorem wit_fabric_writes : ((got rSt).rxBlocked rSt = false ∧ rSt.kind = 0x03 ∧ accessSizes rSt.len ∧ (got rSt).mem.wf = true ∧ (got rSt).queues = [] ∧ (fabricTaken (got rSt) []).served rSt 3 0 4 true = .ok [(0x40000, 4)] ∧ (fabricTaken (got rSt) []).segsGone [(0x40000, 4)] = false) ∧
    ((got rAt).rxBlocked rAt = false ∧ rAt.kind = 0x04 ∧ rAt.op.toNat ≤ 0x0A ∧ rAt.len = atomicSrc rAt.op ∧ rAt.off.toNat % atomicSize rAt.op = 0 ∧
      (fabricTaken (got rAt) []).served rAt 3 0 (atomicSize rAt.op) true = .ok [(0x40000, 4)]) ∧
    ((got rTst).rxBlocked rTst = false ∧ rTst.kind = 0x0A ∧ (fabricTaken (got rTst) []).servedTile rTst true = .ok [(0x40000, 4)] ∧
      ((stagedOf (fabricTaken (got rTst) []) rTst).add 0 rTst.payload).whole 0 4 = some [1, 2, 3, 4]) ∧
    ((got rPut).rxBlocked rPut = false ∧ rPut.kind = 0x0B ∧ (fabricTaken (got rPut) []).counterAt rPut = .ok 0x40040 ∧ (fabricTaken (got rPut) []).served rPut 3 0 8 true = .ok [(0x40000, 8)] ∧
      (fabricTaken (got rPut) []).segsGone [(0x40040, 8), (0x40000, 8)] = false ∧ rPut.payload.length = 8 ∧ (got rPut).keyed = []) := by
  unfold accessSizes; decide +kernel

/-- A tile of more than one packet, of which the first has come. -/
def rPart : Packet := { pkt 0x0A 512 (List.replicate 512 1) with coff := 0x10000000400 }
theorem wit_fabric_staging : (got rPart).rxBlocked rPart = false ∧ (fabricTaken (got rPart) []).servedTile rPart true = .ok [(0x40000, 1024)] ∧
    ((stagedOf (fabricTaken (got rPart) []) rPart).add 0 rPart.payload).whole 0 1024 = none := by decide +kernel

/-- A shoot-down, with a load of its region outstanding or not; a migrated record without segments, and the first of its two packets. -/
def rShoot : Packet := pkt 0x0E 0 []
def openLoad : Tx := ⟨1, 5, .load ⟨1, 0, 0⟩ 0, 0, 0, ⟨1, 3, some 0, false⟩, [pkt 0x01 4 []], 0⟩
def rMig : Packet := { pkt 0x10 512 (List.replicate 512 0) with coff := 512, gtags := List.replicate 32 false }
def halfCome : State := { got rMig with staged := [⟨1, 5, [(0, List.replicate 512 0), (2 ^ 40, List.replicate 32 0)]⟩] }

theorem wit_shoot_downs_and_migrations : ((got rShoot).shootsIn = [] ∧ rShoot.kind = 0x0E ∧ (fabricTaken (got rShoot) []).loadOpen rShoot = false) ∧
    (fabricTaken ({ got rShoot with txs := [openLoad] } : State) []).loadOpen rShoot = true ∧
    (rMig.kind = 0x10 ∧ (got rMig).rxBlocked rMig = false ∧ halfCome.rxBlocked rMig = false ∧ (((stagedOf (fabricTaken (got rMig) []) rMig).add 512 rMig.payload).add (2 ^ 40 + 512) (List.replicate 32 0)).whole 0 1024 = none) ∧
    (∃ bs, (((stagedOf (fabricTaken halfCome []) rMig).add 512 rMig.payload).add (2 ^ 40 + 512) (List.replicate 32 0)).whole 0 1024 = some bs) ∧
    (fabricTaken halfCome []).xlatNow false ⟨1, 3, 0, 16, true, false⟩ = .pa 0x40000 false ∧
    (∃ d, halfCome.asid 1 = some d ∧ 1 ≤ d.free.length) ∧ ∃ d, ({ halfCome with asids := [{ loadAsid with free := [] }] } : State).asid 1 = some d ∧ d.free.length < 1 :=
  ⟨by decide +kernel, by decide +kernel, by decide +kernel, some_of (by decide +kernel), by decide +kernel, ⟨_, rfl, by decide +kernel⟩, ⟨_, rfl, by decide +kernel⟩⟩

/-- A fibre that waits for a remote answer, under each kind of transaction. -/
def remoteFib : Fibre := { mfib with wait := .remote 1 5 }
def asked (k : TxKind) (p : Packet) : State := { linked (memWith (table0 ++ heap0) [] remoteFib) with rxq := [p], txs := [{ openLoad with kind := k }], epochs := [(1, 5)] }
def putCmd : Command := ⟨4, .port 0, 0, .xput, 1, 0, 3, 1, 0, 0, List.replicate 64 0, [Cap.null, Cap.null, Cap.null, Cap.null], .running, 0, 0, 0, [], 0, false, 0, [], [], 0, [], [], [], 0, none⟩

/-- A tile access at package 1, half and whole with the bytes that come. -/
def peerTile (n : Nat) : TileOp := ⟨7, true, 1, 0, 3, 0, 0, (List.range n).map (fun k => (k, k)), [], [], List.replicate n 0, true, 0, 1, .peer 1 5, 0, none⟩
def tiling (n : Nat) : State := { asked (.tile ⟨1, 0, 0⟩ 7 0) (pkt 0x09 4 [1, 2, 3, 4]) with tiles := [peerTile n] }
def putting (p : Packet) : State := { asked (.put 4 0 8) p with cmds := [putCmd] }

/-- The transaction that an answer ends. -/
def owner (s : State) (p : Packet) : Option Tx := (fabricTaken s []).txOf p

theorem wit_fabric_answers : (∀ k ∈ [(TxKind.load ⟨1, 0, 0⟩ 0, pkt 0x02 4 [1, 2, 3, 4]), (.atomic ⟨1, 0, 0⟩ 0, pkt 0x05 4 [1, 2, 3, 4]), (.store ⟨1, 0, 0⟩ 0, pkt 0x06 0 [])],
      owner (asked k.1 k.2) k.2 = some { openLoad with kind := k.1 } ∧ (asked k.1 k.2).wakes = [] ∧ (asked k.1 k.2).shoots = []) ∧
    (owner (putting (pkt 0x06 0 [])) (pkt 0x06 0 []) = some { openLoad with kind := .put 4 0 8 } ∧ (putting (pkt 0x06 0 [])).cmd 4 = some putCmd ∧ putCmd.kind = .xput ∧ putCmd.exch = false) ∧
    (∀ n ∈ [4, 8], owner (tiling n) (pkt 0x09 4 [1, 2, 3, 4]) = some { openLoad with kind := .tile ⟨1, 0, 0⟩ 7 0 } ∧ (tiling n).tile 7 = some (peerTile n) ∧ (peerTile n).load = true) ∧
    ({ peerTile 8 with data := [1, 2, 3, 4, 0, 0, 0, 0], count := 4 } : TileOp).finished = false ∧ ({ peerTile 4 with data := [1, 2, 3, 4], count := 4 } : TileOp).finished = true ∧
    (owner (asked (.load ⟨1, 0, 0⟩ 0) { pkt 0x07 0 [] with op := 0x11 }) { pkt 0x07 0 [] with op := 0x11 } = some openLoad ∧
      (asked (.load ⟨1, 0, 0⟩ 0) { pkt 0x07 0 [] with op := 0x11 }).allFibres.filter (fun z => z.2.wait == .remote 1 5) = [(⟨1, 0, 0⟩, remoteFib)]) ∧
    owner (putting { pkt 0x07 0 [] with op := 0x14 }) { pkt 0x07 0 [] with op := 0x14 } = some { openLoad with kind := .put 4 0 8 } ∧ putCmd.st = .running := by decide +kernel

/-- An XGET whose destination and counter lie in object 3. -/
def getCmd : Command := { putCmd with kind := .xget, caps := [Cap.null, mfib.cap 13, Cap.null, { mfib.cap 13 with base := 0x40 }] }
def getting : State := { asked (.get 4 0 8) (pkt 0x0D 8 [1, 2, 3, 4, 5, 6, 7, 8]) with cmds := [getCmd] }
theorem wit_fabric_gets : (fabricTaken getting []).txOf (pkt 0x0D 8 [1, 2, 3, 4, 5, 6, 7, 8]) = some { openLoad with kind := .get 4 0 8 } ∧
    let u := (fabricTaken getting []).dropTx { openLoad with kind := .get 4 0 8 }
    u.cmd 4 = some getCmd ∧ getCmd.st ≠ .finished ∧ u.cmdStopped getCmd = false ∧ u.span getCmd (getCmd.cap 1) 0 8 true = .mem [(0x40000, 8)] ∧
      u.span getCmd (getCmd.cap 3) 0 8 true = .mem [(0x40040, 8)] ∧ u.isBad 0x40040 8 = false ∧ u.spanLatched true (.mem [(0x40000, 8)]) = false ∧ u.spanLatched true (.mem [(0x40040, 8)]) = false := by decide +kernel

/-- Packets for package 2, and NOTEs; a fibre parked in the Hamper of die 0. -/
def passing (k : BitVec 5) : Packet := { pkt k 8 (List.replicate 8 1) with dst := 2 }
def parkedFib : Fibre := { mfib with wait := .hamper 0 9 ⟨1, 3, some 0, false⟩ 0x0D1 }
def note (op : BitVec 8) : Packet := { pkt 0x11 12 ([0, 0, 0, 0] ++ [9, 0, 0, 0, 0, 0, 0, 0]) with op := op }
def noted (op : BitVec 8) : State := { linked (memWith (table0 ++ heap0) [] parkedFib) with rxq := [note op] }

theorem wit_fabric_notes : ((passing 0x0B).dst.val ≠ (got (passing 0x0B)).pos ∧ ((got (passing 0x0B)).peer 2).died = false ∧ (fabricTaken (got (passing 0x0B)) []).relayWindow (passing 0x0B) = false) ∧
    (({ got (passing 0x01) with peers := (got (passing 0x01)).peers.set 2 ⟨true, false, true, 0, 0, 0⟩ } : State).peer 2).died = true ∧
    ((note 2).kind = 0x11 ∧ littleEndian ((note 2).payload.take 4) = 0 ∧ littleEndian (((note 2).payload.drop 4).take 8) = 9 ∧ (noted 2).fib ⟨1, 0, 0⟩ = some parkedFib ∧ parkedFib.wait.onRec 0 9 = true) ∧
    (noted 2).wakes = [] ∧ (note 3).op = 3 ∧ (note 4).op = 4 ∧ ((noted 1).entry 1 3 = some ⟨1, false, false, false, false, 0, 0x10000, 0, 0x40000, 0⟩ ∧ (note 1).cobj.getLsbD 0 = false ∧
      (fabricTaken (noted 1) []).regionResident ⟨1, false, false, false, false, 0, 0x10000, 0, 0x40000, 0⟩ 0 = true) := by decide +kernel
def late (k : TxKind) : State := at_ 200000 (asked k (pkt 0x07 0 []))

theorem wit_fabric_failures : ((late (.load ⟨1, 0, 0⟩ 0)).txs.find? (fun t => t.dst == 1 && t.tag == 5 && decide (t.issued + 100000 ≤ (late (.load ⟨1, 0, 0⟩ 0)).ticks)) = some { openLoad with kind := .load ⟨1, 0, 0⟩ 0 } ∧
      (late (.load ⟨1, 0, 0⟩ 0)).fib ⟨1, 0, 0⟩ = some remoteFib ∧ (late (.load ⟨1, 0, 0⟩ 0)).allFibres.filter (fun z => z.2.wait == .remote 1 5) = [(⟨1, 0, 0⟩, remoteFib)]) ∧
    (late (.store ⟨1, 0, 0⟩ 0)).txs.find? (fun t => t.dst == 1 && t.tag == 5 && decide (t.issued + 100000 ≤ (late (.store ⟨1, 0, 0⟩ 0)).ticks)) = some { openLoad with kind := .store ⟨1, 0, 0⟩ 0 } ∧
    ((({ late (.put 4 0 8) with cmds := [putCmd] } : State).cmdTxs 4).find? (fun t => decide (t.issued + 100000 ≤ 200000)) = some { openLoad with kind := .put 4 0 8 } ∧ putCmd.st ≠ .finished) ∧
    ((late (.put 4 0 8)).peers.length = 16 ∧ ((late (.put 4 0 8)).peer 1).live = true ∧ ((late (.put 4 0 8)).peer 1).died = false ∧ ((late (.put 4 0 8)).peer 1).lastHeard + 50000 ≤ (late (.put 4 0 8)).ticks ∧
      (linked mem0).ticks < ((linked mem0).peer 1).lastHeard + 50000 ∧ ((linked mem0).via 1).isSome = true) ∧
    ((late (.shoot 1 3 0)).txs = [{ openLoad with kind := .shoot 1 3 0 }] ∧ openLoad.issued + 100000 ≤ (late (.shoot 1 3 0)).ticks ∧ openLoad.dst < 16) ∧
    ((mem0.peer 1).died = false ∧ 1 < mem0.peers.length ∧ 1 ≠ mem0.pos ∧ (∀ k ∈ pairsOf mem0.pos 1, mem0.boot.dark.getLsbD k = false ∧ (mem0.pair k).lanes = [] ∧ (mem0.pair k).failedNow = false)) := by decide +kernel

/-- A DPOST for exchange 7, and an exchange in collection, before and after what is so at its close has been noted. -/
def dpost : Packet := { pkt 0x0F 144 (List.replicate 128 0 ++ [7, 0, 0, 0] ++ [3, 0, 0, 0] ++ [1, 0, 0, 0, 0, 0, 0, 0]) with op := 0x01 }
def exch7 (y : Option (List Nat × List (BitVec 16))) : Exch := ⟨7, [⟨1, 1, 1, 3, List.replicate 16 0⟩], 1, false, 0, 0, 0, [], 0, [], [], 0, [], y⟩
def collecting (t : DWord) (y : Option (List Nat × List (BitVec 16))) : State := at_ t { got dpost with ft := { State.reset.ft with exchs := [exch7 y] } }
def sampled : State := collecting 300000 (some ([0, 1], List.replicate 16 0))

theorem wit_exchange_schedule : (dpost.kind = 0x0F ∧ dpost.op = 0x01 ∧ (got dpost).exchOf 7 = none ∧ ((got dpost).ft.exchs.filter (fun e => !e.ended (got dpost).fabric)).length < 8) ∧
    ((collecting 5 none).exchOf 7).map (·.closed) = some false ∧ (collecting 5 none).ft.exchs.length ≤ 8 ∧
    (let s := collecting (BitVec.ofNat 64 (1 + State.reset.ft.window)) none
     s.ft.exchs = [exch7 none] ∧ 1 + s.ft.window ≤ s.fabric ∧ s.fabric < 1 + s.ft.window + 5000) ∧
    (sampled.ft.exchs = [exch7 (some ([0, 1], List.replicate 16 0))] ∧ 1 + sampled.ft.window + 5000 ≤ sampled.fabric ∧ sampled.ftSends = true ∧
      ∀ p ∈ (exch7 none).posts, some p.mask = (exch7 none).leader.map (·.mask) ∧ p.pos ∈ sampled.livePositions ∧ p.pos ≠ sampled.pos ∧ sampled.via p.pos ≠ none) := by decide +kernel

/-- A calendar with one sending window to package 1 from 100 ns on, in use; this package's part of an exchange of packages 0 and 1, without and with it. -/
def calBytes (bits : Byte) : List Byte := [0, 0, 0, 0, 0, 0, 1, 0] ++ List.replicate 16 0 ++ [3, 0, 0, 0, 0xE8, 3, 0, 0] ++ [0, 0x10, bits, 1, 100, 0, 0, 0, 100, 0, 0, 0, 0, 16, 0, 0]
def part (c : Option (List Byte)) : MyExch := ⟨7, 4, 1, 0, 3, 9, 0x400, 0, 3, [], c, false, false, [], false, 0, false, false, [], []⟩
def member (t : DWord) (p : Packet) (c : Option (List Byte)) : State := at_ t { linked one with rxq := [p], cmds := [{ putCmd with kind := .dpost }], exchs := [part c] }
def calPkt : Packet := { pkt 0x0F 64 ([7, 0, 0, 0, 0, 0, 48, 0] ++ List.replicate 8 0 ++ calBytes 1) with op := 0x02 }
def closePkt : Packet := { pkt 0x0F 16 ([7, 0, 0, 0] ++ List.replicate 12 0) with op := 0x03 }

/-- A DPOST of exchange 7 still in its queue. -/
def posting : State := at_ 400000 { linked one with cmds := [{ putCmd with kind := .dpost, st := .queued, blk := List.replicate 8 0 ++ [7] ++ List.replicate 55 0, exps := [0] }] }

theorem wit_exchange_member : (onlyDpost (member 5 calPkt none) 7 (part none) ∧ calPkt.payload.length = 16 + 48 ∧ (member 5 calPkt none).exchRuns (part none) = true ∧ (member 5 calPkt none).wg 1 0 ≠ none ∧
      (∀ y ∈ (member 5 calPkt none).exchs, y.cmd = (part none).cmd → y = part none) ∧ (member 5 calPkt none).cmd 4 = some { putCmd with kind := .dpost }) ∧
    ((member 400000 calPkt none).myExch 7 = some (part none) ∧ 0 + (member 400000 calPkt none).ft.window + 200000 ≤ (member 400000 calPkt none).fabric) ∧
    (∃ c, posting.cmd c.id = some c ∧ c.kind = .dpost ∧ c.st = .queued ∧ c.prog = 0 ∧ c.num 8 4 = 7 ∧ (c.exps.headD 0).toNat + posting.ft.window + 200000 ≤ posting.fabric) ∧
    (onlyDpost (member 2000 closePkt (some (calBytes 1))) 7 (part (some (calBytes 1))) ∧ (member 2000 closePkt (some (calBytes 1))).myExch 7 = some (part (some (calBytes 1))) ∧
      (part (some (calBytes 1))).endAt ≤ 2000 ∧ (member 2000 closePkt (some (calBytes 1))).exchBusy 7 = false ∧
      (part (some (calBytes 1))).posted.getLsbD 1 = true ∧ (member 2000 closePkt (some (calBytes 1))).via 1 = some 1) ∧
    (∀ q ∈ (part (some (calBytes 1))).awaited 0, (((0 : BitVec 16) ||| ((1 : BitVec 16) <<< 1)).getLsbD q = true)) ∧
    ((part (some (calBytes 1))).awaited 0).filter (fun q => !(0 : BitVec 16).getLsbD q) = [1] ∧ (member 2000 closePkt none).alive 1 = true ∧ one.alive 1 = false ∧
    (max (part (some (calBytes 1))).endAt (((member 400000 calPkt none).peer 1).lastPkt - 0) + 100000 ≤ (member 400000 calPkt none).fabric) := by
  unfold onlyDpost
  exact ⟨by decide +kernel, by decide +kernel, ⟨posting.cmds.headD putCmd, by decide +kernel⟩, by decide +kernel⟩

theorem wit_close_tokens : tokenThere (member 2000 closePkt none) 1 0 9 ∧ ({ part (some (calBytes 1)) with closes := 2 } : MyExch).awaited 0 = [1] := ⟨⟨_, rfl, by decide +kernel⟩, by decide +kernel⟩

/-- Stored packets of a relay flow from package 1 to package 2. -/
def stored : Packet := { pkt 0x0B 8 (List.replicate 8 1) with dst := 2 }
def relayCal : List Byte := [0, 0, 0, 0, 0, 0, 1, 0] ++ List.replicate 16 0 ++ [7, 0, 0, 0, 0xE8, 3, 0, 0] ++ [0, 0x20, 0x41, 1, 100, 0, 0, 0, 100, 0, 0, 0, 0, 16, 0, 0]
def relaying (t : DWord) : State := { member t stored (some relayCal) with relay := [stored], peers := (one.peers.set 1 livePeer).set 2 livePeer }
def legCal (n late : Byte) (more : List Byte) : List Byte := [0, 0, 0, 0, 0, 0, n, 0] ++ List.replicate 16 0 ++ [7, 0, late, 0, 0xE8, 3, 0, 0] ++ [0, 0x01, 0x22, 2, 100, 0, 0, 0, 100, 0, 0, 0, 0, 16, 0, 0] ++ more
def firstLeg : State := member 150 stored (some (legCal 2 0 [1, 0x20, 0x41, 1, 200, 0, 0, 0, 100, 0, 0, 0, 0, 16, 0, 0]))
def lateLeg : State := member 150 stored (some (legCal 1 1 []))

theorem wit_windows : ((∃ w, (member 150 calPkt (some (calBytes 1))).windowOf 7 0 = some (part (some (calBytes 1)), w) ∧ w.start ≤ 150 ∧ 150 < w.stop ∧ w.feeds = some 1 ∧ w.dest = 1) ∧ (member 150 calPkt (some (calBytes 1))).reachable 1 = true) ∧
    (∃ w, (relaying 150).windowOf 7 0 = some (part (some relayCal), w) ∧ w.feeds = none ∧ (relaying 150).relay.filter w.stored = [stored] ∧ stored.len ≤ w.budget ∧ (relaying 150).reachable w.dest = true) ∧
    (firstLeg.relayWindow stored = true ∧ lateLeg.relayWindow stored = true) ∧ (∃ e w, lateLeg.windowOf 7 0 = some (e, w) ∧ w.send = false) ∧ (part none).granted = [] ∧
    ({ posting with cmds := [{ putCmd with cuts := [(0, 8)] }] } : State).cmd 4 = some { putCmd with cuts := [(0, 8)] } :=
  ⟨⟨⟨⟨0, true, false, false, false, 1, 0, 1, 100, 200, 4096⟩, by decide +kernel⟩, by decide +kernel⟩, ⟨⟨0, true, false, false, true, 2, 0, 1, 100, 200, 4096⟩, by decide +kernel⟩, by decide +kernel,
    ⟨part (some (legCal 1 1 [])), ⟨0, false, true, true, false, 0, 1, 2, 100, 200, 4096⟩, by decide +kernel⟩, by decide +kernel⟩

/-- A connection, a packet for it, and the scale-out states. -/
def conn0 : Conn := ⟨5, .opened, 1, 77, 6, 0, 1, 0, [], 0, 8192, 50000, some 10, 0, none, [], [], [], 0, 1, false, none, true, 0⟩
def dat (k : Byte) (n : Word) : SoPacket := ⟨k, 0, 0, 77, 5, 6, n, 0, 0, 4, 0, 0, 0, [1, 2, 3, 4]⟩
def outgoing : SoPacket := ⟨1, 0, 77, 0, 6, 5, 0, 0, 0, 4, 0, 0, 0, [1, 2, 3, 4]⟩
def so (c : Conn) (ps : List SoPacket) : State := at_ 1000 { linked mem0 with conns := [c], soRx := ps, cmds := [{ getCmd with kind := .rpost }] }
def buffered : Conn := { conn0 with bufs := [⟨4, 0, 1, 3, 0, 4, 0, none, false, 0⟩] }
def sending : Conn := { conn0 with unacked := [outgoing], sends := [⟨4, 0, 4, 1, 3, 0, 1, 0⟩] }

theorem wit_connections : (mem0.mg.full = true ∧ mem0.conn 5 = none) ∧ ((so conn0 []).conn 5 = some conn0 ∧ conn0.st = .opened ∧ 0 < conn0.sinceAck) ∧
    ((so sending []).conn 5 = some sending ∧ sending.unacked ≠ [] ∧ sending.timerDue = some 10 ∧ 10 ≤ (so sending []).ticks ∧ sending.expiries < 7) ∧
    ((so { sending with expiries := 7 } []).conn 5 = some { sending with expiries := 7 }) ∧ ((so { sending with rnr := some 0 } []).conn 5 = some { sending with rnr := some 0 }) ∧
    (((so conn0 []).conns.filter (·.onChip)).length < 4096 ∧ (so conn0 []).staging = []) := by decide +kernel

/-- What has been sent can be sent again. -/
theorem wit_resends : ∀ c ∈ [sending, { sending with rnr := some 0 }], ∀ p ∈ c.unacked, resendable (so c []) c p := by
  intro c hc p hp o d ho hd _
  refine ⟨[(0x40000, 4)], ?_⟩
  have hp' : p = outgoing := by
    simp only [List.mem_cons, List.not_mem_nil, or_false] at hc
    rcases hc with rfl | rfl <;> simpa [sending] using hp
  have ho' : o = ⟨4, 0, 4, 1, 3, 0, 1, 0⟩ := by
    subst hp'
    simp only [List.mem_cons, List.not_mem_nil, or_false] at hc
    rcases hc with rfl | rfl <;> exact (Option.some.inj (ho.symm.trans (by decide +kernel)))
  subst hp' ho'
  have hd' : d = { getCmd with kind := .rpost } := by
    simp only [List.mem_cons, List.not_mem_nil, or_false] at hc
    rcases hc with rfl | rfl <;> exact (Option.some.inj (hd.symm.trans (by decide +kernel)))
  subst hd'
  simp only [List.mem_cons, List.not_mem_nil, or_false] at hc
  rcases hc with rfl | rfl <;> decide +kernel

theorem wit_scale_out_packets : ((so { conn0 with onChip := false } [dat 1 0]).conn 5 = some { conn0 with onChip := false } ∧ (so { conn0 with onChip := false } [dat 1 0]).staging = []) ∧
    ((so buffered [dat 1 0]).conn 5 = some buffered ∧ (dat 1 0).psn = buffered.expect ∧ buffered.bufs.find? (fun b => b.msn == (dat 1 0).msn) = some ⟨4, 0, 1, 3, 0, 4, 0, none, false, 0⟩ ∧
      (so buffered [dat 1 0]).cmd 4 = some { getCmd with kind := .rpost } ∧ (so buffered [dat 1 0]).span { getCmd with kind := .rpost } (getCmd.cap 1) 0 4 true = .mem [(0x40000, 4)] ∧ (so buffered [dat 1 0]).segsBad [(0x40000, 4)] = false ∧ (so buffered [dat 1 0]).spanLatched true (.mem [(0x40000, 4)]) = false) ∧
    (conn0.bufs.find? (fun b => b.msn == (dat 1 0).msn) = none ∧ (dat 1 0).psn ∉ conn0.accepted) ∧ (2 ^ 31 ≤ ((dat 1 0xFFFFFFFF).psn - conn0.expect).toNat ∧ (so conn0 [dat 1 0xFFFFFFFF]).soHeld (dat 1 0xFFFFFFFF) = false) ∧
    ((so sending [{ dat 2 0 with ackpsn := 1 }]).conn 5 = some sending ∧ (∀ o ∈ sending.sends, o.formed = o.packets) ∧ (∀ q ∈ sending.unacked, q.msn = 0 → soCovers { dat 2 0 with ackpsn := 1 } q = true) ∧
      ((so sending [dat 2 0]).cmd 4).map (·.st) = some .running) ∧
    ∃ q ∈ sending.unacked, q.psn = (dat 3 0).psn := by decide +kernel
/-- The object table open to the host: object 3 as a notify object, the frame heap, and a record that awaits its reply in segment 5. -/
def hostTable : List Host.Cell := [(65570, 1), (65575, 16), (65586, 2), (65602, 1), (65606, 64), (65607, 17), (65618, 3), (65634, 1), (65638, 128), (65639, 17), (65650, 4)]
def replyRec : List Host.Cell := [(0x30000 + 5 * 1024 + 10, 2), (0x30000 + 5 * 1024 + 0x10, 1), (0x30000 + 5 * 1024 + 0x11, 1), (0x30000 + 5 * 1024 + 0x14, 1)]
def tpkt (k : BitVec 5) (n : Nat) (bs : List Byte) : Packet := { Packet.zero with kind := k, asid := 1, obj := 3, tag := 5, len := n, payload := bs }
def tray (p : Packet) : State := { linked (memWith (hostTable ++ heap0 ++ replyRec) [] { mfib with wait := .cell 0x40000 true }) with trayRx := [(0, p)] }
def notePkt : Packet := tpkt 0x09 9 [7, 0, 0, 0, 0, 0, 0, 0, 1]
def rplyPkt : Packet := { tpkt 0x0A 16 ([1, 0, 0, 0, 0, 0, 0, 0] ++ List.replicate 8 9) with obj := 2, off := 5 * 1024 }
def strayRply : Packet := { rplyPkt with off := 6 * 1024 }

theorem wit_host_requests : ((tray (tpkt 0x05 8 [])).trayBlocked 0 (tpkt 0x05 8 []) = false ∧ 0 < (tray (tpkt 0x05 8 [])).tray.length ∧ (trayTaken (tray (tpkt 0x05 8 [])) []).hostCheck 0 (tpkt 0x05 8 []) 8 false false (fun _ => false) = .ok [(0x40000, 8)] ∧
      (trayTaken (tray (tpkt 0x05 8 [])) []).segsGone [(0x40000, 8)] = false) ∧
    ((tray (tpkt 0x07 4 [1, 2, 3, 4])).trayBlocked 0 (tpkt 0x07 4 [1, 2, 3, 4]) = false ∧ (tray (tpkt 0x07 4 [1, 2, 3, 4])).mem.wf = true ∧ (tray (tpkt 0x07 4 [1, 2, 3, 4])).queues = [] ∧
      (trayTaken (tray (tpkt 0x07 4 [1, 2, 3, 4])) []).hostCheck 0 (tpkt 0x07 4 [1, 2, 3, 4]) 4 true true (fun _ => false) = .ok [(0x40000, 4)] ∧ (trayTaken (tray (tpkt 0x07 4 [1, 2, 3, 4])) []).segsGone [(0x40000, 4)] = false) ∧
    ((tray notePkt).trayBlocked 0 notePkt = false ∧ (trayTaken (tray notePkt) []).hostCheck 0 notePkt 8 true true (noteBad notePkt) = .ok [(0x40000, 8)] ∧ (trayTaken (tray notePkt) []).segsGone [(0x40000, 8)] = false ∧ (tray notePkt).fib ⟨1, 0, 0⟩ = some { mfib with wait := .cell 0x40000 true }) := by
  decide +kernel

theorem wit_host_replies : ((tray rplyPkt).trayBlocked 0 rplyPkt = false ∧ (trayTaken (tray rplyPkt) []).hostCheck 0 rplyPkt 1024 true false (fun _ => false) = .ok [(0x31400, 1024)] ∧ (trayTaken (tray rplyPkt) []).segsGone [(0x31400, 1024)] = false ∧
      ((trayTaken (tray rplyPkt) []).isRecord 1 5 = true ∧ recState ((trayTaken (tray rplyPkt) []).recWord 1 5) = stLive ∧ recSerial ((trayTaken (tray rplyPkt) []).recWord 1 5) = littleEndian (rplyPkt.payload.take 4) ∧
        recReply ((trayTaken (tray rplyPkt) []).recWord 1 5) = 1) ∧ (trayTaken (tray rplyPkt) []).segPA 1 5 = some 0x31400) ∧
    ((tray strayRply).trayBlocked 0 strayRply = false ∧ (trayTaken (tray strayRply) []).hostCheck 0 strayRply 1024 true false (fun _ => false) = .ok [(0x31800, 1024)] ∧ (trayTaken (tray strayRply) []).segsGone [(0x31800, 1024)] = false ∧ (trayTaken (tray strayRply) []).isRecord 1 6 = false) := by decide +kernel

theorem wit_host_refusals : hostRefusal (trayTaken (tray { tpkt 0x05 8 [] with obj := 1 }) []) 0 { tpkt 0x05 8 [] with obj := 1 } 8 false (fun _ => false) = some 0x40 ∧
    hostRefusal (trayTaken (tray { tpkt 0x05 8 [] with off := 0xFFFC }) []) 0 { tpkt 0x05 8 [] with off := 0xFFFC } 8 false (fun _ => false) = some 0x41 ∧
    hostRefusal (trayTaken (tray { notePkt with off := 4 }) []) 0 { notePkt with off := 4 } 8 true (noteBad { notePkt with off := 4 }) = some 0x45 ∧
    hostRefusal { trayTaken (tray (tpkt 0x05 8 [])) [] with asids := [{ loadAsid with conf := true }] } 0 (tpkt 0x05 8 []) 8 false (fun _ => false) = some 0x42 := by
  unfold hostRefusal; decide +kernel

/-- Host requests of a fibre and of a copy, and what comes back. -/
def hostFib : Fibre := { mfib with wait := .host 0 5 }
def htx (k : HTxKind) : HTx := ⟨0, 5, k, 0, 0, 8, ⟨1, 3, some 0, false⟩, 0⟩
def hosting (k : HTxKind) (p : Packet) : State := { linked (memWith (table0 ++ heap0) [] hostFib) with trayRx := [(0, p)], htxs := [htx k], cmds := [{ putCmd with kind := .copy }] }

theorem wit_host_answers : (hosting (.load ⟨1, 0, 0⟩ 0) (tpkt 0x02 4 [1, 2, 3, 4])).htxOf 0 5 = some (htx (.load ⟨1, 0, 0⟩ 0)) ∧
    (hosting (.load ⟨1, 0, 0⟩ 0) (tpkt 0x02 4 [])).allFibres.filter (fun z => z.2.wait == .host 0 5) = [(⟨1, 0, 0⟩, hostFib)] ∧
    ((hosting (.engine 4 0 8) (tpkt 0x0C 0 [])).htxOf 0 5 = some (htx (.engine 4 0 8)) ∧ (hosting (.engine 4 0 8) (tpkt 0x0C 0 [])).cmd 4 = some { putCmd with kind := .copy } ∧ ({ putCmd with kind := .copy } : Command).exch = false) ∧
    ((hosting (.store ⟨1, 0, 0⟩ 0) (tpkt 0x04 0 [])).htxOf 0 5 = some (htx (.store ⟨1, 0, 0⟩ 0)) ∧ (hosting (.store ⟨1, 0, 0⟩ 0) (tpkt 0x04 0 [])).fib ⟨1, 0, 0⟩ = some hostFib) ∧
    (({ hosting (.tile 7 0 8) (tpkt 0x02 8 []) with tiles := [tileOp] } : State).tile 7 = some tileOp) ∧ 0 + 100000 ≤ (at_ 100000 (hosting (.load ⟨1, 0, 0⟩ 0) (tpkt 0x02 4 []))).ticks ∧ (hosting (.load ⟨1, 0, 0⟩ 0) (tpkt 0x02 4 [])).ticks < 0 + 100000 ∧
    ((hosting (.load ⟨1, 0, 0⟩ 0) (tpkt 0x02 4 [])).trayOf 0).failed = false ∧ (mem0.mg.mgmt = true ∧ 0 < mem0.tdis.length ∧ (mem0.tdi 0).st = .unlocked) :=
  ⟨by decide +kernel, by decide +kernel, by decide +kernel, by decide +kernel, by decide +kernel, by decide +kernel, by decide +kernel, by decide +kernel, by decide +kernel⟩

/-- A lane with something to replay, and a packet in flits to send. -/
def cw0 : Codeword := ⟨0, false, [], ⟨0, 0⟩⟩
def laneOf (y : Lane) : State := { linked mem0 with pairs := [(0, { Pair.reset with credit0 := 8, lanes := [(0, y)] })] }
def replaying : Lane := { lane0 with replay := [{ cw0 with replay := true }, { cw0 with seq := 1 }] }

theorem wit_lane_events : (((laneOf lane0).pair 0).lane 0 = some lane0 ∧ lane0.locked = true ∧ ((laneOf lane0).pair 0).failedNow = false ∧ (∀ c ∈ lane0.replay, c.replay = false) ∧ (laneOf lane0).takeNext 0 = none) ∧
    ((laneOf lane0).pairUse 0 = .fabric 1 ∧ ({ laneOf lane0 with txq := [{ pkt 0x01 4 [] with dst := 1 }] } : State).hop { pkt 0x01 4 [] with dst := 1 } = 1 ∧ (packetFlits { pkt 0x01 4 [] with dst := 1 }).length ≤ 8) ∧
    (((laneOf replaying).pair 0).lane 0 = some replaying ∧ (replaying.replay.find? (·.replay)).isSome = true) ∧
    (replaying.replay = [{ cw0 with replay := true }] ++ { cw0 with seq := 1 } :: [] ∧ ({ cw0 with seq := 1 } : Codeword).seq = (1 : BitVec 16).setWidth 12 ∧ ∀ d ∈ [{ cw0 with replay := true }], d.seq ≠ 1) ∧
    (cw0.seq = lane0.rxSeq ∧ cw0.flits = [] ∧ lane0.rxFlits = []) ∧ ((0 : BitVec 12) ≠ ({ lane0 with rxSeq := 1 } : Lane).rxSeq ∧ ((1 : BitVec 12) - 0).toNat < 2048) ∧
    ((2048 : BitVec 12) ≠ lane0.rxSeq ∧ 2048 ≤ ((0 : BitVec 12) - 2048).toNat ∧ lane0.discarding = false) := by decide +kernel

theorem wit_header_flits : (pkt 0x01 1023 []).len < 1024 ∧ ((pkt 0x01 1023 []).kind = 0x10 → (pkt 0x01 1023 []).gtags.length = 32) ∧ ((pkt 0x01 1023 []).kind ≠ 0x10 → (pkt 0x01 1023 []).gtags = []) ∧ rMig.kind = 0x10 ∧ rMig.gtags.length = 32 ∧ rMig.op = 0 ∧ rMig.coff.toNat % 512 = 0 ∧ rMig.coff.toNat < 2 ^ 33 ∧
    (∀ p ∈ [pkt 0x01 1023 [], rMig, pkt 0x0C 8 []], p.sched = false) ∧ (pkt 0x01 1023 []).coff = 0 ∧ (pkt 0x0C 8 []).coff = 0 := by decide +kernel

/-- Package 1 of the node, linked to package 0 by pair 19; sideband messages from there. -/
def side (m : Sideband) : State := { laneOf lane0 with pos := 1, peers := (mem0.peers.set 0 livePeer).set 1 livePeer, pairs := [(19, { Pair.reset with lanes := [(0, lane0)] })], sbRx := [(19, 0, m)] }
def unit7 : BarUnit := ⟨7, 0, 0, 1, 3, false, 0, false⟩
def timing : State := { side ⟨6, 4⟩ with sync := ⟨0, 0, some 1, some 2, some 3, none, [(19, 0, [1, 2, 3])]⟩ }

theorem wit_link_and_node_events : (((laneOf lane0).pair 0).failedNow = false ∧ ((laneOf lane0).pair 0).lanes ≠ [] ∧ (laneOf lane0).pairUse 0 ≠ .spare ∧ (laneOf lane0).spares < 2) ∧
    ((({ laneOf lane0 with pairs := [(0, { Pair.reset with substituting := some 0 })] } : State).pair 0).substituting ≠ none) ∧ (peerOfPair 1 19 = some 0 ∧ (side ⟨5, 3⟩).pos = 1) ∧
    ((({ side ⟨4, 1⟩ with units := [unit7] } : State).units.find? (fun u => u.level == 7 && u.num == 0) = some unit7 ∧ unit7.mask.getLsbD 0 = true ∧ unit7.phase = (1 : BitVec 16).getLsbD 13) ∧ (side ⟨4, 1⟩).units = []) ∧
    ((1 : BitVec 16).toNat / 16 % 16 = 0 ∧ (1 : BitVec 16).toNat % 16 = (side ⟨4, 1⟩).pos ∧ (2 : BitVec 16).toNat / 16 % 16 = 0 ∧ (2 : BitVec 16).toNat % 16 ≠ (side ⟨4, 2⟩).pos ∧ (2 : BitVec 16).toNat % 16 ≠ 0 ∧ 0 < (side ⟨4, 1⟩).peers.length) ∧
    (timing.sync.t1 = some 1 ∧ timing.sync.t2 = some 2 ∧ timing.sync.t3 = some 3) ∧
    (timing.sync.run = [(19, 0, [1, 2, 3])] ∧ timing.timeUp = some 0 ∧ (side ⟨6, 4⟩).sync.run = []) ∧
    ((linked mem0).ftSilenced = false ∧ (linked mem0).livePositions.head? = some 0) ∧ ((side ⟨7, 0x4001⟩).ftStandby = true ∧ (side ⟨7, 0x4001⟩).ftSilenced = false ∧ (side ⟨7, 0x4001⟩).ft.acting = false ∧
      (side ⟨7, 0x4001⟩).ft.lastPrimary + 30000 ≤ (at_ 30000 (side ⟨7, 0x4001⟩)).ticks ∧ (side ⟨7, 0x4001⟩).ticks < (side ⟨7, 0x4001⟩).ft.lastPrimary + 30000) ∧
    ((0x4001 : BitVec 16).toNat / 16384 < 2) := by decide +kernel

/-- The package during bring-up. -/
def boot : State := { State.reset with mg := { Mgmt.reset with mgmt := true, step := 1, acceptWritten := [true, true, true, true] }, svc := List.replicate 4 ⟨true, 0, false⟩ }
def atStep (n : Nat) (b : BootReport) : State := { boot with mg := { boot.mg with step := BitVec.ofNat 4 n }, boot := b }
def found : BootReport := ⟨0, true, 0, 0, none, none⟩
def raising : State := { boot with mg := { boot.mg with step := 4, limited := true }, dies := List.replicate 4 ⟨true, false⟩ }

theorem wit_bring_up_events : ((2 : BitVec 4).getLsbD 1 = true ∧ ∀ e, e < 1 → (2 : BitVec 4).getLsbD e = false) ∧ (boot.healthy ≠ [] ∧ boot.mg.mgmt = true ∧ boot.mg.limited = false ∧ boot.takeover = none ∧ boot.mg.step = 1 ∧ (atStep 15 found).mg.step = 15 ∧
      ({ boot with mg := Mgmt.reset } : State).mg.mgmt = false ∧ ({ boot with mg := Mgmt.reset } : State).healthy ≠ []) ∧
    ((atStep 2 { found with clocks := false }).mg.step = 2 ∧ (atStep 2 { found with clocks := false }).boot.clocks = false ∧ (atStep 2 found).mg.step = 2 ∧ (atStep 2 found).boot.clocks = true ∧ (atStep 2 found).boot.untrained = 0 ∧
      (atStep 2 { found with untrained := 8 }).boot.untrained ≠ 0) ∧
    ((atStep 3 found).dies[0]? = some ⟨false, false⟩ ∧ (atStep 3 found).dies[2]? = some ⟨false, false⟩ ∧ (atStep 3 found).power.stopped = false ∧ (atStep 3 found).mg.step = 3 ∧ (atStep 3 found).mg.limited = false ∧ boot.mg.raised = false ∧
      ({ raising with dies := (List.range 4).map (fun d => ⟨d == 0, false⟩) } : State).dies[2]? = some ⟨false, false⟩ ∧ raising.mg.limited = true ∧ raising.mg.raised = false) ∧ boot.mg.full = false ∧
    (raising.mg.step = 4 ∧ raising.power.stopped = false ∧ raising.mg.noFull = false ∧ raising.takeover = none ∧ raising.mg.mgmt = true ∧ (∀ b ∈ raising.mg.acceptWritten, b = true) ∧ (∀ x ∈ raising.dies, x.initialised = true)) ∧ (∃ x ∈ boot.dies, x.initialised = false) ∧
    ({ raising with mg := { raising.mg with noFull := true } } : State).mg.noFull = true := by decide +kernel

/-- A takeover under way. -/
def taking : State := at_ 300000 { boot with takeover := some 1 }

theorem wit_management_events : (mem0.mg.mgmt = true ∧ mem0.takeover = none ∧ 0x0402 % 4 ≠ 0 ∧ (3 : Word).toNat % 8 ∉ [1, 2, 4] ∧ (9 : Word).toNat % 8 = 1) ∧ boot.svc[0]? = some ⟨true, 0, false⟩ ∧ boot.svc[boot.mg.leader.toNat]? = some ⟨true, 0, false⟩ ∧
    (boot.heir = some 1 ∧ boot.svc[1]? = some ⟨true, 0, false⟩ ∧ boot.takeover = none ∧ boot.ticks < 0 + 300000 ∧ 0 + 300000 ≤ (at_ 300000 boot).ticks) ∧ (taking.takeover = some 1 ∧ taking.mg.errhead < taking.mg.errlog.length) ∧
    cellsOk none boot.mg.fwstage = true := by decide +kernel

/-- The package with a throttle demand, and with none for 20 ms; in slots 0, 41 and 57 of a house frame, there with a lost sector. -/
def hot : State := { mem0 with power := { mem0.power with target := 2, clearSince := some 0 } }
def cool : State := at_ 20000000 { mem0 with mg := { mem0.mg with pwrstat := 2 }, power := { mem0.power with clearSince := some 0, lastMove := 5 } }
def slot (n : Nat) (b : List Nat) : State := at_ (BitVec.ofNat 64 (16000 * n)) { mem0 with bad := b }

theorem wit_power_events : (∃ x ∈ (⟨[115], [], [], 0, 0⟩ : Readings).junction, 115 ≤ x) ∧ (hot.power.lastMove = 0 ∧ hot.mg.throttle < hot.power.target.toNat) ∧
    (cool.power.target.toNat < cool.mg.throttle ∧ cool.power.clearSince = some 0 ∧ cool.power.lastMove + 1000000 ≤ cool.ticks ∧ 0 + 20000000 ≤ cool.ticks) ∧ (mem0.power.hbmDemand = false ∧ ∀ x ∈ mem0.power.readings.hbm, x < 95) ∧
    ((slot 0 []).slotNow = 0 ∧ (slot 41 []).slotNow = 41 ∧ (slot 57 []).slotNow = 57 ∧ (slot 41 []).scrubbedBad = [] ∧ (slot 41 [0]).scrubbedBad ≠ [] ∧ mem0.mg.step ≠ 2 ∧ mem0.mg.errhead < mem0.mg.errlog.length ∧
      ∀ x ∈ (slot 41 []).agenda, x.ev ≠ .patrolScrub []) := by decide +kernel
/-- A queue in some state with a binding whose ring and control block lie in object 3, and memory with further bytes. -/
def bnd : Binding := ⟨1, 3, 0x100, 4, 3, 0x40, 1, true⟩
def queueIn (st : QSt) (c : Option Launch) : Queue := ⟨5, bnd, st, 0, [2] ++ List.replicate 255 0, [], c, none, none, false, false⟩
def queued (st : QSt) (c : Option Launch) (cs : List Host.Cell) : State := { memWith (table0 ++ header0 ++ cs) [] mfib with queues := [queueIn st c] }
where header0 : List Host.Cell :=
  [(131072, 0x46), (131073, 0x45), (131074, 0x4E), (131075, 0x32), (131076, 1), (131080, 64), (131084, 16), (131088, 0xDA), (131089, 0xA1), (131090, 0xC7), (131091, 0x2F), (131092, 0xD1), (131093, 0xA0),
   (131094, 0x1E), (131095, 0x7A), (131096, 0xEB), (131097, 0x84), (131098, 0x8A), (131099, 0x38), (131100, 0x6D), (131101, 0x16), (131102, 0xA9), (131103, 0x9C)]

theorem wit_queue_binding : (mem0.supervised = true ∧ mem0.queue 5 = none ∧ bnd.ringOff % 256 = 0 ∧ bnd.ctlOff % 64 = 0 ∧ mem0.ctlPA bnd 0 = some 0x40040 ∧ mem0.ctlHeld bnd = false) ∧
    ({ mem0 with tiles := [{ tileOp with granted := [0x400] }] } : State).ctlHeld bnd = true ∧
    (mem0.queues = [] ∧ mem0.mem.wf = true ∧ (mem0.ctlWrite bnd 0 0).ctlPA bnd 8 = some (0x40040 + 8) ∧ ((mem0.ctlWrite bnd 0 0).ctlWrite bnd 8 0).ctlPA bnd 16 = some (0x40040 + 16)) ∧
    ((queued .idle none []).queue 5 = some (queueIn .idle none) ∧ ∀ L ∈ (queued .idle none []).launches, L.queue ≠ 5) ∧
    (queued .check none []).queue 5 = some (queueIn .check none) := by decide +kernel

/-- A ready record with an EVENT capability for object 3. -/
def ringed : State := queued .waitReady none [(0x40104, 1), (0x40132, 1), (0x4013C, 208), (0x4013D, 63)]

theorem wit_consumption : (queueIn .idle none).n < (queued .idle none [(0x40040, 1)]).tailOf bnd ∧
    (ringed.readyRead (queueIn .waitReady none) = .bytes [1, 0, 0, 0] ∧ bytesNat [1, 0, 0, 0] = 1) ∧
    (∃ p m, ringed.xlatNow false ⟨1, 3, (queueIn .waitReady none).place, 256, false, false⟩ = .pa p m ∧ ringed.isBad p 256 = false ∧ ringed.spanLatched false (.mem [(p, 256)]) = false) ∧
    ringed.ctlHeld bnd = false ∧ (∀ L ∈ (queued .idle none [(0x40040, 1)]).launches, L.queue = 5 → L.placedLaunch = true) ∧
    ringed.mem.wf = true ∧ ringed.ctlPA bnd 8 = some 0x40048 ∧
    (∀ w ∈ ringed.tailWords, w + 8 ≤ 0x40048 ∨ 0x40048 + 8 ≤ w) ∧ (match exec (.recordConsumption 5) ringed with | .next t => t.mgmtOut == ringed.mgmtOut | _ => false) = true :=
  ⟨by decide +kernel, by decide +kernel, ⟨0x40100, false, by decide +kernel, by decide +kernel, by decide +kernel⟩, by decide +kernel, by decide +kernel, by decide +kernel, by decide +kernel, by decide +kernel, by decide +kernel⟩

/-- A record's launch that its checks pass; one whose count word, read early, is 0; and the queue with another record, whose VERSION is 0. -/
def good : Launch := { lau with id := 9, entry := 64, early := true }
def none0 : Launch := { good with indirect := true, indOff := 0x40, indMax := 8 }
def oldVersion : Queue := { queueIn .check (some good) with raw := [] }

theorem wit_checks : (queued .check (some good) []).eventOk bnd good = true ∧ (queued .check (some good) []).checkRest (queueIn .check (some good)) good = .pass good ∧ good.count ≠ 0 ∧ (queued .check (some good) []).ctlHeld bnd = false ∧
    (queued .check (some none0) []).eventOk bnd none0 = true ∧ (queued .check (some none0) []).checkRest (queueIn .check (some none0)) none0 = .pass { none0 with gridX := 0, count := 0 } ∧
    (queued .check (some good) []).checkRest oldVersion good = .refuse 0x60 := by decide +kernel

/-- A launch that depends on a word, and one whose count word is read at the end of its wait, with 3 or 0. -/
def needs : Launch := { good with dep0 := (0x80, 1) }
def counted : Launch := { good with early := false, indirect := true, indOff := 0x40, indMax := 8 }

theorem wit_hand_over : ((∀ d ∈ [good.dep0, good.dep1], d.2 = 0) ∧ good.early = true ∧ good.count ≠ 0) ∧
    ((queued .depWait (some needs) [(0x40080, 2)]).depRead needs (0x80, 1) = .bytes [2, 0, 0, 0] ∧ needs.dep1.2 = 0) ∧
    ((∀ d ∈ [counted.dep0, counted.dep1], d.2 = 0) ∧ (queueIn .depWait (some counted)).last = none ∧ (queued .depWait (some counted) []).readCount (queueIn .depWait (some counted)) { counted with dep0 := (0, 0), dep1 := (0, 0) } = .pass { counted with gridX := 0, count := 0, dep0 := (0, 0), dep1 := (0, 0) } ∧
      (queued .depWait (some counted) [(0x40040, 3)]).readCount (queueIn .depWait (some counted)) { counted with dep0 := (0, 0), dep1 := (0, 0) } = .pass { counted with gridX := 3, count := 3, dep0 := (0, 0), dep1 := (0, 0) }) ∧
    (mem0.tableRoom = true ∧ good.cores = false) ∧
    mem0.wholePlan { good with cores := true, count := 513, placedLaunch := true } = none ∧
    mem0.wholePlan { good with cores := true, gangLog := 9, count := 512, placedLaunch := true } = none ∧
    ({ mem0 with gangs := [] } : State).wholePlan { good with cores := true, gangLog := 9, count := 512, placedLaunch := true } = some [List.range 512] := by decide +kernel

/-- A refused launch. -/
def refused : State := { mem0 with launches := [{ lau with refusal := 0x60 }] }
theorem wit_completion : (refused.launch 1 = some { lau with refusal := 0x60 } ∧ refused.ending { lau with refusal := 0x60 } = true ∧ refused.coresReleased { lau with refusal := 0x60 } = true ∧ refused.completionHeld { lau with refusal := 0x60 } = false ∧ lau.stall = none) ∧
    let u := refused.over (refused.coresRun { lau with refusal := 0x60 }) (fun s c => (s.releaseAll c 5).1)
    u.xlatNow false ⟨1, 3, 0, 8, true, false⟩ = .pa 0x40000 false ∧ u.latched 0x40000 = false ∧ u.isBad 0x40000 8 = false ∧ u.mem.wf = true ∧ u.tailWords = [] := by decide +kernel

/-- A launch none of whose gangs has cores; a saved gang; a launch of higher priority that takes all cores; one that has a second gang of that size, while the fibre of the first has been parked for long. -/
def fresh1 : State := { mem0 with launches := [{ lau with nextGang := 0 }], gangs := [], wgs := [] }
def saved1 : State := { mem0 with gangs := [⟨1, 0, .saved, [0], false, false, false, 0, 0⟩] }
def rival1 : Launch := { lau with id := 2, queue := 7, gangLog := 9, count := 512, nextGang := 0 }
def claims : State := { mem0 with launches := [lau, { rival1 with prio := 1 }] }
def parked1 : State := at_ 30000 { memOf (fun f => { f with wait := .cell 0x40000 true, parked := some 0 }) with launches := [{ lau with gangLog := 9, count := 1024 }] }

theorem wit_placement : fresh1.placeNext = some (⟨1, [0], false, 0, 0, 0, 1⟩, true, [[0]]) ∧ saved1.placeNext = some (⟨1, [0], true, 0, 0, 0, 1⟩, true, [[0]]) ∧
    claims.placeNext = some (⟨2, [0], false, 0, 1, 7, 512⟩, false, [List.range 512]) ∧
    (∃ o ∈ [List.range 512].flatMap claims.occupants, o.st = .running) ∧
    parked1.evictNext = some (⟨1, [1], false, 2, 0, 0, 512⟩, ⟨1, 0, .running, [0], false, false, false, 0, 0⟩) := by decide +kernel

/-- A gang in a state; one beside a rival of its priority. -/
def gangIn (st : GangSt) : Gang := ⟨1, 0, st, [0], false, false, false, 0, 0⟩
def inSt (st : GangSt) : State := { mem0 with gangs := [gangIn st] }
def rivalled : State := { mem0 with launches := [lau, rival1] }
def ended (st : GangSt) : State := { inSt st with wgs := [Wg.start lau 0 0] }

theorem wit_quanta : (mem0.gang 1 0 = some (gangIn .running) ∧ mem0.launch 1 = some lau ∧ mem0.cands = []) ∧
    (rivalled.gang 1 0 = some (gangIn .running) ∧ rivalled.cands = [] ++ ⟨2, [0], false, 0, 0, 7, 512⟩ :: [] ∧ rivalled.fit ⟨2, [0], false, 0, 0, 7, 512⟩ = none ∧ rivalled.poolRoom (rivalled.setOf (gangIn .running)) = true) := by
  decide +kernel

theorem wit_gang_states : ((inSt .halting).gang 1 0 = some (gangIn .halting) ∧ (∀ x ∈ (inSt .halting).tiles, x.granted = []) ∧ (inSt .halting).gangFibres (gangIn .halting) ≠ [] ∧ (ended .halting).gangFibres (gangIn .halting) = []) ∧
    ((inSt .saving).gang 1 0 = some (gangIn .saving) ∧ (inSt .saving).gangReleased (gangIn .saving) = true ∧ (inSt .saving).gangFibres (gangIn .saving) ≠ [] ∧ (ended .saving).gangFibres (gangIn .saving) = []) ∧ ((inSt .restoring).gang 1 0 = some (gangIn .restoring) ∧ ((inSt .restoring).launch 1).any (·.cores) = false ∧ (inSt .restoring).holds = []) ∧
    ((ended .running).wg 1 0 = some (Wg.start lau 0 0) ∧ (ended .retiring).wg 1 0 = some (Wg.start lau 0 0) ∧ (ended .running).wgClear (Wg.start lau 0 0) = true ∧ (ended .running).hurts = [] ∧ (Wg.start lau 0 0).fibres = [] ∧ ∀ x ∈ (ended .running).wgs, x = Wg.start lau 0 0) := by decide +kernel

/-- The Hamper of die 0 with an open window, and with a batch on which the fibre waits. -/
def windowed : State := { mem0 with hampers := [⟨[⟨3, ⟨1, 3, some 0, false⟩⟩], some 0, []⟩] ++ List.replicate 3 ⟨[], none, []⟩ }
def batched : State := { memOf (fun f => { f with wait := .hamper 0 3 ⟨1, 3, some 0, false⟩ 0x0D1 }) with hampers := [⟨[], none, [[⟨3, ⟨1, 3, some 0, false⟩⟩]]⟩] ++ List.replicate 3 ⟨[], none, []⟩ }

theorem wit_hamper : (windowed.hampers[0]? = some ⟨[⟨3, ⟨1, 3, some 0, false⟩⟩], some 0, []⟩ ∧ 0 ≤ windowed.ticks) ∧
    (batched.supervised = true ∧ batched.limitedOnly = false ∧ batched.hampers[0]? = some ⟨[], none, [[⟨3, ⟨1, 3, some 0, false⟩⟩]]⟩ ∧ batched.entry 1 3 = some ⟨1, false, false, false, false, 0, 0x10000, 0, 0x40000, 0⟩ ∧
      batched.regionResident ⟨1, false, false, false, false, 0, 0x10000, 0, 0x40000, 0⟩ 0 = true ∧ batched.asks = [] ∧ batched.wakes = [] ∧ ∀ x ∈ batched.allFibres, x.2.wait.onRec 0 3 = true) := by decide +kernel

/-- Object 3 as a list of one page. -/
def listed : State := { mem0 with mem := ⟨[(65634, 1), (65639, 32), (65650, 5), (0x40000, 1), (0x50002, 4), (0x50007, 0x80)], []⟩, cores := [], objCache := [] }
def listEntry : OEntry := ⟨2, false, false, false, false, 0, 0x10000, 0, 0x50000, 0⟩
def grant : PageGrant := ⟨1, 3, 0, [0x8000000000060000]⟩

def migrating (m : Nat) (ts : List TileOp) : State := { listed with migrs := [⟨grant, m⟩], tiles := ts }

theorem wit_migration : (listed.supervised = true ∧ (listed.asid 1).isSome = true ∧ listed.entry 1 3 = some listEntry ∧ listed.movedPages listEntry grant = [(0, 0x8000000000040000, 0x8000000000060000)] ∧
      ((listEntry.pages 0).filter (fun p => decide (p * listEntry.pageSize < listEntry.size))).length = 1 ∧ pageP 0x8000000000040000 = true ∧ pageP 0x8000000000060000 = true ∧ pageMig 0x8000000000060000 = false) ∧
    (listed.migrs = [] ∧ (migrating 1 []).migrs = [⟨grant, 1⟩] ∧ (migrating 1 []).tileIn listEntry.pageSize [(0, 0x8000000000040000, 0x8000000000060000)] 1 = false ∧ (migrating 1 []).translated 1 (some 3) 1 = false ∧
      (migrating 9 [{ tileOp with granted := [0x400] }]).tileIn listEntry.pageSize [(0, 0x8000000000040000, 0x8000000000060000)] 9 = true) ∧
    (listed.cores = [] ∧ listed.asks = [] ∧ listed.wakes = [] ∧ listed.queues = [] ∧ listed.mem.wf = true) ∧ pageAddr 0x8000000000060000 = 0x60000 ∧ listEntry.wordPA 0 = 0x50000 ∧ (listed.asid 1).map (fun d => d.entryPA 3) = some 0x10060 := by decide +kernel

/-- A TDI that is locked, with the keys of its link's stream set, and one in RUN. -/
def lockedTdi : State := { mem0 with ide := 1, tdis := mem0.tdis.set 2 ⟨.locked, 0, 0, 0⟩ }
def confident : State := { mem0 with tdis := mem0.tdis.set 2 ⟨.run, 1, 3, 0⟩ }
theorem wit_address_spaces : (mem0.supervised = true ∧ mem0.asid 2 = none ∧ (0x8000 : Nat) % 32 = 0 ∧ (mem0.asid 1).any (fun d => !d.conf) = true) ∧
    (lockedTdi.supervised = true ∧ lockedTdi.acceptNow.getLsbD 13 = true ∧ lockedTdi.ide ≠ 0 ∧ lockedTdi.tdis[2]? = some ⟨.locked, 0, 0, 0⟩ ∧ lockedTdi.keys.length < 256 ∧ lockedTdi.asid 2 = none) ∧
    confident.tdis[2]? = some ⟨.run, 1, 3, 0⟩ ∧ 2 < confident.tdis.length := by
  decide +kernel

/-- What a step serves: an operation that is due, one that is not and nothing else, arrivals, a unit's own action, the end of a cycle, and nothing. -/
def agendaOf (n : Nat) : State := { mem0 with agenda := [⟨n, .hbmRefresh⟩] }
def quietOne : State := { mem0 with wgs := [] , launches := [], gangs := [] }

theorem wit_step : ((agendaOf 0).agenda = [⟨0, .hbmRefresh⟩] ∧ 0 ≤ (agendaOf 0).ticks) ∧ ((agendaOf 5).ticks < 5 ∧ (agendaOf 5).sbRx = [] ∧ (agendaOf 5).rxq = [] ∧ (agendaOf 5).trayRx = [] ∧ (agendaOf 5).soRx = []) ∧
    (fresh1.unitEvent = some .gangPlacement) ∧ (quietOne.unitEvent = none ∧ quietOne.nextVisit = none) ∧ (∀ x ∈ mem0.agenda, mem0.ticks < x.due) ∧
    (sidebandEvent ⟨7, 0x4001⟩).isSome = true ∧ ((got (pkt 0x01 4 [])).rxBlocked (pkt 0x01 4 []) = false ∧ ((got (pkt 0x01 4 [])).fabricEvent (pkt 0x01 4 [])).isSome = true) ∧
    ({ quietOne with power := { mem0.power with stopped := true } } : State).quiet = true := by decide +kernel

/-- A machine about to issue an ADD of its one fibre. -/
def runner : State := { memWith [] [] mfib with cur := Cur.reset, gangs := [⟨1, 0, .running, [0], false, false, false, 2000000, 0⟩], cores := [{ Core.empty 0 with icache := [⟨1, 1, 0, packetBytes 0x10082110⟩] }] }
def runnerWg : Wg := { Wg.start lau 0 0 with fibres := [mfib] }

theorem wit_step_issue : runner.nextEvent = none ∧ runner.power.stopped = false ∧ runner.nextVisit = some (lau, runnerWg, 0) ∧ runner.wg 1 0 = some runnerWg := by decide +kernel
theorem wit_step_fetch : mfib.pc.toNat % 4 = 0 ∧ 4 ≤ mfib.pc.toNat % 16 ∧ fetchRefusal mfib.code (mfib.pc.toNat / 16 * 16) = none ∧
    (runner.core 0).packet 1 mfib.code.obj.toNat (mfib.pc.toNat / 16 * 16) = some (packetBytes 0x10082110) ∧ (packetBytes 0x10082110).length = 16 := by decide +kernel
theorem wit_step_slot : let p := packetOf (packetBytes 0x10082110)
    let k := slotAt mfib.pc
    p.isExt k = false ∧ p.isEmpty k = false ∧ p.illegal = false ∧ chainOf p k = [k] ∧ p.decode k = .ok (.add 2 2 4 false true false) ∧
    runner.unblocked lau 0 mfib.settle [(.add 2 2 4 false true false, BitVec.ofNat 8 (p.ctlByte k))] = true ∧
    (∀ x, pipeOf (p.op k) = some x → (runner.core 0).pipesFree 0 runner.clock.toNat [x] = true) ∧ pipeOf (p.op k) ≠ some .eng := by
  refine ⟨by decide +kernel, by decide +kernel, by decide +kernel, by decide +kernel, by decide +kernel, by decide +kernel, ?_, by decide +kernel⟩
  exact all_of (by decide +kernel)

theorem wit_whole_machine : State.reset.memOk = true ∧ (∃ t, step State.reset = .next t) ∧ State.reset.power.stopped = false ∧ (encode (.add 1 2 3 false false false) ≠ []) := by
  refine ⟨by decide +kernel, ?_, by decide +kernel, by decide +kernel⟩
  have h : (match step State.reset with | .next _ => true | _ => false) = true := by decide +kernel
  split at h
  · exact ⟨_, by assumption⟩
  · simp at h
/-! ## Decoding: words written field by field from the encoding tables (R290, R293, R294 and the instructions' entries), one for each instruction -/

theorem test_decode_control : ∀ p ∈ ([
    ((1#8 ++ 0xC0FFE1#24 : BitVec 32).toNat, .bra 0xc0ffe1),
    ((2#8 ++ 0xC0FFE1#24 : BitVec 32).toNat, .bru 0xc0ffe1),
    ((0xB013#16 ++ 0xB012#16 ++ 0xB011#16 ++ 0xB010#16 ++ 3#8 ++ 5#4 ++ 6#4 ++ 7#4 ++ 8#4 ++ 0#8 : BitVec 96).toNat, .bway 5 6 7 8 0xb010 0xb011 0xb012 0xb013),
    ((4#8 ++ 0xC0FFE1#24 : BitVec 32).toNat, .call 0xc0ffe1),
    ((5#8 ++ 0#6 ++ 0x0E#4 ++ 0x18#6 ++ 0x81#8 : BitVec 32).toNat, .calli 14 24 0x81),
    ((6#8 ++ 0#6 ++ 0x0E#4 ++ 0x18#6 ++ 0x81#8 : BitVec 32).toNat, .jmpi 14 24 0x81),
    ((7#8 ++ 0#24 : BitVec 32).toNat, .ret),
    ((8#8 ++ 0#12 ++ 0xA05#12 : BitVec 32).toNat, .meet 0xa05),
    ((9#8 ++ 0#24 : BitVec 32).toNat, .exit),
    ((0x0A#8 ++ 0#24 : BitVec 32).toNat, .nop),
    ((0x0B#8 ++ 0#12 ++ 0xA05#12 : BitVec 32).toNat, .frame 0xa05),
    ((0x0C#8 ++ 0#24 : BitVec 32).toNat, .unframe),
    ((0x0D#8 ++ 0x14#6 ++ 0#6 ++ 0xA05#12 : BitVec 32).toNat, .loop 20 0xa05),
    ((0x0E#8 ++ 0#20 ++ 1#1 ++ 6#3 : BitVec 32).toNat, .assert true 6)] : List (Nat × Instr)), decodeTableWord 32 p.1 = some p.2 ∧ p.2.wf = true := by decide +kernel

theorem test_decode_integer_1 : ∀ p ∈ ([
    ((0x10#8 ++ 0x14#6 ++ 0x18#6 ++ 0x1C#6 ++ 0#1 ++ 1#1 ++ 0#1 ++ 0#3 : BitVec 32).toNat, .add 20 24 28 false true false),
    ((0x11#8 ++ 0x14#6 ++ 0x18#6 ++ 0xA05#12 : BitVec 32).toNat, .addi 20 24 0xa05),
    ((0x12#8 ++ 0x14#6 ++ 0x18#6 ++ 0x1C#6 ++ 0#1 ++ 1#1 ++ 0#1 ++ 0#3 : BitVec 32).toNat, .sub 20 24 28 false true false),
    ((0x13#8 ++ 0x14#6 ++ 0x18#6 ++ 0x1C#6 ++ 0#1 ++ 0#5 : BitVec 32).toNat, .addc 20 24 28 false),
    ((0x14#8 ++ 0x14#6 ++ 0x18#6 ++ 0x1C#6 ++ 0#1 ++ 1#1 ++ 0#1 ++ 0#3 : BitVec 32).toNat, .mul 20 24 28 false true false),
    ((0x15#8 ++ 0x14#6 ++ 0x18#6 ++ 0x1C#6 ++ 0#1 ++ 0#1 ++ 1#1 ++ 0#3 : BitVec 32).toNat, .mulhi 20 24 28 false true),
    ((0x16#8 ++ 0x14#6 ++ 0x18#6 ++ 0x1C#6 ++ 8#6 : BitVec 32).toNat, .mad 20 24 28 8),
    ((0x17#8 ++ 0x14#6 ++ 0x18#6 ++ 0x1C#6 ++ 8#6 : BitVec 32).toNat, .madw 20 24 28 8),
    ((0x18#8 ++ 0x14#6 ++ 0x18#6 ++ 0x1C#6 ++ 0#1 ++ 1#1 ++ 0#1 ++ 0#3 : BitVec 32).toNat, .div 20 24 28 false true false),
    ((0x19#8 ++ 0x14#6 ++ 0x18#6 ++ 0x1C#6 ++ 0#1 ++ 0#1 ++ 1#1 ++ 0#3 : BitVec 32).toNat, .rem 20 24 28 false true),
    ((0x1A#8 ++ 0x14#6 ++ 0x18#6 ++ 0x1C#6 ++ 0#1 ++ 0#1 ++ 1#1 ++ 0#3 : BitVec 32).toNat, .min 20 24 28 false true),
    ((0x1B#8 ++ 0x14#6 ++ 0x18#6 ++ 0x1C#6 ++ 0#1 ++ 0#1 ++ 1#1 ++ 0#3 : BitVec 32).toNat, .max 20 24 28 false true),
    ((0x1C#8 ++ 0x14#6 ++ 0x18#6 ++ 0#6 ++ 1#1 ++ 0#1 ++ 0#4 : BitVec 32).toNat, .abs 20 24 true false),
    ((0x1D#8 ++ 0x14#6 ++ 0x18#6 ++ 0#6 ++ 1#1 ++ 0#1 ++ 0#4 : BitVec 32).toNat, .neg 20 24 true false),
    ((0x1E#8 ++ 0x14#6 ++ 0x18#6 ++ 0x1C#6 ++ 0#1 ++ 0#5 : BitVec 32).toNat, .and 20 24 28 false),
    ((0x1F#8 ++ 0x14#6 ++ 0x18#6 ++ 0xA05#12 : BitVec 32).toNat, .andi 20 24 0xa05)] : List (Nat × Instr)), decodeTableWord 32 p.1 = some p.2 ∧ p.2.wf = true := by decide +kernel

theorem test_decode_integer_2 : ∀ p ∈ ([
    ((0x20#8 ++ 0x14#6 ++ 0x18#6 ++ 0x1C#6 ++ 0#1 ++ 0#5 : BitVec 32).toNat, .or 20 24 28 false),
    ((0x21#8 ++ 0x14#6 ++ 0x18#6 ++ 0xA05#12 : BitVec 32).toNat, .ori 20 24 0xa05),
    ((0x22#8 ++ 0x14#6 ++ 0x18#6 ++ 0x1C#6 ++ 0#1 ++ 0#5 : BitVec 32).toNat, .xor 20 24 28 false),
    ((0x23#8 ++ 0x14#6 ++ 0x18#6 ++ 0xA05#12 : BitVec 32).toNat, .xori 20 24 0xa05),
    ((0x24#8 ++ 0x14#6 ++ 0x18#6 ++ 0x1C#6 ++ 0#1 ++ 0#5 : BitVec 32).toNat, .andn 20 24 28 false),
    ((0x25#8 ++ 0x14#6 ++ 0x18#6 ++ 0x1C#6 ++ 0#1 ++ 1#1 ++ 0#1 ++ 0#3 : BitVec 32).toNat, .shl 20 24 28 false true false),
    ((0x26#8 ++ 0x14#6 ++ 0x18#6 ++ 0#7 ++ 0x0B#5 : BitVec 32).toNat, .shli 20 24 11),
    ((0x27#8 ++ 0x14#6 ++ 0x18#6 ++ 0x1C#6 ++ 0#1 ++ 0#1 ++ 1#1 ++ 0#3 : BitVec 32).toNat, .shr 20 24 28 false true),
    ((0x28#8 ++ 0x14#6 ++ 0x18#6 ++ 0#6 ++ 1#1 ++ 0x0C#5 : BitVec 32).toNat, .shri 20 24 true 12),
    ((0x29#8 ++ 0x14#6 ++ 0x18#6 ++ 0x1C#6 ++ 0#1 ++ 0#5 : BitVec 32).toNat, .rot 20 24 28 false),
    ((0x2A#8 ++ 0x14#6 ++ 0x18#6 ++ 0x1C#6 ++ 8#6 : BitVec 32).toNat, .funnel 20 24 28 8),
    ((0x2B#8 ++ 0x14#6 ++ 0x18#6 ++ 0x1C#6 ++ 0#1 ++ 0#1 ++ 1#1 ++ 0#3 : BitVec 32).toNat, .bfx 20 24 28 false true),
    ((0x2C#8 ++ 0x14#6 ++ 0x18#6 ++ 0x1C#6 ++ 8#6 : BitVec 32).toNat, .bfi 20 24 28 8),
    ((0x2D#8 ++ 0x14#6 ++ 0x18#6 ++ 0#6 ++ 1#1 ++ 0#5 : BitVec 32).toNat, .popc 20 24 true),
    ((0x2E#8 ++ 0x14#6 ++ 0x18#6 ++ 0#6 ++ 1#1 ++ 0#5 : BitVec 32).toNat, .clz 20 24 true),
    ((0x2F#8 ++ 0x14#6 ++ 0x18#6 ++ 0#6 ++ 1#1 ++ 0#5 : BitVec 32).toNat, .ctz 20 24 true)] : List (Nat × Instr)), decodeTableWord 32 p.1 = some p.2 ∧ p.2.wf = true := by decide +kernel

theorem test_decode_integer2 : ∀ p ∈ ([
    ((0x30#8 ++ 0x14#6 ++ 0x18#6 ++ 0#6 ++ 1#1 ++ 0#5 : BitVec 32).toNat, .brev 20 24 true),
    ((0x31#8 ++ 0x14#6 ++ 0x18#6 ++ 0x1C#6 ++ 0#1 ++ 0#1 ++ 1#1 ++ 6#3 : BitVec 32).toNat, .sel 20 24 28 false true 6),
    ((0x32#8 ++ 5#3 ++ 6#3 ++ 0x1C#6 ++ 8#6 ++ 1#1 ++ 0#2 ++ 5#3 : BitVec 32).toNat, .cmp 5 6 28 8 true 5),
    ((0x33#8 ++ 5#3 ++ 6#3 ++ 0x1C#6 ++ 0x101#9 ++ 5#3 : BitVec 32).toNat, .cmpi 5 6 28 0x101 5),
    ((0x34#8 ++ 5#3 ++ 6#3 ++ 0#3 ++ 5#3 ++ 0#3 ++ 5#3 ++ 0#2 ++ 0x0D#4 : BitVec 32).toNat, .plog 5 6 5 5 13),
    ((0x35#8 ++ 0x14#6 ++ 0x18#6 ++ 0#6 ++ 1#1 ++ 0#5 : BitVec 32).toNat, .mov 20 24 true),
    ((0x36#8 ++ 0x14#6 ++ 0x2A003#18 : BitVec 32).toNat, .movi 20 0x2a003),
    ((0x80000001#32 ++ 0x37#8 ++ 0x14#6 ++ 0#18 : BitVec 64).toNat, .movl 20 0x80000001),
    ((0x80000001#32 ++ 0x38#8 ++ 0x14#6 ++ 0x18#6 ++ 0#12 : BitVec 64).toNat, .addl 20 24 0x80000001),
    ((0x39#8 ++ 0x14#6 ++ 0x18#6 ++ 0xA05#12 : BitVec 32).toNat, .muli 20 24 0xa05)] : List (Nat × Instr)), decodeTableWord 32 p.1 = some p.2 ∧ p.2.wf = true := by decide +kernel

theorem test_decode_float_1 : ∀ p ∈ ([
    ((0x40#8 ++ 0x14#6 ++ 0x18#6 ++ 0x1C#6 ++ 0#1 ++ 2#2 ++ 4#3 : BitVec 32).toNat, .fadd 20 24 28 false 2 4),
    ((0x41#8 ++ 0x14#6 ++ 0x18#6 ++ 0x1C#6 ++ 0#1 ++ 2#2 ++ 4#3 : BitVec 32).toNat, .fsub 20 24 28 false 2 4),
    ((0x42#8 ++ 0x14#6 ++ 0x18#6 ++ 0x1C#6 ++ 0#1 ++ 2#2 ++ 4#3 : BitVec 32).toNat, .fmul 20 24 28 false 2 4),
    ((0x43#8 ++ 0x14#6 ++ 0x18#6 ++ 0x1C#6 ++ 8#6 : BitVec 32).toNat, .ffma 20 24 28 8),
    ((0x44#8 ++ 0x14#6 ++ 0x18#6 ++ 0x1C#6 ++ 8#6 : BitVec 32).toNat, .hfma2 20 24 28 8),
    ((0x45#8 ++ 0x14#6 ++ 0x18#6 ++ 0x1C#6 ++ 8#6 : BitVec 32).toNat, .bfma2 20 24 28 8),
    ((0x46#8 ++ 0x14#6 ++ 0x18#6 ++ 0x1C#6 ++ 0#1 ++ 2#2 ++ 0#3 : BitVec 32).toNat, .fmin 20 24 28 false 2),
    ((0x47#8 ++ 0x14#6 ++ 0x18#6 ++ 0x1C#6 ++ 0#1 ++ 2#2 ++ 0#3 : BitVec 32).toNat, .fmax 20 24 28 false 2),
    ((0x48#8 ++ 0x14#6 ++ 0x18#6 ++ 0#6 ++ 1#1 ++ 2#2 ++ 0#3 : BitVec 32).toNat, .fabs 20 24 true 2),
    ((0x49#8 ++ 0x14#6 ++ 0x18#6 ++ 0#6 ++ 1#1 ++ 2#2 ++ 0#3 : BitVec 32).toNat, .fneg 20 24 true 2),
    ((0x4A#8 ++ 5#3 ++ 6#3 ++ 0x1C#6 ++ 8#6 ++ 1#1 ++ 2#2 ++ 5#3 : BitVec 32).toNat, .fcmp 5 6 28 8 true 2 5),
    ((0x4B#8 ++ 0x14#6 ++ 0x18#6 ++ 0#6 ++ 1#1 ++ 2#2 ++ 0#3 : BitVec 32).toNat, .fclass 20 24 true 2),
    ((0x4C#8 ++ 0x14#6 ++ 0x18#6 ++ 0#6 ++ 1#1 ++ 2#2 ++ 4#3 : BitVec 32).toNat, .frcp 20 24 true 2 4),
    ((0x4D#8 ++ 0x14#6 ++ 0x18#6 ++ 0#6 ++ 1#1 ++ 2#2 ++ 4#3 : BitVec 32).toNat, .frsq 20 24 true 2 4),
    ((0x4E#8 ++ 0x14#6 ++ 0x18#6 ++ 0#6 ++ 1#1 ++ 2#2 ++ 4#3 : BitVec 32).toNat, .fsqrt 20 24 true 2 4),
    ((0x4F#8 ++ 0x14#6 ++ 0x18#6 ++ 0x1C#6 ++ 0#1 ++ 2#2 ++ 4#3 : BitVec 32).toNat, .fdiv 20 24 28 false 2 4)] : List (Nat × Instr)), decodeTableWord 32 p.1 = some p.2 ∧ p.2.wf = true := by decide +kernel

theorem test_decode_float_2 : ∀ p ∈ ([
    ((0x50#8 ++ 0x14#6 ++ 0x18#6 ++ 0#6 ++ 1#1 ++ 2#2 ++ 4#3 : BitVec 32).toNat, .fexp2 20 24 true 2 4),
    ((0x51#8 ++ 0x14#6 ++ 0x18#6 ++ 0#6 ++ 1#1 ++ 2#2 ++ 4#3 : BitVec 32).toNat, .flog2 20 24 true 2 4),
    ((0x52#8 ++ 0x14#6 ++ 0x18#6 ++ 0#6 ++ 1#1 ++ 2#2 ++ 4#3 : BitVec 32).toNat, .fsinpi 20 24 true 2 4),
    ((0x53#8 ++ 0x14#6 ++ 0x18#6 ++ 0#6 ++ 1#1 ++ 2#2 ++ 4#3 : BitVec 32).toNat, .fcospi 20 24 true 2 4),
    ((0x54#8 ++ 0x14#6 ++ 0x18#6 ++ 0#6 ++ 1#1 ++ 2#2 ++ 4#3 : BitVec 32).toNat, .ftanh 20 24 true 2 4),
    ((0x55#8 ++ 0x14#6 ++ 0x18#6 ++ 0#6 ++ 1#1 ++ 2#2 ++ 4#3 : BitVec 32).toNat, .fround 20 24 true 2 4),
    ((0x56#8 ++ 0x14#6 ++ 0x18#6 ++ 0x1C#6 ++ 0#1 ++ 2#2 ++ 4#3 : BitVec 32).toNat, .fscale 20 24 28 false 2 4),
    ((0x57#8 ++ 0x14#6 ++ 0x18#6 ++ 0x1C#6 ++ 8#6 : BitVec 32).toNat, .fdot2 20 24 28 8),
    ((0x58#8 ++ 0x14#6 ++ 0x18#6 ++ 0x1C#6 ++ 8#6 : BitVec 32).toNat, .bdot2 20 24 28 8)] : List (Nat × Instr)), decodeTableWord 32 p.1 = some p.2 ∧ p.2.wf = true := by decide +kernel

theorem test_decode_packed : ∀ p ∈ ([
    ((0x60#8 ++ 0x14#6 ++ 0x18#6 ++ 5#3 ++ 5#3 ++ 4#3 ++ 0#1 ++ 0#2 : BitVec 32).toNat, .cvt 20 24 5 5 4 false),
    ((0x61#8 ++ 0x14#6 ++ 0x18#6 ++ 0x1C#6 ++ 0#2 ++ 0#1 ++ 5#3 : BitVec 32).toNat, .qpack 20 24 28 false 5),
    ((0x62#8 ++ 0x14#6 ++ 0x18#6 ++ 0x1C#6 ++ 0#2 ++ 0#1 ++ 5#3 : BitVec 32).toNat, .qpack4 20 24 28 false 5),
    ((0x63#8 ++ 0x14#6 ++ 0x18#6 ++ 0x1C#6 ++ 1#2 ++ 0#1 ++ 5#3 : BitVec 32).toNat, .qunpk 20 24 28 1 5),
    ((0x64#8 ++ 0x14#6 ++ 0x18#6 ++ 0x1C#6 ++ 8#6 : BitVec 32).toNat, .dot4 20 24 28 8),
    ((0x65#8 ++ 0x14#6 ++ 0x18#6 ++ 0x1C#6 ++ 8#6 : BitVec 32).toNat, .dot8 20 24 28 8),
    ((0x66#8 ++ 0x14#6 ++ 0x18#6 ++ 0x1C#6 ++ 8#6 : BitVec 32).toNat, .fdot4 20 24 28 8),
    ((0x67#8 ++ 0x14#6 ++ 0x18#6 ++ 0x1C#6 ++ 8#6 : BitVec 32).toNat, .mac2 20 24 28 8),
    ((0x68#8 ++ 0x14#6 ++ 0x18#6 ++ 0x1C#6 ++ 0#1 ++ 1#1 ++ 0#1 ++ 0#3 : BitVec 32).toNat, .shrr 20 24 28 false true false),
    ((0x69#8 ++ 0x14#6 ++ 0x18#6 ++ 0x1C#6 ++ 0#1 ++ 1#1 ++ 0#1 ++ 0#3 : BitVec 32).toNat, .pk16 20 24 28 false true false),
    ((0x6A#8 ++ 0#6 ++ 0x14#6 ++ 0#9 ++ 5#3 : BitVec 32).toNat, .scalep 20 5),
    ((0x6B#8 ++ 0#21 ++ 5#3 : BitVec 32).toNat, .scalec 5),
    ((0x6C#8 ++ 0x14#6 ++ 0#15 ++ 5#3 : BitVec 32).toNat, .scaleg 20 5),
    ((0x6D#8 ++ 0x14#6 ++ 0x18#6 ++ 0x1C#6 ++ 0#1 ++ 1#1 ++ 0#1 ++ 0#3 : BitVec 32).toNat, .add2 20 24 28 false true false),
    ((0x6E#8 ++ 0x14#6 ++ 0x18#6 ++ 0x1C#6 ++ 0#1 ++ 1#1 ++ 0#1 ++ 0#3 : BitVec 32).toNat, .sub2 20 24 28 false true false),
    ((0x6F#8 ++ 0x14#6 ++ 0x18#6 ++ 0x1C#6 ++ 0#1 ++ 1#1 ++ 0#1 ++ 0#3 : BitVec 32).toNat, .mul2 20 24 28 false true false)] : List (Nat × Instr)), decodeTableWord 32 p.1 = some p.2 ∧ p.2.wf = true := by decide +kernel

theorem test_decode_crew : ∀ p ∈ ([
    ((0x80#8 ++ 0x14#6 ++ 0x18#6 ++ 0x1C#6 ++ 0#6 : BitVec 32).toNat, .shfl 20 24 28),
    ((0x81#8 ++ 0x14#6 ++ 0x18#6 ++ 0x1C#6 ++ 0#6 : BitVec 32).toNat, .shflx 20 24 28),
    ((0x82#8 ++ 0x14#6 ++ 0x18#6 ++ 0x1C#6 ++ 0#1 ++ 0x0D#5 : BitVec 32).toNat, .slide 20 24 28 false 13),
    ((0x83#8 ++ 0x14#6 ++ 0#12 ++ 5#3 ++ 0#3 : BitVec 32).toNat, .voteBallot 20 5),
    ((0x83#8 ++ 5#3 ++ 6#3 ++ 0#12 ++ 5#3 ++ 1#3 : BitVec 32).toNat, .voteAny 5 6 5),
    ((0x83#8 ++ 5#3 ++ 6#3 ++ 0#12 ++ 5#3 ++ 2#3 : BitVec 32).toNat, .voteAll 5 6 5),
    ((0x83#8 ++ 0x14#6 ++ 0#12 ++ 5#3 ++ 3#3 : BitVec 32).toNat, .voteCount 20 5),
    ((0x84#8 ++ 0x14#6 ++ 0x18#6 ++ 0#8 ++ 0x0B#4 : BitVec 32).toNat, .cred 20 24 11),
    ((0x85#8 ++ 0x14#6 ++ 0x18#6 ++ 0#7 ++ 1#1 ++ 0x0B#4 : BitVec 32).toNat, .cscan 20 24 true 11),
    ((0x86#8 ++ 0#6 ++ 0x14#6 ++ 0#10 ++ 2#2 : BitVec 32).toNat, .cmask 20 2),
    ((0x87#8 ++ 0#3 ++ 6#3 ++ 0x18#6 ++ 0#12 : BitVec 32).toNat, .elect 6 24),
    ((0x88#8 ++ 0x14#6 ++ 0x18#6 ++ 0#12 : BitVec 32).toNat, .matchv 20 24)] : List (Nat × Instr)), decodeTableWord 32 p.1 = some p.2 ∧ p.2.wf = true := by decide +kernel

theorem test_decode_memory_1 : ∀ p ∈ ([
    ((0x90#8 ++ 0x14#6 ++ 0x0E#4 ++ 0x1C#6 ++ 0x81#8 : BitVec 32).toNat, .ld8s 20 14 28 0x81),
    ((0x91#8 ++ 0x14#6 ++ 0x0E#4 ++ 0x1C#6 ++ 0x81#8 : BitVec 32).toNat, .ld8z 20 14 28 0x81),
    ((0x92#8 ++ 0x14#6 ++ 0x0E#4 ++ 0x1C#6 ++ 0x81#8 : BitVec 32).toNat, .ld16s 20 14 28 0x81),
    ((0x93#8 ++ 0x14#6 ++ 0x0E#4 ++ 0x1C#6 ++ 0x81#8 : BitVec 32).toNat, .ld16z 20 14 28 0x81),
    ((0x94#8 ++ 0x14#6 ++ 0x0E#4 ++ 0x1C#6 ++ 0x81#8 : BitVec 32).toNat, .ld32 20 14 28 0x81),
    ((0x95#8 ++ 0x14#6 ++ 0x0E#4 ++ 0x1C#6 ++ 0x81#8 : BitVec 32).toNat, .ld64 20 14 28 0x81),
    ((0x96#8 ++ 0x14#6 ++ 0x0E#4 ++ 0x1C#6 ++ 0x81#8 : BitVec 32).toNat, .ld128 20 14 28 0x81),
    ((0x97#8 ++ 0x14#6 ++ 0x0E#4 ++ 0x1C#6 ++ 0x81#8 : BitVec 32).toNat, .st8 20 14 28 0x81),
    ((0x98#8 ++ 0x14#6 ++ 0x0E#4 ++ 0x1C#6 ++ 0x81#8 : BitVec 32).toNat, .st16 20 14 28 0x81),
    ((0x99#8 ++ 0x14#6 ++ 0x0E#4 ++ 0x1C#6 ++ 0x81#8 : BitVec 32).toNat, .st32 20 14 28 0x81),
    ((0x9A#8 ++ 0x14#6 ++ 0x0E#4 ++ 0x1C#6 ++ 0x81#8 : BitVec 32).toNat, .st64 20 14 28 0x81),
    ((0x9B#8 ++ 0x14#6 ++ 0x0E#4 ++ 0x1C#6 ++ 0x81#8 : BitVec 32).toNat, .st128 20 14 28 0x81),
    ((0x9C#8 ++ 0x14#6 ++ 0x0E#4 ++ 0x1C#6 ++ 0#6 ++ 1#2 : BitVec 32).toNat, .lda 20 14 28 1),
    ((0x9D#8 ++ 0#6 ++ 0x0E#4 ++ 0x18#6 ++ 0x1C#6 ++ 1#2 : BitVec 32).toNat, .stl 14 24 28 1),
    ((0x9E#8 ++ 0#4 ++ 2#2 ++ 0x0E#4 ++ 0x1C#6 ++ 0x81#8 : BitVec 32).toNat, .pref 2 14 28 0x81),
    ((0x9F#8 ++ 0#2 ++ 0x0D#4 ++ 0x0E#4 ++ 0x1C#6 ++ 0x81#8 : BitVec 32).toNat, .ldc 13 14 28 0x81)] : List (Nat × Instr)), decodeTableWord 32 p.1 = some p.2 ∧ p.2.wf = true := by decide +kernel

theorem test_decode_memory_2 : ∀ p ∈ ([
    ((0xA0#8 ++ 0#2 ++ 0x0D#4 ++ 0x0E#4 ++ 0x1C#6 ++ 0x81#8 : BitVec 32).toNat, .stc 13 14 28 0x81),
    ((0xA1#8 ++ 0#2 ++ 0x0D#4 ++ 0#2 ++ 6#4 ++ 0#12 : BitVec 32).toNat, .cmov 13 6),
    ((0xA2#8 ++ 0#2 ++ 0x0D#4 ++ 0#2 ++ 6#4 ++ 0x1C#6 ++ 0#6 : BitVec 32).toNat, .cadd 13 6 28),
    ((0xA3#8 ++ 0#2 ++ 0x0D#4 ++ 0#2 ++ 6#4 ++ 0x1C#6 ++ 8#6 : BitVec 32).toNat, .cnarrow 13 6 28 8),
    ((0xA4#8 ++ 0#2 ++ 0x0D#4 ++ 0#2 ++ 6#4 ++ 0#4 ++ 0x81#8 : BitVec 32).toNat, .cdrop 13 6 0x81),
    ((0xA5#8 ++ 0x14#6 ++ 0#2 ++ 6#4 ++ 0#9 ++ 5#3 : BitVec 32).toNat, .cget 20 6 5),
    ((0xA6#8 ++ 5#3 ++ 6#3 ++ 0#2 ++ 7#4 ++ 8#6 ++ 0#6 : BitVec 32).toNat, .ctest 5 6 7 8),
    ((0xA7#8 ++ 9#5 ++ 0x0A#5 ++ 0x0E#4 ++ 8#6 ++ 1#1 ++ 5#3 : BitVec 32).toNat, .tld 9 10 14 8 true 5)] : List (Nat × Instr)), decodeTableWord 32 p.1 = some p.2 ∧ p.2.wf = true := by decide +kernel

theorem test_decode_caps : ∀ p ∈ ([
    ((0xA8#8 ++ 9#5 ++ 0x0A#5 ++ 0x0E#4 ++ 8#6 ++ 1#1 ++ 5#3 : BitVec 32).toNat, .tst 9 10 14 8 true 5)] : List (Nat × Instr)), decodeTableWord 32 p.1 = some p.2 ∧ p.2.wf = true := by decide +kernel

theorem test_decode_atomics : ∀ p ∈ ([
    ((0xB0#8 ++ 0x14#6 ++ 0x0E#4 ++ 0x1C#6 ++ 8#6 ++ 1#2 : BitVec 32).toNat, .aadd 20 14 28 8 1),
    ((0xB1#8 ++ 0x14#6 ++ 0x0E#4 ++ 0x1C#6 ++ 8#6 ++ 1#2 : BitVec 32).toNat, .aand 20 14 28 8 1),
    ((0xB2#8 ++ 0x14#6 ++ 0x0E#4 ++ 0x1C#6 ++ 8#6 ++ 1#2 : BitVec 32).toNat, .aor 20 14 28 8 1),
    ((0xB3#8 ++ 0x14#6 ++ 0x0E#4 ++ 0x1C#6 ++ 8#6 ++ 1#2 : BitVec 32).toNat, .axor 20 14 28 8 1),
    ((0xB4#8 ++ 0x14#6 ++ 0x0E#4 ++ 0x1C#6 ++ 8#6 ++ 1#2 : BitVec 32).toNat, .amins 20 14 28 8 1),
    ((0xB5#8 ++ 0x14#6 ++ 0x0E#4 ++ 0x1C#6 ++ 8#6 ++ 1#2 : BitVec 32).toNat, .aminz 20 14 28 8 1),
    ((0xB6#8 ++ 0x14#6 ++ 0x0E#4 ++ 0x1C#6 ++ 8#6 ++ 1#2 : BitVec 32).toNat, .amaxs 20 14 28 8 1),
    ((0xB7#8 ++ 0x14#6 ++ 0x0E#4 ++ 0x1C#6 ++ 8#6 ++ 1#2 : BitVec 32).toNat, .amaxz 20 14 28 8 1),
    ((0xB8#8 ++ 0x14#6 ++ 0x0E#4 ++ 0x1C#6 ++ 8#6 ++ 1#2 : BitVec 32).toNat, .axchg 20 14 28 8 1),
    ((0xB9#8 ++ 0x14#6 ++ 0x0E#4 ++ 0x1C#6 ++ 8#6 ++ 1#2 : BitVec 32).toNat, .acas 20 14 28 8 1),
    ((0xBA#8 ++ 0x14#6 ++ 0x0E#4 ++ 0x1C#6 ++ 8#6 ++ 1#2 : BitVec 32).toNat, .aadd64 20 14 28 8 1),
    ((0#29 ++ 4#3 ++ 0xBB#8 ++ 0#4 ++ 2#2 ++ 0x0E#4 ++ 0x1C#6 ++ 8#6 ++ 1#2 : BitVec 64).toNat, .rfadd 2 14 28 8 1 4),
    ((0#29 ++ 4#3 ++ 0xBC#8 ++ 0#4 ++ 2#2 ++ 0x0E#4 ++ 0x1C#6 ++ 8#6 ++ 1#2 : BitVec 64).toNat, .rfmin 2 14 28 8 1 4),
    ((0#29 ++ 4#3 ++ 0xBD#8 ++ 0#4 ++ 2#2 ++ 0x0E#4 ++ 0x1C#6 ++ 8#6 ++ 1#2 : BitVec 64).toNat, .rfmax 2 14 28 8 1 4),
    ((0xBE#8 ++ 0#6 ++ 0x0E#4 ++ 0x18#6 ++ 0x1C#6 ++ 1#2 : BitVec 32).toNat, .radd 14 24 28 1),
    ((0#29 ++ 4#3 ++ 0xBF#8 ++ 0x14#6 ++ 0x0E#4 ++ 0x1C#6 ++ 8#6 ++ 1#2 : BitVec 64).toNat, .afadd 20 14 28 8 1 4)] : List (Nat × Instr)), decodeTableWord 32 p.1 = some p.2 ∧ p.2.wf = true := by decide +kernel

theorem test_decode_sync : ∀ p ∈ ([
    ((0xC0#8 ++ 0#21 ++ 5#3 : BitVec 32).toNat, .rel 5),
    ((0xC1#8 ++ 0#21 ++ 5#3 : BitVec 32).toNat, .acq 5),
    ((0xC2#8 ++ 0#21 ++ 5#3 : BitVec 32).toNat, .phase 5),
    ((0xC3#8 ++ 0#24 : BitVec 32).toNat, .fence),
    ((0xC4#8 ++ 0#24 : BitVec 32).toNat, .ifence),
    ((0xC5#8 ++ 1#6 ++ 0#2 ++ 5#16 : BitVec 32).toNat, .qfence 1 5),
    ((0xC6#8 ++ 0#12 ++ 3#4 ++ 0x81#8 : BitVec 32).toNat, .bar 3 0x81),
    ((0xC7#8 ++ 0#12 ++ 3#4 ++ 0x81#8 : BitVec 32).toNat, .bara 3 0x81),
    ((0xC8#8 ++ 0#12 ++ 3#4 ++ 0x81#8 : BitVec 32).toNat, .barw 3 0x81),
    ((0xC9#8 ++ 0#4 ++ 1#2 ++ 0x0E#4 ++ 0x1C#6 ++ 8#6 ++ 1#2 : BitVec 32).toNat, .waitm 1 14 28 8 1),
    ((0xCA#8 ++ 0x14#6 ++ 0x0E#4 ++ 0x1C#6 ++ 0x81#8 : BitVec 32).toNat, .notify 20 14 28 0x81),
    ((0xCB#8 ++ 0x14#6 ++ 0#1 ++ 0x0A#5 ++ 0#12 : BitVec 32).toNat, .waitt 20 10),
    ((0xCC#8 ++ 0#12 ++ 0xA05#12 : BitVec 32).toNat, .sleep 0xa05)] : List (Nat × Instr)), decodeTableWord 32 p.1 = some p.2 ∧ p.2.wf = true := by decide +kernel

theorem test_decode_effects : ∀ p ∈ ([
    ((0xB00E#16 ++ 0xB00F#16 ++ 0xD0#8 ++ 0xA05#12 ++ 0xA05#12 : BitVec 64).toNat, .handle 0xa05 0xa05 0xb00e 0xb00f),
    ((0xD1#8 ++ 0#24 : BitVec 32).toNat, .unhandle),
    ((0xD2#8 ++ 0xA05#12 ++ 0x18#6 ++ 0#6 : BitVec 32).toNat, .perform 0xa05 24),
    ((0xD3#8 ++ 0#6 ++ 0x14#6 ++ 0x18#6 ++ 0#6 : BitVec 32).toNat, .performr 20 24),
    ((0xD4#8 ++ 0#8 ++ 5#4 ++ 0x18#6 ++ 0#5 ++ 1#1 : BitVec 32).toNat, .resume 5 24 true),
    ((0xD5#8 ++ 0#5 ++ 1#1 ++ 0#2 ++ 6#4 ++ 0x1C#6 ++ 8#6 : BitVec 32).toNat, .resumex true 6 28 8),
    ((0xD6#8 ++ 0#8 ++ 5#4 ++ 0#12 : BitVec 32).toNat, .discard 5),
    ((0xD7#8 ++ 0#6 ++ 0x14#6 ++ 0#12 : BitVec 32).toNat, .hret 20),
    ((0xD8#8 ++ 0#2 ++ 0x0D#4 ++ 0#2 ++ 6#4 ++ 0x1C#6 ++ 8#6 : BitVec 32).toNat, .spawn 13 6 28 8),
    ((0xD9#8 ++ 9#5 ++ 9#5 ++ 0x0E#4 ++ 8#6 ++ 0x84#4 : BitVec 32).toNat, .cmigr 9 9 14 8 0x84)] : List (Nat × Instr)), decodeTableWord 32 p.1 = some p.2 ∧ p.2.wf = true := by decide +kernel

theorem test_decode_engines : ∀ p ∈ ([
    ((0xE0#8 ++ 9#5 ++ 0#3 ++ 1#2 ++ 0x0E#4 ++ 8#6 ++ 0#4 : BitVec 32).toNat, .mma 9 1 14 8),
    ((0xE1#8 ++ 9#5 ++ 0#3 ++ 1#2 ++ 0x0E#4 ++ 8#6 ++ 0#4 : BitVec 32).toNat, .mzero 9 1 14 8),
    ((0xE2#8 ++ 9#5 ++ 0#3 ++ 1#2 ++ 0x0E#4 ++ 8#6 ++ 1#1 ++ 4#3 : BitVec 32).toNat, .mdrain 9 1 14 8 true 4),
    ((0xE3#8 ++ 9#5 ++ 0#1 ++ 6#4 ++ 0x0E#4 ++ 8#6 ++ 1#1 ++ 5#3 : BitVec 32).toNat, .copy 9 6 14 8 true 5),
    ((0xE4#8 ++ 9#5 ++ 0#1 ++ 6#4 ++ 0x0E#4 ++ 8#6 ++ 1#1 ++ 5#3 : BitVec 32).toNat, .copyt 9 6 14 8 true 5),
    ((0xE5#8 ++ 9#5 ++ 0#1 ++ 6#4 ++ 0x0E#4 ++ 8#6 ++ 1#1 ++ 5#3 : BitVec 32).toNat, .xput 9 6 14 8 true 5),
    ((0xE6#8 ++ 9#5 ++ 0#1 ++ 6#4 ++ 0x0E#4 ++ 8#6 ++ 1#1 ++ 5#3 : BitVec 32).toNat, .xget 9 6 14 8 true 5),
    ((0xE7#8 ++ 9#5 ++ 0#1 ++ 6#4 ++ 0x0E#4 ++ 8#6 ++ 0#4 : BitVec 32).toNat, .dpost 9 6 14 8),
    ((0xE8#8 ++ 9#5 ++ 0#1 ++ 6#4 ++ 0x0E#4 ++ 8#6 ++ 1#1 ++ 5#3 : BitVec 32).toNat, .send 9 6 14 8 true 5),
    ((0xE9#8 ++ 9#5 ++ 0#1 ++ 6#4 ++ 0x0E#4 ++ 8#6 ++ 1#1 ++ 5#3 : BitVec 32).toNat, .rpost 9 6 14 8 true 5),
    ((0xEA#8 ++ 9#5 ++ 0#5 ++ 0x0E#4 ++ 0x1C#6 ++ 0#4 : BitVec 32).toNat, .rcall 9 14 28),
    ((0xEB#8 ++ 0x14#6 ++ 0#1 ++ 0x0A#5 ++ 0#12 : BitVec 32).toNat, .tokq 20 10)] : List (Nat × Instr)), decodeTableWord 32 p.1 = some p.2 ∧ p.2.wf = true := by decide +kernel

theorem test_decode_system : ∀ p ∈ ([
    ((0xF0#8 ++ 0x14#6 ++ 0x21#12 ++ 0#6 : BitVec 32).toNat, .gets 20 33),
    ((0xF1#8 ++ 0x14#6 ++ 0x20#12 ++ 0#6 : BitVec 32).toNat, .sets 20 32),
    ((0xF2#8 ++ 0x14#6 ++ 0#1 ++ 0x0A#5 ++ 0#12 : BitVec 32).toNat, .getg 20 10),
    ((0xF3#8 ++ 0#1 ++ 9#5 ++ 0x18#6 ++ 0#12 : BitVec 32).toNat, .setg 9 24),
    ((0xF4#8 ++ 0#24 : BitVec 32).toNat, .brk),
    ((0xF5#8 ++ 0#12 ++ 0xA05#12 : BitVec 32).toNat, .svc 0xa05),
    ((0xF6#8 ++ 0#8 ++ 5#4 ++ 0x18#6 ++ 0#6 : BitVec 32).toNat, .oinv 5 24)] : List (Nat × Instr)), decodeTableWord 32 p.1 = some p.2 ∧ p.2.wf = true := by decide +kernel

/-! ## Decoding: the encodings that the instructions' entries and worked programs give as numbers -/

theorem test_decode_manual_1 : ∀ p ∈ ([(0x100C41F8, .add 3 4 7 true true true), (0x32281082, .cmp 1 2 1 2 false 2), (0x401461C2, .fadd 5 6 7 false 0 2), (0x4A0420C2, .fcmp 0 1 2 3 false 0 2), (0x44201083, .hfma2 8 1 2 3),
    (0x601020CC, .cvt 4 2 0 3 1 true), (0x61284242, .qpack 10 4 9 false 2), (0x82203241, .slide 8 3 9 false 1), (0x84185009, .cred 6 5 9), (0x67101083, .mac2 4 1 2 3), (0x68144190, .shrr 5 4 6 false true false),
    (0x10082110, .add 2 2 4 false true false), (0x26104001, .shli 4 4 1), (0x0D0C0000, .loop 3 0), (0x26040002, .shli 1 0 2), (0x10080000, .add 2 0 0 false false false), (0x09000000, .exit)] : List (Nat × Instr)),
    decodeTableWord 32 p.1 = some p.2 := by decide +kernel

theorem test_decode_manual_2 : ∀ p ∈ ([(0x941CC5FE, .ld32 7 3 5 0xFE), (0x990BC100, .st32 2 15 1 0), (0x96210002, .ld128 8 4 0 2), (0xA864106B, .tst 12 16 4 6 true 3), (0xA8641063, .tst 12 16 4 6 false 3), (0xB00D4225, .aadd 3 5 2 9 1),
    (0xB9114228, .acas 4 5 2 10 0), (0x9C0D4201, .lda 3 5 2 1), (0xC5100005, .qfence 4 5), (0xC6000300, .bar 3 0), (0xC9018429, .waitm 0 6 4 10 1), (0xCA298400, .notify 10 6 4 0), (0xCB149000, .waitt 5 9), (0xD8142187, .spawn 5 2 6 7),
    (0xE0587C20, .mma 11 1 15 2), (0xE550BC4C, .xput 10 2 15 4 true 4), (0xEB149000, .tokq 5 9), (0xF10C0800, .sets 3 0x020), (0xF0000040, .gets 0 0x001), (0xF3244000, .setg 9 4), (0xF2149000, .getg 5 9), (0xF5000001, .svc 1),
    (0xF6006080, .oinv 6 2)] : List (Nat × Instr)), decodeTableWord 32 p.1 = some p.2 := by decide +kernel

theorem test_decode_bway : decodeTableWord 96 0x000C0009000500030312B700 = some (.bway 1 2 0xB 7 3 5 9 12) := by decide +kernel

/-- The first packet of the worked text (R290). -/
def textPacket : List Byte := [0x47, 0x07, 0x47, 0x00, 0x40, 0x00, 0x00, 0xF0, 0x02, 0x00, 0x04, 0x26, 0x00, 0x00, 0x08, 0x10]

theorem test_packet : (packetOf textPacket).decode 1 = .ok (.gets 0 1) ∧ (packetOf textPacket).decode 2 = .ok (.shli 1 0 2) ∧ (packetOf textPacket).decode 3 = .ok (.add 2 0 0 false false false) ∧
    (packetOf textPacket).ctlByte 1 = 0x47 ∧ (packetOf textPacket).ctlByte 2 = 0x07 ∧ (packetOf textPacket).ctlByte 3 = 0x47 ∧ (packetOf textPacket).illegal = false := by decide +kernel

/-! ## Words that are no instruction -/

theorem test_decode_refuses : (∀ w ∈ [0x00000000, 0x09000001, 0x70000000, 0x10082111, 0x0A000001, 0x0D0FF000, 0xFFFFFFFF], decodeTableWord 32 w = none) ∧
    (∀ w ∈ [0x00000000, 0x00123456], decodeSlot w 0 0 = .error .opcodeZero) ∧ decodeSlot 0x70000000 0 0 = .error (.unassigned 0x70) ∧ decodeSlot 0x09000001 0 0 = .error (.reservedField 0x09) := by decide +kernel

/-! ## Ill-formed terms, one or more for each check of WellFormed -/

theorem test_ill_formed_group : ∀ i ∈ ([.add 1 32 3 true false false, .sub 1 40 3 true false false, .mov 1 63 true, .sel 1 32 3 true false 0, .cmp 0 1 32 3 true 0, .shl 1 32 3 true false false, .fadd 1 32 3 true 0 0, .fclass 1 32 true 0] : List Instr),
    i.wf = false := by decide +kernel
theorem test_ill_formed_pairs : ∀ i ∈ ([.madw 3 1 2 4, .madw 4 1 2 5, .ld64 3 0 0 0, .st64 5 0 0 0, .acas 1 2 3 5 0, .waitm 1 2 3 5 0, .notify 5 1 2 0] : List Instr), i.wf = false := by decide +kernel
theorem test_ill_formed_quads : ∀ i ∈ ([.ld128 2 0 0 0, .st128 6 0 0 0, .qpack 1 2 0 0 0, .qpack4 1 2 4 0 0, .qpack4 1 4 6 0 0, .qunpk 2 1 0 0 0] : List Instr), i.wf = false := by decide +kernel
theorem test_ill_formed_selectors : ∀ i ∈ ([.fadd 1 2 3 false 3 0, .fadd 1 2 3 false 0 5, .fcmp 7 2 3 4 false 0 0, .fmin 1 2 3 false 3, .cvt 1 2 0 0 5 false, .cmp 7 1 2 3 false 0, .cmpi 7 1 2 3 0, .cred 1 2 12, .cscan 1 2 false 13, .cmask 1 3] : List Instr),
    i.wf = false := by decide +kernel
theorem test_ill_formed_capabilities : ∀ i ∈ ([.cmov 12 1, .cadd 12 1 2, .cnarrow 12 1 2 3, .cdrop 12 1 0, .ctest 7 0 1 2, .ldc 12 1 2 0] : List Instr), i.wf = false := by decide +kernel
theorem test_ill_formed_scopes : ∀ i ∈ ([.rel 6, .acq 7, .phase 6, .bar 1 0, .bara 9 0, .barw 0 3, .tld 1 4 2 3 false 0, .tst 1 4 2 3 false 6, .tld 1 29 2 3 false 1, .copy 1 2 3 4 0 6, .xput 1 2 3 4 0 3, .send 1 2 3 4 0 2, .qfence 9 1, .qfence 1 0, .qfence 0 16] : List Instr),
    i.wf = false := by decide +kernel
theorem test_ill_formed_system_registers : ∀ i ∈ ([.gets 0 0x00A, .gets 0 0x022, .gets 1 0x030, .sets 0 0x030, .sets 0 0x001, .sets 1 0x010] : List Instr), i.wf = false := by decide +kernel
/-! ## Results that the manual's tables give -/

/-- The fibre after an instruction with these values in v0 up, under these format slots. -/
def after (formats : List DWord) (v : List Word) (i : Instr) : Option Fibre :=
  match exec i { oneOf (fun f => { f with v := v ++ List.replicate (64 - v.length) 0 }) with launches := [{ lau with formats := formats ++ List.replicate (8 - formats.length) 0 }] } with
  | .next t => t.fib ⟨1, 0, 0⟩
  | _ => none

/-- What it wrote to a register, pending or outstanding, and the flags it set. -/
def gives (i : Instr) (v : List Word) (r : Nat) (formats : List DWord := []) : Option (Option Word × Word) :=
  (after formats v i).map (fun f => ((f.out.map (·.wb) ++ f.infl.flatten).findSome? (fun w => match w with
    | .v q x => if q = r then some x else none
    | _ => none), f.fflags))

/-- R324's table. -/
theorem test_integer_table : gives (.add 5 1 2 false true false) [0, 0x7FFFFFF0, 0x20] 5 = some (some 0x7FFFFFFF, 0x20) ∧ gives (.add 5 1 2 false false false) [0, 0x7FFFFFF0, 0x20] 5 = some (some 0x80000010, 0) ∧
    gives (.add 5 1 2 false true true) [0, 0xFFFFFFF0, 0x20] 5 = some (some 0xFFFFFFFF, 0x20) ∧ gives (.sub 5 1 2 false true true) [0, 3, 5] 5 = some (some 0, 0x20) ∧
    gives (.mul 5 1 2 false true false) [0, 0x10000, 0x8000] 5 = some (some 0x7FFFFFFF, 0x20) ∧ gives (.mulhi 5 1 2 false false) [0, 0xFFFFFFFF, 0xFFFFFFFF] 5 = some (some 0, 0) ∧
    gives (.mulhi 5 1 2 false true) [0, 0xFFFFFFFF, 0xFFFFFFFF] 5 = some (some 0xFFFFFFFE, 0) ∧ gives (.shl 5 1 2 false true false) [0, 0x40000000, 1] 5 = some (some 0x7FFFFFFF, 0x20) ∧
    gives (.shr 5 1 2 false false) [0, 0x80000000, 40] 5 = some (some 0xFFFFFFFF, 0) ∧ gives (.bfx 5 1 2 false false) [0, 0xF30, 0x404] 5 = some (some 3, 0) ∧ gives (.bfx 5 1 2 false false) [0, 0xF30, 0x408] 5 = some (some 0xFFFFFFFF, 0) := by
  decide +kernel

/-- R325's table. -/
theorem test_division_table : gives (.div 5 1 2 false false false) [0, 7, 0xFFFFFFFE] 5 = some (some 0xFFFFFFFD, 0) ∧ gives (.rem 5 1 2 false false) [0, 0xFFFFFFF9, 2] 5 = some (some 0xFFFFFFFF, 0) ∧
    gives (.div 5 1 2 false false true) [0, 0xFFFFFFFE, 3] 5 = some (some 0x55555554, 0) ∧ gives (.rem 5 1 2 false true) [0, 0xFFFFFFFE, 3] 5 = some (some 2, 0) ∧
    gives (.div 5 1 2 false false false) [0, 5, 0] 5 = some (some 0xFFFFFFFF, 2) ∧ gives (.rem 5 1 2 false true) [0, 5, 0] 5 = some (some 5, 2) ∧
    gives (.div 5 1 2 false true false) [0, 0x80000000, 0xFFFFFFFF] 5 = some (some 0x7FFFFFFF, 0x20) := by decide +kernel

/-- The table after R252: FP32 to E4M3 (element code 3; RZ is rounding 2 of CVT). -/
theorem test_e4m3_table : gives (.cvt 5 1 0 1 1 false) [0, 0x43960000] 5 [0, 3] = some (some 0x79, 0x10) ∧ gives (.cvt 5 1 0 1 1 false) [0, 0x43980000] 5 [0, 3] = some (some 0x7A, 0x10) ∧
    gives (.cvt 5 1 0 1 2 false) [0, 0x43980000] 5 [0, 3] = some (some 0x79, 0x10) ∧ gives (.cvt 5 1 0 1 1 false) [0, 0x43E60000] 5 [0, 3] = some (some 0x7E, 0x10) ∧
    gives (.cvt 5 1 0 1 1 false) [0, 0x43EB0000] 5 [0, 3] = some (some 0x7F, 0x14) ∧ gives (.cvt 5 1 0 1 1 true) [0, 0x43EB0000] 5 [0, 3] = some (some 0x7E, 0x34) ∧
    gives (.cvt 5 1 0 1 2 false) [0, 0xC3EB0000] 5 [0, 3] = some (some 0xFE, 0x10) := by decide +kernel

/-- The example of R341: format slot 2 is E4M3 in blocks of 32; v4 to v7 hold 5.2, 1.0, −0.5 and 0.01. -/
theorem test_qpack_example : gives (.qpack 10 4 9 false 2) [0, 0, 0, 0, 0x40A66666, 0x3F800000, 0xBF000000, 0x3C23D70A, 0, 0x40A66666] 10 [0, 0, 0x33] = some (some 0x32E0687A, 0) ∧
    gives (.qpack 10 4 9 false 2) [0, 0, 0, 0, 0x40A66666, 0x3F800000, 0xBF000000, 0x3C23D70A, 0, 0x40A66666] 11 [0, 0, 0x33] = some (some 0x79, 0) ∧
    (List.range 4).map (fun k => (gives (.qunpk 12 10 11 0 2) [0, 0, 0, 0, 0, 0, 0, 0, 0, 0, 0x32E0687A, 0x79] (12 + k) [0, 0, 0x33]).map (·.1)) =
      [some (some 0x40A00000), some (some 0x3F800000), some (some 0xBF000000), some (some 0x3C200000)] := by decide +kernel

/-- The filter stage after R345. -/
theorem test_filter_stage : gives (.mac2 4 1 2 3) [0, 0x4E207530, 0x75307530, 1000000000] 4 = some (some 0x7FFFFFFF, 0x20) ∧ gives (.shrr 5 4 6 false true false) [0, 0, 0, 0, 0x7FFFFFFF, 0, 15] 5 = some (some 0x7FFF, 0x20) ∧
    gives (.shrr 5 4 6 false true false) [0, 0, 0, 0, 0xFFFE8000, 0, 15] 5 = some (some 0xFFFFFFFD, 0) := by decide +kernel

/-! ## Errors in on-chip memories -/

/-- A state with these errors. -/
def hurt (hs : List Hurt) (s : State) : State := { s with hurts := hs }

/-- A running MMA of one row, whose index vector stands at 0. -/
def mmaCmd : Command := { putCmd with eng := .mangle 0, kind := .mma, blk := (List.range 64).map (fun i => if i = 4 ∨ i = 6 ∨ i = 8 ∨ i = 10 ∨ i = 40 then 1#8 else if i = 41 then 0x10#8 else 0#8) }
def multiplying : State := { one with cmds := [mmaCmd], hurts := [.scratch 1 0 1] }

theorem wit_hurt_loads : (∃ c x d n ks rs val, accessForm (.ld32 5 15 0 1) = some (c, x, d, n, ks, rs) ∧ loadForm (.ld32 5 15 0 1) = some val ∧ (hurt [.scratch 1 0 7] one).alone (.ld32 5 15 0 1) (fib 0) = true ∧
      permits ((fib 0).cap c.toNat) ks rs (offsetOf (fib 0) x d) n n ∧ ((fib 0).cap c.toNat).kind = 2 ∧ localPlace (hurt [.scratch 1 0 7] one) (fib 0) ((fib 0).cap c.toNat) (offsetOf (fib 0) x d) = (0, 4) ∧ n = 4) ∧
    ∃ bs, (hurt [.l1 0 1 3 0] filled).alone (.ld32 5 13 0 1) mfib = true ∧ (mfib.cap 13).kind ≠ 2 ∧ permits (mfib.cap 13) [0, 1, 2, 4] [7] (offsetOf mfib 0 4) 4 4 ∧
      (hurt [.l1 0 1 3 0] filled).isHeap (me (hurt [.l1 0 1 3 0] filled) mfib) (mfib.cap 13) = false ∧ (hurt [.l1 0 1 3 0] filled).l1Hit 0 1 3 4 4 = some bs ∧ (hurt [.l1 0 1 3 0] filled).storeAheadHere 0 1 3 4 4 = false := by
  obtain ⟨bs, hb⟩ := some_of (o := (hurt [.l1 0 1 3 0] filled).l1Hit 0 1 3 4 4) (by decide +kernel)
  exact ⟨⟨_, _, _, _, _, _, _, rfl, rfl, by decide +kernel, by unfold permits; decide +kernel, by decide +kernel, by decide +kernel, rfl⟩, bs, by decide +kernel, by decide +kernel, by unfold permits; decide +kernel, by decide +kernel, hb, by decide +kernel⟩

theorem wit_hurt_write_backs : let s := hurt [.l1 0 1 3 0] dirty
    s.mem.wf = true ∧ s.queues = [] ∧ (s.core 0).fifo = [(1, 3, 0)] ∧ (s.core 0).line 1 3 0 = some ⟨1, 3, 0, 0, 0, 1, true, false, 0, 1, 0, false⟩ ∧ s.paOf 1 3 0 = some 0x40000 ∧ s.latched 0x40000 = false ∧
      Hurt.l1 0 1 3 0 ∈ s.hurts ∧ (1#256).getLsbD 0 = true ∧ (s.gangs.head?.map (fun g => (g.cores, g.st, g.launch)) = some ([0], .running, 1)) ∧ (s.launch 1).map (·.asid) = some 1 := by decide +kernel

theorem wit_hurt_gangs : let s := hurt [.gang 1 0] mem0
    (s.wg 1 0).map (·.gang) = some 0 ∧ (s.gang 1 0).isSome = true ∧ (s.launch 1).isSome = true ∧ Hurt.gang 1 0 ∈ s.hurts := by decide +kernel

theorem wit_hurt_home_lines : let s := hurt [.home 4096 1] mem0
    Hurt.home 4096 1 ∈ s.hurts ∧ 4096 / 4 = (⟨0, 1024, 1, 1⟩ : HomeLine).line ∧ (⟨0, 1024, 1, 1⟩ : HomeLine).dirty.getLsbD 0 = true ∧ ∃ g ∈ s.gangs, g.st = .running ∧ (s.launch g.launch).map (·.asid) = some 1 := by decide +kernel

theorem wit_hurt_stacks : let s := hurt [.segment 1 mfib.seg] mem0
    s.alone (.call 3) mfib = true ∧ s.inCupboard (myCore s mfib) (myAsid s) mfib.seg = true ∧ Hurt.segment (myAsid s) mfib.seg ∈ s.hurts ∧ mfib.seg ∈ s.heldSegs (me s mfib) mfib := by decide +kernel

theorem wit_hurt_mma : ∃ y, multiplying.cmd 4 = some mmaCmd ∧ multiplying.cmdStopped mmaCmd = false ∧ mmaCmd.st = .running ∧ mmaCmd.kind = .mma ∧ multiplying.launch mmaCmd.launch = some lau ∧ (mblock mmaCmd.blk).lay = some y ∧
    mmaCmd.prog = 0 ∧ (mblock mmaCmd.blk).inIndex 1 = true ∧ Hurt.scratch mmaCmd.launch mmaCmd.wgid 1 ∈ multiplying.hurts ∧
    let ix := (mblock mmaCmd.blk).indexVector (multiplying.scratch 1 0)
    (mblock mmaCmd.blk).m = 1 ∧ indexOf ix 0 < (mblock mmaCmd.blk).arows ∧ (mblock mmaCmd.blk).reads lau y ix 0 3 = true ∧ (mblock mmaCmd.blk).inIndex 3 = false :=
  ⟨⟨0, 0, 0, 0, 0, 1, 1, 1⟩, by decide +kernel, by decide +kernel, rfl, rfl, by decide +kernel, by decide +kernel, rfl, by decide +kernel, by decide +kernel, by decide +kernel, by decide +kernel, by decide +kernel, by decide +kernel⟩

/-- The next state of an operation. -/
def ran (i : Instr) (s : State) : Option State :=
  match exec i s with
  | .next t => some t
  | _ => none

/-- R107: the gang of a lost dirty line ends, its launch with code 0x13; the fibre of a lost segment ends by ABORT. -/
theorem test_lost_line_ends_gang : let t := (ran (.l1WriteBack 0) (hurt [.l1 0 1 3 0] dirty)).getD dirty
    let u := (ran (.workgroupRetirement 1 0) t).getD t
    t.nextEvent.map (·.1) = some (.workgroupRetirement 1 0) ∧ t.mem = dirty.mem ∧ u.gangs.map (·.st) = [.retired] ∧ u.wgs = [] ∧ u.launches.map (·.endCode) = [0x13] := by decide +kernel

theorem test_lost_segment_ends_fibre : (ran (.call 3) (hurt [.segment 1 mfib.seg] mem0)).map (fun t => (t.fib ⟨1, 0, 0⟩, t.launches.map (fun L => (L.aborted, L.abortTag)))) = some (none, [(1, 0x0D0)]) := by decide +kernel

theorem test_lost_operand_ends_mma : (ran (.tokenCompletion 4) multiplying).map (fun t => (t.cmds.map (fun c => (c.st, c.code, c.err)), t.mg.errhead)) = some ([(.finished, 0x13, true)], 1) := by decide +kernel

end Sys2Proof.Tests
end

section
/-! PROOFS. The order in which a step serves operations (O57), and that nothing ends a run but stopped clocks with nothing to serve (O59). -/

namespace Sys2Proof.Machine

/-! ## Which operation is next -/

theorem pullFirst_head {α : Type} {p : α → Bool} {x : α} (xs : List α) (h : p x = true) : pullFirst p (x :: xs) = some (x, x :: xs) := by
  simp [pullFirst, h]

@[simp] theorem pullFirst_nil {α : Type} (p : α → Bool) : pullFirst p [] = none := rfl

theorem State.nextDue_head {s : State} {due : Nat} {ev : Instr} {rest : List Timed} (h : s.agenda = ⟨due, ev⟩ :: rest) (hd : due ≤ s.ticks) :
    s.nextDue = some (ev, s.withAgenda rest) := by
  simp [State.nextDue, h, hd, State.withAgenda]

/-- Nothing on the agenda is due. -/
theorem State.nextDue_none {s : State} (h : ∀ x ∈ s.agenda, s.ticks < x.due) : s.nextDue = none := by
  unfold State.nextDue
  cases ha : s.agenda with
  | nil => rfl
  | cons t rest => exact if_neg (Nat.not_le.mpr (h t (ha ▸ List.mem_cons_self)))

theorem State.nextSideband_nil {s : State} (h : s.sbRx = []) : s.nextSideband = none := by simp [State.nextSideband, h]
theorem State.nextFabric_nil {s : State} (h : s.rxq = []) : s.nextFabric = none := by simp [State.nextFabric, h]
theorem State.nextTray_nil {s : State} (h : s.trayRx = []) : s.nextTray = none := by simp [State.nextTray, h, trayPull]
theorem State.nextSo_nil {s : State} (h : s.soRx = []) : s.nextSo = none := by simp [State.nextSo, h]

/-- The first message is served where it stands: the queue is as it was. -/
theorem State.nextSideband_head {s : State} {m : Nat × Nat × Sideband} {rest : List (Nat × Nat × Sideband)} {e : Instr}
    (h : s.sbRx = m :: rest) (he : sidebandEvent m.2.2 = some e) : s.nextSideband = some (e, s) := by
  unfold State.nextSideband
  rw [h, pullFirst_head rest (by simp [he]), ← h]
  simp [he]

theorem State.nextFabric_head {s : State} {p : Packet} {rest : List Packet} {e : Instr} (h : s.rxq = p :: rest) (hb : s.rxBlocked p = false)
    (he : s.fabricEvent p = some e) : s.nextFabric = some (e, s) := by
  unfold State.nextFabric
  rw [h, pullFirst_head rest (by simp [he, hb]), ← h]
  simp [he]

theorem State.nextTray_head {s : State} {p : Nat × Packet} {rest : List (Nat × Packet)} {e : Instr} (h : s.trayRx = p :: rest)
    (hb : s.trayBlocked p.1 p.2 = false) (he : trayEvent p.2 = some e) : s.nextTray = some (e, s) := by
  have hp : trayPull (fun x => (trayEvent x.2).isSome && !s.trayBlocked x.1 x.2) (p :: rest) [] [] = some (p, p :: rest) := by
    simp [trayPull, he, hb]
  unfold State.nextTray
  rw [h, hp, ← h]
  simp [he]

theorem State.nextSo_head {s : State} {p : SoPacket} {rest : List SoPacket} {e : Instr} (h : s.soRx = p :: rest) (hb : s.soHeld p = false)
    (he : soEvent p = some e) : s.nextSo = some (e, s) := by
  unfold State.nextSo
  rw [h, pullFirst_head rest (by simp [he, hb]), ← h]
  simp [he]

/-- With nothing due and nothing received, a unit's own action is next, unless the clocks have stopped. -/
theorem State.nextEvent_unit {s : State} (h : s.nextDue = none) (hsb : s.sbRx = []) (hrx : s.rxq = []) (htr : s.trayRx = []) (hso : s.soRx = []) :
    s.nextEvent = if s.power.stopped then none else s.unitEvent.map (fun ev => (ev, s)) := by
  simp [State.nextEvent, h, State.nextSideband_nil hsb, State.nextFabric_nil hrx, State.nextTray_nil htr, State.nextSo_nil hso]

theorem step_of_nextEvent {s u : State} {e : Instr} (h : s.nextEvent = some (e, u)) : step s = exec e u := by
  unfold step; rw [h]

theorem step_of_no_event {s : State} (h : s.nextEvent = none) (hp : s.power.stopped = false) : step s = turnOf exec s := by
  unfold step; rw [h]; simp [hp]

/-- Settles O57: at each place of the order, the places before it have nothing to serve. -/
theorem stepServesOperations : Obligations.step_serves_operations := by
  intro s
  refine ⟨fun due ev rest h hd => step_of_nextEvent (by simp [State.nextEvent, State.nextDue_head h hd]),
    fun due ev rest h hd hsb hrx htr hso hp => ?unit, fun m rest hd hm e he => ?sideband, fun p rest hd hsb hp hb e he => ?fabric,
    fun p rest hd hsb hrx hp hb e he => ?tray, fun p rest hd hsb hrx htr hp hb e he => ?scaleOut, fun hp hd hsb hrx htr hso => ?stopped⟩
  case unit =>
    have hdue : s.nextDue = none := by simp [State.nextDue, h, hd]
    have hev := State.nextEvent_unit hdue hsb hrx htr hso
    simp only [hp, Bool.false_eq_true, if_false] at hev
    refine ⟨fun e he => step_of_nextEvent (by rw [hev, he]; rfl), fun he hv => ?_⟩
    rw [step_of_no_event (by rw [hev, he]; rfl) hp, turnOf, hv]
  case sideband => exact step_of_nextEvent (by simp [State.nextEvent, State.nextDue_none hd, State.nextSideband_head hm he])
  case fabric =>
    exact step_of_nextEvent (by simp [State.nextEvent, State.nextDue_none hd, State.nextSideband_nil hsb, State.nextFabric_head hp hb he])
  case tray =>
    exact step_of_nextEvent (by
      simp [State.nextEvent, State.nextDue_none hd, State.nextSideband_nil hsb, State.nextFabric_nil hrx, State.nextTray_head hp hb he])
  case scaleOut =>
    exact step_of_nextEvent (by
      simp [State.nextEvent, State.nextDue_none hd, State.nextSideband_nil hsb, State.nextFabric_nil hrx, State.nextTray_nil htr,
        State.nextSo_head hp hb he])
  case stopped =>
    have hdue : s.nextDue = none := by simp [State.nextDue, hd]
    have hev : s.nextEvent = none := by rw [State.nextEvent_unit hdue hsb hrx htr hso, if_pos hp]
    have hq : s.quiet = true := by simp [State.quiet, hd, hrx, htr, hso, hsb]
    unfold step
    simp [hev, hp, hq]

end Sys2Proof.Machine
end

section
/-! PROOFS. Every instruction and event answers a next state, and so does every step but that of a stopped, quiet package (O59). -/

namespace Sys2Proof.Machine

/-- The outcome is a next state. -/
def Answers (o : Res) : Prop := ∃ t, o = .next t

theorem Answers.next (t : State) : Answers (.next t) := ⟨t, rfl⟩

/-! ## Arrivals -/

theorem State.recvFabric_answers (s : State) (kind : BitVec 5) (op : Option (BitVec 8)) (f : Packet → State → State) : Answers (s.recvFabric kind op f) := by
  unfold State.recvFabric
  split <;> exact .next _

theorem State.recvReady_answers (s : State) (kind : BitVec 5) (f : Packet → State → State) : Answers (s.recvReady kind f) := by
  unfold State.recvReady
  split
  · split
    · exact .next _
    · exact s.recvFabric_answers ..
  · exact .next _

theorem State.recvTray_answers (s : State) (kind : BitVec 5) (f : Nat → Packet → State → State) : Answers (s.recvTray kind f) := by
  unfold State.recvTray
  split <;> exact .next _

theorem State.recvTrayReady_answers (s : State) (kind : BitVec 5) (f : Nat → Packet → State → State) : Answers (s.recvTrayReady kind f) := by
  unfold State.recvTrayReady
  split
  · split
    · exact .next _
    · exact s.recvTray_answers ..
  · exact .next _

theorem State.recvSo_answers (s : State) (kind : Byte) : Answers (s.recvSo kind) := by
  unfold State.recvSo
  split <;> exact .next _

theorem State.recvSideband_answers (s : State) (type : Nat) (f : Nat → Nat → Sideband → State → State) : Answers (s.recvSideband type f) := by
  unfold State.recvSideband
  split <;> exact .next _

theorem execDetourRelay_answers (s : State) : Answers (execDetourRelay s) := by
  unfold execDetourRelay
  split
  · split <;> exact .next _
  · exact .next _

/-- An arrival takes the head of its queue, if there is one; every other operation is a next state as it is written. -/
theorem exec_answers (i : Instr) (s : State) : Answers (exec i s) := by
  cases i with
  | ldreq | streq | atreq | tldreq | tstdat | put | getreq | cmig => exact s.recvReady_answers ..
  | ldrsp | atrsp | tlddat | getdat | ack | nack | shoot | note | exchangeDpost | calendar | close =>
    simp only [exec]
    exact s.recvFabric_answers ..
  | hrdr | hwra | trayNack =>
    simp only [exec]
    exact s.recvTray_answers ..
  | drd | dwr | trayNote | rply => exact s.recvTrayReady_answers ..
  | scaleoutData | scaleoutAck | rnr => exact s.recvSo_answers ..
  | idle | laneAcknowledgement | laneReplay | creditReturn | barrierArrival | livenessAndLinkState | timeSynchronisation | foldingTableHeartbeat =>
    simp only [exec]
    exact s.recvSideband_answers ..
  | detourRelay => exact execDetourRelay_answers s
  | _ => exact ⟨_, rfl⟩

/-! ## The issue of a bundle -/

theorem andThen_answers {o : Res} {f : State → Res} (ho : Answers o) (hf : ∀ t, Answers (f t)) : Answers (andThen o f) := by
  obtain ⟨t, rfl⟩ := ho
  exact hf t

section
variable {ex : Exec} (hex : ∀ i s, Answers (ex i s))
include hex

theorem runSlots_answers (L : Launch) (all xs : List ChainSlot) (s : State) : Answers (runSlots ex L all xs s) := by
  induction xs generalizing s with
  | nil => exact .next s
  | cons x xs ih => exact andThen_answers (hex ..) (fun t => ih _)

theorem runChain_answers (L : Launch) (p : CodePacket) (all : List ChainSlot) (s : State) : Answers (runChain ex L p all s) := by
  unfold runChain
  split
  · exact runSlots_answers hex ..
  · exact andThen_answers (runSlots_answers hex ..) (fun a => andThen_answers (runSlots_answers hex ..) (fun b =>
      andThen_answers (runSlots_answers hex ..) (fun t => .next _)))

theorem chainTry_answers (L : Launch) (p : CodePacket) (all : List ChainSlot) (s0 : State) (n : Nat) (s : State) (effs : List Raised)
    (holds : List (Nat × Wait)) : Answers (chainTry ex L p all s0 n s effs holds) := by
  induction n generalizing s effs holds with
  | zero => exact .next s
  | succ n ih =>
    refine andThen_answers (runChain_answers hex ..) (fun t => ?_)
    dsimp only
    split
    · exact .next _
    · exact ih ..

theorem issueAt_answers (L : Launch) (w : Nat) (fids : List Nat) (pc : Word) (pkt : Option CodePacket) (s : State) :
    Answers (issueAt ex L w fids pc pkt s) := by
  unfold issueAt
  split
  · exact hex ..
  · split
    · exact hex ..
    · dsimp only
      split
      · exact hex ..
      · exact hex ..
      · exact chainTry_answers hex ..

theorem issueChosen_answers (L : Launch) (g : Wg) (q : Nat) (chosen : List Ready) (s : State) : Answers (issueChosen ex L g q chosen s) := by
  unfold issueChosen
  split
  · exact .next s
  · refine andThen_answers ?_ (fun t => ?_)
    all_goals
      dsimp only
      split
      · exact .next _
      · exact andThen_answers (issueAt_answers hex ..) (fun t => .next _)

theorem visit_answers (L : Launch) (g : Wg) (q : Nat) (s : State) : Answers (visit ex L g q s) := by
  unfold visit
  dsimp only
  split
  · exact .next _
  · split
    · exact .next _
    · exact issueChosen_answers hex ..

theorem turnOf_answers (s : State) : Answers (turnOf ex s) := by
  unfold turnOf
  split
  · exact .next _
  · exact andThen_answers (visit_answers hex ..) (fun t => .next _)

end

/-- A step stops only where the clocks have, and nothing is left to serve (R21). -/
theorem step_answers {s : State} (h : s.power.stopped = false ∨ s.quiet = false) : Answers (step s) := by
  unfold step
  split
  · exact exec_answers ..
  · split
    · split
      · simp_all
      · exact .next _
    · exact turnOf_answers exec_answers s

/-- Settles O59: the meanings by cases on the operation, the step by what it issues. -/
theorem nothingEndsARun : Obligations.nothing_ends_a_run := ⟨exec_answers, fun _ => step_answers⟩

end Sys2Proof.Machine
end

section
/-! PROOFS. What reset leaves, and what a fibre and a workgroup start with (O54). -/

namespace Sys2Proof.Machine

theorem Fibre.fresh_reg (L : Launch) (fid seg n : Nat) : (Fibre.fresh L fid seg).reg n = 0 := by
  by_cases h : n < L.regs <;> simp [Fibre.reg, Fibre.fresh, h]

theorem Fibre.fresh_pred (L : Launch) (fid seg : Nat) {n : Nat} (h : n < 7) : (Fibre.fresh L fid seg).pred n = false := by
  have : n ≠ 7 := by omega
  simp [Fibre.pred, Fibre.fresh, this, h, -List.reduceReplicate]

/-- All but the last three of the capability registers are null (R132). -/
theorem Fibre.fresh_cap_null (L : Launch) (fid seg : Nat) {n : Nat} (h : n < 13) : (Fibre.fresh L fid seg).cap n = Cap.null := by
  simp [Fibre.cap, Fibre.fresh, startCaps, List.getElem?_append, h, -List.reduceReplicate]

/-- %cmask names the whole crew, of 32 or of 64 members (R132). -/
theorem fullMask_getLsbD (L : Launch) {n : Nat} (h : n < 64) : (fullMask L).getLsbD n = (decide (n < 32) || L.crew == 64) := by
  unfold fullMask
  split
  case isTrue hc => simpa [hc] using (by decide : ∀ n, n < 64 → (0xFFFFFFFFFFFFFFFF#64).getLsbD n = true) n h
  case isFalse hc => simpa [beq_false_of_ne hc] using (by decide : ∀ n, n < 64 → (0xFFFFFFFF#64).getLsbD n = decide (n < 32)) n h

theorem Wg.start_g (L : Launch) (w core : Nat) {n : Nat} (h : n < 32) : (Wg.start L w core).g[n]? = some ⟨0, false, none, false⟩ := by
  simp [Wg.start, h, -List.reduceReplicate]

theorem State.reset_cursors {p : Nat} (h : p < 8) : State.reset.cursors[p]? = some 1023 := by
  simp [State.reset, h, -List.reduceReplicate]

/-- Settles O54, field by field. -/
theorem resetValues : Obligations.reset_values :=
  ⟨rfl, fun _ => ⟨rfl, rfl⟩, rfl, rfl, rfl, rfl, fun _ => State.reset_cursors, rfl,
    fun L fid seg => ⟨rfl, rfl, List.length_replicate, Fibre.fresh_reg L fid seg, fun _ => Fibre.fresh_pred L fid seg, rfl,
      fun n hn => Fibre.fresh_cap_null L fid seg (by omega), rfl, rfl, rfl, fun _ => fullMask_getLsbD L, rfl, rfl, rfl, rfl⟩,
    fun L w core => ⟨fun _ hn => by rw [Wg.start_g L w core hn]; rfl, fun _ => rfl, rfl⟩⟩

end Sys2Proof.Machine
end

section
/-! PROOFS. Management accesses, the service pairs and their leader, the house frame, sensors and throttling (O51). -/

namespace Sys2Proof.Machine

/-! ## The agenda -/

theorem State.at_self (s : State) (due : Nat) (ev : Instr) : ⟨due, ev⟩ ∈ (s.at due ev).agenda := (s.mem_at ..).mpr (.inl rfl)

theorem State.later_self (s : State) (ns : Nat) (ev : Instr) : ⟨s.ticks + ns, ev⟩ ∈ (s.later ns ev).agenda := s.at_self ..

theorem State.mem_later_of_mem {s : State} {y : Timed} (h : y ∈ s.agenda) (ns : Nat) (ev : Instr) : y ∈ (s.later ns ev).agenda :=
  (s.mem_at ..).mpr (.inr h)

/-- Operations put on the agenda one after the other: nothing but the agenda changes, nothing leaves it, and each of them stands on it. -/
theorem State.over_later {α : Type} (xs : List α) (n : α → Nat) (ev : α → Instr) (s : State) :
    ∃ a, s.over xs (fun s x => s.later (n x) (ev x)) = s.withAgenda a ∧ (∀ y ∈ s.agenda, y ∈ a) ∧ ∀ x ∈ xs, ⟨s.ticks + n x, ev x⟩ ∈ a := by
  induction xs generalizing s with
  | nil => exact ⟨s.agenda, rfl, fun _ h => h, by simp⟩
  | cons x xs ih =>
    obtain ⟨a, he, hold, hnew⟩ := ih (s.later (n x) (ev x))
    refine ⟨a, he, fun y hy => hold y (State.mem_later_of_mem hy _ _), fun z hz => ?_⟩
    rcases List.mem_cons.mp hz with rfl | hz
    · exact hold _ (s.later_self _ _)
    · exact hnew z hz

/-! ## Slots of the house frame (R104) -/

theorem State.nextSlot_spec (s : State) {lo hi : Nat} (hlo : lo ≤ hi) (hhi : hi < 64) :
    s.ticks < s.nextSlot lo hi ∧ lo ≤ (s.nextSlot lo hi - s.epoch) / 16000 % 64 ∧ (s.nextSlot lo hi - s.epoch) / 16000 % 64 ≤ hi := by
  have hf : s.frameNum = (s.ticks - s.epoch) / 1024000 := rfl
  unfold State.nextSlot
  dsimp only
  cases hc : List.find? _ _ with
  | some t =>
    have ht : s.ticks < t := by simpa using List.find?_some hc
    obtain ⟨k, hk, rfl⟩ := List.mem_map.mp (List.mem_of_find?_eq_some hc)
    rw [List.mem_range] at hk
    simp only [Option.getD_some]
    omega
  | none =>
    simp only [Option.getD_none]
    omega

/-- What is put on the agenda at the next slot of some stands in one of them. -/
theorem inSlots_at (s u : State) (i : Instr) {lo hi : Nat} (hlo : lo ≤ hi) (hhi : hi < 64) : Claims.inSlots s (u.at (s.nextSlot lo hi) i) i lo hi := by
  obtain ⟨hd, h1, h2⟩ := s.nextSlot_spec hlo hhi
  exact ⟨_, u.at_self _ _, rfl, hd, h1, h2⟩

/-! ## Management accesses (R94) -/

theorem State.command_free {s : State} (h : s.takeover = none) (ev : Instr) (act : State → State) : s.command ev act = act s := by
  simp [State.command, h]

/-- A write of CTRL, while no takeover holds it back (R96). -/
theorem exec_mgmtRegisterWrite_ctrl {s : State} (h : s.mg.mgmt = true) (ht : s.takeover = none) (v : Word) :
    exec (.mgmtRegisterWrite 0x0004 4 v) s = .next (
      if v.toNat % 8 = 1 then s.raiseFull else if v.toNat % 8 = 2 then s.fwgo else if v.toNat % 8 = 4 then s.resetCtrl else s) := by
  simp only [exec, execMgmtRegisterWrite, h, State.command_free ht]
  simp only [Bool.not_true, Bool.false_eq_true, if_false, ne_eq, not_true_eq_false, Nat.reduceMod, or_self, if_true]
  split <;> simp_all

/-- An access that is performed, to another register than CTRL. -/
theorem exec_mgmtRegisterWrite {s : State} (h : s.mg.mgmt = true) {off : Nat} (ha : off % 4 = 0) (hc : off ≠ 0x0004) (v : Word) :
    exec (.mgmtRegisterWrite off 4 v) s = .next (
      if 0x0020 ≤ off ∧ off < 0x0030 then s.acceptWord ((off - 0x20) / 4) v
      else if off = 0x0400 then { s with mg := { s.mg with pwrstat := s.mg.pwrstat &&& ~~~(v &&& 0xF0#32) } }
      else if 0x100000 ≤ off ∧ off < 0x1000000 then
        { s with mg := { s.mg with fwstage := ((List.range 4).zip (natBytes 4 v.toNat)).foldl (fun c p => cellsSet c (off - 0x100000 + p.1) p.2) s.mg.fwstage } }
      else s) := by
  simp [exec, execMgmtRegisterWrite, h, ha, hc]

theorem exec_mgmtRegisterWrite_abort {s : State} (h : s.mg.mgmt = true) {off size : Nat} (ha : size ≠ 4 ∨ off % 4 ≠ 0) (v : Word) :
    exec (.mgmtRegisterWrite off size v) s = .next (s.toMgmt (.completerAbort off)) := by
  simp [exec, execMgmtRegisterWrite, h, ha]

/-- The sticky bits 4 to 7 of PWRSTAT go where a 1 is written, and no other bit does (R22). -/
theorem clearSticky_getLsbD (p v : Word) {k : Nat} (hk : k < 32) :
    (p &&& ~~~(v &&& 0xF0#32)).getLsbD k = (p.getLsbD k && !(decide (4 ≤ k ∧ k < 8) && v.getLsbD k)) := by
  have hm : (0xF0#32).getLsbD k = decide (4 ≤ k ∧ k < 8) := (by decide : ∀ k, k < 32 → (0xF0#32).getLsbD k = decide (4 ≤ k ∧ k < 8)) k hk
  rw [BitVec.getLsbD_and, BitVec.getLsbD_not, BitVec.getLsbD_and, hm, decide_eq_true hk, Bool.true_and, Bool.and_comm (v.getLsbD k)]

/-- Four bytes set one after the other are read back. -/
theorem cellsGet_stage {cs : List Host.Cell} (h : cellsOk none cs = true) (a x : Nat) {j : Nat} (hj : j < 4) :
    cellsGet (((List.range 4).zip (natBytes 4 x)).foldl (fun c p => cellsSet c (a + p.1) p.2) cs) (a + j) = BitVec.ofNat 8 (x / 256 ^ j) := by
  have hset : ∀ {cs : List Host.Cell} (b : Nat) (y : Byte), cellsOk none cs = true → cellsOk none (cellsSet cs b y) = true :=
    fun b y h => cellsOk_set b y h (by simp)
  have h1 := hset (a + 0) (BitVec.ofNat 8 x) h
  have h2 := hset (a + 1) (BitVec.ofNat 8 (x / 256)) h1
  have h3 := hset (a + 2) (BitVec.ofNat 8 (x / 256 / 256)) h2
  show cellsGet (cellsSet (cellsSet (cellsSet (cellsSet cs (a + 0) _) (a + 1) _) (a + 2) _) (a + 3) _) (a + j) = _
  rw [cellsGet_set _ _ _ h3, cellsGet_set _ _ _ h2, cellsGet_set _ _ _ h1, cellsGet_set _ _ _ h]
  have hcases : j = 0 ∨ j = 1 ∨ j = 2 ∨ j = 3 := by omega
  rcases hcases with rfl | rfl | rfl | rfl <;> simp [Nat.div_div_eq_div_mul]

/-! ## The service pairs (R109, R110) -/

theorem State.svc_getD {s : State} {d : Nat} {x : SvcPair} (h : s.svc[d]? = some x) (y : SvcPair) : s.svc.getD d y = x := by
  simp [List.getD, h]

theorem exec_leaderBeat {s : State} {x : SvcPair} (hx : s.svc[s.mg.leader.toNat]? = some x) (h : x.healthy = true) :
    exec .leaderBeat s = .next (State.later { s with svc := s.svc.map (fun p => { p with lastBeat := s.ticks }) } 100000 .leaderBeat) := by
  simp [exec, execLeaderBeat, hx, h]

theorem exec_leaderTakeover_heir {s : State} {d : Nat} {x : SvcPair} (ht : s.takeover = none) (hx : s.svc[d]? = some x) (hd : s.heir = some d) :
    exec .leaderTakeover s = .next (if s.ticks < x.lastBeat + 300000 then s.at (x.lastBeat + 300000) .leaderTakeover else s.beginTakeover d) := by
  simp [exec, execLeaderTakeover, ht, hd, hx]

theorem exec_leaderTakeover_end {s : State} {d : Nat} (ht : s.takeover = some d) : exec .leaderTakeover s = .next (s.endTakeover d) := by
  simp [exec, execLeaderTakeover, ht]

/-! ## The log (R108) -/

/-- What an entry of ERRLOG holds. -/
theorem State.logError_entry (s : State) (asid whr unit kind : Nat) (h : s.mg.errhead < s.mg.errlog.length) :
    ∃ e : DWord, (s.logError asid whr unit kind).mg.errlog[s.mg.errhead]? = some e ∧ e.toNat % 16 = kind % 16 ∧ e.toNat / 16 % 16 = unit % 16 ∧
      e.toNat / 256 % 2 ^ 20 = whr % 2 ^ 20 ∧ e.toNat / 2 ^ 28 % 4096 = asid % 4096 ∧ e.toNat / 2 ^ 40 = s.fabric / 1024 % 2 ^ 24 := by
  refine ⟨_, List.getElem?_set_self h, ?_⟩
  rw [BitVec.toNat_ofNat]
  omega

/-- Entries made one after the other touch nothing but the log. -/
theorem State.over_logError {α : Type} (xs : List α) (a w u : α → Nat) (k : Nat) (s : State) :
    ∃ log, s.over xs (fun s x => s.logError (a x) (w x) (u x) k) =
      { s with mg := { s.mg with errlog := log, errhead := if xs = [] then s.mg.errhead else (s.mg.errhead + xs.length) % 32 } } := by
  induction xs generalizing s with
  | nil => exact ⟨s.mg.errlog, rfl⟩
  | cons x xs ih =>
    obtain ⟨log, he⟩ := ih (s.logError (a x) (w x) (u x) k)
    refine ⟨log, ?_⟩
    have hh : (if xs = [] then (s.mg.errhead + 1) % 32 else ((s.mg.errhead + 1) % 32 + xs.length) % 32) = (s.mg.errhead + (xs.length + 1)) % 32 := by
      split
      · simp [*]
      · omega
    rw [if_neg (by simp), List.length_cons, ← hh]
    exact he

/-! ## Patrol scrubbing (R105) -/

/-- The next visit is on the agenda, unless one is already. -/
theorem State.nextPatrol (s : State) (n : Nat) :
    ∃ a, (if s.agenda.any (fun t => t.ev == .patrolScrub []) then s else s.at n (.patrolScrub [])) = s.withAgenda a ∧
      ((∀ x ∈ s.agenda, x.ev ≠ .patrolScrub []) → ⟨n, .patrolScrub []⟩ ∈ a) := by
  split
  case isTrue h =>
    refine ⟨s.agenda, rfl, fun hn => ?_⟩
    obtain ⟨x, hx, he⟩ := List.any_eq_true.mp h
    exact absurd (beq_iff_eq.mp he) (hn x hx)
  case isFalse h => exact ⟨_, rfl, fun _ => s.at_self _ _⟩

/-- What a finding that was not corrected does: its sector, or its place on the package, is unreadable from now on. -/
theorem State.found_spec (s : State) (f : Finding) :
    ∃ b h, s.found f = { s with bad := b, hurts := h } ∧ (∀ x, x ∈ b ↔ x ∈ s.bad ∨ (f.unit = 0 ∧ x = f.pa / 64)) ∧
      (f.unit = 1 → Hurt.home (f.pa / 64) f.asid.toNat ∈ h) := by
  have hunit : ∀ n : Nat, n < 16 → f.unit.toNat ≠ n → f.unit ≠ BitVec.ofNat 4 n := fun n hn h e => h (by
    rw [e, BitVec.toNat_ofNat, Nat.mod_eq_of_lt hn])
  have hbad (h : f.unit.toNat ≠ 0) (x : Nat) : x ∈ s.bad ↔ x ∈ s.bad ∨ (f.unit = 0 ∧ x = f.pa / 64) := by
    simp [hunit 0 (by decide) h]
  have hadd (h : Hurt) : ∃ hs, (if s.hurts.contains h then s else { s with hurts := s.hurts ++ [h] }) = { s with hurts := hs } ∧ h ∈ hs := by
    split
    · exact ⟨s.hurts, rfl, by simpa using ‹s.hurts.contains h = true›⟩
    · exact ⟨_, rfl, by simp⟩
  unfold State.found
  split
  case h_1 h =>
    have h0 : f.unit = 0 := BitVec.eq_of_toNat_eq h
    refine ⟨_, s.hurts, rfl, fun x => ?_, fun h1 => absurd (h0.symm.trans h1) (by decide)⟩
    split <;> simp_all
  case h_2 h =>
    obtain ⟨hs, he, hm⟩ := hadd (.home (f.pa / 64) f.asid.toNat)
    exact ⟨s.bad, hs, he, hbad (by omega), fun _ => hm⟩
  case h_3 h =>
    have h1 := hunit 1 (by decide) (by omega)
    split
    · exact ⟨s.bad, s.hurts, rfl, hbad (by omega), fun e => absurd e h1⟩
    · obtain ⟨hs, he, -⟩ := hadd (.segment f.asid.toNat ‹Nat›)
      exact ⟨s.bad, hs, he, hbad (by omega), fun e => absurd e h1⟩
  case h_4 h0 h1 h3 => exact ⟨s.bad, s.hurts, rfl, hbad h0, fun e => absurd e (hunit 1 (by decide) h1)⟩

/-- A finding, corrected or not. -/
theorem State.finding_spec (s : State) (f : Finding) :
    ∃ b h, (if f.corrected then s else s.found f) = { s with bad := b, hurts := h } ∧
      (∀ x, x ∈ b ↔ x ∈ s.bad ∨ (f.corrected = false ∧ f.unit = 0 ∧ x = f.pa / 64)) ∧
      (f.corrected = false → f.unit = 1 → Hurt.home (f.pa / 64) f.asid.toNat ∈ h) ∧ (f.corrected = true → b = s.bad ∧ h = s.hurts) := by
  cases hc : f.corrected
  · obtain ⟨b, h, he, hb, hh⟩ := s.found_spec f
    exact ⟨b, h, he, by simpa using hb, fun _ => hh, by simp⟩
  · exact ⟨s.bad, s.hurts, rfl, by simp, by simp, by simp⟩

/-- A visit in its slots: every sector that it passes and every finding is logged, the findings take effect, and the next visit follows. -/
theorem exec_patrolScrub {s : State} (h1 : 41 ≤ s.slotNow) (h2 : s.slotNow ≤ 52) (fs : List Finding) {u : State}
    (hu : (s.over s.scrubbedBad (fun s x => s.logError x.2.1 (x.2.2 / 16384) x.1 3)).over fs (fun s f =>
      if f.corrected then s.logError f.asid.toNat (f.pa / 2 ^ 20) f.unit.toNat 3
      else (s.logError f.asid.toNat (f.pa / 2 ^ 20) f.unit.toNat 3).found f) = u) :
    ∃ n a, exec (.patrolScrub fs) s = .next { u with house := { u.house with scrubbed := n }, agenda := a } ∧
      ((∀ x ∈ u.agenda, x.ev ≠ .patrolScrub []) → ⟨u.nextSlot 41 52, .patrolScrub []⟩ ∈ a) := by
  subst hu
  obtain ⟨a, ha, hmem⟩ := State.nextPatrol _ _
  exact ⟨_, a, congrArg Host.Outcome.next ((if_neg (by omega)).trans ha), hmem⟩

/-! ## The throttle state (R20) -/

/-- The throttle state stands in the two low bits of PWRSTAT, and no other bits count. -/
theorem throttle_or (p w : Word) : (p ||| w).toNat % 4 = (p.toNat % 4) ||| (w.toNat % 4) := by
  rw [BitVec.toNat_or]; exact Nat.or_mod_two_pow (n := 2)

theorem throttle_set (p : Word) {n : Nat} (h : n < 4) : ((p &&& ~~~(3#32)) ||| BitVec.ofNat 32 n).toNat % 4 = n := by
  have hp : (p &&& ~~~(3#32)).toNat % 4 = 0 := by
    rw [BitVec.toNat_and, Nat.and_mod_two_pow (n := 2)]
    exact Nat.and_zero _
  rw [throttle_or, hp, Nat.zero_or, BitVec.toNat_ofNat]
  omega

@[simp] theorem State.setThrottle_ticks (s : State) (n : Nat) : (s.setThrottle n).ticks = s.ticks := rfl

theorem State.setThrottle_throttle (s : State) {n : Nat} (h : n < 4) : (s.setThrottle n).mg.throttle = n := throttle_set _ h

@[simp] theorem State.pwrFlag_mem (s : State) (c : Bool) (w : Word) : (s.pwrFlag c w).mem = s.mem := by cases c <;> rfl
@[simp] theorem State.pwrFlag_wgs (s : State) (c : Bool) (w : Word) : (s.pwrFlag c w).wgs = s.wgs := by cases c <;> rfl
@[simp] theorem State.pwrFlag_power (s : State) (c : Bool) (w : Word) : (s.pwrFlag c w).power = s.power := by cases c <;> rfl
@[simp] theorem State.pwrFlag_ftime (s : State) (c : Bool) (w : Word) : (s.pwrFlag c w).ftime = s.ftime := by cases c <;> rfl
@[simp] theorem State.pwrFlag_sync (s : State) (c : Bool) (w : Word) : (s.pwrFlag c w).sync = s.sync := by cases c <;> rfl

@[simp] theorem State.pwrFlag_ticks (s : State) (c : Bool) (w : Word) : (s.pwrFlag c w).ticks = s.ticks := by cases c <;> rfl

/-- A sticky bit leaves the throttle state. -/
theorem State.pwrFlag_throttle (s : State) (c : Bool) {w : Word} (h : w.toNat % 4 = 0) : (s.pwrFlag c w).mg.throttle = s.mg.throttle := by
  cases c
  · rfl
  · exact (throttle_or ..).trans (by rw [h, Nat.or_zero]; rfl)

/-- PWRSTAT after a sampling: the readings above the twelve low bits, which stay (R22). -/
theorem sampledWord_toNat (p : Word) {n : Nat} (h : n < 2 ^ 20) : ((p &&& 0xFFF#32) ||| BitVec.ofNat 32 (2 ^ 12 * n)).toNat = 2 ^ 12 * n + p.toNat % 2 ^ 12 := by
  have hp : (p &&& 0xFFF#32).toNat = p.toNat % 2 ^ 12 := by
    rw [BitVec.toNat_and]; exact Nat.and_two_pow_sub_one_eq_mod p.toNat 12
  rw [BitVec.toNat_or, hp, BitVec.toNat_ofNat, Nat.mod_eq_of_lt (a := 2 ^ 12 * n) (by omega), Nat.or_comm,
    Nat.two_pow_add_eq_or_of_lt (Nat.mod_lt _ (by decide))]

/-- The target of the triggers, by whether P1 is demanded, has been for long, and P2 is demanded for the stacks: at most P3. -/
theorem throttleTarget_bounds (demand lasted hbm : Bool) (cur : Nat) :
    let t := max (if demand then (if lasted then min 3 (max 1 (cur + 1)) else 1) else 0) (if hbm then 2 else 0)
    let x := BitVec.ofNat 2 t
    x.toNat = t ∧ (demand = true → 1 ≤ x.toNat) ∧ (hbm = true → 2 ≤ x.toNat) ∧ (demand = false → hbm = false → x = 0) := by
  intro t x
  have ht : t < 4 := by simp only [t]; split_ifs <;> omega
  have hx : x.toNat = t := Nat.mod_eq_of_lt ht
  refine ⟨hx, fun h => ?_, fun h => ?_, fun h h' => BitVec.eq_of_toNat_eq ?_⟩ <;> rw [hx]
  · simp only [t, h, if_true]; split_ifs <;> omega
  · simp only [t, h, if_true]; omega
  · simp [t, h, h']

/-- An operation that is put on the agenda where a condition holds: nothing else changes. -/
theorem next_later_if {c : Prop} [Decidable c] {s : State} {n : Nat} {ev : Instr} {Q : State → Prop}
    (h : ∀ a, (∀ y ∈ s.agenda, y ∈ a) → (c → ⟨s.ticks + n, ev⟩ ∈ a) → Q (s.withAgenda a)) :
    ∃ t, (Host.Outcome.next (if c then s.later n ev else s) : Res) = .next t ∧ Q t := by
  refine ⟨_, rfl, ?_⟩
  split
  case isTrue hc => exact h _ (fun y hy => State.mem_later_of_mem hy _ _) (fun _ => s.later_self _ _)
  case isFalse hc => exact h s.agenda (fun _ hy => hy) (fun hc' => absurd hc' hc)

/-- The start of the next house frame depends on the time alone. -/
theorem State.nextFrame_congr {s t : State} (hf : t.ftime = s.ftime) (hs : t.sync = s.sync) : t.nextFrame = s.nextFrame := by
  simp only [State.nextFrame, State.frameNum, State.fabric, State.ticks, State.epoch, hf, hs]

/-- The evaluation of the triggers (R20). -/
theorem throttleEvaluation_spec (s : State) : let r := s.power.readings
    let demand : Bool := decide (2800 < r.average) || r.junction.any (fun x => decide (100 ≤ x))
    ∃ t, exec .throttleEvaluation s = .next t ∧ t.mem = s.mem ∧ t.wgs = s.wgs ∧ t.mg.throttle = s.mg.throttle ∧
      ⟨(s.fabric / 1024000 + 1) * 1024000 + s.epoch, .throttleEvaluation⟩ ∈ t.agenda ∧ (demand = true → 1 ≤ t.power.target.toNat) ∧
      ((∃ x ∈ r.hbm, 95 ≤ x) → 2 ≤ t.power.target.toNat) ∧
      (demand = false → s.power.hbmDemand = false → (∀ x ∈ r.hbm, x < 95) → t.power.target = 0) ∧
      (s.mg.throttle < t.power.target.toNat → ⟨s.ticks, .throttleStep⟩ ∈ t.agenda) := by
  refine next_later_if (fun a hold hnew => ?_)
  obtain ⟨htgt, hdemand, hhbm, hnone⟩ := throttleTarget_bounds _ _ _ _
  refine ⟨?mem, ?wgs, ?throttle, hold _ ?frame, ?demand, ?hbm, ?none, ?step⟩
  case mem => simp only [State.withAgenda, State.at_mem, State.pwrFlag_mem]
  case wgs => simp only [State.withAgenda, State.at_wgs, State.pwrFlag_wgs]
  case throttle =>
    exact (State.pwrFlag_throttle _ _ (by decide)).trans ((State.pwrFlag_throttle _ _ (by decide)).trans (State.pwrFlag_throttle _ _ (by decide)))
  case frame =>
    rw [State.nextFrame_congr (s := s) (by simp only [State.pwrFlag_ftime]) (by simp only [State.pwrFlag_sync])]
    exact State.at_self ..
  all_goals simp only [State.withAgenda, State.at_power, State.pwrFlag_power]
  case demand => exact hdemand
  case hbm => exact fun h => hhbm (by rw [List.any_eq_true.mpr (by simpa using h), Bool.true_or])
  case none =>
    intro hd hs hcool
    refine hnone hd ?_
    rw [hs, List.any_eq_false.mpr (by simpa using hcool), Bool.false_and, Bool.false_or]
  case step =>
    intro h
    rw [htgt] at h
    have hstep := hnew (.inl h)
    simp only [State.at_ticks, State.pwrFlag_ticks, Nat.add_zero] at hstep
    exact hstep

theorem Power.clearLong_of {p : Power} {c now : Nat} (hc : p.clearSince = some c) (h : c + 20000000 ≤ now) : p.clearLong now = true := by
  unfold Power.clearLong
  rw [hc, Option.any_some]
  exact decide_eq_true h

/-- A move is made where it may be made now (R20). -/
theorem exec_throttleStep {s : State} (hmay : s.power.lastMove = 0 ∨ s.power.lastMove + 1000000 ≤ s.ticks) :
    exec .throttleStep s = .next (
      if s.mg.throttle < s.power.target.toNat then (s.setThrottle (s.mg.throttle + 1)).later 1000000 .throttleStep
      else if 0 < s.mg.throttle ∧ s.power.target.toNat < s.mg.throttle ∧ s.power.clearLong s.ticks then s.setThrottle (s.mg.throttle - 1)
      else s) := by
  simp only [exec, execThrottleStep, hmay, and_true, if_true]

/-! ## Sensors (R21, R22) -/

/-- A sampling in its slot. -/
theorem exec_sensorSampling {s : State} (r : Readings) (h : s.slotNow = 57) :
    exec (.sensorSampling r) s = .next (
      let t : State := { s with
        mg := { s.mg with pwrstat := (s.mg.pwrstat &&& 0xFFF#32) ||| BitVec.ofNat 32 (min r.power 4095 * 2 ^ 20 + min ((r.junction ++ r.hbm).foldl max 0) 255 * 2 ^ 12) }
        power := { s.power with readings := r } }
      if r.junction.any (fun t => decide (115 ≤ t)) || r.hbm.any (fun t => decide (105 ≤ t)) then t.trip else t) := by
  simp only [exec, execSensorSampling]
  rw [if_neg (not_not_intro h)]

/-- Bit 7 of PWRSTAT records the trip. -/
theorem State.trip_pwrstat (s : State) : s.trip.mg.pwrstat.getLsbD 7 = true := by
  show (s.mg.pwrstat ||| 0x80#32).getLsbD 7 = true
  simp

theorem foldl_max_le {b : Nat} (xs : List Nat) (h : ∀ x ∈ xs, x ≤ b) (n : Nat) (hn : n ≤ b) : xs.foldl max n ≤ b := by
  induction xs generalizing n with
  | nil => exact hn
  | cons x xs ih => exact ih (fun y hy => h y (.tail _ hy)) _ (max_le hn (h x (.head _)))

/-! ## The takeover's end (R110) -/

/-- The state in which the new leader is named: every pair has heard it, with these migrations and this agenda. -/
def State.newLeader (s : State) (d : Nat) (ms : List Migr) (a : List Timed) : State :=
  { s with svc := s.svc.map (fun p => { p with lastBeat := s.ticks }), mg := { s.mg with leader := BitVec.ofNat 2 d }, takeover := none,
           migrs := ms, fresh := s.fresh + 1, agenda := a }

/-- The migrations that were in progress start again, the log and management are told, and the new leader beats. -/
theorem State.endTakeover_eq (s : State) (d : Nat) :
    ∃ ms a, s.endTakeover d = ((((s.newLeader d ms a).logError 0 s.mg.leader.toNat 6 5).toMgmt (.msix 1)).later 0 .leaderBeat).later 300000 .leaderTakeover ∧
      ∀ m ∈ s.migrs, ⟨s.ticks, .regionMigration m.grant⟩ ∈ a := by
  let ms : List Migr := s.migrs.map (fun m => { m with mark := s.fresh })
  obtain ⟨a, he, -, hnew⟩ := State.over_later ms (fun _ => 0) (fun m => .regionMigration m.grant) (s.newLeader d ms s.agenda)
  refine ⟨ms, a, ?_, fun m hm => hnew { m with mark := s.fresh } (List.mem_map_of_mem hm)⟩
  exact congrArg (fun u => (((u.logError 0 s.mg.leader.toNat 6 5).toMgmt (.msix 1)).later 0 .leaderBeat).later 300000 .leaderTakeover) he

/-- Settles O51, clause by clause: each event by its equation, the slots by nextSlot_spec. -/
theorem managementAndPowerEvents : Obligations.management_and_power_events := by
  refine ⟨⟨?access, ?mismatch, ?beat, ?heir, ?takeover⟩, ?refresh, ?trims, ?telemetry, ?noPatrol, ?lostSectors, ?finding, ?noSampling, ?sampling, ?evaluation, ?step⟩
  case access =>
    intro s off size v hm
    refine ⟨fun h => exec_mgmtRegisterWrite_abort hm h v, ?ctrl, ?accept, ?pwrstat, ?fwstage, ?other⟩
    case ctrl =>
      rintro rfl rfl ht
      rw [exec_mgmtRegisterWrite_ctrl hm ht]
      refine ⟨fun h => ?_, fun h => ?_, fun h => ?_, fun h => ?_⟩
      · simp only [List.mem_cons, List.not_mem_nil, or_false, not_or] at h
        rw [if_neg h.1, if_neg h.2.1, if_neg h.2.2]
      all_goals simp [h, exec, execCtrlRaise, execCtrlFwgo, execCtrlReset, State.command_free ht]
    case accept =>
      rintro i rfl rfl
      rw [exec_mgmtRegisterWrite hm (by omega) (by omega), if_pos (by omega)]
      simp [exec, execAcceptWrite]
    case pwrstat =>
      rintro rfl rfl
      rw [exec_mgmtRegisterWrite hm (by decide) (by decide), if_neg (by decide), if_pos rfl]
      exact ⟨_, rfl, rfl, fun k hk => clearSticky_getLsbD _ v hk⟩
    case fwstage =>
      rintro a ha hlt rfl rfl
      rw [exec_mgmtRegisterWrite hm (by omega) (by omega), if_neg (by omega), if_neg (by omega), if_pos (by omega)]
      refine ⟨_, rfl, rfl, fun j hj hok => ?_⟩
      simpa using cellsGet_stage hok a v.toNat hj
    case other =>
      rintro ha rfl h4 hacc hpwr hfw
      rw [exec_mgmtRegisterWrite hm ha h4, if_neg (by omega), if_neg hpwr, if_neg (by omega)]
  case mismatch =>
    intro s d x hx
    refine ⟨_, rfl, ?_, rfl, rfl⟩
    show s.svc.set d.val { (s.svc.getD d.val _) with healthy := false } = _
    rw [State.svc_getD hx]
  case beat =>
    intro s x hx hh
    refine ⟨_, exec_leaderBeat hx hh, State.later_self _ _ _, fun y hy => ?_, ?_, rfl, rfl⟩
    · obtain ⟨z, -, rfl⟩ := List.mem_map.mp hy
      rfl
    · exact (List.map_map ..).trans (List.map_congr_left fun _ _ => rfl)
  case heir =>
    intro s d x ht hx hd
    refine ⟨fun h => by rw [exec_leaderTakeover_heir ht hx hd, if_pos h], fun h => ?_⟩
    refine ⟨_, (exec_leaderTakeover_heir ht hx hd).trans (congrArg _ (if_neg (by omega))), rfl, rfl, rfl, State.later_self _ _ _, fun y hy => ?_⟩
    show (s.svc.set _ { (s.svc.getD s.mg.leader.toNat _) with healthy := false, fenced := true })[s.mg.leader.toNat]? = _
    rw [State.svc_getD hy]
    exact List.getElem?_set_self (List.getElem?_eq_some_iff.mp hy).1
  case takeover =>
    intro s d ht hd
    obtain ⟨ms, a, he, hms⟩ := s.endTakeover_eq d
    refine ⟨_, (exec_leaderTakeover_end ht).trans (congrArg _ he), rfl, ?_, ?_, rfl, rfl, ?_, fun m hm => ?_, ?_, fun h => ?_⟩
    · exact Nat.mod_eq_of_lt hd
    · exact (List.mem_append_right _ (.head _) : _ ∈ s.mgmtOut ++ [MgmtOut.msix 1])
    · exact (List.map_map ..).trans (List.map_congr_left fun _ _ => rfl)
    · exact State.mem_later_of_mem (State.mem_later_of_mem (hms m hm) _ _) _ _
    · exact State.mem_later_of_mem (State.later_self _ _ _) _ _
    · obtain ⟨e, hget, hkind, hunit, -, -, htime⟩ := (s.newLeader d ms a).logError_entry 0 s.mg.leader.toNat 6 5 h
      refine (congrArg _ hget).trans ?_
      simp only [Option.map_some, hkind, hunit, htime]
      rfl
  case refresh => exact fun s => ⟨_, rfl, rfl, inSlots_at _ _ _ (by decide) (by decide), rfl⟩
  case trims =>
    exact fun s h => ⟨_, congrArg Host.Outcome.next (if_neg h), rfl, inSlots_at _ _ _ (by decide) (by decide), rfl⟩
  case telemetry => exact fun s => ⟨_, rfl, rfl, inSlots_at _ _ _ (by decide) (by decide), rfl⟩
  case noPatrol =>
    exact fun s fs h => ⟨_, congrArg Host.Outcome.next (if_pos h), inSlots_at _ _ _ (by decide) (by decide), rfl, rfl, rfl⟩
  case lostSectors =>
    intro s h1 h2 hne
    obtain ⟨log, he⟩ := State.over_logError s.scrubbedBad (·.2.1) (·.2.2 / 16384) (·.1) 3 s
    rw [if_neg hne] at he
    obtain ⟨n, a, hexec, -⟩ := exec_patrolScrub h1 h2 [] he
    exact ⟨_, hexec, rfl, rfl, rfl, rfl⟩
  case finding =>
    intro s f h1 h2 hnone
    obtain ⟨b, h, hfound, hb, hh, hcorrected⟩ := (s.logError f.asid.toNat (f.pa / 2 ^ 20) f.unit.toNat 3).finding_spec f
    obtain ⟨n, a, hexec, hnext⟩ := exec_patrolScrub h1 h2 [f]
      (u := { s.logError f.asid.toNat (f.pa / 2 ^ 20) f.unit.toNat 3 with bad := b, hurts := h }) (by rw [hnone]; exact hfound)
    refine ⟨_, hexec, fun hn => ?_, rfl, rfl, rfl, hb, hh, hcorrected, fun hlen => ?_⟩
    · obtain ⟨hd, hlo, hhi⟩ := s.nextSlot_spec (lo := 41) (hi := 52) (by decide) (by decide)
      exact ⟨_, hnext hn, rfl, hd, hlo, hhi⟩
    · obtain ⟨e, hget, hkind, hunit, hwhere, hasid, htime⟩ := s.logError_entry f.asid.toNat (f.pa / 2 ^ 20) f.unit.toNat 3 hlen
      refine (congrArg _ hget).trans ?_
      simp only [Option.map_some, hkind, hunit, hwhere, hasid, htime, Nat.mod_eq_of_lt f.unit.isLt, Nat.mod_eq_of_lt f.asid.isLt]
  case noSampling =>
    exact fun s r h => ⟨_, congrArg Host.Outcome.next (if_pos h), inSlots_at _ _ _ (by decide) (by decide), rfl, rfl, rfl⟩
  case sampling =>
    intro s r h
    refine ⟨_, exec_sensorSampling r h, fun hot => ?_, fun hj hh => ?_⟩
    · have hc : (r.junction.any (fun t => decide (115 ≤ t)) || r.hbm.any (fun t => decide (105 ≤ t))) = true := by simpa using hot
      rw [if_pos hc]
      exact ⟨rfl, rfl, rfl, ⟨rfl, rfl, rfl, rfl, rfl⟩, State.trip_pwrstat _, rfl⟩
    · have hc : (r.junction.any (fun t => decide (115 ≤ t)) || r.hbm.any (fun t => decide (105 ≤ t))) = false := by simp; exact ⟨hj, hh⟩
      rw [if_neg (by rw [hc]; decide)]
      have hmax : (r.junction ++ r.hbm).foldl max 0 ≤ 255 := foldl_max_le _ (fun x hx => by
        rcases List.mem_append.mp hx with hx | hx
        · exact (hj x hx).le.trans (by decide)
        · exact (hh x hx).le.trans (by decide)) 0 (by decide)
      have hword := sampledWord_toNat s.mg.pwrstat (n := min r.power 4095 * 256 + (r.junction ++ r.hbm).foldl max 0) (by omega)
      have hsum : min r.power 4095 * 2 ^ 20 + min ((r.junction ++ r.hbm).foldl max 0) 255 * 2 ^ 12 =
          2 ^ 12 * (min r.power 4095 * 256 + (r.junction ++ r.hbm).foldl max 0) := by omega
      simp only [hsum, hword]
      exact ⟨trivial, trivial, trivial, by omega, by omega, by omega⟩
  case evaluation => exact throttleEvaluation_spec
  case step =>
    intro s hmay
    have htgt : s.power.target.toNat < 4 := s.power.target.isLt
    have hcur : s.mg.throttle < 4 := Nat.mod_lt _ (by decide)
    refine ⟨fun hup => ?_, fun c hdown hc hlong => ?_⟩
    · exact ⟨_, (exec_throttleStep hmay).trans (congrArg _ (if_pos hup)), s.setThrottle_throttle (by omega), rfl,
        by simpa only [State.setThrottle_ticks] using State.later_self (s.setThrottle (s.mg.throttle + 1)) 1000000 .throttleStep, rfl, rfl⟩
    · have hclear := Power.clearLong_of hc hlong
      refine ⟨_, (exec_throttleStep hmay).trans (congrArg _ ((if_neg (by omega)).trans (if_pos ⟨by omega, hdown, hclear⟩))),
        s.setThrottle_throttle (by omega), rfl, ?_, rfl, rfl⟩
      show s.power.clearSince.map (fun _ => s.ticks) = some s.ticks
      rw [hc]; rfl

end Sys2Proof.Machine
end

section
/-! PROOFS. What is queued on optical pairs, and what the changes of links and pairs leave as it was (R14 to R16, R26 to R28). -/

namespace Sys2Proof.Machine

/-! ## Pairs -/

theorem State.pair_setPair (s : State) (p : Nat) (v : Pair) (k : Nat) : (s.setPair p v).pair k = if k = p then v else s.pair k := by
  have hfind (xs : List (Nat × Pair)) : (xs.map (fun x => if x.1 == p then (p, v) else x)).find? (fun x => x.1 == k) =
      if k = p then (xs.find? (fun x => x.1 == p)).map (fun _ => (p, v)) else xs.find? (fun x => x.1 == k) := by
    induction xs with
    | nil => simp
    | cons x xs ih => by_cases hx : x.1 = p <;> by_cases hk : k = p <;> by_cases hxk : x.1 = k <;> simp_all
  unfold State.setPair State.pair
  dsimp only
  split
  case isTrue h =>
    rw [hfind]
    split
    · obtain ⟨x, hx⟩ := Option.isSome_iff_exists.mp (List.find?_isSome.mpr (List.any_eq_true.mp h))
      rw [hx]; rfl
    · rfl
  case isFalse h =>
    rw [List.find?_append]
    by_cases hk : k = p
    · subst hk
      rw [List.find?_eq_none.mpr (fun x hx hk => h (List.any_eq_true.mpr ⟨x, hx, hk⟩))]
      simp
    · simp [hk, Ne.symm hk]

/-- From v to w a pair keeps its condition, the locks of its lanes, and the messages queued on its first lane. -/
structure Pair.Fed (v w : Pair) : Prop where
  failed : w.failedNow = v.failedNow
  spare : w.spareNow = v.spareNow
  substituting : w.substituting = v.substituting
  locks : w.lanes.map (fun x => (x.1, x.2.locked)) = v.lanes.map (fun x => (x.1, x.2.locked))
  queued : ∀ m, (∃ l ls, v.lanes = l :: ls ∧ m ∈ l.2.sbQ) → ∃ l ls, w.lanes = l :: ls ∧ m ∈ l.2.sbQ

theorem Pair.Fed.refl (v : Pair) : v.Fed v := ⟨rfl, rfl, rfl, rfl, fun _ h => h⟩

theorem Pair.Fed.trans {u v w : Pair} (h : u.Fed v) (h' : v.Fed w) : u.Fed w :=
  ⟨h'.failed.trans h.failed, h'.spare.trans h.spare, h'.substituting.trans h.substituting, h'.locks.trans h.locks, fun m hm => h'.queued m (h.queued m hm)⟩

theorem Pair.works_iff (v : Pair) :
    v.works = (!v.failedNow && !(v.lanes.map (fun x => (x.1, x.2.locked))).isEmpty && (v.lanes.map (fun x => (x.1, x.2.locked))).all (·.2)) := by
  simp [Pair.works, Function.comp_def]

theorem Pair.Fed.works {v w : Pair} (h : v.Fed w) : w.works = v.works := by rw [v.works_iff, w.works_iff, h.failed, h.locks]

theorem Pair.Fed.lanes_ne {v w : Pair} (h : v.Fed w) (hv : v.lanes ≠ []) : w.lanes ≠ [] := by
  intro hw
  have hlocks := h.locks
  rw [hw] at hlocks
  exact hv (List.map_eq_nil_iff.mp hlocks.symm)

theorem Pair.works_lanes {v : Pair} (h : v.works = true) : v.lanes ≠ [] := by
  intro e
  simp [Pair.works, e] at h

/-! ## Queued messages -/

/-- From s to t sideband messages have been queued on pairs, and nothing else has changed. -/
structure Queues (s t : State) : Prop where
  rest : ∃ ps, t = { s with pairs := ps }
  pair : ∀ k, (s.pair k).Fed (t.pair k)

theorem Queues.refl (s : State) : Queues s s := ⟨⟨s.pairs, rfl⟩, fun _ => .refl _⟩

theorem Queues.trans {s t u : State} (h : Queues s t) (h' : Queues t u) : Queues s u := by
  obtain ⟨ps, hp⟩ := h.rest
  obtain ⟨qs, hq⟩ := h'.rest
  exact ⟨⟨qs, by rw [hq, hp]⟩, fun k => (h.pair k).trans (h'.pair k)⟩

theorem Queues.over {α : Type} {f : State → α → State} (h : ∀ s x, Queues s (f s x)) (xs : List α) (s : State) : Queues s (s.over xs f) := by
  induction xs generalizing s with
  | nil => exact .refl s
  | cons x xs ih => exact (h s x).trans (ih _)

theorem Queues.pos {s t : State} (h : Queues s t) : t.pos = s.pos := by
  obtain ⟨ps, rfl⟩ := h.rest
  rfl

/-- What is queued stays queued. -/
theorem Queues.queuedOn {s t : State} (h : Queues s t) {k : Nat} {m : Sideband} (hm : Claims.queuedOn s k m) : Claims.queuedOn t k m := (h.pair k).queued m hm

theorem queues_sbOn (s : State) (p : Nat) (m : Sideband) : Queues s (s.sbOn p m) := by
  refine ⟨⟨_, rfl⟩, fun k => ?_⟩
  unfold State.sbOn
  rw [State.pair_setPair]
  split
  case isFalse => exact .refl _
  case isTrue h =>
    subst h
    cases hl : (s.pair k).lanes with
    | nil => exact ⟨rfl, rfl, rfl, by simp [hl], fun m hm => by simp [hl] at hm⟩
    | cons l ls =>
      refine ⟨rfl, rfl, rfl, by simp [hl], fun m' hm => ?_⟩
      obtain ⟨l', ls', he, hm⟩ := hm
      obtain ⟨rfl, rfl⟩ := List.cons.inj (hl.symm.trans he)
      exact ⟨_, _, rfl, List.mem_append_left _ hm⟩

theorem sbOn_queued {s : State} {p : Nat} (m : Sideband) (h : (s.pair p).lanes ≠ []) : Claims.queuedOn (s.sbOn p m) p m := by
  unfold Claims.queuedOn State.sbOn
  rw [State.pair_setPair, if_pos rfl]
  obtain ⟨l, ls, hl⟩ := List.exists_cons_of_ne_nil h
  exact ⟨_, _, by rw [hl], by simp⟩

theorem over_sbOn_queued (m : Sideband) {p : Nat} (ps : List Nat) (hp : p ∈ ps) (s : State) (h : (s.pair p).lanes ≠ []) :
    Claims.queuedOn (s.over ps (fun s p => s.sbOn p m)) p m := by
  induction ps generalizing s with
  | nil => cases hp
  | cons x ps ih =>
    rcases List.mem_cons.mp hp with rfl | hp
    · exact (Queues.over (fun s p => queues_sbOn s p m) ps _).queuedOn (sbOn_queued m h)
    · exact ih hp _ (((queues_sbOn s x m).pair p).lanes_ne h)

theorem State.sbTo_eq (s : State) (q : Nat) (m : Sideband) :
    (s.sbTo q m).1 = s.over ((pairsOf s.pos q).filter (fun p => (s.pair p).works)) (fun s p => s.sbOn p m) := rfl

theorem queues_sbTo (s : State) (q : Nat) (m : Sideband) : Queues s (s.sbTo q m).1 := Queues.over (fun s p => queues_sbOn s p m) _ s

theorem sbTo_queued {s : State} {q k : Nat} (m : Sideband) (hk : k ∈ pairsOf s.pos q) (hw : (s.pair k).works = true) : Claims.queuedOn (s.sbTo q m).1 k m := by
  rw [State.sbTo_eq]
  exact over_sbOn_queued m _ (List.mem_filter.mpr ⟨hk, hw⟩) s (Pair.works_lanes hw)

/-- A message that is sent to some positions is queued on every working pair to each of them. -/
theorem over_sbTo_queued (m : Sideband) {q k : Nat} (qs : List Nat) (hq : q ∈ qs) (s : State) (hk : k ∈ pairsOf s.pos q) (hw : (s.pair k).works = true) :
    Claims.queuedOn (s.over qs (fun s q => (s.sbTo q m).1)) k m := by
  induction qs generalizing s with
  | nil => cases hq
  | cons x qs ih =>
    rcases List.mem_cons.mp hq with rfl | hq
    · exact (Queues.over (fun s q => queues_sbTo s q m) qs _).queuedOn (sbTo_queued m hk hw)
    · have hx := queues_sbTo s x m
      exact ih hq _ (hx.pos ▸ hk) ((hx.pair k).works.trans hw)

/-- A message to every other position. -/
def State.sbAll (s : State) (m : Sideband) : State := s.over ((List.range 16).filter (fun q => q != s.pos)) (fun s q => (s.sbTo q m).1)

theorem queues_sbAll (s : State) (m : Sideband) : Queues s (s.sbAll m) := .over (fun s q => queues_sbTo s q m) _ s

theorem beatOn_sbAll (s : State) (m : Sideband) : Claims.beatOn s (s.sbAll m) m :=
  fun q _ hq hne hk hw => over_sbTo_queued m _ (List.mem_filter.mpr ⟨List.mem_range.mpr hq, by simpa using hne⟩) s hk hw

/-! ## What the changes of links leave -/

/-- From s to t every pair keeps its condition and its messages, no spare is taken, and nothing leaves the agenda. -/
structure LinksKept (s t : State) : Prop where
  pair : ∀ k, (s.pair k).Fed (t.pair k)
  spares : t.spares = s.spares
  agenda : ∀ x ∈ s.agenda, x ∈ t.agenda

theorem LinksKept.of_same {s t : State} (hp : t.pairs = s.pairs) (hs : t.spares = s.spares) (ha : ∀ x ∈ s.agenda, x ∈ t.agenda) : LinksKept s t :=
  ⟨fun k => by unfold State.pair; rw [hp]; exact .refl _, hs, ha⟩

theorem LinksKept.refl (s : State) : LinksKept s s := .of_same rfl rfl (fun _ h => h)

theorem LinksKept.trans {s t u : State} (h : LinksKept s t) (h' : LinksKept t u) : LinksKept s u :=
  ⟨fun k => (h.pair k).trans (h'.pair k), h'.spares.trans h.spares, fun x hx => h'.agenda x (h.agenda x hx)⟩

theorem LinksKept.over {α : Type} {f : State → α → State} (h : ∀ s x, LinksKept s (f s x)) (xs : List α) (s : State) : LinksKept s (s.over xs f) := by
  induction xs generalizing s with
  | nil => exact .refl s
  | cons x xs ih => exact (h s x).trans (ih _)

theorem Queues.linksKept {s t : State} (h : Queues s t) : LinksKept s t := by
  obtain ⟨ps, rfl⟩ := h.rest
  exact ⟨h.pair, rfl, fun _ hx => hx⟩

theorem linksKept_later (s : State) (n : Nat) (ev : Instr) : LinksKept s (s.later n ev) := .of_same rfl rfl (fun _ hx => State.mem_later_of_mem hx n ev)

theorem linksKept_setTray (s : State) (k : Nat) (t : TrayLink) : LinksKept s (s.setTray k t) := .of_same rfl rfl (fun _ h => h)

theorem linksKept_traySend (s : State) (k : Nat) (p : Packet) : LinksKept s (s.traySend k p) := .of_same rfl rfl (fun _ h => h)

theorem linksKept_deliverTray (s : State) (k : Nat) (p : Packet) : LinksKept s (s.deliverTray k p) := by
  unfold State.deliverTray
  split
  · exact .of_same rfl rfl (fun _ h => h)
  · split
    · exact .over (fun s r => linksKept_traySend s k _) _ s
    · exact .of_same rfl rfl (fun _ h => h)

theorem queues_resendMsg (s : State) (p q : Nat) (m : Sideband) : Queues s (s.resendMsg p q m) := by
  unfold State.resendMsg
  split
  · exact queues_sbOn ..
  · split
    · exact queues_sbTo ..
    · exact queues_sbOn ..
  · exact queues_sbOn ..

theorem linksKept_resendPair (s : State) (p : Nat) (v : Pair) : LinksKept s (s.resendPair p v) := by
  unfold State.resendPair
  dsimp only
  split
  case h_1 q _ =>
    refine .trans ?_ (Queues.over (fun s m => queues_resendMsg s p q m) _ _).linksKept
    exact .of_same rfl rfl (fun _ h => h)
  case h_2 => exact (linksKept_setTray s _ _).trans (.over (fun s e => linksKept_deliverTray s _ _) _ _)
  case h_3 => exact .of_same rfl rfl (fun _ h => h)
  case h_4 => exact .refl s

theorem linksKept_failTray (s : State) (k : Nat) : LinksKept s (s.failTray k) := by
  unfold State.failTray
  refine .trans ?_ (.over (fun s t => linksKept_later s 0 _) _ _)
  dsimp only
  split
  · exact linksKept_setTray ..
  · exact (linksKept_setTray ..).trans (.over (fun s p => linksKept_traySend s _ p) _ _)

/-- New intermediates change the waiting packets and the agenda alone. -/
theorem State.setDetours_eq (s : State) : ∃ d x a, s.setDetours = { s with detours := d, txq := x, agenda := a } ∧ ∀ y ∈ s.agenda, y ∈ a := by
  let u : State := { s with
    detours := (List.range 16).map (fun q => if s.direct q then none else s.intermediate q)
    txq := s.txq.map (fun (k : Packet) => if k.hop2 then k else (s.routed k).getD k) }
  obtain ⟨a, he, hold, -⟩ := State.over_later ((List.range 16).filter (fun q => u.reachable q && (u.via q).isNone)) (fun _ => 0) (fun q => .peerDead (posF q)) u
  exact ⟨_, _, a, he, hold⟩

theorem linksKept_setDetours (s : State) : LinksKept s s.setDetours := by
  obtain ⟨d, x, a, he, ha⟩ := s.setDetours_eq
  rw [he]
  exact .of_same rfl rfl ha

/-- A spare is taken while there is one, and its substitution is due 50 µs from now (R16). -/
theorem State.takeSpare_spec {s : State} (pair : Fin 64) (h : s.spares < 2) :
    (s.takeSpare pair).spares = s.spares + 1 ∧ (∃ n, (s.takeSpare pair).pair pair.val = { s.pair pair.val with substituting := some n }) ∧
      ⟨s.ticks + 50000, .spareSubstitution pair⟩ ∈ (s.takeSpare pair).agenda := by
  unfold State.takeSpare
  rw [if_neg (by omega)]
  dsimp only
  split
  · exact ⟨rfl, ⟨s.spares, (State.pair_setPair ..).trans (if_pos rfl)⟩, State.later_self ..⟩
  · exact ⟨rfl, ⟨0, (State.pair_setPair ..).trans (if_pos rfl)⟩, State.later_self ..⟩

theorem State.takeSpare_none {s : State} (pair : Fin 64) (h : 2 ≤ s.spares) : s.takeSpare pair = s := if_pos h

/-- A pair that has been trained: its wavelengths locked, its messages kept. -/
def Pair.retrained (v : Pair) : Pair :=
  { v with failedNow := false, uncNow := 0, credit0 := Config.linkCredit, credit1 := Config.linkCredit,
           lanes := (List.range 16).map (fun l => (l, { Lane.trained with sbQ := ((v.lane l).map (·.sbQ)).getD [] })) }

theorem Pair.retrained_works (v : Pair) : v.retrained.works = true := by simp [Pair.works, Pair.retrained, Lane.trained]

theorem State.trainPair_pair (s : State) (p : Nat) : (s.trainPair p).pair p = (s.pair p).retrained := by
  obtain ⟨a, he, -, -⟩ := State.over_later (List.range 16) (fun _ => 85)
    (fun l => .laneCodewordSend ⟨p % 64, Nat.mod_lt p (by decide)⟩ ⟨l % 16, Nat.mod_lt l (by decide)⟩) (s.setPair p (s.pair p).retrained)
  have ht : s.trainPair p = (s.setPair p (s.pair p).retrained).withAgenda a := he
  rw [ht]
  exact (State.pair_setPair ..).trans (if_pos rfl)

end Sys2Proof.Machine
end

section
/-! PROOFS. The events of links and of the node: failing pairs, link state, barrier arrivals, fabric time and heartbeats (O49). -/

namespace Sys2Proof.Machine

/-! ## Words made of bits -/

theorem testBit_sum_two_pow {xs : List Nat} (h : xs.Nodup) (j : Nat) : ((xs.map (2 ^ ·)).sum).testBit j = decide (j ∈ xs) := by
  have hs : (xs.map (2 ^ ·)).sum = ∑ i ∈ xs.toFinset, 2 ^ i := (List.sum_toFinset _ h).symm
  rw [Bool.eq_iff_iff, ← Nat.mem_bitIndices, hs, ← List.mem_toFinset, Finset.toFinset_bitIndices_sum_two_pow]
  simp

theorem sum_two_pow_lt {xs : List Nat} (h : xs.Nodup) {n : Nat} (hn : ∀ x ∈ xs, x < n) : (xs.map (2 ^ ·)).sum < 2 ^ n :=
  Nat.lt_pow_two_of_testBit _ (fun i hi => by
    rw [testBit_sum_two_pow h]
    exact decide_eq_false (fun hm => absurd (hn i hm) (Nat.not_lt.mpr hi)))

/-- The mask of the positions with a working pair (R28). -/
theorem State.linkMask_getLsbD (s : State) {q : Nat} (hq : q < 16) : s.linkMask.getLsbD q = (q != s.pos && s.direct q) := by
  unfold State.linkMask
  rw [BitVec.getLsbD_ofNat, testBit_sum_two_pow (List.nodup_range.filter _)]
  simp [hq, bne, beq_eq_decide]

theorem sum_locks (xs : List (Nat × Lane)) :
    (xs.map (fun l => if l.2.locked then 2 ^ l.1 else 0)).sum = (((xs.filter (·.2.locked)).map (·.1)).map (2 ^ ·)).sum := by
  induction xs with
  | nil => rfl
  | cons x xs ih => by_cases hx : x.2.locked <;> simp [hx, ih]

/-- The fields of a link status word (R27). -/
theorem linkWord_fields (f p : Bool) {n x : Nat} (hn : n ≤ 0xFFF) (hx : x < 2 ^ 16) :
    let w := BitVec.ofNat 32 (bitNum f * 2 ^ 31 + bitNum p * 2 ^ 30 + n * 2 ^ 16 + x)
    w.getLsbD 31 = f ∧ w.getLsbD 30 = p ∧ w.toNat / 65536 % 4096 = n ∧ ∀ j, j < 16 → w.getLsbD j = x.testBit j := by
  have hf : bitNum f < 2 := by cases f <;> decide
  have hp : bitNum p < 2 := by cases p <;> decide
  have hbit (b : Bool) : decide (bitNum b = 1) = b := by cases b <;> rfl
  refine ⟨?_, ?_, ?_, fun j hj => ?_⟩
  · refine Eq.trans ?_ (hbit f)
    rw [BitVec.getLsbD_ofNat, Nat.testBit_eq_decide_div_mod_eq, decide_eq_true (by decide : 31 < 32), Bool.true_and, decide_eq_decide]
    omega
  · refine Eq.trans ?_ (hbit p)
    rw [BitVec.getLsbD_ofNat, Nat.testBit_eq_decide_div_mod_eq, decide_eq_true (by decide : 30 < 32), Bool.true_and, decide_eq_decide]
    omega
  · rw [BitVec.toNat_ofNat]
    omega
  · rw [BitVec.getLsbD_ofNat, decide_eq_true (by omega : j < 32), Bool.true_and,
      show bitNum f * 2 ^ 31 + bitNum p * 2 ^ 30 + n * 2 ^ 16 + x = 2 ^ 16 * (bitNum f * 2 ^ 15 + bitNum p * 2 ^ 14 + n) + x by omega,
      Nat.testBit_two_pow_mul_add _ hx, if_pos hj]

/-! ## Sideband messages -/

theorem recvSideband_head {s : State} {k l : Nat} {m : Sideband} {rest : List (Nat × Nat × Sideband)} (h : s.sbRx = (k, l, m) :: rest) {type : Nat}
    (ht : m.type.toNat = type) (f : Nat → Nat → Sideband → State → State) :
    s.recvSideband type f = .next (f k l m (Claims.sidebandTaken s rest)) := by
  unfold State.recvSideband
  rw [h]
  exact congrArg _ (if_pos ht)

theorem State.peer_modPeer_same {s : State} {q : Nat} (h : q < s.peers.length) (f : Peer → Peer) : (s.modPeer q f).peer q = f (s.peer q) := by
  simp [State.peer, State.modPeer, h]

theorem State.peer_modPeer_other (s : State) {q r : Nat} (h : r ≠ q) (f : Peer → Peer) : (s.modPeer q f).peer r = s.peer r := by
  simp [State.peer, State.modPeer, List.getElem?_set_ne (Ne.symm h)]

/-! ## Link status (R27) -/

@[simp] theorem Pair.roll_lanes (v : Pair) (n : Nat) : (v.roll n).lanes = v.lanes := by unfold Pair.roll; split <;> rfl
@[simp] theorem Pair.roll_failedNow (v : Pair) (n : Nat) : (v.roll n).failedNow = v.failedNow := by unfold Pair.roll; split <;> rfl
@[simp] theorem Pair.roll_spareNow (v : Pair) (n : Nat) : (v.roll n).spareNow = v.spareNow := by unfold Pair.roll; split <;> rfl
theorem Pair.roll_uncLast (v : Pair) (n : Nat) : (v.roll n).uncLast = if v.frame = n then v.uncLast else if v.frame + 1 = n then v.uncNow else 0 := by
  unfold Pair.roll; split <;> rfl

/-- The lock bits of a pair's lanes. -/
theorem testBit_locks {xs : List (Nat × Lane)} (h : (xs.map (·.1)).Nodup) (j : Nat) :
    ((xs.map (fun l : Nat × Lane => if l.2.locked then 2 ^ l.1 else 0)).sum).testBit j = xs.any (fun l => l.1 == j && l.2.locked) := by
  rw [sum_locks, testBit_sum_two_pow (h.sublist (List.filter_sublist.map _)), Bool.eq_iff_iff]
  simp only [decide_eq_true_eq, List.mem_map, List.mem_filter, List.any_eq_true, Bool.and_eq_true, beq_iff_eq]
  exact ⟨fun ⟨l, ⟨hl, hlock⟩, hj⟩ => ⟨l, hl, hj, hlock⟩, fun ⟨l, hl, hj, hlock⟩ => ⟨l, ⟨hl, hlock⟩, hj⟩⟩

theorem sum_locks_lt {xs : List (Nat × Lane)} (h : (xs.map (·.1)).Nodup) (hlt : ∀ l ∈ xs, l.1 < 16) :
    (xs.map (fun l => if l.2.locked then 2 ^ l.1 else 0)).sum < 2 ^ 16 := by
  rw [sum_locks]
  refine sum_two_pow_lt (h.sublist (List.filter_sublist.map _)) (fun x hx => ?_)
  obtain ⟨l, hl, rfl⟩ := List.mem_map.mp hx
  exact hlt l (List.mem_of_mem_filter hl)

/-! ## Node time (R106) -/

theorem queues_sendRun (s : State) (p t : Nat) : Queues s (s.sendRun p t) := Queues.over (fun s m => queues_sbOn s p m) _ s

theorem queues_startRuns (s : State) (qs : List Nat) : Queues s (s.startRuns qs) :=
  Queues.over (fun s q => by
    split
    · exact .refl s
    · exact queues_sendRun ..) qs s

/-! ## Calendars sent again (R65) -/

/-- From s to t packets have been sent or have arrived here, and nothing else has changed. -/
def Sent (s t : State) : Prop := ∃ rx tx, t = { s with rxq := rx, txq := tx }

theorem Sent.refl (s : State) : Sent s s := ⟨s.rxq, s.txq, rfl⟩

theorem Sent.trans {s t u : State} (h : Sent s t) (h' : Sent t u) : Sent s u := by
  obtain ⟨_, _, rfl⟩ := h
  obtain ⟨rx, tx, rfl⟩ := h'
  exact ⟨rx, tx, rfl⟩

theorem Sent.over {α : Type} {f : State → α → State} (h : ∀ s x, Sent s (f s x)) (xs : List α) (s : State) : Sent s (s.over xs f) := by
  induction xs generalizing s with
  | nil => exact .refl s
  | cons x xs ih => exact (h s x).trans (ih _)

theorem sent_send (s : State) (p : Packet) : Sent s (s.send p) := by
  unfold State.send
  split
  · exact .refl s
  · exact ⟨_, _, rfl⟩

theorem sent_exchSend (s : State) (q : Nat) (op : BitVec 8) (bs : List Byte) : Sent s (s.exchSend q op bs) := by
  unfold State.exchSend
  dsimp only
  split
  · exact ⟨_, _, rfl⟩
  · exact sent_send ..

theorem sent_refusePost (s : State) (q : Nat) (x : Word) (mask : BitVec 16) (code : BitVec 8) : Sent s (s.refusePost q x mask code) := by
  unfold State.refusePost
  dsimp only
  split
  · exact .refl s
  · split
    · exact ⟨_, _, rfl⟩
    · exact sent_send ..

theorem sent_resendCalendars (s : State) (e : Exch) : Sent s (s.resendCalendars e) :=
  .trans (.over (fun s _ => .over (fun _ _ => sent_exchSend ..) _ s) _ s) (.over (fun _ _ => sent_refusePost ..) _ _)

/-! ## Failing pairs and spares (R16) -/

/-- What a pair that fails leaves of its record: nothing of its lanes but the locks that hold. -/
def Pair.dropped (v : Pair) (lost : BitVec 16) : Pair :=
  { v with failedNow := true, spareNow := false, lanes := v.lanes.map (fun x => (x.1, { Lane.reset with locked := x.2.locked && !lost.getLsbD x.1 })) }

/-- The failure is logged, and a spare is taken where the pair has a use and there is one. -/
def State.pairDown (s : State) (p : Fin 64) (lost : BitVec 16) : State :=
  let u := (s.logError 0 p.val 5 4).setPair p.val ((s.pair p.val).dropped lost)
  if s.pairUse p.val = .spare then u else u.takeSpare p

/-- A tray link whose pair has failed and gets no spare fails with it (R16, R86). -/
theorem linksKept_trayDown (s : State) (p : Nat) :
    LinksKept s (match s.pairUse p with
      | .tray k => if (s.pair p).substituting.isSome then s else s.failTray k
      | _ => s) := by
  split
  · split
    · exact .refl s
    · exact linksKept_failTray ..
  · exact .refl s

/-- A pair that fails: after the failure what it carried is sent again and the paths are found anew, which leaves the pairs as they are. -/
theorem exec_pairFailure {s : State} {p : Fin 64} {lost : BitVec 16} (hf : (s.pair p.val).failedNow = false) (hl : (s.pair p.val).lanes ≠ []) :
    ∃ t, exec (.pairFailure ⟨p, lost⟩) s = .next t ∧ LinksKept (s.pairDown p lost) t := by
  have hc : ¬((s.pair p.val).failedNow || (s.pair p.val).lanes.isEmpty) = true := by simp [hf, hl]
  have hdown : s.pairDown p lost = (match s.pairUse p.val with
      | .spare => (s.logError 0 p.val 5 4).setPair p.val ((s.pair p.val).dropped lost)
      | _ => ((s.logError 0 p.val 5 4).setPair p.val ((s.pair p.val).dropped lost)).takeSpare p) := by
    unfold State.pairDown
    cases s.pairUse p.val <;> rfl
  refine ⟨_, congrArg Host.Outcome.next (if_neg hc), ?_⟩
  rw [hdown]
  exact ((linksKept_resendPair _ p.val (s.pair p.val)).trans (linksKept_trayDown _ p.val)).trans (linksKept_setDetours _)

/-- The failed pair as the failure leaves it. -/
theorem State.pairDown_spec (s : State) (p : Fin 64) (lost : BitVec 16) :
    (∃ o, (s.pairDown p lost).pair p.val = { (s.pair p.val).dropped lost with substituting := o } ∧ (s.pairUse p.val ≠ .spare → s.spares < 2 → o ≠ none)) ∧
      (s.pairUse p.val ≠ .spare → s.spares < 2 → (s.pairDown p lost).spares = s.spares + 1 ∧ ⟨s.ticks + 50000, .spareSubstitution p⟩ ∈ (s.pairDown p lost).agenda) ∧
      (2 ≤ s.spares → (s.pairDown p lost).spares = s.spares) := by
  let u := (s.logError 0 p.val 5 4).setPair p.val ((s.pair p.val).dropped lost)
  have hu : u.pair p.val = (s.pair p.val).dropped lost := (State.pair_setPair ..).trans (if_pos rfl)
  by_cases huse : s.pairUse p.val = .spare
  · have hd : s.pairDown p lost = u := if_pos huse
    rw [hd, hu]
    exact ⟨⟨_, rfl, fun h => absurd huse h⟩, fun h => absurd huse h, fun _ => rfl⟩
  · have hd : s.pairDown p lost = u.takeSpare p := if_neg huse
    rw [hd]
    by_cases hs : s.spares < 2
    · obtain ⟨hsp, ⟨n, hpair⟩, hag⟩ := State.takeSpare_spec (s := u) p hs
      rw [hpair, hu]
      exact ⟨⟨some n, rfl, fun _ _ => Option.some_ne_none n⟩, fun _ _ => ⟨hsp, hag⟩, fun h => absurd hs (Nat.not_lt.mpr h)⟩
    · rw [State.takeSpare_none (s := u) p (Nat.not_lt.mp hs), hu]
      exact ⟨⟨_, rfl, fun _ h => absurd h hs⟩, fun _ h => absurd h hs, fun _ => rfl⟩

/-- A spare takes over a pair's use: its lanes are trained, and the paths are found anew. -/
theorem exec_spareSubstitution {s : State} {p : Fin 64} (h : (s.pair p.val).substituting ≠ none) :
    ∃ t, exec (.spareSubstitution p) s = .next t ∧
      LinksKept ((s.setPair p.val { s.pair p.val with spareNow := true, substituting := none }).trainPair p.val) t := by
  obtain ⟨n, hn⟩ := Option.ne_none_iff_exists'.mp h
  have htray (u : State) : LinksKept u (match u.pairUse p.val with
      | .tray k => u.setTray k { (u.trayOf k) with failed := false }
      | _ => u) := by
    split
    · exact linksKept_setTray ..
    · exact .refl u
  refine ⟨_, by simp only [exec, execSpareSubstitution, hn]; rfl, ?_⟩
  exact (htray _).trans (linksKept_setDetours _)

end Sys2Proof.Machine
end

section
/-! PROOFS. Barrier arrivals, fabric time and heartbeats, and the obligation on links and the node (O49). -/

namespace Sys2Proof.Machine

/-! ## Rules for messages queued on pairs -/

theorem Queues.later_self {s t : State} (h : Queues s t) (n : Nat) (ev : Instr) : ⟨s.ticks + n, ev⟩ ∈ (t.later n ev).agenda := by
  obtain ⟨ps, rfl⟩ := h.rest
  exact State.later_self ..

theorem Queues.mem {s t : State} (h : Queues s t) : t.mem = s.mem := by
  obtain ⟨ps, rfl⟩ := h.rest
  rfl

theorem Queues.wgs {s t : State} (h : Queues s t) : t.wgs = s.wgs := by
  obtain ⟨ps, rfl⟩ := h.rest
  rfl

theorem Queues.sync {s t : State} (h : Queues s t) : t.sync = s.sync := by
  obtain ⟨ps, rfl⟩ := h.rest
  rfl

theorem Queues.ftime {s t : State} (h : Queues s t) : t.ftime = s.ftime := by
  obtain ⟨ps, rfl⟩ := h.rest
  rfl

theorem Queues.ft {s t : State} (h : Queues s t) : t.ft = s.ft := by
  obtain ⟨ps, rfl⟩ := h.rest
  rfl

/-! ## Liveness (R28, R41, R42) -/

theorem exec_livenessSend (s : State) : exec .livenessSend s = .next ((s.sbAll ⟨5, s.linkMask⟩).later 1000 .livenessSend) := rfl

/-- What a peer tells of its links is noted; new intermediates change the waiting packets and the agenda alone. -/
theorem exec_livenessAndLinkState {s : State} {k l q : Nat} {m : Sideband} {rest : List (Nat × Nat × Sideband)} (h : s.sbRx = (k, l, m) :: rest)
    (ht : m.type.toNat = 5) (hq : peerOfPair s.pos k = some q) (hlt : q < s.peers.length) :
    ∃ d x a p, exec .livenessAndLinkState s = .next { Claims.sidebandTaken s rest with detours := d, txq := x, agenda := a, peers := p } ∧
      (p.getD q ⟨false, false, false, 0, 0, 0⟩).pairsTo = m.body ∧ ∀ r, r ≠ q → p.getD r ⟨false, false, false, 0, 0, 0⟩ = s.peer r := by
  simp only [exec, execLivenessAndLinkState]
  rw [recvSideband_head h ht]
  simp only [show peerOfPair (Claims.sidebandTaken s rest).pos k = some q from hq]
  split
  case isTrue hb => exact ⟨s.detours, s.txq, s.agenda, s.peers, rfl, hb, fun _ _ => rfl⟩
  case isFalse =>
    obtain ⟨d, x, a, he, -⟩ := ((Claims.sidebandTaken s rest).modPeer q (fun p => { p with pairsTo := m.body })).setDetours_eq
    rw [he]
    exact ⟨d, x, a, _, rfl, congrArg (·.pairsTo) (State.peer_modPeer_same (s := Claims.sidebandTaken s rest) hlt _), fun r hr => State.peer_modPeer_other (Claims.sidebandTaken s rest) hr _⟩

/-! ## Barrier arrivals (R28, R43, R150) -/

/-- The fields of a barrier arrival. -/
def arrivalIn (b : BitVec 16) : HeldArrival := ⟨if b.getLsbD 15 then 8 else 7, if b.getLsbD 14 then 1 else 0, b.getLsbD 13, b.toNat / 16 % 16⟩

theorem arrivalIn_eq (b : BitVec 16) :
    (⟨if b.toNat / 2 ^ 15 = 1 then 8 else 7, b.toNat / 2 ^ 14 % 2, b.toNat / 2 ^ 13 % 2 == 1, b.toNat / 16 % 16⟩ : HeldArrival) = arrivalIn b := by
  have hlt := b.isLt
  have h15 : b.toNat / 2 ^ 15 = 1 ↔ b.getLsbD 15 = true := by
    rw [← BitVec.testBit_toNat, Nat.testBit_eq_decide_div_mod_eq, decide_eq_true_iff]
    omega
  have h14 : b.toNat / 2 ^ 14 % 2 = if b.getLsbD 14 then 1 else 0 := by
    simp only [← BitVec.testBit_toNat, Nat.testBit_eq_decide_div_mod_eq, decide_eq_true_eq]
    split <;> omega
  have h13 : (b.toNat / 2 ^ 13 % 2 == 1) = b.getLsbD 13 := Nat.testBit_eq_decide_div_mod_eq.symm
  unfold arrivalIn
  simp only [h15, h14, h13]

/-- The bits of a barrier arrival that its repetition keeps. -/
theorem testBit_kept (n i : Nat) : (2 ^ 13 * (n / 2 ^ 13) + n % 2 ^ 8).testBit i = (n.testBit i && (decide (i < 8) || decide (13 ≤ i))) := by
  rw [Nat.testBit_two_pow_mul_add _ (by omega : n % 2 ^ 8 < 2 ^ 13), Nat.testBit_mod_two_pow, Nat.testBit_div_two_pow]
  by_cases h13 : i < 13
  · rw [if_pos h13, decide_eq_false (by omega : ¬13 ≤ i), Bool.or_false, Bool.and_comm]
  · rw [if_neg h13, Nat.sub_add_cancel (by omega : 13 ≤ i), decide_eq_true (by omega : 13 ≤ i), Bool.or_true, Bool.and_true]

theorem getLsbD_keptMask : ∀ i, i < 16 → (0xE0FF : BitVec 16).getLsbD i = (decide (i < 8) || decide (13 ≤ i)) := by decide

/-- An arrival is repeated with its own fields (R43). -/
theorem barrierMsg_arrivalIn (b : BitVec 16) :
    barrierMsg ((arrivalIn b).level == 8) (arrivalIn b).num (arrivalIn b).phase (b.toNat / 16 % 16) (b.toNat % 16) = ⟨4, b &&& 0xE0FF⟩ := by
  have hlt := b.isLt
  have hsum : (if (arrivalIn b).level == 8 then 2 ^ 15 else 0) + (arrivalIn b).num % 2 * 2 ^ 14 + (if (arrivalIn b).phase then 2 ^ 13 else 0) +
      b.toNat / 16 % 16 % 16 * 16 + b.toNat % 16 % 16 = 2 ^ 13 * (b.toNat / 2 ^ 13) + b.toNat % 2 ^ 8 := by
    have hlevel : ((arrivalIn b).level == 8) = b.getLsbD 15 := by
      unfold arrivalIn
      cases b.getLsbD 15 <;> rfl
    have hgrid : (if b.getLsbD 15 then 2 ^ 15 else 0) = b.toNat / 2 ^ 15 * 2 ^ 15 := by
      simp only [← BitVec.testBit_toNat, Nat.testBit_eq_decide_div_mod_eq, decide_eq_true_eq]
      split <;> omega
    have hphase : (if (arrivalIn b).phase then 2 ^ 13 else 0) = b.toNat / 2 ^ 13 % 2 * 2 ^ 13 := by
      simp only [arrivalIn, ← BitVec.testBit_toNat, Nat.testBit_eq_decide_div_mod_eq, decide_eq_true_eq]
      split <;> omega
    have hnum : (arrivalIn b).num = b.toNat / 2 ^ 14 % 2 := by rw [← arrivalIn_eq]
    rw [hlevel, hgrid, hphase, hnum]
    omega
  unfold barrierMsg
  rw [hsum]
  refine congrArg _ (BitVec.eq_of_getLsbD_eq (fun i hi => ?_))
  rw [BitVec.getLsbD_ofNat, testBit_kept, BitVec.getLsbD_and, getLsbD_keptMask i hi, decide_eq_true hi, Bool.true_and]
  rfl

/-- The unit of a barrier arrival counts it in the unit's phase. -/
theorem countArrival_counts {s : State} {a : HeldArrival} {u : BarUnit} (hu : s.units.find? (fun u => u.level == a.level && u.num == a.num) = some u)
    (hmask : u.mask.getLsbD a.origin = true) (hphase : u.phase = a.phase) :
    s.countArrival a = (s.modUnit u.launch a.level a.num (fun x => { x with seen := x.seen ||| ((1 : BitVec 16) <<< a.origin) })).settleBarriers u.launch := by
  have hl : u.level = a.level ∧ u.num = a.num := by simpa using List.find?_some hu
  unfold State.countArrival
  simp only [hu, hmask, hphase, hl.1, hl.2]
  rfl

/-- An arrival without a bound unit is held. -/
theorem countArrival_held {s : State} {a : HeldArrival} (hu : s.units.find? (fun u => u.level == a.level && u.num == a.num) = none) :
    ∃ h, s.countArrival a = { s with heldArrivals := h } ∧ a ∈ h := by
  unfold State.countArrival State.holdArrival
  simp only [hu]
  split
  case isTrue h => exact ⟨s.heldArrivals, rfl, List.contains_iff_mem.mp h⟩
  case isFalse => exact ⟨_, rfl, List.mem_append_right _ (List.mem_singleton.mpr rfl)⟩

/-- The state once the head of the sideband queue has been taken, which its sender is heard by. -/
def State.heard (s : State) (rest : List (Nat × Nat × Sideband)) (q : Nat) : State := (Claims.sidebandTaken s rest).modPeer q (fun p => { p with lastHeard := s.ticks })

/-- An arrival from its origin: one meant for another position is repeated to it, one meant for this package is counted. -/
theorem exec_barrierArrival {s : State} {k l q : Nat} {m : Sideband} {rest : List (Nat × Nat × Sideband)} (h : s.sbRx = (k, l, m) :: rest)
    (ht : m.type.toNat = 4) (hq : peerOfPair s.pos k = some q) (ho : m.body.toNat / 16 % 16 = q) (hne : q ≠ s.pos) :
    exec .barrierArrival s = .next (
      let v := s.heard rest q
      let r := m.body.toNat % 16
      let w := if r ≠ s.pos ∧ r ≠ q then (v.sbTo r ⟨4, m.body &&& 0xE0FF⟩).1 else v
      if r = s.pos then w.countArrival (arrivalIn m.body) else w) := by
  simp only [exec, execBarrierArrival]
  refine (recvSideband_head h ht _).trans (congrArg Host.Outcome.next ?_)
  have harr := arrivalIn_eq m.body
  have hmsg := barrierMsg_arrivalIn m.body
  rw [ho] at harr hmsg
  simp only [← harr] at hmsg
  have hpos : (s.heard rest q).pos = s.pos := rfl
  have hsent (r : Nat) (m : Sideband) : ((s.heard rest q).sbTo r m).1.pos = s.pos := (queues_sbTo ..).pos
  have hsrc : (if q = (Claims.sidebandTaken s rest).pos then Claims.sidebandTaken s rest
      else (Claims.sidebandTaken s rest).modPeer q (fun p => { p with lastHeard := (Claims.sidebandTaken s rest).ticks })) = s.heard rest q := if_neg hne
  simp only [show peerOfPair (Claims.sidebandTaken s rest).pos k = some q from hq, ho, harr, hsrc, hmsg, hpos, true_and, ne_eq]
  by_cases hr : m.body.toNat % 16 = s.pos
  · simp [hr, hne, hpos]
  · by_cases hrq : m.body.toNat % 16 = q <;> simp [hr, hrq, hne, hpos, hsent]

/-! ## Fabric time (R106) -/

/-- The second run of the peer above completes an exchange. -/
theorem takeRun_completes {s : State} {p q began t t1 t2 t3 : Nat} (hup : s.timeUp = some q) (h1 : s.sync.t1 = some t1) (h2 : s.sync.t2 = some t2) (h3 : s.sync.t3 = some t3) :
    Queues (State.correctTime { s with sync := { s.sync with t1 := none, t2 := none, t3 := none } } (Claims.timeOffset t1 t2 t3 t)) (s.takeRun p q began t) := by
  unfold State.takeRun
  rw [if_pos hup, h1, h2, h3]
  exact queues_startRuns ..

theorem correctTime_spec (s : State) (d : Int) :
    (s.correctTime d).mem = s.mem ∧ (s.correctTime d).wgs = s.wgs ∧ (s.correctTime d).sync.run = s.sync.run ∧ (s.correctTime d).sync.t1 = s.sync.t1 ∧
      (s.mg.full = false → (s.correctTime d).ftime = BitVec.ofInt 64 ((s.ftime.toNat : Int) - d)) ∧
      (s.mg.full = true → (s.correctTime d).ftime = s.ftime ∧ (s.correctTime d).sync.slew = s.sync.slew - d) := by
  unfold State.correctTime
  split
  case isTrue h => exact ⟨rfl, rfl, rfl, rfl, fun h' => absurd (h.symm.trans h') (by decide), fun _ => ⟨rfl, rfl⟩⟩
  case isFalse h => exact ⟨rfl, rfl, rfl, rfl, fun _ => rfl, fun h' => absurd h' h⟩

/-- The state at a house frame's start: the last exchange is forgotten. -/
def State.syncForgotten (s : State) : State := { s with sync := { s.sync with t1 := none, t2 := none, t3 := none, run := [] } }

theorem exec_nodeTimeSync (s : State) : ∃ u, exec .nodeTimeSync s = .next (u.at s.nextFrame .nodeTimeSync) ∧ Queues s.syncForgotten u := by
  have hq : Queues s.syncForgotten (if s.syncForgotten.timeMaster = s.syncForgotten.pos
      then s.syncForgotten.startRuns (s.syncForgotten.livePositions.filter (fun q => q != s.syncForgotten.pos && s.syncForgotten.direct q)) else s.syncForgotten) := by
    split
    · exact queues_startRuns ..
    · exact .refl _
  refine ⟨_, ?_, hq⟩
  have hframe := State.nextFrame_congr hq.ftime hq.sync
  exact congrArg (fun n => Host.Outcome.next (State.at _ n .nodeTimeSync)) hframe

/-- The state once the head of the sideband queue has been taken, with these runs being received. -/
def State.receiving (s : State) (rest : List (Nat × Nat × Sideband)) (run : List (Nat × Nat × List (BitVec 16))) : State :=
  { Claims.sidebandTaken s rest with sync := { s.sync with run := run } }

theorem exec_timeSynchronisation_first {s : State} {k l q : Nat} {m : Sideband} {rest : List (Nat × Nat × Sideband)} (h : s.sbRx = (k, l, m) :: rest)
    (ht : m.type.toNat = 6) (hq : peerOfPair s.pos k = some q) (hrun : s.sync.run = []) :
    exec .timeSynchronisation s = .next (s.receiving rest [(k, s.fabric, [m.body])]) := by
  simp only [exec, execTimeSynchronisation]
  refine (recvSideband_head h ht _).trans (congrArg Host.Outcome.next ?_)
  simp only [show peerOfPair (Claims.sidebandTaken s rest).pos k = some q from hq, show (Claims.sidebandTaken s rest).sync.run = [] from hrun]
  rfl

theorem exec_timeSynchronisation_fourth {s : State} {k l q began : Nat} {m : Sideband} {rest : List (Nat × Nat × Sideband)} {a b c : BitVec 16}
    (h : s.sbRx = (k, l, m) :: rest) (ht : m.type.toNat = 6) (hq : peerOfPair s.pos k = some q) (hrun : s.sync.run = [(k, began, [a, b, c])]) :
    exec .timeSynchronisation s =
      .next ((s.receiving rest []).takeRun k q began (((a.toNat * 65536 + b.toNat) * 65536 + c.toNat) * 65536 + m.body.toNat)) := by
  simp only [exec, execTimeSynchronisation]
  refine (recvSideband_head h ht _).trans (congrArg Host.Outcome.next ?_)
  simp only [show peerOfPair (Claims.sidebandTaken s rest).pos k = some q from hq, show (Claims.sidebandTaken s rest).sync.run = [(k, began, [a, b, c])] from hrun]
  simp [State.receiving, Claims.sidebandTaken]

/-! ## Heartbeats (R50, R51, R65) -/

/-- A heartbeat that is sent: the next sequence number, on every working pair. -/
theorem beatOut_spec (s : State) (role : Nat) :
    Queues { s with ft := { s.ft with seq := s.ft.seq + 1 } } (s.beatOut role) ∧ Claims.beatOn s (s.beatOut role) (heartbeatMsg role (s.ft.seq + 1)) :=
  ⟨queues_sbAll _ _, beatOn_sbAll { s with ft := { s.ft with seq := s.ft.seq + 1 } } _⟩

/-- The role that a heartbeat names (R51). -/
def State.ftRole (s : State) : Nat := if s.ft.acting then 1 else if s.livePositions.head? = some s.pos then 0 else 2

theorem exec_heartbeatSend_sends {s : State} (h : s.ftSilenced = false) (hr : s.ft.acting = true ∨ s.livePositions.head? = some s.pos ∨ s.ftStandby = true) :
    exec .heartbeatSend s = .next ((s.beatOut s.ftRole).later 10000 .heartbeatSend) := by
  simp only [exec, execHeartbeatSend, h, State.ftRole]
  by_cases ha : s.ft.acting
  · simp [ha]
  · by_cases hh : s.livePositions.head? = some s.pos
    · simp [ha, hh]
    · have hb : s.ftStandby = true := by simpa [ha, hh] using hr
      simp [ha, hh, hb]

theorem exec_heartbeatSend_quiet {s : State} (h : s.ftSilenced = true ∨ ¬(s.ft.acting = true ∨ s.livePositions.head? = some s.pos ∨ s.ftStandby = true)) :
    exec .heartbeatSend s = .next (s.later 10000 .heartbeatSend) := by
  simp only [exec, execHeartbeatSend]
  rcases h with h | h
  · simp [h]
  · obtain ⟨ha, hh, hb⟩ : ¬s.ft.acting = true ∧ ¬s.livePositions.head? = some s.pos ∧ ¬s.ftStandby = true := by simpa [not_or] using h
    simp [ha, hh, hb]

theorem exec_foldingTableHeartbeat {s : State} {k l q : Nat} {m : Sideband} {rest : List (Nat × Nat × Sideband)} (h : s.sbRx = (k, l, m) :: rest)
    (ht : m.type.toNat = 7) (hrole : m.body.toNat / 16384 < 2) (hq : peerOfPair s.pos k = some q) :
    exec .foldingTableHeartbeat s = .next (({ Claims.sidebandTaken s rest with ft := { s.ft with
      lastPrimary := s.ticks
      silenced := if m.body.toNat / 16384 = 1 then some q else s.ft.silenced
      acting := if m.body.toNat / 16384 = 1 then false else s.ft.acting } } : State).later 30000 .standbyTakeover) := by
  simp only [exec, execFoldingTableHeartbeat]
  refine (recvSideband_head h ht _).trans (congrArg Host.Outcome.next ?_)
  simp only [show peerOfPair (Claims.sidebandTaken s rest).pos k = some q from hq, Nat.reducePow, if_neg (Nat.not_le.mpr hrole)]
  rfl

/-- A standby that takes over sends the calendars again (R65). -/
theorem exec_standbyTakeover_acts {s : State} (hb : s.ftStandby = true) (ha : s.ft.acting = false) (h : s.ft.lastPrimary + 30000 ≤ s.ticks) :
    ∃ t, exec .standbyTakeover s = .next t ∧ Sent (State.beatOut { s with ft := { s.ft with acting := true, silenced := none } } 1) t := by
  refine ⟨_, congrArg Host.Outcome.next (if_neg ?_), .over (fun s e => sent_resendCalendars s e) _ _⟩
  simp [ha, hb, h]

theorem exec_standbyTakeover_waits {s : State} (h : s.ticks < s.ft.lastPrimary + 30000) : exec .standbyTakeover s = .next s :=
  congrArg Host.Outcome.next (if_pos (by rw [decide_eq_true h, Bool.or_true]))

/-! ## The obligation -/

/-- Settles O49: each event's outcome is named by its lemma; messages queued on pairs (`Queues`), the changes of links (`LinksKept`) and packets that are sent (`Sent`) leave what the clauses speak of. -/
theorem linkAndNodeEvents : Obligations.link_and_node_events := by
  unfold Obligations.link_and_node_events
  refine ⟨⟨?failure, ?spare, ?linkstat, ?liveness, ?linkState⟩, ⟨?arrival, ?sync, ?run⟩, ?beat, ?heard, ?takeover⟩
  case failure =>
    intro s p lost hf hl
    obtain ⟨t, ht, hk⟩ := exec_pairFailure (lost := lost) hf hl
    obtain ⟨⟨o, hp, ho⟩, hspare, hnone⟩ := s.pairDown_spec p lost
    have hpair := hk.pair p.val
    rw [hp] at hpair
    refine ⟨t, ht, hpair.failed, hpair.spare, hpair.locks.trans List.map_map, fun hu hs => ?_, fun h => hk.spares.trans (hnone h)⟩
    obtain ⟨hsp, hag⟩ := hspare hu hs
    exact ⟨hk.spares.trans hsp, fun e => ho hu hs (hpair.substituting.symm.trans e), hk.agenda _ hag⟩
  case spare =>
    intro s p h
    obtain ⟨t, ht, hk⟩ := exec_spareSubstitution h
    have hpair := hk.pair p.val
    rw [State.trainPair_pair, State.pair_setPair, if_pos rfl] at hpair
    exact ⟨t, ht, hpair.works.trans (Pair.retrained_works _), hpair.spare, hpair.substituting⟩
  case linkstat =>
    intro s
    refine ⟨_, rfl, State.later_self .., rfl, fun k v hv hnd hlt => ?_⟩
    obtain ⟨h31, h30, hunc, hbits⟩ := linkWord_fields ((v.roll s.frameNum).failedNow && !(v.roll s.frameNum).spareNow) (v.roll s.frameNum).spareNow
      (n := min (v.roll s.frameNum).uncLast 0xFFF) (x := ((v.roll s.frameNum).lanes.map (fun l => if l.2.locked then 2 ^ l.1 else 0)).sum)
      (min_le_right _ _) (by rw [v.roll_lanes]; exact sum_locks_lt hnd hlt)
    refine ⟨_, _, List.mem_map.mpr ⟨(k, v), hv, rfl⟩, rfl, v.roll_lanes _, v.roll_uncLast _, h31.trans (by simp), h30.trans (v.roll_spareNow _), ?_, fun j hj => ?_⟩
    · rw [hunc, v.roll_uncLast]
    · rw [hbits j hj, v.roll_lanes, testBit_locks hnd]
  case liveness =>
    intro s
    exact ⟨_, exec_livenessSend s, (queues_sbAll s _).later_self .., beatOn_sbAll s _, fun q hq => s.linkMask_getLsbD hq⟩
  case linkState =>
    intro s k l q m rest h ht hq hlt
    obtain ⟨d, x, a, p, ht, hp, hbody⟩ := exec_livenessAndLinkState h ht hq hlt
    exact ⟨_, ht, rfl, hp, hbody, rfl, rfl⟩
  case arrival =>
    intro s k l q m rest h ht hq ho hne
    have hexec := exec_barrierArrival h ht hq ho hne
    refine ⟨fun hr hrq => ?_, fun u hr hu hmask hphase => ?_, fun hr hu => ?_⟩
    · have hs := queues_sbTo (s.heard rest q) (m.body.toNat % 16) ⟨4, m.body &&& 0xE0FF⟩
      rw [if_neg hr, if_pos ⟨hr, hrq⟩] at hexec
      refine ⟨_, hexec, fun j hj hw => sbTo_queued _ hj hw, ?_⟩
      obtain ⟨ps, hps⟩ := hs.rest
      rw [hps]
      exact ⟨rfl, rfl, rfl⟩
    · rw [if_pos hr, if_neg (fun hc => hc.1 hr)] at hexec
      subst ho
      exact hexec.trans (congrArg Host.Outcome.next (countArrival_counts (s := s.heard rest _) (a := arrivalIn m.body) hu hmask hphase))
    · rw [if_pos hr, if_neg (fun hc => hc.1 hr)] at hexec
      obtain ⟨hs, he, hmem⟩ := countArrival_held (s := s.heard rest q) (a := arrivalIn m.body) hu
      subst ho
      rw [he] at hexec
      exact ⟨_, hexec, hmem, rfl, rfl⟩
  case sync =>
    intro s
    obtain ⟨u, hexec, hq⟩ := exec_nodeTimeSync s
    refine ⟨_, hexec, ?_⟩
    obtain ⟨ps, rfl⟩ := hq.rest
    exact ⟨rfl, rfl, rfl, rfl, rfl, State.at_self .., rfl, rfl⟩
  case run =>
    intro s k l q began m rest a b c h ht hq
    refine ⟨fun hrun => ⟨_, exec_timeSynchronisation_first h ht hq hrun, rfl, rfl⟩, fun t1 t2 t3 hrun hup h1 h2 h3 => ⟨_, exec_timeSynchronisation_fourth h ht hq hrun, ?_⟩⟩
    have hs := takeRun_completes (s := s.receiving rest []) (p := k) (began := began) (t := ((a.toNat * 65536 + b.toNat) * 65536 + c.toNat) * 65536 + m.body.toNat) hup h1 h2 h3
    rw [hs.sync, hs.mem, hs.wgs, hs.ftime]
    obtain ⟨hmem, hwgs, hr, ht1, hnow, hslew⟩ := correctTime_spec _ _
    exact ⟨hr, ht1, hmem, hwgs, hnow, hslew⟩
  case beat =>
    intro s
    by_cases h : s.ftSilenced = false ∧ (s.ft.acting = true ∨ s.livePositions.head? = some s.pos ∨ s.ftStandby = true)
    · obtain ⟨hs, hr⟩ := h
      obtain ⟨hq, hb⟩ := beatOut_spec s s.ftRole
      exact ⟨_, exec_heartbeatSend_sends hs hr, hq.later_self .., hq.mem, hq.wgs, fun h => absurd (h.symm.trans hs) (by decide), fun _ _ => ⟨congrArg (·.seq) hq.ft, hb⟩⟩
    · have hquiet : s.ftSilenced = true ∨ ¬(s.ft.acting = true ∨ s.livePositions.head? = some s.pos ∨ s.ftStandby = true) := by
        rwa [not_and_or, Bool.not_eq_false] at h
      exact ⟨_, exec_heartbeatSend_quiet hquiet, State.later_self .., rfl, rfl, fun _ => ⟨rfl, rfl⟩, fun hs hr => absurd ⟨hs, hr⟩ h⟩
  case heard =>
    intro s k l q m rest h ht hrole hq
    refine ⟨_, exec_foldingTableHeartbeat h ht hrole hq, rfl, rfl, State.later_self .., fun hone => ?_, fun hzero => ?_⟩
    · exact ⟨if_pos hone, if_pos hone⟩
    · exact ⟨if_neg (by omega), if_neg (by omega)⟩
  case takeover =>
    intro s hb ha
    refine ⟨fun h => ?_, fun h => exec_standbyTakeover_waits h⟩
    obtain ⟨t, ht, rx, tx, rfl⟩ := exec_standbyTakeover_acts hb ha h
    have hq := (beatOut_spec { s with ft := { s.ft with acting := true, silenced := none } } 1).1
    exact ⟨_, ht, congrArg (·.acting) hq.ft, congrArg (·.seq) hq.ft, hq.mem⟩

end Sys2Proof.Machine
end

section
/-! PROOFS. The header flit of a fabric packet gives the packet back (R29). -/

namespace Sys2Proof.Machine

theorem bitNum_lt (b : Bool) : bitNum b < 2 := by cases b <;> decide

theorem bitNum_beq_one (b : Bool) : (bitNum b == 1) = b := by cases b <;> rfl

theorem posF_val (p : Fin 16) : posF p.val = p := Fin.ext (Nat.mod_eq_of_lt p.isLt)

/-- The number of a header with these field values, in the order of R29. -/
def headerNum (a b c d e f g h i j k l m n o p q : Nat) : Nat :=
  a + b * 2 ^ 5 + c * 2 ^ 9 + d * 2 ^ 13 + e * 2 ^ 17 + f * 2 ^ 18 + g * 2 ^ 19 + h * 2 ^ 20 + i * 2 ^ 30 + j * 2 ^ 31 + k * 2 ^ 32 + l * 2 ^ 44 + m * 2 ^ 56
    + n * 2 ^ 64 + o * 2 ^ 88 + p * 2 ^ 136 + q * 2 ^ 156

theorem headerNum_fields {a b c d e f g h i j k l m n o p q : Nat} (ha : a < 2 ^ 5) (hb : b < 16) (hc : c < 16) (hd : d < 16) (he : e < 2) (hf : f < 2) (hg : g < 2)
    (hh : h < 1024) (hi : i < 2) (hj : j < 2) (hk : k < 2 ^ 12) (hl : l < 2 ^ 12) (hm : m < 256) (hn : n < 2 ^ 20) (ho : o < 2 ^ 48) (hp : p < 2 ^ 20) (hq : q < 2 ^ 48) :
    let x := headerNum a b c d e f g h i j k l m n o p q
    x < 2 ^ 256 ∧ x % 2 ^ 5 = a ∧ bitsOf x 5 4 = b ∧ bitsOf x 9 4 = c ∧ bitsOf x 13 4 = d ∧ bitsOf x 17 1 = e ∧ bitsOf x 18 1 = f ∧ bitsOf x 19 1 = g ∧
      bitsOf x 20 10 = h ∧ bitsOf x 30 1 = i ∧ bitsOf x 31 1 = j ∧ bitsOf x 32 12 = k ∧ bitsOf x 44 12 = l ∧ bitsOf x 56 8 = m ∧ bitsOf x 64 20 = n ∧
      bitsOf x 88 48 = o ∧ bitsOf x 136 20 = p ∧ bitsOf x 156 48 = q := by
  unfold headerNum bitsOf
  refine ⟨?_, ?_, ?_, ?_, ?_, ?_, ?_, ?_, ?_, ?_, ?_, ?_, ?_, ?_, ?_, ?_, ?_, ?_⟩ <;> omega

/-- A header flit read back: the fields that it was made with (R29). -/
theorem rawPacket_flitWith (p : Packet) (len op coff : Nat) (pay : List Byte) :
    rawPacket (flitWith p len op coff) pay =
      { p with len := len % 1024, op := BitVec.ofNat 8 (op % 256), coff := BitVec.ofNat 48 (coff % 2 ^ 48), payload := pay, gtags := [], sched := false } := by
  obtain ⟨hlt, h1, h2, h3, h4, h5, h6, h7, h8, h9, h10, h11, h12, h13, h14, h15, h16, h17⟩ :=
    headerNum_fields p.kind.isLt p.src.isLt p.dst.isLt p.via.isLt (bitNum_lt p.hop2) (bitNum_lt p.vc) (bitNum_lt p.rcok) (Nat.mod_lt len (by decide : 0 < 1024))
      (bitNum_lt p.epoch) (bitNum_lt p.replay) p.asid.isLt p.tag.isLt (Nat.mod_lt op (by decide : 0 < 256)) p.obj.isLt p.off.isLt p.cobj.isLt
      (Nat.mod_lt coff (Nat.two_pow_pos 48))
  have hx : (flitWith p len op coff).toNat = headerNum p.kind.toNat p.src.val p.dst.val p.via.val (bitNum p.hop2) (bitNum p.vc) (bitNum p.rcok) (len % 1024)
      (bitNum p.epoch) (bitNum p.replay) p.asid.toNat p.tag.toNat (op % 256) p.obj.toNat p.off.toNat p.cobj.toNat (coff % 2 ^ 48) :=
    (BitVec.toNat_ofNat ..).trans (Nat.mod_eq_of_lt hlt)
  have hkind (x : Nat) (hx : x % 2 ^ 5 = p.kind.toNat) : BitVec.ofNat 5 x = p.kind := BitVec.eq_of_toNat_eq ((BitVec.toNat_ofNat ..).trans hx)
  unfold rawPacket
  dsimp only
  rw [hx, hkind _ h1, h2, h3, h4, h5, h6, h7, h8, h9, h10, h11, h12, h13, h14, h15, h16, h17]
  simp only [posF_val, bitNum_beq_one, BitVec.ofNat_toNat, BitVec.setWidth_eq]

/-! ## The granule tags of a CMIG packet (R200) -/

/-- Bits as a number, the first of them lowest. -/
def bitsNum (bs : List Bool) : Nat := bs.foldr (fun b n => bitNum b + 2 * n) 0

theorem testBit_bitsNum (bs : List Bool) (k : Nat) : (bitsNum bs).testBit k = bs.getD k false := by
  induction bs generalizing k with
  | nil => simp [bitsNum]
  | cons b bs ih =>
    have hb : bitsNum (b :: bs) = 2 * bitsNum bs + bitNum b := Nat.add_comm ..
    cases k with
    | zero => 
      rw [hb, Nat.testBit_zero]
      cases b <;> simp [bitNum]
    | succ k =>
      rw [hb, Nat.testBit_succ, show (2 * bitsNum bs + bitNum b) / 2 = bitsNum bs by have := bitNum_lt b; omega, ih]
      rfl

theorem bitsNum_lt (bs : List Bool) : bitsNum bs < 2 ^ bs.length := by
  induction bs with
  | nil => decide
  | cons b bs ih =>
    have hb : bitsNum (b :: bs) = 2 * bitsNum bs + bitNum b := Nat.add_comm ..
    have := bitNum_lt b
    rw [hb, List.length_cons, Nat.pow_succ]
    omega

/-- COFF of a CMIG packet: 32 granule tags above the low bits of its place. -/
theorem getLsbD_coff (bs : List Bool) {x : Nat} (hx : x < 2 ^ 16) {k : Nat} (hk : k < 32) :
    (BitVec.ofNat 48 ((bitsNum bs * 2 ^ 16 + x) % 2 ^ 48)).getLsbD (16 + k) = bs.getD k false := by
  rw [BitVec.getLsbD_ofNat, decide_eq_true (by omega : 16 + k < 48), Bool.true_and, Nat.testBit_mod_two_pow, decide_eq_true (by omega : 16 + k < 48), Bool.true_and,
    Nat.mul_comm, Nat.testBit_two_pow_mul_add _ hx, if_neg (by omega), Nat.add_sub_cancel_left, testBit_bitsNum]

/-! ## Header and packet -/

theorem noPayload_iff (kind : BitVec 5) : noPayload kind = true ↔ kind = 0x01 ∨ kind = 0x0C := by
  simp [noPayload]

theorem headerPacket_headerFlit_noPayload {p : Packet} (h : noPayload p.kind = true) (hlen : p.len < 1024) (hcoff : p.coff = 0) (htags : p.gtags = []) (hs : p.sched = false) :
    headerPacket (headerFlit p) p.payload = p := by
  have hl : p.len % 2 ^ 48 = p.len := Nat.mod_eq_of_lt (by omega)
  have ho : p.op.toNat % 256 = p.op.toNat := Nat.mod_eq_of_lt p.op.isLt
  rw [headerFlit, if_pos h, headerPacket, rawPacket_flitWith]
  simp only [h, if_true, hl, ho, BitVec.ofNat_toNat, BitVec.setWidth_eq, BitVec.toNat_ofNat]
  rw [← hcoff, ← htags, ← hs]

theorem headerPacket_headerFlit_cmig {p : Packet} (h : p.kind = 0x10#5) (hlen : p.len < 1024) (hop : p.op = 0) (hunit : p.coff.toNat % 512 = 0) (hcoff : p.coff.toNat < 2 ^ 33)
    (htags : p.gtags.length = 32) (hs : p.sched = false) : headerPacket (headerFlit p) p.payload = p := by
  have hn : noPayload p.kind = false := by rw [h]; decide
  have hfold : (p.gtags.take 32).foldr (fun b n => bitNum b + 2 * n) 0 = bitsNum p.gtags := by rw [List.take_of_length_le htags.le]; rfl
  have hbits := bitsNum_lt p.gtags
  rw [htags] at hbits
  have hgtags : (List.range 32).map (fun k => (BitVec.ofNat 48 ((bitsNum p.gtags * 2 ^ 16 + p.coff.toNat / 512 % 2 ^ 16) % 2 ^ 48)).getLsbD (16 + k)) = p.gtags := by
    refine List.ext_getElem (by simp [htags]) (fun k hk hk' => ?_)
    rw [List.getElem_map, List.getElem_range, getLsbD_coff _ (Nat.mod_lt _ (by decide)) (by simpa using hk), List.getD_eq_getElem _ _ hk']
  have hplace : BitVec.ofNat 48 ((p.coff.toNat / 512 / 2 ^ 16 % 256 % 2 ^ 8 * 2 ^ 16 + (bitsNum p.gtags * 2 ^ 16 + p.coff.toNat / 512 % 2 ^ 16) % 2 ^ 48 % 2 ^ 48 % 2 ^ 16) * 512) = p.coff := by
    apply BitVec.eq_of_toNat_eq
    rw [BitVec.toNat_ofNat]
    omega
  rw [headerFlit, if_neg (by rw [hn]; decide), if_pos h, hfold, headerPacket, rawPacket_flitWith]
  simp only [hn, Bool.false_eq_true, if_false, if_pos h, BitVec.toNat_ofNat, hgtags, hplace, Nat.mod_eq_of_lt hlen]
  rw [← hop, ← hs]

theorem headerPacket_headerFlit_plain {p : Packet} (h : noPayload p.kind = false) (h' : p.kind ≠ 0x10#5) (hlen : p.len < 1024) (htags : p.gtags = []) (hs : p.sched = false) :
    headerPacket (headerFlit p) p.payload = p := by
  have ho : p.op.toNat % 256 = p.op.toNat := Nat.mod_eq_of_lt p.op.isLt
  have hc : p.coff.toNat % 2 ^ 48 = p.coff.toNat := Nat.mod_eq_of_lt p.coff.isLt
  rw [headerFlit, if_neg (by rw [h]; decide), if_neg h', headerPacket, rawPacket_flitWith]
  simp only [h, Bool.false_eq_true, if_false, if_neg h', ho, hc, BitVec.ofNat_toNat, BitVec.setWidth_eq, Nat.mod_eq_of_lt hlen]
  rw [← htags, ← hs]

/-- A packet's header flit and payload give the packet back (R29). -/
theorem headerPacket_headerFlit {p : Packet} (hlen : p.len < 1024) (hs : p.sched = false) (hcoff : p.kind = 0x01 ∨ p.kind = 0x0C → p.coff = 0)
    (hcmig : p.kind = 0x10 → p.gtags.length = 32 ∧ p.op = 0 ∧ p.coff.toNat % 512 = 0 ∧ p.coff.toNat < 2 ^ 33) (htags : p.kind ≠ 0x10 → p.gtags = []) :
    headerPacket (headerFlit p) p.payload = p := by
  by_cases h : p.kind = 0x10#5
  · obtain ⟨hg, hop, hunit, hlt⟩ := hcmig h
    exact headerPacket_headerFlit_cmig h hlen hop hunit hlt hg hs
  · cases hn : noPayload p.kind with
    | true => exact headerPacket_headerFlit_noPayload hn hlen (hcoff ((noPayload_iff _).mp hn)) (htags h) hs
    | false => exact headerPacket_headerFlit_plain hn h hlen (htags h) hs

end Sys2Proof.Machine
end

section
/-! PROOFS. Codewords of a lane: sending, acknowledgement, replay, credit and reception (O48). -/

namespace Sys2Proof.Machine

/-! ## The lanes of a pair -/

/-- Change one lane of a pair. -/
def Pair.modLane (v : Pair) (l : Nat) (f : Lane → Lane) : Pair := { v with lanes := v.lanes.map (fun x => if x.1 == l then (x.1, f x.2) else x) }

theorem State.pair_modLane (s : State) (p l : Nat) (f : Lane → Lane) (k : Nat) :
    (s.modLane p l f).pair k = if k = p then (s.pair p).modLane l f else s.pair k := State.pair_setPair ..

theorem State.pair_modLane_same (s : State) (p l : Nat) (f : Lane → Lane) : (s.modLane p l f).pair p = (s.pair p).modLane l f := by
  rw [State.pair_modLane, if_pos rfl]

theorem Pair.lane_modLane (v : Pair) (l : Nat) (f : Lane → Lane) : (v.modLane l f).lane l = (v.lane l).map f := by
  unfold Pair.modLane Pair.lane
  generalize v.lanes = xs
  induction xs with
  | nil => rfl
  | cons x xs ih => by_cases hx : x.1 = l <;> simp_all

/-- A lane after a change of its own. -/
theorem State.lane_modLane {s : State} {p l : Nat} {y : Lane} (h : (s.pair p).lane l = some y) (f : Lane → Lane) :
    ((s.modLane p l f).pair p).lane l = some (f y) := by
  rw [State.pair_modLane_same, Pair.lane_modLane, h]; rfl

theorem Pair.lanes_ne_of_lane {v : Pair} {l : Nat} {y : Lane} (h : v.lane l = some y) : v.lanes ≠ [] := by
  intro e
  simp [Pair.lane, e] at h

theorem Pair.modLane_lanes_ne {v : Pair} (h : v.lanes ≠ []) (l : Nat) (f : Lane → Lane) : (v.modLane l f).lanes ≠ [] := by
  simpa [Pair.modLane] using h

/-- A queued sideband message leaves every lane but its queue of messages. -/
theorem State.lane_sbOn (s : State) (p : Nat) (m : Sideband) (l : Nat) :
    ∃ g : Lane → Lane, ((s.sbOn p m).pair p).lane l = ((s.pair p).lane l).map g ∧ ∀ y, ∃ q, g y = { y with sbQ := q } := by
  unfold State.sbOn Pair.lane
  dsimp only
  rw [State.pair_setPair, if_pos rfl]
  cases (s.pair p).lanes with
  | nil => exact ⟨id, rfl, fun y => ⟨y.sbQ, rfl⟩⟩
  | cons x xs =>
    dsimp only
    by_cases hx : x.1 = l
    · exact ⟨fun y => { y with sbQ := y.sbQ ++ [m] }, by simp [hx], fun y => ⟨_, rfl⟩⟩
    · exact ⟨id, by simp [hx], fun y => ⟨y.sbQ, rfl⟩⟩

/-! ## What a lane takes to send (R25, R31) -/

/-- From s to t packets have been taken to be sent, and nothing else has changed but the lanes and credits of pairs. -/
def Taken (s t : State) : Prop := ∃ q d ps so tr, t = { s with txq := q, detoured := d, pairs := ps, soTx := so, tray := tr }

theorem Taken.refl (s : State) : Taken s s := ⟨s.txq, s.detoured, s.pairs, s.soTx, s.tray, rfl⟩

theorem Taken.trans {s t u : State} (h : Taken s t) (h' : Taken t u) : Taken s u := by
  obtain ⟨_, _, _, _, _, rfl⟩ := h
  obtain ⟨q, d, ps, so, tr, rfl⟩ := h'
  exact ⟨q, d, ps, so, tr, rfl⟩

theorem taken_modLane (s : State) (p l : Nat) (f : Lane → Lane) : Taken s (s.modLane p l f) := ⟨s.txq, s.detoured, _, s.soTx, s.tray, rfl⟩

theorem taken_leaves (s : State) (k : Packet) : Taken s (s.leaves k) := by
  unfold State.leaves
  dsimp only
  split
  · exact ⟨_, _, _, _, _, rfl⟩
  · exact ⟨_, _, _, _, _, rfl⟩

theorem taken_setPair (s : State) (p : Nat) (v : Pair) : Taken s (s.setPair p v) := ⟨s.txq, s.detoured, _, s.soTx, s.tray, rfl⟩

theorem taken_takeNext {s t : State} {p : Nat} {fs : List (BitVec 256)} (h : s.takeNext p = some (fs, t)) : Taken s t := by
  unfold State.takeNext at h
  split at h
  case h_1 =>
    dsimp only at h
    split at h
    · cases h
    · cases h
      exact (taken_leaves ..).trans (taken_setPair ..)
  case h_2 =>
    split at h
    · cases h
    · cases h
      exact ⟨_, _, _, _, _, rfl⟩
  case h_3 =>
    split at h
    · cases h
    · cases h
      exact ⟨_, _, _, _, _, rfl⟩
  case h_4 => cases h

theorem taken_feedLane (p l : Nat) (n : Nat) (s : State) : Taken s (State.feedLane p l n s) := by
  induction n generalizing s with
  | zero => exact .refl s
  | succ n ih =>
    unfold State.feedLane
    split
    · exact .refl s
    · split
      · exact .refl s
      · split
        · exact .refl s
        · exact (taken_takeNext ‹_›).trans ((taken_modLane ..).trans (ih _))

/-- A lane at which enough flits wait, or for which no packet can be taken, takes none. -/
theorem State.feedLane_full {s : State} {p l : Nat} {y : Lane} (h : (s.pair p).lane l = some y) (hf : 20 ≤ y.txFlits.length ∨ s.takeNext p = none) (n : Nat) :
    State.feedLane p l n s = s := by
  cases n with
  | zero => rfl
  | succ n =>
    unfold State.feedLane
    rw [h]
    rcases hf with hf | hf
    · exact if_pos hf
    · simp only [hf, ite_self]

/-- On a fabric pair, the one packet that waits for its peer is taken when the pair holds the credit (R31). -/
theorem State.takeNext_fabric {s : State} {p q : Nat} {k : Packet} (hu : s.pairUse p = .fabric q) (hq : s.txq = [k]) (hh : s.hop k = q) (hv : k.vc = false)
    (hc : (packetFlits k).length ≤ (s.pair p).credit0) :
    s.takeNext p = some (packetFlits k, (s.leaves k).setPair p { s.pair p with credit0 := (s.pair p).credit0 - (packetFlits k).length }) := by
  unfold State.takeNext
  rw [hu]
  cases hs : k.sched <;> simp [hq, hh, hv, hc, hs]

theorem State.takeNext_empty {s : State} {p q : Nat} (hu : s.pairUse p = .fabric q) (hq : s.txq = []) : s.takeNext p = none := by
  unfold State.takeNext
  rw [hu]
  simp [hq]

theorem State.leaves_txq (s : State) (k : Packet) : (s.leaves k).txq = s.txq.erase k := by
  unfold State.leaves
  dsimp only
  split <;> rfl

/-- A lane's record once flits have been taken for it, the last of which goes into the codeword of this sequence number. -/
def Lane.take (seq : Nat) (fs : List (BitVec 256)) (y : Lane) : Lane := { y with txFlits := y.txFlits ++ fs, carried := y.carried ++ [(seq, fs)] }

theorem State.feedLane_take {s u : State} {p l : Nat} {y : Lane} {fs : List (BitVec 256)} (h : (s.pair p).lane l = some y) (hf : y.txFlits.length < 20)
    (ht : s.takeNext p = some (fs, u)) (n : Nat) :
    State.feedLane p l (n + 1) s =
      State.feedLane p l n (u.modLane p l (Lane.take ((y.nextSeq.toNat + (y.txFlits.length + fs.length - 1) / 20) % 4096) fs)) := by
  conv_lhs => unfold State.feedLane
  rw [h]
  simp only [ht]
  rw [if_neg (by omega)]
  rfl

/-- A lane at which no flits wait takes the one packet that waits for its peer. -/
theorem State.feedLane_one {s : State} {p l q : Nat} {y : Lane} {k : Packet} (h : (s.pair p).lane l = some y) (hy : y.txFlits = []) (hu : s.pairUse p = .fabric q)
    (hq : s.txq = [k]) (hh : s.hop k = q) (hv : k.vc = false) (hc : (packetFlits k).length ≤ (s.pair p).credit0) (n : Nat) :
    ∃ seq t, State.feedLane p l (n + 1) s = t ∧ t.txq = [] ∧ (t.pair p).credit0 = (s.pair p).credit0 - (packetFlits k).length ∧
      (t.pair p).lane l = some (y.take seq (packetFlits k)) := by
  have htake := State.takeNext_fabric hu hq hh hv hc
  have hpair : ((s.leaves k).setPair p { s.pair p with credit0 := (s.pair p).credit0 - (packetFlits k).length }).pair p = _ := (State.pair_setPair ..).trans (if_pos rfl)
  have htxq : ((s.leaves k).setPair p { s.pair p with credit0 := (s.pair p).credit0 - (packetFlits k).length }).txq = [] := by
    refine (s.leaves_txq k).trans ?_
    rw [hq]
    exact List.erase_cons_head ..
  have huse : ((s.leaves k).setPair p { s.pair p with credit0 := (s.pair p).credit0 - (packetFlits k).length }).pairUse p = .fabric q := by
    obtain ⟨_, _, _, _, _, he⟩ := taken_takeNext htake
    rw [he]
    exact hu
  generalize (s.leaves k).setPair p { s.pair p with credit0 := (s.pair p).credit0 - (packetFlits k).length } = u at htake hpair htxq huse
  have hlane : (u.pair p).lane l = some y := by rw [hpair]; exact h
  have hfed := State.lane_modLane hlane (Lane.take ((y.nextSeq.toNat + (y.txFlits.length + (packetFlits k).length - 1) / 20) % 4096) (packetFlits k))
  refine ⟨_, _, (State.feedLane_take h (by rw [hy]; decide) htake n).trans (State.feedLane_full hfed (.inr (State.takeNext_empty huse htxq)) n), htxq, ?_, hfed⟩
  rw [State.pair_modLane_same]
  exact congrArg Pair.credit0 hpair

/-! ## Sending (R25) -/

/-- A lane's record once its next codeword has been sent. -/
def Lane.sent (y : Lane) : Lane :=
  { y with nextSeq := y.nextSeq + 1, txFlits := y.txFlits.drop 20, sbQ := y.sbQ.drop 1,
           replay := y.replay ++ [⟨y.nextSeq, false, y.txFlits.take 20, y.sbQ.headD ⟨0, 0⟩⟩] }

/-- A lane's record once the first codeword that was asked for again has been sent. -/
def Lane.resent (y : Lane) : Lane :=
  match y.replay.find? (·.replay) with
  | none => y
  | some c => { y with replay := y.replay.map (fun d => if d.seq == c.seq then { d with replay := false } else d) }

/-- The state once a lane has sent a codeword. -/
def State.laneSent (s : State) (p l : Nat) (y : Lane) : State :=
  if y.replay.any (·.replay) then s.modLane p l Lane.resent else (State.feedLane p l 20 s).modLane p l Lane.sent

theorem exec_laneCodewordSend {s : State} {p : Fin 64} {l : Fin 16} {y : Lane} (h : (s.pair p.val).lane l.val = some y) (hl : y.locked = true)
    (hf : (s.pair p.val).failedNow = false) : exec (.laneCodewordSend p l) s = .next ((s.laneSent p.val l.val y).later 85 (.laneCodewordSend p l)) := by
  simp only [exec, execLaneCodewordSend, h, hl, hf]
  rfl

theorem taken_laneSent (s : State) (p l : Nat) (y : Lane) : Taken s (s.laneSent p l y) := by
  unfold State.laneSent
  split
  · exact taken_modLane ..
  · exact (taken_feedLane ..).trans (taken_modLane ..)

theorem any_replay_eq_false {cs : List Codeword} (h : ∀ c ∈ cs, c.replay = false) : cs.any (·.replay) = false := by
  simpa using h

/-- What a lane takes for its next codeword, and the codeword. -/
theorem State.laneSent_next (s : State) {p l : Nat} {y : Lane} (h : ∀ c ∈ y.replay, c.replay = false) :
    s.laneSent p l y = (State.feedLane p l 20 s).modLane p l Lane.sent :=
  if_neg (by rw [any_replay_eq_false h]; decide)

theorem State.laneSent_again {s : State} {p l : Nat} {y : Lane} (h : (s.pair p).lane l = some y) {c : Codeword} (hc : y.replay.find? (·.replay) = some c) :
    ((s.laneSent p l y).pair p).lane l = some { y with replay := y.replay.map (fun d => if d.seq == c.seq then { d with replay := false } else d) } := by
  have hany : y.replay.any (·.replay) = true := List.any_eq_true.mpr ⟨c, List.mem_of_find?_eq_some hc, List.find?_some hc⟩
  rw [State.laneSent, if_pos hany, State.lane_modLane h, Lane.resent, hc]

/-! ## Acknowledgement, replay and credit (R25, R31) -/

theorem takeWhile_ne_seq {before : List Codeword} {seq : BitVec 12} (h : ∀ d ∈ before, d.seq ≠ seq) {c : Codeword} (hc : c.seq = seq) (after : List Codeword) :
    (before ++ c :: after).takeWhile (fun d => d.seq != seq) = before := by
  rw [List.takeWhile_append_of_pos (by simpa using h), List.takeWhile_cons_of_neg (by simpa using hc), List.append_nil]

/-- A lane's record once the codewords up to one of this sequence number are acknowledged. -/
def Lane.acked (seq : BitVec 12) (y : Lane) : Lane :=
  if !y.replay.any (fun c => c.seq == seq) then y
  else
    let gone := y.replay.takeWhile (fun c => c.seq != seq)
    let acked := gone.map (·.seq.toNat) ++ [seq.toNat]
    { y with replay := y.replay.drop (gone.length + 1), carried := y.carried.filter (fun c => !acked.contains c.1) }

/-- A lane's record once the codewords from one of this sequence number on are asked for again. -/
def Lane.askedFrom (seq : BitVec 12) (y : Lane) : Lane :=
  let ok := y.replay.takeWhile (fun c => c.seq != seq)
  { y with replay := ok ++ (y.replay.drop ok.length).map (fun c => { c with replay := true }) }

theorem exec_laneAcknowledgement {s : State} {k ln : Nat} {m : Sideband} {rest : List (Nat × Nat × Sideband)} (h : s.sbRx = (k, ln, m) :: rest) (ht : m.type.toNat = 1) :
    exec .laneAcknowledgement s = .next ((Claims.sidebandTaken s rest).modLane k (m.body.toNat / 4096) (Lane.acked (m.body.setWidth 12))) :=
  recvSideband_head h ht (fun pair _ m s => s.modLane pair (m.body.toNat / 4096) (Lane.acked (m.body.setWidth 12)))

theorem exec_laneReplay {s : State} {k ln : Nat} {m : Sideband} {rest : List (Nat × Nat × Sideband)} (h : s.sbRx = (k, ln, m) :: rest) (ht : m.type.toNat = 2) :
    exec .laneReplay s = .next ((Claims.sidebandTaken s rest).modLane k (m.body.toNat / 4096) (Lane.askedFrom (m.body.setWidth 12))) :=
  recvSideband_head h ht (fun pair _ m s => s.modLane pair (m.body.toNat / 4096) (Lane.askedFrom (m.body.setWidth 12)))

/-- An acknowledgement frees the codewords up to the one that it names. -/
theorem Lane.acked_replay {y : Lane} {c : Codeword} {before after : List Codeword} (hr : y.replay = before ++ c :: after) (hb : ∀ d ∈ before, d.seq ≠ c.seq) :
    (y.acked c.seq).replay = after := by
  unfold Lane.acked
  rw [hr, takeWhile_ne_seq hb rfl, if_neg (by simp)]
  simp

/-- A replay message marks the codewords from the one that it names on. -/
theorem Lane.askedFrom_eq {y : Lane} {c : Codeword} {before after : List Codeword} (hr : y.replay = before ++ c :: after) (hb : ∀ d ∈ before, d.seq ≠ c.seq) :
    y.askedFrom c.seq = { y with replay := before ++ (c :: after).map (fun d => { d with replay := true }) } := by
  unfold Lane.askedFrom
  rw [hr, takeWhile_ne_seq hb rfl]
  dsimp only
  rw [List.drop_left]

/-- A pair's record once credit has come back (R31). -/
def Pair.credited (v : Pair) (body : BitVec 16) : Pair :=
  if body.getLsbD 15 then { v with credit1 := v.credit1 + body.toNat % 2 ^ 15 } else { v with credit0 := v.credit0 + body.toNat % 2 ^ 15 }

theorem exec_creditReturn {s : State} {k ln : Nat} {m : Sideband} {rest : List (Nat × Nat × Sideband)} (h : s.sbRx = (k, ln, m) :: rest) (ht : m.type.toNat = 3) :
    exec .creditReturn s = .next ((Claims.sidebandTaken s rest).setPair k ((s.pair k).credited m.body)) :=
  recvSideband_head h ht (fun pair _ m s => s.setPair pair ((s.pair pair).credited m.body))

theorem Pair.credited_fields (v : Pair) (body : BitVec 16) :
    (v.credited body).credit0 = v.credit0 + (if body.getLsbD 15 then 0 else body.toNat % 32768) ∧
      (v.credited body).credit1 = v.credit1 + (if body.getLsbD 15 then body.toNat % 32768 else 0) ∧ (v.credited body).lanes = v.lanes := by
  unfold Pair.credited
  cases body.getLsbD 15 <;> exact ⟨rfl, rfl, rfl⟩

/-! ## Reception (R25, R26) -/

theorem Pair.lane_roll (v : Pair) (n l : Nat) : (v.roll n).lane l = v.lane l := by unfold Pair.lane; rw [Pair.roll_lanes]

theorem Pair.roll_uncNow (v : Pair) (n : Nat) : (v.roll n).uncNow = if v.frame = n then v.uncNow else 0 := by unfold Pair.roll; split <;> rfl

/-- The packets of a tray link whose turn has come change its receive queues, the filter and the count of link errors alone. -/
def TrayMoved (s t : State) : Prop := ∃ e f r tr, t = { s with linkErrors := e, performed := f, trayRx := r, tray := tr }

theorem TrayMoved.refl (s : State) : TrayMoved s s := ⟨s.linkErrors, s.performed, s.trayRx, s.tray, rfl⟩

theorem TrayMoved.trans {s t u : State} (h : TrayMoved s t) (h' : TrayMoved t u) : TrayMoved s u := by
  obtain ⟨_, _, _, _, rfl⟩ := h
  obtain ⟨e, f, r, tr, rfl⟩ := h'
  exact ⟨e, f, r, tr, rfl⟩

theorem TrayMoved.over {α : Type} {f : State → α → State} (h : ∀ s x, TrayMoved s (f s x)) (xs : List α) (s : State) : TrayMoved s (s.over xs f) := by
  induction xs generalizing s with
  | nil => exact .refl s
  | cons x xs ih => exact (h s x).trans (ih _)

theorem trayMoved_deliverTray (s : State) (k : Nat) (p : Packet) : TrayMoved s (s.deliverTray k p) := by
  unfold State.deliverTray
  split
  · exact ⟨_, _, _, _, rfl⟩
  · split
    · exact .over (fun s r => ⟨s.linkErrors, s.performed, s.trayRx, _, rfl⟩) _ s
    · exact ⟨_, _, _, _, rfl⟩

theorem trayMoved_trayFlush (s : State) (p k : Nat) : TrayMoved s (s.trayFlush p k) :=
  .trans ⟨s.linkErrors, s.performed, s.trayRx, _, rfl⟩ (.over (fun s (e : BitVec 12 × Nat × Packet) => trayMoved_deliverTray s k e.2.2) _ _)

/-- The state once the packets of a pair's tray link whose turn has come are delivered. -/
def State.flushed (s : State) (p : Nat) : State :=
  match s.pairUse p with
  | .tray k => s.trayFlush p k
  | _ => s

theorem trayMoved_flushed (s : State) (p : Nat) : TrayMoved s (s.flushed p) := by
  unfold State.flushed
  split
  · exact trayMoved_trayFlush ..
  · exact .refl s

/-- A lane without received flits has no packet to deliver. -/
theorem State.assemble_none {s : State} {p l : Nat} {y : Lane} (h : (s.pair p).lane l = some y) (hy : y.rxFlits = []) (seq : BitVec 12) (n : Nat) :
    State.assemble p l seq n s = s := by
  cases n with
  | zero => rfl
  | succ n =>
    unfold State.assemble
    rw [h]
    dsimp only
    rw [hy]

/-- The acknowledgement of a codeword of this sequence number, and the message that asks for it and all after it again (R25, R28). -/
def ackMsg (l : Nat) (seq : BitVec 12) : Sideband := ⟨1, BitVec.ofNat 16 (l * 4096 + seq.toNat)⟩
def againMsg (l : Nat) (seq : BitVec 12) : Sideband := ⟨2, BitVec.ofNat 16 (l * 4096 + seq.toNat)⟩

/-- A lane's record once it has taken a codeword in sequence. -/
def Lane.received (fs : List (BitVec 256)) (y : Lane) : Lane := { y with rxSeq := y.rxSeq + 1, discarding := false, rxFlits := y.rxFlits ++ fs }

/-- The state once a codeword in sequence has been taken and acknowledged, before its packets are put together. -/
def State.codewordIn (s : State) (p l : Nat) (cw : Codeword) : State :=
  let s := (s.modLane p l (Lane.received cw.flits)).sbOn p (ackMsg l cw.seq)
  let s := match s.pairUse p with
    | .fabric q => s.modPeer q (fun x => { x with lastHeard := s.ticks })
    | _ => s
  if cw.msg.type.toNat < 8 then { s with sbRx := s.sbRx ++ [(p, l, cw.msg)] } else s

theorem exec_codewordReceive_in {s : State} {p : Fin 64} {l : Fin 16} {y : Lane} {cw : Codeword} (h : (s.pair p.val).lane l.val = some y) (hl : y.locked = true)
    (hf : (s.pair p.val).failedNow = false) (hs : cw.seq = y.rxSeq) :
    exec (.codewordReceive p l cw true) s = .next ((State.assemble p.val l.val cw.seq 24 (s.codewordIn p.val l.val cw)).flushed p.val) := by
  simp only [exec, execCodewordReceive, h, hl, hf, Bool.not_true, Bool.or_self, Bool.false_eq_true, if_false, if_pos hs]
  rfl

theorem exec_codewordReceive_old {s : State} {p : Fin 64} {l : Fin 16} {y : Lane} {cw : Codeword} (h : (s.pair p.val).lane l.val = some y) (hl : y.locked = true)
    (hf : (s.pair p.val).failedNow = false) (hs : cw.seq ≠ y.rxSeq) (hd : (y.rxSeq - cw.seq).toNat < 2048) :
    exec (.codewordReceive p l cw true) s = .next (s.sbOn p.val (ackMsg l.val cw.seq)) := by
  simp only [exec, execCodewordReceive, h, hl, hf, Bool.not_true, Bool.or_self, Bool.false_eq_true, if_false, if_neg hs, if_pos hd]
  rfl

theorem exec_codewordReceive_ahead {s : State} {p : Fin 64} {l : Fin 16} {y : Lane} {cw : Codeword} (h : (s.pair p.val).lane l.val = some y) (hl : y.locked = true)
    (hf : (s.pair p.val).failedNow = false) (hy : y.discarding = false) (hs : cw.seq ≠ y.rxSeq) (hd : 2048 ≤ (y.rxSeq - cw.seq).toNat) :
    exec (.codewordReceive p l cw true) s = .next (s.askReplay p.val l.val y) := by
  simp only [exec, execCodewordReceive, h, hl, hf, Bool.not_true, Bool.or_self, Bool.false_eq_true, if_false, if_neg hs, if_neg (Nat.not_lt.mpr hd), hy]

/-- The state once a bad codeword has been counted and asked for again. -/
def State.codewordBad (s : State) (p l : Nat) (y : Lane) : State :=
  let v := (s.pair p).roll s.frameNum
  (s.setPair p { v with uncNow := v.uncNow + 1 }).askReplay p l y

theorem exec_codewordReceive_bad {s : State} {p : Fin 64} {l : Fin 16} {y : Lane} {cw : Codeword} (h : (s.pair p.val).lane l.val = some y) (hl : y.locked = true)
    (hf : (s.pair p.val).failedNow = false) :
    exec (.codewordReceive p l cw false) s = .next (
      if 16 ≤ ((s.pair p.val).roll s.frameNum).uncNow + 1 then (s.codewordBad p.val l.val y).later 0 (.pairFailure ⟨p, 0⟩) else s.codewordBad p.val l.val y) := by
  simp only [exec, execCodewordReceive, h, hl, hf, Bool.not_true, Bool.not_false, Bool.or_self, Bool.false_eq_true, if_false, if_true]
  rfl

/-- What asking for a codeword again leaves and does. -/
theorem State.askReplay_spec {s : State} {p l : Nat} {y : Lane} (h : (s.pair p).lane l = some y) :
    Claims.queuedOn (s.askReplay p l y) p (againMsg l y.rxSeq) ∧ (((s.askReplay p l y).pair p).lane l).map (·.discarding) = some true ∧
      ((s.askReplay p l y).pair p).uncNow = (s.pair p).uncNow ∧ ∃ ps, s.askReplay p l y = { s with pairs := ps } := by
  let u := s.modLane p l (fun y => { y with discarding := true })
  have hlane : (u.pair p).lane l = some { y with discarding := true } := State.lane_modLane h _
  obtain ⟨g, hg, hq⟩ := u.lane_sbOn p (againMsg l y.rxSeq) l
  refine ⟨sbOn_queued _ (Pair.lanes_ne_of_lane hlane), ?_, ?_, ⟨_, rfl⟩⟩
  · refine (congrArg _ hg).trans ?_
    rw [hlane]
    obtain ⟨q, he⟩ := hq { y with discarding := true }
    exact congrArg some (congrArg Lane.discarding he)
  · exact (congrArg Pair.uncNow ((State.pair_setPair ..).trans (if_pos rfl))).trans (congrArg Pair.uncNow (s.pair_modLane_same p l _) :)

/-- What a bad codeword leaves and does. -/
theorem State.codewordBad_spec {s : State} {p l : Nat} {y : Lane} (h : (s.pair p).lane l = some y) :
    Claims.queuedOn (s.codewordBad p l y) p (againMsg l y.rxSeq) ∧ (((s.codewordBad p l y).pair p).lane l).map (·.discarding) = some true ∧
      ((s.codewordBad p l y).pair p).uncNow = (if (s.pair p).frame = s.frameNum then (s.pair p).uncNow else 0) + 1 ∧ ∃ ps, s.codewordBad p l y = { s with pairs := ps } := by
  let v := (s.pair p).roll s.frameNum
  have hpair : (s.setPair p { v with uncNow := v.uncNow + 1 }).pair p = { v with uncNow := v.uncNow + 1 } := (State.pair_setPair ..).trans (if_pos rfl)
  have hlane : ((s.setPair p { v with uncNow := v.uncNow + 1 }).pair p).lane l = some y := by
    rw [hpair]
    exact ((s.pair p).lane_roll s.frameNum l).trans h
  obtain ⟨hq, hdisc, hunc, ps, hps⟩ := State.askReplay_spec hlane
  refine ⟨hq, hdisc, hunc.trans ((congrArg Pair.uncNow hpair).trans (congrArg (· + 1) (Pair.roll_uncNow ..))), ps, hps⟩

/-- What taking a codeword in sequence leaves and does. -/
theorem State.codewordIn_spec {s : State} {p l : Nat} {y : Lane} {cw : Codeword} (h : (s.pair p).lane l = some y) :
    Claims.queuedOn (s.codewordIn p l cw) p (ackMsg l cw.seq) ∧ (∃ q, ((s.codewordIn p l cw).pair p).lane l = some { y.received cw.flits with sbQ := q }) ∧
      (s.codewordIn p l cw).sbRx = (if cw.msg.type.toNat < 8 then s.sbRx ++ [(p, l, cw.msg)] else s.sbRx) := by
  let u := s.modLane p l (Lane.received cw.flits)
  have hlane : (u.pair p).lane l = some (y.received cw.flits) := State.lane_modLane h _
  obtain ⟨g, hg, hq⟩ := u.lane_sbOn p (ackMsg l cw.seq) l
  obtain ⟨q, he⟩ := hq (y.received cw.flits)
  have hsb : ((u.sbOn p (ackMsg l cw.seq)).pair p).lane l = some { y.received cw.flits with sbQ := q } := by rw [hg, hlane]; exact congrArg some he
  obtain ⟨ps, hps⟩ : ∃ ps, s.codewordIn p l cw = { u.sbOn p (ackMsg l cw.seq) with peers := ps, sbRx := if cw.msg.type.toNat < 8 then s.sbRx ++ [(p, l, cw.msg)] else s.sbRx } := by
    unfold State.codewordIn
    dsimp only
    split <;> split <;> exact ⟨_, rfl⟩
  rw [hps]
  exact ⟨sbOn_queued _ (Pair.lanes_ne_of_lane hlane), ⟨q, hsb⟩, rfl⟩

/-- Settles O48: what a lane takes and sends, its record after each sideband message, what a received codeword leaves, and the fields of a header flit. -/
theorem laneEvents : Obligations.lane_events := by
  unfold Obligations.lane_events
  refine ⟨?send, ?sideband, ?receive, ?header⟩
  case send =>
    intro s p l y h hl hf
    have hexec := exec_laneCodewordSend h hl hf
    obtain ⟨_, _, _, _, _, he⟩ := taken_laneSent s p.val l.val y
    have hticks : (s.laneSent p.val l.val y).ticks = s.ticks := (congrArg State.ticks he :)
    refine ⟨_, hexec, hticks ▸ State.later_self .., (congrArg State.mem he :), (congrArg State.wgs he :), fun hr hfull => ?_, fun k q hr hy hu hq hh hv hc => ?_, fun c hc => State.laneSent_again h hc⟩
    · show ((s.laneSent p.val l.val y).pair p.val).lane l.val = _
      rw [s.laneSent_next hr, State.feedLane_full h hfull]
      exact State.lane_modLane h _
    · obtain ⟨seq, t, hfeed, htxq, hcredit, hlane⟩ := State.feedLane_one h hy hu hq hh hv hc 19
      have hsent := (s.laneSent_next hr).trans (congrArg (fun u : State => u.modLane p.val l.val Lane.sent) hfeed)
      have hlane' := State.lane_modLane hlane Lane.sent
      have hflits : (y.take seq (packetFlits k)).txFlits = packetFlits k := by show y.txFlits ++ _ = _; rw [hy]; rfl
      refine ⟨?_, ?_, ?_, ?_⟩
      · exact (congrArg State.txq hsent).trans htxq
      · refine (congrArg (fun u : State => (u.pair p.val).credit0) hsent).trans ?_
        exact (congrArg Pair.credit0 (t.pair_modLane_same p.val l.val _)).trans hcredit
      · refine (congrArg (fun u : State => ((u.pair p.val).lane l.val).map (·.txFlits)) hsent).trans ?_
        rw [hlane', Option.map_some, Lane.sent, hflits]
      · refine (congrArg (fun u : State => ((u.pair p.val).lane l.val).map (·.replay)) hsent).trans ?_
        rw [hlane', Option.map_some, Lane.sent, hflits]
        rfl
  case sideband =>
    intro s k ln m rest h
    refine ⟨fun ht => recvSideband_head h ht (fun _ _ _ s => s), fun y c before after hy hr hc hb => ⟨fun ht => ?_, fun ht => ?_⟩, fun ht => ?_⟩
    · refine ⟨_, exec_laneAcknowledgement h ht, ?_, rfl, rfl⟩
      rw [State.lane_modLane (s := Claims.sidebandTaken s rest) hy, ← hc, Option.map_some, Lane.acked_replay hr hb]
    · refine ⟨_, exec_laneReplay h ht, ?_, rfl, rfl⟩
      rw [State.lane_modLane (s := Claims.sidebandTaken s rest) hy, ← hc, Lane.askedFrom_eq hr hb]
    · refine ⟨_, exec_creditReturn h ht, ?_⟩
      rw [State.pair_setPair, if_pos rfl]
      exact (s.pair k).credited_fields m.body
  case receive =>
    intro s p l y cw h hl hf
    refine ⟨fun hs hcw hy => ?_, fun hs hd => ?_, fun hy hs hd => ?_, ?_⟩
    · obtain ⟨hq, ⟨q, hlane⟩, hrx⟩ := State.codewordIn_spec (cw := cw) h
      have hnone := State.assemble_none hlane (by show y.rxFlits ++ cw.flits = []; rw [hy, hcw]; rfl) cw.seq 24
      obtain ⟨_, _, _, _, he⟩ := trayMoved_flushed (s.codewordIn p.val l.val cw) p.val
      refine ⟨_, exec_codewordReceive_in h hl hf hs, ?_⟩
      rw [hnone, he]
      refine ⟨?_, hq, hrx⟩
      show Option.map _ (((s.codewordIn p.val l.val cw).pair p.val).lane l.val) = _
      rw [hlane]
      rfl
    · exact ⟨_, exec_codewordReceive_old h hl hf hs hd, sbOn_queued _ (Pair.lanes_ne_of_lane h), rfl, rfl⟩
    · obtain ⟨hq, hdisc, -, ps, hps⟩ := State.askReplay_spec h
      exact ⟨_, exec_codewordReceive_ahead h hl hf hy hs hd, hq, hdisc, by rw [hps], by rw [hps]⟩
    · obtain ⟨hq, hdisc, hunc, ps, hps⟩ := State.codewordBad_spec h
      have hexec := exec_codewordReceive_bad (cw := cw) h hl hf
      rw [Pair.roll_uncNow] at hexec
      dsimp only
      by_cases h16 : 16 ≤ (if (s.pair p.val).frame = s.frameNum then (s.pair p.val).uncNow else 0) + 1
      · refine ⟨_, hexec.trans (congrArg _ (if_pos h16)), hq, hdisc, hunc, (congrArg State.rxq hps :), (congrArg State.sbRx hps :), fun _ => ?_⟩
        have hticks : (s.codewordBad p.val l.val y).ticks = s.ticks := (congrArg State.ticks hps :)
        exact hticks ▸ State.later_self ..
      · exact ⟨_, hexec.trans (congrArg _ (if_neg h16)), hq, hdisc, hunc, (congrArg State.rxq hps :), (congrArg State.sbRx hps :), fun hc => absurd hc h16⟩
  case header => exact fun p hlen hs hcoff hcmig htags => headerPacket_headerFlit hlen hs hcoff hcmig htags

end Sys2Proof.Machine
end

section
/-! PROOFS. The home slices: what taking a line, writing and waking leave as it was (R33, R223, R374), and what a write leaves in memory. -/

namespace Sys2Proof.Machine

/-! ## Lines of home slices -/

/-- From s to t lines of home slices have come and gone: no byte of memory has changed. -/
def HomeTouched (s t : State) : Prop :=
  ∃ hl rl fc b h log hd, t = { s with homeLines := hl, rcLines := rl, freeCount := fc, bad := b, hurts := h, mg := { s.mg with errlog := log, errhead := hd } }

theorem HomeTouched.refl (s : State) : HomeTouched s s := ⟨s.homeLines, s.rcLines, s.freeCount, s.bad, s.hurts, s.mg.errlog, s.mg.errhead, rfl⟩

theorem HomeTouched.trans {s t u : State} (h : HomeTouched s t) (h' : HomeTouched t u) : HomeTouched s u := by
  obtain ⟨_, _, _, _, _, _, _, rfl⟩ := h
  obtain ⟨hl, rl, fc, b, h, log, hd, rfl⟩ := h'
  exact ⟨hl, rl, fc, b, h, log, hd, rfl⟩

theorem HomeTouched.over {α : Type} {f : State → α → State} (h : ∀ s x, HomeTouched s (f s x)) (xs : List α) (s : State) : HomeTouched s (s.over xs f) := by
  induction xs generalizing s with
  | nil => exact .refl s
  | cons x xs ih => exact (h s x).trans (ih _)

theorem homeTouched_logError (s : State) (asid whr unit kind : Nat) : HomeTouched s (s.logError asid whr unit kind) := ⟨_, _, _, _, _, _, _, rfl⟩

theorem homeTouched_choice (s : State) (n : Nat) : HomeTouched s (s.choice n).2 := ⟨_, _, _, _, _, s.mg.errlog, s.mg.errhead, rfl⟩

theorem homeTouched_doom (s : State) (l k : Nat) : HomeTouched s (s.doom l k) := by
  unfold State.doom
  split
  · exact .refl s
  · exact ⟨_, _, _, _, _, s.mg.errlog, s.mg.errhead, rfl⟩

theorem homeTouched_doomOwner (s : State) (asid : Nat) : HomeTouched s (s.doomOwner asid) := by
  unfold State.doomOwner
  dsimp only
  split
  · exact homeTouched_choice ..
  · exact (homeTouched_choice ..).trans (homeTouched_doom ..)

theorem homeTouched_homeGone (s : State) (x : HomeLine) : HomeTouched s (s.homeGone x) := by
  unfold State.homeGone
  dsimp only
  refine .trans ⟨s.homeLines, s.rcLines, s.freeCount, s.bad, _, s.mg.errlog, s.mg.errhead, rfl⟩ (.over (fun u h => ?_) _ _)
  split
  · split
    · refine .trans ?_ (homeTouched_doomOwner ..)
      exact .trans ⟨u.homeLines, u.rcLines, u.freeCount, _, u.hurts, u.mg.errlog, u.mg.errhead, rfl⟩ (homeTouched_logError ..)
    · exact .refl u
  · exact .refl u

theorem homeTouched_homeRoom (s : State) (slice set : Nat) : HomeTouched s (s.homeRoom slice set) := by
  unfold State.homeRoom
  dsimp only
  split
  · exact .refl s
  · split
    · exact .trans ⟨_, s.rcLines, _, s.bad, s.hurts, s.mg.errlog, s.mg.errhead, rfl⟩ (homeTouched_homeGone ..)
    · split
      · exact ⟨s.homeLines, _, _, s.bad, s.hurts, s.mg.errlog, s.mg.errhead, rfl⟩
      · exact homeTouched_choice ..

theorem homeTouched_homeTouch (s : State) (pa : Nat) (dirty : Bool) : HomeTouched s (s.homeTouch pa dirty) := by
  unfold State.homeTouch
  dsimp only
  split
  · exact ⟨_, s.rcLines, s.freeCount, s.bad, s.hurts, s.mg.errlog, s.mg.errhead, rfl⟩
  · obtain ⟨_, rl, fc, b, h, log, hd, he⟩ := homeTouched_homeRoom s (homeSlice pa) (Config.homeSet (pa / 256) % 512)
    rw [he]
    exact ⟨_, rl, fc, b, h, log, hd, rfl⟩

theorem homeTouched_logLost (s : State) (asid : Nat) (segs : List (Nat × Nat)) : HomeTouched s (s.logLost asid segs) := by
  unfold State.logLost
  split
  · exact homeTouched_logError ..
  · split
    · exact homeTouched_logError ..
    · split
      · exact homeTouched_logError ..
      · exact .refl s

/-! ## Waking -/

/-- From s to t fibres have been made ready: their waits, gangs and cores have changed. -/
def Woken (s t : State) : Prop := ∃ ws gs cs, t = { s with wgs := ws, gangs := gs, cores := cs }

theorem Woken.refl (s : State) : Woken s s := ⟨s.wgs, s.gangs, s.cores, rfl⟩

theorem Woken.trans {s t u : State} (h : Woken s t) (h' : Woken t u) : Woken s u := by
  obtain ⟨_, _, _, rfl⟩ := h
  obtain ⟨ws, gs, cs, rfl⟩ := h'
  exact ⟨ws, gs, cs, rfl⟩

theorem Woken.over {α : Type} {f : State → α → State} (h : ∀ s x, Woken s (f s x)) (xs : List α) (s : State) : Woken s (s.over xs f) := by
  induction xs generalizing s with
  | nil => exact .refl s
  | cons x xs ih => exact (h s x).trans (ih _)

theorem woken_modFib (s : State) (id : FibId) (f : Fibre → Fibre) : Woken s (s.modFib id f) := ⟨_, s.gangs, s.cores, rfl⟩

theorem woken_wakeGang (s : State) (id : FibId) : Woken s (s.wakeGang id) := by
  unfold State.wakeGang
  split
  · exact .refl s
  · exact ⟨s.wgs, _, s.cores, rfl⟩

theorem woken_acquire (s : State) (n : Nat) : Woken s (s.acquire n) := ⟨s.wgs, s.gangs, _, rfl⟩

theorem woken_wake (s : State) (id : FibId) : Woken s (s.wake id) := by
  unfold State.wake
  dsimp only
  split
  · exact (woken_modFib ..).trans (woken_wakeGang ..)
  · split
    · exact (woken_modFib ..).trans ((woken_wakeGang ..).trans (woken_acquire ..))
    · exact (woken_modFib ..).trans (woken_wakeGang ..)

theorem woken_wakeAll (s : State) (p : Wait → Bool) : Woken s (s.wakeAll p) := .over woken_wake _ s

/-! ## Writes -/

/-- From s to t bytes have been written at the home slices: memory, the lines, and the fibres that waited for a cell have changed. -/
def HomeWork (s t : State) : Prop :=
  ∃ m ky hl rl fc b h log hd ws gs cs, t = { s with
    mem := m, keyed := ky, homeLines := hl, rcLines := rl, freeCount := fc, bad := b, hurts := h, mg := { s.mg with errlog := log, errhead := hd },
    wgs := ws, gangs := gs, cores := cs }

theorem HomeWork.refl (s : State) : HomeWork s s :=
  ⟨s.mem, s.keyed, s.homeLines, s.rcLines, s.freeCount, s.bad, s.hurts, s.mg.errlog, s.mg.errhead, s.wgs, s.gangs, s.cores, rfl⟩

theorem HomeWork.trans {s t u : State} (h : HomeWork s t) (h' : HomeWork t u) : HomeWork s u := by
  obtain ⟨_, _, _, _, _, _, _, _, _, _, _, _, rfl⟩ := h
  obtain ⟨m, ky, hl, rl, fc, b, h, log, hd, ws, gs, cs, rfl⟩ := h'
  exact ⟨m, ky, hl, rl, fc, b, h, log, hd, ws, gs, cs, rfl⟩

theorem HomeWork.over {α : Type} {f : State → α → State} (h : ∀ s x, HomeWork s (f s x)) (xs : List α) (s : State) : HomeWork s (s.over xs f) := by
  induction xs generalizing s with
  | nil => exact .refl s
  | cons x xs ih => exact (h s x).trans (ih _)

theorem HomeTouched.homeWork {s t : State} (h : HomeTouched s t) : HomeWork s t := by
  obtain ⟨hl, rl, fc, b, h, log, hd, rfl⟩ := h
  exact ⟨s.mem, s.keyed, hl, rl, fc, b, h, log, hd, s.wgs, s.gangs, s.cores, rfl⟩

theorem Woken.homeWork {s t : State} (h : Woken s t) : HomeWork s t := by
  obtain ⟨ws, gs, cs, rfl⟩ := h
  exact ⟨s.mem, s.keyed, s.homeLines, s.rcLines, s.freeCount, s.bad, s.hurts, s.mg.errlog, s.mg.errhead, ws, gs, cs, rfl⟩

/-- Every sector of some bytes is taken into its home slice. -/
def State.homeFilled (s : State) (ps : List (Nat × Byte)) : State := s.over ((ps.map (fun p => p.1 / 64)).dedup) (fun s k => s.homeTouch (64 * k) true)

/-- A write at the home slices: the bytes as the tail rule has them, their sectors, and the wake-ups. -/
theorem State.homeWrite_eq (s : State) (key : Nat) (ps : List (Nat × Byte)) : ∃ b h w,
    s.homeWrite key ps = (State.homeFilled { s.put key (s.tailWords.foldl (tailRule s.mem) ps) with bad := b, hurts := h } (s.tailWords.foldl (tailRule s.mem) ps)).wakeAll w := by
  unfold State.homeWrite State.homeFilled
  exact ⟨_, _, _, rfl⟩

/-- What a write at the home slices changes, and the bytes it leaves. -/
theorem State.homeWrite_spec (s : State) (key : Nat) (ps : List (Nat × Byte)) :
    HomeWork s (s.homeWrite key ps) ∧ (s.homeWrite key ps).mem = s.mem.writeAt (s.tailWords.foldl (tailRule s.mem) ps) ∧
      (s.homeWrite key ps).keyed = (s.tailWords.foldl (tailRule s.mem) ps).foldl (fun k p => keyedSet k p.1 key) s.keyed := by
  obtain ⟨b, h, w, he⟩ := s.homeWrite_eq key ps
  generalize s.tailWords.foldl (tailRule s.mem) ps = qs at he ⊢
  obtain ⟨_, _, _, _, _, _, _, hfill⟩ : HomeTouched _ (State.homeFilled { s.put key qs with bad := b, hurts := h } qs) := .over (fun s k => homeTouched_homeTouch s _ _) _ _
  obtain ⟨_, _, _, hwake⟩ := woken_wakeAll (State.homeFilled { s.put key qs with bad := b, hurts := h } qs) w
  rw [he, hwake, hfill]
  exact ⟨⟨_, _, _, _, _, _, _, _, _, _, _, _, rfl⟩, rfl, rfl⟩

theorem homeWork_homeWrite (s : State) (key : Nat) (ps : List (Nat × Byte)) : HomeWork s (s.homeWrite key ps) := (s.homeWrite_spec key ps).1

theorem State.tailWords_nil {s : State} (h : s.queues = []) : s.tailWords = [] := by simp [State.tailWords, h]

/-- Where no queue is bound, a write leaves its bytes. -/
theorem State.homeWrite_mem {s : State} (h : s.queues = []) (key : Nat) (ps : List (Nat × Byte)) : (s.homeWrite key ps).mem = s.mem.writeAt ps := by
  rw [(s.homeWrite_spec key ps).2.1, State.tailWords_nil h]; rfl

theorem State.homeWrite_keyed {s : State} (h : s.queues = []) (key : Nat) (ps : List (Nat × Byte)) :
    (s.homeWrite key ps).keyed = ps.foldl (fun k p => keyedSet k p.1 key) s.keyed := by
  rw [(s.homeWrite_spec key ps).2.2, State.tailWords_nil h]; rfl

theorem homeWork_homeStore (s : State) (key a : Nat) (bs : List Byte) : HomeWork s (s.homeStore key a bs) := homeWork_homeWrite ..

/-! ## The bytes written -/

/-- A byte that no pair names stays. -/
theorem Mem.get_writeAt_other {m : Mem} (h : m.wf = true) (ps : List (Nat × Byte)) {a : Nat} (ha : ∀ p ∈ ps, p.1 ≠ a) : (m.writeAt ps).get a = m.get a := by
  induction ps generalizing m with
  | nil => rfl
  | cons p ps ih =>
    refine (ih (Mem.wf_set h p.1 p.2) (fun q hq => ha q (List.mem_cons_of_mem _ hq))).trans ?_
    rw [Mem.get_set h, if_neg (Ne.symm (ha p List.mem_cons_self))]

/-- A byte that one pair names is that pair's. -/
theorem Mem.get_writeAt_mem {m : Mem} (h : m.wf = true) {ps : List (Nat × Byte)} (hn : (ps.map (·.1)).Nodup) {a : Nat} {b : Byte} (ha : (a, b) ∈ ps) :
    (m.writeAt ps).get a = b := by
  induction ps generalizing m with
  | nil => cases ha
  | cons p ps ih =>
    obtain ⟨hp, hps⟩ := List.nodup_cons.mp hn
    rcases List.mem_cons.mp ha with rfl | ha
    · refine (Mem.get_writeAt_other (Mem.wf_set h _ _) ps (fun q hq e => hp (List.mem_map.mpr ⟨q, hq, e⟩))).trans ?_
      rw [Mem.get_set h, if_pos rfl]
    · exact ih (Mem.wf_set h p.1 p.2) hps ha

theorem addrs_cons (a : Nat) (b : Byte) (bs : List Byte) : addrs a (b :: bs) = (a, b) :: addrs (a + 1) bs := by
  simp [addrs, List.range_succ_eq_map, Function.comp_def, Nat.add_assoc, Nat.add_comm 1]

theorem mem_addrs {a : Nat} {bs : List Byte} {p : Nat × Byte} (h : p ∈ addrs a bs) : a ≤ p.1 ∧ p.1 < a + bs.length := by
  obtain ⟨k, hk, he⟩ := List.mem_map.mp (List.of_mem_zip h).1
  rw [List.mem_range] at hk
  omega

/-- Writing the bytes from an address up one by one is writing them. -/
theorem Mem.writeAt_addrs (m : Mem) (a : Nat) (bs : List Byte) : m.writeAt (addrs a bs) = m.write a bs := by
  induction bs generalizing m a with
  | nil => rfl
  | cons b bs ih => rw [addrs_cons]; exact ih (m.set a b) (a + 1)

theorem State.homeStore_mem {s : State} (h : s.queues = []) (key a : Nat) (bs : List Byte) : (s.homeStore key a bs).mem = s.mem.write a bs :=
  (State.homeWrite_mem h key _).trans (Mem.writeAt_addrs ..)

end Sys2Proof.Machine
end

section
/-! PROOFS. Packets of the fabric: which one is taken, and the answers to it (R26, R30, R32). -/

namespace Sys2Proof.Machine

/-! ## Taking a packet -/

theorem State.recvFabric_head {s : State} {p : Packet} {rest : List Packet} (h : s.rxq = p :: rest) {kind : BitVec 5} (hk : p.kind = kind)
    (f : Packet → State → State) : s.recvFabric kind none f = .next (f p (Claims.fabricTaken s rest)) := by
  unfold State.recvFabric
  rw [h]
  exact congrArg _ (if_pos ⟨hk, rfl⟩)

theorem State.recvReady_head {s : State} {p : Packet} {rest : List Packet} (h : s.rxq = p :: rest) (hb : s.rxBlocked p = false) {kind : BitVec 5} (hk : p.kind = kind)
    (f : Packet → State → State) : s.recvReady kind f = .next (f p (Claims.fabricTaken s rest)) := by
  have he := State.recvFabric_head h hk f
  unfold State.recvReady
  rw [h]
  exact (if_neg (by rw [hb]; decide)).trans he

/-! ## Paths -/

/-- The path to a peer hangs on the pairs, on what is known of the peers, and on limited service alone. -/
theorem State.via_congr {s t : State} (hpos : t.pos = s.pos) (hpeers : t.peers = s.peers) (hpairs : t.pairs = s.pairs) (hlim : t.limitedOnly = s.limitedOnly) (q : Nat) :
    t.via q = s.via q := by
  have hpeer : t.peer = s.peer := funext fun r => by unfold State.peer; rw [hpeers]
  have hpair : t.pair = s.pair := funext fun k => by unfold State.pair; rw [hpairs]
  have hreach : t.reachable = s.reachable := funext fun r => by unfold State.reachable; rw [hpos, hpeer, hlim]
  have hdirect : t.direct = s.direct := funext fun r => by unfold State.direct; rw [hpos, hpair]
  unfold State.via State.intermediate State.spareDue
  rw [hreach, hdirect, hpeer, hpair, hpos]

/-! ## Answers -/

/-- An answer changes what waits to be sent and what is kept for a packet that comes again, and nothing else. -/
theorem State.reply_spec (s : State) (p r : Packet) :
    (∃ q f, s.reply p r = { s with txq := q, performed := f }) ∧ ∀ v, s.via p.src.val = some v → (s.reply p r).txq = s.txq ++ [Claims.answerTo s.pos p r v] := by
  unfold State.reply State.routed
  dsimp only
  cases hv : s.via p.src.val with
  | none => exact ⟨⟨s.txq, s.performed, rfl⟩, fun _ h => by cases h⟩
  | some v =>
    refine ⟨⟨_, _, rfl⟩, fun w h => ?_⟩
    cases h
    rfl

theorem answered_reply (s : State) (p r : Packet) : Claims.answered s (s.reply p r) p r := (s.reply_spec p r).2

/-- From s to t nothing that the answers to packets hang on has changed: what waits to be sent, and the paths. -/
structure Unsent (s t : State) : Prop where
  txq : t.txq = s.txq
  pos : t.pos = s.pos
  via : ∀ q, t.via q = s.via q

theorem Unsent.refl (s : State) : Unsent s s := ⟨rfl, rfl, fun _ => rfl⟩

theorem Unsent.trans {s t u : State} (h : Unsent s t) (h' : Unsent t u) : Unsent s u :=
  ⟨h'.txq.trans h.txq, h'.pos.trans h.pos, fun q => (h'.via q).trans (h.via q)⟩

theorem Unsent.taken (s : State) (rest : List Packet) : Unsent s (Claims.fabricTaken s rest) := ⟨rfl, rfl, fun _ => State.via_congr rfl rfl rfl rfl _⟩

theorem HomeWork.unsent {s t : State} (h : HomeWork s t) : Unsent s t := by
  obtain ⟨_, _, _, _, _, _, _, _, _, _, _, _, rfl⟩ := h
  exact ⟨rfl, rfl, fun _ => State.via_congr rfl rfl rfl rfl _⟩

/-- An answer given once other things have been done. -/
theorem Unsent.answered {s u : State} (h : Unsent s u) (p r : Packet) : Claims.answered s (u.reply p r) p r := by
  intro v hv
  rw [answered_reply u p r v ((h.via _).trans hv), h.txq, h.pos]

theorem State.reply_mem (s : State) (p r : Packet) : (s.reply p r).mem = s.mem := by
  obtain ⟨_, _, he⟩ := (s.reply_spec p r).1
  rw [he]

/-- Answers leave the paths. -/
theorem State.via_reply (s : State) (p r : Packet) (q : Nat) : (s.reply p r).via q = s.via q := by
  obtain ⟨_, _, he⟩ := (s.reply_spec p r).1
  rw [he]
  exact State.via_congr rfl rfl rfl rfl q

end Sys2Proof.Machine
end

section
/-! PROOFS. Requests of peers: loads, stores, atomics, tiles and bulk transfers at their owner (O39). -/

namespace Sys2Proof.Machine

/-! ## Sizes and numbers -/

theorem bytesNat_eq (bs : List Byte) : bytesNat bs = Claims.littleEndian bs := by
  induction bs with
  | nil => rfl
  | cons b bs ih => rw [bytesNat, Claims.littleEndian, ih]

theorem accessSize_iff (n : Nat) : accessSize n = true ↔ Claims.accessSizes n := by
  simp [accessSize, Claims.accessSizes, or_assoc]

/-- The pieces of 512 bytes of a list are the list. -/
theorem flatMap_pieces {α : Type} (bs : List α) (n : Nat) : (List.range n).flatMap (fun k => (bs.drop (512 * k)).take 512) = bs.take (512 * n) := by
  induction n with
  | zero => simp
  | succ n ih => rw [List.range_succ, List.flatMap_append, ih, List.flatMap_singleton, Nat.mul_succ, List.take_add]

/-! ## What requests leave -/

theorem unsent_unstage (s : State) (p : Packet) : Unsent s (s.unstage p) := ⟨rfl, rfl, fun _ => State.via_congr rfl rfl rfl rfl _⟩

/-- Bytes written over translated segments. -/
theorem homeWork_segsWrite (s : State) (asid : Nat) (segs : List (Nat × Nat)) (bs : List Byte) : HomeWork s (s.segsWrite asid segs bs) := by
  unfold State.segsWrite
  generalize hk : s.keyOf asid = key
  clear hk
  induction segs generalizing s bs with
  | nil => exact .refl s
  | cons x segs ih => exact (homeWork_homeStore s key x.1 _).trans (ih _ _)

theorem segsWrite_one (s : State) (asid x n : Nat) (bs : List Byte) : s.segsWrite asid [(x, n)] bs = s.homeStore (s.keyOf asid) x (bs.take n) := rfl

/-- Reads under a key hang on memory and on who wrote it. -/
theorem State.rd_congr {s t : State} (hm : t.mem = s.mem) (hk : t.keyed = s.keyed) : t.rd = s.rd := by
  have hbyte : t.byteKey = s.byteKey := funext fun a => by unfold State.byteKey; rw [hk]
  funext key a n
  unfold State.rd State.rdByte State.restByte State.ownByte
  rw [hm, hbyte]

theorem HomeTouched.segsRead {s t : State} (h : HomeTouched s t) (asid : Nat) (segs : List (Nat × Nat)) : t.segsRead asid segs = s.segsRead asid segs := by
  obtain ⟨_, _, _, _, _, _, _, rfl⟩ := h
  unfold State.segsRead
  rw [State.rd_congr (s := s) rfl rfl]
  rfl

theorem HomeTouched.mem {s t : State} (h : HomeTouched s t) : t.mem = s.mem := by
  obtain ⟨_, _, _, _, _, _, _, rfl⟩ := h
  rfl

/-! ## Answers one after the other -/

/-- Answers to packets of one source, one for each of some things. -/
theorem State.over_reply_txq {α : Type} {p : Packet} (q : α → Packet) (hq : ∀ x, (q x).src = p.src) (r : α → Packet) {v : Nat} (xs : List α) (s : State) (hv : s.via p.src.val = some v) :
    (s.over xs (fun s x => s.reply (q x) (r x))).txq = s.txq ++ xs.map (fun x => Claims.answerTo s.pos (q x) (r x) v) := by
  induction xs generalizing s with
  | nil => simp [State.over]
  | cons x xs ih =>
    have hpos : (s.reply (q x) (r x)).pos = s.pos := by
      obtain ⟨_, _, he⟩ := (s.reply_spec (q x) (r x)).1
      rw [he]
    refine (ih (s.reply (q x) (r x)) ((s.via_reply _ _ _).trans hv)).trans ?_
    rw [answered_reply s (q x) (r x) v ((congrArg (fun y : Fin 16 => s.via y.val) (hq x)).trans hv), hpos]
    simp

theorem State.over_reply_mem {α : Type} (q r : α → Packet) (xs : List α) (s : State) : (s.over xs (fun s x => s.reply (q x) (r x))).mem = s.mem := by
  induction xs generalizing s with
  | nil => rfl
  | cons x xs ih => exact (ih _).trans (s.reply_mem _ _)

/-! ## Loads and bulk reads (R34, R37, R39) -/

theorem loadSize {n : Nat} (h : Claims.accessSizes n ∨ n = 256) : (!accessSize n && n != 256) = false := by
  rw [← accessSize_iff] at h
  rcases h with h | h <;> simp [h]

theorem exec_ldreq_refused {s : State} {p : Packet} {rest : List Packet} (h : s.rxq = p :: rest) (hb : s.rxBlocked p = false) (hk : p.kind = 0x01)
    (hn : Claims.accessSizes p.len ∨ p.len = 256) {e : BitVec 8 × Nat}
    (he : (Claims.fabricTaken s rest).served p p.obj.toNat p.off.toNat ((Claims.fabricTaken s rest).fillLen p) false = .error e) :
    exec .ldreq s = .next ((Claims.fabricTaken s rest).reply p (Claims.nackPacket e.1 e.2)) := by
  refine (State.recvReady_head h hb hk _).trans (congrArg _ ?_)
  dsimp only
  rw [loadSize hn, he]
  rfl

/-- The state once a load is answered: its lines are taken, and the bytes sent, with RCOK where a copy may be kept (R34, R37). -/
def State.loadAnswered (s : State) (p : Packet) (segs : List (Nat × Nat)) : State :=
  let rc := (s.entry p.asid.toNat p.obj.toNat).any (fun e => s.rcOn e p.asid.toNat p.obj.toNat p.off.toNat) && !s.revoking p.asid.toNat p.obj.toNat (p.off.toNat / 2097152)
  let t := s.over segs (fun s x => s.homeTouch x.1 false)
  t.reply p { Packet.zero with kind := 0x02, rcok := rc, len := s.fillLen p, payload := t.segsRead p.asid.toNat segs }

theorem exec_ldreq {s : State} {p : Packet} {rest : List Packet} (h : s.rxq = p :: rest) (hb : s.rxBlocked p = false) (hk : p.kind = 0x01)
    (hn : Claims.accessSizes p.len ∨ p.len = 256) {segs : List (Nat × Nat)}
    (he : (Claims.fabricTaken s rest).served p p.obj.toNat p.off.toNat ((Claims.fabricTaken s rest).fillLen p) false = .ok segs)
    (hg : (Claims.fabricTaken s rest).segsGone segs = false) : exec .ldreq s = .next ((Claims.fabricTaken s rest).loadAnswered p segs) := by
  refine (State.recvReady_head h hb hk _).trans (congrArg _ ?_)
  dsimp only
  rw [loadSize hn, he]
  dsimp only
  rw [hg]
  rfl

theorem State.loadAnswered_spec (s : State) (p : Packet) (segs : List (Nat × Nat)) : ∃ rc, (s.loadAnswered p segs).mem = s.mem ∧
    Claims.answered s (s.loadAnswered p segs) p { Packet.zero with kind := 0x02, rcok := rc, len := s.fillLen p, payload := s.segsRead p.asid.toNat segs } := by
  have htouch : HomeTouched s (s.over segs (fun s x => s.homeTouch x.1 false)) := .over (fun s x => homeTouched_homeTouch s _ _) _ _
  unfold State.loadAnswered
  dsimp only
  rw [htouch.segsRead]
  exact ⟨_, (State.reply_mem ..).trans htouch.mem, htouch.homeWork.unsent.answered _ _⟩

theorem exec_getreq {s : State} {p : Packet} {rest : List Packet} (h : s.rxq = p :: rest) (hb : s.rxBlocked p = false) (hk : p.kind = 0x0C) {segs : List (Nat × Nat)}
    (he : (Claims.fabricTaken s rest).served p p.obj.toNat p.off.toNat p.len false = .ok segs) (hg : (Claims.fabricTaken s rest).segsGone segs = false) :
    exec .getreq s = .next ((Claims.fabricTaken s rest).reply p { Packet.zero with
      kind := 0x0D, len := p.len, payload := (Claims.fabricTaken s rest).segsRead p.asid.toNat segs }) := by
  refine (State.recvReady_head h hb hk _).trans (congrArg _ ?_)
  dsimp only
  rw [he]
  dsimp only
  rw [hg]
  rfl

/-! ## Stores (R32 to R34) -/

theorem exec_streq_refused {s : State} {p : Packet} {rest : List Packet} (h : s.rxq = p :: rest) (hb : s.rxBlocked p = false) (hk : p.kind = 0x03)
    (hn : Claims.accessSizes p.len) {e : BitVec 8 × Nat} (he : (Claims.fabricTaken s rest).served p p.obj.toNat p.off.toNat p.len true = .error e) :
    exec .streq s = .next ((Claims.fabricTaken s rest).reply p (Claims.nackPacket e.1 e.2)) := by
  refine (State.recvReady_head h hb hk _).trans (congrArg _ ?_)
  dsimp only
  rw [(accessSize_iff _).mpr hn, he]
  rfl

theorem exec_streq {s : State} {p : Packet} {rest : List Packet} (h : s.rxq = p :: rest) (hb : s.rxBlocked p = false) (hk : p.kind = 0x03)
    (hn : Claims.accessSizes p.len) {x n : Nat} {more : List (Nat × Nat)}
    (he : (Claims.fabricTaken s rest).served p p.obj.toNat p.off.toNat p.len true = .ok ((x, n) :: more))
    (hg : (Claims.fabricTaken s rest).segsGone ((x, n) :: more) = false) :
    exec .streq s = .next (((Claims.fabricTaken s rest).homeWrite ((Claims.fabricTaken s rest).keyOf p.asid.toNat)
      ((maskedBytes p).map (fun z => (x + z.1, z.2)))).reply p Claims.ackPacket) := by
  refine (State.recvReady_head h hb hk _).trans (congrArg _ ?_)
  dsimp only
  rw [(accessSize_iff _).mpr hn, he]
  dsimp only
  rw [hg]
  rfl

theorem maskedBytes_places (p : Packet) : ((maskedBytes p).map (·.1)).Nodup := by
  have hzip : ((List.range p.payload.length).zip p.payload).map (·.1) = List.range p.payload.length := List.map_fst_zip (by simp)
  have hnodup : (((List.range p.payload.length).zip p.payload).map (·.1)).Nodup := by rw [hzip]; exact List.nodup_range
  exact hnodup.sublist (List.filter_sublist.map _)

/-- A byte after a masked store: the packet's where the mask has it, and the old one elsewhere. -/
theorem Mem.get_writeMasked {m : Mem} (h : m.wf = true) (p : Packet) (x : Nat) :
    (∀ j, j < p.payload.length → (m.writeAt ((maskedBytes p).map (fun z => (x + z.1, z.2)))).get (x + j) =
      if p.op.getLsbD (if p.len = 16 then j / 2 else j) then p.payload.getD j 0 else m.get (x + j)) ∧
    ∀ y, y < x ∨ x + p.payload.length ≤ y → (m.writeAt ((maskedBytes p).map (fun z => (x + z.1, z.2)))).get y = m.get y := by
  have hmem {z : Nat × Byte} (hz : z ∈ maskedBytes p) : z.1 < p.payload.length ∧ p.op.getLsbD (if p.len = 16 then z.1 / 2 else z.1) = true := by
    obtain ⟨hz, hbit⟩ := List.mem_filter.mp hz
    exact ⟨List.mem_range.mp (List.of_mem_zip hz).1, hbit⟩
  refine ⟨fun j hj => ?_, fun y hy => Mem.get_writeAt_other h _ (fun z hz => ?_)⟩
  · by_cases hbit : p.op.getLsbD (if p.len = 16 then j / 2 else j) = true
    · rw [if_pos hbit]
      have hzip : (j, p.payload.getD j 0) ∈ (List.range p.payload.length).zip p.payload := List.mem_iff_getElem.mpr ⟨j, by simpa using hj, by simp [hj]⟩
      refine Mem.get_writeAt_mem h ?_ (List.mem_map.mpr ⟨_, List.mem_filter.mpr ⟨hzip, hbit⟩, rfl⟩)
      have hplaces := (maskedBytes_places p).map (fun _ _ e => Nat.add_left_cancel e : Function.Injective (x + ·))
      rwa [List.map_map] at hplaces ⊢
    · rw [if_neg hbit]
      refine Mem.get_writeAt_other h _ (fun z hz e => hbit ?_)
      obtain ⟨w, hw, rfl⟩ := List.mem_map.mp hz
      exact Nat.add_left_cancel e ▸ (hmem hw).2
  · obtain ⟨w, hw, rfl⟩ := List.mem_map.mp hz
    have := (hmem hw).1
    show x + w.1 ≠ y
    omega

/-! ## Atomics (R34) -/

theorem exec_atreq {s : State} {p : Packet} {rest : List Packet} (h : s.rxq = p :: rest) (hb : s.rxBlocked p = false) (hk : p.kind = 0x04)
    (hop : p.op.toNat ≤ 0x0A ∨ p.op.getLsbD 7 = true) (hn : p.len = atomicSrc p.op) (ha : p.off.toNat % atomicSize p.op = 0) {x n : Nat} {more : List (Nat × Nat)}
    (he : (Claims.fabricTaken s rest).served p p.obj.toNat p.off.toNat (atomicSize p.op) true = .ok ((x, n) :: more))
    (hg : (Claims.fabricTaken s rest).segsGone ((x, n) :: more) = false) :
    let r := (Claims.fabricTaken s rest).atomicHome ((Claims.fabricTaken s rest).keyOf p.asid.toNat) x p.op (bytesNat p.payload)
    exec .atreq s = .next (r.1.reply p { Packet.zero with kind := 0x05, len := atomicSize p.op, payload := natBytes (atomicSize p.op) r.2 }) := by
  have hform : ((!p.op.getLsbD 7 && decide (0x0A < p.op.toNat)) || p.len != atomicSrc p.op || p.off.toNat % atomicSize p.op != 0) = false := by
    rcases hop with hop | hop
    · simp [hn, ha, Nat.not_lt.mpr hop]
    · simp [hn, ha, hop]
  refine (State.recvReady_head h hb hk _).trans (congrArg _ ?_)
  dsimp only
  rw [hform, he]
  dsimp only
  rw [hg]
  rfl

/-! ## Tiles (R36) -/

/-- A part of a tile, as its packet holds it. -/
def tilePart (bs : List Byte) (k : Nat) : Packet :=
  let part := (bs.drop (512 * k)).take 512
  { Packet.zero with kind := 0x09, cobj := BitVec.ofNat 20 (512 * k), len := part.length, payload := part }

theorem exec_tldreq {s : State} {p : Packet} {rest : List Packet} (h : s.rxq = p :: rest) (hb : s.rxBlocked p = false) (hk : p.kind = 0x08) {segs : List (Nat × Nat)}
    (he : (Claims.fabricTaken s rest).servedTile p false = .ok segs) (hg : (Claims.fabricTaken s rest).segsGone segs = false) :
    let bs := (Claims.fabricTaken s rest).segsRead p.asid.toNat segs
    exec .tldreq s = .next ((Claims.fabricTaken s rest).over (List.range ((bs.length + 511) / 512)) (fun s k => s.reply p (tilePart bs k))) := by
  refine (State.recvReady_head h hb hk _).trans (congrArg _ ?_)
  dsimp only
  rw [he]
  dsimp only
  rw [hg]
  rfl

theorem tileParts_payload (bs : List Byte) : (List.range ((bs.length + 511) / 512)).flatMap (fun k => (tilePart bs k).payload) = bs :=
  (flatMap_pieces bs _).trans (List.take_of_length_le (by omega))

/-- What is staged of a tile once a packet of it has come. -/
theorem exec_tstdat_waits {s : State} {p : Packet} {rest : List Packet} (h : s.rxq = p :: rest) (hb : s.rxBlocked p = false) (hk : p.kind = 0x0A) {segs : List (Nat × Nat)}
    (he : (Claims.fabricTaken s rest).servedTile p true = .ok segs) (hg : (Claims.fabricTaken s rest).segsGone segs = false)
    (hw : ((stagedOf (Claims.fabricTaken s rest) p).add p.cobj.toNat p.payload).whole 0 (segs.map (·.2)).sum = none) :
    exec .tstdat s = .next { (Claims.fabricTaken s rest).unstage p with
      staged := ((Claims.fabricTaken s rest).unstage p).staged ++ [(stagedOf (Claims.fabricTaken s rest) p).add p.cobj.toNat p.payload] } := by
  refine (State.recvReady_head h hb hk _).trans (congrArg _ ?_)
  dsimp only
  rw [he]
  dsimp only
  rw [hg, hw]
  rfl

/-- A staged packet of a tile store, from what is kept of it: where its bytes go, and the bytes. -/
def tileStorePart (p : Packet) (g : Nat × List Byte) : Packet := { p with cobj := BitVec.ofNat 20 g.1, payload := g.2, len := g.2.length }

/-- The last packet of a tile: its bytes are written, and every packet of it is acknowledged. -/
theorem exec_tstdat_whole {s : State} {p : Packet} {rest : List Packet} (h : s.rxq = p :: rest) (hb : s.rxBlocked p = false) (hk : p.kind = 0x0A) {segs : List (Nat × Nat)}
    (he : (Claims.fabricTaken s rest).servedTile p true = .ok segs) (hg : (Claims.fabricTaken s rest).segsGone segs = false) {bs : List Byte}
    (hw : ((stagedOf (Claims.fabricTaken s rest) p).add p.cobj.toNat p.payload).whole 0 (segs.map (·.2)).sum = some bs) :
    exec .tstdat s = .next ((((Claims.fabricTaken s rest).unstage p).segsWrite p.asid.toNat segs bs).over
      ((stagedOf (Claims.fabricTaken s rest) p).add p.cobj.toNat p.payload).got
      (fun s g => s.reply (tileStorePart p g) Claims.ackPacket)) := by
  refine (State.recvReady_head h hb hk _).trans (congrArg _ ?_)
  dsimp only
  rw [he]
  dsimp only
  rw [hg, hw]
  rfl

/-! ## Bulk writes (R39) -/

theorem exec_put {s : State} {p : Packet} {rest : List Packet} (h : s.rxq = p :: rest) (hb : s.rxBlocked p = false) (hk : p.kind = 0x0B) {y : Nat} {segs : List (Nat × Nat)}
    (hy : (Claims.fabricTaken s rest).counterAt p = .ok y) (he : (Claims.fabricTaken s rest).served p p.obj.toNat p.off.toNat p.len true = .ok segs)
    (hg : (Claims.fabricTaken s rest).segsGone ((y, 8) :: segs) = false) :
    exec .put s = .next ((((Claims.fabricTaken s rest).segsWrite p.asid.toNat segs p.payload).countIn ((Claims.fabricTaken s rest).keyOf p.asid.toNat) y p.len).reply p
      Claims.ackPacket) := by
  refine (State.recvReady_head h hb hk _).trans (congrArg _ ?_)
  rw [hy, he]
  exact if_neg (by rw [hg]; decide)

/-- Who wrote a byte, after another byte has been written. -/
theorem find_keyedSet_other (ks : List (Nat × Nat)) {a j : Nat} (key : Nat) (h : j ≠ a) :
    (keyedSet ks a key).find? (fun x => x.1 == j) = ks.find? (fun x => x.1 == j) := by
  have hne : (a == j) = false := by simpa using Ne.symm h
  induction ks with
  | nil =>
    unfold keyedSet
    split
    · rfl
    · simp [hne]
  | cons x xs ih =>
    unfold keyedSet
    split
    · split
      · rfl
      · simp [hne]
    · split
      case isTrue hx =>
        have hxj : (x.1 == j) = false := hx ▸ hne
        split
        · simp [hxj]
        · simp [hne, hxj]
      case isFalse =>
        simp only [List.find?_cons, ih]

theorem find_keyedSets_other (ps : List (Nat × Byte)) {j : Nat} (key : Nat) (h : ∀ p ∈ ps, p.1 ≠ j) (ks : List (Nat × Nat)) :
    (ps.foldl (fun k p => keyedSet k p.1 key) ks).find? (fun x => x.1 == j) = ks.find? (fun x => x.1 == j) := by
  induction ps generalizing ks with
  | nil => rfl
  | cons p ps ih => exact (ih (fun q hq => h q (List.mem_cons_of_mem _ hq)) _).trans (find_keyedSet_other ks key (Ne.symm (h p List.mem_cons_self)))

/-- A byte that no confidential ASID wrote reads alike wherever it stands alike. -/
theorem State.rdByte_of_unkeyed {s t : State} {a : Nat} (hs : s.byteKey a = 0) (ht : t.byteKey a = 0) (hm : t.mem.get a = s.mem.get a) (key : Nat) :
    t.rdByte key a = s.rdByte key a := by
  simp [State.rdByte, State.restByte, hs, ht, hm]

/-- Where no byte is keyed, bytes beside a write read as before. -/
theorem State.rd_homeStore_other {s : State} (hwf : s.mem.wf = true) (hq : s.queues = []) (hk : s.keyed = []) {key key' x y n : Nat} {bs : List Byte}
    (hd : y + n ≤ x ∨ x + bs.length ≤ y) : (s.homeStore key x bs).rd key' y n = s.rd key' y n := by
  refine List.map_congr_left (fun k hk' => ?_)
  rw [List.mem_range] at hk'
  refine State.rdByte_of_unkeyed (by unfold State.byteKey; rw [hk]; rfl) ?_ ?_ key'
  · unfold State.byteKey State.homeStore
    rw [State.homeWrite_keyed hq, find_keyedSets_other _ _ (fun p hp => ?_), hk]
    · rfl
    · have := mem_addrs hp
      omega
  · rw [State.homeStore_mem hq, Mem.get_write bs hwf, if_neg (by omega)]

/-- A counter counts (R39). -/
theorem State.countIn_mem {s : State} (hq : s.queues = []) (key y n : Nat) :
    (s.countIn key y n).mem = s.mem.write y (natBytes 8 (bytesNat (s.rd key y 8) + n)) := State.homeStore_mem hq ..

theorem HomeWork.queues {s t : State} (h : HomeWork s t) : t.queues = s.queues := by
  obtain ⟨_, _, _, _, _, _, _, _, _, _, _, _, rfl⟩ := h
  rfl

/-- What a bulk write of one piece leaves in memory: its bytes, its counter's increment, and all else. -/
theorem State.put_mem {s : State} (hwf : s.mem.wf = true) (hq : s.queues = []) (hk : s.keyed = []) {key x y : Nat} {bs : List Byte} (hd : y + 8 ≤ x ∨ x + bs.length ≤ y) (len : Nat) :
    let m := ((s.homeStore key x bs).countIn key y len).mem
    (∀ j, j < bs.length → m.get (x + j) = bs.getD j 0) ∧ m.num y 8 = (Claims.littleEndian (s.rd key y 8) + len) % 2 ^ 64 ∧
      ∀ z, (z < x ∨ x + bs.length ≤ z) → (z < y ∨ y + 8 ≤ z) → m.get z = s.mem.get z := by
  have hq' : (s.homeStore key x bs).queues = [] := (homeWork_homeStore s key x bs).queues.trans hq
  have hwf' := Mem.wf_write bs hwf x
  have hm : ((s.homeStore key x bs).countIn key y len).mem = (s.mem.write x bs).write y (natBytes 8 (Claims.littleEndian (s.rd key y 8) + len)) := by
    rw [State.countIn_mem hq', State.homeStore_mem hq, State.rd_homeStore_other hwf hq hk hd, bytesNat_eq]
  dsimp only
  rw [hm]
  refine ⟨fun j hj => ?_, ?_, fun z hz hz' => ?_⟩
  · rw [Mem.get_write _ hwf', natBytes_length, if_neg (by omega), Mem.get_write _ hwf, if_pos (by omega), Nat.add_sub_cancel_left]
    rfl
  · exact Mem.num_setNum hwf' y 8 _
  · rw [Mem.get_write _ hwf', natBytes_length, if_neg (by omega), Mem.get_write _ hwf, if_neg (by omega)]

/-- Settles O39: each request's answer is given once the state is as the request leaves it, and what it leaves is said by the rules of the home slices. -/
theorem fabricRequests : Obligations.fabric_requests := by
  unfold Obligations.fabric_requests
  intro s p rest h hb
  have hu := Unsent.taken s rest
  refine ⟨?load, ?store, ?atomic, ?tileLoad, ?tileStore, ?put, ?get⟩
  case load =>
    intro hk hn
    refine ⟨fun e he => ⟨_, exec_ldreq_refused h hb hk hn he, State.reply_mem .., hu.answered _ _⟩, fun segs he hg => ?_⟩
    obtain ⟨rc, hm, ha⟩ := (Claims.fabricTaken s rest).loadAnswered_spec p segs
    exact ⟨_, rc, exec_ldreq h hb hk hn he hg, hm, ha⟩
  case store =>
    intro hk hn hwf hq
    refine ⟨fun e he => ⟨_, exec_streq_refused h hb hk hn he, State.reply_mem .., hu.answered _ _⟩, fun x n more he hg => ?_⟩
    refine ⟨_, exec_streq h hb hk hn he hg, (hu.trans (homeWork_homeWrite ..).unsent).answered _ _, ?_⟩
    rw [State.reply_mem, State.homeWrite_mem (s := Claims.fabricTaken s rest) hq]
    exact Mem.get_writeMasked hwf p x
  case atomic =>
    intro hk hop hn ha x n more he hg
    refine ⟨_, exec_atreq h hb hk hop hn ha he hg, ?_, ?_⟩
    · rw [State.reply_mem, bytesNat_eq]
      rfl
    · rw [← bytesNat_eq]
      exact (hu.trans (homeWork_homeStore ..).unsent).answered _ _
  case tileLoad =>
    intro hk segs v he hg hv
    refine ⟨_, _, exec_tldreq h hb hk he hg, State.over_reply_mem (fun _ => p) _ _ _, State.over_reply_txq (fun _ => p) (fun _ => rfl) _ _ _ ((hu.via _).trans hv), ?_, ?_⟩
    · rw [List.flatMap_map]
      exact tileParts_payload _
    · intro k hk'
      obtain ⟨j, -, rfl⟩ := List.mem_map.mp hk'
      exact ⟨rfl, rfl, rfl, rfl, List.length_take_le ..⟩
  case tileStore =>
    intro hk segs he hg
    refine ⟨fun hw => ⟨_, exec_tstdat_waits h hb hk he hg hw, rfl, rfl, List.mem_append_right _ (List.mem_singleton_self _)⟩, fun bs hw => ?_⟩
    refine ⟨_, exec_tstdat_whole h hb hk he hg hw, State.over_reply_mem (tileStorePart p) _ _ _, fun v hv => ?_⟩
    have hs := hu.trans ((unsent_unstage _ p).trans (homeWork_segsWrite ((Claims.fabricTaken s rest).unstage p) p.asid.toNat segs bs).unsent)
    rw [State.over_reply_txq (p := p) (tileStorePart p) (fun _ => rfl) (fun _ => Claims.ackPacket) _ _ ((hs.via _).trans hv), hs.txq, List.length_append, List.length_map]
  case put =>
    intro hk x y n hwf hq hy he hg hlen hd hkey
    subst hlen
    refine ⟨_, exec_put h hb hk hy he hg, (hu.trans ((homeWork_segsWrite ..).trans (homeWork_homeStore ..)).unsent).answered _ _, ?_⟩
    rw [State.reply_mem, segsWrite_one, List.take_length]
    exact State.put_mem (s := Claims.fabricTaken s rest) hwf hq hkey hd p.len
  case get =>
    intro hk segs he hg
    exact ⟨_, exec_getreq h hb hk he hg, State.reply_mem .., hu.answered _ _⟩

end Sys2Proof.Machine
end

section
/-! PROOFS. Shoot-downs and migrations of continuations at the peer (O40). -/

namespace Sys2Proof.Machine

/-! ## Shoot-downs (R38) -/

/-- RC of a region counts here no more, and nothing else has changed. -/
theorem State.unRc_spec (s : State) (pos asid obj region : Nat) : ∃ x, s.unRc pos asid obj region = { s with unrc := x } ∧ (pos, asid, obj, region) ∈ x := by
  unfold State.unRc
  split
  case isTrue h => exact ⟨s.unrc, rfl, List.contains_iff_mem.mp h⟩
  case isFalse => exact ⟨_, rfl, List.mem_cons_self⟩

/-- The state once a region's lines are dropped and its shoot-down waits to be answered. -/
def State.shotDown (s : State) (p : Packet) : State :=
  let t := s.unRc p.src.val p.asid.toNat p.obj.toNat (p.off.toNat / 2097152)
  { t with
    rcLines := t.rcLines.filter (fun r => !r.shot p)
    cores := t.cores.map (fun (c : Core) => { c with l1 := c.l1.filter (fun l => !(l.rc && t.mapsTo l.asid l.obj (256 * l.line) p)) })
    shootsIn := t.shootsIn ++ [p] }

theorem exec_shoot {s : State} {p : Packet} {rest : List Packet} (h : s.rxq = p :: rest) (hk : p.kind = 0x0E) :
    exec .shoot s = .next ((Claims.fabricTaken s rest).shotDown p).shootsReady :=
  State.recvFabric_head h hk (fun p s => (s.shotDown p).shootsReady)

theorem State.shotDown_spec (s : State) (p : Packet) : ∃ x rs cs, s.shotDown p = { s with unrc := x, rcLines := rs, cores := cs, shootsIn := s.shootsIn ++ [p] } ∧
    (p.src.val, p.asid.toNat, p.obj.toNat, p.off.toNat / 2097152) ∈ x ∧ ∀ r ∈ rs, r.shot p = false := by
  obtain ⟨x, he, hx⟩ := s.unRc_spec p.src.val p.asid.toNat p.obj.toNat (p.off.toNat / 2097152)
  unfold State.shotDown
  dsimp only
  rw [he]
  exact ⟨x, _, _, rfl, hx, fun r hr => by simpa using (List.mem_filter.mp hr).2⟩

/-- Where one shoot-down waits and no load of its region is outstanding, it is answered. -/
theorem State.shootsReady_answers {s : State} {p : Packet} (h : s.shootsIn = [p]) (ho : s.loadOpen p = false) :
    s.shootsReady = State.reply { s with shootsIn := [] } p Claims.ackPacket := by
  unfold State.shootsReady
  rw [h, List.filter_cons_of_pos (by rw [ho]; rfl)]
  show State.reply { s with shootsIn := s.shootsIn.erase p } p Claims.ackPacket = _
  rw [h, List.erase_cons_head]

/-- Where every waiting shoot-down's region has an outstanding load, nothing happens. -/
theorem State.shootsReady_waits {s : State} (h : ∀ p ∈ s.shootsIn, s.loadOpen p = true) : s.shootsReady = s := by
  unfold State.shootsReady
  rw [List.filter_eq_nil_iff.mpr (fun p hp => by simp [h p hp])]
  rfl

/-! ## Migrated continuations (R200) -/

/-- From s to t a continuation is being written: nothing that answers hang on has changed, nor the free segments of its address space. -/
structure Migrating (a : Nat) (s t : State) : Prop where
  unsent : Unsent s t
  free : (t.asid a).map (·.free) = (s.asid a).map (·.free)

theorem Migrating.trans {a : Nat} {s t u : State} (h : Migrating a s t) (h' : Migrating a t u) : Migrating a s u := ⟨h.unsent.trans h'.unsent, h'.free.trans h.free⟩

theorem HomeWork.migrating {s t : State} (h : HomeWork s t) (a : Nat) : Migrating a s t := by
  refine ⟨h.unsent, ?_⟩
  obtain ⟨_, _, _, _, _, _, _, _, _, _, _, _, rfl⟩ := h
  rfl

theorem homeWork_put (s : State) (key : Nat) (ps : List (Nat × Byte)) : HomeWork s (s.put key ps) :=
  ⟨_, _, s.homeLines, s.rcLines, s.freeCount, s.bad, s.hurts, s.mg.errlog, s.mg.errhead, s.wgs, s.gangs, s.cores, rfl⟩

theorem homeWork_withMem (s : State) (m : Mem) : HomeWork s { s with mem := m } :=
  ⟨_, s.keyed, s.homeLines, s.rcLines, s.freeCount, s.bad, s.hurts, s.mg.errlog, s.mg.errhead, s.wgs, s.gangs, s.cores, rfl⟩

theorem homeWork_segSet (s : State) (a seg off n x : Nat) : HomeWork s (s.segSet a seg off n x) := by
  unfold State.segSet
  split
  · exact .refl s
  · exact homeWork_put ..

theorem homeWork_placeSeg (s : State) (a n : Nat) (bs : List Byte) (tags : List Bool) : HomeWork s (s.placeSeg a n bs tags) := by
  unfold State.placeSeg
  split
  · exact .refl s
  · exact (homeWork_put ..).trans (homeWork_withMem ..)

theorem homeWork_renumberOuter (s : State) (a : Nat) (m : List (Nat × Nat)) (segs : List Nat) : HomeWork s (s.renumberOuter a m segs) :=
  .over (fun s h => by
    split
    · exact homeWork_segSet ..
    · exact .refl s) segs s

theorem homeWork_homeCap (s : State) (key a : Nat) (c : Cap) : HomeWork s (s.homeCap key a c) := (homeWork_homeStore ..).trans (homeWork_withMem ..)

theorem State.asid_modAsid (s : State) (a : Nat) (f : AsidDesc → AsidDesc) (hf : ∀ d, (f d).asid = d.asid) : (s.modAsid a f).asid a = (s.asid a).map f :=
  find_map_same (fun d : AsidDesc => d.asid == a) f (fun d => by rw [hf]) s.asids

theorem migrating_nextSerial (s : State) (a : Nat) : Migrating a s (s.nextSerial a).2 := by
  unfold State.nextSerial
  split
  case h_1 => exact ⟨.refl s, rfl⟩
  case h_2 d _ =>
    refine ⟨⟨rfl, rfl, fun _ => State.via_congr rfl rfl rfl rfl _⟩, ?_⟩
    dsimp only
    rw [State.asid_modAsid, Option.map_map]
    · rfl
    · exact fun _ => rfl

theorem State.asid_reply (s : State) (p r : Packet) (a : Nat) : (s.reply p r).asid a = s.asid a := by
  obtain ⟨_, _, he⟩ := (s.reply_spec p r).1
  rw [he]
  rfl

/-- The tag that is set is read back. -/
theorem Mem.tag_setTag (m : Mem) (a : Nat) : (m.setTag a true).tag a = true := by
  unfold Mem.tag Mem.setTag
  rw [List.contains_iff_mem]
  generalize a / 16 = g
  generalize m.tags = ts
  induction ts with
  | nil => exact List.mem_singleton_self g
  | cons t ts ih =>
    unfold risingSet
    split
    · exact List.mem_cons_self
    · split
      case isTrue h => exact h ▸ List.mem_cons_self
      case isFalse => exact List.mem_cons_of_mem _ ih

/-- The state once a migrated continuation stands in new segments, and its capability (R200 steps 3 to 5). -/
def State.continuationIn (s : State) (p : Packet) (bs : List Byte) (tags : List Bool) (d : AsidDesc) : State × Cap :=
  let a := p.asid.toNat
  let n := p.cobj.toNat + 1
  let news := d.free.take n
  let parts := (List.range n).map (fun k => (bs.drop (1024 * k)).take 1024)
  let m := (oldNumbers parts).zip (news.drop 1)
  let rec_ := parts.headD []
  let rec_ := setNumAt (setNumAt rec_ 0x30 4 (renumber m (numAt rec_ 0x30 4))) 0x34 4 (renumber m (numAt rec_ 0x34 4))
  let rec_ := setNumAt (setNumAt rec_ 0x38 4 (renumber m (numAt rec_ 0x38 4))) 0x3C 4 (renumber m (numAt rec_ 0x3C 4))
  let segs := (parts.drop 1).map (fun b => setNumAt b 0 8 (renumber m (numAt b 0 8)))
  let taken := s.modAsid a (fun d => { d with free := d.free.drop n })
  let placed := taken.over (((rec_ :: segs).zip news).zip (List.range n)) (fun s x => s.placeSeg a x.1.2 x.1.1 ((tags.drop (64 * x.2)).take 64))
  let v := (placed.renumberOuter a m (news.drop 1)).nextSerial a
  let t := v.2.setRecWord a (news.headD 0) v.1 (recReply (numAt rec_ 0x10 8)) stLive
  (t, t.contCap a (news.headD 0) v.1)

theorem State.takeMigrated_refused {s : State} {p : Packet} {dest : Nat} {nt : Bool} {d : AsidDesc}
    (hx : s.xlatNow false ⟨p.asid.toNat, p.obj.toNat, p.off.toNat, 16, true, false⟩ = .pa dest nt) (hd : s.asid p.asid.toNat = some d)
    (hn : d.free.length < p.cobj.toNat + 1) (bs : List Byte) (tags : List Bool) : s.takeMigrated p bs tags = s.reply p (Claims.nackPacket 0x29 0) := by
  unfold State.takeMigrated
  dsimp only
  rw [hx, hd]
  exact if_pos hn

theorem State.takeMigrated_taken {s : State} {p : Packet} {dest : Nat} {nt : Bool} {d : AsidDesc}
    (hx : s.xlatNow false ⟨p.asid.toNat, p.obj.toNat, p.off.toNat, 16, true, false⟩ = .pa dest nt) (hd : s.asid p.asid.toNat = some d)
    (hn : p.cobj.toNat + 1 ≤ d.free.length) (bs : List Byte) (tags : List Bool) :
    let v := s.continuationIn p bs tags d
    s.takeMigrated p bs tags = (v.1.homeCap (v.1.keyOf p.asid.toNat) dest v.2).reply p Claims.ackPacket := by
  unfold State.takeMigrated
  dsimp only
  rw [hx, hd]
  exact if_neg (Nat.not_lt.mpr hn)

/-- A migrated continuation takes its segments from the free ones, and touches nothing that answers hang on. -/
theorem State.continuationIn_spec {s : State} {p : Packet} {d : AsidDesc} (hd : s.asid p.asid.toNat = some d) (bs : List Byte) (tags : List Bool) :
    Unsent s (s.continuationIn p bs tags d).1 ∧ ((s.continuationIn p bs tags d).1.asid p.asid.toNat).map (·.free) = some (d.free.drop (p.cobj.toNat + 1)) ∧
      (s.continuationIn p bs tags d).2.tag = true := by
  let taken := s.modAsid p.asid.toNat (fun d => { d with free := d.free.drop (p.cobj.toNat + 1) })
  have htaken : Unsent s taken := ⟨rfl, rfl, fun _ => State.via_congr rfl rfl rfl rfl _⟩
  have hfree : (taken.asid p.asid.toNat).map (·.free) = some (d.free.drop (p.cobj.toNat + 1)) := by
    rw [State.asid_modAsid, hd]
    · rfl
    · exact fun _ => rfl
  have hplaced : Migrating p.asid.toNat taken (s.continuationIn p bs tags d).1 := by
    refine .trans ?_ (.trans (migrating_nextSerial _ _) ((homeWork_segSet ..).migrating _))
    exact ((HomeWork.over (fun s x => homeWork_placeSeg ..) _ _).trans (homeWork_renumberOuter ..)).migrating _
  exact ⟨htaken.trans hplaced.unsent, hplaced.free.trans hfree, rfl⟩

/-- What is staged of a continuation once a packet of it has come: its bytes, and its granule tags at 2^40 above them. -/
def migrStaged (s : State) (p : Packet) : StagedTile :=
  ((stagedOf s p).add p.coff.toNat p.payload).add (2 ^ 40 + p.coff.toNat) (p.gtags.map (fun b => if b then 1 else 0))

/-- The granule tags of what is staged of a continuation of this many bytes. -/
def migrTags (t : StagedTile) (n : Nat) : List Bool :=
  ((List.range (n / 512)).flatMap (fun k => ((t.got.find? (fun g => g.1 == 2 ^ 40 + 512 * k)).map (·.2)).getD [])).map (· != 0)

/-- The state once a packet of a continuation has come: it is staged, or the whole is taken. -/
def State.migrationIn (s : State) (p : Packet) : State :=
  match (migrStaged s p).whole 0 (1024 * (p.cobj.toNat + 1)) with
  | none => { s.unstage p with staged := (s.unstage p).staged ++ [migrStaged s p] }
  | some bs => (s.unstage p).takeMigrated p bs (migrTags (migrStaged s p) (1024 * (p.cobj.toNat + 1)))

theorem exec_cmig {s : State} {p : Packet} {rest : List Packet} (h : s.rxq = p :: rest) (hb : s.rxBlocked p = false) (hk : p.kind = 0x10) :
    exec .cmig s = .next ((Claims.fabricTaken s rest).migrationIn p) := State.recvReady_head h hb hk (fun p s => s.migrationIn p)

theorem State.migrationIn_waits {s : State} {p : Packet} (hw : (migrStaged s p).whole 0 (1024 * (p.cobj.toNat + 1)) = none) :
    s.migrationIn p = { s.unstage p with staged := (s.unstage p).staged ++ [migrStaged s p] } := by
  unfold State.migrationIn
  rw [hw]

theorem State.migrationIn_whole {s : State} {p : Packet} {bs : List Byte} (hw : (migrStaged s p).whole 0 (1024 * (p.cobj.toNat + 1)) = some bs) :
    s.migrationIn p = (s.unstage p).takeMigrated p bs (migrTags (migrStaged s p) (1024 * (p.cobj.toNat + 1))) := by
  unfold State.migrationIn
  rw [hw]

/-- Settles O40: what a shoot-down and a taken continuation leave, and the answers, which hang on none of it. -/
theorem shootDownsAndMigrations : Obligations.shoot_downs_and_migrations := by
  unfold Obligations.shoot_downs_and_migrations
  intro s p rest h
  have hu := Unsent.taken s rest
  refine ⟨?shoot, ?cmig⟩
  case shoot =>
    intro hk hnone
    obtain ⟨x, rs, cs, he, hx, hrs⟩ := (Claims.fabricTaken s rest).shotDown_spec p
    have hin : ((Claims.fabricTaken s rest).shotDown p).shootsIn = [p] := by
      rw [he]
      exact congrArg (· ++ [p]) hnone
    have hload : ((Claims.fabricTaken s rest).shotDown p).loadOpen p = (Claims.fabricTaken s rest).loadOpen p := by rw [he]; rfl
    have hexec := exec_shoot h hk
    cases ho : (Claims.fabricTaken s rest).loadOpen p with
    | true =>
      rw [State.shootsReady_waits (by rw [hin]; simpa using hload.trans ho)] at hexec
      rw [he] at hexec hin
      exact ⟨_, hexec, hrs, hx, rfl, fun hc => absurd hc (by decide), fun _ => ⟨hin, rfl⟩⟩
    | false =>
      rw [State.shootsReady_answers hin (hload.trans ho), he] at hexec
      have hs : Unsent s { Claims.fabricTaken s rest with unrc := x, rcLines := rs, cores := cs, shootsIn := [] } := ⟨rfl, rfl, fun _ => State.via_congr rfl rfl rfl rfl _⟩
      refine ⟨_, hexec, ?_⟩
      have ha := hs.answered p Claims.ackPacket
      obtain ⟨q, f, hr⟩ := (State.reply_spec { Claims.fabricTaken s rest with unrc := x, rcLines := rs, cores := cs, shootsIn := [] } p Claims.ackPacket).1
      rw [hr] at ha ⊢
      exact ⟨hrs, hx, rfl, fun _ => ⟨rfl, ha⟩, fun hc => absurd hc (by decide)⟩
  case cmig =>
    intro hk hb
    have hexec := exec_cmig h hb hk
    have hs := hu.trans (unsent_unstage _ p)
    refine ⟨fun hw => ⟨_, hexec.trans (congrArg _ (State.migrationIn_waits hw)), rfl, rfl, List.mem_append_right _ (List.mem_singleton_self _)⟩, fun bs d dest nt hw hx hd => ?_⟩
    have hwhole := hexec.trans (congrArg _ (State.migrationIn_whole hw))
    refine ⟨fun hn => ?_, fun hn => ?_⟩
    · have hrefused := hwhole.trans (congrArg _ (State.takeMigrated_refused (s := (Claims.fabricTaken s rest).unstage p) hx hd hn ..))
      exact ⟨_, hrefused, State.reply_mem .., hs.answered _ _⟩
    · have htaken := hwhole.trans (congrArg _ (State.takeMigrated_taken (s := (Claims.fabricTaken s rest).unstage p) hx hd hn ..))
      obtain ⟨hunsent, hfree, htag⟩ := State.continuationIn_spec (s := (Claims.fabricTaken s rest).unstage p) (p := p) hd bs
        (migrTags (migrStaged (Claims.fabricTaken s rest) p) (1024 * (p.cobj.toNat + 1)))
      generalize ((Claims.fabricTaken s rest).unstage p).continuationIn p bs (migrTags (migrStaged (Claims.fabricTaken s rest) p) (1024 * (p.cobj.toNat + 1))) d = v
        at htaken hunsent hfree htag
      have hcap := (homeWork_homeCap v.1 (v.1.keyOf p.asid.toNat) dest v.2).migrating p.asid.toNat
      refine ⟨_, htaken, (hs.trans (hunsent.trans hcap.unsent)).answered _ _, ?_, ?_⟩
      · rw [State.asid_reply]
        exact hcap.free.trans hfree
      · rw [State.reply_mem, State.homeCap, htag]
        exact Mem.tag_setTag ..

end Sys2Proof.Machine
end

section
/-! PROOFS. Fibres that wait, transactions that end, and commands that end: what each of these leaves as it was (R31, R40). -/

namespace Sys2Proof.Machine

/-! ## Fibres -/

/-- A fibre after every fibre has been changed. -/
theorem State.fib_mapFibres (s : State) (h : FibId → Fibre → Fibre) (hf : ∀ j x, (h j x).fid = x.fid) (id : FibId) :
    (s.mapFibres h).fib id = (s.fib id).map (h id) := by
  have hwg : (s.mapFibres h).wg id.launch id.wgid =
      (s.wg id.launch id.wgid).map (fun g => { g with fibres := g.fibres.map (fun x => h ⟨g.launch, g.wgid, x.fid⟩ x) }) := List.find?_map ..
  unfold State.fib
  rw [hwg]
  cases hg : s.wg id.launch id.wgid with
  | none => rfl
  | some g =>
    obtain ⟨hl, hw⟩ : g.launch = id.launch ∧ g.wgid = id.wgid := by simpa using List.find?_some hg
    have hfib : Wg.fib { g with fibres := g.fibres.map (fun x => h ⟨g.launch, g.wgid, x.fid⟩ x) } id.fid =
        (g.fibres.find? (fun x => (h ⟨g.launch, g.wgid, x.fid⟩ x).fid == id.fid)).map (fun x => h ⟨g.launch, g.wgid, x.fid⟩ x) := List.find?_map ..
    refine hfib.trans ?_
    simp only [hf, hl, hw]
    cases hx : g.fibres.find? (fun x => x.fid == id.fid) with
    | none => simp [Wg.fib, hx]
    | some x =>
      have hid : x.fid = id.fid := by simpa using List.find?_some hx
      simp [Wg.fib, hx, hid]

/-- A fibre that is found is one of all. -/
theorem State.mem_allFibres {s : State} {id : FibId} {f : Fibre} (h : s.fib id = some f) : (id, f) ∈ s.allFibres := by
  obtain ⟨g, hg, hf⟩ := Option.bind_eq_some_iff.mp h
  have hid := List.find?_some hg
  have hfid : f.fid = id.fid := by simpa using List.find?_some hf
  simp only [Bool.and_eq_true, beq_iff_eq] at hid
  obtain ⟨hl, hw⟩ := hid
  refine List.mem_flatMap.mpr ⟨g, List.mem_of_find?_eq_some hg, List.mem_map.mpr ⟨f, List.mem_of_find?_eq_some hf, ?_⟩⟩
  rw [hl, hw, hfid]

/-- The fibres that wait on a transaction have its answer. -/
theorem remoteAnswered_answerRemote (s : State) (dst tag : Nat) (bs : List Byte) : Claims.remoteAnswered s (s.answerRemote dst tag bs) dst tag bs := by
  intro id f hf
  unfold State.answerRemote
  rw [State.fib_mapFibres _ _ (fun _ x => by split <;> rfl), hf]
  rfl

theorem State.fib_of_wgs {s t : State} (h : t.wgs = s.wgs) : t.fib = s.fib := by
  unfold State.fib State.wg
  rw [h]

theorem remoteAnswered_of_wgs {s t u : State} {dst tag : Nat} {bs : List Byte} (h : Claims.remoteAnswered s t dst tag bs) (hu : u.wgs = t.wgs) :
    Claims.remoteAnswered s u dst tag bs := fun id f hf => by rw [State.fib_of_wgs hu]; exact h id f hf

theorem State.wake_wgs (s : State) (id : FibId) : (s.wake id).wgs = (s.modFib id (fun f => { f with wait := .none })).wgs := by
  have hgang : ((s.modFib id (fun f => { f with wait := .none })).wakeGang id).wgs = (s.modFib id (fun f => { f with wait := .none })).wgs := by
    unfold State.wakeGang
    split <;> rfl
  unfold State.wake
  dsimp only
  split
  · exact hgang
  · split
    · exact hgang
    · exact hgang

/-- A fibre that is made ready waits no more. -/
theorem State.fib_wake_same (s : State) (id : FibId) : (s.wake id).fib id = (s.fib id).map (fun f => { f with wait := .none }) := by
  rw [State.fib_of_wgs (s.wake_wgs id)]
  exact fib_modFib_same _ _ _ (fun _ => rfl)

theorem State.fib_wake_other (s : State) {id j : FibId} (h : j ≠ id) : (s.wake id).fib j = s.fib j := by
  rw [State.fib_of_wgs (s.wake_wgs id)]
  exact fib_modFib_other _ _ _ _ (fun _ => rfl) h

/-- Some fibres are made ready one after the other: one that does not wait stays as it is. -/
theorem State.fib_over_wake_ready (ids : List FibId) {s : State} {id : FibId} {f : Fibre} (h : s.fib id = some f) (hw : f.wait = .none) :
    (s.over ids State.wake).fib id = some f := by
  induction ids generalizing s with
  | nil => exact h
  | cons j js ih =>
    refine ih (s := s.wake j) ?_
    by_cases hj : id = j
    · rw [← hj, State.fib_wake_same, h, Option.map_some, ← hw]
    · rw [State.fib_wake_other s hj, h]

theorem State.fib_over_wake (ids : List FibId) {s : State} {id : FibId} {f : Fibre} (h : s.fib id = some f) (hm : id ∈ ids) :
    (s.over ids State.wake).fib id = some { f with wait := .none } := by
  induction ids generalizing s with
  | nil => cases hm
  | cons j js ih =>
    by_cases hj : id = j
    · refine State.fib_over_wake_ready js (s := s.wake j) ?_ rfl
      rw [← hj, State.fib_wake_same, h]
      rfl
    · exact ih (s := s.wake j) ((State.fib_wake_other s hj).trans h) ((List.mem_cons.mp hm).resolve_left hj)

/-- The fibres whose wait satisfies a test are made ready. -/
theorem State.fib_wakeAll {s : State} {p : Wait → Bool} {id : FibId} {f : Fibre} (h : s.fib id = some f) (hp : p f.wait = true) :
    (s.wakeAll p).fib id = some { f with wait := .none } := by
  have hmem : id ∈ (s.allFibres.filter (fun x => p x.2.wait)).map (·.1) := List.mem_map.mpr ⟨_, List.mem_filter.mpr ⟨State.mem_allFibres h, hp⟩, rfl⟩
  exact State.fib_over_wake _ h hmem

/-- Where no fibre waits so, none is made ready. -/
theorem State.wakeAll_none {s : State} {p : Wait → Bool} (h : ∀ x ∈ s.allFibres, p x.2.wait = false) : s.wakeAll p = s := by
  unfold State.wakeAll
  rw [List.filter_eq_nil_iff.mpr (fun x hx => by simp [h x hx])]
  rfl

/-! ## Transactions that end (R31) -/

/-- Fibres that look again put their completions on the agenda, and nothing else changes. -/
theorem State.retry_spec (s : State) : ∃ a, s.retry = { s with agenda := a } := by
  unfold State.retry
  generalize (s.allFibres.filter (fun x => x.2.wait == .unacked || x.2.wait == .capture)).map (·.1) = ids
  induction ids generalizing s with
  | nil => exact ⟨s.agenda, rfl⟩
  | cons id ids ih =>
    obtain ⟨a, he⟩ := ih (if s.agenda.any (fun t => t.ev == .releaseComplete id) then s else s.later 0 (.releaseComplete id))
    refine ⟨a, he.trans ?_⟩
    split <;> rfl

/-- Answered shoot-downs leave their list and are acknowledged, and nothing else changes. -/
theorem State.shootsReady_spec (s : State) : ∃ i q f, s.shootsReady = { s with shootsIn := i, txq := q, performed := f } := by
  unfold State.shootsReady
  generalize s.shootsIn.filter (fun p => !s.loadOpen p) = ps
  induction ps generalizing s with
  | nil => exact ⟨s.shootsIn, s.txq, s.performed, rfl⟩
  | cons p ps ih =>
    obtain ⟨_, _, hr⟩ := (State.reply_spec { s with shootsIn := s.shootsIn.erase p } p Claims.ackPacket).1
    obtain ⟨i, q, f, he⟩ := ih (State.reply { s with shootsIn := s.shootsIn.erase p } p Claims.ackPacket)
    exact ⟨i, q, f, he.trans (by rw [hr])⟩

theorem State.sendShoots_none {s : State} (h : ∀ z ∈ s.shoots, z.unsent = 0) : s.sendShoots = s := by
  unfold State.sendShoots
  rw [List.filter_eq_nil_iff.mpr (fun z hz => by simp [h z hz])]
  rfl

theorem State.wakesAgain_none {s : State} (h : s.wakes = []) : s.wakesAgain = s := by
  unfold State.wakesAgain
  rw [h]
  show { s with wakes := [] } = s
  rw [← h]

/-- A transaction that ends while nothing waits for its tag: it is gone, and no byte, fibre or command has changed. -/
theorem State.dropTx_spec {s : State} (h : Claims.calm s) (x : Tx) :
    ∃ a i q f, s.dropTx x = { s with txs := Claims.txsWithout s x, agenda := a, shootsIn := i, txq := q, performed := f } := by
  obtain ⟨hwakes, hshoots⟩ := h
  obtain ⟨a, hretry⟩ := State.retry_spec { s with txs := Claims.txsWithout s x }
  obtain ⟨i, q, f, hready⟩ := State.shootsReady_spec { s with txs := Claims.txsWithout s x, agenda := a }
  have hsend (v : State) (hv : v.shoots = s.shoots) (hw : v.wakes = s.wakes) : v.sendShoots.wakesAgain = v := by
    rw [State.sendShoots_none (hv ▸ hshoots), State.wakesAgain_none (hw.trans hwakes)]
  have hd : s.dropTx x = (State.retry { s with txs := Claims.txsWithout s x }).shootsReady.sendShoots.wakesAgain := rfl
  rw [hd, hretry, hready]
  exact ⟨a, i, q, f, hsend _ rfl rfl⟩

/-! ## Commands (R40) -/

theorem State.poke_spec (s : State) (ns id : Nat) : ∃ a, s.poke ns id = { s with agenda := a } := by
  unfold State.poke
  split
  · exact ⟨s.agenda, rfl⟩
  · exact ⟨_, rfl⟩

theorem State.cmd_modCmd (s : State) (n : Nat) (f : Command → Command) (hf : ∀ c, (f c).id = c.id) : (s.modCmd n f).cmd n = (s.cmd n).map f :=
  find_map_same (fun c : Command => c.id == n) f (fun c => by rw [hf]) s.cmds

/-- What asked for some transactions has ended: none of those left is for it, and none is new. -/
theorem State.abandon_spec (s : State) (p : Tx → Bool) : ∃ q ts, s.abandon p = { s with txq := q, txs := ts } ∧
    ∀ z ∈ ts, ∃ y ∈ s.txs, z = if p y then { y with kind := .gone } else y := by
  refine ⟨_, _, rfl, fun z hz => ?_⟩
  obtain ⟨y, hy, rfl⟩ := List.mem_map.mp hz
  exact ⟨y, List.mem_of_mem_filter hy, rfl⟩

/-- A command ends with an error: its record says so, and its requests are its own no more. -/
theorem State.finish_spec {s : State} {n : Nat} {c : Command} (h : s.cmd n = some c) (hx : c.exch = false) {code : BitVec 8} (hc : code ≠ 0) (count : Nat) :
    ∃ cs a q ts hs, s.finish n code count = { s with cmds := cs, agenda := a, txq := q, txs := ts, htxs := hs } ∧
      (s.finish n code count).cmd n = some { c with st := .finished, code := code, err := true, count := count } ∧
      ∀ z ∈ ts, ∃ y ∈ s.txs, z = if y.kind.isOf n then { y with kind := .gone } else y := by
  let g : Command → Command := fun c => { c with st := .finished, code := code, err := code != 0, count := count }
  obtain ⟨a, hpoke⟩ := State.poke_spec (s.modCmd n g) 1 n
  obtain ⟨q, ts, habandon, hts⟩ := State.abandon_spec ((s.modCmd n g).poke 1 n) (fun t => t.kind.isOf n)
  have hend : ((s.modCmd n g).poke 1 n).abandonCmd n = { s with
      cmds := (s.modCmd n g).cmds, agenda := a, txq := q, txs := ts, htxs := s.htxs.map (fun (t : HTx) => if t.kind.isOf n then { t with kind := .gone } else t) } := by
    unfold State.abandonCmd
    rw [habandon, hpoke]
    rfl
  have hcmd : (((s.modCmd n g).poke 1 n).abandonCmd n).cmd n = some { c with st := .finished, code := code, err := true, count := count } := by
    rw [hend]
    refine (State.cmd_modCmd s n g (fun _ => rfl)).trans ?_
    have herr : (code != 0) = true := by simpa using hc
    rw [h, Option.map_some, ← herr]
  have hfinish : s.finish n code count = ((s.modCmd n g).poke 1 n).abandonCmd n := by
    unfold State.finish
    dsimp only
    rw [if_neg hc, hcmd]
    exact if_neg (by rw [show Command.exch { c with st := .finished, code := code, err := true, count := count } = c.exch from rfl, hx]; decide)
  rw [hfinish]
  refine ⟨_, a, q, ts, _, hend, hcmd, fun z hz => ?_⟩
  obtain ⟨y, hy, he⟩ := hts z hz
  rw [hpoke] at hy
  exact ⟨y, hy, he⟩

end Sys2Proof.Machine
end

section
/-! PROOFS. Answers of peers to what this package asked, packets for other positions, and notes between service pairs (O41). -/

namespace Sys2Proof.Machine

/-! ## Loads, atomics and stores (R34, R37) -/

theorem homeTouched_rcLines (s : State) (rl : List RcLine) : HomeTouched s { s with rcLines := rl } :=
  ⟨s.homeLines, rl, s.freeCount, s.bad, s.hurts, s.mg.errlog, s.mg.errhead, rfl⟩

/-- A line of a peer object that the die keeps: lines of its home slices come and go. -/
theorem homeTouched_keepRc (s : State) (x : Tx) (p : Packet) : HomeTouched s (s.keepRc x p) := by
  unfold State.keepRc
  split
  · exact .refl s
  · dsimp only
    split
    · exact .refl s
    · exact (homeTouched_rcLines ..).trans ((homeTouched_homeRoom ..).trans (homeTouched_rcLines ..))

/-- The answer to an outstanding access: the fibres that wait for it have its bytes, and the transaction is over. -/
theorem State.answered_dropTx {s : State} (h : Claims.calm s) (x : Tx) (bs : List Byte) :
    ((s.answerRemote x.dst x.tag bs).dropTx x).mem = s.mem ∧ ((s.answerRemote x.dst x.tag bs).dropTx x).txs = Claims.txsWithout s x ∧
      Claims.remoteAnswered s ((s.answerRemote x.dst x.tag bs).dropTx x) x.dst x.tag bs := by
  obtain ⟨_, _, _, _, he⟩ := State.dropTx_spec (s := s.answerRemote x.dst x.tag bs) h x
  rw [he]
  exact ⟨rfl, rfl, remoteAnswered_of_wgs (remoteAnswered_answerRemote s x.dst x.tag bs) rfl⟩

theorem exec_ldrsp_load {s : State} {p : Packet} {rest : List Packet} (h : s.rxq = p :: rest) (hk : p.kind = 0x02#5) {x : Tx}
    (ht : (Claims.fabricTaken s rest).txOf p = some x) {f : FibId} {off : Word} (hx : x.kind = .load f off) :
    exec .ldrsp s = .next (((((Claims.fabricTaken s rest).keepRc x p).answerRemote x.dst x.tag p.payload)).dropTx x) := by
  rw [show exec .ldrsp s = execLdrsp s from rfl, execLdrsp, State.recvFabric_head h hk, ht]
  dsimp only
  rw [hx]

theorem exec_atrsp_atomic {s : State} {p : Packet} {rest : List Packet} (h : s.rxq = p :: rest) (hk : p.kind = 0x05#5) {x : Tx}
    (ht : (Claims.fabricTaken s rest).txOf p = some x) {f : FibId} {off : Word} (hx : x.kind = .atomic f off) :
    exec .atrsp s = .next (((Claims.fabricTaken s rest).answerRemote x.dst x.tag p.payload).dropTx x) := by
  rw [show exec .atrsp s = execAtrsp s from rfl, execAtrsp, State.recvFabric_head h hk, ht]
  dsimp only
  rw [hx]

theorem exec_ack_store {s : State} {p : Packet} {rest : List Packet} (h : s.rxq = p :: rest) (hk : p.kind = 0x06#5) {x : Tx}
    (ht : (Claims.fabricTaken s rest).txOf p = some x) {f : FibId} {off : Word} (hx : x.kind = .store f off) :
    exec .ack s = .next (((Claims.fabricTaken s rest).answerRemote x.dst x.tag []).dropTx x) := by
  rw [show exec .ack s = execAck s from rfl, execAck, State.recvFabric_head h hk, ht]
  dsimp only
  rw [hx]

/-! ## Bulk commands (R39, R40) -/

/-- A packet of a command is counted, and the command looks on. -/
theorem State.counted_spec {s : State} {n : Nat} {c : Command} (h : s.cmd n = some c) :
    ((s.modCmd n (fun c => { c with acked := c.acked + 1 })).poke 1 n).cmd n = some { c with acked := c.acked + 1 } ∧
      ∃ cs a, (s.modCmd n (fun c => { c with acked := c.acked + 1 })).poke 1 n = { s with cmds := cs, agenda := a } := by
  obtain ⟨a, he⟩ := (s.modCmd n (fun c => { c with acked := c.acked + 1 })).poke_spec 1 n
  rw [he]
  refine ⟨?_, _, a, rfl⟩
  show (s.modCmd n _).cmd n = _
  rw [State.cmd_modCmd, h]
  · rfl
  · exact fun _ => rfl

theorem exec_ack_put {s : State} {p : Packet} {rest : List Packet} (h : s.rxq = p :: rest) (hk : p.kind = 0x06#5) {x : Tx}
    (ht : (Claims.fabricTaken s rest).txOf p = some x) {n off len : Nat} (hx : x.kind = .put n off len) {c : Command}
    (hc : ((Claims.fabricTaken s rest).dropTx x).cmd n = some c) (hkind : c.kind = .xput) (he : c.exch = false) :
    exec .ack s = .next ((((Claims.fabricTaken s rest).dropTx x).modCmd n (fun c => { c with acked := c.acked + 1 })).poke 1 n) := by
  rw [show exec .ack s = execAck s from rfl, execAck, State.recvFabric_head h hk, ht]
  dsimp only
  rw [hx]
  dsimp only
  rw [hc]
  dsimp only
  rw [if_pos hkind, State.countSent, he]
  rfl

/-- Bytes that a bulk read brings reach device memory or a scratchpad: no command changes. -/
theorem State.spanWrite_cmds (s : State) (c : Command) (bs : List Byte) (d : Span) : (s.spanWrite c bs d).cmds = s.cmds := by
  cases d with
  | scratch ps =>
    show (ps.foldl _ (s, bs)).1.cmds = _
    refine foldl_keeps (fun r : State × List Byte => r.1.cmds = s.cmds) _ (fun r x hr => ?_) ps _ rfl
    exact hr
  | mem segs =>
    show (segs.foldl _ (s, bs)).1.cmds = _
    refine foldl_keeps (fun r : State × List Byte => r.1.cmds = s.cmds) _ (fun r x hr => ?_) segs _ rfl
    obtain ⟨_, _, _, _, _, _, _, _, _, _, _, _, he⟩ := homeWork_homeStore r.1 (s.keyOf c.asid) x.1 (r.2.take x.2)
    exact (congrArg State.cmds he :).trans hr
  | host => rfl
  | peer => rfl
  | stall => rfl
  | walk => rfl
  | lost => rfl
  | failed => rfl

/-- A range that is none of those that stop a bulk read. -/
def Span.reached : Span → Bool
  | .failed _ => false
  | .stall _ => false
  | .lost _ => false
  | .walk .. => false
  | _ => true

theorem exec_getdat {s : State} {p : Packet} {rest : List Packet} (h : s.rxq = p :: rest) (hk : p.kind = 0x0D#5) {x : Tx}
    (ht : (Claims.fabricTaken s rest).txOf p = some x) {n off len : Nat} (hx : x.kind = .get n off len) {v : State} (hv : (Claims.fabricTaken s rest).dropTx x = v)
    {c : Command} (hc : v.cmd n = some c) (hst : c.st ≠ .finished) (hstop : v.cmdStopped c = false) {dst : Span} (hdst : v.span c (c.cap 1) off len true = dst)
    (hr : dst.reached = true) {y m : Nat} {more : List (Nat × Nat)} (hy : v.span c (c.cap 3) 0 8 true = .mem ((y, m) :: more)) (hbad : v.isBad y 8 = false)
    (hl : v.spanLatched true dst = false) (hl' : v.spanLatched true (.mem ((y, m) :: more)) = false) :
    exec .getdat s = .next ((((v.spanWrite c p.payload dst).countIn (v.keyOf c.asid) y len).modCmd n (fun c => { c with acked := c.acked + 1 })).poke 1 n) := by
  rw [show exec .getdat s = execGetdat s from rfl, execGetdat, State.recvFabric_head h hk, ht]
  dsimp only
  rw [hx]
  dsimp only
  rw [hv, hc]
  dsimp only
  rw [if_neg hst, hstop, hdst, hy]
  cases dst with
  | failed => cases hr
  | stall => cases hr
  | lost => cases hr
  | walk => cases hr
  | mem segs =>
    dsimp only
    rw [hbad, hl, hl']
    rfl
  | scratch ps =>
    dsimp only
    rw [hbad, hl, hl']
    rfl
  | host link a =>
    dsimp only
    rw [hbad, hl, hl']
    rfl
  | peer pos pasid pobj o =>
    dsimp only
    rw [hbad, hl, hl']
    rfl

/-! ## Tiles (R36) -/

theorem State.tile_modTile (s : State) (n : Nat) (f : TileOp → TileOp) (hf : ∀ y, (f y).id = y.id) : (s.modTile n f).tile n = (s.tile n).map f :=
  find_map_same (fun y : TileOp => y.id == n) f (fun y => by rw [hf]) s.tiles

/-- A tile access with bytes from a packet put in their place. -/
def TileOp.placed (p : Packet) (y : TileOp) : TileOp :=
  { y with data := y.data.take p.cobj.toNat ++ p.payload ++ y.data.drop (p.cobj.toNat + p.payload.length) }

/-- A tile access that has moved more bytes. -/
def TileOp.moved (m : Nat) (y : TileOp) : TileOp := { y with count := y.count + m }

theorem exec_tlddat {s : State} {p : Packet} {rest : List Packet} (h : s.rxq = p :: rest) (hk : p.kind = 0x09#5) (hop : p.op = 0) {x : Tx}
    (ht : (Claims.fabricTaken s rest).txOf p = some x) {f : FibId} {n : Nat} {off : Word} (hx : x.kind = .tile f n off) :
    exec .tlddat s = .next (((Claims.fabricTaken s rest).modTile n (TileOp.placed p)).tileMoved x n p.payload.length) := by
  rw [show exec .tlddat s = execTlddat s from rfl, execTlddat, State.recvFabric_head h hk, ht]
  dsimp only
  rw [hx]
  exact congrArg _ (if_neg (fun hne => hne hop))

/-- Bytes of a peer tile have moved: the access holds them, and its fibres go on unless a load has bytes still to come. -/
theorem State.tileMoved_spec {s : State} (h : Claims.calm s) (x : Tx) {n : Nat} {y : TileOp} (hy : s.tile n = some y) (m : Nat) :
    (s.tileMoved x n m).mem = s.mem ∧ (s.tileMoved x n m).tile n = some (y.moved m) ∧
      (y.load = true → (y.moved m).finished = false → (s.tileMoved x n m).wgs = s.wgs) ∧
      (y.load = false ∨ (y.moved m).finished = true → Claims.remoteAnswered s (s.tileMoved x n m) x.dst x.tag []) := by
  have htile : (s.modTile n (TileOp.moved m)).tile n = some (y.moved m) := by
    rw [State.tile_modTile, hy]
    · rfl
    · exact fun _ => rfl
  have hanswered := remoteAnswered_answerRemote (s.modTile n (TileOp.moved m)) x.dst x.tag []
  have hmoved : s.tileMoved x n m =
      let u := if (y.moved m).load && !(y.moved m).finished then s.modTile n (TileOp.moved m) else (s.modTile n (TileOp.moved m)).answerRemote x.dst x.tag []
      if !(y.moved m).finished then u else if (y.moved m).ready then (u.dropTx x).later 1 (.tileUnlatch n) else u.dropTx x := by
    unfold State.tileMoved
    dsimp only
    rw [show s.modTile n (fun y => { y with count := y.count + m }) = s.modTile n (TileOp.moved m) from rfl, htile]
  rw [hmoved]
  cases hfin : (y.moved m).finished with
  | false =>
    cases hload : y.load with
    | true =>
      rw [show (y.moved m).load = true from hload]
      exact ⟨rfl, htile, fun _ _ => rfl, fun hc => by simp at hc⟩
    | false =>
      rw [show (y.moved m).load = false from hload]
      exact ⟨rfl, htile, fun hc => by simp at hc, fun _ => hanswered⟩
  | true =>
    rw [Bool.not_true, Bool.and_false]
    obtain ⟨_, _, _, _, he⟩ := State.dropTx_spec (s := (s.modTile n (TileOp.moved m)).answerRemote x.dst x.tag []) h x
    simp only [Bool.false_eq_true, if_false]
    rw [he]
    have hdone := remoteAnswered_of_wgs hanswered (u := { (s.modTile n (TileOp.moved m)).answerRemote x.dst x.tag [] with
      txs := _, agenda := _, shootsIn := _, txq := _, performed := _ }) rfl
    split
    · exact ⟨rfl, htile, fun _ hc => by simp at hc, fun _ => hanswered⟩
    · exact ⟨rfl, htile, fun _ hc => by simp at hc, fun _ => hanswered⟩

/-! ## Refusals (R35, R40) -/

theorem refusedEffect_eq (p : Packet) : (if p.op = 0x11#8 ∧ p.off.getLsbD 0 = true then 0x0D2#12 else effectOf p.op) = Claims.refusedEffect p := by
  unfold Claims.refusedEffect effectOf
  by_cases h : p.op = 0x11#8
  · rw [h]
    cases p.off.getLsbD 0 <;> rfl
  · rw [if_neg (fun hc => h hc.1), if_neg (c := p.op = 0x11#8) h, if_neg (c := p.op = 0x11) h]
    rfl

theorem exec_nack_access {s : State} {p : Packet} {rest : List Packet} (h : s.rxq = p :: rest) (hk : p.kind = 0x07#5)
    (hn : ¬((p.op = 0x21#8 ∨ p.op = 0x22#8) ∧ p.len = 6)) {x : Tx} (ht : (Claims.fabricTaken s rest).txOf p = some x) {f : FibId} {off : Word}
    (hx : x.kind = .load f off ∨ x.kind = .store f off ∨ x.kind = .atomic f off) :
    exec .nack s = .next (((Claims.fabricTaken s rest).failRemote x.dst x.tag (Claims.refusedEffect p) off (if p.op = 0x11 then some x.key else none)).dropTx x) := by
  rw [show exec .nack s = execNack s from rfl, execNack, State.recvFabric_head h hk, ← refusedEffect_eq]
  dsimp only
  rw [if_neg hn, ht]
  dsimp only
  rcases hx with hx | hx | hx
  · rw [hx]; rfl
  · rw [hx]; rfl
  · rw [hx]; rfl

theorem State.failRemote_one {s : State} {dst tag : Nat} {f : FibId} {g : Fibre} (h : s.allFibres.filter (fun z => z.2.wait == .remote dst tag) = [(f, g)])
    (t : BitVec 12) (off : Word) (key : Option HamperKey) :
    s.failRemote dst tag t off key = (s.modFib f (fun h => { h with wait := .none })).raise f (Eff.fault t off g.pc key) := by
  unfold State.failRemote
  rw [h]
  rfl

theorem exec_nack_command {s : State} {p : Packet} {rest : List Packet} (h : s.rxq = p :: rest) (hk : p.kind = 0x07#5)
    (hn : ¬((p.op = 0x21#8 ∨ p.op = 0x22#8) ∧ p.len = 6)) {x : Tx} (ht : (Claims.fabricTaken s rest).txOf p = some x) {n off len : Nat}
    (hx : x.kind = .put n off len ∨ x.kind = .get n off len) {c : Command} (hc : ((Claims.fabricTaken s rest).dropTx x).cmd n = some c) (hst : c.st = .running)
    (hop : p.op ≠ 0x11#8) : exec .nack s = .next (((Claims.fabricTaken s rest).dropTx x).finish n p.op c.reached) := by
  have hrefused : (Claims.fabricTaken s rest).cmdRefused x n off len p = ((Claims.fabricTaken s rest).dropTx x).finish n p.op c.reached := by
    unfold State.cmdRefused
    dsimp only
    rw [hc]
    exact (if_neg (by rw [hst]; decide)).trans (if_pos hop)
  rw [show exec .nack s = execNack s from rfl, execNack, State.recvFabric_head h hk, ← hrefused]
  dsimp only
  rw [if_neg hn, ht]
  dsimp only
  rcases hx with hx | hx
  · rw [hx]
  · rw [hx]

/-- A refused command's requests: none is left of the transaction, and none is its own. -/
theorem State.finish_txs {s : State} {x : Tx} {n : Nat} {ts : List Tx} (h : ∀ z ∈ ts, ∃ y ∈ Claims.txsWithout s x, z = if y.kind.isOf n then { y with kind := .gone } else y) :
    ∀ z ∈ ts, (z.dst ≠ x.dst ∨ z.tag ≠ x.tag) ∧ z.kind.isOf n = false := by
  intro z hz
  obtain ⟨y, hy, rfl⟩ := h z hz
  have hne : y.dst ≠ x.dst ∨ y.tag ≠ x.tag := by
    have := (List.mem_filter.mp hy).2
    simpa [or_iff_not_imp_left] using this
  split
  case isTrue => exact ⟨hne, rfl⟩
  case isFalse hof => exact ⟨hne, by simpa using hof⟩

/-! ## Packets for other positions (R41, R55) -/

/-- The state once a packet for another position is dropped, kept for a relay fold, or sent on. -/
def State.relayed (s : State) (p : Packet) : State :=
  if (s.peer p.dst.val).died then s
  else if p.kind == 0x0B#5 && s.relayWindow p then { s with relay := s.relay ++ [p] }
  else { s with txq := s.txq ++ [{ p with hop2 := true, vc := true, sched := false }] }

theorem exec_detourRelay {s : State} {p : Packet} {rest : List Packet} (h : s.rxq = p :: rest) (hd : p.dst.val ≠ s.pos) :
    exec .detourRelay s = .next ((Claims.fabricTaken s rest).relayed p) := by
  rw [show exec .detourRelay s = execDetourRelay s from rfl, execDetourRelay, h]
  exact if_neg hd

theorem State.relayed_spec (s : State) (p : Packet) :
    (s.relayed p).rxq = s.rxq ∧ (s.relayed p).mem = s.mem ∧ (s.relayed p).wgs = s.wgs ∧
      ((s.peer p.dst.val).died = true → (s.relayed p).txq = s.txq ∧ (s.relayed p).relay = s.relay) ∧
      ((s.peer p.dst.val).died = false → p.kind = 0x0B → s.relayWindow p = true → (s.relayed p).txq = s.txq ∧ (s.relayed p).relay = s.relay ++ [p]) ∧
      ((s.peer p.dst.val).died = false → p.kind ≠ 0x0B ∨ s.relayWindow p = false →
        (s.relayed p).relay = s.relay ∧ (s.relayed p).txq = s.txq ++ [{ p with hop2 := true, vc := true, sched := false }]) := by
  unfold State.relayed
  cases hdied : (s.peer p.dst.val).died with
  | true =>
    rw [if_pos rfl]
    exact ⟨rfl, rfl, rfl, fun _ => ⟨rfl, rfl⟩, fun hc => absurd hc (by decide), fun hc => absurd hc (by decide)⟩
  | false =>
    rw [if_neg (by decide)]
    by_cases hr : (p.kind == 0x0B#5 && s.relayWindow p) = true
    · rw [if_pos hr]
      refine ⟨rfl, rfl, rfl, fun hc => absurd hc (by decide), fun _ _ _ => ⟨rfl, rfl⟩, fun _ hc => ?_⟩
      rw [Bool.and_eq_true, beq_iff_eq] at hr
      rcases hc with hc | hc
      · exact absurd hr.1 hc
      · exact absurd (hr.2.symm.trans hc) (by decide)
    · rw [if_neg hr]
      refine ⟨rfl, rfl, rfl, fun hc => absurd hc (by decide), fun _ hk hw => ?_, fun _ _ => ⟨rfl, rfl⟩⟩
      exact absurd (by rw [Bool.and_eq_true, beq_iff_eq]; exact ⟨hk, hw⟩) hr

/-! ## Notes (R35, R38, R151, R215) -/

/-- From s to t commands have been set going and are to be looked at: nothing else has changed. -/
def Poked (s t : State) : Prop := ∃ cs a, t = { s with cmds := cs, agenda := a }

theorem Poked.refl (s : State) : Poked s s := ⟨s.cmds, s.agenda, rfl⟩

theorem Poked.trans {s t u : State} (h : Poked s t) (h' : Poked t u) : Poked s u := by
  obtain ⟨_, _, rfl⟩ := h
  obtain ⟨cs, a, rfl⟩ := h'
  exact ⟨cs, a, rfl⟩

theorem Poked.over {α : Type} {f : State → α → State} (h : ∀ s x, Poked s (f s x)) (xs : List α) (s : State) : Poked s (s.over xs f) := by
  induction xs generalizing s with
  | nil => exact .refl s
  | cons x xs ih => exact (h s x).trans (ih _)

theorem poked_poke (s : State) (ns id : Nat) : Poked s (s.poke ns id) := by
  obtain ⟨a, he⟩ := s.poke_spec ns id
  exact ⟨s.cmds, a, he⟩

theorem poked_modCmd (s : State) (n : Nat) (f : Command → Command) : Poked s (s.modCmd n f) := ⟨_, s.agenda, rfl⟩

/-- The commands that stalled on a record go on, and those that run beside them look again. -/
def State.commandsGo (s : State) (die n : Nat) : State :=
  let cs := s.cmds.filter (fun c => c.onRec die n)
  let s := s.over cs (fun s c => (s.modCmd c.id (fun c => { c with st := .running })).poke 1 c.id)
  s.over (s.cmds.filter (fun c => c.st == .running && c.kind != .join && cs.any (fun x => x.eng == c.eng && x.q == c.q))) (fun s c => s.poke 2 c.id)

theorem poked_commandsGo (s : State) (die n : Nat) : Poked s (s.commandsGo die n) :=
  (Poked.over (fun _ _ => (poked_modCmd ..).trans (poked_poke ..)) _ s).trans (.over (fun _ _ => poked_poke ..) _ _)

theorem State.releaseRec_eq (s : State) (die n : Nat) :
    s.releaseRec die n = (((s.dispatchRec die n false).wakeAll (fun w => w.onRec die n)).commandsGo die n).wakesAgain := rfl

/-- A record is released: its fibres are made ready, its commands go on, and nothing else of fibres or memory has changed. -/
theorem State.releaseRec_spec {s : State} (h : s.wakes = []) (die n : Nat) :
    (s.releaseRec die n).mem = s.mem ∧ (s.releaseRec die n).wgs = ((s.dispatchRec die n false).wakeAll (fun w => w.onRec die n)).wgs := by
  obtain ⟨_, _, _, hwoken⟩ := woken_wakeAll (s.dispatchRec die n false) (fun w => w.onRec die n)
  obtain ⟨_, _, hpoked⟩ := poked_commandsGo ((s.dispatchRec die n false).wakeAll (fun w => w.onRec die n)) die n
  have hwakes : (((s.dispatchRec die n false).wakeAll (fun w => w.onRec die n)).commandsGo die n).wakes = [] := by
    rw [hpoked, hwoken]
    exact h
  rw [State.releaseRec_eq, State.wakesAgain_none hwakes, hpoked]
  refine ⟨?_, rfl⟩
  rw [hwoken]
  rfl

/-- What a note asks for, with the record that it names. -/
def State.noted (s : State) (p : Packet) (die n : Nat) : State :=
  let region := p.off.toNat / 2097152
  let k : HamperKey := ⟨p.asid.toNat, p.obj.toNat, some region, p.cobj.getLsbD 0⟩
  match p.op.toNat with
  | 1 => (match s.entry k.asid k.obj with
      | none => s.noteTo p.src.val 3 k die n
      | some e =>
        let asked := { s with asks := s.asks ++ [Ask.mk p.src.val k die n] }
        if k.write && s.rcOn e k.asid k.obj p.off.toNat then asked.startShoot k.asid k.obj region
        else if s.regionResident e region then s.noteTo p.src.val 2 k die n
        else asked.hamperEnter 0 k)
  | 2 => s.releaseRec die n
  | 3 => s.endRec die n
  | 4 => s.failUnits (fun u => u.level == die && u.num == n && u.mask.getLsbD p.src.val)
  | _ => s

theorem exec_note {s : State} {p : Packet} {rest : List Packet} (h : s.rxq = p :: rest) (hk : p.kind = 0x11) :
    exec .note s = .next ((Claims.fabricTaken s rest).noted p (Claims.littleEndian (p.payload.take 4)) (Claims.littleEndian ((p.payload.drop 4).take 8))) := by
  rw [← bytesNat_eq, ← bytesNat_eq]
  exact State.recvFabric_head h hk (fun p s => s.noted p (pnum p 0 4) (pnum p 4 8))

theorem State.noted_release {s : State} {p : Packet} (hop : p.op = 2) (die n : Nat) : s.noted p die n = s.releaseRec die n := by
  unfold State.noted
  rw [hop]
  rfl

theorem State.noted_end {s : State} {p : Packet} (hop : p.op = 3) (die n : Nat) : s.noted p die n = s.endRec die n := by
  unfold State.noted
  rw [hop]
  rfl

theorem State.noted_failed {s : State} {p : Packet} (hop : p.op = 4) (die n : Nat) :
    s.noted p die n = s.failUnits (fun u => u.level == die && u.num == n && u.mask.getLsbD p.src.val) := by
  unfold State.noted
  rw [hop]
  rfl

/-- A note that asks for a resident region to read is answered with its release. -/
theorem State.noted_resident {s : State} {p : Packet} (hop : p.op = 1) {e : OEntry} (he : s.entry p.asid.toNat p.obj.toNat = some e) (hw : p.cobj.getLsbD 0 = false)
    (hr : s.regionResident e (p.off.toNat / 2097152) = true) (die n : Nat) :
    s.noted p die n = s.noteTo p.src.val 2 ⟨p.asid.toNat, p.obj.toNat, some (p.off.toNat / 2097152), false⟩ die n := by
  unfold State.noted
  rw [hop]
  dsimp only
  rw [hw]
  show (match s.entry p.asid.toNat p.obj.toNat with | none => _ | some e => _) = _
  rw [he]
  exact (if_neg (by simp)).trans (if_pos hr)

/-- Settles O41: what an answer gives and ends by the kind of its transaction, and what is done with a packet for another position and with a note. -/
theorem fabricAnswersAndNotes : Obligations.fabric_answers_and_notes := by
  unfold Obligations.fabric_answers_and_notes
  refine ⟨?answers, ?notes⟩
  case answers =>
    intro s p rest x h ht hcalm
    have hcalm' : Claims.calm (Claims.fabricTaken s rest) := hcalm
    refine ⟨?load, ?atomic, ?store, ?put, ?tile, ?get, ?nack⟩
    case load =>
      intro f off hk hx
      obtain ⟨_, _, _, _, _, _, _, hkeep⟩ := homeTouched_keepRc (Claims.fabricTaken s rest) x p
      have hexec := exec_ldrsp_load h hk ht hx
      rw [hkeep] at hexec
      exact ⟨_, hexec, State.answered_dropTx (by exact hcalm) x p.payload⟩
    case atomic => exact fun f off hk hx => ⟨_, exec_atrsp_atomic h hk ht hx, State.answered_dropTx hcalm' x p.payload⟩
    case store => exact fun f off hk hx => ⟨_, exec_ack_store h hk ht hx, State.answered_dropTx hcalm' x []⟩
    case put =>
      intro n off len c hk hx hc hkind hexch
      obtain ⟨_, _, _, _, hdrop⟩ := State.dropTx_spec hcalm' x
      have hcmd : ((Claims.fabricTaken s rest).dropTx x).cmd n = some c := by rw [hdrop]; exact hc
      obtain ⟨hcount, _, _, he⟩ := State.counted_spec hcmd
      exact ⟨_, exec_ack_put h hk ht hx hcmd hkind hexch, by rw [he, hdrop]; rfl, by rw [he, hdrop]; rfl, hcount⟩
    case tile =>
      intro f n off y hk hop hx hy
      have hplaced : ((Claims.fabricTaken s rest).modTile n (TileOp.placed p)).tile n = some (y.placed p) := by
        rw [State.tile_modTile]
        · exact congrArg (Option.map _) hy
        · exact fun _ => rfl
      obtain ⟨hm, htile, hwait, hgo⟩ := State.tileMoved_spec (s := (Claims.fabricTaken s rest).modTile n (TileOp.placed p)) hcalm x hplaced p.payload.length
      exact ⟨_, exec_tlddat h hk hop ht hx, hm, htile, fun hl hf id => congrFun (State.fib_of_wgs (hwait hl hf)) id, hgo⟩
    case get =>
      intro n off len c dst y m more hk hx hc hst hstop hdst hfailed hstall hlost hwalk hy hbad hl hl'
      have hreached : dst.reached = true := by
        cases dst with
        | failed e => exact absurd rfl (hfailed e)
        | stall k => exact absurd rfl (hstall k)
        | lost a => exact absurd rfl (hlost a)
        | walk d a b e => exact absurd rfl (hwalk d a b e)
        | _ => rfl
      have hexec := exec_getdat h hk ht hx rfl hc hst hstop hdst hreached hy hbad hl hl'
      have hkey : ((Claims.fabricTaken s rest).dropTx x).keyOf c.asid = s.keyOf c.asid := by
        obtain ⟨_, _, _, _, hdrop⟩ := State.dropTx_spec hcalm' x
        rw [hdrop]
        rfl
      rw [hkey] at hexec
      have hcmd : ((((Claims.fabricTaken s rest).dropTx x).spanWrite c p.payload dst).countIn (s.keyOf c.asid) y len).cmd n = some c := by
        obtain ⟨_, _, _, _, _, _, _, _, _, _, _, _, he⟩ := homeWork_homeStore (((Claims.fabricTaken s rest).dropTx x).spanWrite c p.payload dst) (s.keyOf c.asid) y
          (natBytes 8 (bytesNat ((((Claims.fabricTaken s rest).dropTx x).spanWrite c p.payload dst).rd (s.keyOf c.asid) y 8) + len))
        unfold State.cmd State.countIn
        rw [he]
        exact (congrArg (List.find? _) (State.spanWrite_cmds ..)).trans hc
      obtain ⟨hcount, _, _, he⟩ := State.counted_spec hcmd
      exact ⟨_, hexec, hcount, by rw [he]⟩
    case nack =>
      intro hk hn
      refine ⟨fun f off g hx hone => ?_, fun n off len c hx hc hst hop hzero hexch => ?_⟩
      · rw [exec_nack_access h hk hn ht hx]
        exact congrArg (fun u : State => Host.Outcome.next (u.dropTx x)) (State.failRemote_one (s := Claims.fabricTaken s rest) hone _ _ _)
      · obtain ⟨_, _, _, _, hdrop⟩ := State.dropTx_spec hcalm' x
        have hcmd : ((Claims.fabricTaken s rest).dropTx x).cmd n = some c := by rw [hdrop]; exact hc
        obtain ⟨_, _, _, ts, _, he, hfin, hts⟩ := State.finish_spec hcmd hexch hzero c.reached
        refine ⟨_, exec_nack_command h hk hn ht hx hcmd hst hop, ?_, ?_, hfin⟩
        · rw [he, hdrop]
          rfl
        · rw [hdrop] at hts
          rw [he]
          exact State.finish_txs (s := s) hts
  case notes =>
    intro s p rest h
    refine ⟨fun hd => ⟨_, exec_detourRelay h hd, (Claims.fabricTaken s rest).relayed_spec p⟩, fun hk => ?_⟩
    have hexec := exec_note h hk
    refine ⟨fun hop hwakes => ?_, fun hop => ?_, fun hop => ?_, fun e hop he hw hr => ?_⟩
    · obtain ⟨hm, hwgs⟩ := State.releaseRec_spec (s := Claims.fabricTaken s rest) hwakes (Claims.littleEndian (p.payload.take 4)) (Claims.littleEndian ((p.payload.drop 4).take 8))
      refine ⟨_, hexec.trans (congrArg _ (State.noted_release hop _ _)), hm, fun id f hf hrec => ?_, fun hnone id => ?_⟩
      · rw [State.fib_of_wgs hwgs]
        exact State.fib_wakeAll (s := (Claims.fabricTaken s rest).dispatchRec _ _ false) hf hrec
      · rw [State.fib_of_wgs hwgs, State.wakeAll_none]
        · rfl
        · exact hnone
    · exact hexec.trans (congrArg _ (State.noted_end hop _ _))
    · exact hexec.trans (congrArg _ (State.noted_failed hop _ _))
    · exact hexec.trans (congrArg _ (State.noted_resident (s := Claims.fabricTaken s rest) hop he hw hr _ _))

end Sys2Proof.Machine
end

section
/-! PROOFS. What is known of the peers, and what management was told: no effect, no end of a transaction and no loss of a peer's work changes these (R23, R31, R38). -/

namespace Sys2Proof.Machine

/-- From s to t what is known of the peers has not changed, and what management was told it has been told. -/
structure Kept (s t : State) : Prop where
  peers : t.peers = s.peers
  told : ∀ m ∈ s.mgmtOut, m ∈ t.mgmtOut

theorem Kept.same {s t : State} (hp : t.peers = s.peers) (hm : t.mgmtOut = s.mgmtOut) : Kept s t := ⟨hp, fun _ h => hm ▸ h⟩

theorem Kept.refl (s : State) : Kept s s := .same rfl rfl

theorem Kept.trans {s t u : State} (h : Kept s t) (h' : Kept t u) : Kept s u := ⟨h'.peers.trans h.peers, fun m hm => h'.told m (h.told m hm)⟩

/-- The same, told from the last change back to the first. -/
theorem Kept.after {s t u : State} (h : Kept t u) (h' : Kept s t) : Kept s u := h'.trans h

theorem Kept.over {α : Type} {f : State → α → State} (h : ∀ s x, Kept s (f s x)) (xs : List α) (s : State) : Kept s (s.over xs f) := by
  induction xs generalizing s with
  | nil => exact .refl s
  | cons x xs ih => exact (h s x).trans (ih _)

theorem Kept.ite {c : Prop} [Decidable c] {s t u : State} (h : Kept s t) (h' : Kept s u) : Kept s (if c then t else u) := by
  split
  · exact h
  · exact h'

theorem HomeWork.kept {s t : State} (h : HomeWork s t) : Kept s t := by
  obtain ⟨_, _, _, _, _, _, _, _, _, _, _, _, rfl⟩ := h
  exact .same rfl rfl

/-! ## Fields of the state -/

theorem kept_modFib (s : State) (id : FibId) (f : Fibre → Fibre) : Kept s (s.modFib id f) := .same rfl rfl
theorem kept_modCore (s : State) (n : Nat) (f : Core → Core) : Kept s (s.modCore n f) := .same rfl rfl
theorem kept_later (s : State) (n : Nat) (ev : Instr) : Kept s (s.later n ev) := .same rfl rfl
theorem kept_modCmd (s : State) (n : Nat) (f : Command → Command) : Kept s (s.modCmd n f) := .same rfl rfl
theorem kept_toMgmt (s : State) (m : MgmtOut) : Kept s (s.toMgmt m) := ⟨rfl, fun _ h => List.mem_append_left _ h⟩
theorem kept_acquireAt (s : State) (core scope : Nat) : Kept s (s.acquireAt core scope) := .ite (.refl s) (.same rfl rfl)

theorem kept_modWg (s : State) (l w : Nat) (f : Wg → Wg) : Kept s (s.modWg l w f) := .same rfl rfl
theorem kept_modLaunch (s : State) (l : Nat) (f : Launch → Launch) : Kept s (s.modLaunch l f) := .same rfl rfl
theorem kept_modUnit (s : State) (l lvl num : Nat) (f : BarUnit → BarUnit) : Kept s (s.modUnit l lvl num f) := .same rfl rfl
theorem kept_nextRound (s : State) (l lvl num : Nat) (phase : Bool) : Kept s (s.nextRound l lvl num phase) := .same rfl rfl
theorem kept_setPair (s : State) (p : Nat) (v : Pair) : Kept s (s.setPair p v) := .same rfl rfl

theorem kept_poke (s : State) (n id : Nat) : Kept s (s.poke n id) := by
  unfold State.poke
  exact .ite (.refl s) (kept_later ..)

/-! ## Segments and records -/

theorem kept_segSet (s : State) (a seg off n x : Nat) : Kept s (s.segSet a seg off n x) := (homeWork_segSet s a seg off n x).kept

theorem kept_segSetCap (s : State) (a seg off : Nat) (c : Cap) : Kept s (s.segSetCap a seg off c) := by
  unfold State.segSetCap
  split
  · exact .refl s
  · dsimp only
    exact (homeWork_put ..).kept.trans (homeWork_withMem ..).kept

theorem kept_setRecWord (s : State) (a r serial reply st : Nat) : Kept s (s.setRecWord a r serial reply st) := kept_segSet ..

theorem kept_initSeg (s : State) (a seg lnk usd flags : Nat) : Kept s (s.initSeg a seg lnk usd flags) :=
  (kept_segSet s a seg 0 8 lnk).trans ((kept_segSet ..).trans ((kept_segSet ..).trans (kept_segSet ..)))

theorem kept_setHdr (s : State) (a seg off : Nat) (h : Hdr) : Kept s (s.setHdr a seg off h) :=
  (kept_segSet s a seg off 4 h.ret).trans ((kept_segSet ..).trans ((kept_segSet ..).trans ((kept_segSet ..).trans (kept_segSet ..))))

theorem kept_initRecord (s : State) (a r : Nat) : Kept s (s.initRecord a r) := (kept_segSet s a r 16 1008 0).trans (kept_initSeg ..)

theorem kept_bodyFrame (s : State) (a seg h : Nat) (H : HFrame) : Kept s (s.bodyFrame a seg h H) :=
  (kept_initSeg s a seg h 0x030 0).trans ((kept_setHdr ..).trans (kept_segSetCap ..))

theorem kept_recRegs (s : State) (a r : Nat) (f : Fibre) (full : Bool) : Kept s (s.recRegs a r f full) := by
  unfold State.recRegs
  refine .trans (.over (fun s n => ?_) _ _) (.trans (.over (fun s n => ?_) _ _) ((kept_segSet ..).trans ((kept_segSet ..).trans ((kept_segSet ..).trans (kept_segSet ..)))))
  · exact .ite (kept_segSet ..) (.refl s)
  · exact .ite (kept_segSetCap ..) (.refl s)

theorem kept_nextSerial (s : State) (a : Nat) : Kept s (s.nextSerial a).2 := by
  unfold State.nextSerial
  split
  · exact .refl s
  · exact .same rfl rfl

theorem kept_takeSeg {s t : State} {id : FibId} {n : Nat} (h : s.takeSeg id = some (n, t)) : Kept s t := by
  unfold State.takeSeg at h
  split at h
  · cases h
  · dsimp only at h
    split at h
    · cases h; exact .same rfl rfl
    · split at h
      · cases h
      · split at h
        · cases h
        · cases h; exact .same rfl rfl

theorem kept_giveSeg (s : State) (a seg : Nat) : Kept s (s.giveSeg a seg) := by
  unfold State.giveSeg
  split
  · exact .refl s
  · exact .same rfl rfl

/-- A fibre leaves: its segments are given back, and it is gone from its workgroup. -/
theorem kept_leave (s : State) (a : Nat) (segs : List Nat) (id : FibId) :
    Kept s ((s.over segs (fun s n => s.giveSeg a n)).modWg id.launch id.wgid (fun g => { g with fibres := g.fibres.filter (fun x => x.fid != id.fid) })) :=
  .after (kept_modWg ..) (.over (fun _ _ => kept_giveSeg ..) _ _)

theorem kept_endFibre (s : State) (id : FibId) (abort : Option (BitVec 12)) : Kept s (s.endFibre id abort) := by
  unfold State.endFibre
  split
  case h_1 => exact .refl s
  case h_2 f _ =>
    have hrecord : Kept s (match f.wait with
        | .reply r => s.setRecWord (s.asidOf id.launch) r (recSerial (s.recWord (s.asidOf id.launch) r)) (recReply (s.recWord (s.asidOf id.launch) r)) stDiscarded
        | _ => s) := by
      split
      · exact kept_setRecWord ..
      · exact .refl s
    cases abort with
    | none => exact hrecord.trans (kept_leave ..)
    | some t => exact hrecord.trans ((kept_leave ..).trans (kept_modLaunch ..))

/-! ## Caches that are written back -/

theorem kept_sectorLost (s : State) (core asid obj sector pa : Nat) : Kept s (s.sectorLost core asid obj sector pa) := by
  unfold State.sectorLost
  refine .after (.over (fun s g => ?_) _ _) (.same rfl rfl)
  exact (homeTouched_doom ..).homeWork.kept

theorem kept_writeBack (s : State) (core asid obj line : Nat) : Kept s (s.writeBack core asid obj line) := by
  unfold State.writeBack
  split
  · exact .refl s
  · dsimp only
    split
    · exact kept_modCore ..
    · exact (kept_modCore ..).trans (.over (fun s k => .ite (.refl s) (.ite (kept_sectorLost ..) (homeWork_homeWrite ..).kept)) _ _)

theorem kept_drainGo (s : State) (core : Nat) (xs : List (Nat × Nat × Nat)) : Kept s (s.drainGo core xs).1 := by
  induction xs generalizing s with
  | nil => exact .refl s
  | cons x xs ih =>
    unfold State.drainGo
    split
    · exact .refl s
    · exact (kept_writeBack ..).trans (ih _)

theorem kept_releaseAll (s : State) (core scope : Nat) : Kept s (s.releaseAll core scope).1 := by
  unfold State.releaseAll
  split
  · exact .refl s
  · exact kept_drainGo ..

/-! ## Effects -/

theorem kept_hostRequest {s t : State} {k : Nat} {p : Packet} {kind : HTxKind} {core len : Nat} {key : HamperKey} {n : Nat}
    (h : s.hostRequest k p kind core len key = some (t, n)) : Kept s t := by
  unfold State.hostRequest at h
  obtain ⟨tag, -, ht⟩ := Option.map_eq_some_iff.mp h
  cases ht
  exact .after (kept_later ..) (.ite (.same rfl rfl) (.same rfl rfl))

theorem kept_callOut (s : State) (id : FibId) (e : Eff) (r : Nat) : Kept s (s.callOut id e r) := by
  unfold State.callOut
  split
  · exact .refl s
  · unfold State.sendCall
    dsimp only
    split
    case h_1 => exact .refl s
    case h_2 h => exact (kept_hostRequest h).trans (kept_modCmd ..)

theorem kept_rootPark {s t : State} {id : FibId} {e : Eff} {wake r : Nat} (h : s.rootPark id e wake = some (t, r)) : Kept s t := by
  unfold State.rootPark at h
  split at h
  case h_1 => cases h
  case h_2 hseg =>
    dsimp only at h
    split at h
    · cases h
    · obtain ⟨rfl, -⟩ := Prod.mk.inj (Option.some.inj h)
      refine .after (kept_modFib ..) (.after (kept_setRecWord ..) (.after (kept_nextSerial ..) (.after (kept_segSet ..) (.after (kept_recRegs ..) ?_))))
      refine .after (kept_segSet ..) (.after (kept_segSet ..) (.after (kept_segSet ..) (.after (kept_segSet ..) (.after (kept_segSet ..) (.after (kept_segSet ..) ?_)))))
      exact .after (kept_segSetCap ..) (.after (kept_segSet ..) (.after (kept_segSet ..) (.after (kept_initRecord ..) (.after (kept_modFib ..) (kept_takeSeg hseg)))))

theorem kept_rootAction (s : State) (id : FibId) (e : Eff) : Kept s (s.rootAction id e) := by
  unfold State.rootAction
  dsimp only
  split
  · exact kept_modFib ..
  · exact .ite (kept_modFib ..) (kept_modFib ..)
  · exact .ite (kept_modFib ..) (kept_modFib ..)
  · exact kept_modFib ..
  · exact .same rfl rfl
  · exact .same rfl rfl
  · exact (kept_toMgmt ..).trans (kept_endFibre ..)
  · exact .same rfl rfl
  · exact kept_endFibre ..

theorem kept_capture {s t : State} {id : FibId} {e : Eff} {h oc reply wake r : Nat} (hc : s.capture id e h oc reply wake = some (t, r)) : Kept s t := by
  unfold State.capture at hc
  split at hc
  case h_1 => cases hc
  case h_2 hseg =>
    split at hc
    case h_1 => cases hc
    case h_2 hseg' =>
      dsimp only at hc
      split at hc
      · cases hc
      · obtain ⟨rfl, -⟩ := Prod.mk.inj (Option.some.inj hc)
        refine .after (kept_modFib ..) (.after (kept_modFib ..) (.after (kept_segSet ..) (.after (kept_bodyFrame ..) (.after (kept_setRecWord ..) ?_))))
        refine .after (kept_nextSerial ..) (.after (kept_segSet ..) (.after (kept_recRegs ..) ?_))
        refine .after (kept_segSet ..) (.after (kept_segSet ..) (.after (kept_segSet ..) (.after (kept_segSet ..) (.after (kept_segSet ..) (.after (kept_segSet ..) ?_)))))
        refine .after (kept_segSetCap ..) (.after (kept_segSet ..) (.after (kept_segSet ..) (.after (kept_initRecord ..) ?_)))
        exact .after (kept_modFib ..) (.after (kept_releaseAll ..) (.after (kept_takeSeg hseg') (kept_takeSeg hseg)))

theorem kept_performGo (s : State) (id : FibId) (e : Eff) : Kept s (s.performGo id e) := by
  unfold State.performGo
  split
  case h_1 => exact .refl s
  case h_2 =>
    dsimp only
    refine .ite (.after (kept_modFib ..) (kept_releaseAll ..)) ?_
    split
    case h_1 hsome =>
      refine .trans ?_ (kept_callOut ..)
      split at hsome
      · split at hsome
        · exact kept_rootPark hsome
        · cases hsome
          exact kept_rootAction ..
      · exact kept_capture hsome
    case h_2 =>
      refine .ite (kept_endFibre ..) ?_
      split
      · exact kept_rootAction ..
      · refine .ite (.after (kept_modFib ..) (kept_releaseAll ..)) ?_
        split
        case h_1 hsome => exact kept_capture hsome
        case h_2 => exact kept_endFibre ..

theorem kept_perform (s : State) (id : FibId) (e : Eff) : Kept s (s.perform id e) := by
  unfold State.perform State.logEff
  split
  · exact .refl s
  · refine .trans ?_ (kept_performGo ..)
    split
    · exact .refl s
    · exact .ite (.same rfl rfl) (.refl s)

/-! ## Crews and barriers -/

theorem kept_crewFinish (s : State) (l w W crew : Nat) (i : Instr) (mask : DWord) (arr : List Fibre) : Kept s (s.crewFinish l w W crew i mask arr) := by
  unfold State.crewFinish
  split
  · exact .refl s
  · dsimp only
    refine .over (fun s f => ?_) _ _
    split
    · split
      · exact kept_modFib ..
      · refine .ite (.after (kept_perform ..) (.after (kept_modFib ..) ?_)) ?_
        · exact .ite (kept_modFib ..) (.after (kept_later ..) (kept_modFib ..))
        · exact .ite (kept_modFib ..) (.after (kept_later ..) (kept_modFib ..))
    · exact .refl s

theorem kept_crewCheck (s : State) (l w crew : Nat) : Kept s (s.crewCheck l w crew) := by
  unfold State.crewCheck
  split
  · split
    · exact .refl s
    · exact .refl s
    · split
      · exact .ite (kept_crewFinish ..) (.over (fun s x => .after (kept_perform ..) (kept_modFib ..)) _ _)
      · exact .refl s
  · exact .refl s

theorem kept_settleCrewsGo (l w n : Nat) (s : State) : Kept s (State.settleCrewsGo l w n s) := by
  induction n generalizing s with
  | zero => exact .refl s
  | succ n ih =>
    unfold State.settleCrewsGo
    split
    · dsimp only
      split
      · exact .refl s
      · exact (kept_crewCheck ..).trans (ih _)
    · exact .refl s

theorem kept_sbTo (s : State) (q : Nat) (m : Sideband) : Kept s (s.sbTo q m).1 := by
  unfold State.sbTo
  exact .over (fun s p => kept_setPair ..) _ s

theorem kept_sendBarrier (s : State) (grid : Bool) (num : Nat) (phase : Bool) (mask : BitVec 16) : Kept s (s.sendBarrier grid num phase mask) := by
  refine .over (fun s q => ?_) _ s
  split
  · exact .refl s
  · exact kept_sbTo ..

theorem kept_roundDone (s : State) (scope lvl num : Nat) (ms : List (FibId × Fibre)) : Kept s (s.roundDone scope lvl num ms) := by
  refine .over (fun s m => .ite (.refl s) ?_) _ s
  dsimp only
  split
  · exact .ite (.after (kept_acquireAt ..) (kept_modFib ..)) (kept_modFib ..)
  · exact kept_modFib ..

theorem kept_barrierCheck (s : State) (id : FibId) (lvl num : Nat) : Kept s (s.barrierCheck id lvl num) := by
  unfold State.barrierCheck
  split
  · exact .refl s
  · split
    · exact .refl s
    · dsimp only
      refine .ite (.refl s) (.ite (kept_roundDone ..) ?_)
      split
      · exact .refl s
      · refine .ite (.after (kept_roundDone ..) (.after (kept_nextRound ..) ?_)) ?_
        · exact .ite (.refl s) (.after (kept_sendBarrier ..) (kept_modUnit ..))
        · exact .ite (.refl s) (.after (kept_sendBarrier ..) (kept_modUnit ..))

theorem kept_settle (s : State) (l w : Nat) : Kept s (s.settle l w) :=
  (kept_settleCrewsGo ..).trans (.over (fun _ _ => kept_barrierCheck ..) _ _)

theorem kept_raise (s : State) (id : FibId) (e : Eff) : Kept s (s.raise id e) := (kept_perform ..).trans (kept_settle ..)

theorem kept_failUnits (s : State) (p : BarUnit → Bool) : Kept s (s.failUnits p) := by
  refine .over (fun s u => ?_) _ s
  exact .after (.over (fun s x => .after (kept_raise ..) (kept_modFib ..)) _ _) (kept_modUnit ..)

end Sys2Proof.Machine
end

section
/-! PROOFS. A peer that is declared dead: what its end leaves known of the peers, and of what management was told (R23, R31, R38). -/

namespace Sys2Proof.Machine

/-! ## Packets, cells and records -/

theorem kept_send (s : State) (p : Packet) : Kept s (s.send p) := by
  unfold State.send
  split
  · exact .refl s
  · exact .same rfl rfl

theorem kept_reply (s : State) (p r : Packet) : Kept s (s.reply p r) := by
  obtain ⟨_, _, he⟩ := (s.reply_spec p r).1
  rw [he]
  exact .same rfl rfl

theorem kept_flipEpoch (s : State) (dst tag : Nat) : Kept s (s.flipEpoch dst tag) := .same rfl rfl

theorem kept_request {s t : State} {p : Packet} {kind : TxKind} {core n : Nat} {key : HamperKey} (h : s.request p kind core key = some (t, n)) : Kept s t := by
  unfold State.request at h
  obtain ⟨tag, -, ht⟩ := Option.map_eq_some_iff.mp h
  obtain ⟨rfl, -⟩ := Prod.mk.inj ht
  have hsent (ts : List Tx) (n d : Nat) (q : Packet) : Kept s ((State.flipEpoch { s with txs := ts, fresh := n } d tag).send q) :=
    .after (kept_send ..) (.after (kept_flipEpoch ..) (.same rfl rfl))
  dsimp only
  split
  · exact hsent ..
  · exact hsent ..
  · exact hsent ..
  · exact hsent ..
  · exact .after (kept_later ..) (hsent ..)

theorem kept_logLost (s : State) (asid : Nat) (segs : List (Nat × Nat)) : Kept s (s.logLost asid segs) := (homeTouched_logLost ..).homeWork.kept

theorem kept_wakeCell (s : State) (x : Nat × Nat) : Kept s (s.wakeCell x) := by
  unfold State.wakeCell
  dsimp only
  split
  · exact .ite (.same rfl rfl) (.ite (kept_logLost ..) (homeWork_homeStore ..).kept)
  · refine .ite (.refl s) ?_
    split
    case h_1 => exact .same rfl rfl
    case h_2 h => exact kept_request h
  · exact .ite (.same rfl rfl) (.refl s)
  · exact .refl s

theorem kept_wakesAgain (s : State) : Kept s s.wakesAgain := .after (.over kept_wakeCell _ _) (.same rfl rfl)

theorem kept_dispatchRec (s : State) (die n : Nat) (unfit : Bool) : Kept s (s.dispatchRec die n unfit) := .same rfl rfl

theorem kept_releaseRec (s : State) (die n : Nat) : Kept s (s.releaseRec die n) := by
  unfold State.releaseRec
  refine .after (kept_wakesAgain ..) (.after (.over (fun _ _ => kept_poke ..) _ _) (.after (.over (fun _ _ => ?_) _ _) ?_))
  · exact .after (kept_poke ..) (kept_modCmd ..)
  · exact .after (woken_wakeAll ..).homeWork.kept (kept_dispatchRec ..)

theorem kept_abandonCmd (s : State) (id : Nat) : Kept s (s.abandonCmd id) := .same rfl rfl

theorem kept_finish (s : State) (id : Nat) (code : BitVec 8) (count : Nat) : Kept s (s.finish id code count) := by
  unfold State.finish
  dsimp only
  generalize hu : (if code = 0 then _ else _ : State) = u
  have hkept : Kept s u := by
    rw [← hu]
    exact .ite (.after (kept_poke ..) (kept_modCmd ..)) (.after (kept_abandonCmd ..) (.after (kept_poke ..) (kept_modCmd ..)))
  split
  · exact hkept
  · exact .ite (.after (kept_later ..) hkept) hkept

theorem kept_endRec (s : State) (die n : Nat) : Kept s (s.endRec die n) := by
  unfold State.endRec
  refine .after (.over (fun _ _ => kept_finish ..) _ _) (.after (.over (fun s x => ?_) _ _) (kept_dispatchRec ..))
  split
  · exact .after (kept_settle ..) (kept_endFibre ..)
  · exact .refl s

/-! ## Shoot-downs -/

theorem kept_noteTo (s : State) (q : Nat) (op : BitVec 8) (k : HamperKey) (die n : Nat) : Kept s (s.noteTo q op k die n) := kept_send ..

theorem kept_answerAsks (s : State) (asid obj region : Nat) (ok : Bool) : Kept s (s.answerAsks asid obj region ok) := by
  unfold State.answerAsks
  refine .after (.over (fun s a => ?_) _ _) (.same rfl rfl)
  exact .ite (.ite (kept_releaseRec ..) (kept_endRec ..)) (kept_noteTo ..)

theorem kept_oinv (s : State) (asid : Nat) (obj : Option Nat) : Kept s (s.oinv asid obj) := .same rfl rfl

theorem kept_changeEntry (s : State) (asid obj : Nat) (f : Nat → Nat) : Kept s (s.changeEntry asid obj f) := by
  unfold State.changeEntry
  split
  · exact .refl s
  · exact .after (kept_oinv ..) (.after (homeWork_homeStore ..).kept (homeWork_homeStore ..).kept)

theorem kept_unRc (s : State) (pos asid obj region : Nat) : Kept s (s.unRc pos asid obj region) := by
  obtain ⟨_, he, -⟩ := s.unRc_spec pos asid obj region
  rw [he]
  exact .same rfl rfl

theorem kept_finishShoot (s : State) (asid obj region : Nat) : Kept s (s.finishShoot asid obj region) := by
  unfold State.finishShoot
  refine .after (kept_answerAsks ..) (.after (kept_changeEntry ..) (.after (kept_unRc ..) ?_))
  exact .same rfl rfl

theorem kept_shootSeen (s : State) (asid obj region q : Nat) : Kept s (s.shootSeen asid obj region q) := by
  unfold State.shootSeen
  exact .ite (.after (kept_finishShoot ..) (.same rfl rfl)) (.same rfl rfl)

theorem kept_sendShoot (s : State) (asid obj region q : Nat) : Kept s (s.sendShoot asid obj region q) := by
  unfold State.sendShoot
  split
  case h_1 => exact .refl s
  case h_2 h => exact (kept_request h).trans (.same rfl rfl)

theorem kept_sendShoots (s : State) : Kept s s.sendShoots := .over (fun _ _ => .over (fun _ _ => kept_sendShoot ..) _ _) _ s

/-! ## Transactions -/

theorem kept_retry (s : State) : Kept s s.retry := by
  obtain ⟨_, he⟩ := s.retry_spec
  rw [he]
  exact .same rfl rfl

theorem kept_shootsReady (s : State) : Kept s s.shootsReady := by
  obtain ⟨_, _, _, he⟩ := s.shootsReady_spec
  rw [he]
  exact .same rfl rfl

theorem kept_dropTx (s : State) (x : Tx) : Kept s (s.dropTx x) :=
  .after (kept_wakesAgain ..) (.after (kept_sendShoots ..) (.after (kept_shootsReady ..) (.after (kept_retry ..) (.same rfl rfl))))

theorem kept_leaveTx (s : State) (x : Tx) (dead : Bool) : Kept s (s.leaveTx x dead) := by
  unfold State.leaveTx
  exact .ite (kept_dropTx ..) (.after (kept_shootsReady ..) (.after (kept_retry ..) (.same rfl rfl)))

theorem kept_answerRemote (s : State) (dst tag : Nat) (bs : List Byte) : Kept s (s.answerRemote dst tag bs) := .same rfl rfl
theorem kept_modTile (s : State) (n : Nat) (f : TileOp → TileOp) : Kept s (s.modTile n f) := .same rfl rfl

theorem kept_failRemote (s : State) (dst tag : Nat) (t : BitVec 12) (off : Word) (key : Option HamperKey) : Kept s (s.failRemote dst tag t off key) :=
  .over (fun _ _ => .after (kept_raise ..) (kept_modFib ..)) _ s

theorem kept_cmigrFail (s : State) (c : Command) (code : BitVec 8) : Kept s (s.cmigrFail c code) := by
  refine .after (kept_finish ..) ?_
  unfold State.cmigrBack
  exact .ite (kept_setRecWord ..) (.refl s)

theorem kept_txEnds (s : State) (x : Tx) (dead : Bool) : Kept s (s.txEnds x dead) := by
  unfold State.txEnds
  dsimp only
  split
  · exact .after (kept_leaveTx ..) (kept_failRemote ..)
  · exact .after (kept_leaveTx ..) (kept_failRemote ..)
  · exact .after (kept_leaveTx ..) (.after (kept_answerRemote ..) (kept_modFib ..))
  · refine .ite (.after (kept_later ..) ?_) ?_
    · exact .after (kept_leaveTx ..) (.after (kept_answerRemote ..) (kept_modTile ..))
    · exact .after (kept_leaveTx ..) (.after (kept_answerRemote ..) (kept_modTile ..))
  · split
    · exact kept_leaveTx ..
    · exact .after (kept_leaveTx ..) (.ite (.refl s) (kept_finish ..))
  · split
    · exact kept_leaveTx ..
    · exact .after (kept_leaveTx ..) (.ite (.refl s) (kept_finish ..))
  · split
    · exact kept_leaveTx ..
    · exact .after (kept_leaveTx ..) (.ite (.refl s) (kept_cmigrFail ..))
  · exact .after (kept_shootSeen ..) (kept_dropTx ..)
  · exact kept_leaveTx ..

/-! ## A dead peer -/

theorem kept_completeToken (s : State) (l w g scope : Nat) (err : Bool) (code : BitVec 8) (count : Nat) (bad : Bool) :
    Kept s (s.completeToken l w g scope err code count bad) := by
  unfold State.completeToken
  split
  · exact .refl s
  · dsimp only
    refine .trans ?_ (.trans (woken_wakeGang ..).homeWork.kept (.same rfl rfl))
    exact .trans (.ite (kept_acquireAt ..) (.refl s)) (kept_modWg ..)

theorem kept_modExch (s : State) (n : Nat) (f : MyExch → MyExch) : Kept s (s.modExch n f) := .same rfl rfl

theorem kept_closeCheck (s : State) (e : MyExch) : Kept s (s.closeCheck e) := by
  unfold State.closeCheck
  refine .ite (.refl s) (.ite (.refl s) ?_)
  exact (kept_modExch ..).trans ((kept_completeToken ..).trans (.same rfl rfl))

theorem kept_exchPeerDead (s : State) (q : Nat) : Kept s (s.exchPeerDead q) := .after (.over kept_closeCheck _ _) (.same rfl rfl)

/-- What ends with a peer: its requests, shoot-downs and barriers; the other peers are as they were. -/
theorem kept_endPeer (s : State) (q : Nat) : Kept s (s.endPeer q) := by
  unfold State.endPeer
  refine .after (kept_exchPeerDead ..) (.after (.over (fun _ _ => kept_poke ..) _ _) (.after (kept_failUnits ..) (.after (.over (fun s x => ?_) _ _) ?_)))
  · exact .ite (kept_shootSeen ..) (.refl s)
  · exact .over (fun _ _ => kept_txEnds ..) _ _

theorem kept_setDetours (s : State) : Kept s s.setDetours := by
  obtain ⟨_, _, _, he, -⟩ := s.setDetours_eq
  rw [he]
  exact .same rfl rfl

theorem kept_reroute (s : State) (q : Nat) : Kept s (s.reroute q) := .same rfl rfl

/-- What is known of a peer that is declared dead. -/
def Peer.dead (p : Peer) : Peer := { p with live := false, died := true }

/-- A peer is marked as dead, and management is told. -/
def State.markDead (s : State) (q : Nat) : State := (s.modPeer q Peer.dead).toMgmt (.deadPeer q)

/-- A peer is declared dead: it is marked, management is told, and all else that is known of the peers stays. -/
theorem State.killPeer_kept (s : State) (q : Nat) : Kept (s.markDead q) (s.killPeer q) := by
  unfold State.killPeer
  exact .after (kept_endPeer ..) (.trans ((kept_setDetours _).trans (kept_reroute _ q)) (.same rfl rfl))

end Sys2Proof.Machine
end

section
/-! PROOFS. Time-outs of remote requests, dead peers and live ones (O42). -/

namespace Sys2Proof.Machine

/-! ## Time-outs (R31, R40) -/

theorem exec_remoteRequestTimeout {s : State} {dst : Fin 16} {tag : BitVec 12} {x : Tx}
    (h : s.txs.find? (fun t => t.dst == dst.val && t.tag == tag.toNat && decide (t.issued + 100000 ≤ s.ticks)) = some x)
    (hx : ∃ f off, x.kind = .load f off ∨ x.kind = .atomic f off ∨ x.kind = .store f off) :
    exec (.remoteRequestTimeout dst tag) s = .next (s.txEnds x false) := by
  rw [show exec (.remoteRequestTimeout dst tag) s = execRemoteRequestTimeout dst tag s from rfl, execRemoteRequestTimeout, h]
  dsimp only
  obtain ⟨f, off, hk | hk | hk⟩ := hx
  · rw [hk]
  · rw [hk]
  · rw [hk]

theorem exec_fabricTimeout {s : State} {n : Nat} {x : Tx} (h : (s.cmdTxs n).find? (fun t => decide (t.issued + 100000 ≤ s.ticks)) = some x) :
    exec (.fabricTimeout n) s = .next (s.txEnds x false) := by
  rw [show exec (.fabricTimeout n) s = execFabricTimeout n s from rfl, execFabricTimeout, h]

theorem State.txEnds_access {s : State} {x : Tx} {f : FibId} {off : Word} (hx : x.kind = .load f off ∨ x.kind = .atomic f off) :
    s.txEnds x false = (s.failRemote x.dst x.tag 0x0D0#12 off none).leaveTx x false := by
  unfold State.txEnds
  obtain hk | hk := hx
  · rw [hk]
  · rw [hk]

theorem State.txEnds_store {s : State} {x : Tx} {f : FibId} {off : Word} (hx : x.kind = .store f off) :
    s.txEnds x false = ((s.modFib f (fun y => { y with lost := y.lost ||| 1 })).answerRemote x.dst x.tag []).leaveTx x false := by
  unfold State.txEnds
  rw [hx]

theorem State.txEnds_bulk {s : State} {x : Tx} {n off len : Nat} (hx : x.kind = .put n off len ∨ x.kind = .get n off len) {c : Command} (hc : s.cmd n = some c)
    (hst : c.st ≠ .finished) : s.txEnds x false = (s.finish n 0x15#8 c.reached).leaveTx x false := by
  unfold State.txEnds
  obtain hk | hk := hx
  · rw [hk]; dsimp only; rw [hc]; dsimp only; rw [if_neg hst]; rfl
  · rw [hk]; dsimp only; rw [hc]; dsimp only; rw [if_neg hst]; rfl

/-- A transaction that ends while its tag stays taken. -/
theorem State.leaveTx_spec (s : State) (x : Tx) :
    ∃ a i q f, s.leaveTx x false = { s with txs := Claims.txsLeft s x, agenda := a, shootsIn := i, txq := q, performed := f } := by
  obtain ⟨a, hretry⟩ := State.retry_spec { s with txs := Claims.txsLeft s x }
  obtain ⟨i, q, f, hready⟩ := State.shootsReady_spec { s with txs := Claims.txsLeft s x, agenda := a }
  have hl : s.leaveTx x false = (State.retry { s with txs := Claims.txsLeft s x }).shootsReady := rfl
  rw [hl, hretry, hready]
  exact ⟨a, i, q, f, rfl⟩

/-- A store that is given up: the fibre knows that it was lost, and those that wait for it go on. -/
theorem State.fib_storeLost {s : State} {f : FibId} {g : Fibre} (hf : s.fib f = some g) (dst tag : Nat) :
    (((s.modFib f (fun y => { y with lost := y.lost ||| 1 })).answerRemote dst tag []).fib f).map (·.lost) = some (g.lost ||| 1) := by
  unfold State.answerRemote
  rw [State.fib_mapFibres _ _ (fun _ y => by split <;> rfl), fib_modFib_same s f (fun y => { y with lost := y.lost ||| 1 }) (fun _ => rfl), hf]
  dsimp only [Option.map_some]
  split <;> rfl

/-- What asked for a command's packets is gone, also from the transaction that timed out. -/
theorem txsLeft_noneOf {s t : State} {n : Nat} (h : ∀ z ∈ t.txs, ∃ y ∈ s.txs, z = if y.kind.isOf n then { y with kind := .gone } else y) (x : Tx) :
    ∀ z ∈ Claims.txsLeft t x, z.kind.isOf n = false := by
  intro z hz
  obtain ⟨y, hy, rfl⟩ := List.mem_map.mp hz
  split
  · rfl
  · obtain ⟨w, -, rfl⟩ := h y hy
    split
    · rfl
    · exact Bool.eq_false_iff.mpr ‹_›

/-! ## Dead peers (R23, R35, R38) -/

theorem Kept.peer {s t : State} (h : Kept s t) (q : Nat) : t.peer q = s.peer q := by
  unfold State.peer
  rw [h.peers]

theorem State.peer_markDead_same {s : State} {q : Nat} (h : q < s.peers.length) : (s.markDead q).peer q = (s.peer q).dead := State.peer_modPeer_same h Peer.dead

theorem State.peer_markDead_other (s : State) {q r : Nat} (h : r ≠ q) : (s.markDead q).peer r = s.peer r := State.peer_modPeer_other s h Peer.dead

/-- A peer that has been declared dead. -/
theorem State.killPeer_dead {s : State} {q : Nat} (hq : q < s.peers.length) :
    ((s.killPeer q).peer q).died = true ∧ ((s.killPeer q).peer q).live = false ∧ .deadPeer q ∈ (s.killPeer q).mgmtOut := by
  have hk := s.killPeer_kept q
  rw [hk.peer q, State.peer_markDead_same hq]
  exact ⟨rfl, rfl, hk.told _ (List.mem_append_right _ (List.mem_singleton_self _))⟩

/-- From s to t no dead peer has come back, and what management was told it has been told. -/
structure Deaths (s t : State) : Prop where
  length : t.peers.length = s.peers.length
  died : ∀ q, q < s.peers.length → (s.peer q).died = true → (t.peer q).died = true
  told : ∀ m ∈ s.mgmtOut, m ∈ t.mgmtOut

theorem deaths_killPeer (s : State) (q : Nat) : Deaths s (s.killPeer q) := by
  have hk := s.killPeer_kept q
  refine ⟨(congrArg List.length hk.peers).trans List.length_set, fun r hl hr => ?_, fun m hm => hk.told m (List.mem_append_left _ hm)⟩
  by_cases hrq : r = q
  · rw [← hrq]
    exact (State.killPeer_dead hl).1
  · rw [hk.peer r, State.peer_markDead_other s hrq]
    exact hr

theorem State.over_cons {α : Type} (s : State) (x : α) (xs : List α) (f : State → α → State) : s.over (x :: xs) f = (f s x).over xs f := rfl

/-- Several peers are declared dead: each of them is, and none comes back. -/
theorem State.over_killPeer {s : State} {qs : List Nat} {q : Nat} (hl : q < s.peers.length) (hq : q ∈ qs ∨ (s.peer q).died = true ∧ .deadPeer q ∈ s.mgmtOut) :
    ((s.over qs State.killPeer).peer q).died = true ∧ .deadPeer q ∈ (s.over qs State.killPeer).mgmtOut := by
  induction qs generalizing s with
  | nil => exact hq.resolve_left List.not_mem_nil
  | cons r rs ih =>
    have hd := deaths_killPeer s r
    rw [State.over_cons]
    refine ih (hl.trans_eq hd.length.symm) ?_
    rcases hq with hq | ⟨hdied, htold⟩
    · rcases List.mem_cons.mp hq with rfl | hq
      · obtain ⟨hdied, -, htold⟩ := State.killPeer_dead hl
        exact .inr ⟨hdied, htold⟩
      · exact .inl hq
    · exact .inr ⟨hd.died q hl hdied, hd.told _ htold⟩

theorem exec_peerDead {s : State} {q : Fin 16} (hl : (s.peer q.val).live = true) (hd : (s.peer q.val).died = false) :
    exec (.peerDead q) s = .next (if (s.peer q.val).lastHeard + 50000 ≤ s.ticks then s.killPeer q.val
      else if s.reachable q.val && (s.via q.val).isNone then (s.endPeer q.val).watchPeer q else s.watchPeer q) := by
  rw [show exec (.peerDead q) s = execPeerDead q s from rfl, execPeerDead]
  rw [hl, hd, if_neg (by decide)]

/-! ## Links that have trained (R24) -/

theorem State.trainPair_eq (s : State) (p : Nat) : ∃ a, s.trainPair p = (s.setPair p (s.pair p).retrained).withAgenda a := by
  obtain ⟨a, he, -, -⟩ := State.over_later (List.range 16) (fun _ => 85)
    (fun l => .laneCodewordSend ⟨p % 64, Nat.mod_lt p (by decide)⟩ ⟨l % 16, Nat.mod_lt l (by decide)⟩) (s.setPair p (s.pair p).retrained)
  exact ⟨a, he⟩

/-- Training a pair leaves the pairs that work working. -/
theorem State.trainPair_works {s : State} {p k : Nat} (h : k = p ∨ (s.pair k).works = true) : ((s.trainPair p).pair k).works = true := by
  by_cases hk : k = p
  · rw [hk, State.trainPair_pair]
    exact Pair.retrained_works _
  · obtain ⟨a, he⟩ := s.trainPair_eq p
    rw [he]
    have hp : (State.withAgenda (s.setPair p (s.pair p).retrained) a).pair k = s.pair k := (State.pair_setPair ..).trans (if_neg hk)
    rw [hp]
    exact h.resolve_left hk

/-- Pairs that are not dark are trained: they work, those that worked do, and only pairs and the agenda change. -/
theorem State.over_lockPair {s : State} {ps : List Nat} (h : ∀ p ∈ ps, s.boot.dark.getLsbD p = false) :
    (∃ v a, s.over ps State.lockPair = { s with pairs := v, agenda := a }) ∧
      ∀ k, k ∈ ps ∨ (s.pair k).works = true → ((s.over ps State.lockPair).pair k).works = true := by
  induction ps generalizing s with
  | nil => exact ⟨⟨s.pairs, s.agenda, rfl⟩, fun k hk => hk.resolve_left List.not_mem_nil⟩
  | cons p ps ih =>
    obtain ⟨a, he⟩ := s.trainPair_eq p
    have hlock : s.lockPair p = s.trainPair p := if_pos (by rw [h p List.mem_cons_self]; rfl)
    obtain ⟨⟨v, b, hv⟩, hworks⟩ := ih (s := s.trainPair p) (fun q hq => by rw [he]; exact h q (List.mem_cons_of_mem _ hq))
    rw [State.over_cons, hlock]
    refine ⟨⟨v, b, by rw [hv, he]; rfl⟩, fun k hk => hworks k ?_⟩
    rcases hk with hk | hk
    · rcases List.mem_cons.mp hk with rfl | hk
      · exact .inr (State.trainPair_works (.inl rfl))
      · exact .inl hk
    · exact .inr (State.trainPair_works (.inr hk))

/-- The pairs to a peer that are to be trained. -/
def State.pairsToTrain (s : State) (q : Nat) : List Nat := (pairsOf s.pos q).filter (fun p => (s.pair p).lanes.isEmpty && !(s.pair p).failedNow)

/-- A peer whose links have trained. -/
def State.trained (s : State) (q : Nat) : State :=
  (s.over (s.pairsToTrain q) State.lockPair).modPeer q (fun p => { p with populated := true, live := true, lastHeard := (s.over (s.pairsToTrain q) State.lockPair).ticks })

theorem exec_linkTrainingComplete {s : State} {q : Fin 16} (hd : (s.peer q.val).died = false) (hq : q.val ≠ s.pos) :
    exec (.linkTrainingComplete q) s = .next ((s.trained q.val).setDetours.later 50000 (.peerDead q)) := by
  rw [show exec (.linkTrainingComplete q) s = execLinkTrainingComplete q s from rfl, execLinkTrainingComplete]
  rw [hd, if_neg (by simpa using hq)]
  rfl

/-- What the training of a peer's links leaves. -/
theorem State.trained_spec {s : State} {q : Nat} (hq : q < s.peers.length) (hdark : ∀ k ∈ pairsOf s.pos q, s.boot.dark.getLsbD k = false) :
    (∃ v a p, s.trained q = { s with pairs := v, agenda := a, peers := p }) ∧
      (s.trained q).peer q = { s.peer q with populated := true, live := true, lastHeard := s.ticks } ∧
      ∀ k ∈ s.pairsToTrain q, ((s.trained q).pair k).works = true := by
  obtain ⟨⟨v, a, he⟩, hworks⟩ := State.over_lockPair (s := s) (ps := s.pairsToTrain q) (fun k hk => hdark k (List.mem_of_mem_filter hk))
  have hticks : (s.over (s.pairsToTrain q) State.lockPair).ticks = s.ticks := by rw [he]; rfl
  have hlen : q < (s.over (s.pairsToTrain q) State.lockPair).peers.length := by rw [he]; exact hq
  refine ⟨?_, ?_, fun k hk => hworks k (.inl hk)⟩
  · unfold State.trained
    rw [he]
    exact ⟨v, a, _, rfl⟩
  · unfold State.trained
    rw [State.peer_modPeer_same hlen, hticks, he]
    rfl

/-- A peer one of whose pairs works is reached directly. -/
theorem State.direct_of_works {s : State} {q k : Nat} (hk : k ∈ pairsOf s.pos q) (h : (s.pair k).works = true) : s.direct q = true :=
  List.any_eq_true.mpr ⟨k, hk, h⟩

/-- Settles O42: what times out ends its transaction as its kind asks; a peer's loss changes what is known of that peer alone, told through every change that ends its work; links that train leave the peer live. -/
theorem fabricFailures : Obligations.fabric_failures := by
  unfold Obligations.fabric_failures
  refine ⟨fun s dst tag x f off g hfind hf => ⟨fun hx hone => ?_, fun hx => ?_⟩, fun s n off len x c hfind hx hc hst hexch => ?_,
    fun s q hq hlive hdied => ⟨fun hlate => ?_, fun hearly hvia => ?_⟩, fun s a o r x hlen hx hk hlate hdst => ?_, fun s q hq hdied hpos hdark => ?_⟩
  · rw [exec_remoteRequestTimeout hfind ⟨f, off, hx.elim .inl (fun h => .inr (.inl h))⟩, State.txEnds_access hx, State.failRemote_one hone]
    rfl
  · obtain ⟨_, _, _, _, he⟩ := ((s.modFib f (fun y => { y with lost := y.lost ||| 1 })).answerRemote x.dst x.tag []).leaveTx_spec x
    refine ⟨_, exec_remoteRequestTimeout hfind ⟨f, off, .inr (.inr hx)⟩, ?_⟩
    rw [State.txEnds_store hx, he]
    exact ⟨rfl, rfl, State.fib_storeLost hf x.dst x.tag⟩
  · obtain ⟨_, _, _, ts, _, hfinish, hcmd, hts⟩ := State.finish_spec hc hexch (code := 0x15#8) (by decide) c.reached
    obtain ⟨_, _, _, _, he⟩ := (s.finish n 0x15#8 c.reached).leaveTx_spec x
    refine ⟨_, exec_fabricTimeout hfind, ?_⟩
    rw [State.txEnds_bulk hx hc hst, he]
    have htxs : (s.finish n 0x15#8 c.reached).txs = ts := by rw [hfinish]
    exact ⟨by rw [hfinish], txsLeft_noneOf (s := s) (htxs.symm ▸ hts) x, hcmd⟩
  · rw [exec_peerDead hlive hdied, if_pos hlate]
    exact ⟨_, rfl, State.killPeer_dead hq⟩
  · have hnone : (s.via q.val).isNone = false := by rw [Option.isNone_eq_false_iff]; exact hvia
    rw [exec_peerDead hlive hdied, if_neg (by omega), hnone, Bool.and_false, if_neg (by decide)]
    rfl
  · refine ⟨_, rfl, State.over_killPeer (hlen ▸ hdst) (.inl (List.mem_map.mpr ⟨x, List.mem_filter.mpr ⟨hx, ?_⟩, rfl⟩))⟩
    simpa [hk] using hlate
  · obtain ⟨⟨_, _, _, htrained⟩, hpeer, hworks⟩ := State.trained_spec hq hdark
    obtain ⟨_, _, _, hdetours, -⟩ := (s.trained q.val).setDetours_eq
    refine ⟨_, exec_linkTrainingComplete hdied hpos, ?_⟩
    have hkept := (kept_setDetours (s.trained q.val)).trans (kept_later _ 50000 (.peerDead q))
    have hmem : (s.trained q.val).setDetours.mem = s.mem := by rw [hdetours, htrained]
    have hwgs : (s.trained q.val).setDetours.wgs = s.wgs := by rw [hdetours, htrained]
    have hp : (s.trained q.val).setDetours.pos = s.pos := by rw [hdetours, htrained]
    have hdirect (k : Nat) (hk : k ∈ s.pairsToTrain q.val) : (s.trained q.val).setDetours.direct q.val = true :=
      State.direct_of_works (hp.symm ▸ List.mem_of_mem_filter hk) (by rw [hdetours]; exact hworks k hk)
    rw [hkept.peer, hpeer]
    refine ⟨hmem, hwgs, rfl, rfl, rfl, fun hempty => ?_⟩
    have hfirst : fabricPair (peerSlot s.pos q.val) ∈ pairsOf s.pos q.val := List.mem_cons_self
    obtain ⟨hlanes, hfailed⟩ := hempty _ hfirst
    exact hdirect _ (List.mem_filter.mpr ⟨hfirst, by rw [hlanes, hfailed]; rfl⟩)

end Sys2Proof.Machine
end

section
/-! PROOFS. The fold algorithm: every fold is a matching, and no unit of the demand is lost (R53). -/

namespace Sys2Proof.Machine

/-! ## Matchings -/

/-- Every pair that the search gives is one of its sources with a destination not used before, and adjacent. -/
theorem mem_keyGo {adj : Nat → Nat → Bool} {ss used : List Nat} {need : Nat} {p : Nat × Nat} (h : p ∈ keyGo adj ss used need) :
    p.1 ∈ ss ∧ p.2 ∉ used ∧ adj p.1 p.2 = true := by
  induction ss generalizing used need with
  | nil => cases h
  | cons s ss ih =>
    unfold keyGo at h
    split at h
    next d hd =>
      have hfound := List.find?_some hd
      simp only [Bool.and_eq_true, Bool.not_eq_true', List.contains_eq_mem, decide_eq_false_iff_not] at hfound
      obtain ⟨⟨⟨hadj, hfree⟩, -⟩, -⟩ := hfound
      rcases List.mem_cons.mp h with rfl | h
      · exact ⟨List.mem_cons_self, hfree, hadj⟩
      · obtain ⟨hs, hu, ha⟩ := ih h
        exact ⟨List.mem_cons_of_mem _ hs, fun hm => hu (List.mem_cons_of_mem _ hm), ha⟩
    next =>
      obtain ⟨hs, hu, ha⟩ := ih h
      exact ⟨List.mem_cons_of_mem _ hs, hu, ha⟩

/-- Sources without repeats are matched to destinations without repeats. -/
theorem keyGo_nodup {adj : Nat → Nat → Bool} {ss : List Nat} (h : ss.Nodup) (used : List Nat) (need : Nat) :
    ((keyGo adj ss used need).map (·.1)).Nodup ∧ ((keyGo adj ss used need).map (·.2)).Nodup := by
  induction ss generalizing used need with
  | nil => exact ⟨.nil, .nil⟩
  | cons s ss ih =>
    obtain ⟨hs, hss⟩ := List.nodup_cons.mp h
    unfold keyGo
    split
    next d _ =>
      obtain ⟨hfst, hsnd⟩ := ih hss (d :: used) (need - 1)
      refine ⟨List.nodup_cons.mpr ⟨fun hm => ?_, hfst⟩, List.nodup_cons.mpr ⟨fun hm => ?_, hsnd⟩⟩
      · obtain ⟨p, hp, rfl⟩ := List.mem_map.mp hm
        exact hs (mem_keyGo hp).1
      · obtain ⟨p, hp, rfl⟩ := List.mem_map.mp hm
        exact (mem_keyGo hp).2.1 List.mem_cons_self
    next => exact ih hss used need

/-- ChooseMatching gives a matching of pairs with demand left. -/
theorem chooseMatching_matching (M : List (List Nat)) :
    ((chooseMatching M).map (·.1)).Nodup ∧ ((chooseMatching M).map (·.2)).Nodup ∧ ∀ p ∈ chooseMatching M, 0 < mget M p.1 p.2 := by
  obtain ⟨hfst, hsnd⟩ := keyGo_nodup (adj := fun s d => decide (0 < mget M s d) && decide (bottleneck M ≤ mget M s d)) List.nodup_range (ss := List.range 16) []
    (matchSize (fun s d => decide (0 < mget M s d) && decide (bottleneck M ≤ mget M s d)))
  refine ⟨hfst, hsnd, fun p hp => ?_⟩
  have hadj := (mem_keyGo hp).2.2
  simp only [Bool.and_eq_true, decide_eq_true_eq] at hadj
  exact hadj.1

/-! ## Conservation -/

/-- An element that is there takes the value set, and no other element changes. -/
theorem mget_mset {M : List (List Nat)} {s d : Nat} (h : 0 < mget M s d) (x a b : Nat) :
    mget (mset M s d x) a b = if (a, b) = (s, d) then x else mget M a b := by
  have hs : s < M.length := by
    by_contra hs
    simp [mget, List.getElem?_eq_none (Nat.not_lt.mp hs)] at h
  have hd : d < (M.getD s []).length := by
    by_contra hd
    rw [mget, List.getD_eq_default _ _ (Nat.not_lt.mp hd)] at h
    exact absurd h (Nat.lt_irrefl 0)
  unfold mget mset
  by_cases ha : a = s
  · subst ha
    have hrow : (M.set a ((M.getD a []).set d x)).getD a [] = (M.getD a []).set d x := by simp [hs]
    rw [hrow]
    by_cases hb : b = d
    · subst hb
      rw [if_pos rfl, List.getD_eq_getElem?_getD, List.getElem?_set_self hd]
      rfl
    · rw [if_neg (by simp [hb]), List.getD_eq_getElem?_getD, List.getElem?_set_ne (Ne.symm hb), ← List.getD_eq_getElem?_getD]
  · rw [if_neg (by simp [ha])]
    congr 1
    rw [List.getD_eq_getElem?_getD, List.getElem?_set_ne (Ne.symm ha), ← List.getD_eq_getElem?_getD]

/-- Taking a length off every pair of a list without repeats takes it off each of them once. -/
theorem mget_foldl_sub (len : Nat) {X : List (Nat × Nat)} (hn : X.Nodup) {M : List (List Nat)} (hpos : ∀ p ∈ X, 0 < mget M p.1 p.2) (a b : Nat) :
    mget (X.foldl (fun M p => mset M p.1 p.2 (mget M p.1 p.2 - len)) M) a b = mget M a b - if X.contains (a, b) then len else 0 := by
  induction X generalizing M with
  | nil => rfl
  | cons p X ih =>
    obtain ⟨hp, hX⟩ := List.nodup_cons.mp hn
    have hset := mget_mset (hpos p List.mem_cons_self) (mget M p.1 p.2 - len)
    have hrest (q : Nat × Nat) (hq : q ∈ X) : 0 < mget (mset M p.1 p.2 (mget M p.1 p.2 - len)) q.1 q.2 := by
      have hne : q ≠ p := fun he => hp (he ▸ hq)
      rw [hset, if_neg hne]
      exact hpos q (List.mem_cons_of_mem _ hq)
    rw [List.foldl_cons, ih hX hrest, hset]
    by_cases he : (a, b) = p
    · subst he
      simp [hp]
    · simp [he]

theorem foldl_min_le_start (xs : List Nat) (n : Nat) : xs.foldl min n ≤ n := by
  induction xs generalizing n with
  | nil => exact Nat.le_refl n
  | cons x xs ih => exact (ih _).trans (min_le_left n x)

theorem foldl_min_le {xs : List Nat} {x : Nat} (h : x ∈ xs) (n : Nat) : xs.foldl min n ≤ x := by
  induction xs generalizing n with
  | nil => cases h
  | cons y ys ih =>
    rcases List.mem_cons.mp h with rfl | h
    · exact (foldl_min_le_start ys _).trans (min_le_right n x)
    · exact ih h _

theorem carried_append (fs gs : List Fold) (a b : Nat) : Claims.carried (fs ++ gs) a b = Claims.carried fs a b + Claims.carried gs a b := by
  simp [Claims.carried]

/-- A fold carries its length over each pair of its matching. -/
theorem carried_one (f : Fold) (a b : Nat) : Claims.carried [f] a b = if f.pairs.contains (a, b) then f.len else 0 := by
  unfold Claims.carried
  cases h : f.pairs.contains (a, b) <;> simp only [List.filter_cons, List.filter_nil, h] <;> simp

/-- What the folds carry and what they leave is what was there, after each fold as before it. -/
theorem runFolds_conserves (phase n : Nat) (M : List (List Nat)) (fs : List Fold) (a b : Nat) :
    Claims.carried (runFolds phase n M fs).1 a b + mget (runFolds phase n M fs).2 a b = Claims.carried fs a b + mget M a b := by
  induction n generalizing M fs with
  | zero => rfl
  | succ n ih =>
    unfold runFolds
    split
    · rfl
    · obtain ⟨hfst, -, hpos⟩ := chooseMatching_matching M
      dsimp only
      rw [ih, carried_append, carried_one, mget_foldl_sub _ (List.Nodup.of_map _ hfst) hpos]
      dsimp only
      split
      next hin =>
        have hle : _ ≤ mget M a b := foldl_min_le (List.mem_map_of_mem (f := fun p => mget M p.1 p.2) (List.mem_of_elem_eq_true hin))
          (mget M ((chooseMatching M).headD (0, 0)).1 ((chooseMatching M).headD (0, 0)).2)
        omega
      next => omega

end Sys2Proof.Machine
end

section
/-! PROOFS. The Folding Table: posts, the close of a collection, and the calendars that go out (R46 to R50, R53). -/

namespace Sys2Proof.Machine

/-! ## Folds over a state -/

/-- What every change keeps holds after all of them. -/
theorem State.over_keeps {α : Type} {P : State → Prop} {f : State → α → State} (hf : ∀ u x, P u → P (f u x)) (xs : List α) {s : State} (h : P s) :
    P (s.over xs f) := by
  induction xs generalizing s with
  | nil => exact h
  | cons x xs ih => exact ih (hf s x h)

/-- What one of the changes brings about, from what all of them keep, and what all of them leave so, holds at the end. -/
theorem State.over_reaches {α : Type} {Q P : State → Prop} {f : State → α → State} {x : α} {xs : List α} (hx : x ∈ xs) (hQ : ∀ u y, Q u → Q (f u y))
    (hP : ∀ u y, P u → P (f u y)) (hf : ∀ u, Q u → P (f u x)) {s : State} (h : Q s) : P (s.over xs f) := by
  induction xs generalizing s with
  | nil => cases hx
  | cons y ys ih =>
    rcases List.mem_cons.mp hx with rfl | hx
    · exact State.over_keeps hP ys (hf s h)
    · exact ih hx (hQ s y h)

/-! ## What is sent -/

/-- From s to t packets have arrived here or have been added to those that wait to be sent, and nothing else has changed. -/
def Sending (s t : State) : Prop := ∃ rx tx, t = { s with rxq := rx, txq := s.txq ++ tx }

theorem Sending.refl (s : State) : Sending s s := ⟨s.rxq, [], by rw [List.append_nil]⟩

theorem Sending.trans {s t u : State} (h : Sending s t) (h' : Sending t u) : Sending s u := by
  obtain ⟨_, tx, rfl⟩ := h
  obtain ⟨rx, tx', rfl⟩ := h'
  exact ⟨rx, tx ++ tx', by rw [← List.append_assoc]⟩

theorem Sending.over {α : Type} {f : State → α → State} (h : ∀ s x, Sending s (f s x)) (xs : List α) (s : State) : Sending s (s.over xs f) :=
  State.over_keeps (P := Sending s) (fun u x hu => hu.trans (h u x)) xs (.refl s)

/-- What waits to be sent goes on waiting. -/
theorem Sending.waits {s t : State} (h : Sending s t) {z : Packet} (hz : z ∈ s.txq) : z ∈ t.txq := by
  obtain ⟨_, _, rfl⟩ := h
  exact List.mem_append_left _ hz

theorem Sending.via {s t : State} (h : Sending s t) (q : Nat) : t.via q = s.via q := by
  obtain ⟨_, _, rfl⟩ := h
  exact State.via_congr rfl rfl rfl rfl q

/-- A packet that one of several sendings queues waits at the end. -/
theorem Sending.over_sends {α : Type} {f : State → α → State} (h : ∀ s x, Sending s (f s x)) {x : α} {xs : List α} (hx : x ∈ xs) {s : State} {P : Packet → Prop}
    (hf : ∀ u, Sending s u → ∃ z ∈ (f u x).txq, P z) : ∃ z ∈ (s.over xs f).txq, P z :=
  State.over_reaches (Q := Sending s) (P := fun u => ∃ z ∈ u.txq, P z) hx (fun u y hu => hu.trans (h u y))
    (fun u y ⟨z, hz, hP⟩ => ⟨z, (h u y).waits hz, hP⟩) hf (.refl s)

theorem sending_send (s : State) (p : Packet) : Sending s (s.send p) := by
  unfold State.send
  split
  · exact .refl s
  · exact ⟨s.rxq, _, rfl⟩

/-- A packet that arrives at this package itself. -/
theorem sending_here (s : State) (p : Packet) : Sending s { s with rxq := s.rxq ++ [p] } := ⟨_, [], by rw [List.append_nil]⟩

theorem sending_exchSend (s : State) (q : Nat) (op : BitVec 8) (bs : List Byte) : Sending s (s.exchSend q op bs) := by
  unfold State.exchSend
  dsimp only
  split
  · exact sending_here ..
  · exact sending_send ..

theorem sending_refusePost (s : State) (q : Nat) (x : Word) (mask : BitVec 16) (code : BitVec 8) : Sending s (s.refusePost q x mask code) := by
  unfold State.refusePost
  dsimp only
  split
  · exact .refl s
  · split
    · exact sending_here ..
    · exact sending_send ..

theorem sending_sendCalendar (s : State) (q : Nat) (bs : List Byte) : Sending s (s.sendCalendar q bs) := .over (fun _ _ => sending_exchSend ..) _ s

/-- Exchange traffic to a peer that some path reaches waits to be sent. -/
theorem exchSend_waits {s : State} {q : Nat} (hq : q < 16) (hne : q ≠ s.pos) (hvia : s.via q ≠ none) (op : BitVec 8) (bs : List Byte) :
    ∃ z ∈ (s.exchSend q op bs).txq, z.kind = 0x0F ∧ z.op = op ∧ z.dst = posF q ∧ z.payload = bs := by
  obtain ⟨v, hv⟩ := Option.ne_none_iff_exists'.mp hvia
  have hdst : (posF q).val = q := Nat.mod_eq_of_lt hq
  unfold State.exchSend State.send State.routed
  dsimp only
  rw [if_neg hne, hdst, hv]
  exact ⟨_, List.mem_append_right _ List.mem_cons_self, rfl, rfl, rfl, rfl⟩

/-- Every piece of a calendar waits to be sent; an acting Folding Table marks it. -/
theorem sendCalendar_pieces {s : State} {q : Nat} (hq : q < 16) (hne : q ≠ s.pos) (hvia : s.via q ≠ none) (bs : List Byte) {k : Nat}
    (hk : 496 * k < (if s.ft.acting = true then actingFlag bs else bs).length) :
    ∃ z ∈ (s.sendCalendar q bs).txq, Claims.calendarPiece q (if s.ft.acting = true then actingFlag bs else bs) k z := by
  refine Sending.over_sends (fun _ _ => sending_exchSend ..) (x := k) (List.mem_range.mpr (by omega)) (fun u hu => ?_)
  have hpos : u.pos = s.pos := by obtain ⟨_, _, rfl⟩ := hu; rfl
  exact exchSend_waits hq (hpos ▸ hne) ((hu.via q).symm ▸ hvia) ..

/-! ## Posts (R46) -/

theorem State.recvFabric_op {s : State} {p : Packet} {rest : List Packet} (h : s.rxq = p :: rest) {kind : BitVec 5} (hk : p.kind = kind) {op : BitVec 8}
    (ho : p.op = op) (f : Packet → State → State) : s.recvFabric kind (some op) f = .next (f p (Claims.fabricTaken s rest)) := by
  unfold State.recvFabric
  rw [h]
  exact congrArg _ (if_pos ⟨hk, by simp [ho]⟩)

theorem exec_exchangeDpost {s : State} {p : Packet} {rest : List Packet} (h : s.rxq = p :: rest) (hk : p.kind = 0x0F) (ho : p.op = 0x01) :
    exec .exchangeDpost s = .next ((Claims.fabricTaken s rest).takePost (BitVec.ofNat 32 (Claims.littleEndian ((p.payload.drop 128).take 4))) (Claims.postOf s p)) := by
  show execExchangeDpost s = _
  unfold execExchangeDpost
  rw [State.recvFabric_op h (kind := 0x0F#5) (op := 0x01#8) hk ho]
  simp only [pnum, bytesNat_eq]
  rfl

/-- The close and the computation stand on the agenda, and nothing but the agenda has changed. -/
theorem State.atClose_spec (s : State) (x : Word) (first : Nat) : (∃ a, s.atClose x first = { s with agenda := a }) ∧
    ⟨first + s.ft.window + s.epoch, .collectionClose x⟩ ∈ (s.atClose x first).agenda ∧
    ⟨first + s.ft.window + 5000 + s.epoch, .collectionClose x⟩ ∈ (s.atClose x first).agenda :=
  ⟨⟨_, rfl⟩, (State.mem_at ..).mpr (.inr (State.at_self ..)), State.at_self ..⟩

/-- The first DPOST for an ID starts its exchange. -/
theorem State.takePost_starts {s : State} {x : Word} (h : s.exchOf x = none) (hopen : (s.ft.exchs.filter (fun e => !e.ended s.fabric)).length < 8) (y : Post) :
    (s.takePost x y).exchOf x = some (Exch.start x y) ∧ ⟨y.stamp + s.ft.window + s.epoch, .collectionClose x⟩ ∈ (s.takePost x y).agenda ∧
      ⟨y.stamp + s.ft.window + 5000 + s.epoch, .collectionClose x⟩ ∈ (s.takePost x y).agenda := by
  unfold State.takePost
  rw [h]
  dsimp only
  rw [if_neg (Nat.not_le.mpr hopen)]
  let kept : List Exch := s.ft.exchs.filter (fun e => e.exid != x && !(e.closed && decide (e.base + e.endt + 10000000 ≤ s.fabric)))
  obtain ⟨⟨_, hframe⟩, hclose, hcompute⟩ := State.atClose_spec { s with ft := { s.ft with exchs := kept ++ [Exch.start x y] } } x y.stamp
  refine ⟨?_, hclose, hcompute⟩
  rw [hframe]
  unfold State.exchOf
  dsimp only
  rw [List.find?_append, List.find?_eq_none.mpr (fun e he => ?_)]
  · simp [Exch.start]
  · have hne := (List.mem_filter.mp he).2
    simp only [Bool.and_eq_true, bne_iff_ne] at hne
    simp [hne.1]

/-- A later DPOST joins the exchange that is in collection. -/
theorem State.takePost_joins {s : State} {x : Word} {e : Exch} (h : s.exchOf x = some e) (hc : e.closed = false) (y : Post) :
    (s.takePost x y).exchOf x = some { e with posts := e.posts ++ [y], first := min e.first y.stamp } := by
  unfold State.takePost
  rw [h]
  dsimp only
  rw [if_neg (by rw [hc]; decide)]
  obtain ⟨⟨_, hframe⟩, -⟩ := State.atClose_spec (s.modFt x (fun e' => { e' with posts := e'.posts ++ [y], first := min e.first y.stamp })) x (min e.first y.stamp)
  rw [hframe]
  let joined (e' : Exch) : Exch := { e' with posts := e'.posts ++ [y], first := min e.first y.stamp }
  let mine (e' : Exch) : Bool := e'.exid == x && (!e'.closed || decide (s.fabric < e'.base + e'.endt + 10000000))
  have hsame : mine ∘ (fun e' => if e'.exid == x then joined e' else e') = mine := by
    funext e'
    dsimp only [Function.comp_def]
    split <;> rfl
  have hx : e.exid == x := by
    have hfound := List.find?_some h
    simp only [Bool.and_eq_true] at hfound
    exact hfound.1
  show (s.ft.exchs.map (fun e' => if e'.exid == x then joined e' else e')).find? mine = some (joined e)
  rw [List.find?_map, hsame, show s.ft.exchs.find? mine = some e from h]
  exact congrArg some (if_pos hx)

end Sys2Proof.Machine
end

section
/-! PROOFS. The computation of an exchange, and the obligation on its schedule (R46 to R50, R53, O43). -/

namespace Sys2Proof.Machine

/-! ## Which collection is computed next (R48) -/

/-- A fold that keeps what it has or takes the next element chooses one of the list, when there is one. -/
theorem foldl_chosen {α : Type} {f : Option α → α → Option α} (h0 : ∀ x, f none x = some x) (h1 : ∀ y x, f (some y) x = some x ∨ f (some y) x = some y)
    {xs : List α} (hne : xs ≠ []) : ∃ e ∈ xs, xs.foldl f none = some e := by
  have hkeep (ys : List α) (y : α) : ∃ e ∈ y :: ys, ys.foldl f (some y) = some e := by
    induction ys generalizing y with
    | nil => exact ⟨y, List.mem_cons_self, rfl⟩
    | cons z zs ih =>
      rcases h1 y z with hz | hz
      · obtain ⟨e, he, hfold⟩ := ih z
        exact ⟨e, List.mem_cons_of_mem _ he, by rw [List.foldl_cons, hz, hfold]⟩
      · obtain ⟨e, he, hfold⟩ := ih y
        refine ⟨e, ?_, by rw [List.foldl_cons, hz, hfold]⟩
        rcases List.mem_cons.mp he with rfl | he
        · exact List.mem_cons_self
        · exact List.mem_cons_of_mem _ (List.mem_cons_of_mem _ he)
  cases xs with
  | nil => exact absurd rfl hne
  | cons x xs =>
    rw [List.foldl_cons, h0]
    exact hkeep xs x

/-- A collection whose computation is due. -/
def Exch.due (window now : Nat) (e : Exch) : Bool := !e.closed && decide (e.first + window + 5000 ≤ now)

/-- The collections whose computation is due. -/
def State.dueExchs (s : State) : List Exch := s.ft.exchs.filter (Exch.due s.ft.window s.fabric)

theorem Exch.due_eq_false {window now : Nat} {e : Exch} (h : e.closed = true ∨ now < e.first + window + 5000) : e.due window now = false := by
  unfold Exch.due
  rcases h with h | h
  · rw [h]; rfl
  · rw [decide_eq_false (Nat.not_le.mpr h), Bool.and_false]

theorem Exch.of_due_eq_false {window now : Nat} {e : Exch} (h : e.due window now = false) : e.closed = true ∨ now < e.first + window + 5000 := by
  unfold Exch.due at h
  cases hc : e.closed
  · rw [hc] at h
    exact .inr (by simpa using h)
  · exact .inl rfl

/-- The one collection that there is, closed or with time left, is not due. -/
theorem State.dueExchs_one {s : State} {e : Exch} (h : s.ft.exchs = [e]) (hd : e.closed = true ∨ s.fabric < e.first + s.ft.window + 5000) : s.dueExchs = [] := by
  unfold State.dueExchs
  rw [h, List.filter_singleton, Exch.due_eq_false hd]
  rfl

/-- With nothing due the computation does nothing. -/
theorem State.closeDueGo_none {s : State} (h : s.dueExchs = []) (n : Nat) : State.closeDueGo n s = s := by
  cases n with
  | zero => rfl
  | succ n =>
    unfold State.closeDueGo
    rw [show s.ft.exchs.filter (fun e => !e.closed && decide (e.first + s.ft.window + 5000 ≤ s.fabric)) = [] from h]
    rfl

/-- Otherwise one that is due is closed, and then the rest. -/
theorem State.closeDueGo_some {s : State} (h : s.dueExchs ≠ []) (n : Nat) :
    ∃ e ∈ s.dueExchs, State.closeDueGo (n + 1) s = State.closeDueGo n (s.closeCollection e) := by
  rw [State.closeDueGo]
  have hstep := foldl_chosen (f := fun (m : Option Exch) e => match m with
    | none => some e
    | some x => if e.first < x.first ∨ (e.first = x.first ∧ e.exid.toNat < x.exid.toNat) then some e else some x) (fun _ => rfl)
    (fun y x => by dsimp only; split <;> simp) h
  obtain ⟨e, he, hfold⟩ := hstep
  refine ⟨e, he, ?_⟩
  split
  next hnone => exact absurd (hnone.symm.trans hfold) (by simp)
  next e' hsome => rw [Option.some.inj (hsome.symm.trans hfold)]

/-! ## The close of one collection -/

/-- The state with other exchanges at its Folding Table. -/
def State.withExchs (s : State) (xs : List Exch) : State := { s with ft := { s.ft with exchs := xs } }

/-- What a poster is told when the calendars are computed: that its mask is refused, or its calendar (R49, R50). -/
def State.answerPost (e e' : Exch) (s : State) (p : Post) : State :=
  if (e.leader.map (·.mask)) ≠ some p.mask then s.refusePost p.pos e.exid p.mask 0x21#8
  else if s.ftSends && s.livePositions.contains p.pos then s.sendCalendar p.pos (e'.calendarOf p.pos) else s

theorem sending_answerPost (e e' : Exch) (s : State) (p : Post) : Sending s (s.answerPost e e' p) := by
  unfold State.answerPost
  split
  · exact sending_refusePost ..
  · split
    · exact sending_sendCalendar ..
    · exact .refl s

/-- The exchanges once one of them has been computed. -/
def Exch.replace (e e' x : Exch) : Exch := if x.exid == e.exid then if x.closed then x else e' else x

/-- What a computed exchange holds (R46, R48, R53). -/
structure Exch.ComputedFrom (s : State) (e e' : Exch) : Prop where
  closed : e'.closed = true
  folds : e'.folds = (s.demandOf e).plan.folds
  posted : e'.posted = BitVec.ofNat 16 (((List.range 16).filter (s.demandOf e).posted).map (2 ^ ·)).sum
  base : (∀ x ∈ s.ft.exchs, x.closed = false) → e'.base = e.first + s.ft.window + 60000

/-- The close of a collection replaces it by what is computed from it, and then packets go out. -/
theorem State.closeCollection_spec (s : State) (e : Exch) : ∃ e', Exch.ComputedFrom s e e' ∧
    s.closeCollection e = (s.withExchs (s.ft.exchs.map (e.replace e'))).over e.posts (State.answerPost e e') := by
  unfold State.closeCollection
  refine ⟨_, ?_, rfl⟩
  refine ⟨rfl, rfl, rfl, fun hopen => ?_⟩
  have hnone : s.ft.exchs.filter (fun x => x.closed && x.exid != e.exid) = [] := List.filter_eq_nil_iff.mpr (fun x hx => by simp [hopen x hx])
  dsimp only
  rw [hnone]
  exact if_neg (Nat.not_lt_zero _)

/-- A state but for its exchanges is as it was once packets have gone out. -/
theorem Sending.ft {s t : State} (h : Sending s t) : t.ft = s.ft := by
  obtain ⟨_, _, rfl⟩ := h
  rfl

/-- Once one has been computed, those due are those of other IDs that were. -/
theorem Exch.due_replace {e e' : Exch} (h : e'.closed = true) (window now : Nat) (x : Exch) :
    (e.replace e' x).due window now = (x.exid != e.exid && x.due window now) := by
  unfold Exch.replace
  cases hx : x.exid == e.exid with
  | false => simp [bne, hx]
  | true =>
    cases hc : x.closed with
    | false => simp [bne, hx, Exch.due_eq_false (.inl h)]
    | true => simp [bne, hx, Exch.due_eq_false (.inl hc)]

/-- Closing one that is due leaves fewer due. -/
theorem State.dueExchs_closeCollection_lt {s : State} {e : Exch} (h : e ∈ s.dueExchs) : (s.closeCollection e).dueExchs.length < s.dueExchs.length := by
  obtain ⟨e', hcomp, heq⟩ := s.closeCollection_spec e
  have hafter : (s.closeCollection e).dueExchs = (s.ft.exchs.map (e.replace e')).filter (Exch.due s.ft.window s.fabric) := by
    obtain ⟨_, _, hs⟩ := Sending.over (sending_answerPost e e') e.posts (s.withExchs (s.ft.exchs.map (e.replace e')))
    rw [heq, hs]
    rfl
  have hlen : (s.closeCollection e).dueExchs.length = (s.dueExchs.filter (fun x => x.exid != e.exid)).length := by
    rw [hafter, State.dueExchs, List.filter_map, List.length_map, List.filter_filter]
    exact congrArg (fun p => (s.ft.exchs.filter p).length) (funext (Exch.due_replace hcomp.closed _ _))
  rw [hlen]
  exact List.length_filter_lt_length_iff_exists.mpr ⟨e, h, by simp⟩

/-- Enough rounds leave nothing due. -/
theorem State.closeDueGo_closes (n : Nat) {s : State} (h : s.dueExchs.length ≤ n) : (State.closeDueGo n s).dueExchs = [] := by
  induction n generalizing s with
  | zero => exact List.length_eq_zero_iff.mp (Nat.le_zero.mp h)
  | succ n ih =>
    by_cases hs : s.dueExchs = []
    · rw [State.closeDueGo_none hs, hs]
    · obtain ⟨e, he, hgo⟩ := State.closeDueGo_some hs n
      rw [hgo]
      have := State.dueExchs_closeCollection_lt he
      exact ih (by omega)

/-- The clock stands still while collections are computed. -/
theorem State.closeDueGo_clock (n : Nat) (s : State) : (State.closeDueGo n s).fabric = s.fabric ∧ (State.closeDueGo n s).ft.window = s.ft.window := by
  induction n generalizing s with
  | zero => exact ⟨rfl, rfl⟩
  | succ n ih =>
    by_cases hs : s.dueExchs = []
    · rw [State.closeDueGo_none hs]
      exact ⟨rfl, rfl⟩
    · obtain ⟨e, he, hgo⟩ := State.closeDueGo_some hs n
      obtain ⟨e', -, heq⟩ := s.closeCollection_spec e
      obtain ⟨_, _, hs⟩ := Sending.over (sending_answerPost e e') e.posts (s.withExchs (s.ft.exchs.map (e.replace e')))
      obtain ⟨hf, hw⟩ := ih (s.closeCollection e)
      rw [hgo, hf, hw, heq, hs]
      exact ⟨rfl, rfl⟩

/-! ## What is noted at the close (R46, R53) -/

/-- At its close a collection has noted what is so. -/
theorem State.takeSamples_notes {s : State} {e : Exch} (h : s.ft.exchs = [e]) (hc : e.closed = false) (hs : e.sample = none) (hd : e.first + s.ft.window ≤ s.fabric) :
    s.takeSamples = s.withExchs [{ e with sample := some s.sampleNow }] := by
  unfold State.takeSamples
  rw [h, List.map_singleton, if_pos (by simp [hc, hs, hd])]
  rfl

/-- What has been noted stays. -/
theorem State.takeSamples_noted {s : State} {e : Exch} (h : s.ft.exchs = [e]) (hs : e.sample ≠ none) : s.takeSamples = s := by
  have hnone : e.sample.isNone = false := Option.isNone_eq_false_iff.mpr (Option.isSome_iff_ne_none.mpr hs)
  unfold State.takeSamples
  rw [h, List.map_singleton, if_neg (by simp [hnone]), ← h]

/-- The links noted are those that the positions report as failed. -/
theorem State.sampleNow_links (s : State) {a b : Nat} (ha : a < 16) (hb : b < 16) : (s.sampleNow.2.getD a 0).getLsbD b = s.reportsNone a b := by
  have hrow : s.sampleNow.2.getD a 0 = BitVec.ofNat 16 (((List.range 16).filter (fun b => s.reportsNone a b)).map (fun b => 2 ^ b)).sum := by
    unfold State.sampleNow
    simp [ha]
  rw [hrow, BitVec.getLsbD_ofNat, testBit_sum_two_pow (List.nodup_range.filter _)]
  simp [hb]

/-- The number of a posted set, as a word of 16 bits holds it. -/
theorem positions_toNat (p : Nat → Bool) :
    (BitVec.ofNat 16 (((List.range 16).filter p).map (2 ^ ·)).sum).toNat = (((List.range 16).filter p).map (2 ^ ·)).sum := by
  rw [BitVec.toNat_ofNat]
  exact Nat.mod_eq_of_lt (sum_two_pow_lt (List.nodup_range.filter _) (fun x hx => List.mem_range.mp (List.mem_of_mem_filter hx)))

/-! ## The operation -/

theorem exec_collectionClose (x : Word) (s : State) : exec (.collectionClose x) s = .next (State.closeDueGo 8 s.takeSamples) := rfl

/-- After the operation every collection that is not closed has time left. -/
theorem State.collectionClose_leaves {s : State} (h : s.ft.exchs.length ≤ 8) {e : Exch} (he : e ∈ (State.closeDueGo 8 s.takeSamples).ft.exchs) :
    e.closed = true ∨ s.fabric < e.first + s.ft.window + 5000 := by
  have hlen : s.takeSamples.dueExchs.length ≤ 8 := by
    refine (List.length_filter_le ..).trans ?_
    unfold State.takeSamples
    rwa [List.length_map]
  obtain ⟨hf, hw⟩ := State.closeDueGo_clock 8 s.takeSamples
  have hnone := List.filter_eq_nil_iff.mp (State.closeDueGo_closes 8 hlen) e he
  rw [Bool.not_eq_true, hf, hw] at hnone
  exact Exch.of_due_eq_false hnone

/-- The one collection that there is, its computation due, is computed, and packets go out. -/
theorem State.closeDueGo_one {s : State} {e : Exch} (h : s.ft.exchs = [e]) (hc : e.closed = false) (hd : e.first + s.ft.window + 5000 ≤ s.fabric) (n : Nat) :
    ∃ e', Exch.ComputedFrom s e e' ∧
      State.closeDueGo (n + 1) s = (s.withExchs [e']).over e.posts (State.answerPost e e') := by
  have hdue : s.dueExchs = [e] := by simp [State.dueExchs, h, Exch.due, hc, hd]
  obtain ⟨e₁, he₁, hgo⟩ := State.closeDueGo_some (s := s) (by simp [hdue]) n
  rw [hdue, List.mem_singleton] at he₁
  subst he₁
  obtain ⟨e', hcomp, hclose⟩ := s.closeCollection_spec e₁
  have hone : s.ft.exchs.map (e₁.replace e') = [e'] := by
    rw [h, List.map_singleton]
    simp [Exch.replace, hc]
  rw [hone] at hclose
  refine ⟨e', hcomp, ?_⟩
  have hft : (s.closeCollection e₁).ft.exchs = [e'] := by rw [hclose, (Sending.over (sending_answerPost e₁ e') ..).ft]; rfl
  rw [hgo, State.closeDueGo_none (State.dueExchs_one hft (.inl hcomp.closed)), hclose]

/-- A live poster with the exchange's mask is sent every piece of its calendar by the Folding Table that acts. -/
theorem State.over_answerPost_sends {s : State} {e e' : Exch} {p : Post} (hp : p ∈ e.posts) (hs : s.ftSends = true) (hm : some p.mask = e.leader.map (·.mask))
    (hl : p.pos ∈ s.livePositions) (hne : p.pos ≠ s.pos) (hvia : s.via p.pos ≠ none) {k : Nat}
    (hk : 496 * k < (if s.ft.acting = true then actingFlag (e'.calendarOf p.pos) else e'.calendarOf p.pos).length) :
    ∃ z ∈ (s.over e.posts (State.answerPost e e')).txq,
      Claims.calendarPiece p.pos (if s.ft.acting = true then actingFlag (e'.calendarOf p.pos) else e'.calendarOf p.pos) k z := by
  refine Sending.over_sends (sending_answerPost e e') hp (fun u hu => ?_)
  have hanswer : u.answerPost e e' p = u.sendCalendar p.pos (e'.calendarOf p.pos) := by
    obtain ⟨_, _, rfl⟩ := hu
    unfold State.answerPost
    rw [if_neg (by rw [← hm]; exact fun hne => hne rfl)]
    refine if_pos ?_
    rw [Bool.and_eq_true]
    exact ⟨hs, List.contains_iff_mem.mpr hl⟩
  have hq : p.pos < 16 := List.mem_range.mp (List.mem_of_mem_filter hl)
  have hpos : u.pos = s.pos := by obtain ⟨_, _, rfl⟩ := hu; rfl
  rw [hanswer, ← hu.ft]
  exact sendCalendar_pieces hq (hpos ▸ hne) ((hu.via _).symm ▸ hvia) _ (by rw [hu.ft]; exact hk)

/-- Settles O43: the collection by its operations, the folds by what the search for a matching and the subtraction of its length do. -/
theorem exchangeSchedule : Obligations.exchange_schedule := by
  unfold Obligations.exchange_schedule
  refine ⟨⟨fun s p rest hrx hk ho => ⟨fun hnone hopen => ?starts, fun e he hc => ?joins⟩, fun s x hlen => ?closes,
    fun s x e he hc hs hdue hearly => ?notes, fun s x e he hc hs hdue => ?computes⟩, chooseMatching_matching, fun M phase n a b => ?conserves⟩
  case starts =>
    obtain ⟨hexch, hclose, hcompute⟩ := State.takePost_starts (s := Claims.fabricTaken s rest) hnone hopen (Claims.postOf s p)
    exact ⟨_, _, exec_exchangeDpost hrx hk ho, hexch, rfl, rfl, rfl, rfl, hclose, hcompute⟩
  case joins => exact ⟨_, exec_exchangeDpost hrx hk ho, State.takePost_joins (s := Claims.fabricTaken s rest) he hc _⟩
  case closes => exact ⟨_, exec_collectionClose x s, fun e he => State.collectionClose_leaves hlen he⟩
  case notes =>
    have hnotes := State.takeSamples_notes he hc hs hdue
    refine ⟨_, s.sampleNow.2, exec_collectionClose x s, ?_⟩
    have hnone : (s.withExchs [{ e with sample := some s.sampleNow }]).dueExchs = [] := State.dueExchs_one rfl (.inr hearly)
    rw [hnotes, State.closeDueGo_none hnone]
    exact ⟨rfl, fun a b ha hb => s.sampleNow_links ha hb, rfl, rfl, rfl⟩
  case computes =>
    obtain ⟨e', hcomp, hclose⟩ := State.closeDueGo_one he hc hdue 7
    have hsent := Sending.over (sending_answerPost e e') e.posts (s.withExchs [e'])
    refine ⟨_, e', exec_collectionClose x s, ?_⟩
    rw [State.takeSamples_noted he hs, hclose]
    refine ⟨by rw [hsent.ft]; rfl, hcomp.closed, hcomp.base (by simp [he, hc]), hcomp.folds, ?_, ?_, ?_, fun hacts p hp hm hl hne hvia => ?_⟩
    · rw [hcomp.posted]
      exact positions_toNat _
    · obtain ⟨_, _, hs⟩ := hsent
      rw [hs]; rfl
    · obtain ⟨_, _, hs⟩ := hsent
      rw [hs]; rfl
    · refine fun k hk => State.over_answerPost_sends (s := s.withExchs [e']) hp hacts hm hl hne ?_ hk
      rwa [State.via_congr rfl rfl rfl rfl]
  case conserves => exact (runFolds_conserves phase n M [] a b).trans (Nat.zero_add _)

end Sys2Proof.Machine
end

section
/-! PROOFS. What is granted to and taken from the held bytes of exchange-mode commands, and the windows of a calendar (R55, R58, R59). -/

namespace Sys2Proof.Machine

/-! ## Grants -/

/-- The same command but for which of its bytes are held, granted by a window, or to be sent as soon as may be. -/
def Command.Regranted (c d : Command) : Prop := ∃ held todo win, d = { c with cuts := held, todo := todo, win := win }

/-- From s to t held bytes have been granted, released or sent on: of the commands nothing but their ranges has changed, and of this
package's parts of exchanges nothing but their windows in progress. -/
structure Regranted (s t : State) : Prop where
  rest : ∃ tx cs a xs, t = { s with txq := tx, cmds := cs, agenda := a, exchs := xs }
  cmd : ∀ {n c}, s.cmd n = some c → ∃ d, t.cmd n = some d ∧ c.Regranted d
  exchs : ∃ g : MyExch → List (Nat × Nat × Nat), t.exchs = s.exchs.map (fun e => { e with granted := g e })

theorem Command.Regranted.refl (c : Command) : c.Regranted c := ⟨c.cuts, c.todo, c.win, rfl⟩

theorem Command.Regranted.trans {c d e : Command} (h : c.Regranted d) (h' : d.Regranted e) : c.Regranted e := by
  obtain ⟨_, _, _, rfl⟩ := h
  obtain ⟨held, todo, win, rfl⟩ := h'
  exact ⟨held, todo, win, rfl⟩

/-- A change that leaves the commands and this package's parts of exchanges. -/
theorem Regranted.of_rest {s t : State} (h : ∃ tx a, t = { s with txq := tx, agenda := a }) : Regranted s t := by
  obtain ⟨tx, a, rfl⟩ := h
  exact ⟨⟨tx, s.cmds, a, s.exchs, rfl⟩, fun hc => ⟨_, hc, .refl _⟩, (·.granted), (List.map_id' s.exchs).symm⟩

theorem Regranted.refl (s : State) : Regranted s s := .of_rest ⟨s.txq, s.agenda, rfl⟩

theorem Regranted.trans {s t u : State} (h : Regranted s t) (h' : Regranted t u) : Regranted s u := by
  refine ⟨?_, fun hc => ?_, ?_⟩
  · obtain ⟨_, _, _, _, rfl⟩ := h.rest
    obtain ⟨tx, cs, a, xs, rfl⟩ := h'.rest
    exact ⟨tx, cs, a, xs, rfl⟩
  · obtain ⟨d, hd, hcd⟩ := h.cmd hc
    obtain ⟨e, he, hde⟩ := h'.cmd hd
    exact ⟨e, he, hcd.trans hde⟩
  · obtain ⟨g, hg⟩ := h.exchs
    obtain ⟨g', hg'⟩ := h'.exchs
    exact ⟨fun e => g' { e with granted := g e }, by rw [hg', hg, List.map_map]; rfl⟩

theorem Regranted.over {α : Type} {f : State → α → State} (h : ∀ s x, Regranted s (f s x)) (xs : List α) (s : State) : Regranted s (s.over xs f) :=
  State.over_keeps (P := Regranted s) (fun u x hu => hu.trans (h u x)) xs (.refl s)

theorem regranted_atFabric (s : State) (due : Nat) (ev : Instr) : Regranted s (s.atFabric due ev) := .of_rest ⟨s.txq, _, rfl⟩

theorem regranted_txq (s : State) (q : List Packet) : Regranted s { s with txq := q } := .of_rest ⟨q, s.agenda, rfl⟩

theorem regranted_poke (s : State) (ns id : Nat) : Regranted s (s.poke ns id) := by
  obtain ⟨a, he⟩ := s.poke_spec ns id
  exact .of_rest ⟨s.txq, a, he⟩

theorem State.cmd_modCmd_other (s : State) {n m : Nat} (h : m ≠ n) (f : Command → Command) (hf : ∀ c, (f c).id = c.id) : (s.modCmd n f).cmd m = s.cmd m :=
  find_map_other (fun c : Command => c.id == n) (fun c : Command => c.id == m) f (fun c => by rw [hf])
    (fun c hc => by rw [beq_iff_eq] at hc; rw [hc]; exact beq_false_of_ne h) s.cmds

theorem regranted_modCmd (s : State) (n : Nat) {f : Command → Command} (hf : ∀ c : Command, c.Regranted (f c)) : Regranted s (s.modCmd n f) := by
  have hid (c : Command) : (f c).id = c.id := by obtain ⟨_, _, _, he⟩ := hf c; rw [he]
  refine ⟨⟨s.txq, _, s.agenda, s.exchs, rfl⟩, fun {m c} hc => ?_, (·.granted), (List.map_id' s.exchs).symm⟩
  by_cases hm : m = n
  · subst hm
    exact ⟨f c, by rw [State.cmd_modCmd s m f hid, hc]; rfl, hf c⟩
  · exact ⟨c, (s.cmd_modCmd_other hm f hid).trans hc, .refl c⟩

theorem regranted_modExch (s : State) (cmd : Nat) {f : MyExch → MyExch} (g : MyExch → List (Nat × Nat × Nat)) (hf : ∀ e, f e = { e with granted := g e }) :
    Regranted s (s.modExch cmd f) := by
  refine ⟨⟨s.txq, s.cmds, s.agenda, _, rfl⟩, fun hc => ⟨_, hc, .refl _⟩, fun e => if e.cmd == cmd then g e else e.granted, List.map_congr_left (fun e _ => ?_)⟩
  by_cases he : e.cmd == cmd
  · simp only [he, if_true, hf]
  · simp only [he, if_false, Bool.false_eq_true]

theorem regranted_grantTo (cs : List Nat) (s : State) (n : Nat) : Regranted s (s.grantTo cs n).1 := by
  induction cs generalizing s n with
  | nil => exact .refl s
  | cons id cs ih =>
    unfold State.grantTo at ih ⊢
    rw [List.foldl_cons]
    refine .trans ?_ (ih _ _)
    dsimp only
    split
    · exact .refl s
    · split
      · exact .refl s
      · exact (regranted_modCmd s id (fun c => ⟨_, c.todo, _, rfl⟩)).trans (regranted_poke ..)

theorem regranted_spillTo (cs : List Nat) (s : State) (room : Nat) : Regranted s (s.spillTo cs room) := by
  induction cs generalizing s room with
  | nil => exact .refl s
  | cons id cs ih =>
    unfold State.spillTo at ih ⊢
    rw [List.foldl_cons]
    refine .trans ?_ (ih _ _)
    dsimp only
    split
    · exact .refl s
    · dsimp only
      split
      · exact .refl s
      · exact (regranted_modCmd s id (fun c => ⟨_, _, c.win, rfl⟩)).trans (regranted_poke ..)

/-- A window in progress is offered to the bytes held for its destination. -/
def State.offerWindow (x : Word) (e : MyExch) (s : State) (g : Nat × Nat × Nat) : State :=
  let r := s.grantTo ((s.exchCmds x g.2.1).map (·.id)) g.2.2
  r.1.modExch e.cmd (fun e => { e with granted := e.granted.map (fun h => if h.1 == g.1 then (h.1, h.2.1, r.2) else h) })

theorem regranted_offerWindow (x : Word) (e : MyExch) (s : State) (g : Nat × Nat × Nat) : Regranted s (s.offerWindow x e g) :=
  (regranted_grantTo ..).trans (regranted_modExch _ e.cmd _ (fun _ => rfl))

theorem regranted_exchOffer (s : State) (x : Word) : Regranted s (s.exchOffer x) := by
  unfold State.exchOffer
  split
  · exact .refl s
  · split
    · exact .refl s
    · dsimp only
      split
      · exact .over (regranted_offerWindow x _) _ s
      · exact (Regranted.over (regranted_offerWindow x _) _ s).trans (.over (fun _ _ => regranted_spillTo ..) _ _)

theorem regranted_exchFree (s : State) (x : Word) : Regranted s (s.exchFree x) := by
  unfold State.exchFree
  split
  · exact .refl s
  · exact .over (fun _ _ => regranted_spillTo ..) _ s

theorem regranted_windowOver (s : State) (x : Word) (d : Nat) : Regranted s (s.windowOver x d) := by
  refine .over (fun s c => ?_) _ s
  dsimp only
  split
  · exact regranted_txq s _
  · exact (regranted_txq s _).trans ((regranted_modCmd _ c.id (fun c => ⟨c.cuts, _, _, rfl⟩)).trans (regranted_poke ..))

/-- What has been granted leaves the mode, the command and the calendar of a part of an exchange. -/
theorem Regranted.myExch {s t : State} (h : Regranted s t) {x : Word} {e : MyExch} (he : s.myExch x = some e) : ∃ g, t.myExch x = some { e with granted := g } := by
  obtain ⟨g, hg⟩ := h.exchs
  unfold State.myExch at he ⊢
  rw [hg, List.find?_map]
  exact ⟨g e, congrArg (Option.map _) he⟩

/-- A command with the one held range (o, m), once n bytes have been granted. -/
def Command.grantFirst (c : Command) (n o m : Nat) : Command := { c with win := c.win ++ [(o, min n m)], cuts := if m ≤ n then [] else [(o + n, m - n)] }

/-- A grant takes the one held range of a command from the front. -/
theorem State.grantTo_one {s : State} {c : Command} {n o m : Nat} (hc : s.cmd c.id = some c) (hcuts : c.cuts = [(o, m)]) (hn : 0 < n) :
    (s.grantTo [c.id] n).2 = n - m ∧ (s.grantTo [c.id] n).1.cmd c.id = some (c.grantFirst n o m) := by
  have htake : takeBytes n c.cuts = ([(o, min n m)], if m ≤ n then [] else [(o + n, m - n)]) := by
    rw [hcuts, takeBytes, if_neg (Nat.pos_iff_ne_zero.mp hn)]
    split
    next h => rw [takeBytes, min_eq_right h]
    next h => rw [min_eq_left (Nat.le_of_not_le h)]
  unfold State.grantTo
  rw [List.foldl_cons, List.foldl_nil]
  dsimp only
  rw [hc]
  dsimp only
  rw [htake, if_neg (List.cons_ne_nil _ _)]
  constructor
  · show n - (min n m + 0) = n - m
    omega
  · obtain ⟨a, hpoke⟩ := (s.modCmd c.id (fun d => d.grantFirst n o m)).poke_spec 1 c.id
    refine (congrArg (fun u : State => u.cmd c.id) hpoke).trans ((State.cmd_modCmd s c.id (fun d => d.grantFirst n o m) (fun _ => rfl)).trans ?_)
    rw [hc]
    rfl

/-! ## Windows -/

/-- Stored packets whose bytes a window or a rest carries all go on. -/
theorem State.forwardGo_spec (win : Bool) {ps : List Packet} {n : Nat} (h : (ps.map (·.len)).sum ≤ n) (s : State) :
    State.forwardGo win n ps s = { s with relay := ps.foldl List.erase s.relay, txq := s.txq ++ ps.map (fun p => { p with hop2 := true, vc := true, sched := win }) } := by
  induction ps generalizing n s with
  | nil => simp [State.forwardGo]
  | cons p ps ih =>
    rw [List.map_cons, List.sum_cons] at h
    rw [State.forwardGo, if_neg (by omega), ih (by omega)]
    simp

theorem exec_foldWindowStart_idle {s : State} {x : Word} {n : Nat} {e : MyExch} {w : Window} (h : s.windowOf x n = some (e, w)) (hw : w.send = false) :
    exec (.foldWindowStart x n) s = .next s := by
  show execFoldWindowStart x n s = _
  unfold execFoldWindowStart
  rw [h]
  exact congrArg _ (if_pos (.inl (by simp [hw])))

/-- A sending window to this package or a live peer is in its time, and has not been begun. -/
structure Window.Begins (w : Window) (s : State) (e : MyExch) : Prop where
  send : w.send = true
  start : w.start ≤ s.fabric
  stop : s.fabric < w.stop
  dest : w.dest = s.pos ∨ s.reachable w.dest = true
  fresh : ∀ g ∈ e.granted, g.1 ≠ w.num

theorem Window.Begins.goes {w : Window} {s : State} {e : MyExch} (h : w.Begins s e) :
    ¬(!w.send ∨ s.fabric < w.start ∨ w.stop ≤ s.fabric ∨ (w.dest ≠ s.pos ∧ !s.reachable w.dest) ∨ e.granted.any (fun g => g.1 == w.num)) := by
  have hstart := Nat.not_lt.mpr h.start
  have hstop := Nat.not_le.mpr h.stop
  have hfresh : e.granted.any (fun g => g.1 == w.num) = false := by simpa using h.fresh
  rcases h.dest with hd | hd <;> simp [h.send, hstart, hstop, hfresh, hd]

/-- A window that begins offers its budget to the bytes held for its destination. -/
theorem exec_foldWindowStart_feeds {s : State} {x : Word} {n : Nat} {e : MyExch} {w : Window} (h : s.windowOf x n = some (e, w)) (hb : w.Begins s e) {d : Nat}
    (hw : w.feeds = some d) :
    exec (.foldWindowStart x n) s = .next ((s.modExch e.cmd (fun e => { e with granted := e.granted ++ [(w.num, d, w.budget)] })).exchOffer x) := by
  show execFoldWindowStart x n s = _
  unfold execFoldWindowStart
  rw [h]
  dsimp only
  rw [if_neg hb.goes, hw]

/-- A second leg that begins sends what the relay store holds for it. -/
theorem exec_foldWindowStart_relay {s : State} {x : Word} {n : Nat} {e : MyExch} {w : Window} (h : s.windowOf x n = some (e, w)) (hb : w.Begins s e)
    (hw : w.feeds = none) : exec (.foldWindowStart x n) s = .next (State.forwardGo true w.budget (s.relay.filter w.stored) s) := by
  show execFoldWindowStart x n s = _
  unfold execFoldWindowStart
  rw [h]
  dsimp only
  rw [if_neg hb.goes, hw]

theorem exec_foldWindowEnd_feeds {s : State} {x : Word} {n : Nat} {e : MyExch} {w : Window} (h : s.windowOf x n = some (e, w)) {d : Nat} (hw : w.feeds = some d) :
    exec (.foldWindowEnd x n) s = .next (((s.modExch e.cmd (fun e => { e with granted := e.granted.filter (fun g => g.1 != w.num) })).windowOver x d).exchOffer x) := by
  show execFoldWindowEnd x n s = _
  unfold execFoldWindowEnd
  rw [h]
  dsimp only
  rw [hw]

theorem exec_foldWindowEnd_relay {s : State} {x : Word} {n : Nat} {e : MyExch} {w : Window} (h : s.windowOf x n = some (e, w)) (hw : w.feeds = none) :
    exec (.foldWindowEnd x n) s = .next (State.forwardGo false (((s.relay.filter w.stored).map (·.len)).sum) (s.relay.filter w.stored)
      { s with txq := s.txq.map (fun (p : Packet) => if p.hop2 && w.stored p then { p with sched := false } else p) }) := by
  show execFoldWindowEnd x n s = _
  unfold execFoldWindowEnd
  rw [h]
  dsimp only
  rw [hw]

end Sys2Proof.Machine
end

section
/-! PROOFS. The end of a DPOST and of the exchange it belongs to: time-outs, closes and the close token (R49, R63, R64). -/

namespace Sys2Proof.Machine

/-! ## This package's part of an exchange -/

/-- The one DPOST for an ID is the one found. -/
theorem myExch_of_only {s : State} {x : Word} {e : MyExch} (h : Claims.onlyDpost s x e) : s.myExch x = some e := by
  unfold State.myExch
  rw [← List.head?_filter, h]
  rfl

theorem mem_of_only {s : State} {x : Word} {e : MyExch} (h : Claims.onlyDpost s x e) : e ∈ s.exchs ∧ e.exid = x ∧ e.failed = false := by
  have hm : e ∈ s.exchs.filter (fun y => y.exid == x && !y.failed) := by rw [h]; exact List.mem_cons_self
  obtain ⟨hmem, hp⟩ := List.mem_filter.mp hm
  simp only [Bool.and_eq_true, beq_iff_eq, Bool.not_eq_true'] at hp
  exact ⟨hmem, hp.1, hp.2⟩

/-- A change of the parts that leaves their IDs and whether they have failed. -/
theorem onlyDpost_map {s : State} {x : Word} {e : MyExch} (h : Claims.onlyDpost s x e) {f : MyExch → MyExch} (hx : ∀ y, (f y).exid = y.exid)
    (hf : ∀ y, (f y).failed = y.failed) : Claims.onlyDpost { s with exchs := s.exchs.map f } x (f e) := by
  have hsame : (fun y : MyExch => y.exid == x && !y.failed) ∘ f = fun y => y.exid == x && !y.failed := by
    funext y
    simp only [Function.comp_apply, hx, hf]
  unfold Claims.onlyDpost at h ⊢
  rw [List.filter_map, hsame, h]
  rfl

/-- The same of the one part alone. -/
theorem onlyDpost_modExch {s : State} {x : Word} {e : MyExch} (h : Claims.onlyDpost s x e) {f : MyExch → MyExch} (hx : ∀ y, (f y).exid = y.exid)
    (hf : ∀ y, (f y).failed = y.failed) : Claims.onlyDpost (s.modExch e.cmd f) x (f e) := by
  have hmap := onlyDpost_map h (f := fun y => if y.cmd == e.cmd then f y else y) (fun y => by split; exacts [hx y, rfl])
    (fun y => by split; exacts [hf y, rfl])
  rwa [if_pos (beq_self_eq_true e.cmd)] at hmap

/-- What is found for an ID is changed as its command's part is. -/
theorem myExch_modExch {s : State} {x : Word} {e : MyExch} (h : s.myExch x = some e) {f : MyExch → MyExch} (hx : ∀ y, (f y).exid = y.exid)
    (hf : ∀ y, (f y).failed = y.failed) : (s.modExch e.cmd f).myExch x = some (f e) := by
  have hsame : (fun y : MyExch => y.exid == x && !y.failed) ∘ (fun y => if y.cmd == e.cmd then f y else y) = fun y => y.exid == x && !y.failed := by
    funext y
    dsimp only [Function.comp_def]
    split
    · rw [hx, hf]
    · rfl
  unfold State.myExch at h ⊢
  unfold State.modExch
  rw [List.find?_map, hsame, h]
  exact congrArg some (if_pos (beq_self_eq_true e.cmd))

/-- An operation on every part of an ID, which does nothing to one that has failed, acts on the one that has not. -/
theorem State.over_only {s : State} {x : Word} {e : MyExch} (h : Claims.onlyDpost s x e) {f : State → MyExch → State} (hf : ∀ u y, y.failed = true → f u y = u) :
    s.over (s.exchs.filter (fun y => y.exid == x)) f = f s e := by
  have hskip : f = fun u y => if (!y.failed) = true then f u y else u := by
    funext u y
    cases hy : y.failed
    · rfl
    · exact hf u y hy
  have hone : (s.exchs.filter (fun y => y.exid == x)).filter (fun y => !y.failed) = [e] := by
    rw [List.filter_filter, ← h]
    exact List.filter_congr (fun y _ => Bool.and_comm ..)
  calc s.over (s.exchs.filter (fun y => y.exid == x)) f = ((s.exchs.filter (fun y => y.exid == x)).filter (fun y => !y.failed)).foldl f s := by
        rw [List.foldl_filter, ← hskip]
        rfl
    _ = f s e := by rw [hone]; rfl

/-! ## Commands that fail (R49) -/

/-- A command that has ended. -/
def Command.ended (code : BitVec 8) (count : Nat) (c : Command) : Command := { c with st := .finished, code := code, err := code != 0, count := count }

/-- From s to t what is on the agenda, and what waits to be sent or answered, may have changed, and nothing else. -/
def Requeued (s t : State) : Prop := ∃ a q ts hs, t = { s with agenda := a, txq := q, txs := ts, htxs := hs }

theorem Requeued.trans {s t u : State} (h : Requeued s t) (h' : Requeued t u) : Requeued s u := by
  obtain ⟨_, _, _, _, rfl⟩ := h
  obtain ⟨a, q, ts, hs, rfl⟩ := h'
  exact ⟨a, q, ts, hs, rfl⟩

theorem requeued_later (s : State) (n : Nat) (ev : Instr) : Requeued s (s.later n ev) := ⟨_, s.txq, s.txs, s.htxs, rfl⟩

theorem requeued_poke (s : State) (ns id : Nat) : Requeued s (s.poke ns id) := by
  obtain ⟨a, he⟩ := s.poke_spec ns id
  exact ⟨a, s.txq, s.txs, s.htxs, he⟩

theorem requeued_abandonCmd (s : State) (id : Nat) : Requeued s (s.abandonCmd id) := ⟨s.agenda, _, _, _, rfl⟩

/-- The end of a command changes its record, and beside it only what waits for it. -/
theorem requeued_finish (s : State) (n : Nat) (code : BitVec 8) (count : Nat) : Requeued (s.modCmd n (Command.ended code count)) (s.finish n code count) := by
  have hend : Requeued (s.modCmd n (Command.ended code count)) (if code = 0 then (s.modCmd n (Command.ended code count)).poke 1 n
      else ((s.modCmd n (Command.ended code count)).poke 1 n).abandonCmd n) := by
    split
    · exact requeued_poke ..
    · exact (requeued_poke ..).trans (requeued_abandonCmd ..)
  unfold State.finish
  dsimp only
  split
  · exact hend
  · split
    · exact hend.trans (requeued_later ..)
    · exact hend

theorem State.finish_cmd_same (s : State) (n : Nat) (code : BitVec 8) (count : Nat) : (s.finish n code count).cmd n = (s.cmd n).map (Command.ended code count) := by
  obtain ⟨_, _, _, _, he⟩ := requeued_finish s n code count
  rw [he]
  exact s.cmd_modCmd n _ (fun _ => rfl)

theorem State.finish_cmd_other (s : State) {n m : Nat} (h : m ≠ n) (code : BitVec 8) (count : Nat) : (s.finish n code count).cmd m = s.cmd m := by
  obtain ⟨_, _, _, _, he⟩ := requeued_finish s n code count
  rw [he]
  exact s.cmd_modCmd_other h _ (fun _ => rfl)

theorem State.finish_mem (s : State) (n : Nat) (code : BitVec 8) (count : Nat) : (s.finish n code count).mem = s.mem := by
  obtain ⟨_, _, _, _, he⟩ := requeued_finish s n code count
  rw [he]
  rfl

/-- The command has failed because no calendar has come. -/
def State.TimedOut (s : State) (n : Nat) : Prop := (s.cmd n).map (fun c => (c.st, c.code, c.err, c.count)) = some (.finished, 0x20, true, 0)

theorem Regranted.timedOut {s t : State} (h : Regranted s t) {n : Nat} (hs : s.TimedOut n) : t.TimedOut n := by
  obtain ⟨c, hc, hend⟩ := Option.map_eq_some_iff.mp hs
  obtain ⟨_, hd, _, _, _, rfl⟩ := h.cmd hc
  unfold State.TimedOut
  rw [hd, ← hend]
  rfl

theorem Regranted.mem {s t : State} (h : Regranted s t) : t.mem = s.mem := by
  obtain ⟨_, _, _, _, rfl⟩ := h.rest
  rfl

/-- A DPOST without a calendar ends, and what its exchange holds may go. -/
def State.expire (s : State) (n : Nat) (x : Word) : State := (s.finish n 0x20#8 0).exchFree x

theorem State.expire_mem (s : State) (n : Nat) (x : Word) : (s.expire n x).mem = s.mem := (regranted_exchFree ..).mem.trans (s.finish_mem ..)

theorem State.expire_ends {s : State} {n : Nat} (h : (s.cmd n).isSome) (x : Word) : (s.expire n x).TimedOut n := by
  obtain ⟨c, hc⟩ := Option.isSome_iff_exists.mp h
  refine (regranted_exchFree ..).timedOut ?_
  unfold State.TimedOut
  rw [State.finish_cmd_same, hc]
  rfl

/-- The commands but for those that have timed out are the same. -/
theorem State.expire_cmd {s : State} {n : Nat} {c : Command} (h : s.cmd n = some c) (m : Nat) (x : Word) :
    (s.expire m x).TimedOut n ∨ ∃ d, (s.expire m x).cmd n = some d ∧ c.Regranted d := by
  by_cases hm : n = m
  · subst hm
    exact .inl (State.expire_ends (h ▸ rfl) x)
  · exact .inr ((regranted_exchFree (s.finish m 0x20#8 0) x).cmd ((s.finish_cmd_other hm 0x20#8 0).trans h))

theorem State.expire_keeps {s : State} {n : Nat} (h : s.TimedOut n) (m : Nat) (x : Word) : (s.expire m x).TimedOut n := by
  obtain ⟨c, hc, hend⟩ := Option.map_eq_some_iff.mp h
  rcases State.expire_cmd hc m x with ht | ⟨d, hd, _, _, _, rfl⟩
  · exact ht
  · unfold State.TimedOut
    rw [hd, ← hend]
    rfl

theorem State.expire_there {s : State} {n : Nat} (h : (s.cmd n).isSome) (m : Nat) (x : Word) : ((s.expire m x).cmd n).isSome := by
  obtain ⟨c, hc⟩ := Option.isSome_iff_exists.mp h
  rcases State.expire_cmd hc m x with ht | ⟨_, hd, -⟩
  · obtain ⟨_, hd, -⟩ := Option.map_eq_some_iff.mp ht
    exact Option.isSome_of_eq_some hd
  · exact Option.isSome_of_eq_some hd

theorem State.failPost_eq (s : State) (e : MyExch) : s.failPost e 0x20#8 = (s.modExch e.cmd (fun e => { e with failed := true, closeDone := true })).expire e.cmd e.exid := rfl

/-- The parts for an ID whose time-out has come (R49). -/
def State.overdueParts (s : State) (x : Word) : List MyExch :=
  s.exchs.filter (fun e => e.exid == x && !e.failed && e.calendar.isNone && decide (e.stamp + s.ft.window + 200000 ≤ s.fabric))

/-- A DPOST for an ID that is still in its queue and whose time-out has come. -/
def Command.overdue (s : State) (x : Word) (c : Command) : Bool :=
  c.kind == .dpost && c.st != .finished && c.prog == 0 && c.num 8 4 == x.toNat && decide ((c.exps.headD 0).toNat + s.ft.window + 200000 ≤ s.fabric)

theorem Command.Regranted.overdue {c d : Command} (h : c.Regranted d) (s : State) (x : Word) : d.overdue s x = c.overdue s x := by
  obtain ⟨_, _, _, rfl⟩ := h
  rfl

/-- The DPOSTs for an ID that are still in a queue and whose time-out has come. -/
def State.overdueQueued (s u : State) (x : Word) : List Command := u.cmds.filter (Command.overdue s x)

/-- The parts that were waiting have failed. -/
def State.partsExpired (s : State) (x : Word) : State := s.over (s.overdueParts x) (fun u e => u.failPost e 0x20#8)

theorem exec_dpostTimeout (x : Word) (s : State) :
    exec (.dpostTimeout x) s = .next ((s.partsExpired x).over (s.overdueQueued (s.partsExpired x) x) (fun u c => u.expire c.id x)) := rfl

theorem State.partsExpired_mem (s : State) (x : Word) : (s.partsExpired x).mem = s.mem :=
  State.over_keeps (P := fun u => u.mem = s.mem) (fun u e hu => by rw [State.failPost_eq]; exact (State.expire_mem ..).trans hu) _ rfl

theorem State.dpostTimeout_mem (s : State) (x : Word) : ((s.partsExpired x).over (s.overdueQueued (s.partsExpired x) x) (fun u c => u.expire c.id x)).mem = s.mem :=
  State.over_keeps (P := fun u => u.mem = s.mem) (fun u _ hu => (u.expire_mem ..).trans hu) _ (s.partsExpired_mem x)

/-- A DPOST that waits for its calendar when its time has come fails. -/
theorem State.dpostTimeout_waiting {s : State} {x : Word} {e : MyExch} {c : Command} (h : s.myExch x = some e) (hcal : e.calendar = none)
    (hdue : e.stamp + s.ft.window + 200000 ≤ s.fabric) (hc : s.cmd e.cmd = some c) :
    ((s.partsExpired x).over (s.overdueQueued (s.partsExpired x) x) (fun u c => u.expire c.id x)).TimedOut e.cmd := by
  have hmine : e ∈ s.overdueParts x := by
    have hfound := List.find?_some h
    simp only [Bool.and_eq_true] at hfound
    refine List.mem_filter.mpr ⟨List.mem_of_find?_eq_some h, ?_⟩
    simp [hfound.1, hfound.2, hcal, hdue]
  refine State.over_keeps (P := fun u => u.TimedOut e.cmd) (fun u c hu => State.expire_keeps hu ..) _ ?_
  refine State.over_reaches (Q := fun u => (u.cmd e.cmd).isSome) (P := fun u => u.TimedOut e.cmd) hmine (fun u y hu => ?_) (fun u y hu => ?_) (fun u hu => ?_)
    (Option.isSome_of_eq_some hc)
  · exact State.expire_there (s := u.modExch y.cmd _) hu ..
  · exact State.expire_keeps (s := u.modExch y.cmd _) hu ..
  · exact State.expire_ends (s := u.modExch e.cmd _) hu _

/-- So does one that is still in its queue. -/
theorem State.dpostTimeout_queued {s : State} {x : Word} {c : Command} (hc : s.cmd c.id = some c) (hkind : c.kind = .dpost) (hst : c.st = .queued) (hprog : c.prog = 0)
    (hx : c.num 8 4 = x.toNat) (hdue : (c.exps.headD 0).toNat + s.ft.window + 200000 ≤ s.fabric) :
    ((s.partsExpired x).over (s.overdueQueued (s.partsExpired x) x) (fun u c => u.expire c.id x)).TimedOut c.id := by
  have hparts : (s.partsExpired x).TimedOut c.id ∨ ∃ d, (s.partsExpired x).cmd c.id = some d ∧ c.Regranted d := by
    refine State.over_keeps (P := fun u => u.TimedOut c.id ∨ ∃ d, u.cmd c.id = some d ∧ c.Regranted d) (fun u y hu => ?_) _ (.inr ⟨c, hc, .refl c⟩)
    rw [State.failPost_eq]
    rcases hu with ht | ⟨d, hd, hcd⟩
    · exact .inl (State.expire_keeps (s := u.modExch y.cmd _) ht ..)
    · refine (State.expire_cmd (s := u.modExch y.cmd _) hd y.cmd y.exid).imp_right ?_
      rintro ⟨d', hd', hdd'⟩
      exact ⟨d', hd', hcd.trans hdd'⟩
  have hmine : c.overdue s x = true := by
    rw [Command.overdue, hkind, hst, hprog, hx, decide_eq_true hdue]
    simp
  rcases hparts with ht | ⟨d, hd, hcd⟩
  · exact State.over_keeps (P := fun u => u.TimedOut c.id) (fun u _ hu => State.expire_keeps hu ..) _ ht
  · refine State.over_reaches (Q := fun u => (u.cmd c.id).isSome) (P := fun u => u.TimedOut c.id) 
      (List.mem_filter.mpr ⟨List.mem_of_find?_eq_some hd, (hcd.overdue s x).trans hmine⟩)
      (fun u y hu => State.expire_there hu ..) (fun u y hu => State.expire_keeps hu ..) (fun u hu => ?_) (Option.isSome_of_eq_some hd)
    have hid : d.id = c.id := by obtain ⟨_, _, _, rfl⟩ := hcd; rfl
    rw [hid]
    exact State.expire_ends hu _

end Sys2Proof.Machine
end

section
/-! PROOFS. Closes: the CLOSE that goes to each member, and the close token (R63, R64). -/

namespace Sys2Proof.Machine

/-! ## CLOSE (R63) -/

/-- The CLOSE payload for a position: the ID and the bytes sent there. -/
def MyExch.closeBytes (e : MyExch) (x : Word) (q : Nat) : List Byte :=
  natBytes 4 x.toNat ++ natBytes 4 0 ++ natBytes 8 (((e.sentTo.filter (fun t => t.1 == q)).map (·.2)).sum)

/-- The closes of a part of an exchange have gone out; its close token has completed. -/
def MyExch.afterCloses (e : MyExch) : MyExch := { e with closeSent := true }
def MyExch.afterToken (e : MyExch) : MyExch := { e with closeDone := true }

/-- The closes of an exchange have gone out. -/
def State.closesSent (s : State) (x : Word) (e : MyExch) : State :=
  (s.modExch e.cmd MyExch.afterCloses).over ((List.range 16).filter (fun q => e.posted.getLsbD q && q != s.pos))
    (fun u q => u.exchSend q 0x03#8 (e.closeBytes x q))

theorem exec_closeSend {s : State} {x : Word} {e : MyExch} (h : s.myExch x = some e) (hcal : e.calendar ≠ none) (hsent : e.closeSent = false) (hend : e.endAt ≤ s.fabric)
    (hbusy : s.exchBusy x = false) : exec (.closeSend x) s = .next (s.closesSent x e) := by
  show execCloseSend x s = _
  have hnone : e.calendar.isNone = false := Option.isNone_eq_false_iff.mpr (Option.isSome_iff_ne_none.mpr hcal)
  unfold execCloseSend
  rw [h]
  dsimp only
  rw [if_neg (by simp [hnone, hsent, hend, hbusy])]
  rfl

/-- Each posted member that some path reaches is sent a CLOSE with its own count. -/
theorem State.closesSent_sends {s : State} {x : Word} {e : MyExch} {q : Nat} (hq : q < 16) (hp : e.posted.getLsbD q = true) (hne : q ≠ s.pos) (hvia : s.via q ≠ none) :
    ∃ k ∈ (s.closesSent x e).txq, k.kind = 0x0F ∧ k.op = 0x03 ∧ k.dst = posF q ∧ k.payload = e.closeBytes x q := by
  refine Sending.over_sends (fun _ _ => sending_exchSend ..) (List.mem_filter.mpr ⟨List.mem_range.mpr hq, by simp [hp, hne]⟩) (fun u hu => ?_)
  have hpos : u.pos = s.pos := by obtain ⟨_, _, rfl⟩ := hu; rfl
  have hpath : u.via q = s.via q := (hu.via q).trans (State.via_congr rfl rfl rfl rfl q)
  exact exchSend_waits hq (hpos ▸ hne) (hpath ▸ hvia) ..

theorem State.closesSent_marks {s : State} {x : Word} {e : MyExch} (h : s.myExch x = some e) : ((s.closesSent x e).myExch x).map (·.closeSent) = some true := by
  have hsends := Sending.over (fun u q => sending_exchSend u q 0x03#8 (e.closeBytes x q)) ((List.range 16).filter (fun q => e.posted.getLsbD q && q != s.pos))
    (s.modExch e.cmd MyExch.afterCloses)
  have hmine : (s.closesSent x e).myExch x = (s.modExch e.cmd MyExch.afterCloses).myExch x := by
    unfold State.closesSent
    obtain ⟨_, _, he⟩ := hsends
    rw [he]
    rfl
  rw [hmine, myExch_modExch h (f := MyExch.afterCloses) (fun _ => rfl) (fun _ => rfl)]
  rfl

/-! ## Tokens (R157) -/

theorem woken_acquireAt (s : State) (core scope : Nat) : Woken s (s.acquireAt core scope) := by
  unfold State.acquireAt
  split
  · exact .refl s
  · exact woken_acquire ..

theorem woken_completeToken (s : State) (l w g scope : Nat) (err : Bool) (code : BitVec 8) (count : Nat) (bad : Bool) :
    Woken s (s.completeToken l w g scope err code count bad) := by
  unfold State.completeToken
  split
  · exact .refl s
  · dsimp only
    refine .trans ?_ (.trans (woken_wakeGang ..) ⟨_, _, _, rfl⟩)
    refine .trans ?_ (⟨_, _, _, rfl⟩ : Woken _ (State.modG _ l w g _))
    split
    · exact woken_acquireAt ..
    · exact .refl s

theorem Woken.exchs {s t : State} (h : Woken s t) : t.exchs = s.exchs := by
  obtain ⟨_, _, _, rfl⟩ := h
  rfl

theorem bare_mapFibres (s : State) (f : FibId → Fibre → Fibre) : (s.mapFibres f).bare = s.bare := by
  unfold State.mapFibres State.bare
  dsimp only
  rw [List.map_map]
  rfl

theorem State.greg_of_wgs {s t : State} (h : t.wgs = s.wgs) (l w n : Nat) : t.greg l w n = s.greg l w n := by
  unfold State.greg State.wg
  rw [h]

theorem State.wakeGang_wgs (s : State) (id : FibId) : (s.wakeGang id).wgs = s.wgs := by
  unfold State.wakeGang
  split <;> rfl

theorem State.acquireAt_wgs (s : State) (core scope : Nat) : (s.acquireAt core scope).wgs = s.wgs := by
  unfold State.acquireAt
  split <;> rfl

/-- A group register that is there takes what is written. -/
theorem State.greg_modG {s : State} {l w n : Nat} (h : Claims.tokenThere s l w n) (f : GReg → GReg) : (s.modG l w n f).greg l w n = f (s.greg l w n) := by
  obtain ⟨x, hx, hn⟩ := h
  have hwg : (s.modG l w n f).wg l w = (s.wg l w).map (fun g => { g with g := g.g.set n (f (g.g.getD n ⟨0, false, none, false⟩)) }) :=
    wg_modWg_same s l w (fun g => { g with g := g.g.set n (f (g.g.getD n ⟨0, false, none, false⟩)) }) (fun _ => rfl) (fun _ => rfl)
  unfold State.greg
  rw [hwg, hx]
  simp [hn]

/-- A completed token is in its register. -/
theorem State.completeToken_greg {s : State} {l w g : Nat} (h : Claims.tokenThere s l w g) (scope : Nat) (err : Bool) (code : BitVec 8) (count : Nat) (bad : Bool) :
    (s.completeToken l w g scope err code count bad).greg l w g = ⟨tokenWord err code count, false, none, bad⟩ := by
  obtain ⟨x, hx, hn⟩ := h
  unfold State.completeToken
  rw [hx]
  dsimp only
  have hacq : (if x.placed = true then s.acquireAt x.core scope else s).wgs = s.wgs := by
    split
    · exact s.acquireAt_wgs ..
    · rfl
  rw [greg_of_bare (bare_mapFibres ..), State.greg_of_wgs (State.wakeGang_wgs ..), State.greg_modG ⟨x, ?_, hn⟩]
  unfold State.wg at hx ⊢
  rwa [hacq]

theorem tokenWord_eq (code : BitVec 8) (count : Nat) : tokenWord (code != 0) code count = Claims.tokenValue (code.toNat != 0) code.toNat count := by
  have herr : (code != 0) = (code.toNat != 0) := by
    rw [Bool.eq_iff_iff]
    simp [← BitVec.toNat_inj]
  rw [herr]
  rfl

/-! ## The close token (R64) -/

/-- How many of the awaited closes have come. -/
def MyExch.closesIn (e : MyExch) (pos : Nat) : Nat := ((e.awaited pos).filter (fun q => e.closes.getLsbD q)).length

/-- Of this package's parts nothing but the one that has closed is changed. -/
theorem State.closeToken_exchs (s : State) (e : MyExch) (code : BitVec 8) :
    (s.closeToken e code).exchs = (s.modExch e.cmd MyExch.afterToken).exchs :=
  (woken_completeToken (s.modExch e.cmd MyExch.afterToken) e.launch e.wgid e.closeG 4 (code != 0) code (e.closesIn s.pos) false).exchs

/-- The close token completes with its code and the closes received. -/
theorem State.closeToken_closed {s : State} {x : Word} {e : MyExch} (h : s.myExch x = some e) (ht : Claims.tokenThere s e.launch e.wgid e.closeG) (code : BitVec 8) :
    Claims.closed (s.closeToken e code) x e code.toNat (e.closesIn s.pos) := by
  constructor
  · rw [← tokenWord_eq]
    refine (greg_of_bare (bare_mapFibres ..) ..).trans ?_
    exact State.completeToken_greg (s := s.modExch e.cmd _) ht ..
  · unfold State.myExch
    rw [s.closeToken_exchs]
    exact congrArg (Option.map _) (myExch_modExch h (f := MyExch.afterToken) (fun _ => rfl) (fun _ => rfl))

/-- A part that has failed, or whose token has completed, is left. -/
theorem State.closeCheck_failed {s : State} {e : MyExch} (h : e.failed = true) : s.closeCheck e = s := by
  unfold State.closeCheck
  exact if_pos (by simp [h])

/-- Whatever the check finds, the closes that have come stay noted. -/
theorem State.closeCheck_closes {s : State} {x : Word} {e : MyExch} (h : s.myExch x = some e) : ((s.closeCheck e).myExch x).map (·.closes) = some e.closes := by
  have hstay : (s.myExch x).map (·.closes) = some e.closes := by rw [h]; rfl
  have hclose (code : BitVec 8) : ((s.closeToken e code).myExch x).map (·.closes) = some e.closes := by
    unfold State.myExch
    rw [s.closeToken_exchs]
    exact congrArg (Option.map _) (myExch_modExch h (f := MyExch.afterToken) (fun _ => rfl) (fun _ => rfl))
  unfold State.closeCheck
  split
  · exact hstay
  · dsimp only
    split
    · exact hstay
    · exact hclose _

/-- A part of an exchange whose close token is still to complete (R64). -/
structure MyExch.Closing (e : MyExch) : Prop where
  failed : e.failed = false
  done : e.closeDone = false
  calendar : e.calendar ≠ none

theorem MyExch.Closing.pending {e : MyExch} (h : e.Closing) : (e.failed || e.closeDone || e.calendar.isNone) = false := by
  have hnone : e.calendar.isNone = false := Option.isNone_eq_false_iff.mpr (Option.isSome_iff_ne_none.mpr h.calendar)
  rw [h.failed, h.done, hnone]
  rfl

/-- The members whose closes have not come. -/
def MyExch.missing (e : MyExch) (pos : Nat) : List Nat := (e.awaited pos).filter (fun q => !e.closes.getLsbD q)

/-- After BASE + END the token completes when every member that has not closed is dead. -/
theorem State.closeCheck_closes_token {s : State} {e : MyExch} (h : e.Closing) (hend : e.endAt ≤ s.fabric) (hdead : ∀ q ∈ e.missing s.pos, s.alive q = false) :
    s.closeCheck e = s.closeToken e (if e.missing s.pos = [] then 0 else 0x10#8) := by
  unfold State.closeCheck
  rw [h.pending, decide_eq_false (Nat.not_lt.mpr hend)]
  dsimp only
  have hany : (e.missing s.pos).any s.alive = false := by simpa using hdead
  exact (if_neg (by decide)).trans (if_neg (by rw [show ((e.awaited s.pos).filter (fun q => !e.closes.getLsbD q)).any s.alive = false from hany]; decide))

/-- With every awaited close in, its code is 0. -/
theorem State.closeCheck_whole {s : State} {e : MyExch} (h : e.Closing) (hend : e.endAt ≤ s.fabric) (hnone : e.missing s.pos = []) :
    s.closeCheck e = s.closeToken e 0 := by
  rw [State.closeCheck_closes_token h hend (by rw [hnone]; exact fun q hq => absurd hq List.not_mem_nil), if_pos hnone]

/-- With every member that has not closed dead, its code is 0x10. -/
theorem State.closeCheck_dead {s : State} {e : MyExch} (h : e.Closing) (hend : e.endAt ≤ s.fabric) (hsome : e.missing s.pos ≠ [])
    (hdead : ∀ q ∈ e.missing s.pos, s.alive q = false) : s.closeCheck e = s.closeToken e 0x10#8 := by
  rw [State.closeCheck_closes_token h hend hdead, if_neg hsome]

/-- The time-out of closes, for one part. -/
def State.closeTimeoutOf (x : Word) (s : State) (e : MyExch) : State :=
  if e.failed || e.closeDone || e.calendar.isNone then s
  else
    let missing := (e.awaited s.pos).filter (fun q => !e.closes.getLsbD q && s.alive q)
    let dues := missing.map (fun q => max e.endAt ((s.peer q).lastPkt - s.epoch) + 100000)
    if dues.any (fun d => decide (d ≤ s.fabric)) then s.closeToken e 0x15#8
    else match dues with
      | [] => s.closeCheck e
      | d :: ds => s.atFabric (ds.foldl min d) (.closeTimeout x)

theorem exec_closeTimeout (x : Word) (s : State) :
    exec (.closeTimeout x) s = .next (s.over (s.exchs.filter (fun e => e.exid == x)) (State.closeTimeoutOf x)) := by
  show execCloseTimeout x s = _
  unfold execCloseTimeout State.closeTimeoutOf
  rfl

/-- A live member silent for too long ends the wait. -/
theorem State.closeTimeoutOf_due {s : State} {x : Word} {e : MyExch} (h : e.Closing) {q : Nat} (hq : q ∈ e.missing s.pos) (ha : s.alive q = true)
    (hdue : max e.endAt ((s.peer q).lastPkt - s.epoch) + 100000 ≤ s.fabric) : s.closeTimeoutOf x e = s.closeToken e 0x15#8 := by
  obtain ⟨haw, hc⟩ := List.mem_filter.mp hq
  unfold State.closeTimeoutOf
  rw [h.pending, if_neg Bool.false_ne_true]
  dsimp only
  refine if_pos (List.any_eq_true.mpr ⟨_, List.mem_map_of_mem (f := fun q => max e.endAt ((s.peer q).lastPkt - s.epoch) + 100000) (List.mem_filter.mpr ⟨haw, ?_⟩), decide_eq_true hdue⟩)
  rw [hc, ha]
  rfl

theorem State.closeTimeoutOf_failed {s : State} {x : Word} {e : MyExch} (h : e.failed = true) : s.closeTimeoutOf x e = s := if_pos (by simp [h])

theorem exec_lateCloseCompletion (x : Word) (s : State) :
    exec (.lateCloseCompletion x) s = .next (s.over (s.exchs.filter (fun e => e.exid == x)) State.closeCheck) := rfl

/-- A part to which a member has sent its CLOSE. -/
def MyExch.withClose (src : Nat) (e : MyExch) : MyExch := { e with closes := e.closes ||| ((1 : BitVec 16) <<< src) }

/-- The CLOSE of a member is noted where the ID is this one and the part has not failed. -/
def MyExch.noteClose (x : Word) (src : Nat) (e : MyExch) : MyExch := if e.exid == x && !e.failed then e.withClose src else e

/-- The state in which the CLOSE at the head of the receive queue has been noted. -/
def State.closeNoted (s : State) (rest : List Packet) (x : Word) (src : Nat) : State := { s with rxq := rest, exchs := s.exchs.map (MyExch.noteClose x src) }

theorem exec_close {s : State} {p : Packet} {rest : List Packet} (h : s.rxq = p :: rest) (hk : p.kind = 0x0F) (ho : p.op = 0x03) {x : Word}
    (hx : x = BitVec.ofNat 32 (Claims.littleEndian (p.payload.take 4))) :
    exec .close s = .next ((s.closeNoted rest x p.src.val).over ((s.closeNoted rest x p.src.val).exchs.filter (fun e => e.exid == x)) State.closeCheck) := by
  show execClose s = _
  unfold execClose
  rw [State.recvFabric_op h (kind := 0x0F#5) (op := 0x03#8) hk ho]
  simp only [pnum, bytesNat_eq, List.drop_zero, ← hx]
  rfl

/-- The part as the CLOSE leaves it. -/
theorem closeNoted_only {s : State} {x : Word} {e : MyExch} (h : Claims.onlyDpost s x e) (rest : List Packet) (src : Nat) :
    Claims.onlyDpost (s.closeNoted rest x src) x (e.withClose src) := by
  obtain ⟨-, hx, hf⟩ := mem_of_only h
  have hmap := onlyDpost_map h (f := MyExch.noteClose x src) (fun y => by unfold MyExch.noteClose; split <;> rfl) (fun y => by unfold MyExch.noteClose; split <;> rfl)
  rwa [show MyExch.noteClose x src e = e.withClose src from if_pos (by simp [hx, hf])] at hmap

end Sys2Proof.Machine
end

section
/-! PROOFS. A calendar that has come whole is taken into use, and the obligation on a member's part of an exchange (R49, R58, R66, O44). -/

namespace Sys2Proof.Machine

/-! ## The one part that a command names -/

/-- A part is the one for its ID that has not failed, and the one that its command names. -/
structure Mine (s : State) (x : Word) (e : MyExch) : Prop where
  only : Claims.onlyDpost s x e
  named : ∀ y ∈ s.exchs, y.cmd = e.cmd → y = e

theorem Mine.find {s : State} {x : Word} {e : MyExch} (h : Mine s x e) : s.exchs.find? (fun y => y.cmd == e.cmd) = some e := by
  obtain ⟨hmem, -⟩ := mem_of_only h.only
  cases hf : s.exchs.find? (fun y => y.cmd == e.cmd) with
  | none => exact absurd (List.find?_eq_none.mp hf e hmem) (by simp)
  | some y => rw [h.named y (List.mem_of_find?_eq_some hf) (by simpa using List.find?_some hf)]

/-- A change that leaves the ID, the command and whether it has failed leaves it the one. -/
theorem Mine.modExch {s : State} {x : Word} {e : MyExch} (h : Mine s x e) {f : MyExch → MyExch} (hx : ∀ y, (f y).exid = y.exid) (hf : ∀ y, (f y).failed = y.failed)
    (hc : ∀ y, (f y).cmd = y.cmd) : Mine (s.modExch e.cmd f) x (f e) := by
  refine ⟨onlyDpost_modExch h.only hx hf, fun y hy hcmd => ?_⟩
  obtain ⟨z, hz, rfl⟩ := List.mem_map.mp hy
  by_cases hze : z.cmd = e.cmd
  · rw [h.named z hz hze]
    exact if_pos (beq_self_eq_true e.cmd)
  · rw [if_neg (by simpa using hze), hc] at hcmd
    exact absurd hcmd hze

/-- The parts of another state that are the same. -/
theorem Mine.of_exchs {s t : State} {x : Word} {e : MyExch} (h : Mine s x e) (he : t.exchs = s.exchs) : Mine t x e :=
  ⟨by unfold Claims.onlyDpost; rw [he]; exact h.only, by rw [he]; exact h.named⟩

/-! ## Pieces (R66, R67) -/

/-- The one piece of a short calendar is the calendar. -/
theorem assembled_one {crc : DWord} {bs : List Byte} (h0 : 0 < bs.length) (h : bs.length ≤ 496) : assembled [(crc, 0, bs)] crc bs.length = some bs := by
  have hpieces : (bs.length + 495) / 496 = 1 := by omega
  unfold assembled
  rw [if_neg (Nat.pos_iff_ne_zero.mp h0), hpieces]
  simp

/-- A part with a piece of its calendar kept. -/
def MyExch.keepPieces (ps : List (DWord × Nat × List Byte)) (e : MyExch) : MyExch := { e with pieces := ps }

/-- A CALENDAR packet that holds the whole of a calendar of n bytes. -/
structure OnePiece (p : Packet) (n : Nat) : Prop where
  offset : Claims.littleEndian ((p.payload.drop 4).take 2) = 0
  total : Claims.littleEndian ((p.payload.drop 6).take 2) = n
  nonempty : 0 < n
  short : n ≤ 496
  length : p.payload.length = 16 + n

/-- A calendar that is one piece is taken into use when it comes. -/
theorem State.takePiece_whole {s : State} {e : MyExch} {p : Packet} {n : Nat} (h : OnePiece p n) (hcal : e.calendar = none) (hps : e.pieces = []) (x : Word) :
    ∃ crc, s.takePiece e x p = (s.modExch e.cmd (MyExch.keepPieces [(crc, 0, p.payload.drop 16)])).useCalendar e.cmd x (p.payload.drop 16) := by
  have hlen : (p.payload.drop 16).length = n := by rw [List.length_drop, h.length]; omega
  have hone := assembled_one (crc := BitVec.ofNat 64 (pnum p 8 8)) (bs := p.payload.drop 16) (hlen ▸ h.nonempty) (hlen ▸ h.short)
  refine ⟨BitVec.ofNat 64 (pnum p 8 8), ?_⟩
  unfold State.takePiece
  rw [if_neg (by simp [hcal])]
  dsimp only
  rw [hps, show pnum p 4 2 = 0 from (bytesNat_eq _).trans h.offset,
    show pnum p 6 2 = (p.payload.drop 16).length from (bytesNat_eq _).trans (h.total.trans hlen.symm), List.nil_append, hone]
  rfl

/-- The piece goes to the one DPOST that waits for it. -/
theorem exec_calendar {s : State} {p : Packet} {rest : List Packet} (h : s.rxq = p :: rest) (hk : p.kind = 0x0F) (ho : p.op = 0x02) {x : Word}
    (hx : x = BitVec.ofNat 32 (Claims.littleEndian (p.payload.take 4))) {e : MyExch} (he : Claims.onlyDpost s x e) (hcal : e.calendar = none) :
    exec .calendar s = .next ((Claims.fabricTaken s rest).takePiece e x p) := by
  show execCalendar s = _
  unfold execCalendar
  rw [State.recvFabric_op h (kind := 0x0F#5) (op := 0x02#8) hk ho]
  dsimp only
  have hx' : BitVec.ofNat 32 (pnum p 0 4) = x := by rw [hx]; unfold pnum; rw [bytesNat_eq, List.drop_zero]
  have hmine : (Claims.fabricTaken s rest).exchs.filter (fun e => e.exid == x && !e.failed) = [e] := he
  have hpending : [e].filter (fun e => e.calendar.isNone) = [e] := by simp [hcal]
  rw [hx', hmine, hpending, if_neg (List.cons_ne_nil _ _)]
  rfl

/-! ## The calendar in use (R58, R66) -/

/-- A piece with another CRC than that of the calendar in use is counted: of the part nothing but the CRCs seen changes. -/
theorem State.countMismatch_spec {s : State} {x : Word} {e : MyExch} (h : Mine s x e) (crc : DWord) :
    ∃ xs m seen, s.countMismatch e crc = { s with exchs := xs, calMismatch := m } ∧ Mine (s.countMismatch e crc) x { e with seen := seen } := by
  unfold State.countMismatch
  split
  · exact ⟨s.exchs, s.calMismatch, e.seen, rfl, h⟩
  · exact ⟨_, _, crc :: e.seen, rfl, (h.modExch (f := fun e => { e with seen := crc :: e.seen }) (fun _ => rfl) (fun _ => rfl) (fun _ => rfl)).of_exchs rfl⟩

/-- A command that has ended without an error. -/
def Command.endedOk (code : BitVec 8) (count : Nat) (c : Command) : Command := { c with st := .finished, code := code, err := false, count := count }

theorem State.finishOk_eq (s : State) (n : Nat) (code : BitVec 8) (count : Nat) :
    ∃ a, s.finishOk n code count = { s.modCmd n (Command.endedOk code count) with agenda := a } := State.poke_spec ..

theorem State.scratch_modScratch {s : State} {l w : Nat} (h : s.wg l w ≠ none) (f : Mem → Mem) : (s.modScratch l w f).scratch l w = f (s.scratch l w) := by
  obtain ⟨g, hg⟩ := Option.ne_none_iff_exists'.mp h
  have hwg : (s.modScratch l w f).wg l w = (s.wg l w).map (fun g => { g with scratch := f g.scratch }) :=
    wg_modWg_same s l w (fun g => { g with scratch := f g.scratch }) (fun _ => rfl) (fun _ => rfl)
  unfold State.scratch
  rw [hwg, hg]
  rfl

theorem State.scratch_of_wgs {s t : State} (h : t.wgs = s.wgs) (l w : Nat) : t.scratch l w = s.scratch l w := by
  unfold State.scratch State.wg
  rw [h]

/-- A part whose calendar has landed. -/
def MyExch.afterLanding (e : MyExch) : MyExch := { e with landed := true }

/-- A calendar that lands is in the scratchpad, and its DPOST has ended. -/
theorem State.landCalendar_spec {s : State} {x : Word} {e : MyExch} (h : s.myExch x = some e) {d : MyExch} (hd : d.cmd = e.cmd) (hwg : s.wg d.launch d.wgid ≠ none) {c : Command}
    (hc : s.cmd e.cmd = some c) : (s.landCalendar d).myExch x = some e.afterLanding ∧
      (s.landCalendar d).scratch d.launch d.wgid = (s.scratch d.launch d.wgid).write d.calOff (d.calendar.getD []) ∧
      ((s.landCalendar d).cmd e.cmd).map (·.st) = some .finished := by
  let written : State := (s.modScratch d.launch d.wgid (fun m => m.write d.calOff (d.calendar.getD []))).scratchWrote d.launch d.wgid
    (fun b => decide (d.calOff ≤ b) && decide (b < d.calOff + (d.calendar.getD []).length))
  obtain ⟨a, hland⟩ : ∃ a, s.landCalendar d = { (written.modExch d.cmd MyExch.afterLanding).modCmd d.cmd
      (Command.endedOk (if d.isLate then 1 else 0) (d.cal 6 2)) with agenda := a } := State.finishOk_eq ..
  have hwgs : (s.landCalendar d).wgs = (s.modScratch d.launch d.wgid (fun m => m.write d.calOff (d.calendar.getD []))).wgs := by
    rw [hland]
    rfl
  rw [State.scratch_of_wgs hwgs, State.scratch_modScratch hwg, hland, hd]
  refine ⟨myExch_modExch (s := written) h (f := MyExch.afterLanding) (fun _ => rfl) (fun _ => rfl), rfl, ?_⟩
  have hcmd := State.cmd_modCmd (written.modExch e.cmd MyExch.afterLanding) e.cmd (Command.endedOk (if d.isLate then 1 else 0) (d.cal 6 2)) (fun _ => rfl)
  rw [show (written.modExch e.cmd MyExch.afterLanding).cmd e.cmd = some c from hc] at hcmd
  exact congrArg (Option.map _) hcmd

/-- What follows the landing of a calendar: windows that have passed give their bytes up, the others are put on the agenda, and so are the closes (R58, R63, R64). -/
def State.setGoing (s : State) (x : Word) (e : MyExch) : State :=
  let s := s.over ((s.windows e).filter (Window.timed e.isLate)) (fun s w =>
    if w.stop ≤ s.fabric then
      (match w.feeds with
        | none => s
        | some d => (s.grantTo ((s.exchCmds x d).map (·.id)) w.budget).1.windowOver x d)
    else (s.atFabric w.start (.foldWindowStart x w.num)).atFabric w.stop (.foldWindowEnd x w.num))
  (((s.exchOffer x).atFabric e.endAt (.closeSend x)).atFabric e.endAt (.lateCloseCompletion x)).atFabric (e.endAt + 100000) (.closeTimeout x)

theorem regranted_setGoing (s : State) (x : Word) (e : MyExch) : Regranted s (s.setGoing x e) := by
  unfold State.setGoing
  refine .trans (.over (fun s w => ?_) _ s) (((regranted_exchOffer ..).trans (regranted_atFabric ..)).trans ((regranted_atFabric ..).trans (regranted_atFabric ..)))
  split
  · split
    · exact .refl s
    · exact (regranted_grantTo ..).trans (regranted_windowOver ..)
  · exact (regranted_atFabric ..).trans (regranted_atFabric ..)

/-- A part with its calendar in use. -/
def MyExch.using (bs : List Byte) (e : MyExch) : MyExch := { e with calendar := some bs }

/-- A part whose calendar is whole: its pieces are forgotten. -/
def MyExch.whole (late : Bool) (e : MyExch) : MyExch := { e with late := late, pieces := [] }

/-- The pieces that a part has kept are counted, where their CRC is another than that of the calendar in use (R66). -/
def State.countPieces (s : State) (cmd : Nat) (d : MyExch) : State :=
  s.over (d.pieces.map (·.1)) (fun s crc => match s.exchs.find? (fun e => e.cmd == cmd) with
    | none => s
    | some e => s.countMismatch e crc)

theorem State.countPieces_one {s : State} {cmd : Nat} {d : MyExch} (h : s.exchs.find? (fun e => e.cmd == cmd) = some d) {crc : DWord} {o : Nat} {bs : List Byte}
    (hps : d.pieces = [(crc, o, bs)]) : s.countPieces cmd d = s.countMismatch d crc := by
  unfold State.countPieces
  rw [hps, List.map_singleton, State.over_cons, h]
  rfl

/-- A part's pieces are counted, its calendar lands if its gang runs, and its windows are set going. -/
theorem State.useCalendar_found {s : State} {cmd : Nat} {x : Word} {bs : List Byte} {d : MyExch}
    (h : (s.modExch cmd (MyExch.using bs)).exchs.find? (fun e => e.cmd == cmd) = some d) :
    s.useCalendar cmd x bs = (let u := ((s.modExch cmd (MyExch.using bs)).countPieces cmd d).modExch cmd (MyExch.whole d.isLate)
      if u.exchRuns d then u.landCalendar d else u).setGoing x d := by
  unfold State.useCalendar
  dsimp only
  split
  next hnone => exact absurd (hnone.symm.trans h) (by simp)
  next e hsome =>
    obtain rfl : e = d := Option.some.inj (hsome.symm.trans h)
    rfl

/-- With one piece kept and its gang running, a calendar in use has landed, and its windows are set going. -/
theorem State.useCalendar_spec {s : State} {x : Word} {e : MyExch} (h : Mine s x e) {crc : DWord} {o : Nat} {ps : List Byte} (hps : e.pieces = [(crc, o, ps)])
    (hruns : s.exchRuns e = true) (bs : List Byte) : ∃ u f xs m, s.useCalendar e.cmd x bs = (u.landCalendar (e.using bs)).setGoing x (e.using bs) ∧
      u = { s with exchs := xs, calMismatch := m } ∧ u.myExch x = some f ∧ f.calendar = some bs ∧ f.cmd = e.cmd := by
  have hused := h.modExch (f := MyExch.using bs) (fun _ => rfl) (fun _ => rfl) (fun _ => rfl)
  obtain ⟨xs, m, seen, hcount, hcounted⟩ := State.countMismatch_spec hused crc
  have hwhole := hcounted.modExch (f := MyExch.whole (e.using bs).isLate) (fun _ => rfl) (fun _ => rfl) (fun _ => rfl)
  have hu : ∃ xs m, ((s.modExch e.cmd (MyExch.using bs)).countMismatch (e.using bs) crc).modExch e.cmd (MyExch.whole (e.using bs).isLate) =
      { s with exchs := xs, calMismatch := m } := by
    rw [hcount]
    exact ⟨_, _, rfl⟩
  obtain ⟨xs', m', hu⟩ := hu
  refine ⟨_, _, xs', m', ?_, hu, myExch_of_only hwhole.only, rfl, rfl⟩
  rw [State.useCalendar_found (cmd := e.cmd) hused.find, State.countPieces_one (cmd := e.cmd) hused.find hps]
  dsimp only
  rw [hu]
  exact congrArg (fun v => State.setGoing v x (e.using bs)) (if_pos hruns)

/-- What the calendar of a part in use has brought about. -/
structure Landed (s t : State) (x : Word) (e : MyExch) (bs : List Byte) : Prop where
  calendar : (t.myExch x).map (·.calendar) = some (some bs)
  landed : (t.myExch x).map (·.landed) = some true
  scratch : t.scratch e.launch e.wgid = (s.scratch e.launch e.wgid).write e.calOff bs
  ended : (t.cmd e.cmd).map (·.st) = some .finished

/-- A calendar in use whose gang runs is in the scratchpad, and its DPOST has ended. -/
theorem State.useCalendar_lands {s : State} {x : Word} {e : MyExch} {c : Command} (h : Mine s x e) {crc : DWord} {o : Nat} {ps : List Byte}
    (hps : e.pieces = [(crc, o, ps)]) (hruns : s.exchRuns e = true) (hwg : s.wg e.launch e.wgid ≠ none) (hc : s.cmd e.cmd = some c) (bs : List Byte) :
    Landed s (s.useCalendar e.cmd x bs) x e bs := by
  obtain ⟨u, f, xs, m, huse, hu, hmine, hfcal, hfcmd⟩ := State.useCalendar_spec h hps hruns bs
  have hwg' : u.wg e.launch e.wgid ≠ none := by rw [hu]; exact hwg
  have hc' : u.cmd f.cmd = some c := by rw [hu, hfcmd]; exact hc
  obtain ⟨hland, hscratch, hst⟩ := State.landCalendar_spec (d := e.using bs) hmine hfcmd.symm hwg' hc'
  have hgoing := regranted_setGoing (u.landCalendar (e.using bs)) x (e.using bs)
  obtain ⟨g, hfound⟩ := hgoing.myExch hland
  obtain ⟨d, hd, hdst⟩ := Option.map_eq_some_iff.mp hst
  obtain ⟨_, hd', _, _, _, rfl⟩ := hgoing.cmd hd
  have hwgs : ((u.landCalendar (e.using bs)).setGoing x (e.using bs)).wgs = (u.landCalendar (e.using bs)).wgs := by
    obtain ⟨_, _, _, _, hrest⟩ := hgoing.rest
    rw [hrest]
  rw [huse]
  refine ⟨by rw [hfound]; exact congrArg some hfcal, by rw [hfound]; rfl, ?_, ?_⟩
  · rw [State.scratch_of_wgs hwgs]
    refine hscratch.trans ?_
    rw [hu]
    rfl
  · rw [← hfcmd, hd']
    exact congrArg some hdst

/-- A calendar that is one piece lands when it has come. -/
theorem State.takePiece_lands {s : State} {x : Word} {e : MyExch} {p : Packet} {n : Nat} {c : Command} (h : Mine s x e) (hp : OnePiece p n) (hcal : e.calendar = none)
    (hps : e.pieces = []) (hruns : s.exchRuns e = true) (hwg : s.wg e.launch e.wgid ≠ none) (hc : s.cmd e.cmd = some c) :
    Landed s (s.takePiece e x p) x e (p.payload.drop 16) := by
  obtain ⟨crc, htake⟩ := State.takePiece_whole (s := s) hp hcal hps x
  have hkept := h.modExch (f := MyExch.keepPieces [(crc, 0, p.payload.drop 16)]) (fun _ => rfl) (fun _ => rfl) (fun _ => rfl)
  have hland := State.useCalendar_lands hkept rfl hruns hwg hc (p.payload.drop 16)
  rw [htake]
  exact ⟨hland.calendar, hland.landed, hland.scratch, hland.ended⟩

/-- Settles O44: the operations by what they do to the one part of the ID that has not failed; windows and grants by their cases. -/
theorem exchangeMember : Obligations.exchange_member := by
  unfold Obligations.exchange_member
  refine ⟨⟨?calendar, ?waiting, ?queued, ?closeSend, ?close, ?token⟩, fun s x n e w hw => ⟨?idle, ?start, ?ends, ?relayEnds⟩, fun s c n o m hc hcuts hn => ?grant⟩
  case calendar =>
    intro s p rest e n c hrx hk ho x hone hnamed hcal hps hoff htotal h0 hmax hlen hruns hwg hc
    have hland := State.takePiece_lands (s := Claims.fabricTaken s rest) ⟨hone, hnamed⟩ ⟨hoff, htotal, h0, hmax, hlen⟩ hcal hps hruns hwg hc
    exact ⟨_, exec_calendar hrx hk ho rfl hone hcal, hland.calendar, hland.landed, hland.scratch, hland.ended⟩
  case waiting =>
    intro s x e c hmine hcal hdue hc
    exact ⟨_, exec_dpostTimeout x s, State.dpostTimeout_waiting hmine hcal hdue hc, s.dpostTimeout_mem x⟩
  case queued =>
    intro s x c hc hkind hst hprog hx hdue
    exact ⟨_, exec_dpostTimeout x s, State.dpostTimeout_queued hc hkind hst hprog hx hdue, s.dpostTimeout_mem x⟩
  case closeSend =>
    intro s x e hmine hcal hsent hend hbusy
    exact ⟨_, exec_closeSend hmine hcal hsent hend hbusy, State.closesSent_marks hmine, fun q v hq hp hne hvia =>
      State.closesSent_sends hq hp hne (by rw [hvia]; exact Option.some_ne_none v)⟩
  case close =>
    intro s p rest e hrx hk ho x cs hone
    have hnoted := closeNoted_only hone rest p.src.val
    refine ⟨_, exec_close hrx hk ho rfl, ?_, fun hdone hcal hend hall ht => ?_⟩
    · rw [State.over_only hnoted (fun u y => State.closeCheck_failed)]
      exact State.closeCheck_closes (myExch_of_only hnoted)
    · obtain ⟨-, -, hfailed⟩ := mem_of_only hone
      have hclosing : (e.withClose p.src.val).Closing := ⟨hfailed, hdone, hcal⟩
      have hnone : (e.withClose p.src.val).missing (s.closeNoted rest x p.src.val).pos = [] := List.filter_eq_nil_iff.mpr (fun q hq => by
        have hin : (e.withClose p.src.val).closes.getLsbD q = true := hall q hq
        simp [hin])
      have hcount : (e.withClose p.src.val).closesIn (s.closeNoted rest x p.src.val).pos = (e.awaited s.pos).length :=
        congrArg List.length (List.filter_eq_self.mpr hall)
      rw [State.over_only hnoted (fun u y => State.closeCheck_failed), State.closeCheck_whole (s := s.closeNoted rest x p.src.val) hclosing hend hnone, ← hcount]
      exact State.closeToken_closed (myExch_of_only hnoted) ht 0
  case token =>
    intro s x e hone hdone hcal ht missing count
    have hclosing : e.Closing := ⟨(mem_of_only hone).2.2, hdone, hcal⟩
    have hmine := myExch_of_only hone
    refine ⟨fun hend hnone => ?_, fun hend hsome hdead => ?_, fun q hq halive hdue => ?_⟩
    · refine ⟨_, exec_lateCloseCompletion x s, ?_⟩
      rw [State.over_only hone (fun u y => State.closeCheck_failed), State.closeCheck_whole hclosing hend hnone]
      exact State.closeToken_closed hmine ht 0
    · refine ⟨_, exec_lateCloseCompletion x s, ?_⟩
      rw [State.over_only hone (fun u y => State.closeCheck_failed), State.closeCheck_dead hclosing hend hsome hdead]
      exact State.closeToken_closed hmine ht 0x10#8
    · refine ⟨_, exec_closeTimeout x s, ?_⟩
      rw [State.over_only hone (fun u y => State.closeTimeoutOf_failed), State.closeTimeoutOf_due hclosing hq halive hdue]
      exact State.closeToken_closed hmine ht 0x15#8
  case idle => exact exec_foldWindowStart_idle hw
  case start =>
    intro hsend hstart hstop hdest hfresh
    have hbegins : w.Begins s e := ⟨hsend, hstart, hstop, hdest, hfresh⟩
    refine ⟨fun d hd => exec_foldWindowStart_feeds hw hbegins hd, fun p hnone hp hlen => ⟨_, exec_foldWindowStart_relay hw hbegins hnone, ?_⟩⟩
    rw [hp, State.forwardGo_spec true (ps := [p]) (by simpa using hlen)]
    exact ⟨rfl, rfl, rfl, rfl⟩
  case ends => exact fun d hd => exec_foldWindowEnd_feeds hw hd
  case relayEnds =>
    refine fun hnone => ⟨_, exec_foldWindowEnd_relay hw hnone, ?_⟩
    rw [State.forwardGo_spec false (Nat.le_refl _)]
    exact ⟨fun p hp => List.mem_append_right _ (List.mem_map_of_mem (f := fun p : Packet => { p with hop2 := true, vc := true, sched := false }) hp), rfl, rfl⟩
  case grant => exact State.grantTo_one hc hcuts hn

end Sys2Proof.Machine
end

section
/-! PROOFS. A write at the home slices: tags, wake-ups, and the maximum rule of TAIL words (O28). -/

namespace Sys2Proof.Machine

/-! ## Tags (R203) -/

theorem lt_of_mem_rising {ts : List Nat} {lo g : Nat} (h : risingOk (some lo) ts = true) (hg : g ∈ ts) : lo < g := by
  induction ts generalizing lo with
  | nil => cases hg
  | cons t ts ih =>
    obtain ⟨hlo, hts⟩ : lo < t ∧ risingOk (some t) ts = true := by simpa [risingOk] using h
    rcases List.mem_cons.mp hg with rfl | hg
    · exact hlo
    · exact hlo.trans (ih hts hg)

/-- A granule that is taken out of a rising list is in it no more, and every other stays. -/
theorem mem_risingSet_false {ts : List Nat} (h : risingOk none ts = true) (a g : Nat) : g ∈ risingSet ts a false ↔ g ∈ ts ∧ g ≠ a := by
  induction ts with
  | nil => simp [risingSet]
  | cons t ts ih =>
    have hts : risingOk (some t) ts = true := by simpa [risingOk] using h
    unfold risingSet
    split
    case isTrue ha =>
      have hne : g ∈ t :: ts → g ≠ a := fun hg => by
        rcases List.mem_cons.mp hg with rfl | hg
        · omega
        · have := lt_of_mem_rising hts hg
          omega
      simpa using hne
    case isFalse ha =>
      split
      case isTrue he =>
        have hne : g ∈ ts → g ≠ t := fun hg => Nat.ne_of_gt (lt_of_mem_rising hts hg)
        subst he
        simp only [Bool.false_eq_true, if_false, List.mem_cons]
        exact ⟨fun hg => ⟨.inr hg, hne hg⟩, fun ⟨hg, hn⟩ => hg.resolve_left hn⟩
      case isFalse he =>
        rw [List.mem_cons, List.mem_cons, ih (risingOk_weaken hts)]
        constructor
        · rintro (rfl | ⟨hg, hn⟩)
          · exact ⟨.inl rfl, Ne.symm he⟩
          · exact ⟨.inr hg, hn⟩
        · rintro ⟨rfl | hg, hn⟩
          · exact .inl rfl
          · exact .inr ⟨hg, hn⟩

theorem Mem.tag_set {m : Mem} (h : m.wf = true) (a : Nat) (b : Byte) (x : Nat) : (m.set a b).tag x = (m.tag x && !decide (a / 16 = x / 16)) := by
  rw [Bool.eq_iff_iff]
  simp only [Mem.tag, Mem.set, List.contains_iff_mem, Bool.and_eq_true, Bool.not_eq_true', decide_eq_false_iff_not,
    mem_risingSet_false (Mem.wf_iff.mp h).2]
  exact and_congr_right fun _ => ne_comm

/-- A write clears the tags of the granules that it reaches. -/
theorem Mem.tag_write {m : Mem} (h : m.wf = true) (bs : List Byte) (a x : Nat) :
    (m.write a bs).tag x = (m.tag x && !decide (∃ k, k < bs.length ∧ (a + k) / 16 = x / 16)) := by
  induction bs generalizing m a with
  | nil => simp [Mem.write]
  | cons b bs ih =>
    have hsplit : (∃ k, k < (b :: bs).length ∧ (a + k) / 16 = x / 16) ↔ a / 16 = x / 16 ∨ ∃ k, k < bs.length ∧ (a + 1 + k) / 16 = x / 16 := by
      constructor
      · rintro ⟨_ | k, hk, he⟩
        · exact .inl he
        · exact .inr ⟨k, Nat.lt_of_succ_lt_succ hk, by rw [show a + 1 + k = a + (k + 1) by omega]; exact he⟩
      · rintro (he | ⟨k, hk, he⟩)
        · exact ⟨0, Nat.succ_pos _, he⟩
        · exact ⟨k + 1, Nat.succ_lt_succ hk, by rw [show a + (k + 1) = a + 1 + k by omega]; exact he⟩
    rw [Mem.write, ih (Mem.wf_set h a b), Mem.tag_set h, Bool.and_assoc, ← Bool.not_or, ← Bool.decide_or]
    simp only [hsplit]

/-! ## Wake-ups (R89, R374) -/

/-- A fibre that waits so waits on a cell that a write of these bytes wakes. -/
def Wait.wokenBy (old : Mem) (ps : List (Nat × Byte)) (w : Wait) : Bool :=
  match w with
  | .cell pa always => cellWoken old ps pa always
  | _ => false

/-- A write wakes the fibres that wait on its cells, once memory and the lines are as it leaves them; no fibre has changed before. -/
theorem State.homeWrite_wakes (s : State) (key : Nat) (ps : List (Nat × Byte)) :
    ∃ u : State, u.wgs = s.wgs ∧ s.homeWrite key ps = u.wakeAll (Wait.wokenBy s.mem (s.tailWords.foldl (tailRule s.mem) ps)) := by
  unfold State.homeWrite
  generalize s.tailWords.foldl (tailRule s.mem) ps = qs
  refine ⟨_, ?_, rfl⟩
  obtain ⟨_, _, _, _, _, _, _, he⟩ := HomeTouched.over (fun s k => homeTouched_homeTouch s (64 * k) true) ((qs.map (fun p => p.1 / 64)).dedup) _
  exact (congrArg State.wgs he).trans rfl

theorem State.allFibres_of_wgs {s t : State} (h : t.wgs = s.wgs) : t.allFibres = s.allFibres := by
  unfold State.allFibres
  rw [h]

theorem getD_mem_addrs (a : Nat) {bs : List Byte} {k : Nat} (hk : k < bs.length) : (a + k, bs.getD k 0) ∈ addrs a bs :=
  List.mem_iff_getElem.mpr ⟨k, by simpa [addrs] using hk, by simp [addrs, hk]⟩

theorem cellWoken_of_byte {old : Mem} {ps : List (Nat × Byte)} {p : Nat × Byte} (hp : p ∈ ps) {pa : Nat} (h : pa ≤ p.1) (h' : p.1 < pa + 8) {always : Bool}
    (ha : always = true ∨ old.get p.1 ≠ p.2) : cellWoken old ps pa always = true := by
  refine List.any_eq_true.mpr ⟨p, hp, ?_⟩
  simpa [h, h'] using ha

/-- A fibre that waits on a cell that a write changes, or on a notify cell that it reaches, waits no longer. -/
theorem State.fib_homeWrite_woken {s : State} {key : Nat} {ps : List (Nat × Byte)} {id : FibId} {f : Fibre} (h : s.fib id = some f)
    (hw : f.wait.wokenBy s.mem (s.tailWords.foldl (tailRule s.mem) ps) = true) : (s.homeWrite key ps).fib id = some { f with wait := .none } := by
  obtain ⟨u, hu, he⟩ := s.homeWrite_wakes key ps
  rw [he]
  exact State.fib_wakeAll (by rw [State.fib_of_wgs hu, h]) hw

/-- Where no fibre waits on a cell, a write leaves the fibres. -/
theorem State.fib_homeWrite_none {s : State} {key : Nat} {ps : List (Nat × Byte)} (h : ∀ x ∈ s.allFibres, ∀ pa b, x.2.wait ≠ .cell pa b) :
    (s.homeWrite key ps).fib = s.fib := by
  obtain ⟨u, hu, he⟩ := s.homeWrite_wakes key ps
  rw [he, State.wakeAll_none, State.fib_of_wgs hu]
  intro x hx
  rw [State.allFibres_of_wgs hu] at hx
  unfold Wait.wokenBy
  split
  next hc => exact absurd hc (h x hx _ _)
  next => rfl

/-! ## The tail rule (R113) -/

/-- A byte of the TAIL word at w. -/
def inTail (w : Nat) (p : Nat × Byte) : Bool := decide (w ≤ p.1) && decide (p.1 < w + 8)

theorem inTail_iff {w : Nat} {p : Nat × Byte} : inTail w p = true ↔ w ≤ p.1 ∧ p.1 < w + 8 := by simp [inTail]

theorem addrs_places (a : Nat) (bs : List Byte) : (addrs a bs).map (·.1) = (List.range bs.length).map (a + ·) := List.map_fst_zip (by simp)

theorem addrs_nodup (a : Nat) (bs : List Byte) : ((addrs a bs).map (·.1)).Nodup := by
  rw [addrs_places]
  exact List.nodup_range.map fun _ _ => Nat.add_left_cancel

/-- How many bytes of a write fall into a TAIL word. -/
theorem length_inTail (a : Nat) (bs : List Byte) (w : Nat) : ((addrs a bs).filter (inTail w)).length = min (a + bs.length) (w + 8) - max a w := by
  induction bs generalizing a with
  | nil => simp [addrs]
  | cons b bs ih =>
    rw [addrs_cons, List.filter_cons, List.length_cons]
    split
    case isTrue h =>
      rw [inTail_iff] at h
      rw [List.length_cons, ih]
      omega
    case isFalse h =>
      rw [inTail_iff] at h
      rw [ih]
      omega

/-- The maximum of the TAIL word and the bytes written to it. -/
def tailMax (m : Mem) (ps : List (Nat × Byte)) (w : Nat) : Nat :=
  max (bytesNat ((List.range 8).map (fun k => (((ps.filter (inTail w)).reverse.find? (fun p => p.1 == w + k)).map (·.2)).getD 0#8))) (m.num w 8)

/-- The tail rule by how many bytes fall into the word. -/
theorem tailRule_eq (m : Mem) (ps : List (Nat × Byte)) (w : Nat) : tailRule m ps w =
    if (ps.filter (inTail w)).length < 8 then ps.filter (fun p => !inTail w p) else ps.filter (fun p => !inTail w p) ++ addrs w (natBytes 8 (tailMax m ps w)) := by
  unfold tailRule
  by_cases h : ps.filter (inTail w) = []
  · have hall : ps.filter (fun p => !inTail w p) = ps := List.filter_eq_self.mpr (fun p hp => by simpa using List.filter_eq_nil_iff.mp h p hp)
    rw [h, hall]
    exact if_pos h
  · exact if_neg h

/-- A partial write of a TAIL word leaves the word, and its other bytes stand. -/
theorem Mem.get_tailRule_partial {m : Mem} (h : m.wf = true) {a : Nat} {bs : List Byte} {w : Nat} (hp : w < a ∨ a + bs.length < w + 8) :
    (∀ x, w ≤ x → x < w + 8 → (m.writeAt (tailRule m (addrs a bs) w)).get x = m.get x) ∧
      ∀ k, k < bs.length → a + k < w ∨ w + 8 ≤ a + k → (m.writeAt (tailRule m (addrs a bs) w)).get (a + k) = bs.getD k 0 := by
  rw [tailRule_eq, if_pos (by rw [length_inTail]; omega)]
  refine ⟨fun x hx hx' => Mem.get_writeAt_other h _ (fun p hp => ?_), fun k hk hout => Mem.get_writeAt_mem h ((addrs_nodup a bs).sublist (List.filter_sublist.map _)) ?_⟩
  · have hnot := (List.mem_filter.mp hp).2
    rintro rfl
    rw [inTail_iff.mpr ⟨hx, hx'⟩] at hnot
    cases hnot
  · refine List.mem_filter.mpr ⟨getD_mem_addrs a hk, ?_⟩
    rw [Bool.not_eq_true', ← Bool.not_eq_true, inTail_iff]
    dsimp only
    omega

/-- The last byte that a list of distinct places has for one of them. -/
theorem find_reverse_of_nodup {ps : List (Nat × Byte)} (hn : (ps.map (·.1)).Nodup) {a : Nat} {b : Byte} (h : (a, b) ∈ ps) :
    ps.reverse.find? (fun p => p.1 == a) = some (a, b) := by
  cases hf : ps.reverse.find? (fun p => p.1 == a) with
  | none => exact absurd (List.find?_eq_none.mp hf _ (List.mem_reverse.mpr h)) (by simp)
  | some p =>
    have hp : p.1 = a := by simpa using List.find?_some hf
    exact congrArg some (List.inj_on_of_nodup_map hn (List.mem_reverse.mp (List.mem_of_find?_eq_some hf)) h hp)

theorem bytesNat_lt (bs : List Byte) : bytesNat bs < 256 ^ bs.length := by
  induction bs with
  | nil => exact Nat.one_pos
  | cons b bs ih =>
    have hb := b.isLt
    rw [bytesNat, List.length_cons, Nat.pow_succ]
    omega

/-- The maximum for a write that reaches the whole word. -/
theorem tailMax_whole (m : Mem) {a : Nat} {bs : List Byte} {w : Nat} (ha : a ≤ w) (hw : w + 8 ≤ a + bs.length) :
    tailMax m (addrs a bs) w = max (bytesNat ((List.range 8).map (fun k => bs.getD (w - a + k) 0))) (m.num w 8) := by
  unfold tailMax
  congr 2
  refine List.map_congr_left (fun k hk => ?_)
  rw [List.mem_range] at hk
  have hmem : (w + k, bs.getD (w - a + k) 0) ∈ (addrs a bs).filter (inTail w) := by
    have := getD_mem_addrs a (bs := bs) (k := w - a + k) (by omega)
    rw [show a + (w - a + k) = w + k by omega] at this
    exact List.mem_filter.mpr ⟨this, inTail_iff.mpr ⟨Nat.le_add_right .., by dsimp only; omega⟩⟩
  rw [find_reverse_of_nodup ((addrs_nodup a bs).sublist (List.filter_sublist.map _)) hmem]
  rfl

/-- A write that reaches the whole TAIL word leaves the maximum there, and its other bytes stand. -/
theorem Mem.get_tailRule_whole {m : Mem} (h : m.wf = true) {a : Nat} {bs : List Byte} {w : Nat} (ha : a ≤ w) (hw : w + 8 ≤ a + bs.length) :
    (m.writeAt (tailRule m (addrs a bs) w)).num w 8 = max (bytesNat ((List.range 8).map (fun k => bs.getD (w - a + k) 0))) (m.num w 8) ∧
      ∀ k, k < bs.length → a + k < w ∨ w + 8 ≤ a + k → (m.writeAt (tailRule m (addrs a bs) w)).get (a + k) = bs.getD k 0 := by
  rw [tailRule_eq, if_neg (by rw [length_inTail]; omega), tailMax_whole m ha hw]
  have hwrite (ps qs : List (Nat × Byte)) : m.writeAt (ps ++ qs) = (m.writeAt ps).writeAt qs := List.foldl_append
  rw [hwrite, Mem.writeAt_addrs]
  have hwf := Mem.wf_writeAt h ((addrs a bs).filter (fun p => !inTail w p))
  refine ⟨?_, fun k hk hout => ?_⟩
  · refine (Mem.num_setNum hwf w 8 _).trans (Nat.mod_eq_of_lt (max_lt ?_ ?_))
    · exact (bytesNat_lt _).trans_eq (by rw [List.length_map, List.length_range])
    · exact (bytesNat_lt _).trans_eq (by rw [Mem.read, List.length_map, List.length_range])
  · rw [Mem.get_write _ hwf, natBytes_length, if_neg (by omega)]
    refine Mem.get_writeAt_mem h ((addrs_nodup a bs).sublist (List.filter_sublist.map _)) (List.mem_filter.mpr ⟨getD_mem_addrs a hk, ?_⟩)
    rw [Bool.not_eq_true', ← Bool.not_eq_true, inTail_iff]
    dsimp only
    omega

theorem State.homeStore_tailed {s : State} {w : Nat} (h : s.tailWords = [w]) (key a : Nat) (bs : List Byte) :
    (s.homeStore key a bs).mem = s.mem.writeAt (tailRule s.mem (addrs a bs) w) := by
  rw [State.homeStore, (s.homeWrite_spec key _).2.1, h]
  rfl

theorem State.homeStore_untailed {s : State} (h : s.tailWords = []) (key a : Nat) (bs : List Byte) : (s.homeStore key a bs).mem = s.mem.write a bs := by
  rw [State.homeStore, (s.homeWrite_spec key _).2.1, h]
  exact Mem.writeAt_addrs ..

/-- Settles O28: away from TAIL words the write is that of memory and wakes by its bytes; at a TAIL word by how much of the word it reaches. -/
theorem homeWrites : Obligations.home_writes := by
  unfold Obligations.home_writes
  refine ⟨fun s key a bs hwf hnil => ?away, fun s key w a bs hwf hone => ?tail⟩
  case away =>
    have hmem := State.homeStore_untailed hnil key a bs
    dsimp only
    rw [hmem]
    refine ⟨Mem.wf_write bs hwf a, fun k hk => ?_, fun x hx => ?_, Mem.tag_write hwf bs a, fun id f pa k b hf hwait hk hlo hhi hb => ?_, fun h id => ?_⟩
    · rw [Mem.get_write bs hwf, if_pos (by omega), Nat.add_sub_cancel_left]
      rfl
    · rw [Mem.get_write bs hwf, if_neg (by omega)]
    · refine State.fib_homeWrite_woken hf ?_
      rw [hwait, hnil]
      exact cellWoken_of_byte (getD_mem_addrs a hk) hlo hhi hb
    · exact congrFun (State.fib_homeWrite_none h) id
  case tail =>
    have hmem := State.homeStore_tailed hone key a bs
    dsimp only
    rw [hmem]
    simp only [← bytesNat_eq]
    refine ⟨fun ha hw => (Mem.get_tailRule_whole hwf ha hw).1, fun hp k hk => ?_, fun k hk hout => ?_⟩
    · exact (Mem.get_tailRule_partial hwf hp).1 _ (Nat.le_add_right ..) (Nat.add_lt_add_left hk w)
    · by_cases hp : w < a ∨ a + bs.length < w + 8
      · exact (Mem.get_tailRule_partial hwf hp).2 k hk hout
      · exact (Mem.get_tailRule_whole hwf (by omega) (by omega)).2 k hk hout

end Sys2Proof.Machine
end

section
/-! PROOFS. Packets of the tray links, and the requests of the host (O46). -/

namespace Sys2Proof.Machine

/-! ## Taking a packet -/

theorem State.recvTray_head {s : State} {k : Nat} {p : Packet} {rest : List (Nat × Packet)} (h : s.trayRx = (k, p) :: rest) {kind : BitVec 5} (hk : p.kind = kind)
    (f : Nat → Packet → State → State) : s.recvTray kind f = .next (f k p (Claims.trayTaken s rest)) := by
  unfold State.recvTray
  rw [h]
  exact congrArg _ (if_pos hk)

theorem State.recvTrayReady_head {s : State} {k : Nat} {p : Packet} {rest : List (Nat × Packet)} (h : s.trayRx = (k, p) :: rest) (hb : s.trayBlocked k p = false)
    {kind : BitVec 5} (hk : p.kind = kind) (f : Nat → Packet → State → State) : s.recvTrayReady kind f = .next (f k p (Claims.trayTaken s rest)) := by
  have he := State.recvTray_head h hk f
  unfold State.recvTrayReady
  rw [h]
  exact (if_neg (by rw [hb]; decide)).trans he

/-! ## Answers (R84, R91) -/

theorem State.sealTo_nil (s : State) (a k : Nat) : s.sealTo a k [] = [] := by
  unfold State.sealTo
  split
  · rfl
  · rfl

/-- Seals hang on the TDIs alone. -/
theorem State.sealTo_congr {s t : State} (h : t.tdis = s.tdis) : t.sealTo = s.sealTo := by
  funext a k bs
  unfold State.sealTo State.bindOf
  rw [h]

/-- From s to t nothing that an answer over a tray link hangs on has changed. -/
structure TrayKept (s t : State) : Prop where
  tray : t.tray = s.tray
  tdis : t.tdis = s.tdis

theorem HomeWork.trayKept {s t : State} (h : HomeWork s t) : TrayKept s t := by
  obtain ⟨_, _, _, _, _, _, _, _, _, _, _, _, rfl⟩ := h
  exact ⟨rfl, rfl⟩

theorem trayKept_taken {s u : State} {rest : List (Nat × Packet)} (h : HomeWork (Claims.trayTaken s rest) u) : TrayKept s u :=
  ⟨h.trayKept.tray, h.trayKept.tdis⟩

theorem State.trayAnswer_mem (s : State) (k : Nat) (p r : Packet) : (s.trayAnswer k p r).mem = s.mem := rfl

/-- An answer is queued under the tag of its request, sealed where the link is bound. -/
theorem TrayKept.answered {s u : State} (h : TrayKept s u) {k : Nat} (hk : k < s.tray.length) (p r : Packet) :
    Claims.traySent s (u.trayAnswer k p r) k { r with tag := p.tag, payload := s.sealTo p.asid.toNat k r.payload } := by
  have hget : s.tray[k]? = some s.tray[k] := List.getElem?_eq_getElem hk
  have htray : (u.trayAnswer k p r).tray = s.tray.set k { s.tray[k] with
      txq := s.tray[k].txq ++ [{ r with tag := p.tag, payload := s.sealTo p.asid.toNat k r.payload }] } := by
    unfold State.trayAnswer State.traySend
    dsimp only
    rw [h.tray, State.sealTo_congr h.tdis, List.getD_eq_getElem?_getD, hget]
    rfl
  exact ⟨_, _, hget, by rw [htray, List.getElem?_set_self hk], rfl⟩

/-- An answer that carries no bytes. -/
theorem TrayKept.answered_bare {s u : State} (h : TrayKept s u) {k : Nat} (hk : k < s.tray.length) (p : Packet) {r : Packet} (hr : r.payload = []) :
    Claims.traySent s (u.trayAnswer k p r) k { r with tag := p.tag } := by
  have ha := h.answered hk p r
  rw [hr, State.sealTo_nil] at ha
  rwa [show ({ r with tag := p.tag } : Packet) = { r with tag := p.tag, payload := [] } by rw [← hr]]

/-! ## Refusals (R87) -/

/-- One check of a chain of refusals, and the same check of the function that it speaks of. -/
theorem refused_if {α : Type} {c d : Prop} [Decidable c] [Decidable d] (hcd : c ↔ d) {x st : BitVec 8} {o : Option (BitVec 8)} {r : Except (BitVec 8 × Option HamperKey) α}
    (h : (if c then some x else o) = some st) (hr : o = some st → r = .error (st, none)) : (if d then .error (x, none) else r) = .error (st, none) := by
  by_cases hc : c
  · rw [if_pos hc] at h
    rw [if_pos (hcd.mp hc)]
    cases h
    rfl
  · rw [if_neg hc] at h
    rw [if_neg (fun hd => hc (hcd.mpr hd))]
    exact hr h

/-- A request that fails a check is refused with the status of the first that fails. -/
theorem State.hostCheck_refused {s : State} {k : Nat} {p : Packet} {n : Nat} {ro : Bool} {bad : OEntry → Bool} {st : BitVec 8}
    (h : Claims.hostRefusal s k p n ro bad = some st) (write : Bool) : s.hostCheck k p n write ro bad = .error (st, none) := by
  unfold State.hostCheck
  refine refused_if (by simp) h (fun h => ?_)
  cases he : s.entry p.asid.toNat p.obj.toNat with
  | none =>
    rw [he] at h
    cases h
    rfl
  | some e =>
    rw [he] at h
    have htype : e.typ ∉ [1, 2, 3] ↔ e.typ = 0 ∨ 3 < e.typ := by
      simp only [List.mem_cons, List.not_mem_nil, or_false]
      omega
    refine refused_if (by simp only [htype, Bool.not_eq_true', Bool.and_eq_true, or_assoc]) h (fun h => ?_)
    refine refused_if Iff.rfl h (fun h => ?_)
    refine refused_if (by rw [State.bindOf, ← List.isSome_find?, Option.not_isSome]) h (fun h => ?_)
    exact refused_if Iff.rfl h (fun h => by cases h)

/-- A refused request changes nothing but what waits to be sent. -/
theorem State.trayRefuse_bare {s : State} {rest : List (Nat × Packet)} {k : Nat} (hk : k < s.tray.length) (p : Packet) (st : BitVec 8) :
    Claims.traySent s ((Claims.trayTaken s rest).trayRefuse k p (st, none)) k { Packet.zero with kind := 0x0C, tag := p.tag, op := st } ∧
      ((Claims.trayTaken s rest).trayRefuse k p (st, none)).mem = s.mem :=
  ⟨(trayKept_taken (.refl _)).answered_bare hk p rfl, rfl⟩

theorem exec_hostRefused {s : State} {k : Nat} {p : Packet} {rest : List (Nat × Packet)} (h : s.trayRx = (k, p) :: rest) (hb : s.trayBlocked k p = false)
    {i : Instr} {n : Nat} {w : Bool} {bad : OEntry → Bool} {st : BitVec 8}
    (hi : (p.kind = 0x05 ∧ i = .drd ∧ n = p.len ∧ w = false ∧ bad = (fun _ => false)) ∨ (p.kind = 0x07 ∧ i = .dwr ∧ n = p.payload.length ∧ w = true ∧ bad = (fun _ => false)) ∨
      (p.kind = 0x09 ∧ i = .trayNote ∧ n = 8 ∧ w = true ∧ bad = noteBad p) ∨ (p.kind = 0x0A ∧ i = .rply ∧ n = 1024 ∧ w = false ∧ bad = (fun _ => false)))
    (hr : Claims.hostRefusal (Claims.trayTaken s rest) k p n w bad = some st) : exec i s = .next ((Claims.trayTaken s rest).trayRefuse k p (st, none)) := by
  rcases hi with ⟨hk, rfl, rfl, rfl, rfl⟩ | ⟨hk, rfl, rfl, rfl, rfl⟩ | ⟨hk, rfl, rfl, rfl, rfl⟩ | ⟨hk, rfl, rfl, rfl, rfl⟩
  · refine (State.recvTrayReady_head h hb hk _).trans (congrArg _ ?_)
    rw [State.hostCheck_refused hr]
  · refine (State.recvTrayReady_head h hb hk _).trans (congrArg _ ?_)
    rw [State.hostCheck_refused hr]
  · refine (State.recvTrayReady_head h hb hk _).trans (congrArg _ ?_)
    rw [State.hostCheck_refused hr]
  · refine (State.recvTrayReady_head h hb hk _).trans (congrArg _ ?_)
    dsimp only
    rw [State.hostCheck_refused hr]

/-! ## Reads and writes (R87, R88) -/

/-- The state once the lines of some bytes are taken into their home slices. -/
def State.linesTaken (s : State) (segs : List (Nat × Nat)) : State := s.over segs (fun s seg => s.homeTouch seg.1 false)

theorem homeTouched_linesTaken (s : State) (segs : List (Nat × Nat)) : HomeTouched s (s.linesTaken segs) := .over (fun _ _ => homeTouched_homeTouch ..) _ _

/-- The value that a NOTE leaves in its cell (R89). -/
def noteValue (p : Packet) (old : Nat) : Nat :=
  let v := Claims.littleEndian (p.payload.take 8)
  let op := (p.payload.getD 8 0).toNat
  if op = 0 then v else if op = 1 then old + v else max old v

theorem pnum_zero (p : Packet) (n : Nat) : pnum p 0 n = Claims.littleEndian (p.payload.take n) := by
  unfold pnum
  rw [bytesNat_eq, List.drop_zero]

/-- A reply fits the record that its offset names. -/
def State.replyFits (s : State) (p : Packet) : Bool :=
  let a := p.asid.toNat
  let r := p.off.toNat / 1024
  let w := s.recWord a r
  decide (8 ≤ p.payload.length) && decide (p.payload.length - 8 ≤ 64) && p.off.toNat % 1024 == 0 && p.obj.toNat == s.heapObj a && s.isRecord a r &&
    recState w == stLive && recSerial w == Claims.littleEndian (p.payload.take 4) && recReply w == 1

theorem State.replyFits_iff (s : State) (p : Packet) : s.replyFits p = false ↔
    p.payload.length < 8 ∨ 64 < p.payload.length - 8 ∨ p.off.toNat % 1024 ≠ 0 ∨ p.obj.toNat ≠ s.heapObj p.asid.toNat ∨ (!s.isRecord p.asid.toNat (p.off.toNat / 1024)) = true ∨
      recState (s.recWord p.asid.toNat (p.off.toNat / 1024)) ≠ stLive ∨ recSerial (s.recWord p.asid.toNat (p.off.toNat / 1024)) ≠ pnum p 0 4 ∨
        recReply (s.recWord p.asid.toNat (p.off.toNat / 1024)) ≠ 1 := by
  rw [pnum_zero]
  simp only [State.replyFits, Bool.and_eq_false_iff, decide_eq_false_iff_not, beq_eq_false_iff_ne, Nat.not_le, Bool.not_eq_true', or_assoc]

section Served

variable {s : State} {k : Nat} {p : Packet} {rest : List (Nat × Packet)} (h : s.trayRx = (k, p) :: rest) (hb : s.trayBlocked k p = false)
include h hb

theorem exec_drd (hk : p.kind = 0x05) {segs : List (Nat × Nat)} (hc : (Claims.trayTaken s rest).hostCheck k p p.len false false (fun _ => false) = .ok segs)
    (hg : (Claims.trayTaken s rest).segsGone segs = false) : exec .drd s = .next (((Claims.trayTaken s rest).linesTaken segs).trayAnswer k p
      { Packet.zero with kind := 0x06#5, len := p.len, payload := (Claims.trayTaken s rest).segsRead p.asid.toNat segs }) := by
  rw [← (homeTouched_linesTaken (Claims.trayTaken s rest) segs).segsRead]
  refine (State.recvTrayReady_head h hb hk _).trans (congrArg _ ?_)
  rw [hc]
  exact if_neg (by rw [hg]; decide)

theorem exec_dwr (hk : p.kind = 0x07) {segs : List (Nat × Nat)} (hc : (Claims.trayTaken s rest).hostCheck k p p.payload.length true true (fun _ => false) = .ok segs)
    (hg : (Claims.trayTaken s rest).segsGone segs = false) : exec .dwr s = .next (((Claims.trayTaken s rest).segsWrite p.asid.toNat segs p.payload).trayAnswer k p
      { Packet.zero with kind := 0x08#5 }) := by
  refine (State.recvTrayReady_head h hb hk _).trans (congrArg _ ?_)
  rw [hc]
  exact if_neg (by rw [hg]; decide)

theorem exec_trayNote (hk : p.kind = 0x09) {x n : Nat} {more : List (Nat × Nat)}
    (hc : (Claims.trayTaken s rest).hostCheck k p 8 true true (noteBad p) = .ok ((x, n) :: more)) (hg : (Claims.trayTaken s rest).segsGone ((x, n) :: more) = false) :
    exec .trayNote s = .next ((Claims.trayTaken s rest).homeStore (s.keyOf p.asid.toNat) x
      (natBytes 8 (noteValue p (Claims.littleEndian (s.rd (s.keyOf p.asid.toNat) x 8))))) := by
  unfold noteValue
  rw [← pnum_zero, ← bytesNat_eq]
  refine (State.recvTrayReady_head h hb hk _).trans (congrArg _ ?_)
  rw [hc]
  exact if_neg (by rw [hg]; decide)

/-! ## Replies (R90) -/

theorem exec_rply_unfit (hk : p.kind = 0x0A) {segs : List (Nat × Nat)} (hc : (Claims.trayTaken s rest).hostCheck k p 1024 true false (fun _ => false) = .ok segs)
    (hg : (Claims.trayTaken s rest).segsGone segs = false) (hf : (Claims.trayTaken s rest).replyFits p = false) :
    exec .rply s = .next ((Claims.trayTaken s rest).trayRefuse k p (0x44#8, none)) := by
  refine (State.recvTrayReady_head h hb hk _).trans (congrArg _ ?_)
  dsimp only
  rw [hc]
  exact (if_neg (by rw [hg]; decide)).trans (if_pos ((State.replyFits_iff _ p).mp hf))

theorem exec_rply (hk : p.kind = 0x0A) {segs : List (Nat × Nat)} (hc : (Claims.trayTaken s rest).hostCheck k p 1024 true false (fun _ => false) = .ok segs)
    (hg : (Claims.trayTaken s rest).segsGone segs = false) (hf : (Claims.trayTaken s rest).replyFits p = true) {q : Nat}
    (hq : (Claims.trayTaken s rest).segPA p.asid.toNat (p.off.toNat / 1024) = some q) :
    let u := Claims.trayTaken s rest
    let a := p.asid.toNat
    let r := p.off.toNat / 1024
    exec .rply s = .next ((((u.put (u.keyOf a) (addrs (q + 0x70) (p.payload.drop 8))).segSet a r 0x60 2 (p.payload.length - 8)).setRecWord a r
      (recSerial (u.recWord a r)) 2 stLive).replyReady a r) := by
  refine (State.recvTrayReady_head h hb hk _).trans (congrArg _ ?_)
  dsimp only
  rw [hc]
  refine (if_neg (by rw [hg]; decide)).trans ((if_neg (fun hn => ?_)).trans ?_)
  · rw [(State.replyFits_iff _ p).mpr hn] at hf
    cases hf
  · rw [hq]

end Served

/-- Settles O46: each request by what its checks answer; the host's answers hang on the tray links and the TDIs alone, which the home slices leave. -/
theorem hostRequests : Obligations.host_requests := by
  unfold Obligations.host_requests
  intro s p k rest h hb hlink
  refine ⟨fun i n w bad st hi hr => ?refused, fun hk segs hc hg => ?read, fun hk x n hwf hq hc hg hn => ?write, fun hk x n more hwf hq hc hg => ?note, fun hk segs hc hg => ?reply⟩
  case refused =>
    obtain ⟨hsent, hmem⟩ := State.trayRefuse_bare (rest := rest) hlink p st
    exact ⟨_, exec_hostRefused h hb hi hr, hsent, hmem⟩
  case read =>
    have htouch := homeTouched_linesTaken (Claims.trayTaken s rest) segs
    exact ⟨_, exec_drd h hb hk hc hg, (trayKept_taken htouch.homeWork).answered hlink p _, htouch.mem⟩
  case write =>
    subst hn
    refine ⟨_, exec_dwr h hb hk hc hg, (trayKept_taken (homeWork_segsWrite ..)).answered_bare hlink p rfl, ?_⟩
    rw [State.trayAnswer_mem, segsWrite_one, List.take_length, State.homeStore_mem (s := Claims.trayTaken s rest) hq]
    refine ⟨fun j hj => ?_, fun y hy => ?_⟩
    · rw [Mem.get_write _ (m := (Claims.trayTaken s rest).mem) hwf, if_pos (by omega), Nat.add_sub_cancel_left]
      rfl
    · rw [Mem.get_write _ (m := (Claims.trayTaken s rest).mem) hwf, if_neg (by omega)]
      rfl
  case note =>
    have hmem := State.homeStore_mem (s := Claims.trayTaken s rest) hq (s.keyOf p.asid.toNat) x (natBytes 8 (noteValue p (Claims.littleEndian (s.rd (s.keyOf p.asid.toNat) x 8))))
    refine ⟨_, exec_trayNote h hb hk hc hg, ?_, fun y hy => ?_, fun id f b hf hwait hb => ?_⟩
    · rw [hmem]
      exact Mem.num_setNum (m := (Claims.trayTaken s rest).mem) hwf x 8 _
    · rw [hmem, Mem.get_write _ (m := (Claims.trayTaken s rest).mem) hwf, natBytes_length, if_neg (by omega)]
      rfl
    · refine State.fib_homeWrite_woken (s := Claims.trayTaken s rest) hf ?_
      rw [hwait, State.tailWords_nil (s := Claims.trayTaken s rest) hq]
      exact cellWoken_of_byte (getD_mem_addrs x (k := 0) (by rw [natBytes_length]; decide)) (Nat.le_refl x) (by dsimp only; omega) (.inl hb)
  case reply =>
    refine ⟨fun hf => ?_, fun q hf hq => exec_rply h hb hk hc hg hf hq⟩
    obtain ⟨hsent, hmem⟩ := State.trayRefuse_bare (rest := rest) hlink p 0x44
    exact ⟨_, exec_rply_unfit h hb hk hc hg hf, hsent, hmem⟩

end Sys2Proof.Machine
end

section
/-! PROOFS. What the end of launches, connections and commands leaves as it was: the address spaces and the TDIs (R91, R92, R193). -/

namespace Sys2Proof.Machine

/-! ## Write-backs (R220, R221, R229) -/

theorem homeWork_modCore (s : State) (n : Nat) (f : Core → Core) : HomeWork s (s.modCore n f) :=
  Woken.homeWork ⟨s.wgs, s.gangs, _, rfl⟩

theorem homeWork_sectorLost (s : State) (core asid obj sector pa : Nat) : HomeWork s (s.sectorLost core asid obj sector pa) := by
  unfold State.sectorLost
  have hheal : HomeTouched s (s.l1Heal core asid obj sector) := ⟨s.homeLines, s.rcLines, s.freeCount, s.bad, _, s.mg.errlog, s.mg.errhead, rfl⟩
  exact (hheal.trans (homeTouched_logError ..)).homeWork.trans ((homeWork_modCore ..).trans (.over (fun _ _ => (homeTouched_doom ..).homeWork) _ _))

theorem homeWork_writeBack (s : State) (core asid obj line : Nat) : HomeWork s (s.writeBack core asid obj line) := by
  unfold State.writeBack
  split
  · exact .refl s
  · dsimp only
    split
    · exact homeWork_modCore ..
    · refine (homeWork_modCore ..).trans (.over (fun u k => ?_) _ _)
      split
      · exact .refl u
      · split
        · exact homeWork_sectorLost ..
        · exact homeWork_homeWrite ..

theorem homeWork_drainGo (s : State) (core : Nat) (xs : List (Nat × Nat × Nat)) : HomeWork s (s.drainGo core xs).1 := by
  induction xs generalizing s with
  | nil => exact .refl s
  | cons x xs ih =>
    unfold State.drainGo
    split
    · exact .refl s
    · exact (homeWork_writeBack ..).trans (ih _)

theorem homeWork_release (s : State) (core scope mark : Nat) : HomeWork s (s.release core scope mark).1 := by
  unfold State.release
  split
  · exact .refl s
  · exact homeWork_drainGo ..

/-! ## Address spaces and TDIs -/

/-- From s to t no address space and no TDI has changed. -/
structure SpacesKept (s t : State) : Prop where
  asids : t.asids = s.asids
  tdis : t.tdis = s.tdis

theorem SpacesKept.refl (s : State) : SpacesKept s s := ⟨rfl, rfl⟩

theorem SpacesKept.trans {s t u : State} (h : SpacesKept s t) (h' : SpacesKept t u) : SpacesKept s u := ⟨h'.asids.trans h.asids, h'.tdis.trans h.tdis⟩

theorem SpacesKept.over {α : Type} {f : State → α → State} (h : ∀ s x, SpacesKept s (f s x)) (xs : List α) (s : State) : SpacesKept s (s.over xs f) :=
  State.over_keeps (P := SpacesKept s) (fun u x hu => hu.trans (h u x)) xs (.refl s)

theorem HomeWork.spacesKept {s t : State} (h : HomeWork s t) : SpacesKept s t := by
  obtain ⟨_, _, _, _, _, _, _, _, _, _, _, _, rfl⟩ := h
  exact ⟨rfl, rfl⟩

theorem Poked.spacesKept {s t : State} (h : Poked s t) : SpacesKept s t := by
  obtain ⟨_, _, rfl⟩ := h
  exact ⟨rfl, rfl⟩

theorem SpacesKept.ite {c : Prop} [Decidable c] {s t u : State} (h : SpacesKept s t) (h' : SpacesKept s u) : SpacesKept s (if c then t else u) := by
  split
  · exact h
  · exact h'

/-! ## Commands that leave their queues (R237, R268) -/

theorem spacesKept_withCmds (s : State) (cs : List Command) : SpacesKept s { s with cmds := cs } := ⟨rfl, rfl⟩

theorem spacesKept_later (s : State) (n : Nat) (ev : Instr) : SpacesKept s (s.later n ev) := ⟨rfl, rfl⟩

theorem spacesKept_dropJoins (s : State) (e : Eng) (q : Nat) : SpacesKept s (s.dropJoins e q) := ⟨rfl, rfl⟩

theorem spacesKept_startReleased (s : State) (c : Command) : SpacesKept s (s.startReleased c) := by
  have hrel : SpacesKept s (s.relStep c.core c.scope c.mark).1 := by
    unfold State.relStep
    split
    · exact .refl s
    · exact (homeWork_release ..).spacesKept
  exact .ite (hrel.trans ((poked_modCmd ..).trans (poked_poke ..)).spacesKept) (hrel.trans (poked_poke ..).spacesKept)

theorem spacesKept_serveCopy (s : State) (e : Eng) (q : Nat) : SpacesKept s (s.serveCopy e q) := by
  have hjoins := spacesKept_dropJoins s e q
  unfold State.serveCopy
  dsimp only
  split
  · exact .ite (hjoins.trans (spacesKept_startReleased ..)) hjoins
  · exact hjoins

theorem spacesKept_servePortGo (e : Eng) (q : Nat) (cs : List Command) (hold : Bool) (s : State) : SpacesKept s (State.servePortGo e q hold cs s) := by
  induction cs generalizing hold s with
  | nil => exact .refl s
  | cons c cs ih =>
    unfold State.servePortGo
    refine .ite (.ite ((spacesKept_withCmds s _).trans (ih ..)) (.refl s)) (.trans ?_ (ih ..))
    exact .ite (spacesKept_startReleased ..) (.refl s)

theorem spacesKept_serveMangle (s : State) (core : Nat) : SpacesKept s (s.serveMangle core) := by
  have hjoins : SpacesKept s (s.over (List.range 4) (fun s q => s.dropJoins (.mangle core) q)) := .over (fun s q => spacesKept_dropJoins s _ q) _ s
  unfold State.serveMangle
  dsimp only
  refine .ite hjoins ?_
  split
  · exact hjoins
  · exact hjoins.trans ((homeWork_modCore ..).spacesKept.trans (spacesKept_startReleased ..))

theorem spacesKept_serve (s : State) (e : Eng) : SpacesKept s (s.serve e) := by
  unfold State.serve
  split
  · exact spacesKept_serveMangle ..
  · exact .over (fun s q => spacesKept_serveCopy s _ q) _ s
  · exact .over (fun s q => spacesKept_servePortGo _ q _ _ s) _ s

theorem spacesKept_endWaits (s : State) (p : Wait → Bool) : SpacesKept s (s.endWaits p) := ⟨rfl, rfl⟩

theorem spacesKept_dropCmd (s : State) (c : Command) : SpacesKept s (s.dropCmd c) := by
  have hleft : SpacesKept s { s.abandonCmd c.id with cmds := (s.abandonCmd c.id).cmds.filter (fun x => x.id != c.id) } := ⟨rfl, rfl⟩
  unfold State.dropCmd
  dsimp only
  refine .trans ?_ (.trans (spacesKept_endWaits ..) (spacesKept_serve ..))
  split
  · exact hleft.trans (spacesKept_later ..)
  · exact hleft

/-! ## Tiles that look again -/

/-- Tile accesses that look again put themselves on the agenda, and nothing else changes. -/
theorem State.tilesAgain_spec (s : State) : ∃ a, s.tilesAgain = { s with agenda := a } := by
  unfold State.tilesAgain
  refine State.over_keeps (P := fun u => ∃ a, u = { s with agenda := a }) (fun u y hu => ?_) _ ⟨s.agenda, rfl⟩
  obtain ⟨a, rfl⟩ := hu
  split
  · exact ⟨a, rfl⟩
  · exact ⟨_, rfl⟩

/-! ## Launches and connections that end (R71, R92, R137) -/

theorem spacesKept_endLaunch (s : State) (l : Nat) : SpacesKept s (s.endLaunch l) := by
  unfold State.endLaunch
  dsimp only
  refine (SpacesKept.over (fun s c => spacesKept_dropCmd s c) (s.cmds.filter (fun c => c.launch == l && c.onScratch)) s).trans ?_
  obtain ⟨a, he⟩ := State.tilesAgain_spec _
  rw [he]
  exact ⟨rfl, rfl⟩

theorem Requeued.spacesKept {s t : State} (h : Requeued s t) : SpacesKept s t := by
  obtain ⟨_, _, _, _, rfl⟩ := h
  exact ⟨rfl, rfl⟩

theorem spacesKept_finish (s : State) (n : Nat) (code : BitVec 8) (count : Nat) : SpacesKept s (s.finish n code count) :=
  (poked_modCmd ..).spacesKept.trans (requeued_finish ..).spacesKept

theorem spacesKept_modConn (s : State) (n : Nat) (f : Conn → Conn) : SpacesKept s (s.modConn n f) := ⟨rfl, rfl⟩

theorem spacesKept_endConn (s : State) (n : Nat) : SpacesKept s (s.endConn n) := by
  unfold State.endConn
  exact (SpacesKept.over (fun u c => (poked_modCmd ..).spacesKept.trans (spacesKept_finish ..)) (s.connCmds n) s).trans (spacesKept_modConn ..)

/-! ## Address spaces that end (R92, R193, R207) -/

/-- What ends with a confidential address space: its launches and its connections. -/
def State.confEnded (s : State) (a : Nat) : State :=
  (s.over ((s.launches.filter (fun L => L.asid == a)).map (·.id)) State.endLaunch).over
    (((s.over ((s.launches.filter (fun L => L.asid == a)).map (·.id)) State.endLaunch).conns.filter (fun c => c.asid == a && c.st != .closed)).map (·.num))
    (fun s n => (s.endConn n).modConn n (fun c => { c with st := .closed }))

theorem spacesKept_confEnded (s : State) (a : Nat) : SpacesKept s (s.confEnded a) :=
  (SpacesKept.over spacesKept_endLaunch _ s).trans (.over (fun _ _ => (spacesKept_endConn ..).trans (spacesKept_modConn ..)) _ _)

/-- The TDI that held an address space holds it no more. -/
def Tdi.without (a : Nat) (t : Tdi) : Tdi := if t.st == .run && t.asid == a then ⟨.unlocked, 0, 0, 0⟩ else t

theorem State.dropAsid_eq (s : State) (a : Nat) : s.dropAsid a =
    let conf := (s.asid a).any (·.conf)
    let u := if !conf then s else s.confEnded a
    State.oinv { u with asids := u.asids.filter (fun d => d.asid != a), keys := u.keys.filter (fun k => !(conf && k == ((s.asid a).map (·.key)).getD 0)),
                        tdis := u.tdis.map (Tdi.without a) } a none := rfl

theorem State.dropAsid_asids (s : State) (a : Nat) : (s.dropAsid a).asids = s.asids.filter (fun d => d.asid != a) := by
  have h : SpacesKept s (if !(s.asid a).any (·.conf) then s else s.confEnded a) := .ite (.refl s) (spacesKept_confEnded ..)
  rw [State.dropAsid_eq]
  exact congrArg _ h.asids

theorem State.dropAsid_tdis (s : State) (a : Nat) : (s.dropAsid a).tdis = s.tdis.map (Tdi.without a) := by
  have h : SpacesKept s (if !(s.asid a).any (·.conf) then s else s.confEnded a) := .ite (.refl s) (spacesKept_confEnded ..)
  rw [State.dropAsid_eq]
  exact congrArg _ h.tdis

end Sys2Proof.Machine
end

section
/-! PROOFS. Answers of the host, time-outs, and what arrives at the DOE mailbox (O47). -/

namespace Sys2Proof.Machine

/-! ## Requests that end (R85, R86) -/

/-- The requests without one that is over. -/
def State.htxsWithout (s : State) (x : HTx) : List HTx := s.htxs.filter (fun y => !(y.link == x.link && y.tag == x.tag))

/-- A request whose answer has not come: its tag stays in use, its bytes leave the window. -/
def HTx.left (x y : HTx) : HTx := if y.link == x.link && y.tag == x.tag then { y with kind := .gone, len := 0 } else y

/-- A request that is over: it is gone, and what looks again is on the agenda. -/
theorem State.dropHtx_spec (s : State) (x : HTx) : ∃ a, s.dropHtx x = { s with htxs := s.htxsWithout x, agenda := a } := by
  obtain ⟨a, ha⟩ := State.tilesAgain_spec { s with htxs := s.htxsWithout x }
  obtain ⟨b, hb⟩ := State.retry_spec { s with htxs := s.htxsWithout x, agenda := a }
  refine ⟨b, ?_⟩
  rw [show s.dropHtx x = State.retry (State.tilesAgain { s with htxs := s.htxsWithout x }) from rfl, ha, hb]

/-- Over a working link a request that ends without its answer keeps its tag. -/
theorem State.leaveHtx_spec {s : State} {x : HTx} (h : (s.trayOf x.link).failed = false) :
    ∃ a, s.leaveHtx x false = { s with htxs := s.htxs.map x.left, agenda := a } := by
  obtain ⟨a, ha⟩ := State.tilesAgain_spec { s with htxs := s.htxs.map x.left }
  obtain ⟨b, hb⟩ := State.retry_spec { s with htxs := s.htxs.map x.left, agenda := a }
  refine ⟨b, ?_⟩
  have hleave : s.leaveHtx x false = State.retry (State.tilesAgain { s with htxs := s.htxs.map x.left }) := if_neg (by rw [h]; decide)
  rw [hleave, ha, hb]

theorem State.tileHostDone_spec (s : State) (n : Nat) : ∃ a, s.tileHostDone n = { s with agenda := a } := by
  unfold State.tileHostDone
  split
  · exact ⟨_, rfl⟩
  · exact ⟨s.agenda, rfl⟩

/-! ## Commands (R86) -/

/-- What asked for a request has ended. -/
def HTx.abandoned (n : Nat) (y : HTx) : HTx := if y.kind.isOf n then { y with kind := .gone } else y

theorem HTx.abandoned_link (n : Nat) (y : HTx) : (y.abandoned n).link = y.link := by unfold HTx.abandoned; split <;> rfl

theorem HTx.abandoned_tag (n : Nat) (y : HTx) : (y.abandoned n).tag = y.tag := by unfold HTx.abandoned; split <;> rfl

/-- A command that ends with an error leaves its requests. -/
theorem State.finish_htxs (s : State) (n : Nat) {code : BitVec 8} (hc : code ≠ 0) (count : Nat) : (s.finish n code count).htxs = s.htxs.map (HTx.abandoned n) := by
  obtain ⟨a, ha⟩ := State.poke_spec (s.modCmd n (Command.ended code count)) 1 n
  have hend : (((s.modCmd n (Command.ended code count)).poke 1 n).abandonCmd n).htxs = s.htxs.map (HTx.abandoned n) := by
    rw [ha]
    rfl
  rw [← hend]
  unfold State.finish
  dsimp only
  rw [if_neg hc]
  split
  · rfl
  · split
    · rfl
    · rfl

theorem State.finish_error {s : State} {n : Nat} {c : Command} (h : s.cmd n = some c) {code : BitVec 8} (hc : code ≠ 0) (count : Nat) :
    (s.finish n code count).cmd n = some { c with st := .finished, code := code, err := true, count := count } := by
  rw [State.finish_cmd_same, h, ← show (code != 0) = true by simpa using hc]
  rfl

/-- The requests of a command that has ended, without the one that ended it. -/
theorem State.htxsWithout_abandoned (s : State) (n : Nat) (x : HTx) :
    State.htxsWithout { s with htxs := s.htxs.map (HTx.abandoned n) } x = (s.htxsWithout x).map (HTx.abandoned n) := by
  unfold State.htxsWithout
  dsimp only
  rw [List.filter_map]
  refine congrArg _ (List.filter_congr (fun y _ => ?_))
  rw [Function.comp_apply, HTx.abandoned_link, HTx.abandoned_tag]

/-- A command's piece has come, or has been written, and the command looks on. -/
theorem State.cmd_modPoke {s : State} {n : Nat} {c : Command} (h : s.cmd n = some c) (f : Command → Command) (hf : ∀ c, (f c).id = c.id) :
    ∃ cs a, (s.modCmd n f).poke 1 n = { s with cmds := cs, agenda := a } ∧ ((s.modCmd n f).poke 1 n).cmd n = some (f c) := by
  obtain ⟨a, he⟩ := (s.modCmd n f).poke_spec 1 n
  refine ⟨_, a, he, ?_⟩
  rw [he, ← Option.map_some, ← h, ← State.cmd_modCmd s n f hf]
  rfl

/-! ## HRDR and HWRA (R86) -/

/-- The fibres that wait for an answer of the host have its bytes. -/
def State.hostAnswered (s : State) (x : HTx) (bs : List Byte) : State :=
  s.mapFibres (fun _ f => if f.wait = .host x.link x.tag then { f with wait := .none, resp := some (f.resp.getD [] ++ bs) } else f)

theorem State.fib_hostAnswered {s : State} {id : FibId} {g : Fibre} (h : s.fib id = some g) (x : HTx) (bs : List Byte) :
    (s.hostAnswered x bs).fib id = some (if g.wait = .host x.link x.tag then { g with wait := .none, resp := some (g.resp.getD [] ++ bs) } else g) := by
  unfold State.hostAnswered
  rw [State.fib_mapFibres _ _ (fun _ f => by split <;> rfl), h]
  rfl

/-- A tile access with bytes of the host put in their place. -/
def TileOp.received (off len : Nat) (bs : List Byte) (y : TileOp) : TileOp :=
  { y with data := y.data.take off ++ bs ++ y.data.drop (off + bs.length), count := y.count + len }

/-- Taking a packet leaves the requests. -/
theorem State.htxOf_taken {s : State} {k tag : Nat} {x : HTx} (h : s.htxOf k tag = some x) {rest : List (Nat × Packet)} :
    (Claims.trayTaken s rest).htxOf k tag = some x := h

section Answers

variable {s : State} {p : Packet} {k : Nat} {rest : List (Nat × Packet)} {x : HTx} (h : s.trayRx = (k, p) :: rest) (ht : s.htxOf k p.tag.toNat = some x)
include h ht

theorem exec_hrdr_load (hk : p.kind = 0x02#5) {f : FibId} {off : Word} (hx : x.kind = .load f off) :
    exec .hrdr s = .next (((Claims.trayTaken s rest).hostAnswered x p.payload).dropHtx x) := by
  rw [show exec .hrdr s = execHrdr s from rfl, execHrdr, State.recvTray_head h hk, State.htxOf_taken ht]
  dsimp only
  rw [hx]
  rfl

theorem exec_hrdr_engine (hk : p.kind = 0x02#5) {n off len : Nat} (hx : x.kind = .engine n off len) :
    exec .hrdr s = .next (((Claims.trayTaken s rest).partIn n off p.payload).dropHtx x) := by
  rw [show exec .hrdr s = execHrdr s from rfl, execHrdr, State.recvTray_head h hk, State.htxOf_taken ht]
  dsimp only
  rw [hx]

theorem exec_hrdr_tile (hk : p.kind = 0x02#5) {n off len : Nat} (hx : x.kind = .tile n off len) :
    exec .hrdr s = .next ((((Claims.trayTaken s rest).modTile n (TileOp.received off len p.payload)).dropHtx x).tileHostDone n) := by
  rw [show exec .hrdr s = execHrdr s from rfl, execHrdr, State.recvTray_head h hk, State.htxOf_taken ht]
  dsimp only
  rw [hx]
  rfl

theorem exec_hwra_store (hk : p.kind = 0x04#5) {f : FibId} {off : Word} (hx : x.kind = .store f off) :
    exec .hwra s = .next ((Claims.trayTaken s rest).dropHtx x) := by
  rw [show exec .hwra s = execHwra s from rfl, execHwra, State.recvTray_head h hk, State.htxOf_taken ht]
  dsimp only
  rw [hx]

theorem exec_hwra_engine (hk : p.kind = 0x04#5) {n off len : Nat} (hx : x.kind = .engine n off len) :
    exec .hwra s = .next (((Claims.trayTaken s rest).partWritten n off len).dropHtx x) := by
  rw [show exec .hwra s = execHwra s from rfl, execHwra, State.recvTray_head h hk, State.htxOf_taken ht]
  dsimp only
  rw [hx]

theorem exec_trayNack (hk : p.kind = 0x0C#5) : exec .trayNack s = .next ((Claims.trayTaken s rest).htxEnds x p.op true) := by
  rw [show exec .trayNack s = execTrayNack s from rfl, execTrayNack, State.recvTray_head h hk, State.htxOf_taken ht]

end Answers

/-! ## Requests that end without success (R86) -/

theorem State.htxEnds_load {s : State} {x : HTx} {f : FibId} {off : Word} (hx : x.kind = .load f off) {g : Fibre}
    (hw : s.allFibres.filter (fun z => z.2.wait == .host x.link x.tag) = [(f, g)]) (code : BitVec 8) (answered : Bool) :
    s.htxEnds x code answered = ((s.modFib f (fun h => { h with wait := .none })).raise f (Eff.fault 0x0D0#12 off g.pc none)).leaveHtx x answered := by
  unfold State.htxEnds
  rw [hx]
  dsimp only
  rw [hw]
  rfl

theorem State.htxEnds_store {s : State} {x : HTx} {f : FibId} {off : Word} (hx : x.kind = .store f off) (code : BitVec 8) :
    s.htxEnds x code true = (s.modFib f (fun g => { g with lost := g.lost ||| 2 })).dropHtx x := by
  unfold State.htxEnds
  rw [hx]
  rfl

theorem State.htxEnds_engine {s : State} {x : HTx} {n off len : Nat} (hx : x.kind = .engine n off len) {c : Command} (hc : s.cmd n = some c) (hst : c.st ≠ .finished)
    (code : BitVec 8) (answered : Bool) : s.htxEnds x code answered = (s.finish n code c.reached).leaveHtx x answered := by
  unfold State.htxEnds
  rw [hx]
  dsimp only
  rw [hc]
  dsimp only
  rw [if_neg hst]

/-- A NACK ends a copy with its status: the requests of the copy are its own no more, and the one answered is gone. -/
theorem State.finish_dropHtx {s : State} {n : Nat} {c : Command} (h : s.cmd n = some c) {code : BitVec 8} (hc : code ≠ 0) (count : Nat) (x : HTx) :
    let t := (s.finish n code count).dropHtx x
    t.htxs = (s.htxsWithout x).map (HTx.abandoned n) ∧ t.mem = s.mem ∧ t.cmd n = some { c with st := .finished, code := code, err := true, count := count } := by
  obtain ⟨a, he⟩ := State.dropHtx_spec (s.finish n code count) x
  dsimp only
  rw [he]
  refine ⟨?_, s.finish_mem n code count, State.finish_error h hc count⟩
  rw [← State.htxsWithout_abandoned]
  exact congrArg _ (State.finish_htxs s n hc count)

theorem HTx.left_link (x y : HTx) : (x.left y).link = y.link := by unfold HTx.left; split <;> rfl

theorem HTx.left_tag (x y : HTx) : (x.left y).tag = y.tag := by unfold HTx.left; split <;> rfl

/-- The request under a tag, after every request has been changed but for its link and tag. -/
theorem State.htxOf_map {s : State} {k tag : Nat} {f : HTx → HTx} (hl : ∀ y, (f y).link = y.link) (ht : ∀ y, (f y).tag = y.tag) :
    State.htxOf { s with htxs := s.htxs.map f } k tag = (s.htxOf k tag).map f := by
  unfold State.htxOf
  rw [List.find?_map]
  refine congrArg (Option.map f) (congrArg (fun p => s.htxs.find? p) (funext fun y => ?_))
  rw [Function.comp_apply, hl, ht]

/-- A time-out ends a copy, and over a working link the tag of the request stays in use. -/
theorem State.finish_leaveHtx {s : State} {n : Nat} {c : Command} (h : s.cmd n = some c) {code : BitVec 8} (hc : code ≠ 0) (count : Nat) {k tag : Nat} {x : HTx}
    (hx : s.htxOf k tag = some x) (hf : (s.trayOf x.link).failed = false) (hof : x.kind.isOf n = true) :
    let t := (s.finish n code count).leaveHtx x false
    t.htxOf k tag = some { x with kind := .gone, len := 0 } ∧ t.mem = s.mem ∧ t.cmd n = some { c with st := .finished, code := code, err := true, count := count } := by
  obtain ⟨_, _, _, _, hreq⟩ := requeued_finish s n code count
  obtain ⟨a, he⟩ := State.leaveHtx_spec (s := s.finish n code count) (x := x) (by rw [hreq]; exact hf)
  have hfinished : (s.finish n code count).htxOf k tag = some (x.abandoned n) := by
    refine Eq.trans ?_ ((State.htxOf_map (HTx.abandoned_link n) (HTx.abandoned_tag n)).trans (congrArg _ hx))
    unfold State.htxOf
    rw [State.finish_htxs s n hc count]
  dsimp only
  rw [he]
  refine ⟨?_, s.finish_mem n code count, State.finish_error h hc count⟩
  refine ((State.htxOf_map (HTx.left_link x) (HTx.left_tag x)).trans (congrArg _ hfinished)).trans ?_
  rw [Option.map_some, HTx.abandoned, if_pos hof]
  exact congrArg some (if_pos (by simp))

theorem exec_hostRequestTimeout {s : State} {k : Fin 4} {tag : BitVec 10} {x : HTx} (h : s.htxOf k.val tag.toNat = some x) (hcall : ∀ c a g, x.kind ≠ .rcall c a g)
    (hdue : x.issued + 100000 ≤ s.ticks) : exec (.hostRequestTimeout k tag) s = .next (s.htxEnds x 0x15#8 false) := by
  show execHostRequestTimeout k tag s = _
  unfold execHostRequestTimeout
  rw [h]
  dsimp only
  split
  next hc => exact absurd hc (hcall _ _ _)
  next => rw [if_pos (by simp [hdue])]

theorem exec_hostRequestTimeout_early {s : State} {k : Fin 4} {tag : BitVec 10} {x : HTx} (h : s.htxOf k.val tag.toNat = some x) (hdue : s.ticks < x.issued + 100000)
    (hf : (s.trayOf x.link).failed = false) : exec (.hostRequestTimeout k tag) s = .next s := by
  show execHostRequestTimeout k tag s = _
  unfold execHostRequestTimeout
  rw [h]
  dsimp only
  rw [hf, if_neg (by simp [Nat.not_le.mpr hdue])]

/-! ## The DOE mailbox (R91, R99) -/

theorem exec_doeMessage_ide {s : State} (h : s.mg.mgmt = true) (stream : Fin 5) (on : Bool) (nonce : List Byte) : exec (.doeMessage (.ide stream on) nonce) s =
    .next { s with ide := if on then s.ide ||| (1 : BitVec 5) <<< stream.val else s.ide &&& ~~~((1 : BitVec 5) <<< stream.val) } := by
  show execDoeMessage (.ide stream on) nonce s = _
  unfold execDoeMessage
  rw [h]
  rfl

/-- The bit of one stream is set or cleared, and no other. -/
theorem setStream_getLsbD (w : BitVec 5) (stream j : Fin 5) (on : Bool) :
    (if on then w ||| (1 : BitVec 5) <<< stream.val else w &&& ~~~((1 : BitVec 5) <<< stream.val)).getLsbD j.val = if j = stream then on else w.getLsbD j.val := by
  have hbit : ((1 : BitVec 5) <<< stream.val).getLsbD j.val = decide (j = stream) := by
    revert stream j
    decide
  cases on with
  | true =>
    rw [if_pos rfl, BitVec.getLsbD_or, hbit]
    by_cases hj : j = stream <;> simp [hj]
  | false =>
    rw [if_neg (by decide), BitVec.getLsbD_and, BitVec.getLsbD_not, hbit]
    by_cases hj : j = stream <;> simp [hj]

theorem exec_doeMessage_lock {s : State} (h : s.mg.mgmt = true) {i : Fin 64} (hst : (s.tdi i.val).st = .unlocked) (nonce : List Byte) :
    exec (.doeMessage (.lock i true) nonce) s = .next (s.tdiTo i.val .locked) := by
  show execDoeMessage (.lock i true) nonce s = _
  unfold execDoeMessage
  rw [h]
  exact congrArg _ (if_pos hst)

theorem exec_doeMessage_unlock {s : State} (h : s.mg.mgmt = true) (i : Fin 64) (nonce : List Byte) :
    exec (.doeMessage (.lock i false) nonce) s = .next (s.tdiTo i.val .unlocked) := by
  show execDoeMessage (.lock i false) nonce s = _
  unfold execDoeMessage
  rw [h]
  rfl

theorem exec_doeMessage_fail {s : State} (h : s.mg.mgmt = true) (i : Fin 64) (nonce : List Byte) :
    exec (.doeMessage (.fail i) nonce) s = .next (s.tdiTo i.val .error) := by
  show execDoeMessage (.fail i) nonce s = _
  unfold execDoeMessage
  rw [h]
  rfl

theorem exec_doeMessage_measure {s : State} (h : s.mg.mgmt = true) {i : Nat} {d : BitVec 512} (hd : s.measure i = some d) (nonce : List Byte) :
    exec (.doeMessage (.measure i) nonce) s = .next (s.toMgmt (.attest d (Config.ed25519Sign (nonce ++ natBytes 64 d.toNat)))) := by
  show execDoeMessage (.measure i) nonce s = _
  unfold execDoeMessage
  rw [h]
  dsimp only
  rw [hd]
  rfl

/-- A TDI that a message moves is in the state that it names. -/
theorem State.tdi_tdiTo {s : State} {n : Nat} (h : n < s.tdis.length) (st : TdiSt) : ((s.tdiTo n st).tdi n).st = st := by
  unfold State.tdiTo
  dsimp only
  have hlen : n < (if (s.tdi n).st = .run then s.dropAsid (s.tdi n).asid else s).tdis.length := by
    split
    · rw [State.dropAsid_tdis, List.length_map]
      exact h
    · exact h
  show ((List.set _ n (Tdi.mk st 0 0 0)).getD n _).st = st
  rw [List.getD_eq_getElem?_getD, List.getElem?_set_self hlen]
  rfl

theorem State.tdiTo_mem {s : State} {n : Nat} (h : (s.tdi n).st ≠ .run) (st : TdiSt) : (s.tdiTo n st).mem = s.mem := by
  unfold State.tdiTo
  dsimp only
  rw [if_neg h]

/-- Settles O47: each answer by what the request was for; DOE messages by the request that they carry. -/
theorem hostAnswers : Obligations.host_answers := by
  unfold Obligations.host_answers
  refine ⟨fun s p k rest x h ht => ⟨fun hk => ⟨?load, ?piece, ?tile⟩, fun hk => ⟨?stored, ?written⟩, fun hk => ⟨?loadRefused, ?storeRefused, ?copyRefused⟩⟩,
    fun s k tag x hx => ⟨?copyLate, ?loadLate, ?early⟩, fun s nonce hm => ⟨?stream, fun i hi => ⟨?lock, ?unlock, ?fail⟩, ?measure⟩⟩
  case load =>
    intro f off hx
    obtain ⟨a, he⟩ := State.dropHtx_spec ((Claims.trayTaken s rest).hostAnswered x p.payload) x
    refine ⟨_, exec_hrdr_load h ht hk hx, ?_⟩
    rw [he]
    exact ⟨⟨rfl, rfl⟩, fun id g hg => State.fib_hostAnswered (s := Claims.trayTaken s rest) hg x p.payload⟩
  case piece =>
    intro n off len c hx hc
    obtain ⟨cs, b, hpart, hcmd⟩ := State.cmd_modPoke (s := Claims.trayTaken s rest) hc (fun c => { c with buf := c.buf ++ [(off, p.payload)] }) (fun _ => rfl)
    obtain ⟨a, he⟩ := State.dropHtx_spec ((Claims.trayTaken s rest).partIn n off p.payload) x
    refine ⟨_, exec_hrdr_engine h ht hk hx, ?_⟩
    rw [he]
    refine ⟨⟨?_, ?_⟩, hcmd⟩
    · show State.htxsWithout ((Claims.trayTaken s rest).partIn n off p.payload) x = _
      rw [State.partIn, hpart]
      rfl
    · rw [State.partIn, hpart]
      rfl
  case tile =>
    intro n off len y hx hy
    obtain ⟨a, he⟩ := State.dropHtx_spec ((Claims.trayTaken s rest).modTile n (TileOp.received off len p.payload)) x
    obtain ⟨b, hb⟩ := State.tileHostDone_spec (((Claims.trayTaken s rest).modTile n (TileOp.received off len p.payload)).dropHtx x) n
    refine ⟨_, exec_hrdr_tile h ht hk hx, ?_⟩
    rw [hb, he]
    refine ⟨⟨rfl, rfl⟩, (State.tile_modTile s n (TileOp.received off len p.payload) (fun _ => rfl)).trans ?_⟩
    rw [hy]
    rfl
  case stored =>
    intro f off hx
    obtain ⟨a, he⟩ := State.dropHtx_spec (Claims.trayTaken s rest) x
    refine ⟨_, exec_hwra_store h ht hk hx, ?_⟩
    rw [he]
    exact ⟨⟨rfl, rfl⟩, fun id => rfl⟩
  case written =>
    intro n off len c hx hc
    obtain ⟨cs, b, hpart, hcmd⟩ := State.cmd_modPoke (s := Claims.trayTaken s rest) hc (fun c => { c with cuts := c.cuts ++ [(off, len)] }) (fun _ => rfl)
    obtain ⟨a, he⟩ := State.dropHtx_spec ((Claims.trayTaken s rest).partWritten n off len) x
    refine ⟨_, exec_hwra_engine h ht hk hx, ?_⟩
    rw [he]
    refine ⟨⟨?_, ?_⟩, hcmd⟩
    · show State.htxsWithout ((Claims.trayTaken s rest).partWritten n off len) x = _
      rw [State.partWritten, hpart]
      rfl
    · rw [State.partWritten, hpart]
      rfl
  case loadRefused =>
    intro f off g hx hw
    rw [exec_trayNack h ht hk, State.htxEnds_load (s := Claims.trayTaken s rest) hx hw]
    rfl
  case storeRefused =>
    intro f off g hx hg
    obtain ⟨a, he⟩ := State.dropHtx_spec ((Claims.trayTaken s rest).modFib f (fun g => { g with lost := g.lost ||| 2 })) x
    refine ⟨_, exec_trayNack h ht hk, ?_⟩
    rw [State.htxEnds_store hx, he]
    refine ⟨⟨rfl, rfl⟩, (fib_modFib_same s f (fun g => { g with lost := g.lost ||| 2 }) (fun _ => rfl)).trans ?_⟩
    rw [hg]
    rfl
  case copyRefused =>
    intro n off len c hx hc hst hex hop
    refine ⟨_, exec_trayNack h ht hk, ?_⟩
    rw [State.htxEnds_engine (s := Claims.trayTaken s rest) hx hc hst]
    obtain ⟨hhtxs, hmem, hcmd⟩ := State.finish_dropHtx (s := Claims.trayTaken s rest) hc hop c.reached x
    exact ⟨⟨hhtxs, hmem⟩, hcmd⟩
  case copyLate =>
    intro n off len c hk hc hst hex hdue hf
    refine ⟨_, exec_hostRequestTimeout hx (fun _ _ _ => by rw [hk]; exact HTxKind.noConfusion) hdue, ?_⟩
    rw [State.htxEnds_engine hk hc hst]
    obtain ⟨hhtx, hmem, hcmd⟩ := State.finish_leaveHtx hc (code := 0x15#8) (by decide) c.reached hx hf (by rw [hk]; simp [HTxKind.isOf])
    exact ⟨hmem, hhtx, hcmd⟩
  case loadLate =>
    intro f off g hk hdue hw
    rw [exec_hostRequestTimeout hx (fun _ _ _ => by rw [hk]; exact HTxKind.noConfusion) hdue, State.htxEnds_load hk hw]
    rfl
  case early => exact exec_hostRequestTimeout_early hx
  case stream => exact fun stream on => ⟨_, exec_doeMessage_ide hm stream on nonce, fun j => setStream_getLsbD .., rfl⟩
  case lock => exact fun hst => ⟨_, exec_doeMessage_lock hm hst nonce, State.tdi_tdiTo hi _, State.tdiTo_mem (by rw [hst]; decide) _⟩
  case unlock => exact ⟨_, exec_doeMessage_unlock hm i nonce, State.tdi_tdiTo hi _⟩
  case fail => exact ⟨_, exec_doeMessage_fail hm i nonce, State.tdi_tdiTo hi _⟩
  case measure =>
    rintro i d (⟨rfl, rfl⟩ | ⟨rfl, rfl⟩ | ⟨rfl, rfl⟩)
    · exact exec_doeMessage_measure hm rfl nonce
    · exact exec_doeMessage_measure hm rfl nonce
    · exact exec_doeMessage_measure hm rfl nonce

end Sys2Proof.Machine
end

section
/-! PROOFS. Entries of object tables: what their update writes, and the address spaces and TDIs of the supervisor (R92, R193, R207, R213). -/

namespace Sys2Proof.Machine

/-! ## Numbers in memory (R4) -/

theorem Mem.num_write_other {m : Mem} (h : m.wf = true) (a : Nat) (bs : List Byte) {b n : Nat} (hd : b + n ≤ a ∨ a + bs.length ≤ b) :
    (m.write a bs).num b n = m.num b n := congrArg bytesNat (Mem.read_write_other h a bs b n hd)

theorem Mem.write_append (m : Mem) (a : Nat) (xs ys : List Byte) : m.write a (xs ++ ys) = (m.write a xs).write (a + xs.length) ys := by
  induction xs generalizing m a with
  | nil => rfl
  | cons x xs ih =>
    rw [List.cons_append, Mem.write, ih, Mem.write, List.length_cons, Nat.add_right_comm]
    rfl

theorem Mem.num_natBytes {m : Mem} (h : m.wf = true) (a x : Nat) : (m.write a (natBytes 8 x)).num a 8 = x % 2 ^ 64 := Mem.num_setNum h a 8 x

/-! ## A changed entry (R213) -/

/-- The second word of an entry with GEN one higher. -/
def genNext (g : Nat) : Nat := g % 2 ^ 32 + (g / 2 ^ 32 + 1) % 2 ^ 32 * 2 ^ 32

theorem genNext_lt (g : Nat) : genNext g < 2 ^ 64 := by
  unfold genNext
  omega

/-- Memory with the entry at an address changed. -/
def Mem.changeEntry (m : Mem) (p : Nat) (f : Nat → Nat) : Mem := (m.write p (natBytes 8 (f (m.num p 8)))).write (p + 8) (natBytes 8 (genNext (m.num (p + 8) 8)))

theorem Mem.get_changeEntry_other {m : Mem} (h : m.wf = true) {p : Nat} (f : Nat → Nat) {j : Nat} (hj : j < p ∨ p + 16 ≤ j) : (m.changeEntry p f).get j = m.get j := by
  unfold Mem.changeEntry
  rw [Mem.get_write _ (Mem.wf_write _ h _), natBytes_length, if_neg (by omega), Mem.get_write _ h, natBytes_length, if_neg (by omega)]

theorem Mem.num_changeEntry_other {m : Mem} (h : m.wf = true) {p : Nat} (f : Nat → Nat) {b n : Nat} (hd : b + n ≤ p ∨ p + 16 ≤ b) :
    (m.changeEntry p f).num b n = m.num b n := by
  unfold Mem.changeEntry
  rw [Mem.num_write_other (Mem.wf_write _ h _) _ _ (by rw [natBytes_length]; omega), Mem.num_write_other h _ _ (by rw [natBytes_length]; omega)]

theorem Mem.num_changeEntry_first {m : Mem} (h : m.wf = true) (p : Nat) (f : Nat → Nat) : (m.changeEntry p f).num p 8 = f (m.num p 8) % 2 ^ 64 := by
  unfold Mem.changeEntry
  rw [Mem.num_write_other (Mem.wf_write _ h _) _ _ (.inl (Nat.le_refl _)), Mem.num_natBytes h]

theorem Mem.num_changeEntry_second {m : Mem} (h : m.wf = true) (p : Nat) (f : Nat → Nat) : (m.changeEntry p f).num (p + 8) 8 = genNext (m.num (p + 8) 8) := by
  unfold Mem.changeEntry
  rw [Mem.num_natBytes (Mem.wf_write _ h _), Nat.mod_eq_of_lt (genNext_lt _)]

/-- An entry is changed in memory with GEN, and its cached translations are dropped. -/
theorem State.changeEntry_spec {s : State} {a : Nat} {d : AsidDesc} (hd : s.asid a = some d) (hq : s.queues = []) (o : Nat) (f : Nat → Nat) :
    ∃ v, HomeWork s v ∧ s.changeEntry a o f = v.oinv a (some o) ∧ v.mem = s.mem.changeEntry (d.entryPA o) f := by
  let first := s.homeStore 0 (d.entryPA o) (natBytes 8 (f (s.mem.num (d.entryPA o) 8)))
  have hfirst : HomeWork s first := homeWork_homeStore ..
  refine ⟨first.homeStore 0 (d.entryPA o + 8) (natBytes 8 (genNext (s.mem.num (d.entryPA o + 8) 8))), hfirst.trans (homeWork_homeStore ..), ?_, ?_⟩
  · unfold State.changeEntry
    rw [hd]
    rfl
  · rw [State.homeStore_mem (hfirst.queues.trans hq), State.homeStore_mem hq]
    rfl

theorem State.oinv_obj_gone (s : State) (a o : Nat) : (∀ c ∈ (s.oinv a (some o)).objCache, ¬(c.asid = a ∧ c.obj = o)) ∧
    ∀ c ∈ (s.oinv a (some o)).regCache, ¬(c.asid = a ∧ c.obj = o) :=
  ⟨fun c hc => not_and_or.mpr (by simpa using (List.mem_filter.mp hc).2), fun c hc => not_and_or.mpr (by simpa using (List.mem_filter.mp hc).2)⟩

theorem State.oinv_gone (s : State) (a : Nat) : (∀ c ∈ (s.oinv a none).objCache, c.asid ≠ a) ∧ ∀ c ∈ (s.oinv a none).regCache, c.asid ≠ a :=
  ⟨fun c hc => by simpa using (List.mem_filter.mp hc).2, fun c hc => by simpa using (List.mem_filter.mp hc).2⟩

theorem HomeWork.asid {s t : State} (h : HomeWork s t) : t.asid = s.asid := by
  obtain ⟨_, _, _, _, _, _, _, _, _, _, _, _, rfl⟩ := h
  rfl

/-! ## OBJECT_TABLE_UPDATE (R213) -/

/-- The 32 bytes of an entry of four words that keeps its GEN until the change is counted. -/
def entryBytes (gen : Nat) (w0 w1 w2 w3 : DWord) : List Byte :=
  natBytes 8 w0.toNat ++ natBytes 8 (w1.toNat % 2 ^ 32 + gen * 2 ^ 32) ++ natBytes 8 w2.toNat ++ natBytes 8 w3.toNat

theorem entryBytes_length (gen : Nat) (w0 w1 w2 w3 : DWord) : (entryBytes gen w0 w1 w2 w3).length = 32 := by simp [entryBytes]

/-- The words of an entry that has been written. -/
theorem Mem.num_entryBytes {m : Mem} (h : m.wf = true) (p : Nat) {gen : Nat} (hg : gen < 2 ^ 32) (w0 w1 w2 w3 : DWord) :
    let t := m.write p (entryBytes gen w0 w1 w2 w3)
    t.num p 8 = w0.toNat ∧ t.num (p + 8) 8 = w1.toNat % 2 ^ 32 + gen * 2 ^ 32 ∧ t.num (p + 16) 8 = w2.toNat ∧ t.num (p + 24) 8 = w3.toNat := by
  dsimp only
  have h1 := Mem.wf_write (natBytes 8 w0.toNat) h p
  have h2 := Mem.wf_write (natBytes 8 (w1.toNat % 2 ^ 32 + gen * 2 ^ 32)) h1 (p + 8)
  have h3 := Mem.wf_write (natBytes 8 w2.toNat) h2 (p + 16)
  have hsplit : m.write p (entryBytes gen w0 w1 w2 w3) = (((m.write p (natBytes 8 w0.toNat)).write (p + 8) (natBytes 8 (w1.toNat % 2 ^ 32 + gen * 2 ^ 32))).write
      (p + 16) (natBytes 8 w2.toNat)).write (p + 24) (natBytes 8 w3.toNat) := by
    unfold entryBytes
    simp only [Mem.write_append, List.length_append, natBytes_length]
  have hword (w : DWord) : w.toNat % 2 ^ 64 = w.toNat := Nat.mod_eq_of_lt w.isLt
  rw [hsplit]
  refine ⟨?_, ?_, ?_, ?_⟩
  · rw [Mem.num_write_other h3 _ _ (by omega), Mem.num_write_other h2 _ _ (by omega), Mem.num_write_other h1 _ _ (by omega), Mem.num_natBytes h, hword]
  · rw [Mem.num_write_other h3 _ _ (by omega), Mem.num_write_other h2 _ _ (by omega), Mem.num_natBytes h1]
    omega
  · rw [Mem.num_write_other h3 _ _ (by omega), Mem.num_natBytes h2, hword]
  · rw [Mem.num_natBytes h3, hword]

theorem State.newRc_spec (s : State) (a o : Nat) (e : OEntry) : ∃ x, s.newRc a o e = { s with unrc := x } := by
  unfold State.newRc
  split
  · exact ⟨s.unrc, rfl⟩
  · split
    · exact ⟨_, rfl⟩
    · exact ⟨_, rfl⟩

/-- A new entry stands in memory, with RC as it has it. -/
theorem exec_objectTableUpdate {s : State} (hs : s.supervised = true) {a o : Nat} {d : AsidDesc} (hd : s.asid a = some d) {e : OEntry} (he : s.entry a o = some e)
    (w0 w1 w2 w3 : DWord) : ∃ x, exec (.objectTableUpdate a o [w0, w1, w2, w3] []) s =
      .next (State.changeEntry { s.homeStore 0 (d.entryPA o) (entryBytes e.gen w0 w1 w2 w3) with unrc := x } a o id) := by
  let written := s.homeStore 0 (d.entryPA o) (entryBytes e.gen w0 w1 w2 w3)
  obtain ⟨x, hx⟩ := written.newRc_spec a o (OEntry.read written.mem (d.entryPA o))
  refine ⟨x, ?_⟩
  show execObjectTableUpdate a o [w0, w1, w2, w3] [] s = _
  unfold execObjectTableUpdate
  rw [hs, hd, he, ← hx]
  refine congrArg Host.Outcome.next ?_
  refine congrArg (fun u => State.changeEntry (State.newRc u a o (OEntry.read written.mem (d.entryPA o))) a o id) ?_
  exact ite_self _

theorem State.entry_eq {s : State} {a o : Nat} {d : AsidDesc} (hd : s.asid a = some d) {e : OEntry} (he : s.entry a o = some e) : e = OEntry.read s.mem (d.entryPA o) := by
  unfold State.entry at he
  rw [hd, Option.bind_some] at he
  split at he
  · exact (Option.some.inj he).symm
  · cases he

theorem OEntry.gen_lt (m : Mem) (p : Nat) : (OEntry.read m p).gen < 2 ^ 32 := Nat.mod_lt _ (by decide)

theorem genNext_of (x gen : Nat) : genNext (x % 2 ^ 32 + gen * 2 ^ 32) = x % 2 ^ 32 + (gen + 1) % 2 ^ 32 * 2 ^ 32 := by
  unfold genNext
  omega

/-- What an update of an entry leaves: its words with GEN one higher, no translation of it, and all else. -/
theorem objectTableUpdate_spec {s : State} (hs : s.supervised = true) {a o : Nat} {d : AsidDesc} (hd : s.asid a = some d) {e : OEntry} (he : s.entry a o = some e)
    (hq : s.queues = []) (w0 w1 w2 w3 : DWord) : ∃ v : State, exec (.objectTableUpdate a o [w0, w1, w2, w3] []) s = .next (v.oinv a (some o)) ∧
      v.mem = (s.mem.write (d.entryPA o) (entryBytes e.gen w0 w1 w2 w3)).changeEntry (d.entryPA o) id := by
  obtain ⟨x, hexec⟩ := exec_objectTableUpdate hs hd he w0 w1 w2 w3
  have hwork := homeWork_homeStore s 0 (d.entryPA o) (entryBytes e.gen w0 w1 w2 w3)
  obtain ⟨v, -, hv, hmem⟩ := State.changeEntry_spec (s := { s.homeStore 0 (d.entryPA o) (entryBytes e.gen w0 w1 w2 w3) with unrc := x }) (a := a)
    ((congrFun hwork.asid a).trans hd) (hwork.queues.trans hq) o id
  refine ⟨v, hexec.trans (congrArg _ hv), hmem.trans ?_⟩
  exact congrArg (fun m : Mem => m.changeEntry (d.entryPA o) id) (State.homeStore_mem hq ..)

/-! ## Address spaces (R207, R193) -/

theorem State.asid_append_same {s : State} {a : Nat} (h : s.asid a = none) {d : AsidDesc} (hd : d.asid = a) :
    (s.asids ++ [d]).find? (fun x => x.asid == a) = some d := by
  rw [List.find?_append, show s.asids.find? (fun x => x.asid == a) = none from h]
  simp [hd]

theorem State.asid_append_other (s : State) {b : Nat} {d : AsidDesc} (hd : d.asid ≠ b) : (s.asids ++ [d]).find? (fun x => x.asid == b) = s.asid b := by
  rw [List.find?_append]
  simp [hd, State.asid]

theorem exec_asidCreate {s : State} (hs : s.supervised = true) {a root objects heap : Nat} {segs : List Nat} (ha : a ≤ 4095) (hn : s.asid a = none) (hr : root % 32 = 0)
    (ho : 1 ≤ objects) (ho' : objects ≤ 2 ^ 20) (hh : heap < 2 ^ 20) (hsegs : segs.Nodup) :
    exec (.asidCreate a root objects heap segs) s = .next { s with asids := s.asids ++ [⟨a, root, objects, heap, 1, true, false, 0, segs⟩] } := by
  show execAsidCreate a root objects heap segs s = _
  unfold execAsidCreate
  rw [if_neg (by simp only [hs, hn]; simp; omega), hsegs.dedup]

theorem exec_tdiRun {s : State} (hs : s.supervised = true) {i : Fin 64} {a root objects heap : Nat} {segs : List Nat} {links : BitVec 4} {x : Tdi}
    (hacc : s.acceptNow.getLsbD 13 = true) (hide : s.ide ≠ 0) (hx : s.tdis[i.val]? = some x) (hst : x.st = .locked) (hkeys : s.keys.length < 256) (ha : a ≤ 4095)
    (hn : s.asid a = none) (hr : root % 32 = 0) (ho : 1 ≤ objects) (ho' : objects ≤ 2 ^ 20) (hh : heap < 2 ^ 20) (hsegs : segs.Nodup) :
    exec (.tdiRun i ⟨a, root, objects, heap, segs⟩ links) s = .next { s with
      fresh := s.fresh + 3, keys := s.keys ++ [s.fresh], tdis := s.tdis.set i.val ⟨.run, a, links, s.fresh + 1⟩, asids := s.asids ++ [⟨a, root, objects, heap, 1, true, true, s.fresh, segs⟩] } := by
  have htdi : (s.tdi i.val).st = .locked := by
    unfold State.tdi
    rw [List.getD_eq_getElem?_getD, hx]
    exact hst
  show execTdiRun i ⟨a, root, objects, heap, segs⟩ links s = _
  unfold execTdiRun
  rw [if_neg (by simp only [hs, hacc, htdi, hn, hide]; simp; omega), hsegs.dedup]

theorem exec_asidDestroy {s : State} (hs : s.supervised = true) {a : Nat} {d : AsidDesc} (hd : s.asid a = some d) : exec (.asidDestroy a) s = .next (s.dropAsid a) := by
  show execAsidDestroy a s = _
  unfold execAsidDestroy
  rw [if_pos (by simp [hs, hd])]

/-- An address space that has ended is gone, with its cached translations, and every other is as it was. -/
theorem State.dropAsid_spec (s : State) (a : Nat) : (s.dropAsid a).asid a = none ∧ (∀ b, b ≠ a → (s.dropAsid a).asid b = s.asid b) ∧
    (∀ c ∈ (s.dropAsid a).objCache, c.asid ≠ a) ∧ ∀ c ∈ (s.dropAsid a).regCache, c.asid ≠ a := by
  refine ⟨?_, fun b hb => ?_, (State.oinv_gone _ a).1, (State.oinv_gone _ a).2⟩
  · unfold State.asid
    rw [State.dropAsid_asids, List.find?_eq_none]
    intro d hd
    simpa using (List.mem_filter.mp hd).2
  · unfold State.asid
    rw [State.dropAsid_asids, List.find?_filter]
    refine congrArg (fun p => s.asids.find? p) (funext fun d => ?_)
    by_cases hd : d.asid = b <;> simp [hd, hb]

/-- One that was not confidential leaves memory and launches. -/
theorem State.dropAsid_plain {s : State} {a : Nat} {d : AsidDesc} (hd : s.asid a = some d) (hc : d.conf = false) :
    (s.dropAsid a).mem = s.mem ∧ (s.dropAsid a).launches = s.launches := by
  have hconf : (s.asid a).any (·.conf) = false := by
    rw [hd]
    exact hc
  rw [State.dropAsid_eq]
  dsimp only
  rw [hconf]
  exact ⟨rfl, rfl⟩

theorem exec_tdiLeaveRun {s : State} {i : Fin 64} {x : Tdi} (hx : s.tdis[i.val]? = some x) (hst : x.st = .run) :
    exec (.tdiLeaveRun i) s = .next { s.dropAsid x.asid with tdis := (s.tdis.map (Tdi.without x.asid)).set i.val ⟨.unlocked, 0, 0, 0⟩ } := by
  have htdi : s.tdi i.val = x := by
    unfold State.tdi
    rw [List.getD_eq_getElem?_getD, hx]
    rfl
  show execTdiLeaveRun i s = _
  unfold execTdiLeaveRun State.tdiTo
  dsimp only
  rw [htdi, if_pos hst, if_pos hst, State.dropAsid_tdis]

/-- No TDI holds an address space that has ended. -/
theorem Tdi.without_released (a : Nat) (y : Tdi) : ¬((y.without a).st = .run ∧ (y.without a).asid = a) := by
  unfold Tdi.without
  split
  case isTrue => exact fun h => absurd h.1 (by decide)
  case isFalse h => simpa using h

end Sys2Proof.Machine
end

section
/-! PROOFS. Hamper batches, migrations of regions, and the obligation on the supervisor's operations (R214, R215, R217, O53). -/

namespace Sys2Proof.Machine

/-! ## Records that are released (R214, R215) -/

/-- From s to t records have been released: what waits on them goes on, in fibres, commands and dispatchers. -/
def Freed (s t : State) : Prop :=
  ∃ qs ls ws gs cs cm a, t = { s with queues := qs, launches := ls, wgs := ws, gangs := gs, cores := cs, cmds := cm, agenda := a }

theorem Freed.refl (s : State) : Freed s s := ⟨s.queues, s.launches, s.wgs, s.gangs, s.cores, s.cmds, s.agenda, rfl⟩

theorem Freed.trans {s t u : State} (h : Freed s t) (h' : Freed t u) : Freed s u := by
  obtain ⟨_, _, _, _, _, _, _, rfl⟩ := h
  obtain ⟨qs, ls, ws, gs, cs, cm, a, rfl⟩ := h'
  exact ⟨qs, ls, ws, gs, cs, cm, a, rfl⟩

theorem Woken.freed {s t : State} (h : Woken s t) : Freed s t := by
  obtain ⟨ws, gs, cs, rfl⟩ := h
  exact ⟨s.queues, s.launches, ws, gs, cs, s.cmds, s.agenda, rfl⟩

theorem Poked.freed {s t : State} (h : Poked s t) : Freed s t := by
  obtain ⟨cm, a, rfl⟩ := h
  exact ⟨s.queues, s.launches, s.wgs, s.gangs, s.cores, cm, a, rfl⟩

theorem freed_dispatchRec (s : State) (die n : Nat) (unfit : Bool) : Freed s (s.dispatchRec die n unfit) :=
  ⟨_, _, s.wgs, s.gangs, s.cores, s.cmds, s.agenda, rfl⟩

theorem freed_releaseRec {s : State} (h : s.wakes = []) (die n : Nat) : Freed s (s.releaseRec die n) := by
  have hgo : Freed s (((s.dispatchRec die n false).wakeAll (fun w => w.onRec die n)).commandsGo die n) :=
    (freed_dispatchRec ..).trans ((woken_wakeAll ..).freed.trans (poked_commandsGo ..).freed)
  have hwakes : (((s.dispatchRec die n false).wakeAll (fun w => w.onRec die n)).commandsGo die n).wakes = [] := by
    obtain ⟨_, _, _, _, _, _, _, he⟩ := hgo
    rw [he]
    exact h
  rw [State.releaseRec_eq, State.wakesAgain_none hwakes]
  exact hgo

/-- Some fibres are made ready one after the other: one that is none of them stays as it is. -/
theorem State.fib_over_wake_other (ids : List FibId) (s : State) {id : FibId} (h : id ∉ ids) : (s.over ids State.wake).fib id = s.fib id := by
  induction ids generalizing s with
  | nil => rfl
  | cons j js ih =>
    obtain ⟨hj, hjs⟩ := not_or.mp (fun hm => h (List.mem_cons.mpr hm))
    exact (ih (s.wake j) hjs).trans (State.fib_wake_other s hj)

theorem State.fib_wakeAll_other {s : State} {p : Wait → Bool} {id : FibId} (h : ∀ x ∈ s.allFibres, x.1 = id → p x.2.wait = false) : (s.wakeAll p).fib id = s.fib id := by
  refine State.fib_over_wake_other _ s (fun hm => ?_)
  obtain ⟨x, hx, rfl⟩ := List.mem_map.mp hm
  obtain ⟨hx, hp⟩ := List.mem_filter.mp hx
  rw [h x hx rfl] at hp
  cases hp

/-- A released record's fibres wait no more, and the others are as they were. -/
theorem State.releaseRec_fibs {s : State} (h : s.wakes = []) (die n : Nat) :
    (∀ id f, s.fib id = some f → f.wait.onRec die n = true → (s.releaseRec die n).fib id = some { f with wait := .none }) ∧
      ∀ id, (∀ x ∈ s.allFibres, x.1 = id → x.2.wait.onRec die n = false) → (s.releaseRec die n).fib id = s.fib id := by
  rw [State.fib_of_wgs (State.releaseRec_spec h die n).2]
  exact ⟨fun id f hf hw => State.fib_wakeAll (s := s.dispatchRec die n false) (p := fun w => w.onRec die n) hf hw,
    fun id hid => State.fib_wakeAll_other (s := s.dispatchRec die n false) (p := fun w => w.onRec die n) hid⟩

theorem State.hamper_eq {s : State} {d : Nat} {h : Hamper} (hh : s.hampers[d]? = some h) : s.hamper d = h := by
  unfold State.hamper
  rw [List.getD_eq_getElem?_getD, hh]
  rfl

theorem exec_hamperWindowEnd {s : State} {d : Fin 4} {h : Hamper} {e : Nat} (hh : s.hampers[d.val]? = some h) (hw : h.windowEnd = some e) (hd : e ≤ s.ticks) :
    exec (.hamperWindowEnd d) s = .next (s.setHamper d.val ⟨[], none, h.batches ++ [h.recs]⟩) := by
  show execHamperWindowEnd d s = _
  unfold execHamperWindowEnd
  rw [State.hamper_eq hh]
  dsimp only
  rw [hw]
  exact congrArg _ (if_pos hd)

theorem State.answerAsks_none {s : State} (h : s.asks = []) (a o r : Nat) (ok : Bool) : s.answerAsks a o r ok = s := by
  unfold State.answerAsks
  rw [h]
  show { s with asks := [] } = s
  rw [← h]

/-- A record of a resident region that was to be read, for which no other package has asked: it is released. -/
theorem State.serveKey_resident {s : State} {d : Nat} {r : HamperRec} {n : Nat} {e : OEntry} (hr : r.key.region = some n) (he : s.entry r.key.asid r.key.obj = some e)
    (ht : e.typ ≠ 5) (hw : r.key.write = false) (hres : s.regionResident e n = true) (hasks : s.asks = []) (hwakes : s.wakes = []) :
    s.serveKey d r = s.releaseRec d r.num := by
  have hserve : s.serveRec d r.num r.key = s.releaseRec d r.num := by
    unfold State.serveRec
    rw [hr]
    dsimp only
    rw [he]
    dsimp only
    rw [if_neg (fun hc => ht hc.1), hw, if_neg (by simp), if_pos hres]
  have hnone : (s.releaseRec d r.num).asks = [] := by
    obtain ⟨_, _, _, _, _, _, _, hfreed⟩ := freed_releaseRec hwakes d r.num
    rw [hfreed]
    exact hasks
  unfold State.serveKey
  dsimp only
  rw [hserve, hr]
  dsimp only
  split
  · exact State.answerAsks_none hnone ..
  · split
    · rfl
    · exact State.answerAsks_none hnone ..

theorem State.heldLimited_full {s : State} (h : s.limitedOnly = false) (k : HamperKey) : s.heldLimited k = false := by
  unfold State.heldLimited
  rw [h]
  rfl

/-- A batch of one record is served: the record's region is there already. -/
theorem exec_hamperRelease {s : State} {d : Fin 4} {h : Hamper} {r : HamperRec} {rest : List (List HamperRec)} (hs : s.supervised = true)
    (hh : s.hampers[d.val]? = some h) (hb : h.batches = [r] :: rest) (hl : s.limitedOnly = false) :
    exec (.hamperRelease d []) s = .next ((s.setHamper d.val { h with batches := rest }).serveKey d.val r) := by
  have hheld : (s.setHamper d.val { h with batches := rest }).heldLimited r.key = false := State.heldLimited_full hl r.key
  show execHamperRelease d [] s = _
  unfold execHamperRelease
  rw [hs, State.hamper_eq hh, hb]
  refine congrArg _ ((if_neg (by decide)).trans ?_)
  dsimp only
  rw [show s.over ([] : List PageGrant) State.installPages = s from rfl]
  rw [List.filter_cons_of_neg (by rw [hheld]; decide), List.filter_cons_of_pos (by rw [hheld]; rfl)]
  rfl

/-! ## Pages that move (R217) -/

theorem cellsGet_none {cs : List Host.Cell} {a : Nat} (h : ∀ c ∈ cs, c.1 ≠ a) : cellsGet cs a = 0 := by
  induction cs with
  | nil => rfl
  | cons c cs ih =>
    rw [cellsGet, if_neg (Ne.symm (h c List.mem_cons_self))]
    exact ih (fun x hx => h x (List.mem_cons_of_mem _ hx))

/-- A cell of a range, moved to where another range begins. -/
def moveCell (src dst : Nat) (cs : List Host.Cell) (c : Host.Cell) : List Host.Cell := cellsSet cs (c.1 - src + dst) c.2

/-- An address of a range. -/
def inRange (lo n a : Nat) : Bool := decide (lo ≤ a) && decide (a < lo + n)

theorem inRange_iff {lo n a : Nat} : inRange lo n a = true ↔ lo ≤ a ∧ a < lo + n := by simp [inRange]

/-- The cells of a range, moved one after the other: each place holds the byte of the place that it comes from, where that is not zero. -/
theorem cellsGet_moved {cs base : List Host.Cell} (h : cellsOk none cs = true) (hb : cellsOk none base = true) {src dst n j : Nat} (hj : j < n) :
    cellsGet ((cs.filter (fun c => inRange src n c.1)).foldl (moveCell src dst) base) (dst + j) =
      if cellsGet cs (src + j) = 0 then cellsGet base (dst + j) else cellsGet cs (src + j) := by
  induction cs generalizing base with
  | nil => rfl
  | cons c cs ih =>
    obtain ⟨hc, hcs⟩ : c.2 ≠ 0 ∧ cellsOk (some c.1) cs = true := by simpa [cellsOk] using h
    rw [List.filter_cons]
    split
    case isTrue hin =>
      obtain ⟨hlo, hhi⟩ := inRange_iff.mp hin
      rw [List.foldl_cons, moveCell, ih (cellsOk_weaken hcs) (cellsOk_set _ _ hb (by simp)), cellsGet_set _ _ _ hb]
      by_cases heq : src + j = c.1
      · rw [cellsGet, if_pos heq, if_neg hc, cellsGet_low hcs (Nat.le_of_eq heq), if_pos (show dst + j = c.1 - src + dst by omega)]
        rfl
      · rw [cellsGet, if_neg heq, if_neg (show dst + j ≠ c.1 - src + dst by omega)]
    case isFalse hout =>
      have heq : src + j ≠ c.1 := fun he => hout (inRange_iff.mpr (by omega))
      rw [ih (cellsOk_weaken hcs) hb, cellsGet, if_neg heq]

/-- The bytes of a range that has been copied. -/
theorem Mem.get_copyRange {m : Mem} (h : m.wf = true) (src dst : Nat) {n j : Nat} (hj : j < n) : (m.copyRange src dst n).get (dst + j) = m.get (src + j) := by
  have hcells := (Mem.wf_iff.mp h).1
  have hbase : cellsGet (m.cells.filter (fun c => !inRange dst n c.1)) (dst + j) = 0 := by
    refine cellsGet_none fun c hc heq => ?_
    have hout : inRange dst n c.1 = false := by simpa using (List.mem_filter.mp hc).2
    rw [heq, inRange_iff.mpr (by omega)] at hout
    cases hout
  refine (cellsGet_moved hcells (cellsOk_filter (fun c => !inRange dst n c.1) hcells) hj).trans ?_
  rw [hbase]
  split
  case isTrue hz => exact hz.symm
  case isFalse => rfl

/-- A page that moves: its bytes are copied, and beside memory only what is kept about its lines and the fibres that watch it change. -/
theorem State.movePage_spec (s : State) (n src dst : Nat) : HomeWork s (s.movePage n src dst) ∧ (s.movePage n src dst).mem = s.mem.copyRange src dst n :=
  ⟨⟨_, _, _, s.rcLines, s.freeCount, _, _, s.mg.errlog, s.mg.errhead, _, s.gangs, s.cores, rfl⟩, rfl⟩

/-! ## The bit WB of an entry (R217) -/

theorem clearBit_testBit (w : Nat) : (clearBit w 57 % 2 ^ 64).testBit 57 = false := by
  rw [Nat.testBit_eq_decide_div_mod_eq, decide_eq_false_iff_not]
  unfold clearBit
  split <;> omega

theorem clearBit_add_testBit (w : Nat) : ((clearBit w 57 + 2 ^ 57) % 2 ^ 64).testBit 57 = true := by
  rw [Nat.testBit_eq_decide_div_mod_eq, decide_eq_true_iff]
  unfold clearBit
  split <;> omega

/-! ## Step 1 of a migration (R217) -/

/-- A migration that has begun is noted, and looks again after a microsecond. -/
def State.migrationNoted (s : State) (g : PageGrant) : State := (State.stamp { s with migrs := s.migrs ++ [⟨g, s.fresh⟩] }).later 1000 (.regionMigration g)

/-- What the first step of a page's migration leaves: MIG in its word, WB in the entry, no translation of the object, and the migration noted. -/
theorem State.beginMigration_spec {s : State} {g : PageGrant} {d : AsidDesc} (hd : s.asid g.asid = some d) (hq : s.queues = []) (e : OEntry) (k : Nat) (w v : DWord) :
    ∃ u : State, HomeWork s u ∧ s.beginMigration g e [(k, w, v)] = (u.oinv g.asid (some g.obj)).migrationNoted g ∧
      u.mem = (s.mem.write (e.wordPA k) (natBytes 8 (withMig w).toNat)).changeEntry (d.entryPA g.obj) (fun w => clearBit w 57 + 2 ^ 57) := by
  let marked := s.homeStore 0 (e.wordPA k) (natBytes 8 (withMig w).toNat)
  have hmarked : HomeWork s marked := homeWork_homeStore ..
  obtain ⟨u, hu, heq, hmem⟩ := State.changeEntry_spec (s := marked) ((congrFun hmarked.asid _).trans hd) (hmarked.queues.trans hq) g.obj (fun w => clearBit w 57 + 2 ^ 57)
  exact ⟨u, hmarked.trans hu, congrArg (fun x : State => x.migrationNoted g) heq, hmem.trans (congrArg (fun m : Mem => m.changeEntry _ _) (State.homeStore_mem hq ..))⟩

/-! ## The end of a migration (R217) -/

/-- From s to t memory, the cached translations and what waits for a region are as they were. -/
structure RegionKept (s t : State) : Prop where
  mem : t.mem = s.mem
  regCache : t.regCache = s.regCache
  migrs : t.migrs = s.migrs
  asks : t.asks = s.asks
  wakes : t.wakes = s.wakes

theorem RegionKept.trans {s t u : State} (h : RegionKept s t) (h' : RegionKept t u) : RegionKept s u :=
  ⟨h'.mem.trans h.mem, h'.regCache.trans h.regCache, h'.migrs.trans h.migrs, h'.asks.trans h.asks, h'.wakes.trans h.wakes⟩

theorem RegionKept.over {α : Type} {f : State → α → State} (hf : ∀ u x, u.wakes = [] → RegionKept u (f u x)) (xs : List α) {s : State} (h : s.wakes = []) :
    RegionKept s (s.over xs f) :=
  State.over_keeps (P := RegionKept s) (fun u x hu => hu.trans (hf u x (hu.wakes.trans h))) xs ⟨rfl, rfl, rfl, rfl, rfl⟩

theorem regionKept_releaseRec {s : State} (h : s.wakes = []) (die n : Nat) : RegionKept s (s.releaseRec die n) := by
  obtain ⟨_, _, _, _, _, _, _, hfreed⟩ := freed_releaseRec h die n
  rw [hfreed]
  exact ⟨rfl, rfl, rfl, rfl, rfl⟩

theorem regionKept_releaseRegion {s : State} (h : s.wakes = []) (asid obj region : Nat) : RegionKept s (s.releaseRegion asid obj region) :=
  .over (fun u die hu => RegionKept.trans (t := u.setHamper die _) ⟨rfl, rfl, rfl, rfl, rfl⟩ (.over (fun _ _ hx => regionKept_releaseRec hx ..) _ hu)) _ h

theorem State.flushRegion_none {s : State} (h : s.cores = []) (asid obj region : Nat) : s.flushRegion asid obj region = s := by
  unfold State.flushRegion
  rw [h]
  show { s with cores := s.cores.map _ } = s
  rw [h]
  exact (congrArg (fun cs => ({ s with cores := cs } : State)) h.symm)

/-- A page with its bytes moved and its new word in place. -/
def State.pageMoved (s : State) (e : OEntry) (k : Nat) (w v : DWord) : State :=
  (s.movePage e.pageSize (pageAddr w) (pageAddr v)).homeStore 0 (e.wordPA k) (natBytes 8 v.toNat)

theorem State.pageMoved_spec {s : State} (hq : s.queues = []) (e : OEntry) (k : Nat) (w v : DWord) : HomeWork s (s.pageMoved e k w v) ∧
    (s.pageMoved e k w v).mem = (s.mem.copyRange (pageAddr w) (pageAddr v) e.pageSize).write (e.wordPA k) (natBytes 8 v.toNat) := by
  obtain ⟨hwork, hmem⟩ := s.movePage_spec e.pageSize (pageAddr w) (pageAddr v)
  exact ⟨hwork.trans (homeWork_homeStore ..), (State.homeStore_mem (hwork.queues.trans hq) ..).trans (congrArg (fun m : Mem => m.write _ _) hmem)⟩

theorem sameRegion_self (g : PageGrant) : sameRegion g g = true := by simp [sameRegion]

theorem find_sameRegion_self (g : PageGrant) (m : Nat) : [(⟨g, m⟩ : Migr)].find? (fun x => sameRegion x.grant g) = some ⟨g, m⟩ :=
  List.find?_cons_of_pos (sameRegion_self g)

/-- A migration whose pages have moved leaves the list, WB goes where no other region of the object is migrating, and the region's records are released. -/
def State.migrationDone (s : State) (g : PageGrant) : State :=
  let s := { s with migrs := s.migrs.filter (fun m => !sameRegion m.grant g) }
  let other := s.migrs.any (fun m => m.grant.asid == g.asid && m.grant.obj == g.obj)
  ((s.changeEntry g.asid g.obj (fun w => if other then w else clearBit w 57)).releaseRegion g.asid g.obj g.region).answerAsks g.asid g.obj g.region true

theorem State.migrationDone_eq {s : State} {g : PageGrant} {m : Nat} (hm : s.migrs = [⟨g, m⟩]) : s.migrationDone g =
    ((State.changeEntry { s with migrs := [] } g.asid g.obj (fun w => clearBit w 57)).releaseRegion g.asid g.obj g.region).answerAsks g.asid g.obj g.region true := by
  unfold State.migrationDone
  rw [hm, List.filter_cons_of_neg (by simp [sameRegion_self])]
  rfl

theorem State.endMigration_over (s : State) (g : PageGrant) (e : OEntry) (ps : List (Nat × DWord × DWord)) : s.endMigration g e ps =
    (((s.flushRegion g.asid g.obj g.region).over ps (fun s p => s.movePage e.pageSize (pageAddr p.2.1) (pageAddr p.2.2))).over ps
      (fun s p => s.homeStore 0 (e.wordPA p.1) (natBytes 8 p.2.2.toNat))).migrationDone g := by
  unfold State.endMigration State.migrationDone
  rfl

theorem State.endMigration_eq {s : State} (hc : s.cores = []) (g : PageGrant) (e : OEntry) (k : Nat) (w v : DWord) :
    s.endMigration g e [(k, w, v)] = (s.pageMoved e k w v).migrationDone g := by
  rw [State.endMigration_over, State.flushRegion_none hc]
  rfl

theorem HomeWork.migrs {s t : State} (h : HomeWork s t) : t.migrs = s.migrs := by
  obtain ⟨_, _, _, _, _, _, _, _, _, _, _, _, rfl⟩ := h
  rfl

/-- What the end of a page's migration leaves. -/
theorem State.endMigration_spec {s : State} {g : PageGrant} {m : Nat} {d : AsidDesc} (hd : s.asid g.asid = some d) (hq : s.queues = []) (hm : s.migrs = [⟨g, m⟩])
    (hc : s.cores = []) (hasks : s.asks = []) (hwakes : s.wakes = []) (e : OEntry) (k : Nat) (w v : DWord) :
    (s.endMigration g e [(k, w, v)]).migrs = [] ∧
      (s.endMigration g e [(k, w, v)]).mem = ((s.mem.copyRange (pageAddr w) (pageAddr v) e.pageSize).write (e.wordPA k) (natBytes 8 v.toNat)).changeEntry (d.entryPA g.obj)
        (fun w => clearBit w 57) ∧
      ∀ c ∈ (s.endMigration g e [(k, w, v)]).regCache, ¬(c.asid = g.asid ∧ c.obj = g.obj) := by
  obtain ⟨hmoved, hmem⟩ := State.pageMoved_spec hq e k w v
  obtain ⟨u, hu, heq, humem⟩ := State.changeEntry_spec (s := { s.pageMoved e k w v with migrs := [] }) ((congrFun hmoved.asid _).trans hd) (hmoved.queues.trans hq)
    g.obj (fun w => clearBit w 57)
  have hkept : u.migrs = [] ∧ u.asks = [] ∧ u.wakes = [] := by
    obtain ⟨_, _, _, _, _, _, _, _, _, _, _, _, he⟩ := hmoved
    obtain ⟨_, _, _, _, _, _, _, _, _, _, _, _, he'⟩ := hu
    rw [he', he]
    exact ⟨rfl, hasks, hwakes⟩
  obtain ⟨hm', ha', hw'⟩ := hkept
  have hreg := regionKept_releaseRegion (s := u.oinv g.asid (some g.obj)) hw' g.asid g.obj g.region
  rw [State.endMigration_eq hc, State.migrationDone_eq (hmoved.migrs.trans hm), heq, State.answerAsks_none (hreg.asks.trans ha')]
  refine ⟨hreg.migrs.trans hm', hreg.mem.trans (humem.trans ?_), fun c hin => (State.oinv_obj_gone u g.asid g.obj).2 c (hreg.regCache ▸ hin)⟩
  exact congrArg (fun m : Mem => m.changeEntry _ _) hmem

/-! ## REGION_MIGRATION (R217) -/

theorem exec_regionMigration_begin {s : State} {g : PageGrant} {e : OEntry} {k : Nat} {w v : DWord} (hs : s.supervised = true) (he : s.entry g.asid g.obj = some e)
    (hp : e.paged = true) (hps : s.movedPages e g = [(k, w, v)]) (hm : s.migrs = []) (hone : ((e.pages g.region).filter (fun p => decide (p * e.pageSize < e.size))).length = 1)
    (hw : pageP w = true) (hv : pageP v = true) (hmig : pageMig v = false) (hne : w ≠ v) :
    exec (.regionMigration g) s = .next (s.beginMigration g e [(k, w, v)]) := by
  show execRegionMigration g s = _
  unfold execRegionMigration
  rw [hs, he]
  refine congrArg _ ((if_neg (by decide)).trans ?_)
  dsimp only
  rw [hm, hps]
  dsimp only [List.find?_nil]
  rw [if_neg (by simp [hp, hone, hw, hv, hmig, hne])]

theorem exec_regionMigration_waits {s : State} {g : PageGrant} {e : OEntry} {k : Nat} {w v : DWord} {m : Nat} (hs : s.supervised = true) (he : s.entry g.asid g.obj = some e)
    (hps : s.movedPages e g = [(k, w, v)]) (hm : s.migrs = [⟨g, m⟩]) (hw : s.tileIn e.pageSize [(k, w, v)] m = true ∨ s.translated g.asid (some g.obj) m = true) :
    exec (.regionMigration g) s = .next (s.later 1000 (.regionMigration g)) := by
  show execRegionMigration g s = _
  unfold execRegionMigration
  rw [hs, he]
  refine congrArg _ ((if_neg (by decide)).trans ?_)
  dsimp only
  rw [hm, hps]
  rw [find_sameRegion_self]
  exact if_pos (hw.imp id .inl)

theorem exec_regionMigration_ends {s : State} {g : PageGrant} {e : OEntry} {k : Nat} {w v : DWord} {m : Nat} (hs : s.supervised = true) (he : s.entry g.asid g.obj = some e)
    (hps : s.movedPages e g = [(k, w, v)]) (hm : s.migrs = [⟨g, m⟩]) (ht : s.tileIn e.pageSize [(k, w, v)] m = false) (hx : s.translated g.asid (some g.obj) m = false)
    (hc : s.cores = []) : exec (.regionMigration g) s = .next (s.endMigration g e [(k, w, v)]) := by
  have hheld : s.regionHeld g.asid g.obj g.region = false := by
    unfold State.regionHeld
    rw [hc]
    rfl
  show execRegionMigration g s = _
  unfold execRegionMigration
  rw [hs, he]
  refine congrArg _ ((if_neg (by decide)).trans ?_)
  dsimp only
  rw [hm, hps]
  rw [find_sameRegion_self]
  dsimp only
  rw [if_neg (by simp [ht, hx, hheld]), hps]

theorem HomeWork.ticks {s t : State} (h : HomeWork s t) : t.ticks = s.ticks := by
  obtain ⟨_, _, _, _, _, _, _, _, _, _, _, _, rfl⟩ := h
  rfl

/-! ## What stands in memory (R213, R217) -/

/-- The bytes and words that the first step of a migration leaves. -/
theorem Mem.migration_begun {m : Mem} (h : m.wf = true) {word entry : Nat} (hd : entry + 32 ≤ word ∨ word + 8 ≤ entry) (w : DWord) :
    let t := (m.write word (natBytes 8 w.toNat)).changeEntry entry (fun w => clearBit w 57 + 2 ^ 57)
    t.num word 8 = w.toNat ∧ (t.num entry 8).testBit 57 = true ∧ ∀ j, (j < word ∨ word + 8 ≤ j) → (j < entry ∨ entry + 16 ≤ j) → t.get j = m.get j := by
  dsimp only
  have hw := Mem.wf_write (natBytes 8 w.toNat) h word
  refine ⟨?_, ?_, fun j hj hj' => ?_⟩
  · rw [Mem.num_changeEntry_other hw _ (by omega), Mem.num_natBytes h, Nat.mod_eq_of_lt w.isLt]
  · rw [Mem.num_changeEntry_first hw]
    exact clearBit_add_testBit _
  · rw [Mem.get_changeEntry_other hw _ hj', Mem.get_write _ h, natBytes_length, if_neg (by omega)]

/-- The bytes and words that the end of a migration leaves. -/
theorem Mem.migration_ended {m : Mem} (h : m.wf = true) {word entry src dst n : Nat} (hd : entry + 32 ≤ word ∨ word + 8 ≤ entry) (hword : word + 8 ≤ dst ∨ dst + n ≤ word)
    (hentry : entry + 32 ≤ dst ∨ dst + n ≤ entry) (v : DWord) :
    let t := ((m.copyRange src dst n).write word (natBytes 8 v.toNat)).changeEntry entry (fun w => clearBit w 57)
    (∀ j, j < n → t.get (dst + j) = m.get (src + j)) ∧ t.num word 8 = v.toNat ∧ (t.num entry 8).testBit 57 = false := by
  dsimp only
  have hc := Mem.wf_copyRange h src dst n
  have hw := Mem.wf_write (natBytes 8 v.toNat) hc word
  refine ⟨fun j hj => ?_, ?_, ?_⟩
  · rw [Mem.get_changeEntry_other hw _ (by omega), Mem.get_write _ hc, natBytes_length, if_neg (by omega), Mem.get_copyRange h src dst hj]
  · rw [Mem.num_changeEntry_other hw _ (by omega), Mem.num_natBytes hc, Nat.mod_eq_of_lt v.isLt]
  · rw [Mem.num_changeEntry_first hw]
    exact clearBit_testBit _

/-- The words of an entry that an update leaves, with GEN one higher. -/
theorem Mem.entry_updated {m : Mem} (h : m.wf = true) (p : Nat) {gen : Nat} (hg : gen < 2 ^ 32) (w0 w1 w2 w3 : DWord) :
    let t := (m.write p (entryBytes gen w0 w1 w2 w3)).changeEntry p id
    t.num p 8 = w0.toNat ∧ t.num (p + 8) 8 = w1.toNat % 2 ^ 32 + (gen + 1) % 2 ^ 32 * 2 ^ 32 ∧ t.num (p + 16) 8 = w2.toNat ∧ t.num (p + 24) 8 = w3.toNat ∧
      ∀ j, j < p ∨ p + 32 ≤ j → t.get j = m.get j := by
  dsimp only
  have hw := Mem.wf_write (entryBytes gen w0 w1 w2 w3) h p
  obtain ⟨h0, h1, h2, h3⟩ := Mem.num_entryBytes h p hg w0 w1 w2 w3
  refine ⟨?_, ?_, ?_, ?_, fun j hj => ?_⟩
  · rw [Mem.num_changeEntry_first hw, h0]
    exact Nat.mod_eq_of_lt w0.isLt
  · rw [Mem.num_changeEntry_second hw, h1, genNext_of]
  · rw [Mem.num_changeEntry_other hw _ (.inr (by omega)), h2]
  · rw [Mem.num_changeEntry_other hw _ (.inr (by omega)), h3]
  · rw [Mem.get_changeEntry_other hw _ (by omega), Mem.get_write _ h, entryBytes_length, if_neg (by omega)]

/-- Settles O53: the batches by the Hamper's rules, migrations and table updates by the words that stand at the page list and at the entry, address spaces by the list of them. -/
theorem supervisorEvents : Obligations.supervisor_events := by
  unfold Obligations.supervisor_events
  refine ⟨fun s d h e hh hw he => ⟨_, exec_hamperWindowEnd hh hw he, rfl, rfl, rfl⟩, ?release, ?migration, ?update, ?create, ?destroy, ?run, ?leave⟩
  case release =>
    intro s d h r rest n e hs hh hb hl hr he ht hw hres hasks hwakes
    have hexec := exec_hamperRelease hs hh hb hl
    rw [State.serveKey_resident (s := s.setHamper d.val { h with batches := rest }) hr he ht hw hres hasks hwakes] at hexec
    obtain ⟨hwoken, hother⟩ := State.releaseRec_fibs (s := s.setHamper d.val { h with batches := rest }) hwakes d.val r.num
    obtain ⟨_, _, _, _, _, _, _, hfreed⟩ := freed_releaseRec (s := s.setHamper d.val { h with batches := rest }) hwakes d.val r.num
    refine ⟨_, hexec, ?_, ?_, hwoken, hother⟩ <;> (rw [hfreed]; rfl)
  case migration =>
    intro s g e d k w v hs hd he hp hps hq hwf
    dsimp only
    intro hdis
    refine ⟨fun hm hone hw hv hmig hne => ?_, fun m hm => ⟨exec_regionMigration_waits hs he hps hm, fun ht hx hc hasks hwakes hword hentry _ _ => ?_⟩⟩
    · obtain ⟨u, hu, heq, hmem⟩ := s.beginMigration_spec hd hq e k w v
      obtain ⟨hnum, hbit, hget⟩ := Mem.migration_begun hwf hdis (withMig w)
      refine ⟨_, (exec_regionMigration_begin hs he hp hps hm hone hw hv hmig hne).trans (congrArg _ heq), ?_, ?_, ?_⟩
      · show (u.migrs ++ [_]).map _ = _
        rw [hu.migrs, hm]
        rfl
      · exact hu.ticks ▸ State.later_self _ 1000 _
      · rw [← hmem] at hnum hbit hget
        exact ⟨hnum, hbit, hget, (State.oinv_obj_gone u g.asid g.obj).2⟩
    · obtain ⟨hmigrs, hmem, hreg⟩ := s.endMigration_spec hd hq hm hc hasks hwakes e k w v
      obtain ⟨hbytes, hnum, hbit⟩ := Mem.migration_ended (src := pageAddr w) hwf hdis hword hentry v
      rw [← hmem] at hbytes hnum hbit
      exact ⟨_, exec_regionMigration_ends hs he hps hm ht hx hc, hmigrs, hbytes, hnum, hbit, hreg⟩
  case update =>
    intro s a o d e w0 w1 w2 w3 hs hd he hq hwf
    dsimp only
    obtain ⟨u, hexec, hmem⟩ := objectTableUpdate_spec hs hd he hq w0 w1 w2 w3
    have hgen : e.gen < 2 ^ 32 := by
      rw [State.entry_eq hd he]
      exact OEntry.gen_lt ..
    obtain ⟨h0, h1, h2, h3, hget⟩ := Mem.entry_updated hwf (d.entryPA o) hgen w0 w1 w2 w3
    rw [← hmem] at h0 h1 h2 h3 hget
    exact ⟨_, hexec, h0, h1, h2, h3, hget, State.oinv_obj_gone u a o⟩
  case create =>
    intro s a root objects heap segs hs ha hn hr ho ho' hh hsegs
    exact ⟨_, exec_asidCreate hs ha hn hr ho ho' hh hsegs, State.asid_append_same hn rfl, fun b hb => State.asid_append_other s (Ne.symm hb), rfl⟩
  case destroy =>
    intro s a d hs hd
    obtain ⟨hgone, hother, hobj, hreg⟩ := s.dropAsid_spec a
    exact ⟨_, exec_asidDestroy hs hd, hgone, hother, hobj, hreg, State.dropAsid_plain hd⟩
  case run =>
    intro s i a root objects heap segs links x hs hacc hide hx hst hkeys ha hn hr ho ho' hh hsegs
    exact ⟨_, exec_tdiRun hs hacc hide hx hst hkeys ha hn hr ho ho' hh hsegs, State.asid_append_same hn rfl, fun b hb => State.asid_append_other s (Ne.symm hb), rfl, rfl, rfl⟩
  case leave =>
    intro s i x hx hst
    refine ⟨_, exec_tdiLeaveRun hx hst, (s.dropAsid_spec x.asid).1, fun y hy => ?_, fun hi => ?_⟩
    · rcases List.mem_or_eq_of_mem_set hy with hy | rfl
      · obtain ⟨z, _, rfl⟩ := List.mem_map.mp hy
        exact Tdi.without_released x.asid z
      · exact fun h => absurd h.1 (by decide)
    · dsimp only at hi
      rw [List.length_set] at hi
      unfold State.tdi
      dsimp only
      rw [List.getD_eq_getElem?_getD, List.getElem?_set_self hi]
      rfl

end Sys2Proof.Machine
end

section
/-! PROOFS. Connections of the scale-out transport: opening and ending, acknowledgements sent, and packets sent again (R70, R71, R76, R81, R82; the first part of O45). -/

namespace Sys2Proof.Machine

/-! ## Connections (R70) -/

theorem State.conn_modConn (s : State) (n : Nat) {f : Conn → Conn} (hf : ∀ c, (f c).num = c.num) : (s.modConn n f).conn n = (s.conn n).map f :=
  find_map_same (fun c : Conn => c.num == n) f (fun c => by rw [hf]) s.conns

theorem State.conn_modConn_some {s : State} {n : Nat} {c : Conn} (h : s.conn n = some c) {f : Conn → Conn} (hf : ∀ c, (f c).num = c.num) :
    (s.modConn n f).conn n = some (f c) := by
  rw [s.conn_modConn n hf, h]
  rfl

/-- A connection in another state. -/
def Conn.to (st : ConnSt) (c : Conn) : Conn := { c with st := st }

theorem State.conn_num {s : State} {n : Nat} {c : Conn} (h : s.conn n = some c) : c.num = n := by simpa using List.find?_some h

theorem State.conn_of_conns {s t : State} (h : t.conns = s.conns) (n : Nat) : t.conn n = s.conn n := congrArg (List.find? _) h

theorem Requeued.conns {s t : State} (h : Requeued s t) : t.conns = s.conns := by
  obtain ⟨_, _, _, _, rfl⟩ := h
  rfl

theorem State.finish_conns (s : State) (n : Nat) (code : BitVec 8) (count : Nat) : (s.finish n code count).conns = s.conns := (requeued_finish s n code count).conns

/-- A connection that has just been opened. -/
def Conn.fresh (n asid : Nat) (ep : Word) (con : BitVec 16) : Conn :=
  { num := n, st := .opened, asid := asid, peerEp := ep, peerCon := con, nextMsn := 0, nextPsn := 0, expect := 0, accepted := [], heard := 0,
    window := 262144, timer := 50000, timerDue := none, expiries := 0, rnr := none, unacked := [], sends := [], bufs := [], nextBuf := 0, sinceAck := 0,
    echo := false, lastHalved := none, onChip := false, used := 0 }

theorem exec_connectionOpen {s : State} {n : Nat} (hn : n < 65536) (hf : s.mg.full = true) (hc : ∀ c, s.conn n = some c → c.st = .closed) (asid : Nat) (ep : Word) (con : BitVec 16) :
    exec (.connectionOpen n asid ep con) s = .next { s with conns := s.conns.filter (fun x => x.num != n) ++ [.fresh n asid ep con] } := by
  have hfree : (s.conn n).any (fun c => c.st != .closed) = false := by
    cases h : s.conn n with
    | none => rfl
    | some c => simp [hc c h]
  show execConnectionOpen n asid ep con s = _
  unfold execConnectionOpen
  rw [if_neg (by rw [hf, hfree]; simp; omega)]
  rfl

theorem find_appended {cs : List Conn} {c : Conn} {n : Nat} (h : c.num = n) : (cs.filter (fun x => x.num != n) ++ [c]).find? (fun x => x.num == n) = some c := by
  have hnone : (cs.filter (fun x => x.num != n)).find? (fun x => x.num == n) = none :=
    List.find?_eq_none.mpr (fun x hx => by simpa using (List.mem_filter.mp hx).2)
  rw [List.find?_append, hnone, List.find?_cons_of_pos (by simp [h])]
  rfl

/-! ## The end of a connection (R71) -/

/-- A command has ended with code 0x31. -/
def State.CutOff (s : State) (n : Nat) : Prop := (s.cmd n).map (fun x => (x.st, x.code)) = some (.finished, 0x31)

/-- A command that has started at its port. -/
def Command.started (c : Command) : Command := { c with prog := 1 }

/-- A command of a connection ends with code 0x31. -/
def State.cutOff (s : State) (n id : Nat) : State :=
  (s.modCmd id Command.started).finish id 0x31#8 ((((s.conn n).bind (fun x => x.sends.find? (fun o => o.cmd == id))).map (·.acked)).getD 0)

theorem State.cutOff_cmd_same (s : State) (n id : Nat) : (s.cutOff n id).cmd id = (s.cmd id).map (fun c => Command.ended 0x31#8
    ((((s.conn n).bind (fun x => x.sends.find? (fun o => o.cmd == id))).map (·.acked)).getD 0) c.started) := by
  unfold State.cutOff
  rw [State.finish_cmd_same, State.cmd_modCmd s id Command.started (fun _ => rfl), Option.map_map]
  rfl

theorem State.cutOff_cmd_other (s : State) (n : Nat) {id m : Nat} (h : m ≠ id) : (s.cutOff n id).cmd m = s.cmd m :=
  (State.finish_cmd_other _ h ..).trans (s.cmd_modCmd_other h Command.started (fun _ => rfl))

theorem State.cutOff_ends {s : State} {id : Nat} (h : (s.cmd id).isSome) (n : Nat) : (s.cutOff n id).CutOff id := by
  obtain ⟨c, hc⟩ := Option.isSome_iff_exists.mp h
  unfold State.CutOff
  rw [State.cutOff_cmd_same, hc]
  rfl

theorem State.cutOff_isSome {s : State} {m : Nat} (h : (s.cmd m).isSome) (n id : Nat) : ((s.cutOff n id).cmd m).isSome := by
  by_cases hm : m = id
  · subst hm
    rw [State.cutOff_cmd_same, Option.isSome_map]
    exact h
  · rw [State.cutOff_cmd_other s n hm]
    exact h

theorem State.cutOff_keeps {s : State} {m : Nat} (h : s.CutOff m) (n id : Nat) : (s.cutOff n id).CutOff m := by
  by_cases hm : m = id
  · subst hm
    refine State.cutOff_ends ?_ n
    unfold State.CutOff at h
    cases hc : s.cmd m with
    | none => rw [hc] at h; cases h
    | some c => rfl
  · unfold State.CutOff
    rw [State.cutOff_cmd_other s n hm]
    exact h

theorem State.cutOff_mem (s : State) (n id : Nat) : (s.cutOff n id).mem = s.mem := State.finish_mem (s.modCmd id Command.started) ..

theorem State.cutOff_conns (s : State) (n id : Nat) : (s.cutOff n id).conns = s.conns := State.finish_conns (s.modCmd id Command.started) ..

theorem State.over_cutOff {ds : List Command} {d : Command} (hd : d ∈ ds) {s : State} (hsome : (s.cmd d.id).isSome) {n : Nat} :
    (s.over ds (fun u c => u.cutOff n c.id)).CutOff d.id := by
  refine State.over_reaches (Q := fun u => (u.cmd d.id).isSome = true) (P := fun u => u.CutOff d.id) hd (fun u y hu => ?_) (fun u y hu => ?_) (fun u hu => ?_) hsome
  · exact State.cutOff_isSome hu n y.id
  · exact State.cutOff_keeps hu n y.id
  · exact State.cutOff_ends hu n

/-- A connection with nothing in flight. -/
def Conn.emptied (c : Conn) : Conn := { c with sends := [], bufs := [], unacked := [], timerDue := none, rnr := none }

theorem State.endConn_eq (s : State) (n : Nat) : s.endConn n = (s.over (s.connCmds n) (fun u c => u.cutOff n c.id)).modConn n Conn.emptied := rfl

/-- At the end of a connection its commands have ended, nothing is in flight, and memory is as it was. -/
theorem State.endConn_spec (s : State) (n : Nat) : (s.endConn n).mem = s.mem ∧
    (s.endConn n).conn n = (s.conn n).map Conn.emptied ∧
    ∀ d ∈ s.connCmds n, (s.endConn n).CutOff d.id := by
  have hmem : (s.over (s.connCmds n) (fun u c => u.cutOff n c.id)).mem = s.mem :=
    State.over_keeps (P := fun u => u.mem = s.mem) (fun u c hu => (u.cutOff_mem n c.id).trans hu) _ rfl
  have hconns : (s.over (s.connCmds n) (fun u c => u.cutOff n c.id)).conns = s.conns :=
    State.over_keeps (P := fun u => u.conns = s.conns) (fun u c hu => (u.cutOff_conns n c.id).trans hu) _ rfl
  rw [State.endConn_eq]
  refine ⟨hmem, (State.conn_modConn _ n (f := Conn.emptied) (fun _ => rfl)).trans (congrArg _ (State.conn_of_conns hconns n)), fun d hd => ?_⟩
  have hin : d ∈ s.cmds := List.mem_of_mem_filter hd
  have hsome : (s.cmd d.id).isSome := List.find?_isSome.mpr ⟨d, hin, beq_self_eq_true _⟩
  exact State.over_cutOff hd hsome

theorem exec_connectionClose {s : State} {n : Nat} {c : Conn} (h : s.conn n = some c) (hst : c.st ≠ .closed) :
    exec (.connectionClose n) s = .next ((s.endConn n).modConn n (Conn.to .closed)) := by
  show execConnectionClose n s = _
  unfold execConnectionClose
  rw [h]
  exact congrArg _ (if_neg hst)

theorem State.closed_spec {s : State} {n : Nat} {c : Conn} (h : s.conn n = some c) :
    Claims.connectionEnded s ((s.endConn n).modConn n (Conn.to .closed)) n .closed ∧ ((s.endConn n).modConn n (Conn.to .closed)).mem = s.mem := by
  obtain ⟨hmem, hconn, hcut⟩ := s.endConn_spec n
  refine ⟨⟨⟨c.emptied.to .closed, ?_, rfl, rfl, rfl, rfl⟩, hcut⟩, hmem⟩
  exact State.conn_modConn_some (hconn.trans (congrArg _ h)) (fun _ => rfl)

/-- A connection that enters ERROR. -/
theorem State.errorConn_spec {s : State} {n : Nat} {c : Conn} (h : s.conn n = some c) (hst : c.st = .opened) :
    Claims.connectionEnded s (s.errorConn n) n .error ∧ (s.errorConn n).mem = s.mem := by
  have heq : s.errorConn n = (s.modConn n (Conn.to .error)).endConn n := by
    unfold State.errorConn
    rw [h]
    exact if_pos hst
  obtain ⟨hmem, hconn, hcut⟩ := (s.modConn n (Conn.to .error)).endConn_spec n
  rw [heq]
  refine ⟨⟨⟨(c.to .error).emptied, ?_, rfl, rfl, rfl, rfl⟩, hcut⟩, hmem⟩
  exact hconn.trans (congrArg _ (State.conn_modConn_some h (f := Conn.to .error) (fun _ => rfl)))

/-! ## Acknowledgements that are sent (R81) -/

/-- The positions of SACK. -/
def Conn.sacked (c : Conn) : List Nat := (List.range 64).filter (fun k => c.accepted.contains (c.expect + 1 + BitVec.ofNat 32 k))

/-- The acknowledgement that a connection sends. -/
def State.ackOf (s : State) (c : Conn) : SoPacket :=
  s.soPacket c 2 (if c.echo then 16 else 0) (fun p => { p with ackpsn := c.expect, sack := BitVec.ofNat 64 (c.sacked.map (2 ^ ·)).sum })

/-- A connection with no acknowledgement due. -/
def Conn.ackSent (c : Conn) : Conn := { c with echo := false, sinceAck := 0 }

theorem State.sendAck_eq {s : State} {n : Nat} {c : Conn} (h : s.conn n = some c) :
    s.sendAck n = { s.modConn n Conn.ackSent with soTx := s.soTx ++ [s.ackOf c] } := by
  unfold State.sendAck
  rw [h]
  rfl

theorem ofConnection_ackOf {s u : State} (h : u.endpoint = s.endpoint) (c : Conn) : Claims.ofConnection s c (u.ackOf c) := ⟨rfl, rfl, h, rfl, rfl⟩

theorem State.ackOf_sack (s : State) (c : Conn) {k : Nat} (hk : k < 64) : (s.ackOf c).sack.getLsbD k = c.accepted.contains (c.expect + 1 + BitVec.ofNat 32 k) := by
  show (BitVec.ofNat 64 _).getLsbD k = _
  rw [BitVec.getLsbD_ofNat, Conn.sacked, testBit_sum_two_pow (List.nodup_range.filter _)]
  simp [hk]

theorem exec_delayedAck {s : State} {n : Nat} {c : Conn} (h : s.conn n = some c) (hst : c.st = .opened) (hs : 0 < c.sinceAck) : exec (.delayedAck n) s = .next (s.sendAck n) := by
  have hdue : (s.conn n).any (fun c => c.st == .opened && decide (0 < c.sinceAck)) = true := by
    rw [h]
    simp [hst, hs]
  show execDelayedAck n s = _
  unfold execDelayedAck
  rw [if_pos hdue]

/-! ## Packets sent again (R74, R76, R81) -/

/-- A packet as it goes again. -/
def soAgain (p : SoPacket) (bs : List Byte) : SoPacket :=
  { p with flags := p.flags ||| 4, payload := bs, crc := soCrc { p with flags := p.flags ||| 4, payload := bs } }

theorem State.sendRetry_eq (s : State) (p : SoPacket) (bs : List Byte) : s.sendRetry p bs = { s with soTx := s.soTx ++ [soAgain p bs] } := rfl

theorem soAgain_spec (p : SoPacket) (bs : List Byte) : (soAgain p bs).psn = p.psn ∧ (soAgain p bs).flags.getLsbD 2 = true ∧ (soAgain p bs).crc = soCrc (soAgain p bs) := by
  refine ⟨rfl, ?_, rfl⟩
  show (p.flags ||| 4).getLsbD 2 = true
  rw [BitVec.getLsbD_or]
  exact Bool.or_true _

theorem State.resendOne_again {s : State} {c : Conn} {p : SoPacket} (h : Claims.resendable s c p) : ∃ bs, s.resendOne c p = s.sendRetry p bs := by
  unfold State.resendOne
  cases ho : c.sends.find? (fun o => o.msn == p.msn) with
  | none => exact ⟨p.payload, rfl⟩
  | some o =>
    rw [Option.bind_some]
    cases hd : s.cmd o.cmd with
    | none => exact ⟨p.payload, rfl⟩
    | some d =>
      dsimp only [Option.map_some]
      split
      case isTrue => exact ⟨p.payload, rfl⟩
      case isFalse hlive =>
        obtain ⟨segs, hspan, hlatch, hbad⟩ := h o d ho hd hlive
        rw [hspan]
        dsimp only
        rw [hlatch, hbad]
        exact ⟨_, rfl⟩

/-- What has been sent and the connections' own records do not bear on whether a packet can be sent again. -/
theorem resendable_sent {s : State} {c : Conn} {p : SoPacket} (h : Claims.resendable s c p) (cs : List Conn) (q : List SoPacket) :
    Claims.resendable { s with conns := cs, soTx := q } c p := h

/-- Packets that can be sent again are sent again, in their order, with RETRY set. -/
theorem State.resend_spec {s : State} {c : Conn} {ps : List SoPacket} (h : ∀ p ∈ ps, Claims.resendable s c p) :
    ∃ qs, s.resend c ps = { s with soTx := s.soTx ++ qs } ∧ qs.map (·.psn) = ps.map (·.psn) ∧ ∀ q ∈ qs, q.flags.getLsbD 2 = true ∧ q.crc = soCrc q := by
  induction ps generalizing s with
  | nil => exact ⟨[], by rw [List.append_nil]; rfl, rfl, fun _ hq => by cases hq⟩
  | cons p ps ih =>
    obtain ⟨bs, hone⟩ := State.resendOne_again (h p List.mem_cons_self)
    obtain ⟨hpsn, hspec⟩ := soAgain_spec p bs
    obtain ⟨qs, heq, hpsns, hall⟩ := ih (s := { s with soTx := s.soTx ++ [soAgain p bs] }) (fun q hq => resendable_sent (h q (List.mem_cons_of_mem p hq)) s.conns _)
    refine ⟨soAgain p bs :: qs, ?_, ?_, fun q hq => ?_⟩
    · show (s.resendOne c p).resend c ps = _
      rw [hone, State.sendRetry_eq, heq, List.append_assoc]
      rfl
    · rw [List.map_cons, List.map_cons, hpsn, hpsns]
    · rcases List.mem_cons.mp hq with rfl | hq
      · exact hspec
      · exact hall q hq

theorem exec_retransmissionTimer_error {s : State} {n : Nat} {c : Conn} (h : s.conn n = some c) (hst : c.st = .opened) (hu : c.unacked ≠ []) {due : Nat} (hd : c.timerDue = some due)
    (hle : due ≤ s.ticks) (hr : c.rnr = none) (hk : 7 ≤ c.expiries) : exec (.retransmissionTimer n) s = .next (s.errorConn n) := by
  show execRetransmissionTimer n s = _
  unfold execRetransmissionTimer
  rw [h]
  dsimp only
  rw [hr, if_neg (by simp [hst, hu, hd, hle])]
  exact congrArg _ (if_pos (Nat.succ_le_succ hk))

/-- How often a connection's timer has expired, after one more time-out. -/
def Conn.expired (c : Conn) : Nat := if c.rnr.isSome then c.expiries else c.expiries + 1

/-- A connection whose timer has expired so often: its window is the smallest. -/
def Conn.backedOff (k : Nat) (c : Conn) : Conn := { c with expiries := k, window := 8192 }

theorem exec_retransmissionTimer {s : State} {n : Nat} {c : Conn} (h : s.conn n = some c) (hst : c.st = .opened) (hu : c.unacked ≠ []) {due : Nat} (hd : c.timerDue = some due)
    (hle : due ≤ s.ticks) (hk : c.expiries < 7) :
    exec (.retransmissionTimer n) s = .next (((s.modConn n (Conn.backedOff c.expired)).resend c c.unacked).armTimer n (min 6400000 (2 * c.timer))) := by
  have hfew : ¬8 ≤ c.expired := by
    unfold Conn.expired
    split <;> omega
  show execRetransmissionTimer n s = _
  unfold execRetransmissionTimer
  rw [h]
  dsimp only
  rw [if_neg (by simp [hst, hu, hd, hle])]
  exact congrArg _ (if_neg hfew)

theorem exec_rnrResend {s : State} {n : Nat} {c : Conn} (h : s.conn n = some c) (hst : c.st = .opened) {r : Word} (hr : c.rnr = some r) :
    exec (.rnrResend n) s = .next (s.resend c (c.unacked.filter (fun p => decide ((p.psn - r).toNat < 2 ^ 31)))) := by
  show execRnrResend n s = _
  unfold execRnrResend
  rw [h]
  dsimp only
  rw [hr]
  exact congrArg _ (if_neg (not_not.mpr hst))

/-! ## Contexts on chip (R83) -/

/-- A connection whose context is on chip. -/
def Conn.fetched (k : Nat) (c : Conn) : Conn := { c with onChip := true, used := k }

/-- A context that has room on chip, and for which no packet is staged, is fetched. -/
theorem exec_contextFetch {s : State} {n : Nat} {c : Conn} (h : s.conn n = some c) (hroom : (s.conns.filter (·.onChip)).length < 4096)
    (hstage : ∀ x ∈ s.staging, x.2.dstCon.toNat ≠ n) (port : Nat) : exec (.contextFetch port n) s =
      .next ((State.over { s.stamp.modConn n (Conn.fetched s.fresh) with
        staging := s.staging.filter (fun x => x.2.dstCon.toNat != n) } (s.connCmds n) (fun s c => if c.st = .running then s.poke 1 c.id else s))) := by
  have hchip : (if c.onChip then (s, true) else s.chipRoom) = (s, true) := by
    unfold State.chipRoom
    dsimp only
    rw [if_pos hroom, ite_self]
  have hnone : (s.staging.filter (fun x => x.2.dstCon.toNat == n)) = [] := List.filter_eq_nil_iff.mpr (fun x hx => by simpa using hstage x hx)
  show execContextFetch port n s = _
  unfold execContextFetch
  rw [h]
  dsimp only
  rw [hchip]
  dsimp only
  rw [show (s.stamp.modConn n (fun c => { c with onChip := true, used := s.fresh })).staging = s.staging from rfl, hnone]
  rfl

/-- Commands that look again leave connections and memory. -/
theorem State.over_pokes (xs : List Command) (s : State) : (s.over xs (fun s c => if c.st = .running then s.poke 1 c.id else s)).conns = s.conns ∧
    (s.over xs (fun s c => if c.st = .running then s.poke 1 c.id else s)).mem = s.mem := by
  refine State.over_keeps (P := fun u => u.conns = s.conns ∧ u.mem = s.mem) (fun u c hu => ?_) xs ⟨rfl, rfl⟩
  split
  · obtain ⟨_, he⟩ := u.poke_spec 1 c.id
    rw [he]
    exact hu
  · exact hu

end Sys2Proof.Machine
end

section
/-! PROOFS. Packets of the scale-out transport as they arrive, and the obligation on connections and packets (R76, R77, R80, R81, R83, O45). -/

namespace Sys2Proof.Machine

/-! ## Arrival (R83) -/

theorem State.recvSo_head {s : State} {p : SoPacket} {rest : List SoPacket} (h : s.soRx = p :: rest) {kind : Byte} (hk : p.kind = kind) (hh : s.soHeld p = false) :
    s.recvSo kind = .next ({ s with soRx := rest }.arriveSo p) := by
  unfold State.recvSo
  rw [h]
  dsimp only
  rw [if_pos ⟨hk, by rw [hh]; rfl⟩]

theorem exec_recvSo {s : State} {p : SoPacket} {i : Instr} (h : (p.kind = 1 ∧ i = .scaleoutData) ∨ (p.kind = 2 ∧ i = .scaleoutAck) ∨ (p.kind = 3 ∧ i = .rnr)) :
    exec i s = s.recvSo p.kind := by
  rcases h with ⟨hk, rfl⟩ | ⟨hk, rfl⟩ | ⟨hk, rfl⟩ <;> (rw [hk]; rfl)

/-- Only DATA waits for a walk or a latched line. -/
theorem State.soHeld_kind (s : State) {p : SoPacket} (h : p.kind ≠ 1) : s.soHeld p = false := by
  unfold State.soHeld
  rw [beq_false_of_ne h, Bool.false_and]

/-- A packet whose context is not on chip waits for nothing else. -/
theorem State.soHeld_offChip {s : State} {p : SoPacket} {c : Conn} (h : s.conn p.dstCon.toNat = some c) (hc : c.onChip = false) : s.soHeld p = false := by
  unfold State.soHeld
  rw [h]
  dsimp only
  rw [hc, Bool.false_and, Bool.and_false]

theorem State.soHeld_bufferless {s : State} {p : SoPacket} {c : Conn} (h : s.conn p.dstCon.toNat = some c) (hb : c.bufs.find? (fun b => b.msn == p.msn) = none) :
    s.soHeld p = false := by
  unfold State.soHeld
  rw [h]
  dsimp only
  rw [hb, Bool.and_false, Bool.and_false]

theorem State.soHeld_reached {s : State} {p : SoPacket} {c : Conn} {b : RecvBuf} {d : Command} {segs : List (Nat × Nat)} (h : s.conn p.dstCon.toNat = some c)
    (hb : c.bufs.find? (fun b => b.msn == p.msn) = some b) (hd : s.cmd b.cmd = some d) (hlen : p.moff.toNat + p.payload.length ≤ b.len)
    (hspan : s.span d (d.cap 1) p.moff.toNat p.payload.length true = .mem segs) (hl : s.spanLatched true (.mem segs) = false) : s.soHeld p = false := by
  unfold State.soHeld
  rw [h]
  dsimp only
  rw [hb]
  dsimp only
  rw [hd, Nat.min_eq_left (by omega)]
  dsimp only
  rw [hspan]
  dsimp only
  rw [hl, Bool.and_false, Bool.and_false]

/-- The port whose staging buffer takes the packets of a connection. -/
def State.stagePort (s : State) (n : Nat) : Nat := (s.soPort n).getD (n % 13)

theorem State.fetchConn_spec (s : State) (n : Nat) :
    ∃ a, s.fetchConn n = { s with agenda := a } ∧ ∃ x ∈ a, x.ev = .contextFetch (s.stagePort n) n := by
  unfold State.fetchConn
  dsimp only
  split
  case isTrue h =>
    obtain ⟨x, hx, hev⟩ := List.any_eq_true.mp h
    exact ⟨s.agenda, rfl, x, hx, eq_of_beq hev⟩
  case isFalse => exact ⟨_, rfl, _, s.later_self 2000 _, rfl⟩

/-- A packet of a connection whose context is not on chip, for which its port's staging buffer has room: it is staged, and the context's fetch is on the agenda. -/
theorem State.arriveSo_staged {s : State} {p : SoPacket} {c : Conn} (h : s.conn p.dstCon.toNat = some c) (hc : c.onChip = false)
    (hroom : ((s.staging.filter (fun x => x.1 == s.stagePort p.dstCon.toNat)).map (fun x => 64 + x.2.payload.length)).sum + 64 + p.payload.length ≤ 65536) :
    ∃ a, s.arriveSo p = { s with staging := s.staging ++ [(s.stagePort p.dstCon.toNat, p)], agenda := a } ∧ ∃ x ∈ a, x.ev = .contextFetch (s.stagePort p.dstCon.toNat) p.dstCon.toNat := by
  obtain ⟨a, heq, hin⟩ := State.fetchConn_spec { s with staging := s.staging ++ [(s.stagePort p.dstCon.toNat, p)] } p.dstCon.toNat
  refine ⟨a, ?_, hin⟩
  rw [← heq]
  unfold State.arriveSo
  dsimp only
  rw [h]
  dsimp only
  rw [if_neg (by rw [hc]; exact Bool.false_ne_true)]
  exact if_neg (Nat.not_lt.mpr hroom)

/-- A context that has just been used. -/
def Conn.usedAt (k : Nat) (c : Conn) : Conn := { c with used := k }

/-- A state whose scale-out packet at the head has been taken to its context. -/
def State.soTaken (s : State) (rest : List SoPacket) (n : Nat) : State := (State.stamp { s with soRx := rest }).modConn n (Conn.usedAt s.fresh)

theorem State.conn_soTaken {s : State} {n : Nat} {c : Conn} (h : s.conn n = some c) (rest : List SoPacket) : (s.soTaken rest n).conn n = some (c.usedAt s.fresh) :=
  State.conn_modConn_some (s := State.stamp { s with soRx := rest }) h (fun _ => rfl)

theorem State.arriveSo_onChip {s : State} {p : SoPacket} {c : Conn} (h : s.conn p.dstCon.toNat = some c) (hc : c.onChip = true) (rest : List SoPacket) :
    { s with soRx := rest }.arriveSo p = (s.soTaken rest p.dstCon.toNat).takeSo p := by
  have hconn : ({ s with soRx := rest } : State).conn p.dstCon.toNat = some c := h
  unfold State.arriveSo State.needConn
  dsimp only
  rw [hconn]
  dsimp only
  rw [hc]
  rfl

/-- A packet of a connection whose context is on chip goes to it. -/
theorem exec_scaleout {s : State} {p : SoPacket} {rest : List SoPacket} {c : Conn} (h : s.soRx = p :: rest) (hconn : s.conn p.dstCon.toNat = some c) (hc : c.onChip = true)
    (hh : s.soHeld p = false) {i : Instr} (hi : (p.kind = 1 ∧ i = .scaleoutData) ∨ (p.kind = 2 ∧ i = .scaleoutAck) ∨ (p.kind = 3 ∧ i = .rnr)) :
    exec i s = .next ((s.soTaken rest p.dstCon.toNat).takeSo p) := by
  rw [exec_recvSo hi, State.recvSo_head h rfl hh, State.arriveSo_onChip hconn hc]

theorem State.takeSo_data (s : State) {p : SoPacket} (h : p.kind = 1) : s.takeSo p = s.takeData p.dstCon.toNat p := if_pos h

theorem State.takeSo_ack (s : State) {p : SoPacket} (h : p.kind = 2) : s.takeSo p = s.takeAck p.dstCon.toNat p := by
  unfold State.takeSo
  dsimp only
  rw [h, if_neg (by decide), if_pos rfl]

theorem State.takeSo_rnr (s : State) {p : SoPacket} (h : p.kind = 3) : s.takeSo p = s.takeRnr p.dstCon.toNat p := by
  unfold State.takeSo
  dsimp only
  rw [h, if_neg (by decide), if_neg (by decide)]

/-! ## DATA (R76, R80) -/

/-- A connection that has seen this packet's congestion mark, or not. -/
def Conn.marked (p : SoPacket) (c : Conn) : Conn := if p.flags.getLsbD 3 then { c with echo := true } else c

/-- A state in which a connection has seen a packet's congestion mark, or not. -/
def State.marked (s : State) (n : Nat) (p : SoPacket) : State := if p.flags.getLsbD 3 then s.modConn n (fun c => { c with echo := true }) else s

theorem State.marked_spec (s : State) (n : Nat) (p : SoPacket) : ∃ cs, s.marked n p = { s with conns := cs } := by
  unfold State.marked
  split
  · exact ⟨_, rfl⟩
  · exact ⟨s.conns, rfl⟩

theorem State.conn_marked {s : State} {n : Nat} {c : Conn} (h : s.conn n = some c) (p : SoPacket) : (s.marked n p).conn n = some (c.marked p) := by
  unfold State.marked Conn.marked
  split
  · exact State.conn_modConn_some h (fun _ => rfl)
  · exact h

/-- DATA that has been received before. -/
theorem State.takeData_old {s : State} {n : Nat} {p : SoPacket} {c : Conn} (h : s.conn n = some c) (hst : c.st = .opened) (ho : 2 ^ 31 ≤ (p.psn - c.expect).toNat) :
    s.takeData n p = (s.marked n p).sendAck n := by
  unfold State.takeData
  rw [h]
  dsimp only
  rw [if_neg (not_not.mpr hst)]
  exact if_pos (.inr ho)

/-- DATA in sequence that is new goes on to its buffer. -/
theorem State.takeData_next {s : State} {n : Nat} {p : SoPacket} {c : Conn} (h : s.conn n = some c) (hst : c.st = .opened) (hp : p.psn = c.expect) (hnew : p.psn ∉ c.accepted) :
    s.takeData n p = match c.bufs.find? (fun b => b.msn == p.msn) with
      | none => (s.marked n p).sendRnr c p.psn
      | some b => (s.marked n p).acceptData c b p := by
  have hd : (p.psn - c.expect).toNat = 0 := by simp [hp]
  unfold State.takeData
  rw [h]
  dsimp only
  rw [if_neg (not_not.mpr hst), hd, if_neg (by simpa using hnew), if_neg (by decide)]
  rfl

/-- DATA in sequence that has no buffer. -/
theorem State.takeData_bufferless {s : State} {n : Nat} {p : SoPacket} {c : Conn} (h : s.conn n = some c) (hst : c.st = .opened) (hp : p.psn = c.expect) (hnew : p.psn ∉ c.accepted)
    (hb : c.bufs.find? (fun b => b.msn == p.msn) = none) : s.takeData n p = (s.marked n p).sendRnr c p.psn := by
  rw [State.takeData_next h hst hp hnew, hb]

/-- DATA in sequence that has its buffer. -/
theorem State.takeData_buffered {s : State} {n : Nat} {p : SoPacket} {c : Conn} (h : s.conn n = some c) (hst : c.st = .opened) (hp : p.psn = c.expect) (hnew : p.psn ∉ c.accepted)
    {b : RecvBuf} (hb : c.bufs.find? (fun b => b.msn == p.msn) = some b) : s.takeData n p = (s.marked n p).acceptData c b p := by
  rw [State.takeData_next h hst hp hnew, hb]

/-- The packet that refuses another one. -/
def State.rnrOf (s : State) (c : Conn) (psn : Word) : SoPacket := s.soPacket c 3 0 (fun p => { p with psn := psn })

theorem ofConnection_rnrOf {s u : State} (h : u.endpoint = s.endpoint) (c : Conn) (psn : Word) : Claims.ofConnection s c (u.rnrOf c psn) := ⟨rfl, rfl, h, rfl, rfl⟩

/-! ### Bytes placed -/

/-- What decides where a write leaves its bytes is the same. -/
structure SameTables (s t : State) : Prop where
  mem : t.mem = s.mem
  asids : t.asids = s.asids
  queues : t.queues = s.queues

theorem SameTables.entry {s t : State} (h : SameTables s t) : t.entry = s.entry := by
  unfold State.entry State.asid
  rw [h.mem, h.asids]

theorem SameTables.paOf {s t : State} (h : SameTables s t) : t.paOf = s.paOf := by
  unfold State.paOf
  rw [h.entry, h.mem]

theorem SameTables.tailWords {s t : State} (h : SameTables s t) : t.tailWords = s.tailWords := by
  unfold State.tailWords
  rw [h.paOf, h.queues]

theorem SameTables.homeStore {s t : State} (h : SameTables s t) (key a : Nat) (bs : List Byte) : SameTables (s.homeStore key a bs) (t.homeStore key a bs) := by
  have hs : HomeWork s (s.homeStore key a bs) := homeWork_homeStore ..
  have ht : HomeWork t (t.homeStore key a bs) := homeWork_homeStore ..
  refine ⟨?_, ?_, ht.queues.trans (h.queues.trans hs.queues.symm)⟩
  · unfold State.homeStore
    rw [(t.homeWrite_spec key _).2.1, (s.homeWrite_spec key _).2.1, h.tailWords, h.mem]
  · exact ht.spacesKept.asids.trans (h.asids.trans hs.spacesKept.asids.symm)

/-- The bytes of a range are left alike by two states that agree on memory, tables and bound queues. -/
theorem SameTables.spanWrite_mem {s t : State} (h : SameTables s t) (d : Command) (bs : List Byte) (segs : List (Nat × Nat)) :
    (t.spanWrite d bs (.mem segs)).mem = (s.spanWrite d bs (.mem segs)).mem := by
  have hkey : t.keyOf d.asid = s.keyOf d.asid := by
    unfold State.keyOf State.asid
    rw [h.asids]
  show (segs.foldl (fun (r : State × List Byte) x => (r.1.homeStore (t.keyOf d.asid) x.1 (r.2.take x.2), r.2.drop x.2)) (t, bs)).1.mem =
    (segs.foldl (fun (r : State × List Byte) x => (r.1.homeStore (s.keyOf d.asid) x.1 (r.2.take x.2), r.2.drop x.2)) (s, bs)).1.mem
  rw [hkey]
  generalize s.keyOf d.asid = key
  clear hkey
  induction segs generalizing s t bs with
  | nil => exact h.mem
  | cons x xs ih => exact ih (h.homeStore ..) _

/-- A packet whose buffer can be written is placed. -/
theorem State.placeAt_mem {s : State} {b : RecvBuf} {d : Command} (hd : s.cmd b.cmd = some d) (hcode : b.code = 0) {bs : List Byte} (hbs : bs ≠ []) {moff : Nat}
    (hlen : moff + bs.length ≤ b.len) {segs : List (Nat × Nat)} (hspan : s.span d (d.cap 1) moff bs.length true = .mem segs) (hl : s.spanLatched true (.mem segs) = false)
    (hbad : s.segsBad segs = false) : s.placeAt b moff bs = (.done, s.spanWrite d bs (.mem segs)) := by
  unfold State.placeAt
  dsimp only
  rw [List.take_of_length_le (by omega), hd]
  dsimp only
  rw [if_neg (by simp [hbs, hcode]), hspan]
  dsimp only
  rw [hl, hbad]
  rfl

/-! ### E and the buffers (R76, R77) -/

theorem advanceE_nil (k : Nat) (e : Word) : advanceE k e [] = (e, []) := by cases k <;> rfl

/-- E goes past the one packet that was waited for. -/
theorem advanceE_one (k : Nat) (e : Word) : advanceE (k + 1) e [e] = (e + 1, []) := by
  rw [advanceE, if_pos (by simp), List.filter_cons_of_neg (by simp), List.filter_nil]
  exact advanceE_nil ..

/-- Memory, and E of a connection. -/
def State.Expects (s : State) (n : Nat) (m : Mem) (e : Word) : Prop := s.mem = m ∧ (s.conn n).map (·.expect) = some e

theorem State.Expects.of_conns {s t : State} {n : Nat} {m : Mem} {e : Word} (h : s.Expects n m e) (hm : t.mem = s.mem) (hc : t.conns = s.conns) : t.Expects n m e :=
  ⟨hm.trans h.1, (congrArg _ (State.conn_of_conns hc n)).trans h.2⟩

theorem State.Expects.modConn {s : State} {n : Nat} {m : Mem} {e : Word} (h : s.Expects n m e) {f : Conn → Conn} (hf : ∀ c, (f c).num = c.num) (he : ∀ c, (f c).expect = c.expect) :
    (s.modConn n f).Expects n m e := by
  refine ⟨h.1, ?_⟩
  rw [State.conn_modConn s n hf, Option.map_map]
  exact (congrArg (fun g => (s.conn n).map g) (funext he)).trans h.2

theorem State.Expects.finish {s : State} {n : Nat} {m : Mem} {e : Word} (h : s.Expects n m e) (id : Nat) (code : BitVec 8) (count : Nat) : (s.finish id code count).Expects n m e :=
  h.of_conns (s.finish_mem ..) (s.finish_conns ..)

theorem State.Expects.finishOk {s : State} {n : Nat} {m : Mem} {e : Word} (h : s.Expects n m e) (id : Nat) (code : BitVec 8) (count : Nat) : (s.finishOk id code count).Expects n m e := by
  obtain ⟨_, he⟩ := s.finishOk_eq id code count
  rw [he]
  exact h.of_conns rfl rfl

theorem State.Expects.completeBufs {n : Nat} {m : Mem} {e : Word} (k : Nat) {s : State} (h : s.Expects n m e) : (State.completeBufs n k s).Expects n m e := by
  induction k generalizing s with
  | zero => exact h
  | succ k ih =>
    have hdrop : (s.modConn n (fun c => { c with bufs := c.bufs.drop 1 })).Expects n m e := h.modConn (fun _ => rfl) (fun _ => rfl)
    unfold State.completeBufs
    split
    case h_1 => exact h
    case h_2 =>
      split
      case isTrue => exact h
      case isFalse =>
        refine ih ?_
        split
        · exact hdrop.finish ..
        · split
          · exact hdrop.finish ..
          · exact hdrop.finishOk ..

theorem State.Expects.sendAck {s : State} {n : Nat} {m : Mem} {e : Word} (h : s.Expects n m e) : (s.sendAck n).Expects n m e := by
  unfold State.sendAck
  split
  · exact h
  · exact h.modConn (f := Conn.ackSent) (fun _ => rfl) (fun _ => rfl)

/-- A buffer with one more packet in it. -/
def RecvBuf.filled (p : SoPacket) (b : RecvBuf) : RecvBuf :=
  if b.msn == p.msn then { b with placed := b.placed + p.payload.length, mlen := some p.mlen.toNat, done := decide (p.mlen.toNat ≤ b.placed + p.payload.length) } else b

/-- A connection that has accepted one more packet. -/
def Conn.placed (e : Word) (as : List Word) (p : SoPacket) (c : Conn) : Conn :=
  { c with expect := e, accepted := as, sinceAck := c.sinceAck + 1, bufs := c.bufs.map (RecvBuf.filled p) }

/-- A packet that has been placed: its bytes stay, and E is as it has advanced. -/
theorem State.acceptData_placed {u v : State} {c x : Conn} {b : RecvBuf} {p : SoPacket} (hplace : u.placeAt b p.moff.toNat p.payload = (.done, v)) {e : Word} {as : List Word}
    (hadv : advanceE 1025 c.expect (p.psn :: c.accepted) = (e, as)) (hv : v.conn c.num = some x) : (u.acceptData c b p).Expects c.num v.mem e := by
  unfold State.acceptData
  dsimp only
  rw [hplace]
  dsimp only
  rw [hadv]
  dsimp only
  have hnew : (v.modConn c.num (Conn.placed e as p)).Expects c.num v.mem e := ⟨rfl, congrArg _ (State.conn_modConn_some hv (f := Conn.placed e as p) (fun _ => rfl))⟩
  have hdone := hnew.completeBufs 257
  split
  · exact hdone.sendAck
  · split
    · exact hdone.of_conns rfl rfl
    · exact hdone

theorem HomeWork.conns {s t : State} (h : HomeWork s t) : t.conns = s.conns := by
  obtain ⟨_, _, _, _, _, _, _, _, _, _, _, _, rfl⟩ := h
  rfl

theorem homeWork_spanWrite (s : State) (d : Command) (bs : List Byte) (segs : List (Nat × Nat)) : HomeWork s (s.spanWrite d bs (.mem segs)) :=
  homeWork_segsWrite s d.asid segs bs

/-! ## Acknowledgements received (R77, R81) -/

/-- A connection with no message to form packets of sends none. -/
theorem State.soPump_idle {s : State} {n : Nat} {c : Conn} (h : s.conn n = some c) (ho : ∀ o ∈ c.sends, o.formed = o.packets) (k : Nat) : State.soPump n k s = s := by
  cases k with
  | zero => rfl
  | succ k =>
    have hnone : c.sends.find? (fun o => decide (o.formed < o.packets)) = none := List.find?_eq_none.mpr (fun o hm => by simp [ho o hm])
    unfold State.soPump
    rw [h]
    dsimp only
    rw [hnone]

/-- A command has ended without an error. -/
def State.Succeeded (s : State) (n : Nat) : Prop := (s.cmd n).map (fun x => (x.st, x.code, x.err)) = some (.finished, 0, false)

/-- A message whose packets are all acknowledged ends its SEND, unless it has ended. -/
def State.sendDone (s : State) (o : SendOp) : State := if (s.cmd o.cmd).any (fun d => d.st == .finished) then s else s.finishOk o.cmd 0 o.len

theorem State.sendDone_spec (s : State) (o : SendOp) : (s.sendDone o).mem = s.mem ∧ (s.sendDone o).conns = s.conns ∧ ∀ m, m ≠ o.cmd → (s.sendDone o).cmd m = s.cmd m := by
  unfold State.sendDone
  split
  · exact ⟨rfl, rfl, fun _ _ => rfl⟩
  · obtain ⟨_, he⟩ := s.finishOk_eq o.cmd 0 o.len
    rw [he]
    exact ⟨rfl, rfl, fun m hm => s.cmd_modCmd_other hm (Command.endedOk 0 o.len) (fun _ => rfl)⟩

/-- A command that has not ended, or has ended without an error. -/
def State.Sound (s : State) (n : Nat) : Prop := s.Succeeded n ∨ ∃ d, s.cmd n = some d ∧ d.st ≠ .finished

theorem State.sendDone_ends {s : State} {o : SendOp} (h : s.Sound o.cmd) : (s.sendDone o).Succeeded o.cmd := by
  unfold State.sendDone
  rcases h with h | ⟨d, hd, hst⟩
  · obtain ⟨d, hd, hend⟩ := Option.map_eq_some_iff.mp h
    rw [if_pos (by rw [hd]; simpa using congrArg Prod.fst hend)]
    exact h
  · rw [if_neg (by rw [hd]; simpa using hst)]
    obtain ⟨_, he⟩ := s.finishOk_eq o.cmd 0 o.len
    have hcmd : (s.finishOk o.cmd 0 o.len).cmd o.cmd = (s.cmd o.cmd).map (Command.endedOk 0 o.len) := by
      rw [he]
      exact s.cmd_modCmd o.cmd (Command.endedOk 0 o.len) (fun _ => rfl)
    unfold State.Succeeded
    rw [hcmd, hd]
    rfl

theorem State.sendDone_succeeded {s : State} {n : Nat} (h : s.Succeeded n) (o : SendOp) : (s.sendDone o).Succeeded n := by
  by_cases hn : n = o.cmd
  · subst hn
    exact State.sendDone_ends (.inl h)
  · unfold State.Succeeded
    rw [s.sendDone_spec o |>.2.2 n hn]
    exact h

theorem State.sendDone_sound {s : State} {n : Nat} (h : s.Sound n) (o : SendOp) : (s.sendDone o).Sound n := by
  by_cases hn : n = o.cmd
  · subst hn
    exact .inl (State.sendDone_ends h)
  · unfold State.Sound State.Succeeded
    rw [s.sendDone_spec o |>.2.2 n hn]
    exact h

/-- The messages of a connection whose packets are all formed and acknowledged. -/
def Conn.doneSends (c : Conn) : List SendOp := c.sends.filter (fun o => o.formed == o.packets && !c.unacked.any (fun p => p.msn == o.msn))

/-- A connection without the messages that are done. -/
def Conn.sendsLeft (fin : List SendOp) (c : Conn) : Conn := { c with sends := c.sends.filter (fun o => !fin.any (fun f => f.cmd == o.cmd)) }

theorem State.completeSends_eq {s : State} {n : Nat} {c : Conn} (h : s.conn n = some c) : s.completeSends n = (s.modConn n (Conn.sendsLeft c.doneSends)).over c.doneSends State.sendDone := by
  unfold State.completeSends
  rw [h]
  rfl

theorem State.over_sendDone (os : List SendOp) (s : State) : (s.over os State.sendDone).mem = s.mem ∧ (s.over os State.sendDone).conns = s.conns ∧
    ∀ o ∈ os, s.Sound o.cmd → (s.over os State.sendDone).Succeeded o.cmd := by
  refine ⟨?_, ?_, fun o ho hs => ?_⟩
  · exact State.over_keeps (P := fun u => u.mem = s.mem) (fun u y hu => (u.sendDone_spec y).1.trans hu) os rfl
  · exact State.over_keeps (P := fun u => u.conns = s.conns) (fun u y hu => (u.sendDone_spec y).2.1.trans hu) os rfl
  · exact State.over_reaches (Q := fun u => u.Sound o.cmd) (P := fun u => u.Succeeded o.cmd) ho (fun u y hu => State.sendDone_sound hu y)
      (fun u y hu => State.sendDone_succeeded hu y) (fun u hu => State.sendDone_ends hu) hs

/-- Messages are completed, and none of those left has packets to form: what is in flight and memory stay, and the commands of the completed ones end. -/
theorem State.completeSends_spec {s : State} {n : Nat} {c : Conn} (h : s.conn n = some c) (ho : ∀ o ∈ c.sends, o.formed = o.packets) :
    (((s.completeSends n).pumpConn n).conn n).map (·.unacked) = some c.unacked ∧ ((s.completeSends n).pumpConn n).mem = s.mem ∧
      ∀ o ∈ c.doneSends, s.Sound o.cmd → ((s.completeSends n).pumpConn n).Succeeded o.cmd := by
  obtain ⟨hmem, hconns, hdone⟩ := State.over_sendDone c.doneSends (s.modConn n (Conn.sendsLeft c.doneSends))
  rw [← State.completeSends_eq h] at hmem hconns hdone
  have hconn : (s.completeSends n).conn n = some (c.sendsLeft c.doneSends) :=
    (State.conn_of_conns hconns n).trans (State.conn_modConn_some h (fun _ => rfl))
  have hidle : (s.completeSends n).pumpConn n = s.completeSends n :=
    State.soPump_idle hconn (fun o hm => ho o (List.mem_of_mem_filter hm)) 4096
  rw [hidle, hconn]
  exact ⟨rfl, hmem, hdone⟩

end Sys2Proof.Machine
end

section
/-! PROOFS. Acknowledgements and refusals at their connection, and the obligation on scale-out connections and their packets (R76, R77, R81, O45). -/

namespace Sys2Proof.Machine

/-! ## ACK (R77, R81) -/

/-- The packets in flight that an acknowledgement covers, and those that it leaves. -/
def Conn.got (c : Conn) (a : SoPacket) : List SoPacket := c.unacked.filter (fun p => soCovers a p)
def Conn.left (c : Conn) (a : SoPacket) : List SoPacket := c.unacked.filter (fun p => !soCovers a p)

/-- A message with the bytes counted that an acknowledgement covers. -/
def SendOp.counted (got : List SoPacket) (o : SendOp) : SendOp := { o with acked := o.acked + ((got.filter (fun p => p.msn == o.msn)).map (·.payload.length)).sum }

/-- An acknowledgement reports more than any before it. -/
def Conn.advances (c : Conn) (a : SoPacket) : Bool := decide (0 < (a.ackpsn - c.heard).toNat) && decide ((a.ackpsn - c.heard).toNat < 2 ^ 31)

/-- A connection after an acknowledgement that covers and leaves these packets. -/
def Conn.acknowledged (a : SoPacket) (now : Nat) (got left : List SoPacket) (adv : Bool) (c : Conn) : Conn :=
  let c := c.ackWindow (a.flags.getLsbD 4) (got.map (·.payload.length)).sum now
  { c with unacked := left, heard := if adv then a.ackpsn else c.heard, expiries := if adv then 0 else c.expiries,
           rnr := if c.rnr.any (fun r => got.any (fun p => p.psn == r)) then none else c.rnr, sends := c.sends.map (SendOp.counted got) }

/-- A connection whose timer is off. -/
def Conn.timerOff (adv : Bool) (c : Conn) : Conn := { c with timer := if adv then 50000 else c.timer, timerDue := none }

/-- A connection whose timer is armed. -/
def Conn.timerOn (ns due : Nat) (c : Conn) : Conn := { c with timer := ns, timerDue := some due }

/-- The timer after an acknowledgement: off, armed anew, or as it was. -/
def State.retimed (s : State) (n : Nat) (left : List SoPacket) (adv : Bool) : State :=
  if left = [] then s.modConn n (Conn.timerOff adv) else if adv then s.armTimer n 50000 else s

theorem State.takeAck_eq {s : State} {n : Nat} {c : Conn} (h : s.conn n = some c) (hst : c.st = .opened) (a : SoPacket) : s.takeAck n a =
    ((((s.modConn n (Conn.acknowledged a s.ticks (c.got a) (c.left a) (c.advances a))).retimed n (c.left a) (c.advances a)).completeSends n).pumpConn n) := by
  unfold State.takeAck
  rw [h]
  dsimp only
  rw [if_neg (not_not.mpr hst)]
  rfl

theorem Conn.ackWindow_spec (c : Conn) (echo : Bool) (n now : Nat) : ∃ w l, c.ackWindow echo n now = { c with window := w, lastHalved := l } := by
  unfold Conn.ackWindow
  split
  · split
    · exact ⟨c.window, c.lastHalved, rfl⟩
    · exact ⟨_, _, rfl⟩
  · exact ⟨_, c.lastHalved, rfl⟩

theorem Conn.acknowledged_spec (a : SoPacket) (now : Nat) (got left : List SoPacket) (adv : Bool) (c : Conn) :
    (c.acknowledged a now got left adv).num = c.num ∧ (c.acknowledged a now got left adv).unacked = left ∧
      (c.acknowledged a now got left adv).sends = c.sends.map (SendOp.counted got) := by
  obtain ⟨w, l, he⟩ := c.ackWindow_spec (a.flags.getLsbD 4) (got.map (·.payload.length)).sum now
  unfold Conn.acknowledged
  rw [he]
  exact ⟨rfl, rfl, rfl⟩

theorem State.armTimer_spec {s : State} {n : Nat} {c : Conn} (h : s.conn n = some c) (ns : Nat) : (s.armTimer n ns).conn n = some (c.timerOn ns (s.ticks + ns)) ∧
    (s.armTimer n ns).mem = s.mem ∧ (s.armTimer n ns).cmds = s.cmds ∧ (s.armTimer n ns).soTx = s.soTx ∧ ⟨s.ticks + ns, .retransmissionTimer n⟩ ∈ (s.armTimer n ns).agenda :=
  ⟨State.conn_modConn_some h (f := Conn.timerOn ns (s.ticks + ns)) (fun _ => rfl), rfl, rfl, rfl, (s.modConn n (Conn.timerOn ns (s.ticks + ns))).later_self ns _⟩

/-- The timer bears on nothing that is in flight. -/
theorem State.retimed_spec {s : State} {n : Nat} {c : Conn} (h : s.conn n = some c) (left : List SoPacket) (adv : Bool) : ∃ x,
    (s.retimed n left adv).conn n = some x ∧ x.unacked = c.unacked ∧ x.sends = c.sends ∧ (s.retimed n left adv).mem = s.mem ∧ (s.retimed n left adv).cmds = s.cmds := by
  unfold State.retimed
  split
  · exact ⟨_, State.conn_modConn_some h (f := Conn.timerOff adv) (fun _ => rfl), rfl, rfl, rfl, rfl⟩
  · split
    · obtain ⟨hconn, hmem, hcmds, -, -⟩ := State.armTimer_spec h 50000
      exact ⟨_, hconn, rfl, rfl, hmem, hcmds⟩
    · exact ⟨c, h, rfl, rfl, rfl, rfl⟩

/-- An acknowledgement takes away what it covers, and ends the SENDs whose packets it covers all. -/
theorem State.takeAck_spec {s : State} {n : Nat} {c : Conn} (h : s.conn n = some c) (hst : c.st = .opened) (a : SoPacket) (ho : ∀ o ∈ c.sends, o.formed = o.packets) :
    ((s.takeAck n a).conn n).map (·.unacked) = some (c.left a) ∧ (s.takeAck n a).mem = s.mem ∧
      ∀ o ∈ c.sends, (∀ q ∈ c.unacked, q.msn = o.msn → soCovers a q = true) → s.Sound o.cmd → (s.takeAck n a).Succeeded o.cmd := by
  obtain ⟨-, hunacked, hsends⟩ := Conn.acknowledged_spec a s.ticks (c.got a) (c.left a) (c.advances a) c
  have hconn := State.conn_modConn_some h (f := Conn.acknowledged a s.ticks (c.got a) (c.left a) (c.advances a)) (fun x => (Conn.acknowledged_spec ..).1)
  obtain ⟨x, hx, hxu, hxs, hmem, hcmds⟩ := State.retimed_spec hconn (c.left a) (c.advances a)
  have hformed : ∀ o ∈ x.sends, o.formed = o.packets := by
    intro o hm
    rw [hxs, hsends] at hm
    obtain ⟨y, hy, rfl⟩ := List.mem_map.mp hm
    exact ho y hy
  obtain ⟨hleft, hkept, hdone⟩ := State.completeSends_spec hx hformed
  rw [State.takeAck_eq h hst]
  refine ⟨hleft.trans (congrArg some (hxu.trans hunacked)), hkept.trans hmem, fun o hin hcov hsound => ?_⟩
  have hfin : SendOp.counted (c.got a) o ∈ x.doneSends := by
    refine List.mem_filter.mpr ⟨by rw [hxs, hsends]; exact List.mem_map_of_mem hin, ?_⟩
    have hnone : (c.left a).any (fun p => p.msn == o.msn) = false := by
      refine List.any_eq_false.mpr (fun q hq hmsn => ?_)
      obtain ⟨hq, hout⟩ := List.mem_filter.mp hq
      rw [hcov q hq (eq_of_beq hmsn)] at hout
      cases hout
    have hwhole : o.formed = o.packets := ho o hin
    rw [hxu, hunacked]
    show (o.formed == o.packets && !(c.left a).any (fun p => p.msn == o.msn)) = true
    rw [hwhole, hnone, beq_self_eq_true]
    rfl
  have hstill : ((s.modConn n (Conn.acknowledged a s.ticks (c.got a) (c.left a) (c.advances a))).retimed n (c.left a) (c.advances a)).Sound o.cmd := by
    unfold State.Sound State.Succeeded State.cmd
    rw [hcmds]
    exact hsound
  exact hdone (SendOp.counted (c.got a) o) hfin hstill

/-! ## RNR (R76) -/

/-- The earliest refused packet, after one more refusal. -/
def firstRefused (r : Option Word) (psn : Word) : Word :=
  match r with
  | some r => if (psn - r).toNat < 2 ^ 31 then r else psn
  | none => psn

/-- A connection that sends again from a packet on. -/
def Conn.refusedFrom (r : Word) (c : Conn) : Conn := { c with rnr := some r }

/-- A refusal of a packet in flight: the connection sends again from the earliest refused one on, 20 µs later. -/
theorem State.takeRnr_spec {s : State} {n : Nat} {c : Conn} (h : s.conn n = some c) (hst : c.st = .opened) {p : SoPacket} (hp : ∃ q ∈ c.unacked, q.psn = p.psn) :
    ((s.takeRnr n p).conn n).map (·.rnr) = some (some (firstRefused c.rnr p.psn)) ∧
      ((∀ x ∈ s.agenda, x.ev ≠ .rnrResend n) → ⟨s.ticks + 20000, .rnrResend n⟩ ∈ (s.takeRnr n p).agenda) ∧ (s.takeRnr n p).mem = s.mem := by
  obtain ⟨q, hq, hpsn⟩ := hp
  have hin : c.unacked.any (fun q => q.psn == p.psn) = true := List.any_eq_true.mpr ⟨q, hq, by rw [hpsn]; exact beq_self_eq_true _⟩
  have heq : s.takeRnr n p = if (s.modConn n (Conn.refusedFrom (firstRefused c.rnr p.psn))).agenda.any (fun t => t.ev == .rnrResend n) then
      s.modConn n (Conn.refusedFrom (firstRefused c.rnr p.psn)) else (s.modConn n (Conn.refusedFrom (firstRefused c.rnr p.psn))).later 20000 (.rnrResend n) := by
    unfold State.takeRnr
    rw [h]
    dsimp only
    rw [hin, if_neg (by simp [hst])]
    rfl
  have hconn := State.conn_modConn_some h (f := Conn.refusedFrom (firstRefused c.rnr p.psn)) (fun _ => rfl)
  rw [heq]
  split
  case isTrue hany =>
    refine ⟨congrArg _ hconn, fun hno => ?_, rfl⟩
    obtain ⟨x, hx, hev⟩ := List.any_eq_true.mp hany
    exact absurd (eq_of_beq hev) (hno x hx)
  case isFalse => exact ⟨congrArg _ hconn, fun _ => State.later_self _ 20000 _, rfl⟩

/-! ## Packets sent again by the timer (R81) -/

/-- What the timer of a connection leaves when every packet in flight can be sent again. -/
theorem State.retransmit_spec {s : State} {n : Nat} {c : Conn} (h : s.conn n = some c) (hps : ∀ p ∈ c.unacked, Claims.resendable s c p) (k ns : Nat) : ∃ qs,
    (((s.modConn n (Conn.backedOff k)).resend c c.unacked).armTimer n ns).soTx = s.soTx ++ qs ∧ qs.map (·.psn) = c.unacked.map (·.psn) ∧
      (∀ q ∈ qs, q.flags.getLsbD 2 = true ∧ q.crc = soCrc q) ∧
      (((s.modConn n (Conn.backedOff k)).resend c c.unacked).armTimer n ns).conn n = some ((c.backedOff k).timerOn ns (s.ticks + ns)) ∧
      ⟨s.ticks + ns, .retransmissionTimer n⟩ ∈ (((s.modConn n (Conn.backedOff k)).resend c c.unacked).armTimer n ns).agenda := by
  obtain ⟨qs, hqs, hpsn, hall⟩ := State.resend_spec (s := s.modConn n (Conn.backedOff k)) hps
  have hback : (s.modConn n (Conn.backedOff k)).conn n = some (c.backedOff k) := State.conn_modConn_some h (fun _ => rfl)
  obtain ⟨harmed, -, -, hsent, hagenda⟩ := State.armTimer_spec (s := { s.modConn n (Conn.backedOff k) with soTx := s.soTx ++ qs }) hback ns
  rw [hqs]
  exact ⟨qs, hsent, hpsn, hall, harmed, hagenda⟩

/-! ## DATA at a connection (R76, R80) -/

/-- DATA in sequence whose buffer can be written: its bytes are placed, and E advances. -/
theorem State.takeData_placed {s : State} {n : Nat} {p : SoPacket} {c : Conn} (h : s.conn n = some c) (hst : c.st = .opened) (hp : p.psn = c.expect) (hacc : c.accepted = [])
    {b : RecvBuf} (hb : c.bufs.find? (fun b => b.msn == p.msn) = some b) {d : Command} (hd : s.cmd b.cmd = some d) (hcode : b.code = 0) (hne : p.payload ≠ [])
    (hlen : p.moff.toNat + p.payload.length ≤ b.len) {segs : List (Nat × Nat)} (hspan : s.span d (d.cap 1) p.moff.toNat p.payload.length true = .mem segs)
    (hl : s.spanLatched true (.mem segs) = false) (hbad : s.segsBad segs = false) :
    (s.takeData n p).Expects n (s.spanWrite d p.payload (.mem segs)).mem (c.expect + 1) := by
  have hnum : c.num = n := State.conn_num h
  have hmarked := State.conn_marked h p
  rw [State.takeData_buffered h hst hp (by rw [hacc]; exact List.not_mem_nil) hb]
  obtain ⟨cs, hcs⟩ := s.marked_spec n p
  rw [hcs] at hmarked ⊢
  have hplace := State.placeAt_mem (s := { s with conns := cs }) hd hcode hne hlen hspan hl hbad
  have hadv : advanceE 1025 c.expect (p.psn :: c.accepted) = (c.expect + 1, []) := by
    rw [hp, hacc]
    exact advanceE_one ..
  have hconn := (State.conn_of_conns (homeWork_spanWrite { s with conns := cs } d p.payload segs).conns n).trans hmarked
  rw [← hnum] at hconn ⊢
  have hdone := State.acceptData_placed hplace hadv hconn
  rw [SameTables.spanWrite_mem (s := s) (t := { s with conns := cs }) ⟨rfl, rfl, rfl⟩] at hdone
  exact hdone

/-- DATA in sequence without a buffer is refused. -/
theorem State.takeData_refused {s : State} {n : Nat} {p : SoPacket} {c : Conn} (h : s.conn n = some c) (hst : c.st = .opened) (hp : p.psn = c.expect) (hnew : p.psn ∉ c.accepted)
    (hb : c.bufs.find? (fun b => b.msn == p.msn) = none) : ∃ r, (s.takeData n p).soTx = s.soTx ++ [r] ∧ r.kind = 3 ∧ r.psn = p.psn ∧ Claims.ofConnection s c r ∧
      (s.takeData n p).mem = s.mem := by
  obtain ⟨cs, hcs⟩ := s.marked_spec n p
  rw [State.takeData_bufferless h hst hp hnew hb, hcs]
  exact ⟨State.rnrOf { s with conns := cs } c p.psn, rfl, rfl, rfl, ofConnection_rnrOf rfl c p.psn, rfl⟩

/-- DATA that was received before is acknowledged again. -/
theorem State.takeData_acked {s : State} {n : Nat} {p : SoPacket} {c : Conn} (h : s.conn n = some c) (hst : c.st = .opened) (ho : 2 ^ 31 ≤ (p.psn - c.expect).toNat) :
    ∃ a, (s.takeData n p).soTx = s.soTx ++ [a] ∧ a.kind = 2 ∧ a.ackpsn = c.expect ∧ Claims.ofConnection s c a ∧ (s.takeData n p).mem = s.mem := by
  have hmarked := State.conn_marked h p
  obtain ⟨cs, hcs⟩ := s.marked_spec n p
  rw [State.takeData_old h hst ho]
  rw [hcs] at hmarked ⊢
  rw [State.sendAck_eq hmarked]
  have hof : Claims.ofConnection s c (State.ackOf { s with conns := cs } (c.marked p)) ∧ (State.ackOf { s with conns := cs } (c.marked p)).ackpsn = c.expect := by
    unfold Conn.marked
    split <;> exact ⟨⟨rfl, rfl, rfl, rfl, rfl⟩, rfl⟩
  exact ⟨_, rfl, rfl, hof.2, hof.1, rfl⟩

/-- Settles O45: connections by their list, commands that end by the folds over them, packets sent again one by one, and received packets by what their connection does with each kind. -/
theorem scaleOut : Obligations.scale_out := by
  unfold Obligations.scale_out
  refine ⟨⟨fun s n asid ep con hn hf hc => ?opening, fun s n c h => ⟨fun hst => ?closing, fun hst => ?peer, fun hst hs => ?delayed, 
      fun due hst hu hd hle => ⟨fun hr hk => ?expired, fun hk hps => ?timer⟩, fun r hst hr hps => ?resend, fun port hroom hstage => ?fetch⟩⟩, fun s p rest c h hconn => ?_⟩
  case opening => exact ⟨_, _, exec_connectionOpen hn hf hc asid ep con, find_appended rfl, rfl, rfl, rfl, rfl, rfl, rfl, rfl, rfl, rfl, rfl, rfl, rfl, rfl⟩
  case closing => exact ⟨_, exec_connectionClose h hst, State.closed_spec h⟩
  case peer => exact ⟨_, rfl, State.errorConn_spec h hst⟩
  case delayed =>
    refine ⟨_, s.ackOf c, exec_delayedAck h hst hs, ?_, ofConnection_ackOf rfl c, rfl, rfl, fun k hk => s.ackOf_sack c hk, ?_⟩
    · rw [State.sendAck_eq h]
    · rw [State.sendAck_eq h]
      exact State.conn_modConn_some h (f := Conn.ackSent) (fun _ => rfl)
  case expired => exact ⟨_, exec_retransmissionTimer_error h hst hu hd hle hr hk, (State.errorConn_spec h hst).1⟩
  case timer =>
    obtain ⟨qs, hspec⟩ := State.retransmit_spec h hps c.expired (min 6400000 (2 * c.timer))
    exact ⟨_, qs, exec_retransmissionTimer h hst hu hd hle hk, hspec⟩
  case resend =>
    obtain ⟨qs, hqs, hpsn, hall⟩ := State.resend_spec (s := s) (c := c) (ps := c.unacked.filter (fun p => decide ((p.psn - r).toNat < 2 ^ 31)))
      (fun p hp => hps p (List.mem_of_mem_filter hp))
    exact ⟨_, qs, (exec_rnrResend h hst hr).trans (congrArg _ hqs), rfl, rfl, hpsn, fun q hq => (hall q hq).1⟩
  case fetch =>
    obtain ⟨hconns, hmem⟩ := State.over_pokes (s.connCmds n) { s.stamp.modConn n (Conn.fetched s.fresh) with staging := s.staging.filter (fun x => x.2.dstCon.toNat != n) }
    refine ⟨_, exec_contextFetch h hroom hstage port, (State.conn_of_conns hconns n).trans ?_, hmem⟩
    exact State.conn_modConn_some (s := s.stamp) (f := Conn.fetched s.fresh) h (fun _ => rfl)
  dsimp only
  have htaken := State.conn_soTaken hconn rest
  refine ⟨fun i hi hoff hroom => ?staged, fun hk hon hst => ⟨fun b d segs hp hacc hb hd hcode hne hlen hspan hl hbad => ?placed, fun hp hnew hb => ?refused, fun hold hh => ?old⟩,
    fun hk hon hst ho => ?ack, fun hk hon hst hp => ?rnr⟩
  case staged =>
    obtain ⟨a, heq, hin⟩ := State.arriveSo_staged (s := { s with soRx := rest }) hconn hoff hroom
    exact ⟨_, ((exec_recvSo hi).trans (State.recvSo_head h rfl (State.soHeld_offChip hconn hoff))).trans (congrArg _ heq), rfl, rfl, rfl, hin⟩
  case placed =>
    have hdone := State.takeData_placed htaken hst hp hacc hb hd hcode hne hlen hspan hl hbad
    obtain ⟨hmem, hexpect⟩ := hdone
    rw [SameTables.spanWrite_mem (s := s) (t := s.soTaken rest p.dstCon.toNat) ⟨rfl, rfl, rfl⟩] at hmem
    refine ⟨_, exec_scaleout h hconn hon (State.soHeld_reached hconn hb hd hlen hspan hl) (.inl ⟨hk, rfl⟩), ?_⟩
    rw [State.takeSo_data _ hk]
    exact ⟨hmem, hexpect⟩
  case refused =>
    obtain ⟨r, hspec⟩ := State.takeData_refused htaken hst hp hnew hb
    refine ⟨_, r, exec_scaleout h hconn hon (State.soHeld_bufferless hconn hb) (.inl ⟨hk, rfl⟩), ?_⟩
    rw [State.takeSo_data _ hk]
    exact hspec
  case old =>
    obtain ⟨a, hspec⟩ := State.takeData_acked htaken hst hold
    refine ⟨_, a, exec_scaleout h hconn hon hh (.inl ⟨hk, rfl⟩), ?_⟩
    rw [State.takeSo_data _ hk]
    exact hspec
  case ack =>
    obtain ⟨hleft, hmem, hdone⟩ := State.takeAck_spec htaken hst p ho
    refine ⟨_, exec_scaleout h hconn hon (s.soHeld_kind (by rw [hk]; decide)) (.inr (.inl ⟨hk, rfl⟩)), ?_⟩
    rw [State.takeSo_ack _ hk]
    exact ⟨hleft, hmem, fun o d hin hcov hd hlive => hdone o hin hcov (.inr ⟨d, hd, hlive⟩)⟩
  case rnr =>
    refine ⟨_, exec_scaleout h hconn hon (s.soHeld_kind (by rw [hk]; decide)) (.inr (.inr ⟨hk, rfl⟩)), ?_⟩
    rw [State.takeSo_rnr _ hk]
    exact State.takeRnr_spec htaken hst hp

end Sys2Proof.Machine
end

section
/-! PROOFS. Power-on, firmware, memory die by die, ACCEPT and RAISE (R94 to R98, R102, R103, O50). -/

namespace Sys2Proof.Machine

/-! ## The check of an image (R97, R98) -/

/-- What the check of an image changes: the step, the error, what is known of the image, and the agenda. -/
theorem State.verify_eq (s : State) (image : List Byte) :
    ∃ st err v d a, s.verify image = { s with mg := { s.mg with step := st, booterr := err, imageVersion := v, imageDigest := d }, agenda := a } := by
  unfold State.verify
  dsimp only
  split
  · exact ⟨_, _, _, _, s.agenda, rfl⟩
  · split
    · exact ⟨_, _, _, _, s.agenda, rfl⟩
    · split
      · exact ⟨_, _, _, _, s.agenda, rfl⟩
      · exact ⟨_, _, _, _, _, rfl⟩

theorem State.verify_kept (s : State) (image : List Byte) : (s.verify image).mg.mgmt = s.mg.mgmt ∧ (s.verify image).mem = s.mem := by
  obtain ⟨_, _, _, _, _, he⟩ := s.verify_eq image
  rw [he]
  exact ⟨rfl, rfl⟩

theorem imageTaken_verify (s : State) (image : List Byte) : Claims.imageTaken (s.verify image) (Claims.imageCode s image) := by
  unfold State.verify Claims.imageCode
  dsimp only
  by_cases hsig : s.mg.vendorKeys.any (fun k => Config.ed25519Verify k (Config.sha512 (Config.imageParts image).2.2) (Config.imageParts image).2.1) = false
  · rw [if_pos hsig, if_pos (by rw [hsig]; rfl)]
    exact ⟨rfl, rfl⟩
  rw [if_neg hsig, if_neg (by simpa using hsig)]
  by_cases hold : (Config.imageParts image).1 < s.mg.rollback
  · rw [if_pos hold, if_pos hold]
    exact ⟨rfl, rfl⟩
  rw [if_neg hold, if_neg hold]
  by_cases hwrong : s.healthy.any (fun d => s.boot.wrong.getLsbD d) = true
  · rw [if_pos hwrong, if_pos hwrong]
    exact ⟨rfl, rfl⟩
  · rw [if_neg hwrong, if_neg hwrong]
    exact ⟨rfl, rfl, State.later_self ..⟩

/-- The state after a restart, with the management registers as the sequence begins with them. -/
def State.restartWith (s : State) (m : Mgmt) : State := { s.restart with mg := m }

/-- A look at the image after a restart: nothing runs, no service is up, and the image is judged as it would have been before. -/
theorem restart_verify (s : State) {m : Mgmt} (hk : m.vendorKeys = s.mg.vendorKeys) (hr : m.rollback = s.mg.rollback) (hl : m.limited = false) (hf : m.full = false)
    (image : List Byte) :
    Claims.nothingRuns ((s.restartWith m).verify image) ∧ ((s.restartWith m).verify image).mg.limited = false ∧ ((s.restartWith m).verify image).mg.full = false ∧
      Claims.imageTaken ((s.restartWith m).verify image) (Claims.imageCode s image) := by
  have hcode : Claims.imageCode s image = Claims.imageCode (s.restartWith m) image := by
    unfold Claims.imageCode State.restartWith
    dsimp only
    rw [hk, hr]
    rfl
  rw [hcode]
  obtain ⟨_, _, _, _, _, he⟩ := (s.restartWith m).verify_eq image
  refine ⟨?_, ?_, ?_, imageTaken_verify (s.restartWith m) image⟩
  · rw [he]
    exact ⟨rfl, rfl, rfl, rfl, rfl⟩
  · rw [he]
    exact hl
  · rw [he]
    exact hf

theorem exec_ctrlFwgo {s : State} (hm : s.mg.mgmt = true) (hh : s.healthy ≠ []) (ht : s.takeover = none) (hs : s.mg.step = 1 ∨ s.mg.step = 15) :
    exec .ctrlFwgo s = .next ((s.restartWith { s.restart.mg with fromStage := true }).verify s.stagedImage) := by
  rw [show exec .ctrlFwgo s = .next (s.command .ctrlFwgo State.fwgo) from rfl, State.command_free ht, State.fwgo, if_pos ⟨hm, hh, hs⟩]
  rfl

theorem exec_ctrlReset {s : State} (hm : s.mg.mgmt = true) (hh : s.healthy ≠ []) (ht : s.takeover = none) :
    exec .ctrlReset s = .next ((s.restartWith { s.restart.mg with step := 1, noFull := false }).verify s.mg.flash) := by
  rw [show exec .ctrlReset s = .next (s.command .ctrlReset State.resetCtrl) from rfl, State.command_free ht, State.resetCtrl, if_neg (by simp [hm, hh])]
  rfl

/-- Step 1 of the sequence: management reaches the package over the link. -/
def State.linked (s : State) : State := { s with mg := { s.mg with mgmt := true, step := 1 } }

theorem exec_pcieLinkTrained {s : State} (hm : s.mg.mgmt = false) :
    exec .pcieLinkTrained s = .next (if s.healthy = [] then { s with mg := { s.mg with mgmt := true } } else s.linked.verify s.mg.flash) :=
  congrArg Host.Outcome.next (if_neg (by rw [hm]; decide))

/-! ## Power-good (R97, R109) -/

/-- The healthy pairs that power-good finds, ascending. -/
def healthyDies (h : BitVec 4) : List Nat := (List.range 4).filter (fun d => h.getLsbD d)

theorem healthyDies_none : healthyDies 0 = [] := rfl

/-- The lowest of them comes first. -/
theorem healthyDies_lowest {h : BitVec 4} {d : Nat} (hd : d < 4) (hh : h.getLsbD d = true) (hlow : ∀ e, e < d → h.getLsbD e = false) : ∃ ds, healthyDies h = d :: ds := by
  refine List.head?_eq_some_iff.mp ?_
  rw [healthyDies, List.head?_filter, List.find?_range_eq_some]
  exact ⟨hh, List.mem_range.mpr hd, fun e he => by rw [hlow e he]; rfl⟩

/-- The state in which power-good looks for a leader. -/
def State.poweredUp (s : State) (up : PowerUp) : State :=
  { s.restart with
    mem := Mem.empty, keyed := [], bad := [], hurts := [], mgmtOut := [], power := State.reset.power, boot := up.found, takeover := none,
    agenda := s.restart.agenda.filter (fun t => t.ev != .leaderBeat && t.ev != .leaderTakeover),
    svc := (List.range 4).map (fun d => SvcPair.mk (up.healthy.getLsbD d) s.ticks false),
    mg := { Mgmt.reset with flash := s.mg.flash, vendorKeys := s.mg.vendorKeys, rollback := s.mg.rollback } }

theorem State.poweredUp_healthy (s : State) (up : PowerUp) : (s.poweredUp up).healthy = healthyDies up.healthy := by
  refine List.filter_congr (fun d hd => ?_)
  show (((List.range 4).map (fun d => SvcPair.mk (up.healthy.getLsbD d) s.ticks false)).getD d _).healthy = _
  rw [List.getD_eq_getElem?_getD, List.getElem?_map, List.getElem?_range (List.mem_range.mp hd)]
  rfl

theorem exec_powerGood (up : PowerUp) (s : State) :
    exec (.powerGood up) s = .next (match healthyDies up.healthy with
      | [] => { s.poweredUp up with mg := { (s.poweredUp up).mg with booterr := 7 } }
      | d :: _ => (State.later { s.poweredUp up with mg := { (s.poweredUp up).mg with leader := BitVec.ofNat 2 d } } 0 .leaderBeat).later 300000 .leaderTakeover) := by
  rw [← s.poweredUp_healthy up]
  rfl

/-! ## What is logged (R108) -/

/-- From s to t of the management registers the log alone may have changed. -/
structure Logged (s t : State) : Prop where
  mg : ∃ log hd, t.mg = { s.mg with errlog := log, errhead := hd }

theorem Logged.same {s t : State} (h : t.mg = s.mg) : Logged s t := ⟨s.mg.errlog, s.mg.errhead, h⟩

theorem Logged.refl (s : State) : Logged s s := .same rfl

theorem Logged.trans {s t u : State} (h : Logged s t) (h' : Logged t u) : Logged s u := by
  obtain ⟨_, _, ht⟩ := h.mg
  obtain ⟨log, hd, hu⟩ := h'.mg
  exact ⟨log, hd, by rw [hu, ht]⟩

theorem Logged.over {α : Type} {f : State → α → State} (h : ∀ s x, Logged s (f s x)) (xs : List α) (s : State) : Logged s (s.over xs f) :=
  State.over_keeps (P := Logged s) (fun u x hu => hu.trans (h u x)) xs (.refl s)

theorem HomeWork.logged {s t : State} (h : HomeWork s t) : Logged s t := by
  obtain ⟨_, _, _, _, _, _, _, log, hd, _, _, _, rfl⟩ := h
  exact ⟨⟨log, hd, rfl⟩⟩

theorem Freed.logged {s t : State} (h : Freed s t) : Logged s t := by
  obtain ⟨_, _, _, _, _, _, _, rfl⟩ := h
  exact .same rfl

theorem logged_send (s : State) (p : Packet) : Logged s (s.send p) := by
  obtain ⟨_, _, he⟩ := sent_send s p
  rw [he]
  exact .same rfl

theorem logged_request {s t : State} {p : Packet} {kind : TxKind} {core n : Nat} {key : HamperKey} (h : s.request p kind core key = some (t, n)) : Logged s t := by
  unfold State.request at h
  obtain ⟨tag, -, ht⟩ := Option.map_eq_some_iff.mp h
  obtain ⟨rfl, -⟩ := Prod.mk.inj ht
  have hsent (ts : List Tx) (n d : Nat) (q : Packet) : Logged s ((State.flipEpoch { s with txs := ts, fresh := n } d tag).send q) :=
    .trans (t := State.flipEpoch { s with txs := ts, fresh := n } d tag) (.same rfl) (logged_send ..)
  dsimp only
  split
  all_goals exact (hsent ..).trans (.same rfl)

/-- A notify cell is raised, or waits. -/
theorem logged_wakeCell (s : State) (x : Nat × Nat) : Logged s (s.wakeCell x) := by
  unfold State.wakeCell
  dsimp only
  split
  · split
    · exact .same rfl
    · split
      · exact (homeTouched_logLost ..).homeWork.logged
      · exact (homeWork_homeStore ..).logged
  · split
    · exact .refl s
    · split
      case h_1 => exact .same rfl
      case h_2 h => exact logged_request h
  · split
    · exact .same rfl
    · exact .refl s
  · exact .refl s

theorem logged_wakesAgain (s : State) : Logged s s.wakesAgain := by
  have hwaiting : Logged s { s with wakes := [] } := .same rfl
  exact hwaiting.trans (.over logged_wakeCell s.wakes _)

theorem logged_releaseRec (s : State) (die n : Nat) : Logged s (s.releaseRec die n) := by
  rw [State.releaseRec_eq]
  have hgo : Freed s (((s.dispatchRec die n false).wakeAll (fun w => w.onRec die n)).commandsGo die n) :=
    (freed_dispatchRec ..).trans ((woken_wakeAll ..).freed.trans (poked_commandsGo ..).freed)
  exact hgo.logged.trans (logged_wakesAgain _)

theorem logged_releaseHeld (s : State) (die : Nat) : Logged s (s.releaseHeld die) := by
  let left : Hamper := { s.hamper die with batches := ((s.hamper die).batches.map (fun b => b.filter (fun r => !s.onlyHeld r.key))).filter (· != []) }
  have hset : Logged s (s.setHamper die left) := .same rfl
  exact hset.trans (Logged.over (f := fun u (r : HamperRec) => u.releaseRec die r.num) (fun u r => logged_releaseRec u die r.num) _ _)

/-! ## FULL (R97, R103) -/

/-- FULL is set, before what it releases. -/
def State.fullNow (s : State) : State :=
  let s := { s with mg := { s.mg with full := true, limited := false, step := 5, inForce := s.mg.accept.getD 0 0, rollback := max s.mg.rollback s.mg.imageVersion },
                    ft := { s.ft with lastPrimary := s.ticks } }
  { s with sync := { s.sync with epoch := if s.timeMaster = s.pos ∧ s.sync.epoch.isNone then some s.ticks else s.sync.epoch } }

theorem State.setFull_eq (s : State) : s.setFull = ((s.fullNow.over [0, 1, 2, 3] State.releaseHeld).later 10000 .heartbeatSend).later 30000 .standbyTakeover := rfl

/-- What setting FULL leaves in the management registers, apart from the log. -/
theorem logged_setFull (s : State) : Logged s.fullNow s.setFull := by
  rw [State.setFull_eq]
  exact (Logged.over logged_releaseHeld [0, 1, 2, 3] s.fullNow).trans (.same (by rw [State.later_mg, State.later_mg]))

theorem exec_ctrlRaise {s : State} (hm : s.mg.mgmt = true) (hp : s.power.stopped = false) (hn : s.mg.noFull = false) (ht : s.takeover = none) (hs : s.mg.step = 4)
    (ha : ∀ b ∈ s.mg.acceptWritten, b = true) :
    exec .ctrlRaise s = .next (if s.allInitialised then State.setFull { s with mg := { s.mg with raised := true } } else { s with mg := { s.mg with raised := true } }) := by
  rw [show exec .ctrlRaise s = .next (s.command .ctrlRaise State.raiseFull) from rfl, State.command_free ht, State.raiseFull,
    if_pos ⟨hm, by rw [hp]; rfl, by rw [hn]; rfl, hs, by simpa using ha⟩]
  rfl

theorem State.raiseFull_barred {s : State} (h : s.mg.noFull = true) : s.raiseFull = s := by simp [State.raiseFull, h]

/-! ## Memory, die by die (R97, R98) -/

theorem cellsGet_filter (p : Nat → Bool) (cs : List Host.Cell) (a : Nat) : cellsGet (cs.filter (fun c => p c.1)) a = if p a then cellsGet cs a else 0 := by
  induction cs with
  | nil => simp [cellsGet]
  | cons c cs ih =>
    by_cases hc : p c.1 = true
    · rw [List.filter_cons_of_pos (by simpa using hc), cellsGet, cellsGet, ih]
      by_cases ha : a = c.1 <;> simp [ha, hc]
    · rw [List.filter_cons_of_neg (by simpa using hc), cellsGet, ih]
      by_cases ha : a = c.1 <;> simp [ha, hc]

theorem State.clearDie_get (s : State) (die a : Nat) : (s.clearDie die).mem.get a = if a / Config.dieBytes = die then 0 else s.mem.get a := by
  refine (cellsGet_filter (fun a => a / Config.dieBytes != die) s.mem.cells a).trans ?_
  by_cases ha : a / Config.dieBytes = die
  · rw [if_pos ha, if_neg (by simp [ha])]
  · rw [if_neg ha, if_pos (by simpa using ha)]
    rfl

/-- A die's memory has come up. -/
def State.dieUp (s : State) (d : Nat) : State :=
  let t : State := { s.clearDie d with dies := s.dies.set d ⟨true, false⟩ }
  if d = 0 then t.setLimited else t

/-- A die whose memory may come up: the others wait for die 0, a failure ends the sequence, and success clears the die. -/
theorem exec_dieMemoryInitialised {s : State} {d : Fin 4} {x : DieState} (hx : s.dies[d.val]? = some x) (hi : x.initialised = false) (hu : x.unusable = false)
    (hp : s.power.stopped = false) (hs : s.mg.step = 3 ∨ s.mg.step = 4) (ok : Bool) :
    exec (.dieMemoryInitialised d ok) s = .next (
      if d.val ≠ 0 ∧ !s.mg.limited then s.later 1000000 (.dieMemoryInitialised d ok)
      else if !ok then State.bootFail { s with dies := s.dies.set d.val ⟨false, true⟩, mg := { s.mg with noFull := s.mg.limited } } 6
      else if (s.dieUp d.val).mg.step = 4 ∧ (s.dieUp d.val).mg.raised ∧ (s.dieUp d.val).allInitialised then (s.dieUp d.val).setFull else s.dieUp d.val) := by
  have hd : s.dies.getD d.val ⟨false, false⟩ = x := by rw [List.getD_eq_getElem?_getD, hx]; rfl
  have hgo : ¬(s.power.stopped ∨ (s.mg.step ≠ 3 ∧ s.mg.step ≠ 4) ∨ (s.dies.getD d.val ⟨false, false⟩).initialised ∨ (s.dies.getD d.val ⟨false, false⟩).unusable) := by
    rw [hd, hp, hi, hu]
    simpa [or_iff_not_imp_left] using hs
  exact congrArg Host.Outcome.next (if_neg hgo)

theorem State.dieUp_dies (s : State) (d : Nat) : (s.dieUp d).dies = s.dies.set d ⟨true, false⟩ := by
  unfold State.dieUp
  dsimp only
  split <;> rfl

theorem State.dieUp_get (s : State) (d a : Nat) : (s.dieUp d).mem.get a = if a / Config.dieBytes = d then 0 else s.mem.get a := by
  refine Eq.trans ?_ (s.clearDie_get d a)
  unfold State.dieUp
  dsimp only
  split <;> rfl

theorem State.dieUp_first (s : State) : (s.dieUp 0).mg.limited = true ∧ (s.dieUp 0).mg.step = 4 := ⟨rfl, rfl⟩

theorem State.dieUp_raised (s : State) (d : Nat) : (s.dieUp d).mg.raised = s.mg.raised := by
  unfold State.dieUp
  dsimp only
  split <;> rfl

/-! ## Pairs that lock (R16, R97) -/

/-- From s to t pairs may have been trained, substituted and logged; memory, what power-on found and every other management register are as they were. -/
def Locking (s t : State) : Prop :=
  ∃ ps a sp tr log hd, t = { s with pairs := ps, agenda := a, spares := sp, tray := tr, mg := { s.mg with errlog := log, errhead := hd } }

theorem Locking.refl (s : State) : Locking s s := ⟨s.pairs, s.agenda, s.spares, s.tray, s.mg.errlog, s.mg.errhead, rfl⟩

theorem Locking.trans {s t u : State} (h : Locking s t) (h' : Locking t u) : Locking s u := by
  obtain ⟨_, _, _, _, _, _, rfl⟩ := h
  obtain ⟨ps, a, sp, tr, log, hd, rfl⟩ := h'
  exact ⟨ps, a, sp, tr, log, hd, rfl⟩

theorem Locking.over {α : Type} {f : State → α → State} (h : ∀ s x, Locking s (f s x)) (xs : List α) (s : State) : Locking s (s.over xs f) :=
  State.over_keeps (P := Locking s) (fun u x hu => hu.trans (h u x)) xs (.refl s)

theorem locking_setTray (s : State) (k : Nat) (t : TrayLink) : Locking s (s.setTray k t) := ⟨s.pairs, s.agenda, s.spares, _, s.mg.errlog, s.mg.errhead, rfl⟩

theorem locking_traySend (s : State) (k : Nat) (p : Packet) : Locking s (s.traySend k p) := ⟨s.pairs, s.agenda, s.spares, _, s.mg.errlog, s.mg.errhead, rfl⟩

theorem locking_setPair (s : State) (p : Nat) (v : Pair) : Locking s (s.setPair p v) := ⟨_, s.agenda, s.spares, s.tray, s.mg.errlog, s.mg.errhead, rfl⟩

theorem locking_later (s : State) (n : Nat) (ev : Instr) : Locking s (s.later n ev) := ⟨s.pairs, _, s.spares, s.tray, s.mg.errlog, s.mg.errhead, rfl⟩

theorem locking_logError (s : State) (asid whr unit kind : Nat) : Locking s (s.logError asid whr unit kind) := ⟨s.pairs, s.agenda, s.spares, s.tray, _, _, rfl⟩

theorem locking_failTray (s : State) (k : Nat) : Locking s (s.failTray k) := by
  unfold State.failTray
  refine .trans ?_ (.over (fun u t => locking_later u 0 _) _ _)
  dsimp only
  split
  · exact locking_setTray ..
  · exact (locking_setTray ..).trans (.over (fun u p => locking_traySend u _ p) _ _)

/-- A spare is taken for a pair, where there is one: no lane and no condition of any pair changes. -/
theorem State.takeSpare_pair (s : State) (p : Fin 64) (k : Nat) : ∃ o, (s.takeSpare p).pair k = { s.pair k with substituting := o } := by
  have hset (u : State) (q : Nat) (n : Option Nat) (hu : ∃ o, u.pair k = { s.pair k with substituting := o }) :
      ∃ o, (u.setPair q { s.pair q with substituting := n }).pair k = { s.pair k with substituting := o } := by
    obtain ⟨o, ho⟩ := hu
    rw [State.pair_setPair]
    split
    case isTrue h =>
      subst h
      exact ⟨n, rfl⟩
    case isFalse => exact ⟨o, ho⟩
  have hself : ∃ o, s.pair k = { s.pair k with substituting := o } := ⟨_, rfl⟩
  unfold State.takeSpare
  split
  · exact hself
  · dsimp only
    split
    · exact hset { s with spares := s.spares + 1 } p.val _ hself
    · exact hset _ p.val _ (hset { s with spares := s.spares + 1 } _ _ hself)

theorem locking_takeSpare (s : State) (p : Fin 64) : Locking s (s.takeSpare p) := by
  have hspare : Locking s { s with spares := s.spares + 1 } := ⟨s.pairs, s.agenda, _, s.tray, s.mg.errlog, s.mg.errhead, rfl⟩
  unfold State.takeSpare
  split
  · exact .refl s
  · dsimp only
    split
    · exact (hspare.trans (locking_setPair ..)).trans (locking_later ..)
    · exact ((hspare.trans (locking_setPair ..)).trans (locking_setPair ..)).trans (locking_later ..)

/-- A tray link whose pair is dark and gets no spare fails with it (R16, R86). -/
theorem locking_trayDown (s : State) (p : Nat) :
    Locking s (match s.pairUse p with
      | .tray k => if (s.pair p).substituting.isSome then s else s.failTray k
      | _ => s) := by
  split
  · split
    · exact .refl s
    · exact locking_failTray ..
  · exact .refl s

/-- The state in which a dark pair has been marked and a spare taken for it. -/
def State.markDark (s : State) (p : Nat) : State := ((s.logError 0 p 5 4).setPair p { s.pair p with failedNow := true }).takeSpare ⟨p % 64, Nat.mod_lt p (by decide)⟩

theorem State.lockPair_dark {s : State} {p : Nat} (h : s.boot.dark.getLsbD p = true) :
    Locking (s.markDark p) (s.lockPair p) ∧ LinksKept (s.markDark p) (s.lockPair p) := by
  have he : s.lockPair p = (match (s.markDark p).pairUse p with
      | .tray k => if ((s.markDark p).pair p).substituting.isSome then s.markDark p else (s.markDark p).failTray k
      | _ => s.markDark p) := if_neg (by rw [h]; decide)
  rw [he]
  exact ⟨locking_trayDown .., linksKept_trayDown ..⟩

theorem State.lockPair_trained {s : State} {p : Nat} (h : s.boot.dark.getLsbD p = false) : s.lockPair p = s.trainPair p := if_pos (by rw [h]; rfl)

theorem locking_lockPair (s : State) (p : Nat) : Locking s (s.lockPair p) := by
  cases h : s.boot.dark.getLsbD p with
  | false =>
    obtain ⟨a, he⟩ := s.trainPair_eq p
    rw [State.lockPair_trained h, he]
    exact ⟨_, a, s.spares, s.tray, s.mg.errlog, s.mg.errhead, rfl⟩
  | true =>
    exact (locking_logError ..).trans ((locking_setPair ..).trans ((locking_takeSpare ..).trans (State.lockPair_dark h).1))

/-- A pair has locked, or is marked as failed because its wavelengths are dark. -/
def State.lockKnown (s : State) (p : Nat) : Prop := if s.boot.dark.getLsbD p = true then (s.pair p).failedNow = true else (s.pair p).works = true

theorem Locking.lockKnown {s t : State} (h : Locking s t) {p : Nat} (hf : (t.pair p).failedNow = (s.pair p).failedNow) (hw : (t.pair p).works = (s.pair p).works)
    (hk : s.lockKnown p) : t.lockKnown p := by
  obtain ⟨_, _, _, _, _, _, he⟩ := h
  have hb : t.boot = s.boot := by rw [he]
  unfold State.lockKnown
  rw [hb, hf, hw]
  exact hk

/-- What a dark pair leaves of the pairs' condition. -/
theorem State.lockPair_dark_pair {s : State} {p : Nat} (h : s.boot.dark.getLsbD p = true) (k : Nat) :
    ((s.lockPair p).pair k).failedNow = (if k = p then true else (s.pair k).failedNow) ∧ (k ≠ p → ((s.lockPair p).pair k).works = (s.pair k).works) := by
  obtain ⟨o, ho⟩ := State.takeSpare_pair ((s.logError 0 p 5 4).setPair p { s.pair p with failedNow := true }) ⟨p % 64, Nat.mod_lt p (by decide)⟩ k
  have hfed := (State.lockPair_dark h).2.pair k
  have hmark : (s.markDark p).pair k = { (if k = p then { s.pair p with failedNow := true } else s.pair k) with substituting := o } :=
    ho.trans (by rw [State.pair_setPair]; rfl)
  refine ⟨?_, fun hk => ?_⟩
  · rw [hfed.failed, hmark]
    split <;> rfl
  · rw [hfed.works, hmark, if_neg hk]
    rfl

/-- Locking a pair makes its condition known, and leaves that of the others. -/
theorem State.lockPair_known {s : State} {p k : Nat} (h : k = p ∨ s.lockKnown k) : (s.lockPair p).lockKnown k := by
  have hlock := locking_lockPair s p
  have hboot : (s.lockPair p).boot = s.boot := by
    obtain ⟨_, _, _, _, _, _, he⟩ := hlock
    rw [he]
  by_cases hk : k = p
  · subst hk
    unfold State.lockKnown
    rw [hboot]
    cases hd : s.boot.dark.getLsbD k with
    | true => rw [if_pos rfl, (State.lockPair_dark_pair hd k).1, if_pos rfl]
    | false =>
      rw [if_neg (by decide), State.lockPair_trained hd]
      exact State.trainPair_works (.inl rfl)
  · have hknown := h.resolve_left hk
    cases hd : s.boot.dark.getLsbD p with
    | true =>
      obtain ⟨hf, hw⟩ := State.lockPair_dark_pair hd k
      exact hlock.lockKnown (hf.trans (if_neg hk)) (hw hk) hknown
    | false =>
      obtain ⟨a, he⟩ := s.trainPair_eq p
      have hp : (s.lockPair p).pair k = s.pair k := by
        rw [State.lockPair_trained hd, he]
        exact (State.pair_setPair ..).trans (if_neg hk)
      exact hlock.lockKnown (by rw [hp]) (by rw [hp]) hknown

theorem State.over_lockPair_known {ps : List Nat} {s : State} {k : Nat} (h : k ∈ ps ∨ s.lockKnown k) : (s.over ps State.lockPair).lockKnown k := by
  induction ps generalizing s with
  | nil => exact h.resolve_left List.not_mem_nil
  | cons p ps ih =>
    refine ih (s := s.lockPair p) ?_
    rcases h with h | h
    · rcases List.mem_cons.mp h with hk | hk
      · exact .inr (State.lockPair_known (.inl hk))
      · exact .inl hk
    · exact .inr (State.lockPair_known (.inr h))

/-! ## Calibration (R97, R98) -/

/-- The pairs of the scale-out ports and of the tray links. -/
def portAndTrayPairs : List Nat := (List.range 13).map portPair ++ (List.range 4).map trayPair

/-- Step 3 is reached: a die with a stack that is not trained is unusable. -/
def State.lookedAt (s : State) : State := { s with mg := { s.mg with step := 3 }, dies := (List.range 4).map (fun d => DieState.mk false (s.untrained d)) }

/-- Calibration with clocks that lock, before its end: the pairs are locked and the dies' stacks looked at. -/
def State.calibrated (s : State) : State := (s.over portAndTrayPairs State.lockPair).lookedAt.beginFrames

theorem exec_recalibration {s : State} (hs : s.mg.step = 2) :
    exec .recalibration s = .next (if s.boot.clocks = true then (if [0, 1, 2, 3].any s.calibrated.untrained then s.calibrated.bootFail 5 else s.calibrated) else s.bootFail 4) := by
  refine congrArg Host.Outcome.next ((if_pos hs).trans ?_)
  unfold State.calibrate
  cases hc : s.boot.clocks with
  | true => exact if_neg (by decide)
  | false => exact if_pos rfl

/-- From s to t operations have been put on the agenda, and nothing else has changed. -/
def Planned (s t : State) : Prop := ∃ a, t = s.withAgenda a

theorem Planned.trans {s t u : State} (h : Planned s t) (h' : Planned t u) : Planned s u := by
  obtain ⟨_, rfl⟩ := h
  obtain ⟨a, rfl⟩ := h'
  exact ⟨a, rfl⟩

theorem planned_at (s : State) (due : Nat) (ev : Instr) : Planned s (s.at due ev) := ⟨_, rfl⟩

theorem planned_beginFrames (s : State) : Planned s s.beginFrames := by
  unfold State.beginFrames
  refine .trans (.trans (.trans (.trans ?_ (planned_at ..)) (planned_at ..)) (planned_at ..)) (planned_at ..)
  exact .trans (.trans (.trans (planned_at ..) (planned_at ..)) (planned_at ..)) (planned_at ..)

/-- What calibration leaves: the dies without memory, step 3, and of the rest the pairs, the log and the agenda. -/
theorem State.calibrated_spec (s : State) : s.calibrated.mem = s.mem ∧ s.calibrated.boot = s.boot ∧ s.calibrated.mg.step = 3 ∧ s.calibrated.mg.booterr = s.mg.booterr ∧
    s.calibrated.dies = (List.range 4).map (fun d => ⟨false, s.untrained d⟩) ∧ ∀ p, s.calibrated.pair p = (s.over portAndTrayPairs State.lockPair).pair p := by
  obtain ⟨_, _, _, _, _, _, he⟩ := Locking.over locking_lockPair portAndTrayPairs s
  unfold State.calibrated
  generalize s.over portAndTrayPairs State.lockPair = u at he
  obtain ⟨a, ha⟩ := planned_beginFrames u.lookedAt
  rw [ha, he]
  exact ⟨rfl, rfl, rfl, rfl, rfl, fun _ => rfl⟩

/-- The pairs of the ports and tray links after calibration: those whose wavelengths are dark have failed, and the others work. -/
theorem State.calibrated_locked (s : State) {p : Nat} (hp : p ∈ portAndTrayPairs) :
    if s.boot.dark.getLsbD p = true then (s.calibrated.pair p).failedNow = true else (s.calibrated.pair p).works = true := by
  have hknown := State.over_lockPair_known (s := s) (k := p) (.inl hp)
  obtain ⟨_, _, _, _, _, _, he⟩ := Locking.over locking_lockPair portAndTrayPairs s
  have hboot : (s.over portAndTrayPairs State.lockPair).boot = s.boot := by rw [he]
  obtain ⟨-, -, -, -, -, hpair⟩ := s.calibrated_spec
  unfold State.lockKnown at hknown
  rw [hpair, ← hboot]
  exact hknown

/-- Some stack is untrained just where the report says so. -/
theorem State.any_untrained (s : State) : [0, 1, 2, 3].any s.untrained = true ↔ s.boot.untrained ≠ 0 := by
  have hbits : s.boot.untrained ≠ 0 ↔ ∃ i, i < 12 ∧ s.boot.untrained.getLsbD i = true := by
    refine ⟨fun h => ?_, fun ⟨i, _, hi⟩ h => ?_⟩
    · by_contra hnone
      refine h (BitVec.eq_of_getLsbD_eq (fun i hi => ?_))
      refine Eq.trans ?_ BitVec.getLsbD_zero.symm
      exact Bool.eq_false_iff.mpr (fun he => hnone ⟨i, hi, he⟩)
    · rw [h] at hi
      exact absurd (BitVec.getLsbD_zero.symm.trans hi) (by decide)
  rw [hbits]
  refine ⟨fun h => ?_, fun ⟨i, hi, hbit⟩ => ?_⟩
  · obtain ⟨d, hd, h⟩ := List.any_eq_true.mp h
    obtain ⟨k, hk, h⟩ := List.any_eq_true.mp h
    exact ⟨3 * d + k, by simp at hd hk; omega, h⟩
  · refine List.any_eq_true.mpr ⟨i / 3, by simp; omega, List.any_eq_true.mpr ⟨i % 3, by simp; omega, ?_⟩⟩
    rw [Nat.div_add_mod]
    exact hbit

/-! ## The events -/

/-- Power-good: the package as at reset, with a leader where a pair is healthy. -/
theorem powerGood_spec (s : State) (h : BitVec 4) (b : BootReport) :
    ∃ t, exec (.powerGood ⟨h, b⟩) s = .next t ∧ t.boot = b ∧ t.mem = Mem.empty ∧ Claims.nothingRuns t ∧ t.mg.mgmt = false ∧ t.mg.limited = false ∧ t.mg.full = false ∧
      t.mg.step = 0 ∧ t.mg.flash = s.mg.flash ∧ (h = 0 → t.mg.booterr = 7) ∧
      ∀ d, d < 4 → h.getLsbD d = true → (∀ e, e < d → h.getLsbD e = false) → t.mg.leader.toNat = d ∧ t.mg.booterr = 0 := by
  rw [exec_powerGood]
  refine ⟨_, rfl, ?_⟩
  cases hd : healthyDies h with
  | nil =>
    refine ⟨rfl, rfl, ⟨rfl, rfl, rfl, rfl, rfl⟩, rfl, rfl, rfl, rfl, rfl, fun _ => rfl, fun d hlt hh hlow => ?_⟩
    obtain ⟨ds, he⟩ := healthyDies_lowest hlt hh hlow
    rw [hd] at he
    cases he
  | cons e es =>
    refine ⟨rfl, rfl, ⟨rfl, rfl, rfl, rfl, rfl⟩, rfl, rfl, rfl, rfl, rfl, fun h0 => ?_, fun d hlt hh hlow => ⟨?_, rfl⟩⟩
    · rw [h0, healthyDies_none] at hd
      cases hd
    · obtain ⟨ds, he⟩ := healthyDies_lowest hlt hh hlow
      rw [hd] at he
      cases he
      exact Nat.mod_eq_of_lt hlt

/-- Calibration: a clock that fails ends the sequence, and so does a stack, once the pairs are locked. -/
theorem recalibration_spec {s : State} (hs : s.mg.step = 2) :
    (s.boot.clocks = false → ∃ t, exec .recalibration s = .next t ∧ t.mg.step = 15 ∧ t.mg.booterr = 4) ∧
    (s.boot.clocks = true → ∃ t, exec .recalibration s = .next t ∧ t.mem = s.mem ∧ t.dies = (List.range 4).map (fun d => ⟨false, s.untrained d⟩) ∧
      (s.boot.untrained = 0 → t.mg.step = 3 ∧ t.mg.booterr = s.mg.booterr) ∧ (s.boot.untrained ≠ 0 → t.mg.step = 15 ∧ t.mg.booterr = 5) ∧
      ∀ p ∈ portAndTrayPairs, if s.boot.dark.getLsbD p = true then (t.pair p).failedNow = true else (t.pair p).works = true) := by
  rw [exec_recalibration hs]
  obtain ⟨hmem, hboot, hstep, herr, hdies, -⟩ := s.calibrated_spec
  have huntrained : s.calibrated.untrained = s.untrained := by
    unfold State.untrained
    rw [hboot]
  refine ⟨fun hc => ?_, fun hc => ?_⟩
  · rw [hc]
    exact ⟨_, rfl, rfl, rfl⟩
  · have hlocked : ∀ p ∈ portAndTrayPairs, _ := fun p hp => s.calibrated_locked hp
    rw [hc, if_pos rfl, huntrained]
    generalize s.calibrated = u at hmem hstep herr hdies hlocked ⊢
    by_cases hany : [0, 1, 2, 3].any s.untrained = true
    · have hne := s.any_untrained.mp hany
      rw [if_pos hany]
      exact ⟨_, rfl, hmem, hdies, fun h => absurd h hne, fun _ => ⟨rfl, rfl⟩, hlocked⟩
    · have heq : s.boot.untrained = 0 := not_not.mp (fun h => hany (s.any_untrained.mpr h))
      rw [if_neg hany]
      exact ⟨_, rfl, hmem, hdies, fun _ => ⟨hstep, herr⟩, fun h => absurd heq h, hlocked⟩

/-- A die's memory: it waits for die 0, ends the sequence, or comes up cleared. -/
theorem dieMemoryInitialised_spec {s : State} {d : Fin 4} {x : DieState} (hx : s.dies[d.val]? = some x) (hi : x.initialised = false) (hu : x.unusable = false)
    (hp : s.power.stopped = false) (hs : s.mg.step = 3 ∨ s.mg.step = 4) :
    (d.val ≠ 0 → s.mg.limited = false → ∀ ok, exec (.dieMemoryInitialised d ok) s = .next (s.later 1000000 (.dieMemoryInitialised d ok))) ∧
    (d.val = 0 ∨ s.mg.limited = true →
      (∃ t, exec (.dieMemoryInitialised d false) s = .next t ∧ t.mg.step = 15 ∧ t.mg.booterr = 6 ∧ t.dies[d.val]? = some ⟨false, true⟩ ∧ t.mg.limited = s.mg.limited ∧
        t.mg.noFull = s.mg.limited ∧ t.mem = s.mem) ∧
      (s.mg.raised = false → ∃ t, exec (.dieMemoryInitialised d true) s = .next t ∧ t.dies[d.val]? = some ⟨true, false⟩ ∧ (d.val = 0 → t.mg.limited = true ∧ t.mg.step = 4) ∧
        ∀ a, t.mem.get a = (if a / Config.dieBytes = d.val then 0 else s.mem.get a))) := by
  have hexec := exec_dieMemoryInitialised hx hi hu hp hs
  have hlen : d.val < s.dies.length := (List.getElem?_eq_some_iff.mp hx).1
  refine ⟨fun hd hl ok => ?_, fun hgo => ?_⟩
  · rw [hexec, if_pos ⟨hd, by rw [hl]; rfl⟩]
  have hready : ¬(d.val ≠ 0 ∧ !s.mg.limited) := by
    rintro ⟨hd, hl⟩
    rw [hgo.resolve_left hd] at hl
    cases hl
  refine ⟨?_, fun hr => ?_⟩
  · rw [hexec, if_neg hready, if_pos (by decide)]
    exact ⟨_, rfl, rfl, rfl, List.getElem?_set_self hlen, rfl, rfl, rfl⟩
  · have hnot : ¬((s.dieUp d.val).mg.step = 4 ∧ (s.dieUp d.val).mg.raised ∧ (s.dieUp d.val).allInitialised) := by
      rw [s.dieUp_raised, hr]
      rintro ⟨-, h, -⟩
      cases h
    rw [hexec, if_neg hready, if_neg (by decide), if_neg hnot]
    refine ⟨_, rfl, ?_, fun hd => ?_, s.dieUp_get d.val⟩
    · rw [s.dieUp_dies]
      exact List.getElem?_set_self hlen
    · rw [hd]
      exact s.dieUp_first

/-- RAISE where it is honoured: FULL follows at once when every die has its memory. -/
theorem ctrlRaise_spec {s : State} (hm : s.mg.mgmt = true) (hp : s.power.stopped = false) (hn : s.mg.noFull = false) (ht : s.takeover = none) (hs : s.mg.step = 4)
    (ha : ∀ b ∈ s.mg.acceptWritten, b = true) :
    ∃ t, exec .ctrlRaise s = .next t ∧ t.mg.raised = true ∧
      ((∀ x ∈ s.dies, x.initialised = true) → Claims.fullSet s t) ∧ ((∃ x ∈ s.dies, x.initialised = false) → t.mg.full = s.mg.full) := by
  rw [exec_ctrlRaise hm hp hn ht hs ha]
  refine ⟨_, rfl, ?_⟩
  obtain ⟨_, _, hfull⟩ := (logged_setFull { s with mg := { s.mg with raised := true } }).mg
  cases hall : s.allInitialised with
  | true =>
    have heach : ∀ x ∈ s.dies, x.initialised = true := List.all_eq_true.mp hall
    rw [if_pos rfl]
    unfold Claims.fullSet
    rw [hfull]
    refine ⟨rfl, fun _ => ⟨rfl, rfl, rfl, rfl, rfl⟩, fun ⟨x, hx, hno⟩ => ?_⟩
    rw [heach x hx] at hno
    cases hno
  | false =>
    rw [if_neg (by decide)]
    refine ⟨rfl, fun heach => ?_, fun _ => rfl⟩
    rw [State.allInitialised, List.all_eq_true.mpr heach] at hall
    cases hall

/-- Settles O50: an image is judged as the restart leaves what judges it, calibration by the pairs it locks, a die by where the sequence stands, and FULL by what it releases, which touches the log alone. -/
theorem bringUpEvents : Obligations.bring_up_events := by
  refine ⟨?powerGood, ?linkTrained, ?restarts, ?calibration, ?dies, ?accept, ?barred, ?raise⟩
  case powerGood => exact powerGood_spec
  case linkTrained =>
    intro s
    cases hm : s.mg.mgmt with
    | true => exact ⟨s, congrArg Host.Outcome.next (if_pos hm), hm, rfl, fun h => by cases h⟩
    | false =>
      rw [exec_pcieLinkTrained hm]
      by_cases hh : s.healthy = []
      · rw [if_pos hh]
        exact ⟨_, rfl, rfl, rfl, fun _ h => absurd hh h⟩
      · rw [if_neg hh]
        obtain ⟨hmgmt, hmem⟩ := s.linked.verify_kept s.mg.flash
        exact ⟨_, rfl, hmgmt, hmem, fun _ _ => imageTaken_verify s.linked s.mg.flash⟩
  case restarts =>
    intro s hm hh ht
    refine ⟨fun hs => ?_, ?_⟩
    · obtain ⟨hruns, -, -, htaken⟩ := restart_verify s (m := { s.restart.mg with fromStage := true }) rfl rfl rfl rfl s.stagedImage
      exact ⟨_, exec_ctrlFwgo hm hh ht hs, hruns, htaken⟩
    · obtain ⟨hruns, hl, hf, htaken⟩ := restart_verify s (m := { s.restart.mg with step := 1, noFull := false }) rfl rfl rfl rfl s.mg.flash
      exact ⟨_, exec_ctrlReset hm hh ht, hruns, hl, hf, htaken⟩
  case calibration => exact fun s hs => recalibration_spec hs
  case dies => exact fun s d x hx hi hu hp hs => dieMemoryInitialised_spec hx hi hu hp hs
  case accept =>
    intro s i v hm hf
    exact ⟨_, congrArg Host.Outcome.next (if_pos (by rw [hm, hf]; rfl)), rfl, rfl⟩
  case barred =>
    intro s hn ht
    rw [show exec .ctrlRaise s = .next (s.command .ctrlRaise State.raiseFull) from rfl, State.command_free ht, State.raiseFull_barred hn]
  case raise => exact fun s hm hp hn ht hs ha => ctrlRaise_spec hm hp hn ht hs ha

end Sys2Proof.Machine
end

section
/-! PROOFS. An MMA that waits behind a stalled command of its queue, whatever its operands are worth (R218, R279; O38). -/

namespace Sys2Proof.Machine

/-- A running command that still waits behind a stalled one of its queue does not act (R218). -/
theorem exec_tokenCompletion_behindStall {s : State} {n : Nat} {c : Command} (hc : s.cmd n = some c) (hs : s.cmdStopped c = false) (hr : c.st = .running)
    (hb : s.behindStall c = true) : exec (.tokenCompletion n) s = .next s := by
  rw [show exec (.tokenCompletion n) s = execTokenCompletion n s from rfl, execTokenCompletion, hc]
  dsimp only
  rw [hs, if_neg (by decide), hr]
  exact congrArg Host.Outcome.next (if_pos hb)

/-- An MMA of one row, column and step, with its index vector at byte 0 of the scratchpad, that has not begun. -/
def unbegunMma : Command :=
  { id := 4, eng := .mangle 0, q := 0, kind := .mma, launch := 1, wgid := 0, g := 3, asid := 1, core := 0, scope := 0,
    blk := (List.range 64).map (fun i => if i = 4 ∨ i = 6 ∨ i = 8 ∨ i = 10 ∨ i = 40 then 1 else if i = 41 then 0x10 else 0),
    caps := [], st := .running, prog := 0, sent := 0, acked := 0, cuts := [], code := 0, err := false, count := 0, deps := [], exps := [], phase := 0, buf := [],
    todo := [], win := [], fault := 0, mark := none }

/-- A command before it in the same queue, stalled on record 0 of the Hamper of die 0. -/
def stalledBefore : Command := { unbegunMma with id := 3, st := .stalled 0 0 ⟨1, 3, some 0, false⟩ }

/-- Both commands in the queue of a Mangle whose gang is on its core, and byte 0 of the scratchpad uncorrectable. -/
def mmaBehindStall : State :=
  { State.reset with
    launches := [loadLaunch], wgs := [Wg.start loadLaunch 0 0], gangs := [⟨1, 0, .running, [0], false, false, false, 0, 0⟩],
    cmds := [stalledBefore, unbegunMma], hurts := [.scratch 1 0 0] }

theorem mmaBehindStall_waits : exec (.tokenCompletion 4) mmaBehindStall = .next mmaBehindStall :=
  exec_tokenCompletion_behindStall (c := unbegunMma) (by decide +kernel) (by decide +kernel) rfl (by decide +kernel)

/-- Refutes O38: its clause on MMA does not ask that no command stalls before the MMA in its queue, and behind a stalled one an MMA that would read a hurt byte stays as it is. -/
theorem not_onChipLosses : ¬ Obligations.on_chip_losses := by
  unfold Obligations.on_chip_losses
  rintro ⟨-, -, -, -, -, hmma⟩
  obtain ⟨y, hy⟩ : ∃ y, (mblock unbegunMma.blk).lay = some y := Option.isSome_iff_exists.mp (by decide +kernel)
  obtain ⟨t, hexec, hended, -⟩ := hmma mmaBehindStall 4 0 unbegunMma loadLaunch y (by decide +kernel) (by decide +kernel) rfl rfl (by decide +kernel) hy
    (.inl ⟨rfl, by decide +kernel⟩) (by decide +kernel)
  obtain rfl : mmaBehindStall = t := Host.Outcome.next.inj (mmaBehindStall_waits.symm.trans hexec)
  exact absurd hended (by decide +kernel)

end Sys2Proof.Machine
end

section
/-! PROOFS. Which workgroups stand on which cores, and in which state their gangs are: what wakes, write-backs and engines leave as it was (R137, R234, R268). -/

namespace Sys2Proof.Machine

/-! ## Gangs that are woken (R137) -/

/-- A gang after a wake. -/
def Gang.wakened (g : Gang) : Gang :=
  match g.st with
  | .saved => { g with asleep := false }
  | .halting => { g with woken := true }
  | .saving => { g with woken := true }
  | _ => g

@[simp] theorem Gang.wakened_st (g : Gang) : g.wakened.st = g.st := by unfold Gang.wakened; split <;> rfl
@[simp] theorem Gang.wakened_launch (g : Gang) : g.wakened.launch = g.launch := by unfold Gang.wakened; split <;> rfl
@[simp] theorem Gang.wakened_index (g : Gang) : g.wakened.index = g.index := by unfold Gang.wakened; split <;> rfl
@[simp] theorem Gang.wakened_cores (g : Gang) : g.wakened.cores = g.cores := by unfold Gang.wakened; split <;> rfl

/-- A second wake changes nothing. -/
theorem Gang.wakened_wakened (g : Gang) : g.wakened.wakened = g.wakened := by
  cases hst : g.st <;> simp [Gang.wakened, hst]

/-- A wake is kept for the gangs that do not run alone. -/
theorem Gang.wakened_of_running {g : Gang} (h : g.st.live = true) : g.wakened = g := by
  cases hst : g.st <;> simp_all [Gang.wakened, GangSt.live]

/-- A gang as it was, or woken since. -/
def Gang.Stirred (g h : Gang) : Prop := h = g ∨ h = g.wakened

theorem Gang.Stirred.refl (g : Gang) : g.Stirred g := .inl rfl

theorem Gang.Stirred.trans {g h k : Gang} (hgh : g.Stirred h) (hhk : h.Stirred k) : g.Stirred k := by
  rcases hgh with rfl | rfl
  · exact hhk
  · rcases hhk with rfl | rfl
    · exact .inr rfl
    · exact .inr (Gang.wakened_wakened g)

theorem Gang.Stirred.launch {g h : Gang} (hs : g.Stirred h) : h.launch = g.launch := by rcases hs with rfl | rfl <;> simp
theorem Gang.Stirred.index {g h : Gang} (hs : g.Stirred h) : h.index = g.index := by rcases hs with rfl | rfl <;> simp

theorem Gang.Stirred.of_live {g h : Gang} (hs : g.Stirred h) (hg : g.st.live = true) : h = g := by
  rcases hs with rfl | rfl
  · rfl
  · exact Gang.wakened_of_running hg

/-! ## What stays -/

/-- What a workgroup is to the placer, whatever its fibres do. -/
def Wg.seat (w : Wg) : Nat × Nat × Nat × Nat × Bool := (w.launch, w.wgid, w.gang, w.core, w.placed)

/-- From s to t nothing has been placed, halted or taken off its cores: gangs have been woken at most. -/
structure PlacementKept (s t : State) : Prop where
  seats : t.wgs.map Wg.seat = s.wgs.map Wg.seat
  gangs : List.Forall₂ Gang.Stirred s.gangs t.gangs
  holds : t.holds = s.holds
  cursors : t.cursors = s.cursors
  ftime : t.ftime = s.ftime
  table : t.launches.map (fun L => (L.id, L.nextGang)) = s.launches.map (fun L => (L.id, L.nextGang))

theorem PlacementKept.seated {s t : State} (hw : t.wgs.map Wg.seat = s.wgs.map Wg.seat) (hg : t.gangs = s.gangs) (hh : t.holds = s.holds) (hc : t.cursors = s.cursors)
    (hf : t.ftime = s.ftime) (hl : t.launches = s.launches) : PlacementKept s t :=
  ⟨hw, hg ▸ List.forall₂_same.mpr (fun g _ => .refl g), hh, hc, hf, congrArg _ hl⟩

theorem PlacementKept.same {s t : State} (hw : t.wgs = s.wgs) (hg : t.gangs = s.gangs) (hh : t.holds = s.holds) (hc : t.cursors = s.cursors)
    (hf : t.ftime = s.ftime) (hl : t.launches = s.launches) : PlacementKept s t := .seated (congrArg _ hw) hg hh hc hf hl

theorem PlacementKept.refl (s : State) : PlacementKept s s := .same rfl rfl rfl rfl rfl rfl

theorem stirred_trans {xs ys zs : List Gang} (h : List.Forall₂ Gang.Stirred xs ys) (h' : List.Forall₂ Gang.Stirred ys zs) : List.Forall₂ Gang.Stirred xs zs := by
  induction h generalizing zs with
  | nil => exact h'
  | cons hx _ ih =>
    cases h' with
    | cons hy hys => exact .cons (hx.trans hy) (ih hys)

theorem PlacementKept.trans {s t u : State} (h : PlacementKept s t) (h' : PlacementKept t u) : PlacementKept s u :=
  ⟨h'.seats.trans h.seats, stirred_trans h.gangs h'.gangs, h'.holds.trans h.holds, h'.cursors.trans h.cursors, h'.ftime.trans h.ftime, h'.table.trans h.table⟩

/-- The same, told from the last change back to the first. -/
theorem PlacementKept.after {s t u : State} (h : PlacementKept t u) (h' : PlacementKept s t) : PlacementKept s u := h'.trans h

theorem PlacementKept.over {α : Type} {f : State → α → State} (h : ∀ s x, PlacementKept s (f s x)) (xs : List α) (s : State) : PlacementKept s (s.over xs f) :=
  State.over_keeps (P := PlacementKept s) (fun u x hu => hu.trans (h u x)) xs (.refl s)

theorem PlacementKept.ite {c : Prop} [Decidable c] {s t u : State} (h : PlacementKept s t) (h' : PlacementKept s u) : PlacementKept s (if c then t else u) := by
  split
  · exact h
  · exact h'

theorem HomeTouched.placementKept {s t : State} (h : HomeTouched s t) : PlacementKept s t := by
  obtain ⟨_, _, _, _, _, _, _, rfl⟩ := h
  exact .same rfl rfl rfl rfl rfl rfl

theorem Poked.placementKept {s t : State} (h : Poked s t) : PlacementKept s t := by
  obtain ⟨_, _, rfl⟩ := h
  exact .same rfl rfl rfl rfl rfl rfl

/-- A gang that is found is found after a wake, as it was or woken. -/
theorem find_stirred {l k : Nat} {xs ys : List Gang} (h : List.Forall₂ Gang.Stirred xs ys) {g : Gang} (hg : xs.find? (fun x => x.launch == l && x.index == k) = some g) :
    ∃ x, ys.find? (fun x => x.launch == l && x.index == k) = some x ∧ g.Stirred x := by
  induction h with
  | nil => cases hg
  | @cons a b as bs hab _ ih =>
    rw [List.find?_cons] at hg ⊢
    rw [hab.launch, hab.index]
    cases hp : (a.launch == l && a.index == k) with
    | true =>
      rw [hp] at hg
      obtain rfl : a = g := Option.some.inj hg
      exact ⟨b, rfl, hab⟩
    | false =>
      rw [hp] at hg
      exact ih hg

theorem PlacementKept.gang {s t : State} (h : PlacementKept s t) {l k : Nat} {g : Gang} (hg : s.gang l k = some g) : ∃ x, t.gang l k = some x ∧ g.Stirred x :=
  find_stirred h.gangs hg

/-- A gang that runs or retires stays as it is. -/
theorem PlacementKept.gang_live {s t : State} (h : PlacementKept s t) {l k : Nat} {g : Gang} (hg : s.gang l k = some g) (hl : g.st.live = true) : t.gang l k = some g := by
  obtain ⟨x, hx, hs⟩ := h.gang hg
  rw [hx, hs.of_live hl]

theorem stirred_mem {xs ys : List Gang} (h : List.Forall₂ Gang.Stirred xs ys) {g : Gang} (hg : g ∈ xs) (hl : g.st.live = true) : g ∈ ys := by
  induction h with
  | nil => cases hg
  | cons hab _ ih =>
    rcases List.mem_cons.mp hg with rfl | hg
    · exact hab.of_live hl ▸ List.mem_cons_self
    · exact List.mem_cons_of_mem _ (ih hg)

theorem PlacementKept.mem_gangs {s t : State} (h : PlacementKept s t) {g : Gang} (hg : g ∈ s.gangs) (hl : g.st.live = true) : g ∈ t.gangs := stirred_mem h.gangs hg hl

/-- The workgroups before and after have the same seats. -/
theorem PlacementKept.seat_back {s t : State} (h : PlacementKept s t) {w : Wg} (hw : w ∈ t.wgs) : ∃ v ∈ s.wgs, v.seat = w.seat :=
  List.mem_map.mp (h.seats ▸ List.mem_map_of_mem hw)

theorem PlacementKept.ticks {s t : State} (h : PlacementKept s t) : t.ticks = s.ticks := congrArg BitVec.toNat h.ftime

/-! ## Fibres and wakes -/

theorem placementKept_modWg (s : State) (l w : Nat) {f : Wg → Wg} (hf : ∀ g, (f g).seat = g.seat) : PlacementKept s (s.modWg l w f) := by
  refine .seated ?_ rfl rfl rfl rfl rfl
  unfold State.modWg
  dsimp only
  rw [List.map_map]
  refine List.map_congr_left (fun g _ => ?_)
  dsimp only [Function.comp_apply]
  split
  · exact hf g
  · rfl

theorem placementKept_modFib (s : State) (id : FibId) (f : Fibre → Fibre) : PlacementKept s (s.modFib id f) := placementKept_modWg s _ _ (fun _ => rfl)

theorem placementKept_wakeGang (s : State) (id : FibId) : PlacementKept s (s.wakeGang id) := by
  unfold State.wakeGang
  split
  case h_1 => exact .refl s
  case h_2 L _ =>
    refine ⟨rfl, List.forall₂_map_right_iff.mpr (List.forall₂_same.mpr (fun g _ => ?_)), rfl, rfl, rfl, rfl⟩
    split
    · exact .inr rfl
    · exact .inl rfl

theorem placementKept_later (s : State) (ns : Nat) (ev : Instr) : PlacementKept s (s.later ns ev) := .same rfl rfl rfl rfl rfl rfl

theorem placementKept_modCore (s : State) (n : Nat) (f : Core → Core) : PlacementKept s (s.modCore n f) := .same rfl rfl rfl rfl rfl rfl

theorem placementKept_acquire (s : State) (n : Nat) : PlacementKept s (s.acquire n) := placementKept_modCore ..

theorem placementKept_wake (s : State) (id : FibId) : PlacementKept s (s.wake id) := by
  have hready := (placementKept_modFib s id (fun f => { f with wait := .none })).trans (placementKept_wakeGang _ id)
  unfold State.wake
  dsimp only
  split
  · exact hready
  · exact .ite (hready.trans (placementKept_acquire ..)) hready

theorem placementKept_wakeAll (s : State) (p : Wait → Bool) : PlacementKept s (s.wakeAll p) := .over placementKept_wake _ s

/-! ## Write-backs (R220, R221, R229) -/

theorem placementKept_homeWrite (s : State) (key : Nat) (ps : List (Nat × Byte)) : PlacementKept s (s.homeWrite key ps) := by
  obtain ⟨b, h, w, he⟩ := s.homeWrite_eq key ps
  rw [he]
  have hfill (u : State) (qs : List (Nat × Byte)) : PlacementKept u (u.homeFilled qs) := .over (fun _ _ => (homeTouched_homeTouch ..).placementKept) _ u
  refine .trans ?_ ((hfill _ _).trans (placementKept_wakeAll ..))
  exact .same rfl rfl rfl rfl rfl rfl

theorem placementKept_sectorLost (s : State) (core asid obj sector pa : Nat) : PlacementKept s (s.sectorLost core asid obj sector pa) := by
  refine .trans ?_ (.over (fun _ _ => (homeTouched_doom ..).placementKept) _ _)
  exact .same rfl rfl rfl rfl rfl rfl

theorem placementKept_writeBack (s : State) (core asid obj line : Nat) : PlacementKept s (s.writeBack core asid obj line) := by
  unfold State.writeBack
  split
  · exact .refl s
  · dsimp only
    split
    · exact placementKept_modCore ..
    · exact (placementKept_modCore ..).trans (.over (fun u k => .ite (.refl u) (.ite (placementKept_sectorLost ..) (placementKept_homeWrite ..))) _ _)

theorem placementKept_drainGo (s : State) (core : Nat) (xs : List (Nat × Nat × Nat)) : PlacementKept s (s.drainGo core xs).1 := by
  induction xs generalizing s with
  | nil => exact .refl s
  | cons x xs ih =>
    unfold State.drainGo
    split
    · exact .refl s
    · exact (placementKept_writeBack ..).trans (ih _)

theorem placementKept_releaseAll (s : State) (core scope : Nat) : PlacementKept s (s.releaseAll core scope).1 := by
  unfold State.releaseAll
  split
  · exact .refl s
  · exact placementKept_drainGo ..

theorem placementKept_relStep (s : State) (core scope : Nat) (mark : Option Nat) : PlacementKept s (s.relStep core scope mark).1 := by
  unfold State.relStep
  split
  · exact .refl s
  · unfold State.release
    split
    · exact .refl s
    · exact placementKept_drainGo ..

/-! ## Engines that serve their queues (R237, R268) -/

theorem placementKept_withCmds (s : State) (cs : List Command) : PlacementKept s { s with cmds := cs } := .same rfl rfl rfl rfl rfl rfl

theorem placementKept_startReleased (s : State) (c : Command) : PlacementKept s (s.startReleased c) := by
  have hrel := placementKept_relStep s c.core c.scope c.mark
  exact .ite (hrel.trans ((poked_modCmd ..).trans (poked_poke ..)).placementKept) (hrel.trans (poked_poke ..).placementKept)

theorem placementKept_serveCopy (s : State) (e : Eng) (q : Nat) : PlacementKept s (s.serveCopy e q) := by
  have hjoins : PlacementKept s (s.dropJoins e q) := placementKept_withCmds ..
  unfold State.serveCopy
  dsimp only
  split
  · exact .ite (hjoins.trans (placementKept_startReleased ..)) hjoins
  · exact hjoins

theorem placementKept_servePortGo (e : Eng) (q : Nat) (cs : List Command) (hold : Bool) (s : State) : PlacementKept s (State.servePortGo e q hold cs s) := by
  induction cs generalizing hold s with
  | nil => exact .refl s
  | cons c cs ih =>
    unfold State.servePortGo
    refine .ite (.ite ((placementKept_withCmds s _).trans (ih ..)) (.refl s)) (.trans ?_ (ih ..))
    exact .ite (placementKept_startReleased ..) (.refl s)

theorem placementKept_serveMangle (s : State) (core : Nat) : PlacementKept s (s.serveMangle core) := by
  have hjoins : PlacementKept s (s.over (List.range 4) (fun s q => s.dropJoins (.mangle core) q)) := .over (fun s _ => placementKept_withCmds s _) _ s
  unfold State.serveMangle
  dsimp only
  refine .ite hjoins ?_
  split
  · exact hjoins
  · exact hjoins.trans ((placementKept_modCore ..).trans (placementKept_startReleased ..))

theorem placementKept_serve (s : State) (e : Eng) : PlacementKept s (s.serve e) := by
  unfold State.serve
  split
  · exact placementKept_serveMangle ..
  · exact .over (fun s q => placementKept_serveCopy s _ q) _ s
  · exact .over (fun s q => placementKept_servePortGo _ q _ _ s) _ s

theorem placementKept_landCalendar (s : State) (e : MyExch) : PlacementKept s (s.landCalendar e) := by
  unfold State.landCalendar State.finishOk
  refine .trans ?_ ((poked_modCmd ..).trans (poked_poke ..)).placementKept
  exact (placementKept_modWg s _ _ (f := fun g => { g with scratch := g.scratch.write e.calOff (e.calendar.getD []) }) (fun _ => rfl)).trans (.same rfl rfl rfl rfl rfl rfl)

/-- The commands and tile accesses of a workgroup go on: no gang is placed or halted by it. -/
theorem placementKept_continueCmds (s : State) (l w core : Nat) : PlacementKept s (s.continueCmds l w core) := by
  unfold State.continueCmds
  dsimp only
  refine .after (.over placementKept_serve _ _) (.after (.over placementKept_landCalendar _ _) (.after (.over (fun u c => ?_) _ _) (.same rfl rfl rfl rfl rfl rfl)))
  refine .trans ?_ (poked_poke ..).placementKept
  split
  · exact .ite (placementKept_modCore ..) (.refl u)
  · exact .refl u

end Sys2Proof.Machine
end

section
/-! PROOFS. Gangs that are halted, saved, restored and retired (R137, R138, R145 to R148). -/

namespace Sys2Proof.Machine

/-! ## Replies that are taken up (R90, R199) -/

theorem placementKept_request {s t : State} {p : Packet} {kind : TxKind} {core n : Nat} {key : HamperKey} (h : s.request p kind core key = some (t, n)) :
    PlacementKept s t := by
  unfold State.request at h
  obtain ⟨tag, -, ht⟩ := Option.map_eq_some_iff.mp h
  obtain ⟨rfl, -⟩ := Prod.mk.inj ht
  have hsent (ts : List Tx) (n d : Nat) (q : Packet) : PlacementKept s ((State.flipEpoch { s with txs := ts, fresh := n } d tag).send q) := by
    unfold State.send
    split <;> exact .same rfl rfl rfl rfl rfl rfl
  dsimp only
  split
  case h_5 => exact (hsent ..).trans (placementKept_later ..)
  all_goals exact hsent ..

theorem placementKept_hostRequest {s t : State} {k : Nat} {p : Packet} {kind : HTxKind} {core len : Nat} {key : HamperKey} {n : Nat}
    (h : s.hostRequest k p kind core len key = some (t, n)) : PlacementKept s t := by
  unfold State.hostRequest at h
  obtain ⟨tag, -, ht⟩ := Option.map_eq_some_iff.mp h
  cases ht
  have hsent (hs : List HTx) (n ns : Nat) (failed : Bool) (q : Packet) (ev : Instr) :
      PlacementKept s (State.later (if failed then { s with htxs := hs, fresh := n } else State.traySend { s with htxs := hs, fresh := n } k q) ns ev) := by
    cases failed <;> exact .same rfl rfl rfl rfl rfl rfl
  exact hsent ..

theorem placementKept_deliverGo (id : FibId) (dst : Cap) (bs : List Byte) (n k : Nat) (s : State) : PlacementKept s (State.deliverGo id dst bs n k s).1 := by
  induction n generalizing k s with
  | zero => exact .refl s
  | succ n ih =>
    show PlacementKept s (Prod.fst (α := State) (β := Left) (if bs.length ≤ k then _ else _))
    split
    · exact .refl s
    · dsimp only
      split
      · split
        · exact .refl s
        · exact (placementKept_homeWrite ..).trans (ih ..)
      · split
        case h_1 => exact .refl s
        case h_2 hreq => exact (placementKept_hostRequest hreq).trans (ih ..)
      · split
        case h_1 => exact .refl s
        case h_2 hreq => exact (placementKept_request hreq).trans (ih ..)
      · split
        · exact .same rfl rfl rfl rfl rfl rfl
        · exact .refl s
      · exact .refl s

theorem placementKept_deliver (s : State) (id : FibId) (dst : Cap) (bs : List Byte) : PlacementKept s (s.deliver id dst bs) := by
  unfold State.deliver
  split
  · exact .refl s
  · split
    · exact (placementKept_modWg s id.launch id.wgid (f := fun g => { g with scratch := g.scratch.write dst.base.toNat bs }) (fun _ => rfl)).trans
        (.same rfl rfl rfl rfl rfl rfl)
    · have hgo := placementKept_deliverGo id dst bs bs.length 0 s
      split
      case h_1 he =>
        rw [he] at hgo
        exact hgo
      case h_2 he =>
        rw [he] at hgo
        exact .after (placementKept_modFib ..) hgo

theorem placementKept_giveSeg (s : State) (a seg : Nat) : PlacementKept s (s.giveSeg a seg) := by
  unfold State.giveSeg
  split <;> exact .same rfl rfl rfl rfl rfl rfl

theorem placementKept_finishReply (s : State) (id : FibId) (seg : Nat) : PlacementKept s (s.finishReply id seg) := by
  unfold State.finishReply
  exact .after (placementKept_wake ..) (.after (placementKept_giveSeg ..) (.after (placementKept_modFib ..) (.ite (placementKept_deliver ..) (.refl s))))

theorem placementKept_takeReplies (s : State) (l w : Nat) : PlacementKept s (s.takeReplies l w) := by
  refine .over (fun u x => ?_) _ s
  split
  · exact .ite (.refl u) (placementKept_finishReply ..)
  · exact .refl u

theorem placementKept_tilesAgain (s : State) : PlacementKept s s.tilesAgain := by
  obtain ⟨a, he⟩ := s.tilesAgain_spec
  rw [he]
  exact .same rfl rfl rfl rfl rfl rfl

theorem placementKept_retry (s : State) : PlacementKept s s.retry := by
  obtain ⟨a, he⟩ := s.retry_spec
  rw [he]
  exact .same rfl rfl rfl rfl rfl rfl

/-! ## One gang of the list -/

theorem State.key_of_gang {s : State} {l k : Nat} {g : Gang} (h : s.gang l k = some g) : g.launch = l ∧ g.index = k := by
  simpa using List.find?_some h

theorem State.gang_modGang (s : State) (l k : Nat) {f : Gang → Gang} (hf : ∀ g, (f g).launch = g.launch ∧ (f g).index = g.index) :
    (s.modGang l k f).gang l k = (s.gang l k).map f :=
  find_map_same (fun g : Gang => g.launch == l && g.index == k) f (fun g => by rw [(hf g).1, (hf g).2]) s.gangs

/-- An element that passes a test, of a list of which those that pass it have been changed. -/
theorem mem_map_tested {α : Type} {p : α → Bool} {f : α → α} {xs : List α} {y : α} (hy : y ∈ xs.map (fun x => if p x then f x else x))
    (h : p y = true) : ∃ x ∈ xs, p x = true ∧ y = f x := by
  obtain ⟨x, hx, rfl⟩ := List.mem_map.mp hy
  by_cases hpx : p x = true
  · exact ⟨x, hx, hpx, if_pos hpx⟩
  · rw [if_neg hpx] at h
    exact absurd h hpx

theorem State.pruneHolds_spec (s : State) : ∃ hs, s.pruneHolds = { s with holds := hs } := ⟨_, rfl⟩

/-! ## Halting (R138, R145) -/

/-- A gang without fibres is RETIRING, on the cores that it has. -/
theorem State.toRetiring_gang {s : State} {l k : Nat} {g : Gang} (h : s.gang l k = some g) :
    ((s.toRetiring g).gang l k).map (fun x => (x.st, x.cores)) = some (.retiring, g.cores) := by
  obtain ⟨rfl, rfl⟩ := State.key_of_gang h
  have hmod := s.gang_modGang g.launch g.index (f := fun g => { g with st := .retiring }) (fun _ => ⟨rfl, rfl⟩)
  rw [h] at hmod
  have hkept : PlacementKept (s.modGang g.launch g.index (fun g => { g with st := .retiring })) (s.toRetiring g) :=
    .over (fun _ _ => placementKept_continueCmds ..) _ _
  rw [hkept.gang_live hmod rfl]
  rfl

theorem State.halted_of {s : State} {l k : Nat} {g : Gang} {L : Launch} (h : s.gang l k = some g) (hst : g.st = .halting) (hL : s.launch l = some L)
    (ht : ∀ x ∈ s.tiles, x.launch = l → L.gangOf x.wgid = k → x.granted = []) : s.halted g = true := by
  obtain ⟨rfl, rfl⟩ := State.key_of_gang h
  unfold State.halted
  rw [hst, hL]
  refine Bool.and_eq_true_iff.mpr ⟨rfl, List.all_eq_true.mpr (fun x hx => ?_)⟩
  by_cases hmine : x.launch = g.launch ∧ L.gangOf x.wgid = g.index
  · simp [ht x hx hmine.1 hmine.2]
  · have hnot : (x.launch == g.launch && L.gangOf x.wgid == g.index) = false := by simpa using hmine
    rw [hnot]
    rfl

theorem exec_coreHalt_ended {s : State} {l k : Nat} {g : Gang} (h : s.gang l k = some g) (hh : s.halted g = true) (hf : s.gangFibres g = []) :
    exec (.coreHalt l k) s = .next (s.toRetiring g) := by
  show execCoreHalt l k s = _
  unfold execCoreHalt
  rw [h]
  dsimp only
  rw [if_neg (by simp [hh]), if_pos hf]

theorem exec_coreHalt_live {s : State} {l k : Nat} {g : Gang} (h : s.gang l k = some g) (hh : s.halted g = true) (hf : s.gangFibres g ≠ []) :
    exec (.coreHalt l k) s = .next ((s.mapGang l k (Fibre.halt s.ticks)).modGang l k (fun g => { g with st := .saving })) := by
  show execCoreHalt l k s = _
  unfold execCoreHalt
  rw [h]
  dsimp only
  rw [if_neg (by simp [hh]), if_neg hf]

/-- What a fibre goes on from. -/
def Fibre.resumePoint (f : Fibre) : Nat × Word × Nat := (f.fid, f.pc, f.seg)

theorem Fibre.apply_resumePoint (f : Fibre) (w : WB) : (f.apply w).resumePoint = f.resumePoint := by
  cases w <;> rfl

theorem Fibre.applyScored_resumePoint (ws : List WB) (f : Fibre) : (f.applyScored ws).resumePoint = f.resumePoint := by
  unfold Fibre.applyScored
  induction ws generalizing f with
  | nil => rfl
  | cons w ws ih => exact (ih _).trans (Fibre.apply_resumePoint f w)

theorem Fibre.settleAll_resumePoint (f : Fibre) : f.settleAll.resumePoint = f.resumePoint := by
  have hscored (xs : List (List WB)) (f : Fibre) : (xs.foldl Fibre.applyScored f).resumePoint = f.resumePoint := by
    induction xs generalizing f with
    | nil => rfl
    | cons x xs ih => exact (ih _).trans (Fibre.applyScored_resumePoint x f)
  have hfixed (xs : List OutWrite) (f : Fibre) : (xs.foldl (fun f w => f.apply w.wb) f).resumePoint = f.resumePoint := by
    induction xs generalizing f with
    | nil => rfl
    | cons x xs ih => exact (ih _).trans (Fibre.apply_resumePoint f x.wb)
  exact (hfixed _ _).trans (hscored _ f)

/-- A halted fibre stands where it stood, and nothing of it is outstanding (R145). -/
theorem Fibre.halt_spec (now : Nat) (f : Fibre) : (f.halt now).resumePoint = f.resumePoint ∧ (f.halt now).out = [] ∧ (f.halt now).infl = [] := by
  have hinfl (xs : List OutWrite) (f : Fibre) (hf : f.infl = []) : (xs.foldl (fun f w => f.apply w.wb) f).infl = [] := by
    induction xs generalizing f with
    | nil => exact hf
    | cons x xs ih => exact ih _ ((show (f.apply x.wb).infl = f.infl by cases x.wb <;> rfl).trans hf)
  have hall : f.settleAll.resumePoint = f.resumePoint ∧ f.settleAll.out = [] ∧ f.settleAll.infl = [] :=
    ⟨f.settleAll_resumePoint, rfl, hinfl _ _ rfl⟩
  unfold Fibre.halt
  dsimp only
  split <;> exact hall

theorem Fibre.halted_rows (now : Nat) (fs : List Fibre) :
    (fs.map (Fibre.halt now)).map (fun f => (f.fid, f.pc, f.seg, f.out, f.infl)) = fs.map (fun f => (f.fid, f.pc, f.seg, [], [])) := by
  rw [List.map_map]
  refine List.map_congr_left (fun f _ => ?_)
  obtain ⟨hpoint, hout, hinfl⟩ := f.halt_spec now
  obtain ⟨hfid, hpc, hseg⟩ : (f.halt now).fid = f.fid ∧ (f.halt now).pc = f.pc ∧ (f.halt now).seg = f.seg := by
    simpa [Fibre.resumePoint] using hpoint
  dsimp only [Function.comp_apply]
  rw [hfid, hpc, hseg, hout, hinfl]

/-- Every workgroup of a halted gang has its fibres halted. -/
theorem State.mem_mapGang {s : State} {l k : Nat} (f : Fibre → Fibre) {w : Wg} (hw : w ∈ s.wgs) (hl : w.launch = l) (hk : w.gang = k) :
    { w with fibres := w.fibres.map f } ∈ (s.mapGang l k f).wgs :=
  List.mem_map.mpr ⟨w, hw, if_pos (by simp [hl, hk])⟩

/-! ## Saving (R146) -/

theorem exec_contextImageSaved_ended {s : State} {l k : Nat} {g : Gang} (h : s.gang l k = some g) (hst : g.st = .saving) (hf : s.gangFibres g = []) :
    exec (.contextImageSaved l k) s = .next (s.toRetiring g) := by
  show execContextImageSaved l k s = _
  unfold execContextImageSaved
  rw [h]
  dsimp only
  rw [if_neg (by simp [hst]), if_pos hf]

/-- Some cores release all that they have stored. -/
def State.coresReleaseAll (s : State) (cs : List Nat) : State := s.over cs (fun s c => (s.releaseAll c 5).1)

theorem placementKept_coresReleaseAll (s : State) (cs : List Nat) : PlacementKept s (s.coresReleaseAll cs) := .over (fun _ _ => placementKept_releaseAll ..) _ s

/-- A gang whose image is saved. -/
def Gang.imageSaved (g : Gang) : Gang := { g with st := .saved, asleep := g.toSleep && !g.woken }

theorem exec_contextImageSaved_live {s : State} {l k : Nat} {g : Gang} (h : s.gang l k = some g) (hst : g.st = .saving) (hf : s.gangFibres g ≠ [])
    (hr : s.gangReleased g = true) : exec (.contextImageSaved l k) s = .next (State.pruneHolds { ((s.coresReleaseAll g.cores).toAttic g).modGang l k Gang.imageSaved with
      wgs := (s.coresReleaseAll g.cores).wgs.map (fun (w : Wg) => if w.launch == l && w.gang == k then { w with placed := false } else w) }) := by
  show execContextImageSaved l k s = _
  unfold execContextImageSaved
  rw [h]
  dsimp only
  rw [if_neg (by simp [hst]), if_neg hf, if_neg (by simp [hr])]
  rfl

/-- A gang that was being saved sleeps only if it was to sleep and nothing has woken it. -/
theorem Gang.Stirred.asleep_imageSaved {g x : Gang} (hs : g.Stirred x) (hst : g.st = .saving) (ha : x.imageSaved.asleep = true) : g.toSleep = true ∧ g.woken = false := by
  rcases hs with rfl | rfl
  · simpa [Gang.imageSaved] using ha
  · simp [Gang.imageSaved, Gang.wakened, hst] at ha

/-- What the end of a save leaves. -/
theorem contextImageSaved_spec {s : State} {l k : Nat} {g : Gang} (h : s.gang l k = some g) (hst : g.st = .saving) (hf : s.gangFibres g ≠ [])
    (hr : s.gangReleased g = true) : ∃ t x, exec (.contextImageSaved l k) s = .next t ∧ t.gang l k = some x ∧ x.st = .saved ∧
      (x.asleep = true → g.toSleep = true ∧ g.woken = false) ∧ ∀ w ∈ t.wgs, w.launch = l → w.gang = k → w.placed = false := by
  obtain ⟨y, hy, hs⟩ := (placementKept_coresReleaseAll s g.cores).gang h
  refine ⟨_, y.imageSaved, exec_contextImageSaved_live h hst hf hr, ?_, rfl, hs.asleep_imageSaved hst, fun w hw hl hk => ?_⟩
  · have hmod := ((s.coresReleaseAll g.cores).toAttic g).gang_modGang l k (f := Gang.imageSaved) (fun _ => ⟨rfl, rfl⟩)
    exact hmod.trans (congrArg (Option.map Gang.imageSaved) hy)
  · obtain ⟨v, -, -, rfl⟩ := mem_map_tested (p := fun w : Wg => w.launch == l && w.gang == k) (f := fun w => { w with placed := false }) hw
      (by simp [hl, hk])
    rfl

/-! ## Restoring (R147) -/

/-- A gang that runs again: its quantum begins. -/
def Gang.again (now : Nat) (g : Gang) : Gang :=
  { g with st := .running, asleep := false, woken := false, toSleep := false, quantumEnd := now + 2000000, since := now }

/-- A gang stands on its cores again. -/
def State.seatAgain (s : State) (g : Gang) : State :=
  let s := (s.modGang g.launch g.index (Gang.again s.ticks)).mapGang g.launch g.index (Fibre.restore s.ticks)
  { s with wgs := s.wgs.map (fun (w : Wg) => if w.launch == g.launch && w.gang == g.index then { w with placed := true } else w) }

/-- A gang goes on, on cores that no other launch has held. -/
theorem placementKept_runAgain {s : State} {g : Gang} (h : ∀ h ∈ s.holds, h.launch ≠ g.launch → ∀ n ∈ g.cores, n ∉ h.cores) :
    PlacementKept (s.seatAgain g) (s.runAgain g) := by
  have hgo (ws : List Wg) : PlacementKept (s.seatAgain g)
      (((s.seatAgain g).over ws (fun s w => ((s.acquire w.core).continueCmds w.launch w.wgid w.core).takeReplies w.launch w.wgid)).tilesAgain.retry) :=
    .after (placementKept_retry _) (.after (placementKept_tilesAgain _) (.over (fun _ _ => .after (placementKept_takeReplies ..)
      (.after (placementKept_continueCmds ..) (placementKept_acquire ..))) _ _))
  have hno : (s.seatAgain g).holds.any (fun h => h.launch != g.launch && g.cores.any (h.cores.contains ·)) = false := by
    refine List.any_eq_false.mpr (fun x hx => ?_)
    simp only [Bool.and_eq_true, bne_iff_ne, List.any_eq_true, List.contains_iff_mem, not_and, not_exists]
    exact h x hx
  unfold State.runAgain
  dsimp only
  have hkept := hgo (((s.modGang g.launch g.index (Gang.again s.ticks)).mapGang g.launch g.index (Fibre.restore s.ticks)).wgs.filter
    (fun w => w.launch == g.launch && w.gang == g.index))
  refine (congrArg (PlacementKept (s.seatAgain g)) (if_neg ?_)).mpr hkept
  rw [← hkept.holds] at hno
  exact Bool.eq_false_iff.mp hno

theorem State.seatAgain_gang {s : State} {l k : Nat} {g : Gang} (h : s.gang l k = some g) : (s.seatAgain g).gang l k = some (g.again s.ticks) := by
  obtain ⟨rfl, rfl⟩ := State.key_of_gang h
  exact (s.gang_modGang g.launch g.index (f := Gang.again s.ticks) (fun _ => ⟨rfl, rfl⟩)).trans (congrArg _ h)

theorem State.seatAgain_placed {s : State} {g : Gang} {w : Wg} (hw : w ∈ (s.seatAgain g).wgs) (hl : w.launch = g.launch) (hk : w.gang = g.index) : w.placed = true := by
  obtain ⟨v, -, -, rfl⟩ := mem_map_tested (p := fun w : Wg => w.launch == g.launch && w.gang == g.index) (f := fun w => { w with placed := true }) hw
    (by simp [hl, hk])
  rfl

theorem exec_gangRestoration {s : State} {l k : Nat} {g : Gang} (h : s.gang l k = some g) (hst : g.st = .restoring) (hc : (s.launch l).any (·.cores) = false) :
    exec (.gangRestoration l k) s = .next (s.runAgain g) := by
  show execGangRestoration l k s = _
  unfold execGangRestoration
  rw [h]
  dsimp only
  rw [if_neg (by simp [hst]), if_neg (by simp [hc])]

/-- What the restoration of a gang leaves. -/
theorem gangRestoration_spec {s : State} {l k : Nat} {g : Gang} (h : s.gang l k = some g) (hst : g.st = .restoring) (hc : (s.launch l).any (·.cores) = false)
    (hh : ∀ h ∈ s.holds, h.launch ≠ l → ∀ n ∈ g.cores, n ∉ h.cores) : ∃ t, exec (.gangRestoration l k) s = .next t ∧
      (t.gang l k).map (fun x => (x.st, x.cores, x.asleep, x.quantumEnd, x.since)) = some (.running, g.cores, false, s.ticks + 2000000, s.ticks) ∧
      ∀ w ∈ t.wgs, w.launch = l → w.gang = k → w.placed = true := by
  have hexec := exec_gangRestoration h hst hc
  have hgang := State.seatAgain_gang h
  obtain ⟨rfl, rfl⟩ := State.key_of_gang h
  have hkept := placementKept_runAgain hh
  refine ⟨_, hexec, ?_, fun w hw hl hk => ?_⟩
  · rw [hkept.gang_live hgang rfl]
    rfl
  · obtain ⟨v, hv, hseat⟩ := hkept.seat_back hw
    obtain ⟨hvl, -, hvg, -, hvp⟩ : v.launch = w.launch ∧ v.wgid = w.wgid ∧ v.gang = w.gang ∧ v.core = w.core ∧ v.placed = w.placed := by
      simpa [Wg.seat] using hseat
    exact hvp.symm.trans (State.seatAgain_placed hv (hvl.trans hl) (hvg.trans hk))

/-! ## Retirement (R148) -/

/-- Every workgroup of a gang but one has retired: with that one the gang retires. -/
theorem State.retireGang_last {s : State} {l k : Nat} {w : Wg} (hk : w.gang = k)
    (hrest : ∀ x ∈ s.wgs, x.launch = l → x.gang = k → x = w ∨ x.retired = true) (honly : ∀ x ∈ s.wgs, x.launch = l → x.wgid = w.wgid → x = w) :
    ∃ hs, (s.modWg l w.wgid (fun w => { w with retired := true })).retireGang l k = { s with
      wgs := s.wgs.filter (fun x => !(x.launch == l && x.gang == k)), holds := hs, gangs := (s.modGang l k (fun g => { g with st := .retired })).gangs } := by
  have hall : ((s.modWg l w.wgid (fun w => { w with retired := true })).wgs.filter (fun w => w.launch == l && w.gang == k)).all (·.retired) = true := by
    refine List.all_eq_true.mpr (fun x hx => ?_)
    obtain ⟨hx, hp⟩ := List.mem_filter.mp hx
    obtain ⟨y, hy, rfl⟩ := List.mem_map.mp hx
    by_cases hn : (y.launch == l && y.wgid == w.wgid) = true
    · rw [if_pos hn]
    · rw [if_neg hn] at hp ⊢
      simp only [Bool.and_eq_true, beq_iff_eq] at hp hn
      rcases hrest y hy hp.1 hp.2 with rfl | hr
      · exact absurd ⟨hp.1, rfl⟩ hn
      · exact hr
  have hwgs : (s.modWg l w.wgid (fun w => { w with retired := true })).wgs.filter (fun w => !(w.launch == l && w.gang == k)) =
      s.wgs.filter (fun x => !(x.launch == l && x.gang == k)) := by
    unfold State.modWg
    dsimp only
    rw [List.filter_map]
    have hsame : ((fun x : Wg => !(x.launch == l && x.gang == k)) ∘ fun x : Wg => if (x.launch == l && x.wgid == w.wgid) = true then { x with retired := true } else x) =
        fun x => !(x.launch == l && x.gang == k) := by
      funext x
      dsimp only [Function.comp_apply]
      split <;> rfl
    rw [hsame]
    refine (List.map_congr_left (g := id) (fun x hx => if_neg (fun hp => ?_))).trans (List.map_id _)
    obtain ⟨hx, hout⟩ := List.mem_filter.mp hx
    simp only [Bool.and_eq_true, beq_iff_eq] at hp
    rw [honly x hx hp.1 hp.2] at hout hp
    simp [hp.1, hk] at hout
  unfold State.retireGang
  dsimp only
  rw [if_pos hall, hwgs]
  exact ⟨_, rfl⟩

/-- A gang after the end of its last fibre has been noticed. -/
def State.endNoticed (s : State) (l k : Nat) : State :=
  match s.gang l k with
  | none => s
  | some g => if s.endedGang g then s.modGang l k (fun g => { g with st := .retiring }) else s

theorem State.endNoticed_spec (s : State) (l k : Nat) : ∃ gs, s.endNoticed l k = { s with gangs := gs } ∧
    ∀ g, s.gang l k = some g → ((s.endNoticed l k).gang l k).isSome = true := by
  unfold State.endNoticed
  split
  case h_1 hn => exact ⟨s.gangs, rfl, fun g hg => by rw [hn] at hg; cases hg⟩
  case h_2 g hg =>
    split
    · refine ⟨_, rfl, fun _ _ => ?_⟩
      rw [s.gang_modGang l k (f := fun g => { g with st := .retiring }) (fun _ => ⟨rfl, rfl⟩), hg]
      rfl
    · exact ⟨s.gangs, rfl, fun _ _ => by rw [hg]; rfl⟩

theorem exec_workgroupRetirement {s : State} {l : Nat} {w : Wg} (hw : s.wg l w.wgid = some w) (hh : Hurt.gang l w.gang ∉ s.hurts) (hf : w.fibres = [])
    (hc : s.wgClear w = true) : exec (.workgroupRetirement l w.wgid) s =
      .next (((s.endNoticed l w.gang).modWg l w.wgid (fun w => { w with retired := true })).retireGang l w.gang) := by
  obtain ⟨gs, he, -⟩ := s.endNoticed_spec l w.gang
  have hclear : (s.endNoticed l w.gang).wgClear w = true := by
    rw [he]
    exact hc
  show execWorkgroupRetirement l w.wgid s = _
  unfold execWorkgroupRetirement
  rw [hw]
  dsimp only
  rw [if_neg (by simpa using hh), if_neg (by simp [hf])]
  exact congrArg Host.Outcome.next (if_pos hclear)

/-- What the retirement of a gang's last workgroup leaves. -/
theorem workgroupRetirement_spec {s : State} {l k : Nat} {g : Gang} (h : s.gang l k = some g) {w : Wg} (hw : s.wg l w.wgid = some w) (hk : w.gang = k)
    (hh : Hurt.gang l k ∉ s.hurts) (hf : w.fibres = []) (hc : s.wgClear w = true)
    (hrest : ∀ x ∈ s.wgs, x.launch = l → x.gang = k → x = w ∨ x.retired = true) (honly : ∀ x ∈ s.wgs, x.launch = l → x.wgid = w.wgid → x = w) :
    ∃ t, exec (.workgroupRetirement l w.wgid) s = .next t ∧ (t.gang l k).map (·.st) = some .retired ∧
      t.wgs = s.wgs.filter (fun x => !(x.launch == l && x.gang == k)) ∧ t.mem = s.mem := by
  subst hk
  obtain ⟨gs, he, hsome⟩ := s.endNoticed_spec l w.gang
  obtain ⟨x, hx⟩ := Option.isSome_iff_exists.mp (hsome g h)
  have hwgs : (s.endNoticed l w.gang).wgs = s.wgs := by rw [he]
  have hmem : (s.endNoticed l w.gang).mem = s.mem := by rw [he]
  obtain ⟨hs, hret⟩ := State.retireGang_last (s := s.endNoticed l w.gang) (l := l) (w := w) rfl (by rwa [hwgs]) (by rwa [hwgs])
  refine ⟨_, exec_workgroupRetirement hw hh hf hc, ?_, ?_, ?_⟩ <;> rw [hret]
  · refine (congrArg (Option.map (·.st)) ((s.endNoticed l w.gang).gang_modGang l w.gang (f := fun g => { g with st := .retired }) (fun _ => ⟨rfl, rfl⟩))).trans ?_
    rw [hx]
    rfl
  · rw [hwgs]
  · exact hmem

end Sys2Proof.Machine
end

section
/-! PROOFS. Groups of cores: gangs that are pre-empted, quanta that expire, and gangs that are placed (R139 to R143, R150). -/

namespace Sys2Proof.Machine

/-! ## Pre-emption (R137, R138, R152) -/

/-- A gang that is to give up its cores. -/
def Gang.givingUp (toSleep : Bool) (g : Gang) : Gang := { g with st := .halting, woken := false, toSleep := toSleep }

/-- The running gangs that are pre-empted with one. -/
def State.victims (s : State) (g : Gang) : List Gang := (s.setOf g).filter (fun x => x.st == .running)

/-- A gang after another has been asked to give up its cores. -/
def State.afterPreempt (s : State) (g : Gang) (toSleep : Bool) (x : Gang) : Gang := if (s.victims g).contains x then x.givingUp toSleep else x

theorem State.preempt_eq (s : State) (g : Gang) (toSleep : Bool) : s.preempt g toSleep = { s with gangs := s.gangs.map (s.afterPreempt g toSleep) } := rfl

/-- A running gang is among those that are pre-empted with it. -/
theorem State.self_mem_setOf {s : State} {g : Gang} (hg : g ∈ s.gangs) (hst : g.st = .running) : g ∈ s.setOf g := by
  unfold State.setOf
  split
  · exact List.mem_filter.mpr ⟨hg, by simp [hst]⟩
  · exact List.mem_singleton_self g

theorem State.self_mem_victims {s : State} {g : Gang} (hg : g ∈ s.gangs) (hst : g.st = .running) : g ∈ s.victims g :=
  List.mem_filter.mpr ⟨State.self_mem_setOf hg hst, by simp [hst]⟩

theorem State.afterPreempt_self {s : State} {g : Gang} (hg : g ∈ s.gangs) (hst : g.st = .running) (toSleep : Bool) :
    s.afterPreempt g toSleep g = g.givingUp toSleep := if_pos (List.contains_iff_mem.mpr (State.self_mem_victims hg hst))

theorem State.afterPreempt_key (s : State) (g : Gang) (toSleep : Bool) (x : Gang) :
    (s.afterPreempt g toSleep x).launch = x.launch ∧ (s.afterPreempt g toSleep x).index = x.index := by
  unfold State.afterPreempt
  split <;> exact ⟨rfl, rfl⟩

/-- A gang after a pre-emption is as it was, or is halting. -/
theorem State.afterPreempt_cases (s : State) (g : Gang) (toSleep : Bool) (x : Gang) : s.afterPreempt g toSleep x = x ∨ (s.afterPreempt g toSleep x).st = .halting := by
  unfold State.afterPreempt
  split
  · exact .inr rfl
  · exact .inl rfl

/-- A gang that has been found is found after a pre-emption. -/
theorem State.gang_preempt {s : State} {l k : Nat} {x : Gang} (h : s.gang l k = some x) (g : Gang) (toSleep : Bool) :
    (s.preempt g toSleep).gang l k = some (s.afterPreempt g toSleep x) := by
  have hkey : (fun y : Gang => y.launch == l && y.index == k) ∘ s.afterPreempt g toSleep = fun y => y.launch == l && y.index == k := by
    funext y
    obtain ⟨hl, hi⟩ := s.afterPreempt_key g toSleep y
    dsimp only [Function.comp_apply]
    rw [hl, hi]
  rw [State.preempt_eq]
  unfold State.gang at h ⊢
  dsimp only
  rw [List.find?_map, hkey, h]
  rfl

theorem State.mem_of_gang {s : State} {l k : Nat} {g : Gang} (h : s.gang l k = some g) : g ∈ s.gangs := List.mem_of_find?_eq_some h

/-! ## Groups that are claimed (R141) -/

/-- The gangs alone have changed. -/
theorem State.over_preempt_spec (s : State) (os : List Gang) : ∃ gs, s.over os (fun s o => s.preempt o false) = { s with gangs := gs } :=
  State.over_keeps (P := fun u => ∃ gs, u = { s with gangs := gs }) (fun u o hu => by obtain ⟨gs, rfl⟩ := hu; exact ⟨_, rfl⟩) os ⟨s.gangs, rfl⟩

/-- A gang halts. -/
def State.halts (s : State) (l k : Nat) : Prop := ∃ y ∈ s.gangs, y.launch = l ∧ y.index = k ∧ y.st = .halting

theorem State.halts_of_afterPreempt {s : State} {l k : Nat} (g : Gang) (toSleep : Bool) {x : Gang} (hx : x ∈ s.gangs) (hl : x.launch = l) (hk : x.index = k)
    (hst : (s.afterPreempt g toSleep x).st = .halting) : (s.preempt g toSleep).halts l k := by
  obtain ⟨hkl, hki⟩ := s.afterPreempt_key g toSleep x
  exact ⟨_, List.mem_map_of_mem hx, hkl.trans hl, hki.trans hk, hst⟩

theorem State.halts_preempt {s : State} {l k : Nat} (h : s.halts l k) (g : Gang) (toSleep : Bool) : (s.preempt g toSleep).halts l k := by
  obtain ⟨y, hy, hl, hk, hst⟩ := h
  refine State.halts_of_afterPreempt g toSleep hy hl hk ?_
  rcases s.afterPreempt_cases g toSleep y with he | he
  · rw [he, hst]
  · exact he

/-- Of some gangs that are asked to give up their cores, each that ran halts. -/
theorem State.over_preempt_halts {s : State} {os : List Gang} {o : Gang} (ho : o ∈ os) (hs : o ∈ s.gangs) (hst : o.st = .running) :
    (s.over os (fun s o => s.preempt o false)).halts o.launch o.index := by
  refine State.over_reaches (Q := fun u => o ∈ u.gangs ∨ u.halts o.launch o.index) (P := fun u => u.halts o.launch o.index) ho (fun u g hu => ?_)
    (fun u g hu => State.halts_preempt hu g false) (fun u hu => ?_) (.inl hs)
  · rcases hu with hu | hu
    · rcases u.afterPreempt_cases g false o with he | he
      · exact .inl (List.mem_map.mpr ⟨o, hu, he⟩)
      · exact .inr (State.halts_of_afterPreempt g false hu rfl rfl he)
    · exact .inr (State.halts_preempt hu g false)
  · rcases hu with hu | hu
    · exact State.halts_of_afterPreempt o false hu rfl rfl (by rw [State.afterPreempt_self hu hst]; rfl)
    · exact State.halts_preempt hu o false

theorem State.mem_of_occupants {s : State} {cs : List Nat} {o : Gang} (h : o ∈ s.occupants cs) : o ∈ s.gangs := by
  obtain ⟨n, -, hn⟩ := List.mem_filterMap.mp (List.mem_dedup.mp h)
  exact List.mem_of_find?_eq_some hn

/-- The holds of some groups for the gangs of a candidate. -/
def Cand.holdsOn (c : Cand) (gs : List (List Nat)) : List Hold := (c.gangs.zip gs).map (fun x => Hold.mk x.2 c.launch x.1)

theorem State.claimGroups_spec (s : State) (c : Cand) (gs : List (List Nat)) : ∃ xs, s.claimGroups c gs = { s with holds := s.holds ++ c.holdsOn gs, gangs := xs } :=
  State.over_preempt_spec { s with holds := s.holds ++ c.holdsOn gs } _

theorem State.claimGroups_halts (s : State) (c : Cand) (gs : List (List Nat)) {o : Gang} (ho : o ∈ gs.flatMap s.occupants) (hst : o.st = .running) :
    (s.claimGroups c gs).halts o.launch o.index := by
  obtain ⟨g, -, hg⟩ := List.mem_flatMap.mp ho
  exact State.over_preempt_halts (s := { s with holds := s.holds ++ c.holdsOn gs }) (List.mem_dedup.mpr ho) (State.mem_of_occupants hg) hst

theorem exec_gangPlacement_claims {s : State} {c : Cand} {gs : List (List Nat)} (h : s.placeNext = some (c, false, gs)) :
    exec .gangPlacement s = .next (s.claimGroups c gs) := by
  show execGangPlacement s = _
  unfold execGangPlacement
  rw [h]

/-! ## Park eviction (R142) -/

theorem leastBy_mem {α : Type} {m : α → Nat} {xs : List α} {x : α} (h : leastBy m xs = some x) : x ∈ xs := by
  have hne : xs ≠ [] := by
    rintro rfl
    cases h
  obtain ⟨e, he, hfold⟩ := foldl_chosen (f := fun b x => match b with
    | none => some x
    | some y => if m x < m y then some x else some y) (fun _ => rfl) (fun y x => ite_eq_or_eq (m x < m y) (some x) (some y)) hne
  exact Option.some.inj (hfold.symm.trans h) ▸ he

/-- The gang that makes room is a running one of a launch that is not placed whole. -/
theorem State.evictNext_gang {s : State} {c : Cand} {g : Gang} (h : s.evictNext = some (c, g)) : g.st = .running ∧ (s.launch g.launch).any (·.cores) = false := by
  obtain ⟨d, -, hd⟩ := List.exists_of_findSome?_eq_some h
  split at hd
  case isTrue => cases hd
  case isFalse hn =>
    obtain ⟨y, hy, he⟩ := Option.map_eq_some_iff.mp hd
    obtain ⟨rfl, rfl⟩ := Prod.mk.inj he
    have hp := (List.mem_filter.mp (leastBy_mem hy)).2
    simp only [Bool.and_eq_true, beq_iff_eq] at hp
    obtain ⟨⟨hl, hev⟩, -⟩ := hp
    refine ⟨?_, hl ▸ Bool.eq_false_iff.mpr hn⟩
    unfold State.evictable at hev
    simp only [Bool.and_eq_true, beq_iff_eq] at hev
    exact hev.1.1

theorem exec_parkEviction {s : State} {c : Cand} {g : Gang} (h : s.evictNext = some (c, g)) : exec .parkEviction s = .next { s with
    holds := s.holds ++ [⟨g.cores, c.launch, c.gangs.headD 0⟩], gangs := s.gangs.map (fun x => if x = g then x.givingUp true else x) } := by
  obtain ⟨hst, hcores⟩ := State.evictNext_gang h
  have hvictims : s.victims g = [g] := by
    unfold State.victims State.setOf
    rw [if_neg (by simp [hcores]), List.filter_cons_of_pos (by simp [hst])]
    rfl
  have hafter : s.afterPreempt g true = fun x => if x = g then x.givingUp true else x := by
    funext x
    unfold State.afterPreempt
    rw [hvictims]
    simp
  rw [← hafter]
  show execParkEviction s = _
  unfold execParkEviction
  rw [h]
  rfl

/-! ## Quanta (R143) -/

/-- A candidate that waits for cores at the priority of a launch, from another queue. -/
def State.rivals (s : State) (L : Launch) (c : Cand) : Bool := c.prio == L.prio && c.queue != L.queue && (s.fit c).isNone

theorem State.rivals_eq_false {s : State} {L : Launch} {c : Cand} (h : c.prio = L.prio → c.queue ≠ L.queue → s.fit c ≠ none) : s.rivals L c = false := by
  unfold State.rivals
  by_cases hp : c.prio = L.prio
  · by_cases hq : c.queue = L.queue
    · simp [hq]
    · simpa [hp, hq] using Option.ne_none_iff_isSome.mp (h hp hq)
  · simp [hp]

theorem State.rivals_eq_true {s : State} {L : Launch} {c : Cand} (hp : c.prio = L.prio) (hq : c.queue ≠ L.queue) (hf : s.fit c = none) : s.rivals L c = true := by
  simp [State.rivals, hp, hq, hf]

theorem State.rival_eq {s : State} {l k : Nat} {g : Gang} {L : Launch} (h : s.gang l k = some g) (hL : s.launch l = some L) : s.rival g = s.cands.find? (s.rivals L) := by
  obtain ⟨rfl, -⟩ := State.key_of_gang h
  unfold State.rival
  rw [hL]
  rfl

theorem exec_quantumExpiry_renews {s : State} {l k : Nat} {g : Gang} {L : Launch} (h : s.gang l k = some g) (hst : g.st = .running) (hq : g.quantumEnd ≤ s.ticks)
    (hL : s.launch l = some L) (hno : ∀ c ∈ s.cands, c.prio = L.prio → c.queue ≠ L.queue → s.fit c ≠ none) :
    exec (.quantumExpiry l k) s = .next (s.modGang l k (fun x => { x with quantumEnd := s.ticks + 2000000 })) := by
  have hrival : s.rival g = none := by
    rw [State.rival_eq h hL, List.find?_eq_none]
    exact fun c hc => Bool.eq_false_iff.mp (State.rivals_eq_false (hno c hc))
  show execQuantumExpiry l k s = _
  unfold execQuantumExpiry
  rw [h]
  dsimp only
  rw [if_neg (by simp [hst, hq]), hrival, ite_self]

theorem exec_quantumExpiry_preempts {s : State} {l k : Nat} {g : Gang} {L : Launch} (h : s.gang l k = some g) (hst : g.st = .running) (hq : g.quantumEnd ≤ s.ticks)
    (hL : s.launch l = some L) {before after : List Cand} {c : Cand} (hc : s.cands = before ++ c :: after)
    (hbefore : ∀ d ∈ before, d.prio = L.prio → d.queue ≠ L.queue → s.fit d ≠ none) (hp : c.prio = L.prio) (hne : c.queue ≠ L.queue) (hf : s.fit c = none)
    (hroom : s.poolRoom (s.setOf g) = true) :
    exec (.quantumExpiry l k) s = .next (State.preempt { s with holds := s.holds ++ [Hold.mk ((s.setOf g).flatMap (·.cores)) c.launch (c.gangs.headD 0)] } g false) := by
  have hrival : s.rival g = some c := by
    rw [State.rival_eq h hL, List.find?_eq_some_iff_append]
    exact ⟨State.rivals_eq_true hp hne hf, before, after, hc, fun d hd => by rw [State.rivals_eq_false (hbefore d hd)]; rfl⟩
  show execQuantumExpiry l k s = _
  unfold execQuantumExpiry
  rw [h]
  dsimp only
  rw [if_neg (by simp [hst, hq]), if_pos hroom, hrival]

/-- What a quantum that ends for a rival leaves. -/
theorem quantumExpiry_spec {s : State} {l k : Nat} {g : Gang} (h : s.gang l k = some g) (hst : g.st = .running) (c : Cand) :
    let t := State.preempt { s with holds := s.holds ++ [Hold.mk ((s.setOf g).flatMap (·.cores)) c.launch (c.gangs.headD 0)] } g false
    t.gang l k = some { g with st := .halting, woken := false, toSleep := false } ∧ (∃ h ∈ t.holds, h.launch = c.launch ∧ ∀ n ∈ g.cores, n ∈ h.cores) ∧ t.mem = s.mem := by
  have hmem := State.mem_of_gang h
  refine ⟨?_, ⟨_, List.mem_append_right _ (List.mem_singleton_self _), rfl, fun n hn => ?_⟩, rfl⟩
  · refine (State.gang_preempt (s := { s with holds := _ }) h g false).trans (congrArg some ?_)
    exact State.afterPreempt_self (s := { s with holds := _ }) hmem hst false
  · exact List.mem_flatMap.mpr ⟨g, State.self_mem_setOf hmem hst, hn⟩

/-! ## Barrier units (R150) -/

/-- From s to t barrier units have been bound or freed. -/
def UnitsBound (s t : State) : Prop := ∃ us hs, t = { s with units := us, heldArrivals := hs }

theorem unitsBound_bindUnits (s : State) (L : Launch) (gs : List (List Nat)) : UnitsBound s (s.bindUnits L gs) := by
  refine State.over_keeps (P := UnitsBound s) (fun u x hu => ?_) _ ⟨s.units, s.heldArrivals, rfl⟩
  obtain ⟨_, _, rfl⟩ := hu
  exact ⟨_, _, rfl⟩

theorem unitsBound_placeUnits (s : State) (L : Launch) (gs : List (List Nat)) : UnitsBound s (s.placeUnits L gs) := by
  unfold State.placeUnits
  split
  · exact ⟨s.units, s.heldArrivals, rfl⟩
  · obtain ⟨_, _, he⟩ := unitsBound_bindUnits { s with units := s.units.filter (fun u => !(u.launch == L.id && u.level == 5 && !(groupDies gs).contains u.die)) } L gs
    exact ⟨_, _, he⟩

/-! ## Gangs that start (R132, R137, R139) -/

theorem placementKept_segSet (s : State) (a seg off n x : Nat) : PlacementKept s (s.segSet a seg off n x) := by
  unfold State.segSet
  split <;> exact .same rfl rfl rfl rfl rfl rfl

theorem placementKept_initSeg (s : State) (a seg lnk usd flags : Nat) : PlacementKept s (s.initSeg a seg lnk usd flags) :=
  .after (placementKept_segSet ..) (.after (placementKept_segSet ..) (.after (placementKept_segSet ..) (placementKept_segSet ..)))

theorem placementKept_setHdr (s : State) (a seg off : Nat) (h : Hdr) : PlacementKept s (s.setHdr a seg off h) :=
  .after (placementKept_segSet ..) (.after (placementKept_segSet ..) (.after (placementKept_segSet ..) (.after (placementKept_segSet ..) (placementKept_segSet ..))))

theorem placementKept_modLaunch (s : State) (l : Nat) {f : Launch → Launch} (hf : ∀ L, (f L).id = L.id ∧ (f L).nextGang = L.nextGang) : PlacementKept s (s.modLaunch l f) := by
  refine ⟨rfl, List.forall₂_same.mpr (fun g _ => .refl g), rfl, rfl, rfl, ?_⟩
  unfold State.modLaunch
  dsimp only
  rw [List.map_map]
  refine List.map_congr_left (fun L _ => ?_)
  dsimp only [Function.comp_apply]
  split
  · rw [(hf L).1, (hf L).2]
  · rfl

theorem placementKept_startFibre (s : State) (L : Launch) (wgid core fid : Nat) : PlacementKept s (s.startFibre L wgid core fid) := by
  unfold State.startFibre
  split
  case h_1 n rest _ =>
    refine .after (placementKept_modFib ..) (.after (placementKept_modWg _ _ _ (f := fun g => { g with fibres := g.fibres ++ [Fibre.fresh L fid n] }) (fun _ => rfl)) ?_)
    refine .after (placementKept_setHdr ..) (.after (placementKept_initSeg ..) ?_)
    exact .same rfl rfl rfl rfl rfl rfl
  case h_2 => exact placementKept_modLaunch s _ (fun _ => ⟨rfl, rfl⟩)

/-- From s to t gangs and workgroups have been added at most. -/
structure Placed (s t : State) : Prop where
  seats : ∀ x ∈ s.wgs.map Wg.seat, x ∈ t.wgs.map Wg.seat
  gangs : ∀ g ∈ s.gangs, g.st.live = true → g ∈ t.gangs
  cursors : t.cursors = s.cursors
  ftime : t.ftime = s.ftime
  table : t.launches.map (fun L => (L.id, L.nextGang)) = s.launches.map (fun L => (L.id, L.nextGang))

theorem Placed.refl (s : State) : Placed s s := ⟨fun _ h => h, fun _ h _ => h, rfl, rfl, rfl⟩

theorem Placed.trans {s t u : State} (h : Placed s t) (h' : Placed t u) : Placed s u :=
  ⟨fun x hx => h'.seats x (h.seats x hx), fun g hg hl => h'.gangs g (h.gangs g hg hl) hl, h'.cursors.trans h.cursors, h'.ftime.trans h.ftime, h'.table.trans h.table⟩

theorem PlacementKept.placed {s t : State} (h : PlacementKept s t) : Placed s t :=
  ⟨fun _ hx => h.seats.symm ▸ hx, fun _ hg hl => h.mem_gangs hg hl, h.cursors, h.ftime, h.table⟩

theorem UnitsBound.placed {s t : State} (h : UnitsBound s t) : Placed s t := by
  obtain ⟨_, _, rfl⟩ := h
  exact ⟨fun _ h => h, fun _ h _ => h, rfl, rfl, rfl⟩

/-- A workgroup stands on a core. -/
def State.seats (s : State) (l w n : Nat) : Prop := ∃ x ∈ s.wgs, x.launch = l ∧ x.wgid = w ∧ x.core = n

theorem Placed.keeps_seat {s t : State} (h : Placed s t) {l w n : Nat} (hs : s.seats l w n) : t.seats l w n := by
  obtain ⟨x, hx, hl, hw, hn⟩ := hs
  obtain ⟨y, hy, he⟩ := List.mem_map.mp (h.seats _ (List.mem_map_of_mem hx))
  obtain ⟨hyl, hyw, -, hyn, -⟩ : y.launch = x.launch ∧ y.wgid = x.wgid ∧ y.gang = x.gang ∧ y.core = x.core ∧ y.placed = x.placed := by
    simpa [Wg.seat] using he
  exact ⟨y, hy, hyl.trans hl, hyw.trans hw, hyn.trans hn⟩

theorem startWg_spec (s : State) (L : Launch) (wgid core : Nat) : Placed s (s.startWg L wgid core) ∧ (s.startWg L wgid core).seats L.id wgid core := by
  have hnew : Placed s { s with wgs := s.wgs ++ [Wg.start L wgid core] } :=
    ⟨fun x hx => by rw [List.map_append]; exact List.mem_append_left _ hx, fun _ h _ => h, rfl, rfl, rfl⟩
  have hfibres : Placed { s with wgs := s.wgs ++ [Wg.start L wgid core] } (s.startWg L wgid core) := (PlacementKept.over (fun _ _ => placementKept_startFibre ..) _ _).placed
  exact ⟨hnew.trans hfibres, hfibres.keeps_seat ⟨_, List.mem_append_right _ (List.mem_singleton_self _), rfl, rfl, rfl⟩⟩

/-- A gang as it starts. -/
def Gang.start (now l k : Nat) (cores : List Nat) : Gang := ⟨l, k, .running, cores, false, false, false, now + 2000000, now⟩

/-- A gang is noted as running, before its workgroups start. -/
def State.withGang (s : State) (l k : Nat) (cores : List Nat) : State := { s with gangs := s.gangs ++ [Gang.start s.ticks l k cores] }

theorem State.startGang_eq (s : State) (L : Launch) (k : Nat) (cores : List Nat) : s.startGang L k cores =
    (s.withGang L.id k cores).over ((List.range cores.length).zip cores) (fun s x => (s.acquire x.2).startWg L (L.size * k + x.1) x.2) := rfl

theorem State.withGang_spec (s : State) (l k : Nat) (cores : List Nat) : Placed s (s.withGang l k cores) ∧ Gang.start s.ticks l k cores ∈ (s.withGang l k cores).gangs :=
  ⟨⟨fun _ h => h, fun _ hg _ => List.mem_append_left _ hg, rfl, rfl, rfl⟩, List.mem_append_right _ (List.mem_singleton_self _)⟩

/-- A gang that starts is there, and each of its workgroups is on its core. -/
theorem startGang_spec (s : State) (L : Launch) (k : Nat) (cores : List Nat) : Placed s (s.startGang L k cores) ∧
    Gang.start s.ticks L.id k cores ∈ (s.startGang L k cores).gangs ∧ ∀ j n, cores[j]? = some n → (s.startGang L k cores).seats L.id (L.size * k + j) n := by
  have hstep (u : State) (x : Nat × Nat) : Placed u ((u.acquire x.2).startWg L (L.size * k + x.1) x.2) := (placementKept_acquire ..).placed.trans (startWg_spec ..).1
  obtain ⟨hbegun, hthere⟩ := s.withGang_spec L.id k cores
  rw [State.startGang_eq]
  generalize s.withGang L.id k cores = u at hbegun hthere ⊢
  have hall : Placed u (u.over ((List.range cores.length).zip cores) (fun s x => (s.acquire x.2).startWg L (L.size * k + x.1) x.2)) :=
    State.over_keeps (P := Placed u) (fun v x hv => hv.trans (hstep v x)) _ (.refl u)
  refine ⟨hbegun.trans hall, hall.gangs _ hthere rfl, fun j n hj => ?_⟩
  have hmem : (j, n) ∈ (List.range cores.length).zip cores := by
    obtain ⟨hlt, rfl⟩ := List.getElem?_eq_some_iff.mp hj
    exact List.mem_iff_getElem.mpr ⟨j, by simpa using hlt, by simp⟩
  exact State.over_reaches (Q := fun _ => True) (P := fun u => u.seats L.id (L.size * k + j) n) hmem
    (fun _ _ _ => trivial) (fun u x hu => (hstep u x).keeps_seat hu) (fun u _ => (startWg_spec ..).2) trivial

/-- Some gangs start one after the other: each is there with its workgroups. -/
theorem over_startGang_spec (s : State) (L : Launch) (xs : List (Nat × List Nat)) : Placed s (s.over xs (fun s x => s.startGang L x.1 x.2)) ∧
    ∀ x ∈ xs, Gang.start s.ticks L.id x.1 x.2 ∈ (s.over xs (fun s x => s.startGang L x.1 x.2)).gangs ∧
      ∀ j n, x.2[j]? = some n → (s.over xs (fun s x => s.startGang L x.1 x.2)).seats L.id (L.size * x.1 + j) n := by
  have hstep (u : State) (x : Nat × List Nat) : Placed u (u.startGang L x.1 x.2) := (startGang_spec ..).1
  refine ⟨State.over_keeps (P := Placed s) (fun u x hu => hu.trans (hstep u x)) xs (.refl s), fun x hx => ?_⟩
  refine State.over_reaches (Q := Placed s) (P := fun u => Gang.start s.ticks L.id x.1 x.2 ∈ u.gangs ∧ ∀ j n, x.2[j]? = some n → u.seats L.id (L.size * x.1 + j) n) hx
    (fun u y hu => hu.trans (hstep u y)) (fun u y hu => ⟨(hstep u y).gangs _ hu.1 rfl, fun j n hj => (hstep u y).keeps_seat (hu.2 j n hj)⟩) (fun u hu => ?_) (.refl s)
  have hticks : u.ticks = s.ticks := congrArg BitVec.toNat hu.ftime
  rw [← hticks]
  exact (startGang_spec u L x.1 x.2).2

/-! ## Placement (R139, R140) -/

theorem State.id_of_launch {s : State} {l : Nat} {L : Launch} (h : s.launch l = some L) : L.id = l := by simpa using List.find?_some h

theorem Placed.nextGang {s t : State} (h : Placed s t) (l : Nat) : (t.launch l).map (·.nextGang) = (s.launch l).map (·.nextGang) := by
  have hrow (u : State) : (u.launch l).map (·.nextGang) = ((u.launches.map (fun L => (L.id, L.nextGang))).find? (fun x => x.1 == l)).map (·.2) := by
    rw [List.find?_map, Option.map_map]
    rfl
  rw [hrow, hrow, h.table]

/-- The placer's state once a candidate's holds have ended and its queue's turn is noted. -/
def State.offered (s : State) (c : Cand) : State :=
  { s with holds := s.holds.filter (fun h => !(h.launch == c.launch && c.gangs.contains h.gang)), cursors := s.cursors.set c.prio c.queue }

theorem exec_gangPlacement_places {s : State} {c : Cand} {gs : List (List Nat)} (h : s.placeNext = some (c, true, gs)) :
    exec .gangPlacement s = .next (s.placeCand c gs).pruneHolds := by
  show execGangPlacement s = _
  unfold execGangPlacement
  rw [h]

theorem State.placeCand_new {s : State} {c : Cand} {L : Launch} (hL : s.launch c.launch = some L) (hc : c.saved = false) (gs : List (List Nat)) : s.placeCand c gs =
    (((s.offered c).modLaunch L.id (fun L => { L with nextGang := L.nextGang + c.gangs.length })).placeUnits L gs).over (c.gangs.zip gs) (fun s x => s.startGang L x.1 x.2) := by
  unfold State.placeCand
  rw [hL]
  dsimp only
  rw [if_neg (by simp [hc])]
  rfl

theorem State.placeCand_saved {s : State} {c : Cand} {L : Launch} (hL : s.launch c.launch = some L) (hc : c.saved = true) (gs : List (List Nat)) : s.placeCand c gs =
    (if L.cores then (s.offered c).bindUnits L gs else s.offered c).over (c.gangs.zip gs) (fun s x => s.restoreOn L x.1 x.2) := by
  unfold State.placeCand
  rw [hL]
  dsimp only
  rw [if_pos hc]
  rfl

/-- A new candidate is placed: its gangs run on their groups, and its launch goes on behind them. -/
theorem State.placeCand_new_spec {s : State} {c : Cand} {L : Launch} (hL : s.launch c.launch = some L) (hc : c.saved = false) (gs : List (List Nat)) :
    (s.placeCand c gs).cursors = s.cursors.set c.prio c.queue ∧ ((s.placeCand c gs).launch L.id).map (·.nextGang) = some (L.nextGang + c.gangs.length) ∧
      ∀ x ∈ c.gangs.zip gs, Gang.start s.ticks L.id x.1 x.2 ∈ (s.placeCand c gs).gangs ∧ ∀ j n, x.2[j]? = some n → (s.placeCand c gs).seats L.id (L.size * x.1 + j) n := by
  let moved : State := (s.offered c).modLaunch L.id (fun L => { L with nextGang := L.nextGang + c.gangs.length })
  have hunits : UnitsBound moved (moved.placeUnits L gs) := unitsBound_placeUnits ..
  obtain ⟨hplaced, hstarted⟩ := over_startGang_spec (moved.placeUnits L gs) L (c.gangs.zip gs)
  have hmoved : (moved.launch L.id).map (·.nextGang) = some (L.nextGang + c.gangs.length) := by
    have hfind : moved.launch L.id = (s.launch L.id).map (fun L => { L with nextGang := L.nextGang + c.gangs.length }) :=
      find_map_same (fun x : Launch => x.id == L.id) (fun L => { L with nextGang := L.nextGang + c.gangs.length }) (fun _ => rfl) s.launches
    rw [hfind, State.id_of_launch hL, hL]
    rfl
  have hall := hunits.placed.trans hplaced
  have hticks : (moved.placeUnits L gs).ticks = s.ticks := by
    obtain ⟨_, _, he⟩ := hunits
    rw [he]
    rfl
  rw [hticks] at hstarted
  rw [State.placeCand_new hL hc]
  exact ⟨hall.cursors, (hall.nextGang L.id).trans hmoved, hstarted⟩

/-- The placer's turn is noted with whatever it restores. -/
theorem State.placeCand_saved_cursors {s : State} {c : Cand} {L : Launch} (hL : s.launch c.launch = some L) (hc : c.saved = true) (gs : List (List Nat)) :
    (s.placeCand c gs).cursors = s.cursors.set c.prio c.queue := by
  rw [State.placeCand_saved hL hc]
  refine State.over_keeps (P := fun u => u.cursors = s.cursors.set c.prio c.queue) (f := fun s (x : Nat × List Nat) => s.restoreOn L x.1 x.2) (fun u x hu => hu) _ ?_
  split
  · obtain ⟨_, _, he⟩ := unitsBound_bindUnits (s.offered c) L gs
    rw [he]
    rfl
  · rfl

/-- A saved gang is to be restored on its group. -/
theorem State.placeCand_saved_gang {s : State} {c : Cand} {L : Launch} (hL : s.launch c.launch = some L) (hc : c.saved = true) {k : Nat} {cores : List Nat} {g : Gang}
    (hk : c.gangs = [k]) (hg : s.gang c.launch k = some g) : (s.placeCand c [cores]).gang c.launch k = some { g with st := .restoring, cores := cores } := by
  rw [State.placeCand_saved hL hc, hk]
  generalize hu : (if L.cores = true then _ else _ : State) = u
  have hgangs : u.gangs = s.gangs := by
    rw [← hu]
    split
    · obtain ⟨_, _, he⟩ := unitsBound_bindUnits (s.offered c) L [cores]
      rw [he]
      rfl
    · rfl
  have hgu : u.gang c.launch k = some g := by
    unfold State.gang at hg ⊢
    rwa [hgangs]
  have hmod := u.gang_modGang c.launch k (f := fun g => { g with st := .restoring, cores := cores }) (fun _ => ⟨rfl, rfl⟩)
  rw [hgu, ← State.id_of_launch hL] at hmod
  rw [← State.id_of_launch hL]
  exact hmod

end Sys2Proof.Machine
end

section
/-! PROOFS. Launch queues: their bindings, and the records that are consumed and checked (R111, R112, R114, R115, R130, R131). -/

namespace Sys2Proof.Machine

/-! ## One queue of the list -/

/-- What is found of a list of which those that pass the test have been changed, and pass it still. -/
theorem find_map_tested {α : Type} {p : α → Bool} {f : α → α} (hf : ∀ x, p x = true → p (f x) = true) (xs : List α) :
    (xs.map (fun x => if p x then f x else x)).find? p = (xs.find? p).map f := by
  induction xs with
  | nil => rfl
  | cons x xs ih =>
    by_cases h : p x = true
    · simp [h, hf x h]
    · simp [h, ih]

theorem State.queue_modQueue (s : State) {q : Nat} {f : Queue → Queue} (hf : ∀ y, y.q = q → (f y).q = q) : (s.modQueue q f).queue q = (s.queue q).map f :=
  find_map_tested (p := fun x : Queue => x.q == q) (fun x hx => by simpa using hf x (by simpa using hx)) s.queues

theorem State.queue_modQueue_of {s : State} {q : Nat} {x : Queue} (h : s.queue q = some x) {f : Queue → Queue} (hf : ∀ y, y.q = q → (f y).q = q) : (s.modQueue q f).queue q = some (f x) := by
  rw [s.queue_modQueue hf, h]
  rfl

theorem State.q_of_queue {s : State} {q : Nat} {x : Queue} (h : s.queue q = some x) : x.q = q := by simpa using List.find?_some h

theorem HomeWork.mgmtOut {s t : State} (h : HomeWork s t) : t.mgmtOut = s.mgmtOut := by
  obtain ⟨_, _, _, _, _, _, _, _, _, _, _, _, rfl⟩ := h
  rfl

theorem HomeWork.launches {s t : State} (h : HomeWork s t) : t.launches = s.launches := by
  obtain ⟨_, _, _, _, _, _, _, _, _, _, _, _, rfl⟩ := h
  rfl

/-! ## Control blocks (R111, R113) -/

theorem homeWork_ctlWrite (s : State) (b : Binding) (o v : Nat) : HomeWork s (s.ctlWrite b o v) := by
  unfold State.ctlWrite
  split
  · exact .refl s
  · exact homeWork_homeStore ..

theorem State.ctlWrite_eq {s : State} {b : Binding} {o p : Nat} (h : s.ctlPA b o = some p) (v : Nat) : s.ctlWrite b o v = s.homeStore (s.keyOf b.asid) p (natBytes 8 v) := by
  unfold State.ctlWrite
  rw [h]

/-- A write that reaches no TAIL word leaves its bytes. -/
theorem State.homeStore_apart {s : State} {a : Nat} {bs : List Byte} (h : ∀ w ∈ s.tailWords, w + 8 ≤ a ∨ a + bs.length ≤ w) (key : Nat) :
    (s.homeStore key a bs).mem = s.mem.write a bs := by
  have hfold (ws : List Nat) (hws : ∀ w ∈ ws, w + 8 ≤ a ∨ a + bs.length ≤ w) : ws.foldl (tailRule s.mem) (addrs a bs) = addrs a bs := by
    induction ws with
    | nil => rfl
    | cons w ws ih =>
      have hout : (addrs a bs).filter (inTail w) = [] := List.filter_eq_nil_iff.mpr (fun p hp => by
        have hat := mem_addrs hp
        have hw := hws w List.mem_cons_self
        rw [inTail_iff]
        omega)
      have hrule : tailRule s.mem (addrs a bs) w = addrs a bs := if_pos hout
      rw [List.foldl_cons, hrule]
      exact ih (fun v hv => hws v (List.mem_cons_of_mem _ hv))
  unfold State.homeStore
  rw [(s.homeWrite_spec key _).2.1, hfold _ h, Mem.writeAt_addrs]

theorem Mem.get_write_zeros {m : Mem} (h : m.wf = true) (a j : Nat) : (m.write a (natBytes 8 0)).get j = if a ≤ j ∧ j < a + 8 then 0 else m.get j := by
  rw [Mem.get_write _ h, natBytes_length]
  refine if_congr Iff.rfl ?_ rfl
  rw [show natBytes 8 0 = List.replicate 8 0#8 from rfl, List.getD_eq_getElem?_getD, List.getElem?_replicate]
  split <;> rfl

/-! ## Bindings (R111, R112) -/

/-- A queue that has just been bound. -/
def Queue.bound (q : Nat) (b : Binding) : Queue := ⟨q, b, .idle, 0, [], [], none, none, none, false, false⟩

/-- The control block of a queue that is bound. -/
def State.ctlZeroed (s : State) (b : Binding) : State := ((s.ctlWrite b 0 0).ctlWrite b 8 0).ctlWrite b 16 0

theorem homeWork_ctlZeroed (s : State) (b : Binding) : HomeWork s (s.ctlZeroed b) := (homeWork_ctlWrite ..).trans ((homeWork_ctlWrite ..).trans (homeWork_ctlWrite ..))

/-- What a binding must satisfy. -/
structure Bindable (s : State) (q : Nat) (b : Binding) : Prop where
  supervised : s.supervised = true
  unbound : s.queue q = none
  ring : b.ringOff % 256 = 0
  ctl : b.ctlOff % 64 = 0
  least : 2 ≤ b.log2size
  most : b.log2size ≤ 16
  prio : b.pcap ≤ 7
  resident : ∃ p, s.ctlPA b 0 = some p

theorem exec_queueBind {s : State} {q : Fin 1024} {b : Binding} (h : Bindable s q.val b) : exec (.queueBind q b) s =
    .next (if s.ctlHeld b then s.later 1000 (.queueBind q b) else { s.ctlZeroed b with queues := (s.ctlZeroed b).queues ++ [Queue.bound q.val b] }) := by
  obtain ⟨hs, hq, hr, hc, hlo, hhi, hp, p, hpa⟩ := h
  show execQueueBind q b s = _
  unfold execQueueBind
  rw [if_neg (by simp [hs, hq, hr, hc, hpa]; omega)]
  rfl

/-- The three words of a control block that stands in a row are zero, and nothing else has changed. -/
theorem State.ctlZeroed_mem {s : State} {b : Binding} {p : Nat} (hq : s.queues = []) (hwf : s.mem.wf = true) (h0 : s.ctlPA b 0 = some p) (h8 : (s.ctlWrite b 0 0).ctlPA b 8 = some (p + 8))
    (h16 : ((s.ctlWrite b 0 0).ctlWrite b 8 0).ctlPA b 16 = some (p + 16)) (j : Nat) : (s.ctlZeroed b).mem.get j = if p ≤ j ∧ j < p + 24 then 0 else s.mem.get j := by
  have hq8 : (s.ctlWrite b 0 0).queues = [] := (homeWork_ctlWrite ..).queues.trans hq
  have hq16 : ((s.ctlWrite b 0 0).ctlWrite b 8 0).queues = [] := (homeWork_ctlWrite ..).queues.trans hq8
  have hmem : (s.ctlZeroed b).mem = ((s.mem.write p (natBytes 8 0)).write (p + 8) (natBytes 8 0)).write (p + 16) (natBytes 8 0) := by
    unfold State.ctlZeroed
    rw [State.ctlWrite_eq h16, State.homeStore_mem hq16, State.ctlWrite_eq h8, State.homeStore_mem hq8, State.ctlWrite_eq h0, State.homeStore_mem hq]
  have hwf8 := Mem.wf_write (natBytes 8 0) hwf p
  rw [hmem, Mem.get_write_zeros (Mem.wf_write _ hwf8 _), Mem.get_write_zeros hwf8, Mem.get_write_zeros hwf, ← ite_or, ← ite_or]
  exact if_congr (by omega) rfl rfl

theorem exec_queueUnbind_free {s : State} {q : Fin 1024} {x : Queue} (h : s.queue q.val = some x) (hs : s.supervised = true) (hst : x.st = .idle ∨ x.st = .waitReady)
    (hL : ∀ L ∈ s.launches, L.queue ≠ x.q) : exec (.queueUnbind q) s = .next { s with queues := s.queues.filter (fun y => y.q != q.val) } := by
  have hbusy : s.queueBusy x = false := by
    have hnone : s.launches.any (fun L => L.queue == x.q) = false := List.any_eq_false.mpr (fun L hm => by simpa using hL L hm)
    unfold State.queueBusy
    rw [hnone]
    rcases hst with hst | hst <;> simp [hst]
  show execQueueUnbind q s = _
  unfold execQueueUnbind
  rw [h]
  dsimp only
  rw [if_neg (by simp [hs, hbusy])]

theorem exec_queueUnbind_busy {s : State} {q : Fin 1024} {x : Queue} (h : s.queue q.val = some x)
    (hb : x.st ≠ .idle ∧ x.st ≠ .waitReady ∨ ∃ L ∈ s.launches, L.queue = x.q) : exec (.queueUnbind q) s = .next s := by
  have hbusy : s.queueBusy x = true := by
    unfold State.queueBusy
    rcases hb with ⟨hi, hw⟩ | ⟨L, hL, hq⟩
    · simp [hi, hw]
    · simp only [Bool.or_eq_true, List.any_eq_true]
      exact .inr ⟨L, hL, by simp [hq]⟩
  show execQueueUnbind q s = _
  unfold execQueueUnbind
  rw [h]
  exact congrArg _ (if_pos (.inr hbusy))

/-! ## What the checks of a record leave (R130, R131, R151) -/

theorem sending_noteMembers (s : State) (L : Launch) : Sending s (s.noteMembers L) := by
  refine .over (fun u x => ?_) _ s
  split
  · refine .over (fun v q => ?_) _ u
    unfold State.noteUnit State.send
    split
    · exact .refl v
    · exact ⟨v.rxq, _, rfl⟩
  · exact .refl u

/-- From s to t a record has been checked: no queue has moved on, and memory has changed only if management was told of it. -/
structure RecordChecked (s t : State) : Prop where
  heads : t.queues.map (fun x => (x.q, x.n)) = s.queues.map (fun x => (x.q, x.n))
  quiet : t.mgmtOut = s.mgmtOut → t.mem = s.mem

theorem RecordChecked.head {s t : State} (h : RecordChecked s t) (q : Nat) : (t.queue q).map (·.n) = (s.queue q).map (·.n) := by
  have hrow (u : State) : (u.queue q).map (·.n) = ((u.queues.map (fun x => (x.q, x.n))).find? (fun x => x.1 == q)).map (·.2) := by
    rw [List.find?_map, Option.map_map]
    rfl
  rw [hrow, hrow, h.heads]

theorem heads_modQueue (s : State) (q : Nat) {f : Queue → Queue} (hf : ∀ y, (f y).q = y.q ∧ (f y).n = y.n) :
    (s.modQueue q f).queues.map (fun x => (x.q, x.n)) = s.queues.map (fun x => (x.q, x.n)) := by
  unfold State.modQueue
  dsimp only
  rw [List.map_map]
  refine List.map_congr_left (fun y _ => ?_)
  dsimp only [Function.comp_apply]
  split
  · rw [(hf y).1, (hf y).2]
  · rfl

/-- A queue whose record has left it. -/
def Queue.ended (id : Nat) (x : Queue) : Queue := { x with st := .idle, cur := none, raw := [], rawTags := [], last := some id, unfit := false }

theorem State.endEarly_eq (s : State) (x : Queue) (L : Launch) (code : BitVec 8) : s.endEarly x L code =
    { s.modQueue x.q (Queue.ended L.id) with launches := s.launches ++ [{ L with refusal := code, placedLaunch := false }] } := rfl

theorem recordChecked_endEarly (s : State) (x : Queue) (L : Launch) (code : BitVec 8) : RecordChecked s (s.endEarly x L code) :=
  ⟨heads_modQueue s x.q (f := Queue.ended L.id) (fun _ => ⟨rfl, rfl⟩), fun _ => rfl⟩

/-- A launch that ends before it is placed stands with its code, and its queue is IDLE (R130). -/
theorem State.endEarly_spec {s : State} {q : Nat} {x : Queue} (h : s.queue q = some x) {y : Queue} (hy : y.q = q) (L : Launch) (code : BitVec 8) :
    (s.endEarly y L code).launches = s.launches ++ [{ L with refusal := code, placedLaunch := false }] ∧ ((s.endEarly y L code).queue q).map (·.st) = some .idle := by
  refine ⟨rfl, ?_⟩
  rw [State.endEarly_eq, hy]
  exact congrArg (Option.map (·.st)) (State.queue_modQueue_of h (f := Queue.ended L.id) (fun _ hx => hx))

/-- A refusal that no event word can report: management is told. -/
theorem recordChecked_refuseRaw (s : State) (x : Queue) (L : Launch) (code : BitVec 8) : RecordChecked s (s.refuseRaw x L code) := by
  let u : State := (s.noteMembers L).modQueue x.q (Queue.ended L.id)
  obtain ⟨_, _, hsent⟩ := sending_noteMembers s L
  have hwork : HomeWork u (u.ctlWrite x.binding 16 (code.toNat * 2 ^ 56 + (x.n - 1) % 2 ^ 56)) := homeWork_ctlWrite ..
  refine ⟨?_, fun htold => ?_⟩
  · refine (congrArg (List.map _) hwork.queues).trans ((heads_modQueue _ x.q (f := Queue.ended L.id) (fun _ => ⟨rfl, rfl⟩)).trans ?_)
    rw [hsent]
  · have hmore : (s.refuseRaw x L code).mgmtOut = s.mgmtOut ++ [.msix 2] := by
      refine (congrArg (· ++ [MgmtOut.msix 2]) hwork.mgmtOut).trans (congrArg (· ++ [MgmtOut.msix 2]) ?_)
      show (s.noteMembers L).mgmtOut = s.mgmtOut
      rw [hsent]
    rw [hmore] at htold
    simp at htold

theorem homeTouched_logRead (s : State) (asid obj off n : Nat) : HomeTouched s (s.logRead asid obj off n) := by
  unfold State.logRead
  split
  · exact homeTouched_logLost ..
  · exact homeTouched_logError ..
  · exact .refl s

theorem homeTouched_logReads (s : State) (L : Launch) : HomeTouched s (s.logReads L) := by
  unfold State.logReads
  split <;> exact homeTouched_logRead ..

/-- A loss is reported before a refusal: queues, launches and memory are as they were. -/
theorem State.logReads_kept (s : State) (L : Launch) (c : Prop) [Decidable c] : (if c then s.logReads L else s).queues = s.queues ∧
    (if c then s.logReads L else s).launches = s.launches ∧ (if c then s.logReads L else s).mem = s.mem := by
  split
  · have h := homeTouched_logReads s L
    exact ⟨h.homeWork.queues, h.homeWork.launches, h.mem⟩
  · exact ⟨rfl, rfl, rfl⟩

theorem recordChecked_onVerdict (s : State) (x : Queue) (L : Launch) (counted : Bool) (v : Verdict) {go : Launch → State} (hgo : ∀ M, RecordChecked s (go M)) :
    RecordChecked s (s.onVerdict x L counted v go) := by
  unfold State.onVerdict
  split
  · exact ⟨rfl, fun _ => rfl⟩
  · next code =>
    obtain ⟨hq, -, hm⟩ := s.logReads_kept L (code = 0x13#8)
    have hend := recordChecked_endEarly (if code = 0x13#8 then s.logReads L else s) x L code
    exact ⟨hend.heads.trans (congrArg _ hq), fun _ => hm⟩
  · exact ⟨heads_modQueue _ x.q (fun _ => ⟨rfl, rfl⟩), fun _ => rfl⟩
  · split
    · exact recordChecked_endEarly ..
    · exact hgo _

/-- The checks leave every queue where it stands, and memory unless management is told. -/
theorem recordChecked_checkRecord (s : State) (x : Queue) : RecordChecked s (s.checkRecord x) := by
  unfold State.checkRecord
  split
  · exact ⟨rfl, fun _ => rfl⟩
  · split
    · exact recordChecked_refuseRaw ..
    · exact recordChecked_onVerdict s x _ _ _ (fun M => ⟨heads_modQueue s x.q (fun _ => ⟨rfl, rfl⟩), fun _ => rfl⟩)

/-! ## Records that are consumed (R114, R115) -/

theorem exec_recordConsumption_idle {s : State} {q : Fin 1024} {x : Queue} (h : s.queue q.val = some x) (hs : x.stall = none) (hst : x.st = .idle)
    (hn : x.n < s.tailOf x.binding) (hL : ∀ L ∈ s.launches, L.queue = x.q → L.placedLaunch = true) :
    exec (.recordConsumption q) s = .next (s.modQueue q.val (fun y => { y with st := .waitReady })) := by
  have hends : s.unplacedEnds x = false := List.any_eq_false.mpr (fun L hm => by simpa using hL L hm)
  have hcan : s.canConsume x = true := by
    unfold State.canConsume
    rw [hst, hs, hends]
    simpa using hn
  show execRecordConsumption q s = _
  unfold execRecordConsumption
  rw [h]
  dsimp only
  rw [if_neg (by simp [hcan]), hst]

/-- A queue that has consumed the record at its HEAD. -/
def Queue.consumed (x : Queue) (L : Launch) (raw : List Byte) (tags : List Bool) : Queue :=
  { x with st := .check, n := x.n + 1, raw := raw, rawTags := tags, cur := some L, unfit := false, told := false }

/-- HEAD of a consumed record, as it stands in the queue and in its control block. -/
def State.headMoved (s : State) (x x' : Queue) : State := (s.stamp.modQueue x.q (fun _ => x')).ctlWrite x.binding 8 (x.n + 1)

/-- A record that can be read is taken, HEAD advances, and the checks begin. -/
theorem State.consume_eq {s : State} {x : Queue} {p : Nat} {m : Bool} (hx : s.xlatNow false ⟨x.binding.asid, x.binding.ringObj, x.place, 256, false, false⟩ = .pa p m)
    (hb : s.isBad p 256 = false) : ∃ u L raw tags, HomeTouched s u ∧ s.consume x = (u.headMoved x (x.consumed L raw tags)).checkRecord (x.consumed L raw tags) := by
  let u : State := s.over [0, 64, 128, 192] (fun s k => s.homeTouch (p + k) false)
  let raw := s.rd (s.keyOf x.binding.asid) p 256
  let tags := (List.range 16).map (fun k => s.mem.tag (p + 16 * k))
  refine ⟨u, launchOf u.fresh x u.acceptNow raw tags, raw, tags, .over (fun _ _ => homeTouched_homeTouch ..) _ s, ?_⟩
  unfold State.consume
  dsimp only
  rw [hx]
  dsimp only
  rw [if_neg (by simp [hb])]
  rfl

theorem exec_recordConsumption_ready {s : State} {q : Fin 1024} {x : Queue} (h : s.queue q.val = some x) (hs : x.stall = none) (hst : x.st = .waitReady) {bs : List Byte}
    (hr : s.readyRead x = .bytes bs) (hn : bytesNat bs = (x.n + 1) % 2 ^ 32) {p : Nat} {m : Bool}
    (hx : s.xlatNow false ⟨x.binding.asid, x.binding.ringObj, x.place, 256, false, false⟩ = .pa p m) (hb : s.isBad p 256 = false) (hc : s.ctlHeld x.binding = false)
    (hl : s.spanLatched false (.mem [(p, 256)]) = false) : exec (.recordConsumption q) s = .next (s.consume x) := by
  have hread : s.dRead x.binding.asid x.binding.ringObj x.place 256 = .bytes (s.rd (s.keyOf x.binding.asid) p 256) := by
    unfold State.dRead
    rw [hx]
    dsimp only
    rw [if_neg (by simp [hl]), if_neg (by simp [hb])]
  have hcan : s.canConsume x = true := by
    unfold State.canConsume
    rw [hst, hs, hr]
    dsimp only
    rw [hread, hn, hc]
    simp
  show execRecordConsumption q s = _
  unfold execRecordConsumption
  rw [h]
  dsimp only
  rw [if_neg (by simp [hcan]), hst]
  dsimp only
  rw [hr]

/-- Where HEAD advances, the queue has moved on, and its control block says so. -/
theorem State.headMoved_spec {s : State} {q : Nat} {x x' : Queue} (h : s.queue q = some x) (hb : x'.binding = x.binding) (hq : x'.q = x.q) (hwf : s.mem.wf = true) {p : Nat}
    (hp : s.ctlPA x.binding 8 = some p) (ht : ∀ w ∈ s.tailWords, w + 8 ≤ p ∨ p + 8 ≤ w) :
    (s.headMoved x x').queue q = some x' ∧ (s.headMoved x x').mem.num p 8 = (x.n + 1) % 2 ^ 64 ∧ (s.headMoved x x').mgmtOut = s.mgmtOut := by
  let u : State := s.stamp.modQueue x.q (fun _ => x')
  have hxq := State.q_of_queue h
  have htail : ∀ w ∈ u.tailWords, w ∈ s.tailWords := by
    intro w hw
    obtain ⟨y, hy, hpa⟩ := List.mem_filterMap.mp hw
    obtain ⟨z, hz, rfl⟩ := List.mem_map.mp hy
    split at hpa
    · rw [hb] at hpa
      exact List.mem_filterMap.mpr ⟨x, List.mem_of_find?_eq_some h, hpa⟩
    · exact List.mem_filterMap.mpr ⟨z, hz, hpa⟩
  have hwork : HomeWork u (s.headMoved x x') := homeWork_ctlWrite ..
  have hmem : (s.headMoved x x').mem = s.mem.write p (natBytes 8 (x.n + 1)) := by
    have hpa : u.ctlPA x.binding 8 = some p := hp
    unfold State.headMoved
    rw [State.ctlWrite_eq hpa, State.homeStore_apart (fun w hw => by rw [natBytes_length]; exact ht w (htail w hw))]
    rfl
  refine ⟨?_, ?_, hwork.mgmtOut⟩
  · have hsame : (s.headMoved x x').queue x.q = u.queue x.q := by
      unfold State.queue
      rw [hwork.queues]
    have hstamp : s.stamp.queue x.q = some x := hxq.symm ▸ h
    rw [← hxq, hsame]
    exact State.queue_modQueue_of hstamp (fun _ _ => hq)
  · rw [hmem, Mem.num_natBytes hwf]

/-- What the consumption of a record leaves: HEAD has advanced, in the control block too unless management was told of the record. -/
theorem State.consume_spec {s : State} {q : Nat} {x : Queue} (h : s.queue q = some x) {p : Nat} {m : Bool}
    (hx : s.xlatNow false ⟨x.binding.asid, x.binding.ringObj, x.place, 256, false, false⟩ = .pa p m) (hb : s.isBad p 256 = false) (hwf : s.mem.wf = true) {a : Nat}
    (ha : s.ctlPA x.binding 8 = some a) (ht : ∀ w ∈ s.tailWords, w + 8 ≤ a ∨ a + 8 ≤ w) :
    ((s.consume x).queue q).map (·.n) = some (x.n + 1) ∧ ((s.consume x).mgmtOut = s.mgmtOut → (s.consume x).mem.num a 8 = (x.n + 1) % 2 ^ 64) := by
  obtain ⟨u, L, raw, tags, hu, he⟩ := State.consume_eq hx hb
  have hqueues := hu.homeWork.queues
  have hsame : SameTables s u := ⟨hu.mem, hu.homeWork.spacesKept.asids, hqueues⟩
  have hqu : u.queue q = some x := by
    unfold State.queue
    rw [hqueues]
    exact h
  have hpa : u.ctlPA x.binding 8 = some a := by
    unfold State.ctlPA
    rw [hsame.paOf]
    exact ha
  have hwfu : u.mem.wf = true := by
    rw [hu.mem]
    exact hwf
  have htu : ∀ w ∈ u.tailWords, w + 8 ≤ a ∨ a + 8 ≤ w := by
    rw [hsame.tailWords]
    exact ht
  obtain ⟨hqueue, hnum, htold⟩ := State.headMoved_spec (x' := x.consumed L raw tags) hqu rfl rfl hwfu hpa htu
  have hchecked := recordChecked_checkRecord (u.headMoved x (x.consumed L raw tags)) (x.consumed L raw tags)
  rw [he]
  refine ⟨?_, fun hm => ?_⟩
  · rw [hchecked.head, hqueue]
    rfl
  · rw [hchecked.quiet (hm.trans (htold.trans hu.homeWork.mgmtOut).symm), hnum]

end Sys2Proof.Machine
end

section
/-! PROOFS. Records that are checked, wait on their dependences and are handed over to the placer (R115, R128, R130, R131, R149). -/

namespace Sys2Proof.Machine

/-! ## Checks (R115, R130) -/

/-- A queue in CHECK whose record can be reported is checked, unless a line the checks read is held. -/
theorem exec_recordConsumption_check {s : State} {q : Fin 1024} {x : Queue} {L : Launch} (h : s.queue q.val = some x) (hs : x.stall = none) (hst : x.st = .check) (hL : x.cur = some L)
    (hc : s.ctlHeld x.binding = false) (hv : s.checkRest x L ≠ .hold) : exec (.recordConsumption q) s = .next (s.checkRecord x) := by
  have hheld : s.checkHeld x = false := by
    unfold State.checkHeld
    simp [hL, hv]
  have hcan : s.canConsume x = true := by
    unfold State.canConsume
    simp [hst, hs, hc, hheld]
  show execRecordConsumption q s = _
  unfold execRecordConsumption
  rw [h]
  dsimp only
  rw [if_neg (by simp [hcan]), hst]

/-- A record whose event word can be written is judged by the other checks. -/
theorem State.checkRecord_eq {s : State} {x : Queue} {L : Launch} (hL : x.cur = some L) (he : s.eventOk x.binding L = true) : s.checkRecord x =
    s.onVerdict x L (L.early || !L.indirect) (s.checkRest x L) (fun M => s.modQueue x.q (fun y => { y with st := .depWait, cur := some M, unfit := false, told := false })) := by
  unfold State.checkRecord
  rw [hL]
  exact if_neg (by simp [he])

theorem State.onVerdict_pass_go (s : State) (x : Queue) (L : Launch) {counted : Bool} {M : Launch} (h : counted = false ∨ M.count ≠ 0) (go : Launch → State) :
    s.onVerdict x L counted (.pass M) go = go M := if_neg (by rcases h with h | h <;> simp [h])

theorem State.onVerdict_pass_end (s : State) (x : Queue) (L : Launch) {counted : Bool} {M : Launch} (h : counted = true) (h0 : M.count = 0) (go : Launch → State) :
    s.onVerdict x L counted (.pass M) go = s.endEarly x M 0 := if_pos (by simp [h, h0])

/-- A refused record leaves its queue, and stands with its code. -/
theorem State.onVerdict_refuse_spec {s : State} {q : Nat} {x : Queue} (h : s.queue q = some x) (L : Launch) (counted : Bool) (code : BitVec 8) (go : Launch → State) :
    (s.onVerdict x L counted (.refuse code) go).launches = s.launches ++ [{ L with refusal := code, placedLaunch := false }] ∧
    ((s.onVerdict x L counted (.refuse code) go).queue q).map (·.st) = some .idle ∧ (s.onVerdict x L counted (.refuse code) go).mem = s.mem := by
  obtain ⟨hq, hls, hm⟩ := s.logReads_kept L (code = 0x13#8)
  have hqueue : (if code = 0x13#8 then s.logReads L else s).queue q = some x := by
    unfold State.queue
    rw [hq]
    exact h
  obtain ⟨hend, hidle⟩ := State.endEarly_spec hqueue (State.q_of_queue h) L code
  rw [hls] at hend
  exact ⟨hend, hidle, hm⟩

/-! ## Dependences (R128, R129) -/

/-- A record whose dependences have been seen met. -/
def Launch.undepended (L : Launch) : Launch := { L with dep0 := (L.dep0.1, 0), dep1 := (L.dep1.1, 0) }

theorem State.depMet_of {s : State} {L : Launch} {d : Nat × Word} (h : d.2 = 0 ∨ ∃ bs, s.depRead L d = .bytes bs ∧ d.2.toNat ≤ bytesNat bs) : s.depMet L d = true := by
  unfold State.depMet
  rcases h with h | ⟨bs, hbs, hle⟩
  · simp [h]
  · simp [hbs, DRead.num, hle]

theorem State.noteDeps_of {s : State} {L : Launch} (h : ∀ d ∈ [L.dep0, L.dep1], d.2 = 0 ∨ ∃ bs, s.depRead L d = .bytes bs ∧ d.2.toNat ≤ bytesNat bs) : s.noteDeps L = L.undepended := by
  unfold State.noteDeps
  rw [State.depMet_of (h _ (by simp)), State.depMet_of (h _ (by simp))]
  rfl

/-- A queue in DEPWAIT whose dependences are met goes on as the count word says. -/
theorem exec_dependenceMet {s : State} {q : Fin 1024} {x : Queue} {L N : Launch} (h : s.queue q.val = some x) (hs : x.stall = none) (hst : x.st = .depWait) (hL : x.cur = some L)
    (hd : ∀ d ∈ [L.dep0, L.dep1], d.2 = 0 ∨ ∃ bs, s.depRead L d = .bytes bs ∧ d.2.toNat ≤ bytesNat bs) (hp : L.early = true ∨ ∀ n, x.last = some n → s.launch n = none)
    (hN : s.atEnd x L.undepended = .pass N) : exec (.dependenceMet q) s = .next ((s.modQueue q.val (fun y => { y with cur := some L.undepended })).onVerdict x L.undepended true (.pass N)
      (fun M => (s.modQueue q.val (fun y => { y with cur := some L.undepended })).modQueue q.val (fun y => { y with st := .handover, cur := some M, unfit := false }))) := by
  have hnote := State.noteDeps_of hd
  have hdone : s.depsDone x L.undepended = true := by
    unfold State.depsDone State.prevDone
    rcases hp with hp | hp
    · simp [Launch.undepended, hp]
    · cases hlast : x.last with
      | none => simp [Launch.undepended]
      | some n => simp [Launch.undepended, hp n hlast]
  have hcan : s.canDepend x = true := by
    unfold State.canDepend
    rw [hL]
    dsimp only
    rw [hnote, hdone, hN]
    simp [hst, hs]
  have hN' : (s.modQueue q.val (fun y => { y with cur := some L.undepended })).atEnd x L.undepended = .pass N := hN
  have hdone' : (s.modQueue q.val (fun y => { y with cur := some L.undepended })).depsDone x L.undepended = true := hdone
  show execDependenceMet q s = _
  unfold execDependenceMet
  rw [h]
  dsimp only
  rw [hL]
  dsimp only
  rw [if_neg (by simp [hcan]), hnote, if_pos hdone', hN']

theorem dependenceMet_spec {s : State} {q : Fin 1024} {x : Queue} {L N : Launch} (h : s.queue q.val = some x) (hs : x.stall = none) (hst : x.st = .depWait) (hL : x.cur = some L)
    (hd : ∀ d ∈ [L.dep0, L.dep1], d.2 = 0 ∨ ∃ bs, s.depRead L d = .bytes bs ∧ d.2.toNat ≤ bytesNat bs) (hp : L.early = true ∨ ∀ n, x.last = some n → s.launch n = none)
    (hN : s.atEnd x L.undepended = .pass N) :
    (N.count ≠ 0 → ∃ t, exec (.dependenceMet q) s = .next t ∧ t.queue q.val = some { x with st := .handover, cur := some N, unfit := false } ∧ t.mem = s.mem ∧ t.launches = s.launches) ∧
    (N.count = 0 → ∃ t, exec (.dependenceMet q) s = .next t ∧ t.launches = s.launches ++ [{ N with refusal := 0, placedLaunch := false }] ∧ (t.queue q.val).map (·.st) = some .idle ∧ t.mem = s.mem) := by
  have hqueue : (s.modQueue q.val (fun y => { y with cur := some L.undepended })).queue q.val = some { x with cur := some L.undepended } :=
    State.queue_modQueue_of h (fun _ hy => hy)
  refine ⟨fun hn => ⟨_, exec_dependenceMet h hs hst hL hd hp hN, ?_⟩, fun hn => ⟨_, exec_dependenceMet h hs hst hL hd hp hN, ?_⟩⟩
  · rw [State.onVerdict_pass_go _ _ _ (.inr hn)]
    exact ⟨State.queue_modQueue_of hqueue (fun _ hy => hy), rfl, rfl⟩
  · rw [State.onVerdict_pass_end _ _ _ rfl hn]
    obtain ⟨hend, hidle⟩ := State.endEarly_spec hqueue (State.q_of_queue h) N 0
    exact ⟨hend, hidle, rfl⟩

/-! ## Hand-over (R149, R150) -/

/-- A queue whose record has been handed over. -/
def Queue.handed (id : Nat) (x : Queue) : Queue := { x with st := .idle, cur := none, raw := [], rawTags := [], last := some id }

/-- A launch that the placer's table has taken. -/
def State.handedOver (s : State) (q : Nat) (L : Launch) : State := { s.modQueue q (Queue.handed L.id) with launches := s.launches ++ [{ L with placedLaunch := true }] }

theorem State.handedOver_queue {s : State} {q : Nat} {x : Queue} (h : s.queue q = some x) (L : Launch) : (s.handedOver q L).queue q = some (x.handed L.id) :=
  State.queue_modQueue_of h (f := Queue.handed L.id) (fun _ hx => hx)

theorem exec_launchHandover {s : State} {q : Fin 1024} {x : Queue} {L : Launch} (h : s.queue q.val = some x) (hst : x.st = .handover) (hL : x.cur = some L) (hr : s.tableRoom = true) :
    exec (.launchHandover q) s = .next (if !L.cores then s.handedOver q.val L else match s.wholePlan { L with placedLaunch := true } with
      | none => s.endEarly x { L with placedLaunch := true } 0x6B#8
      | some gs => (s.handedOver q.val L).takeWhole { L with placedLaunch := true } gs) := by
  show execLaunchHandover q s = _
  unfold execLaunchHandover
  rw [h]
  dsimp only
  rw [hL]
  dsimp only
  rw [if_neg (by simp [hst, hr])]
  rfl

/-- A CORES launch that is taken holds its groups; its record has left its queue. -/
theorem takeWhole_handedOver {s : State} {q : Nat} {x : Queue} (h : s.queue q = some x) (L : Launch) (gs : List (List Nat)) : ∃ t, (s.handedOver q L).takeWhole { L with placedLaunch := true } gs = t ∧
    t.launches = s.launches ++ [{ L with placedLaunch := true }] ∧ t.holds = s.holds ++ ((List.range L.gangCount).zip gs).map (fun y => ⟨y.2, L.id, y.1⟩) ∧ (t.queue q).map (·.st) = some .idle ∧ t.mem = s.mem := by
  let M : Launch := { L with placedLaunch := true }
  obtain ⟨xs, hclaim⟩ := (s.handedOver q L).claimGroups_spec M.whole gs
  obtain ⟨us, hs, hbind⟩ := unitsBound_bindUnits ((s.handedOver q L).claimGroups M.whole gs) M gs
  rw [hclaim] at hbind
  refine ⟨_, (congrArg (fun u => State.bindUnits u M gs) hclaim).trans hbind, rfl, rfl, ?_, rfl⟩
  exact congrArg (Option.map (·.st)) (State.handedOver_queue h L)

end Sys2Proof.Machine
end

section
/-! PROOFS. Launches that complete: their cores release, and the event word is written (R126, R127). -/

namespace Sys2Proof.Machine

/-! ## The event word (R126) -/

theorem toNat_append_sum {m n : Nat} (x : BitVec m) (y : BitVec n) : (x ++ y).toNat = x.toNat * 2 ^ n + y.toNat := by
  rw [BitVec.toNat_append, ← Nat.shiftLeft_add_eq_or_of_lt y.isLt, Nat.shiftLeft_eq]

/-- The value of a word of the four fields of an event. -/
theorem toNat_eventFields (code : BitVec 8) (tag aborts : BitVec 12) (value : Word) : (code ++ tag ++ aborts ++ value).toNat = value.toNat + 2 ^ 32 * aborts.toNat + 2 ^ 44 * tag.toNat + 2 ^ 56 * code.toNat := by
  rw [toNat_append_sum, toNat_append_sum, toNat_append_sum]
  omega

theorem toNat_later (v w : Word) : (if w.toNat ≤ v.toNat then v else w).toNat = max w.toNat v.toNat := by
  split <;> omega

theorem toNat_firstCode (c e : BitVec 8) : (if (c == 0#8 && e != 0) = true then e else c).toNat = if c.toNat = 0 then e.toNat else c.toNat := by
  by_cases hc : c = 0#8
  · by_cases he : e = 0#8 <;> simp [hc, he]
  · have hn : c.toNat ≠ 0 := fun h => hc (BitVec.eq_of_toNat_eq h)
    simp [hc, hn]

theorem Launch.eventAfter_eq (L : Launch) (w : DWord) : ∃ tag : BitVec 12, L.eventAfter w =
    (if ((w >>> 56).setWidth 8 == 0#8 && L.endCode != 0) = true then L.endCode else (w >>> 56).setWidth 8) ++ tag ++ BitVec.ofNat 12 (min 0xFFF (bitsOf w.toNat 32 12 + L.aborted)) ++
      (if (w.setWidth 32).toNat ≤ L.compVal.toNat then L.compVal else w.setWidth 32) := ⟨_, rfl⟩

/-- COUNT only grows, ABORTED adds up to its most, and the first CODE stands. -/
theorem Launch.eventAfter_fields (L : Launch) (w : DWord) : (L.eventAfter w).toNat % 2 ^ 32 = max (w.toNat % 2 ^ 32) L.compVal.toNat ∧
    (L.eventAfter w).toNat / 2 ^ 32 % 4096 = min 0xFFF (w.toNat / 2 ^ 32 % 4096 + L.aborted) ∧
    (L.eventAfter w).toNat / 2 ^ 56 = if w.toNat / 2 ^ 56 = 0 then L.endCode.toNat else w.toNat / 2 ^ 56 := by
  obtain ⟨tag, he⟩ := L.eventAfter_eq w
  have hcode : ((w >>> 56).setWidth 8).toNat = w.toNat / 2 ^ 56 := by
    rw [BitVec.toNat_setWidth, BitVec.toNat_ushiftRight, Nat.shiftRight_eq_div_pow]
    omega
  have hvalue : (w.setWidth 32).toNat = w.toNat % 2 ^ 32 := BitVec.toNat_setWidth ..
  have haborts : (BitVec.ofNat 12 (min 0xFFF (bitsOf w.toNat 32 12 + L.aborted))).toNat = min 0xFFF (w.toNat / 2 ^ 32 % 4096 + L.aborted) := by
    unfold bitsOf
    rw [BitVec.toNat_ofNat]
    omega
  rw [he, toNat_eventFields, toNat_later, toNat_firstCode, hcode, hvalue, haborts]
  have hv := L.compVal.isLt
  have ht := tag.isLt
  have hc := L.endCode.isLt
  refine ⟨by omega, by omega, ?_⟩
  split <;> omega

/-! ## Completion (R127) -/

theorem homeWork_releaseAll (s : State) (core scope : Nat) : HomeWork s (s.releaseAll core scope).1 := by
  unfold State.releaseAll
  split
  · exact .refl s
  · exact homeWork_drainGo ..

theorem homeWork_coresReleaseAll (s : State) (cs : List Nat) : HomeWork s (s.coresReleaseAll cs) :=
  State.over_keeps (P := HomeWork s) (fun u c hu => hu.trans (homeWork_releaseAll u c 5)) cs (.refl s)

theorem exec_launchCompletion {s : State} {L : Launch} (h : s.launch L.id = some L) (he : s.ending L = true) (hs : L.stall = none) (hr : s.coresReleased L = true)
    (hc : s.completionHeld L = false) : exec (.launchCompletion L.id) s = .next ((s.coresReleaseAll (s.coresRun L)).writeEvent L) := by
  have hcan : s.canComplete L = true := by
    unfold State.canComplete
    simp [he, hs, hr, hc]
  show execLaunchCompletion L.id s = _
  unfold execLaunchCompletion
  rw [h]
  dsimp only
  rw [if_neg (by simp [hcan])]
  rfl

theorem State.writeEvent_eq {s : State} {L : Launch} {p : Nat} {m : Bool} (hx : s.xlatNow false ⟨L.asid, L.event.obj.toNat, L.event.base.toNat + L.compOff, 8, true, L.event.kind == 4#4⟩ = .pa p m)
    (hl : s.latched p = false) (hb : s.isBad p 8 = false) : s.writeEvent L =
      (s.homeStore (s.keyOf L.asid) p (natBytes 8 (L.eventAfter (BitVec.ofNat 64 (bytesNat (s.rd (s.keyOf L.asid) p 8)))).toNat)).dropLaunch L := by
  unfold State.writeEvent
  dsimp only
  rw [hx]
  dsimp only
  rw [if_neg (by simp [hl]), if_neg (by simp [hb])]

theorem State.dropLaunch_spec (s : State) (L : Launch) : (s.dropLaunch L).launches = s.launches.filter (fun x => x.id != L.id) ∧ (s.dropLaunch L).mem = s.mem := by
  obtain ⟨_, _, hsent⟩ := sending_noteMembers s L
  unfold State.dropLaunch
  rw [hsent]
  exact ⟨rfl, rfl⟩

/-- A completion leaves the event word combined with what it held, and nothing of its launch. -/
theorem State.writeEvent_spec {s : State} {L : Launch} {p : Nat} {m : Bool} (hx : s.xlatNow false ⟨L.asid, L.event.obj.toNat, L.event.base.toNat + L.compOff, 8, true, L.event.kind == 4#4⟩ = .pa p m)
    (hl : s.latched p = false) (hb : s.isBad p 8 = false) (hwf : s.mem.wf = true) (ht : ∀ w ∈ s.tailWords, w + 8 ≤ p ∨ p + 8 ≤ w) :
    (s.writeEvent L).launches = s.launches.filter (fun x => x.id != L.id) ∧ (∀ j, j < p ∨ p + 8 ≤ j → (s.writeEvent L).mem.get j = s.mem.get j) ∧
      (s.writeEvent L).mem.num p 8 = (L.eventAfter (BitVec.ofNat 64 (bytesNat (s.rd (s.keyOf L.asid) p 8)))).toNat := by
  let after : DWord := L.eventAfter (BitVec.ofNat 64 (bytesNat (s.rd (s.keyOf L.asid) p 8)))
  let u : State := s.homeStore (s.keyOf L.asid) p (natBytes 8 after.toNat)
  have hwork : HomeWork s u := homeWork_homeStore ..
  have hstored : u.mem = s.mem.write p (natBytes 8 after.toNat) := State.homeStore_apart (by rwa [natBytes_length]) _
  obtain ⟨hlaunches, hmem⟩ := u.dropLaunch_spec L
  rw [hwork.launches] at hlaunches
  rw [hstored] at hmem
  rw [State.writeEvent_eq hx hl hb]
  refine ⟨hlaunches, fun j hj => ?_, ?_⟩
  · rw [hmem, Mem.get_write _ hwf, natBytes_length, if_neg (by omega)]
  · rw [hmem, Mem.num_natBytes hwf]
    exact Nat.mod_eq_of_lt after.isLt

/-- A doubleword of memory is the value of its eight bytes. -/
theorem State.toNat_rd (s : State) (key a : Nat) : (BitVec.ofNat 64 (bytesNat (s.rd key a 8))).toNat = bytesNat (s.rd key a 8) := by
  have hlen : (s.rd key a 8).length = 8 := by simp [State.rd]
  have hlt := bytesNat_lt (s.rd key a 8)
  rw [hlen] at hlt
  rw [BitVec.toNat_ofNat]
  exact Nat.mod_eq_of_lt (by omega)

end Sys2Proof.Machine
end

section
/-! PROOFS. The events of the dispatcher and the placer (R111 to R115, R126 to R131, R135 to R143, R145 to R149). -/

namespace Sys2Proof.Machine

/-! ## Checks and hand-over, clause by clause -/

theorem check_passes {s : State} {q : Fin 1024} {x : Queue} {L M : Launch} (h : s.queue q.val = some x) (hs : x.stall = none) (hst : x.st = .check) (hL : x.cur = some L)
    (he : s.eventOk x.binding L = true) (hc : s.ctlHeld x.binding = false) (hM : s.checkRest x L = .pass M) (hn : M.count ≠ 0 ∨ L.early = false ∧ L.indirect = true) :
    exec (.recordConsumption q) s = .next (s.modQueue q.val (fun y => { y with st := .depWait, cur := some M, unfit := false, told := false })) := by
  have hgo : (L.early || !L.indirect) = false ∨ M.count ≠ 0 := by
    rcases hn with hn | ⟨hearly, hind⟩
    · exact .inr hn
    · exact .inl (by simp [hearly, hind])
  rw [exec_recordConsumption_check h hs hst hL hc (by simp [hM]), State.checkRecord_eq hL he, hM, State.onVerdict_pass_go _ _ _ hgo, State.q_of_queue h]

theorem check_ends {s : State} {q : Fin 1024} {x : Queue} {L M : Launch} (h : s.queue q.val = some x) (hs : x.stall = none) (hst : x.st = .check) (hL : x.cur = some L)
    (he : s.eventOk x.binding L = true) (hc : s.ctlHeld x.binding = false) (hM : s.checkRest x L = .pass M) (h0 : M.count = 0) (hn : L.early = true ∨ L.indirect = false) :
    exec (.recordConsumption q) s = .next (s.endEarly x M 0) := by
  rw [exec_recordConsumption_check h hs hst hL hc (by simp [hM]), State.checkRecord_eq hL he, hM, State.onVerdict_pass_end _ _ _ (by simpa using hn) h0]

theorem check_refuses {s : State} {q : Fin 1024} {x : Queue} {L : Launch} {code : BitVec 8} (h : s.queue q.val = some x) (hs : x.stall = none) (hst : x.st = .check) (hL : x.cur = some L)
    (he : s.eventOk x.binding L = true) (hc : s.ctlHeld x.binding = false) (hM : s.checkRest x L = .refuse code) : ∃ t, exec (.recordConsumption q) s = .next t ∧
      t.launches = s.launches ++ [{ L with refusal := code, placedLaunch := false }] ∧ (t.queue q.val).map (·.st) = some .idle ∧ t.mem = s.mem := by
  refine ⟨_, exec_recordConsumption_check h hs hst hL hc (by simp [hM]), ?_⟩
  rw [State.checkRecord_eq hL he, hM]
  exact State.onVerdict_refuse_spec h ..

theorem queueBind_spec {s : State} {q : Fin 1024} {b : Binding} {p : Nat} (h : Bindable s q.val b) (hp : s.ctlPA b 0 = some p) :
    (s.ctlHeld b = true → exec (.queueBind q b) s = .next (s.later 1000 (.queueBind q b))) ∧
    (s.ctlHeld b = false → ∃ t, exec (.queueBind q b) s = .next t ∧ t.queues = s.queues ++ [Queue.bound q.val b] ∧
      (s.queues = [] → s.mem.wf = true → (s.ctlWrite b 0 0).ctlPA b 8 = some (p + 8) → ((s.ctlWrite b 0 0).ctlWrite b 8 0).ctlPA b 16 = some (p + 16) →
        ∀ j, t.mem.get j = if p ≤ j ∧ j < p + 24 then 0 else s.mem.get j)) := by
  refine ⟨fun hheld => ?_, fun hfree => ⟨_, (exec_queueBind h).trans (congrArg _ (if_neg (by simp [hfree]))), ?_, fun hq hwf h8 h16 j => ?_⟩⟩
  · rw [exec_queueBind h, if_pos hheld]
  · exact congrArg (· ++ [Queue.bound q.val b]) (homeWork_ctlZeroed s b).queues
  · exact State.ctlZeroed_mem hq hwf hp h8 h16 j

theorem launchHandover_spec {s : State} {q : Fin 1024} {x : Queue} {L : Launch} (h : s.queue q.val = some x) (hst : x.st = .handover) (hL : x.cur = some L) (hr : s.tableRoom = true) :
    (L.cores = false → ∃ t, exec (.launchHandover q) s = .next t ∧ t.launches = s.launches ++ [{ L with placedLaunch := true }] ∧ t.queue q.val = some (x.handed L.id) ∧ t.mem = s.mem) ∧
    (L.cores = true → s.wholePlan { L with placedLaunch := true } = none →
      ∃ t, exec (.launchHandover q) s = .next t ∧ t.launches = s.launches ++ [{ L with placedLaunch := false, refusal := 0x6B }] ∧ t.holds = s.holds ∧ t.units = s.units) ∧
    ∀ gs, L.cores = true → s.wholePlan { L with placedLaunch := true } = some gs → ∃ t, exec (.launchHandover q) s = .next t ∧ t.launches = s.launches ++ [{ L with placedLaunch := true }] ∧
      t.holds = s.holds ++ ((List.range L.gangCount).zip gs).map (fun y => ⟨y.2, L.id, y.1⟩) ∧ (t.queue q.val).map (·.st) = some .idle ∧ t.mem = s.mem := by
  have hexec := exec_launchHandover h hst hL hr
  refine ⟨fun hc => ?_, fun hc hplan => ?_, fun gs hc hplan => ?_⟩
  · rw [if_pos (by simp [hc])] at hexec
    exact ⟨_, hexec, rfl, State.handedOver_queue h L, rfl⟩
  · rw [if_neg (by simp [hc]), hplan] at hexec
    exact ⟨_, hexec, rfl, rfl, rfl⟩
  · rw [if_neg (by simp [hc]), hplan] at hexec
    obtain ⟨t, ht, hspec⟩ := takeWhole_handedOver h L gs
    exact ⟨t, hexec.trans (congrArg _ ht), hspec⟩

/-! ## Completion, placement and halting, clause by clause -/

theorem launchCompletion_spec {s : State} {L : Launch} {p : Nat} {m : Bool} (h : s.launch L.id = some L) (he : s.ending L = true) (hs : L.stall = none) (hr : s.coresReleased L = true)
    (hc : s.completionHeld L = false) {u : State} (hu : s.coresReleaseAll (s.coresRun L) = u)
    (hx : u.xlatNow false ⟨L.asid, L.event.obj.toNat, L.event.base.toNat + L.compOff, 8, true, L.event.kind == 4#4⟩ = .pa p m) (hl : u.latched p = false) (hb : u.isBad p 8 = false)
    (hwf : u.mem.wf = true) (ht : ∀ w ∈ u.tailWords, w + 8 ≤ p ∨ p + 8 ≤ w) :
    ∃ t, exec (.launchCompletion L.id) s = .next t ∧ t.launches = s.launches.filter (fun x => x.id != L.id) ∧ (∀ j, j < p ∨ p + 8 ≤ j → t.mem.get j = u.mem.get j) ∧
      t.mem.num p 8 % 2 ^ 32 = max (bytesNat (u.rd (u.keyOf L.asid) p 8) % 2 ^ 32) L.compVal.toNat ∧
      t.mem.num p 8 / 2 ^ 32 % 4096 = min 0xFFF (bytesNat (u.rd (u.keyOf L.asid) p 8) / 2 ^ 32 % 4096 + L.aborted) ∧
      t.mem.num p 8 / 2 ^ 56 = (if bytesNat (u.rd (u.keyOf L.asid) p 8) / 2 ^ 56 = 0 then L.endCode.toNat else bytesNat (u.rd (u.keyOf L.asid) p 8) / 2 ^ 56) := by
  obtain ⟨hlaunches, hget, hnum⟩ := State.writeEvent_spec hx hl hb hwf ht
  have hfields := L.eventAfter_fields (BitVec.ofNat 64 (bytesNat (u.rd (u.keyOf L.asid) p 8)))
  rw [State.toNat_rd, ← hnum] at hfields
  have hreleased : u.launches = s.launches := hu ▸ (homeWork_coresReleaseAll s _).launches
  rw [hreleased] at hlaunches
  exact ⟨u.writeEvent L, by rw [exec_launchCompletion h he hs hr hc, hu], hlaunches, hget, hfields⟩

theorem gangPlacement_new {s : State} {c : Cand} {gs : List (List Nat)} {L : Launch} (h : s.placeNext = some (c, true, gs)) (hL : s.launch c.launch = some L) (hc : c.saved = false) :
    ∃ t, exec .gangPlacement s = .next t ∧ t.cursors = s.cursors.set c.prio c.queue ∧ (t.launch L.id).map (·.nextGang) = some (L.nextGang + c.gangs.length) ∧
      ∀ x ∈ c.gangs.zip gs, Gang.start s.ticks L.id x.1 x.2 ∈ t.gangs ∧ ∀ j n, x.2[j]? = some n → t.seats L.id (L.size * x.1 + j) n := by
  obtain ⟨_, he⟩ := (s.placeCand c gs).pruneHolds_spec
  refine ⟨_, exec_gangPlacement_places h, ?_⟩
  rw [he]
  exact State.placeCand_new_spec hL hc gs

theorem gangPlacement_saved {s : State} {c : Cand} {gs : List (List Nat)} {L : Launch} (h : s.placeNext = some (c, true, gs)) (hL : s.launch c.launch = some L) (hc : c.saved = true) :
    ∃ t, exec .gangPlacement s = .next t ∧ t.cursors = s.cursors.set c.prio c.queue ∧
      ∀ k cores g, c.gangs = [k] → gs = [cores] → s.gang c.launch k = some g → t.gang c.launch k = some { g with st := .restoring, cores := cores } := by
  obtain ⟨_, he⟩ := (s.placeCand c gs).pruneHolds_spec
  refine ⟨_, exec_gangPlacement_places h, ?_⟩
  rw [he]
  refine ⟨State.placeCand_saved_cursors hL hc gs, fun k cores g hk hgs hg => ?_⟩
  subst hgs
  exact State.placeCand_saved_gang hL hc hk hg

theorem gangPlacement_places {s : State} {c : Cand} {gs : List (List Nat)} {L : Launch} (h : s.placeNext = some (c, true, gs)) (hL : s.launch c.launch = some L) :
    ∃ t, exec .gangPlacement s = .next t ∧ t.cursors = s.cursors.set c.prio c.queue ∧
      (c.saved = false → (t.launch L.id).map (·.nextGang) = some (L.nextGang + c.gangs.length) ∧
        ∀ x ∈ c.gangs.zip gs, Gang.start s.ticks L.id x.1 x.2 ∈ t.gangs ∧ ∀ j n, x.2[j]? = some n → t.seats L.id (L.size * x.1 + j) n) ∧
      (c.saved = true → ∀ k cores g, c.gangs = [k] → gs = [cores] → s.gang c.launch k = some g → t.gang c.launch k = some { g with st := .restoring, cores := cores }) := by
  cases hc : c.saved with
  | false =>
    obtain ⟨t, ht, hcur, hnew⟩ := gangPlacement_new h hL hc
    exact ⟨t, ht, hcur, fun _ => hnew, nofun⟩
  | true =>
    obtain ⟨t, ht, hcur, hsaved⟩ := gangPlacement_saved h hL hc
    exact ⟨t, ht, hcur, nofun, fun _ => hsaved⟩

theorem gangPlacement_claims {s : State} {c : Cand} {gs : List (List Nat)} (h : s.placeNext = some (c, false, gs)) : ∃ t, exec .gangPlacement s = .next t ∧ t.holds = s.holds ++ c.holdsOn gs ∧
    t.mem = s.mem ∧ ∀ o ∈ gs.flatMap s.occupants, o.st = .running → t.halts o.launch o.index := by
  obtain ⟨_, he⟩ := s.claimGroups_spec c gs
  exact ⟨_, exec_gangPlacement_claims h, by rw [he], by rw [he], fun o ho hst => s.claimGroups_halts c gs ho hst⟩

/-- A gang that halts with live fibres: its fibres have everything written back, and nothing in flight. -/
theorem coreHalt_live {s : State} {l k : Nat} {g : Gang} (h : s.gang l k = some g) (hh : s.halted g = true) (hf : s.gangFibres g ≠ []) : ∃ t, exec (.coreHalt l k) s = .next t ∧
    t.gang l k = some { g with st := .saving } ∧ t.mem = s.mem ∧ ∀ w ∈ s.wgs, w.launch = l → w.gang = k →
      ∃ w' ∈ t.wgs, w'.launch = l ∧ w'.wgid = w.wgid ∧ w'.fibres.map (fun f => (f.fid, f.pc, f.seg, f.out, f.infl)) = w.fibres.map (fun f => (f.fid, f.pc, f.seg, [], [])) := by
  refine ⟨_, exec_coreHalt_live h hh hf, ?_, rfl, fun w hw hl hk => ?_⟩
  · have hmod := (s.mapGang l k (Fibre.halt s.ticks)).gang_modGang l k (f := fun g => { g with st := .saving }) (fun _ => ⟨rfl, rfl⟩)
    exact hmod.trans (congrArg (Option.map _) h)
  · exact ⟨_, State.mem_mapGang (Fibre.halt s.ticks) hw hl hk, hl, rfl, Fibre.halted_rows s.ticks w.fibres⟩

/-! ## The obligation -/

/-- Settles O52: each event by what it leaves, the cores' releases and the home slices' writes through what they keep of the queues, the launches and the gangs. -/
theorem dispatcherAndPlacerEvents : Obligations.dispatcher_and_placer_events := by
  unfold Obligations.dispatcher_and_placer_events
  refine ⟨?bind, fun s q x hx => ⟨?unbind, ?bound, fun hs => ⟨?idle, ?ready, ?check, ?depend⟩, ?handover⟩, ?complete, fun s => ⟨?place, ?claim, ?evict⟩, fun s l k g hg => ⟨?quantum, ?halt, ?ended, ?save, ?restore, ?retire⟩⟩
  case bind =>
    intro s q b p hs hq hr hc hlo hhi hp hpa
    exact queueBind_spec ⟨hs, hq, hr, hc, hlo, hhi, hp, p, hpa⟩ hpa
  case unbind => exact fun hs hst hL => ⟨_, exec_queueUnbind_free hx hs hst hL, rfl, rfl⟩
  case bound => exact exec_queueUnbind_busy hx
  case idle => exact exec_recordConsumption_idle hx hs
  case ready =>
    intro bs p h m hst hr hn hpa hb hc hl hwf hctl ht
    exact ⟨_, exec_recordConsumption_ready hx hs hst hr hn hpa hb hc hl, State.consume_spec hx hpa hb hwf hctl ht⟩
  case check =>
    intro L hst hL he hc
    refine ⟨fun M hM hn => check_passes hx hs hst hL he hc hM hn, fun M hM h0 hn => ?_, fun code hM => check_refuses hx hs hst hL he hc hM⟩
    obtain ⟨hend, hidle⟩ := State.endEarly_spec hx (State.q_of_queue hx) M 0
    exact ⟨_, check_ends hx hs hst hL he hc hM h0 hn, hend, hidle, rfl⟩
  case depend =>
    intro L hst hL hd hp M N hN
    refine dependenceMet_spec hx hs hst hL hd hp ?_
    unfold State.atEnd
    simpa [Launch.undepended, M] using hN
  case handover =>
    intro L hst hL hr
    exact launchHandover_spec hx hst hL hr
  case complete =>
    intro s L p m h he hs hr hc u hpa hl hb hwf ht
    exact launchCompletion_spec h he hs hr hc rfl hpa hl hb hwf ht
  case place => exact fun c gs h L hL => gangPlacement_places h hL
  case claim => exact fun c gs h => gangPlacement_claims h
  case evict => exact fun c g h => ⟨_, exec_parkEviction h, rfl, rfl, rfl⟩
  case quantum =>
    intro L hst hq hL
    refine ⟨exec_quantumExpiry_renews hg hst hq hL, fun before c after hc hbefore hp hne hf hroom => ?_⟩
    exact ⟨_, exec_quantumExpiry_preempts hg hst hq hL hc hbefore hp hne hf hroom, quantumExpiry_spec hg hst c⟩
  case halt =>
    intro L hst hL ht
    have hhalted := State.halted_of hg hst hL ht
    exact ⟨fun hf => ⟨_, exec_coreHalt_ended hg hhalted hf, State.toRetiring_gang hg⟩, fun hf => coreHalt_live hg hhalted hf⟩
  case ended => exact fun hst hf => ⟨_, exec_contextImageSaved_ended hg hst hf, State.toRetiring_gang hg⟩
  case save => exact contextImageSaved_spec hg
  case restore => exact gangRestoration_spec hg
  case retire =>
    intro w hw hk hh hf _ hc hrest honly
    exact workgroupRetirement_spec hg hw hk hh hf hc (fun x hx hl hk => (hrest x hx hl hk).imp_right And.left) honly

end Sys2Proof.Machine
end

section
/-! PROOFS. System registers: %ftime is read as the ticks since the node time epoch (R19), where the statement has the raw count (O32). -/

namespace Sys2Proof.Machine

/-- An instruction of a lone slot that acts on each executing fibre by itself. -/
theorem issueEach_lone {s : State} {i : Instr} (h : s.lone i = true) (F : State → FibId → Fibre → State) : s.issueEach i F = .next (s.gone.each s.exeOf F) := by
  rw [State.issueEach, issue_lone h, issueBody_eq]

/-- One fibre alone in a bundle, at tick 10 of a node whose time began at tick 4. -/
def epochFour : State := { Tests.one with ftime := 10, sync := { Tests.one.sync with epoch := some 4 } }

/-- What GETS of %ftime leaves there. -/
def epochFourRead : State := epochFour.gone.each epochFour.exeOf (fun s id f => match s.curLaunch with
  | none => s
  | some L => s.fixed id 4 (sysWrites 0 0x031 (s.sysReg L id f 0x031)))

/-- Refutes O32: %ftime counts from the node time epoch (R19), so at tick 10 with the epoch at 4 GETS gives 6, where the statement's table has 10. -/
theorem not_systemAndGroupRegisters : ¬ Obligations.system_and_group_registers := by
  unfold Obligations.system_and_group_registers
  rintro ⟨⟨hgets, -⟩, -⟩
  have hlone : epochFour.lone (.gets 0 0x031) = true := by decide +kernel
  obtain ⟨t, ht, hfib, -⟩ := hgets epochFour Tests.lau 0 0x031 hlone (by decide +kernel)
  obtain rfl : epochFourRead = t := Host.Outcome.next.inj ((issueEach_lone hlone _).symm.trans ht)
  have hread : (epochFourRead.fib ⟨1, 0, 0⟩).map (·.out) = some [⟨.v 0 6, 4⟩, ⟨.v 1 0, 4⟩] := by decide +kernel
  rw [hfib ⟨1, 0, 0⟩ (Tests.fib 0) ⟨rfl, rfl, List.mem_singleton.mpr rfl⟩ (by decide +kernel)] at hread
  exact absurd hread (by decide +kernel)

end Sys2Proof.Machine
end

section
/-! PROOFS. One fibre that issues alone: the state in which its instruction acts, and what that state has in common with the one before (R284, R303). -/

namespace Sys2Proof.Machine

open Claims

/-! ## What depends on the fibres not at all -/

theorem wg_bare (s : State) (l w : Nat) : s.bare.wg l w = (s.wg l w).map (fun g => { g with fibres := [] }) := List.find?_map ..

/-- Workgroups of states that differ in fibres differ in fibres. -/
theorem wg_of_bare {s t : State} (h : t.bare = s.bare) (l w : Nat) :
    (t.wg l w).map (fun g => { g with fibres := [] }) = (s.wg l w).map (fun g => { g with fibres := [] }) := by
  rw [← wg_bare, ← wg_bare, h]

/-- What a workgroup gives without its fibres is the same in both states. -/
theorem wg_elim_of_bare {α : Type} {s t : State} (h : t.bare = s.bare) (l w : Nat) (z : α) (p : Wg → α) (hp : ∀ g : Wg, p { g with fibres := [] } = p g) :
    ((t.wg l w).map p).getD z = ((s.wg l w).map p).getD z := by
  have hmap (o : Option Wg) : o.map p = (o.map (fun g => { g with fibres := [] })).map p := by
    cases o with
    | none => rfl
    | some g => exact congrArg some (hp g).symm
  rw [hmap (t.wg l w), wg_of_bare h, ← hmap]

theorem State.coreOf_eq (s : State) (id : FibId) : s.coreOf id = ((s.wg id.launch id.wgid).map (·.core)).getD 0 := by
  unfold State.coreOf
  cases s.wg id.launch id.wgid <;> rfl

theorem State.scratch_eq (s : State) (l w : Nat) : s.scratch l w = ((s.wg l w).map (·.scratch)).getD Mem.empty := by
  unfold State.scratch
  cases s.wg l w <;> rfl

theorem coreOf_of_bare {s t : State} (h : t.bare = s.bare) (id : FibId) : t.coreOf id = s.coreOf id := by
  rw [State.coreOf_eq, State.coreOf_eq, wg_elim_of_bare h _ _ _ _ (fun _ => rfl)]

theorem scratch_of_bare {s t : State} (h : t.bare = s.bare) (l w : Nat) : t.scratch l w = s.scratch l w := by
  rw [State.scratch_eq, State.scratch_eq, wg_elim_of_bare h _ _ _ _ (fun _ => rfl)]

theorem asidOf_of_bare {s t : State} (h : t.bare = s.bare) (l : Nat) : t.asidOf l = s.asidOf l := by
  unfold State.asidOf
  rw [launch_of_bare h]

theorem isHeap_of_bare {s t : State} (h : t.bare = s.bare) (id : FibId) (c : Cap) : t.isHeap id c = s.isHeap id c := by
  unfold State.isHeap State.heapObj State.asid
  rw [asidOf_of_bare h, bare_field (·.asids) (fun _ => rfl) h]

theorem core_of_bare {s t : State} (h : t.bare = s.bare) (n : Nat) : t.core n = s.core n := by
  unfold State.core
  rw [bare_field (·.cores) (fun _ => rfl) h]

theorem window_of_bare {s t : State} (h : t.bare = s.bare) (id : FibId) (obj o : Nat) : t.window id obj o = s.window id obj o := by
  unfold State.window
  rw [launch_of_bare h]

/-! ## The fibre that issues -/

theorem alone_lone {s : State} {i : Instr} {f : Fibre} (h : s.alone i f = true) :
    s.lone i = true ∧ s.cur.fids = [f.fid] ∧ s.fib (me s f) = some f ∧ f.guard s.cur.ctl = true := by
  unfold State.alone at h
  simp only [Bool.and_eq_true, beq_iff_eq] at h
  obtain ⟨⟨⟨hlone, hfids⟩, hfib⟩, hguard⟩ := h
  exact ⟨hlone, hfids, hfib, hguard⟩

theorem alone_exeOf {s : State} {i : Instr} {f : Fibre} (h : s.alone i f = true) : s.exeOf = [f.fid] := by
  obtain ⟨_, hfids, hfib, hguard⟩ := alone_lone h
  have hfib : s.fib (s.curId f.fid) = some f := hfib
  simp [State.exeOf, State.curFibs, hfids, hfib, hguard]

section
variable {s : State} {i : Instr} {f : Fibre} (h : s.alone i f = true)
include h

theorem alone_gone : s.gone.bare = s.bare := (gone_change (alone_lone h).1).2.2

theorem alone_curId : s.gone.curId f.fid = me s f := by
  unfold State.curId me
  rw [cur_of_bare (alone_gone h)]
  rfl

/-- The fibre has taken its successor. -/
theorem alone_fib : s.gone.fib (me s f) = some (f.passes s) := by
  obtain ⟨hlone, hfids, hfib, _⟩ := alone_lone h
  exact (gone_change hlone).1 (me s f) f ⟨rfl, rfl, by rw [hfids]; exact List.mem_singleton.mpr rfl⟩ hfib

theorem alone_curFibs : s.gone.curFibs [f.fid] = [f.passes s] := by
  simp only [State.curFibs, List.filterMap_cons, List.filterMap_nil, alone_curId h, alone_fib h]

theorem alone_each (F : State → FibId → Fibre → State) : s.gone.each [f.fid] F = F s.gone (me s f) (f.passes s) := by
  rw [each_cons, alone_curId h, alone_fib h]
  rfl

/-- An instruction of one fibre acts in the state in which the fibre has gone on. -/
theorem issue_alone (body : State → List Nat → List Nat → State) : s.issue i body = .next (body s.gone [f.fid] [f.fid]) := by
  obtain ⟨hlone, hfids, _, _⟩ := alone_lone h
  rw [issue_lone hlone, issueBody_eq, alone_exeOf h, hfids]

theorem issueEach_alone (F : State → FibId → Fibre → State) : s.issueEach i F = .next (F s.gone (me s f) (f.passes s)) := by
  unfold State.issueEach
  rw [issue_alone h, alone_each h]

theorem alone_inChain : s.gone.cur.inChain = false := by
  rw [cur_of_bare (alone_gone h)]
  exact (lone_launch (alone_lone h).1).1

end

/-- An effect at an instruction that stands in no chain is performed there. -/
theorem State.effAtW_raise {u : State} (hc : u.cur.inChain = false) (id : FibId) (tag : BitVec 12) (arg : Word) (key : Option HamperKey) (w : Wait) :
    u.effAtW id tag arg key w = u.raise id ⟨tag, arg, true, u.cur.first, key, w, none⟩ := by
  unfold State.effAtW
  rw [hc]
  rfl

end Sys2Proof.Machine
end

section
/-! PROOFS. Accesses of one fibre: the checks of R206, and the forms of loads, stores and atomics by their bytes (R206, R357, R365, R367). -/

namespace Sys2Proof.Machine

open Claims

/-! ## The checks of R206 -/

theorem capCheck_of_permits {c : Cap} {ks rs : List Nat} {off : Int} {n al : Nat} (h : permits c ks rs off n al) : capCheck c ks rs off n al = none := by
  obtain ⟨htag, ⟨hkind, hlocal⟩, hrights, ⟨hlo, hhi⟩, hal⟩ := h
  have hk : kindOk c ks = true := by
    by_cases h2 : c.kind = 2#4
    · simp [kindOk, hkind, hlocal h2]
    · simp [kindOk, hkind, h2]
  have hr : c.has rs = true := List.all_eq_true.mpr hrights
  unfold capCheck
  simp [htag, hk, hr, hal, hlo, hhi]

/-! ## Bytes -/

theorem natBytes_eq (n x : Nat) : natBytes n x = (List.range n).map (byteOf x) := by
  induction n generalizing x with
  | zero => rfl
  | succ n ih =>
    rw [natBytes, ih, List.range_succ_eq_map, List.map_cons, List.map_map]
    refine congrArg₂ _ (by simp [byteOf]) (List.map_congr_left (fun k _ => ?_))
    simp [byteOf, Nat.pow_succ', Nat.div_div_eq_div_mul]

/-- The low bytes of four registers, as a store takes them. -/
theorem storedBytes_eq (f : Fibre) (t : BitVec 6) {n : Nat} (hn : n ≤ 16) :
    ((List.range 4).flatMap (fun k => natBytes 4 (f.reg (t.toNat + k)).toNat)).take n = (List.range n).map (storedByte f t) := by
  have hall : (List.range 4).flatMap (fun k => natBytes 4 (f.reg (t.toNat + k)).toNat) = (List.range 16).map (storedByte f t) := by
    simp only [natBytes_eq]
    rfl
  rw [hall, ← List.map_take, List.take_range, Nat.min_eq_left hn]

theorem littleEndian_lt (bs : List Byte) : littleEndian bs < 256 ^ bs.length := bytesNat_eq bs ▸ bytesNat_lt bs

@[simp] theorem State.rd_length (s : State) (key a n : Nat) : (s.rd key a n).length = n := by simp [State.rd]

/-- Four bytes from the 4 j-th on, as a number. -/
theorem bytesNat_drop (bs : List Byte) (k : Nat) : bytesNat (bs.drop k) = bytesNat bs / 256 ^ k := by
  induction k generalizing bs with
  | zero => simp
  | succ k ih =>
    cases bs with
    | nil => simp [bytesNat]
    | cons b bs =>
      rw [List.drop_succ_cons, ih, bytesNat, Nat.pow_succ', ← Nat.div_div_eq_div_mul]
      have : (b.toNat + 256 * bytesNat bs) / 256 = bytesNat bs := by have := b.isLt; omega
      rw [this]

theorem bytesNat_take (bs : List Byte) (k : Nat) : bytesNat (bs.take k) = bytesNat bs % 256 ^ k := by
  induction k generalizing bs with
  | zero => simp [bytesNat, Nat.mod_one]
  | succ k ih =>
    cases bs with
    | nil => simp [bytesNat]
    | cons b bs =>
      rw [List.take_succ_cons, bytesNat, bytesNat, ih, Nat.pow_succ', Nat.mod_mul]
      have := b.isLt
      have h1 : (b.toNat + 256 * bytesNat bs) % 256 = b.toNat := by omega
      have h2 : (b.toNat + 256 * bytesNat bs) / 256 = bytesNat bs := by omega
      rw [h1, h2]

/-- The words of a loaded pair or quad by the number that the bytes are. -/
theorem loadedWords_eq (t : BitVec 6) (k : Nat) (bs : List Byte) :
    loadedWords t k bs = (List.range k).map (fun j => .v (t.toNat + j) (BitVec.ofNat 32 (littleEndian bs / 2 ^ (32 * j)))) := by
  unfold loadedWords
  refine List.map_congr_left (fun j _ => congrArg _ (BitVec.eq_of_toNat_eq ?_))
  rw [bytesNat_take, bytesNat_drop, bytesNat_eq, show 256 ^ (4 * j) = 2 ^ (32 * j) by rw [show (256 : Nat) = 2 ^ 8 from rfl, ← Nat.pow_mul]; congr 1; omega]
  simp

/-- A signed number of n bits as a word. -/
theorem low32_sx (n x : Nat) (h0 : 0 < n) : low32 (sx n x) = (BitVec.ofNat n x).signExtend 32 := by
  have hint : sx n x = (BitVec.ofNat n x).toInt := by
    rw [BitVec.toInt_eq_toNat_cond, BitVec.toNat_ofNat]
    have hp : 2 ^ n = 2 * 2 ^ (n - 1) := by rw [← Nat.pow_succ']; congr 1; omega
    unfold sx
    dsimp only
    by_cases h : x % 2 ^ n < 2 ^ (n - 1)
    · rw [if_pos h, if_pos (by omega)]
    · rw [if_neg h, if_neg (by omega)]
  rw [hint]
  rfl

/-! ## Loads (R357) -/

theorem loadedOne_zero (t : BitVec 6) (bits : Nat) : loadedOne t false bits = fun bs => [.v t.toNat (BitVec.ofNat 32 (littleEndian bs))] := by
  funext bs
  simp [loadedOne, bytesNat_eq]

theorem loadedOne_signed (t : BitVec 6) {bits : Nat} (h : 0 < bits) : loadedOne t true bits = fun bs => [.v t.toNat ((BitVec.ofNat bits (littleEndian bs)).signExtend 32)] := by
  funext bs
  simp [loadedOne, bytesNat_eq, low32_sx _ _ h]

theorem loadedWords_one (t : BitVec 6) : loadedWords t 1 = fun bs => [.v t.toNat (BitVec.ofNat 32 (littleEndian bs))] := by
  funext bs
  simp [loadedWords_eq]

theorem loadedWords_two (t : BitVec 6) :
    loadedWords t 2 = fun bs => [.v t.toNat (BitVec.ofNat 32 (littleEndian bs)), .v (t.toNat + 1) (BitVec.ofNat 32 (littleEndian bs / 2 ^ 32))] := by
  funext bs
  simp [loadedWords_eq, List.range_succ]

/-- A load instruction reads its bytes through its capability, and its registers are written from them. -/
theorem exec_load {i : Instr} {val : List Byte → List WB} {c : BitVec 4} {x : BitVec 6} {disp : Int} {n : Nat} {ks rs : List Nat}
    (hv : loadForm i = some val) (ha : accessForm i = some (c, x, disp, n, ks, rs)) :
    ks = kLoad ∧ rs = [rR] ∧ ∃ d, disp8 d n = disp ∧ ∀ s, exec i s = s.loadInstr i c x d n val := by
  unfold loadForm at hv
  split at hv
  case h_8 => cases hv
  all_goals
    cases ha
    cases hv
    refine ⟨rfl, rfl, _, by simp [disp8]; rfl, fun s => ?_⟩
  · exact congrArg (State.loadInstr s _ c x _ 1) (loadedOne_signed _ (bits := 8) (by decide))
  · exact congrArg (State.loadInstr s _ c x _ 1) (loadedOne_zero _ 8)
  · exact congrArg (State.loadInstr s _ c x _ 2) (loadedOne_signed _ (bits := 16) (by decide))
  · exact congrArg (State.loadInstr s _ c x _ 2) (loadedOne_zero _ 16)
  · exact congrArg (State.loadInstr s _ c x _ 4) (loadedWords_one _)
  · exact congrArg (State.loadInstr s _ c x _ 8) (loadedWords_two _)
  · exact congrArg (State.loadInstr s _ c x _ 16) (funext (loadedWords_eq _ 4))

/-! ## Stores (R357) -/

/-- A store instruction writes the low bytes of its data registers through its capability. -/
theorem exec_store {i : Instr} {t : BitVec 6} {m : Nat} {c : BitVec 4} {x : BitVec 6} {disp : Int} {n : Nat} {ks rs : List Nat}
    (hv : storeForm i = some (t, m)) (ha : accessForm i = some (c, x, disp, n, ks, rs)) :
    n = m ∧ n ≤ 16 ∧ ks = kStore ∧ rs = [rW] ∧ ∃ d, disp8 d n = disp ∧ ∀ s, exec i s = s.storeInstr i t c x d n := by
  unfold storeForm at hv
  split at hv
  case h_6 => cases hv
  all_goals
    cases ha
    cases hv
    exact ⟨rfl, by decide, rfl, rfl, _, by simp [disp8], fun _ => rfl⟩

/-! ## Atomics (R365, R367) -/

/-- The source that an atomic operation takes: a pair or a register. -/
def atomicSource (f : Fibre) (r : BitVec 6) (op : BitVec 8) : Nat := if atomicSrc op = 8 then (f.pair r.toNat).toNat else (f.reg r.toNat).toNat

theorem pair_toNat (f : Fibre) (r : Nat) : (f.pair r).toNat = 2 ^ 32 * (f.reg (r + 1)).toNat + (f.reg r).toNat := by
  have h := (f.reg r).isLt
  rw [Fibre.pair, BitVec.toNat_append, Nat.shiftLeft_eq, Nat.mul_comm, ← Nat.two_pow_add_eq_or_of_lt h]

theorem wordOfNat_toNat {o : Nat} (h : o < 2 ^ 32) : (BitVec.ofNat 32 o).toNat = o := by
  rw [BitVec.toNat_ofNat, Nat.mod_eq_of_lt h]

/-- The fields of a floating-point reduction's operation. -/
theorem fpOp_toNat (t : BitVec 2) (r : BitVec 3) {which : Nat} (h : which < 3) : (fpOp which t r).toNat = 128 + 32 * which + 8 * t.toNat + r.toNat := by
  have := t.isLt
  have := r.isLt
  rw [fpOp, BitVec.toNat_ofNat, Nat.mod_eq_of_lt (by omega)]

theorem fpOp_ne (t : BitVec 2) (r : BitVec 3) {which : Nat} (h : which < 3) {op : BitVec 8} (hop : op.toNat < 128) : fpOp which t r ≠ op := by
  intro he
  have := fpOp_toNat t r h
  rw [he] at this
  omega

/-- A floating-point reduction works on one FP32 element or on two halves. -/
theorem atomicNew_fpOp (t : BitVec 2) (r : BitVec 3) {which o : Nat} (x : Word) (h : which < 3) (ho : o < 2 ^ 32) :
    atomicNew (fpOp which t r) o x.toNat = reduced t which r o x.toNat := by
  have ht := t.isLt
  have hr := r.isLt
  have hx := x.isLt
  have hop := fpOp_toNat t r h
  have h7 : (fpOp which t r).getLsbD 7 = true := by
    rw [BitVec.getLsbD, hop, Nat.testBit_eq_decide_div_mod_eq]
    simp only [decide_eq_true_eq]
    omega
  have hw : (fpOp which t r).toNat / 32 % 4 = which := by omega
  have htt : (fpOp which t r).toNat / 8 % 4 = t.toNat := by omega
  have hrr : (fpOp which t r).toNat % 8 = r.toNat := by omega
  have hz : t.toNat = 0 ↔ t = 0 := by simp [BitVec.toNat_eq]
  have h1 : t.toNat = 1 ↔ t = 1 := by simp [BitVec.toNat_eq]
  unfold atomicNew reduced redFmt
  simp only [h7, hw, htt, hrr, if_true, hz, h1]
  rw [Nat.mod_eq_of_lt ho, Nat.mod_eq_of_lt hx, Nat.mod_eq_of_lt (a := o / 65536) (by omega), Nat.mod_eq_of_lt (a := x.toNat / 65536) (by omega)]
  by_cases h0 : t = 0
  · simp only [h0, if_true]
  · simp only [h0, if_false]

theorem atomicNew_cas (f : Fibre) (r : BitVec 6) {o : Nat} (ho : o < 2 ^ 32) :
    atomicNew 9 o (f.pair r.toNat).toNat = if o = (f.reg r.toNat).toNat then (f.reg (r.toNat + 1)).toNat else o := by
  have hr := (f.reg r.toNat).isLt
  have hr' := (f.reg (r.toNat + 1)).isLt
  have heq : BitVec.ofNat 32 o = BitVec.ofNat 32 (f.pair r.toNat).toNat ↔ o = (f.reg r.toNat).toNat := by
    rw [BitVec.toNat_eq, BitVec.toNat_ofNat, BitVec.toNat_ofNat, pair_toNat]
    omega
  have hhi : (f.pair r.toNat).toNat / 2 ^ 32 % 2 ^ 32 = (f.reg (r.toNat + 1)).toNat := by
    rw [pair_toNat]
    omega
  change (if BitVec.ofNat 32 o = BitVec.ofNat 32 (f.pair r.toNat).toNat then (f.pair r.toNat).toNat / 2 ^ 32 % 2 ^ 32 else (BitVec.ofNat 32 o).toNat) = _
  simp only [heq, hhi, wordOfNat_toNat ho]

/-- An atomic instruction writes over the old number the one of its row, and its registers receive the old one. -/
theorem exec_atomic {i : Instr} {g : Fibre → Nat → Nat} {ws : Nat → List WB} {c : BitVec 4} {x : BitVec 6} {disp : Int} {n : Nat} {ks rs : List Nat}
    (hv : atomicForm i = some (g, ws)) (ha : accessForm i = some (c, x, disp, n, ks, rs)) :
    ks = kStore ∧ rs = [rA] ∧ disp = 0 ∧ ∃ r op, (∀ s, exec i s = s.atomicInstr i c x r op ws) ∧ n = atomicSize op ∧
      ∀ f o, o < 256 ^ n → atomicNew op o (atomicSource f r op) = g f o := by
  unfold atomicForm at hv
  split at hv
  case h_17 => cases hv
  case h_13 t _ _ v _ r | h_14 t _ _ v _ r | h_15 t _ _ v _ r =>
    cases ha
    cases hv
    refine ⟨rfl, rfl, rfl, v, fpOp _ t r, fun s => rfl, by simp [atomicSize, fpOp_ne], fun f o ho => ?_⟩
    rw [atomicSource, atomicSrc, if_neg (by simp [fpOp_ne])]
    exact atomicNew_fpOp t r _ (by decide) ho
  case h_16 _ _ _ v _ r =>
    cases ha
    cases hv
    refine ⟨rfl, rfl, rfl, v, fpOp 0 0 r, fun s => rfl, by simp [atomicSize, fpOp_ne], fun f o ho => ?_⟩
    rw [atomicSource, atomicSrc, if_neg (by simp [fpOp_ne])]
    exact atomicNew_fpOp 0 r _ (by decide) ho
  all_goals
    cases ha
    cases hv
    refine ⟨rfl, rfl, rfl, _, _, fun s => rfl, rfl, fun f o ho => ?_⟩
  case h_10 => exact atomicNew_cas f _ ho
  case h_11 r _ => 
    change (o + (f.pair r.toNat).toNat) % 2 ^ 64 = _
    rw [pair_toNat]
    congr 1
    omega
  all_goals
    have hm : o % 4294967296 = o := Nat.mod_eq_of_lt ho
    simp [atomicNew, atomicSource, atomicSrc, hm, apply_ite BitVec.toNat]

/-! ## What an access is answered (R178, R211) -/

section
variable {s u : State} {id : FibId} {k : Cap} {off : Int} {n p : Nat}

/-- A load on the frame heap reads at the address at once. -/
theorem State.load_heap (hp : permits k kLoad [rR] off n n) (hh : s.isHeap id k = true) (ha : s.heapAt id k (objOff k off) n false = (u, .ok p)) :
    s.load_ id k off n false = (u, .ok (u.rd (u.keyOf (s.asidOf id.launch)) p n)) := by
  have hk : k.kind ≠ 2#4 := fun h => by simp [State.isHeap, h] at hh
  unfold State.load_
  simp only [capCheck_of_permits hp, if_neg hk, hh, if_true, ha]

/-- A store on the frame heap writes at the address at once. -/
theorem State.store_heap {bs : List Byte} (hp : permits k kStore [rW] off bs.length bs.length) (hh : s.isHeap id k = true)
    (ha : s.heapAt id k (objOff k off) bs.length true = (u, .ok p)) :
    s.store_ id k off bs = (u.homeStore (u.keyOf (s.asidOf id.launch)) p bs, .ok ()) := by
  have hk : k.kind ≠ 2#4 := fun h => by simp [State.isHeap, h] at hh
  unfold State.store_
  simp only [capCheck_of_permits hp, if_neg hk, hh, if_true, ha]

/-- An atomic on the frame heap acts at the address at once. -/
theorem State.atomic_heap {op : BitVec 8} {src : Nat} (hp : permits k kStore [rA] off (atomicSize op) (atomicSize op)) (hh : s.isHeap id k = true)
    (ha : s.heapAt id k (objOff k off) (atomicSize op) true = (u, .ok p)) :
    s.atomic_ id k off op src = ((u.atomicHome (u.keyOf (s.asidOf id.launch)) p op src).1, .ok (u.atomicHome (u.keyOf (s.asidOf id.launch)) p op src).2) := by
  have hk : k.kind ≠ 2#4 := fun h => by simp [State.isHeap, h] at hh
  unfold State.atomic_
  simp only [capCheck_of_permits hp, if_neg hk, hh, if_true, ha]

/-- A load past the L1 and the frame heap, which its line does not answer, is the load of where its object is. -/
theorem State.load_far (hp : permits k kLoad [rR] off n n) (hk : k.kind ≠ 2) (hh : s.isHeap id k = false)
    (hl : s.l1Hit (s.coreOf id) (s.asidOf id.launch) k.obj.toNat (objOff k off) n = none) {x : XOut} (ha : s.atPort id k (objOff k off) n false = (s, .ok x)) :
    (∀ link a, x = .host link a → s.load_ id k off n false = s.hostLoad id off link a n (keyAt (s.asidOf id.launch) k.obj.toNat (objOff k off) false)) ∧
    (∀ pos pasid pobj rc, x = .peer pos pasid pobj rc → s.load_ id k off n false = s.peerLoad id k off pos pasid pobj rc n) := by
  have hk : ¬ k.kind = 2#4 := hk
  unfold State.load_
  simp only [capCheck_of_permits hp, if_neg hk, hh, hl, ha, Bool.false_eq_true, if_false]
  exact ⟨fun _ _ h => by rw [h], fun _ _ _ _ h => by rw [h]⟩

/-- A store that no writable line holds is the store to where its object is. -/
theorem State.store_far {bs : List Byte} (hp : permits k kStore [rW] off bs.length bs.length) (hk : k.kind ≠ 2) (hh : s.isHeap id k = false)
    (hl : s.l1Writable (s.coreOf id) (s.asidOf id.launch) k.obj.toNat (objOff k off) = false) {x : XOut}
    (ha : s.atPort id k (objOff k off) bs.length true = (s, .ok x)) :
    (∀ link a, x = .host link a → s.store_ id k off bs = s.hostStore id off link a bs (keyAt (s.asidOf id.launch) k.obj.toNat (objOff k off) true)) ∧
    (∀ pos pasid pobj rc, x = .peer pos pasid pobj rc → s.store_ id k off bs = s.peerStore id k off pos pasid pobj bs) := by
  have hk : ¬ k.kind = 2#4 := hk
  unfold State.store_
  simp only [capCheck_of_permits hp, if_neg hk, hh, hl, ha, Bool.false_eq_true, if_false]
  exact ⟨fun _ _ h => by rw [h], fun _ _ _ _ h => by rw [h]⟩

/-- A request whose answer has come takes it up. -/
theorem State.remote_answered {bs : List Byte} (h : s.answer id = some bs) (q : Packet) (kind : TxKind) (key : HamperKey) : s.remote id q kind key = (s, .ok bs) := by
  unfold State.remote
  rw [h]

theorem State.hostLoad_answered {bs : List Byte} (h : s.answer id = some bs) (hn : n ≤ bs.length) (link a : Nat) (key : HamperKey) :
    s.hostLoad id off link a n key = (s, .ok (bs.take n)) := by
  unfold State.hostLoad
  simp [h, hn]

theorem State.peerLoad_answered {bs : List Byte} (h : s.answer id = some bs) (pos pasid pobj : Nat) :
    s.peerLoad id k off pos pasid pobj false n = (s, .ok (bs.take n)) := by
  unfold State.peerLoad
  simp [State.remote_answered h]

theorem State.peerStore_answered {bs : List Byte} (h : s.answer id = some bs) (pos pasid pobj : Nat) (xs : List Byte) :
    s.peerStore id k off pos pasid pobj xs = (s, .ok ()) := by
  unfold State.peerStore
  simp [State.remote_answered h]

/-- A store to host memory that crosses no multiple of 1,024 is one request. -/
theorem State.hostStore_posted {bs : List Byte} {link a m : Nat} {key : HamperKey} (hm : a % 1024 + bs.length ≤ 1024)
    (h : s.hostRequest link (hostPacket 0x03#5 a bs.length bs) (.store id (low32 off)) (s.coreOf id) bs.length key = some (u, m)) :
    s.hostStore id off link a bs key = (u, .ok ()) := by
  unfold State.hostStore
  simp only [if_pos (show bs.length ≤ 1024 - a % 1024 by omega), h]

end

/-! ## Accesses of the fibre that issues -/

theorem effOff_passes (f : Fibre) (s : State) (x : BitVec 6) (d : Int) : (f.passes s).effOff x d = offsetOf f x d := rfl

theorem cap_passes (f : Fibre) (s : State) (c : Nat) : (f.passes s).cap c = f.cap c := rfl

theorem reg_passes (f : Fibre) (s : State) (r : Nat) : (f.passes s).reg r = f.reg r := rfl

theorem pair_passes (f : Fibre) (s : State) (r : Nat) : (f.passes s).pair r = f.pair r := rfl

section
variable {s : State} {i : Instr} {f : Fibre} (h : s.alone i f = true)
include h

theorem alone_answer : s.gone.answer (me s f) = f.resp := by
  rw [State.answer, alone_fib h]
  rfl

theorem alone_coreOf : s.gone.coreOf (me s f) = myCore s f := coreOf_of_bare (alone_gone h) _

theorem alone_asidOf : s.gone.asidOf (me s f).launch = myAsid s := asidOf_of_bare (alone_gone h) _

theorem alone_isHeap (k : Cap) : s.gone.isHeap (me s f) k = s.isHeap (me s f) k := isHeap_of_bare (alone_gone h) _ _

theorem l1Hit_gone (core a obj o n : Nat) : s.gone.l1Hit core a obj o n = s.l1Hit core a obj o n := by
  unfold State.l1Hit
  rw [core_of_bare (alone_gone h)]

theorem l1Writable_gone (core a obj o : Nat) : s.gone.l1Writable core a obj o = s.l1Writable core a obj o := by
  unfold State.l1Writable
  rw [core_of_bare (alone_gone h)]

/-- A load whose bytes have come leaves them pending in its registers. -/
theorem loadInstr_alone {c : BitVec 4} {x : BitVec 6} {d : BitVec 8} {n : Nat} {val : List Byte → List WB} {u : State} {bs : List Byte}
    (hl : s.gone.load_ (me s f) (f.cap c.toNat) (offsetOf f x (disp8 d n)) n false = (u, .ok bs)) :
    s.loadInstr i c x d n val = .next (u.scored (me s f) (val bs)) := by
  rw [State.loadInstr, issueEach_alone h]
  simp only [effOff_passes, cap_passes, hl]

theorem storeInstr_alone {t : BitVec 6} {c : BitVec 4} {x : BitVec 6} {d : BitVec 8} {n : Nat} {u : State} (hn : n ≤ 16)
    (hl : s.gone.store_ (me s f) (f.cap c.toNat) (offsetOf f x (disp8 d n)) ((List.range n).map (storedByte f t)) = (u, .ok ())) :
    s.storeInstr i t c x d n = .next u := by
  rw [State.storeInstr, issueEach_alone h]
  simp only [effOff_passes, cap_passes, reg_passes, storedBytes_eq f t hn, hl]

theorem atomicInstr_alone {c : BitVec 4} {x r : BitVec 6} {op : BitVec 8} {ws : Nat → List WB} {u : State} {old : Nat}
    (hl : s.gone.atomic_ (me s f) (f.cap c.toNat) (offsetOf f x 0) op (atomicSource f r op) = (u, .ok old)) :
    s.atomicInstr i c x r op ws = .next (withResult s u f (ws old)) := by
  rw [State.atomicInstr, issue_alone h]
  simp only [State.anyOrder]
  rw [alone_each h]
  simp only [effOff_passes, cap_passes, reg_passes, pair_passes]
  unfold atomicSource at hl
  simp only [hl]
  rfl

end

/-! ## Accesses of the frame heap, of peer and of host objects -/

section
variable {s u : State} {i : Instr} {f : Fibre} {c : BitVec 4} {x : BitVec 6} {disp : Int} {n p : Nat} {ks rs : List Nat}
  (ha : accessForm i = some (c, x, disp, n, ks, rs)) (h : s.alone i f = true)
  (hp : permits (f.cap c.toNat) ks rs (offsetOf f x disp) n n)
include ha h hp

theorem exec_load_heap {val : List Byte → List WB} (hv : loadForm i = some val) (hh : s.isHeap (me s f) (f.cap c.toNat) = true)
    (hat : s.gone.heapAt (me s f) (f.cap c.toNat) (objectOffset (f.cap c.toNat) (offsetOf f x disp)) n false = (u, .ok p)) :
    exec i s = .next (u.scored (me s f) (val (u.rd (u.keyOf (myAsid s)) p n))) := by
  obtain ⟨rfl, rfl, d, rfl, he⟩ := exec_load hv ha
  have hl := State.load_heap hp ((alone_isHeap h _).trans hh) hat
  rw [alone_asidOf h] at hl
  rw [he, loadInstr_alone h hl]

theorem exec_store_heap {t : BitVec 6} {m : Nat} (hv : storeForm i = some (t, m)) (hh : s.isHeap (me s f) (f.cap c.toNat) = true)
    (hat : s.gone.heapAt (me s f) (f.cap c.toNat) (objectOffset (f.cap c.toNat) (offsetOf f x disp)) n true = (u, .ok p)) :
    exec i s = .next (u.homeStore (u.keyOf (myAsid s)) p ((List.range n).map (storedByte f t))) := by
  obtain ⟨rfl, hn, rfl, rfl, d, rfl, he⟩ := exec_store hv ha
  have hlen : ((List.range n).map (storedByte f t)).length = n := by simp
  have hl := State.store_heap (bs := (List.range n).map (storedByte f t)) (by rwa [hlen]) ((alone_isHeap h _).trans hh) (by rwa [hlen])
  rw [alone_asidOf h] at hl
  rw [he, storeInstr_alone h hn hl]

theorem exec_atomic_heap {op : Fibre → Nat → Nat} {ws : Nat → List WB} (hv : atomicForm i = some (op, ws)) (hh : s.isHeap (me s f) (f.cap c.toNat) = true)
    (hat : s.gone.heapAt (me s f) (f.cap c.toNat) (objectOffset (f.cap c.toNat) (offsetOf f x disp)) n true = (u, .ok p)) :
    exec i s = .next (withResult s (u.homeStore (u.keyOf (myAsid s)) p ((List.range n).map (byteOf (op f (littleEndian (u.rd (u.keyOf (myAsid s)) p n)))))) f
      (ws (littleEndian (u.rd (u.keyOf (myAsid s)) p n)))) := by
  obtain ⟨rfl, rfl, rfl, r, o, he, rfl, hnew⟩ := exec_atomic hv ha
  have hl := State.atomic_heap (src := atomicSource f r o) hp ((alone_isHeap h _).trans hh) hat
  rw [alone_asidOf h] at hl
  rw [he, atomicInstr_alone h hl]
  have hlt := littleEndian_lt (u.rd (u.keyOf (myAsid s)) p (atomicSize o))
  rw [State.rd_length] at hlt
  simp only [State.atomicHome, bytesNat_eq, natBytes_eq, hnew f _ hlt]

theorem exec_load_far {val : List Byte → List WB} {bs : List Byte} (hv : loadForm i = some val) (hk : (f.cap c.toNat).kind ≠ 2)
    (hh : s.isHeap (me s f) (f.cap c.toNat) = false)
    (hl : s.l1Hit (myCore s f) (myAsid s) (f.cap c.toNat).obj.toNat (objectOffset (f.cap c.toNat) (offsetOf f x disp)) n = none) (hr : f.resp = some bs) {y : XOut}
    (hat : s.gone.atPort (me s f) (f.cap c.toNat) (objectOffset (f.cap c.toNat) (offsetOf f x disp)) n false = (s.gone, .ok y))
    (hy : (∃ link a, y = .host link a ∧ n ≤ bs.length) ∨ ∃ pos pasid pobj, y = .peer pos pasid pobj false) :
    exec i s = .next (s.gone.scored (me s f) (val (bs.take n))) := by
  obtain ⟨rfl, rfl, d, rfl, he⟩ := exec_load hv ha
  have hans : s.gone.answer (me s f) = some bs := (alone_answer h).trans hr
  rw [← l1Hit_gone h, ← alone_coreOf h, ← alone_asidOf h] at hl
  obtain ⟨hhost, hpeer⟩ := State.load_far hp hk ((alone_isHeap h _).trans hh) hl hat
  rw [he]
  refine loadInstr_alone h ?_
  obtain ⟨link, a, rfl, hn⟩ | ⟨pos, pasid, pobj, rfl⟩ := hy
  · rw [hhost link a rfl, State.hostLoad_answered hans hn]
  · rw [hpeer pos pasid pobj false rfl, State.peerLoad_answered hans]

theorem exec_store_far {t : BitVec 6} {m : Nat} (hv : storeForm i = some (t, m)) (hk : (f.cap c.toNat).kind ≠ 2)
    (hh : s.isHeap (me s f) (f.cap c.toNat) = false)
    (hl : s.l1Writable (myCore s f) (myAsid s) (f.cap c.toNat).obj.toNat (objectOffset (f.cap c.toNat) (offsetOf f x disp)) = false) {y : XOut}
    (hat : s.gone.atPort (me s f) (f.cap c.toNat) (objectOffset (f.cap c.toNat) (offsetOf f x disp)) n true = (s.gone, .ok y)) :
    (∀ pos pasid pobj rc bs, y = .peer pos pasid pobj rc → f.resp = some bs → exec i s = .next s.gone) ∧
    (∀ link a q, y = .host link a → a % 1024 + n ≤ 1024 →
      s.gone.hostRequest link (hostPacket 0x03#5 a n ((List.range n).map (storedByte f t))) (.store (me s f) (BitVec.ofInt 32 (offsetOf f x disp))) (myCore s f) n
        ⟨myAsid s, (f.cap c.toNat).obj.toNat, some (objectOffset (f.cap c.toNat) (offsetOf f x disp) / 2097152), true⟩ = some (u, q) →
      exec i s = .next u) := by
  obtain ⟨rfl, hn, rfl, rfl, d, rfl, he⟩ := exec_store hv ha
  have hlen : ((List.range n).map (storedByte f t)).length = n := by simp
  rw [← l1Writable_gone h, ← alone_coreOf h, ← alone_asidOf h] at hl
  obtain ⟨hhost, hpeer⟩ := State.store_far (bs := (List.range n).map (storedByte f t)) (by rwa [hlen]) hk ((alone_isHeap h _).trans hh) hl (by rwa [hlen])
  refine ⟨fun pos pasid pobj rc bs hy hr => ?_, fun link a q hy hm hq => ?_⟩
  · rw [he, storeInstr_alone h hn]
    rw [hpeer pos pasid pobj rc hy, State.peerStore_answered ((alone_answer h).trans hr)]
  · rw [he, storeInstr_alone h hn]
    rw [hhost link a hy]
    refine State.hostStore_posted (by rwa [hlen]) ?_ (m := q)
    rw [hlen, alone_coreOf h, alone_asidOf h]
    exact hq

end

/-- Settles O25, on the rules for a load, a store and an atomic of one fibre in each place that an object has. -/
theorem heapAndRemoteAccesses : Obligations.heap_and_remote_accesses := by
  refine ⟨fun s u i f c x disp n p ks rs ha h => ?_, fun s i f c x disp n ks rs ha h => ?_⟩
  · intro k o hp hh
    exact ⟨fun _ hv => exec_load_heap ha h hp hv hh, fun _ hv => exec_store_heap ha h hp hv hh, fun _ _ hv => exec_atomic_heap ha h hp hv hh⟩
  · intro k o hk hp hh
    refine ⟨fun val bs link a hv hl hat hr hn => ?_, fun val bs pos pasid pobj hv hl hat hr => ?_, fun t bs pos pasid pobj rc hv hl hat hr => ?_,
      fun t u m link a hv hl hat hm hq => ?_⟩
    · exact exec_load_far ha h hp hv hk hh hl hr hat (.inl ⟨link, a, rfl, hn⟩)
    · exact exec_load_far ha h hp hv hk hh hl hr hat (.inr ⟨pos, pasid, pobj, rfl⟩)
    · exact (exec_store_far (u := s) ha h hp hv hk hh hl hat).1 pos pasid pobj rc bs rfl hr
    · exact (exec_store_far ha h hp hv hk hh hl hat).2 link a m rfl hm hq

end Sys2Proof.Machine
end

section
/-! PROOFS. WAITM, NOTIFY, WAITT, TOKQ and SLEEP (R373, R375 to R377, R394). -/

namespace Sys2Proof.Machine

open Claims

/-! ## Fibres that change each by itself -/

theorem fid_results (f : Fibre) (lat : Nat) (ws : List WB) : ({ f with out := f.out ++ ws.map (fun w => ⟨w, f.k + lat⟩) } : Fibre).fid = f.fid := rfl

/-- Each executing fibre is changed, and nothing else. -/
theorem issueEach_modFib {s : State} {i : Instr} (hl : s.lone i = true) {F : State → FibId → Fibre → State} (g : Fibre → Fibre) (hg : ∀ f, (g f).fid = f.fid)
    (hF : ∀ u id f, u.bare = s.bare → F u id f = u.modFib id g) :
    ∃ t, s.issueEach i F = .next t ∧ bundleChange s t (fun f => if f.guard s.cur.ctl then g (f.passes s) else f.passes s) := by
  refine issueEach_bundle hl F (fun f => g (f.passes s)) (fun u n f _ _ hu hfu => ?_)
  rw [hF u _ _ hu]
  exact ⟨bare_modFib .., by rw [fib_modFib_same _ _ _ hg, hfu]; rfl, fun j hj => fib_modFib_other _ _ _ _ hg hj⟩

/-- Each executing fibre has the same results of fixed latency. -/
theorem issueEach_fixed {s : State} {i : Instr} (hl : s.lone i = true) {F : State → FibId → Fibre → State} {lat : Nat} {ws : List WB}
    (hF : ∀ u id f, u.bare = s.bare → F u id f = u.fixed id lat ws) :
    ∃ t, s.issueEach i F = .next t ∧ bundleChange s t (fun f => if f.guard s.cur.ctl then f.results s lat ws 0 else f.passes s) := by
  obtain ⟨t, ht, hb⟩ := issueEach_modFib hl (fun f => { f with out := f.out ++ ws.map (fun w => ⟨w, f.k + lat⟩) }) (fun f => fid_results f lat ws) hF
  have hres (f : Fibre) : f.results s lat ws 0 = { f.passes s with out := (f.passes s).out ++ ws.map (fun w => ⟨w, (f.passes s).k + lat⟩) } := by
    simp [Fibre.results, Fibre.passes]
  refine ⟨t, ht, ?_⟩
  simp only [hres]
  exact hb

theorem Fibre.fid_apply (f : Fibre) (w : WB) : (f.apply w).fid = f.fid := by cases w <;> rfl

theorem Fibre.fid_settleFixed (f : Fibre) : f.settleFixed.fid = f.fid := by
  have hgo (ws : List OutWrite) (f : Fibre) : (ws.foldl (fun f w => f.apply w.wb) f).fid = f.fid := by
    induction ws generalizing f with
    | nil => rfl
    | cons w ws ih => exact (ih _).trans (f.fid_apply _)
  exact hgo f.out f

/-! ## Tokens and time -/

theorem group_of_bare {s u : State} (h : u.bare = s.bare) (a : BitVec 5) : u.greg u.cur.launch u.cur.wgid a.toNat = group s a := by
  rw [greg_of_bare h, cur_of_bare h]
  rfl

theorem exec_waitt_done {s : State} {d : BitVec 6} {a : BitVec 5} (hl : s.lone (.waitt d a) = true) (hp : (group s a).pending = false) :
    ∃ t, exec (.waitt d a) s = .next t ∧ bundleChange s t (fun f => if f.guard s.cur.ctl then f.results s 4 [.v d.toNat (group s a).val] 0 else f.passes s) := by
  refine issueEach_fixed hl (fun u id f hu => ?_)
  simp only [group_of_bare hu, hp, Bool.false_eq_true, if_false]

theorem exec_waitt_pending {s : State} {f : Fibre} {d : BitVec 6} {a : BitVec 5} (h : s.alone (.waitt d a) f = true) (hp : (group s a).pending = true) :
    exec (.waitt d a) s = .next (s.gone.raise (me s f) ⟨0x002, a.setWidth 32, true, s.cur.first, none, .token a.toNat, none⟩) := by
  refine (issueEach_alone h _).trans (congrArg _ ?_)
  simp only [group_of_bare (alone_gone h), hp, if_true]
  rw [State.effAtW_raise (alone_inChain h), cur_of_bare (alone_gone h)]
  rfl

theorem exec_tokq {s : State} {d : BitVec 6} {a : BitVec 5} (hl : s.lone (.tokq d a) = true) :
    ∃ t, exec (.tokq d a) s = .next t ∧ bundleChange s t (fun f =>
      if f.guard s.cur.ctl then f.results s 4 [.v d.toNat (if (group s a).pending = true ∨ (group s a).setting s.clock.toNat = true then 0 else (group s a).val)] 0 else f.passes s) := by
  refine issueEach_fixed hl (fun u id f hu => ?_)
  have hclock : u.clock = s.clock := bare_field (·.clock) (fun _ => rfl) hu
  simp only [group_of_bare hu, hclock, Bool.or_eq_true]

/-- A fibre goes to sleep, unless for no time. -/
def sleepStep (i : BitVec 12) (u : State) (id : FibId) (_ : Fibre) : State :=
  if i = 0 then u else u.modFib id (fun f => { f.settleFixed with wait := .sleep (u.ticks + 16 * i.toNat) })

theorem exec_sleep {s : State} {i : BitVec 12} (hl : s.lone (.sleep i) = true) :
    ∃ t, exec (.sleep i) s = .next t ∧
      bundleChange s t (fun f => if f.guard s.cur.ctl ∧ i ≠ 0 then { (f.passes s).settleFixed with wait := .sleep (s.ticks + 16 * i.toNat) } else f.passes s) := by
  by_cases hi : i = 0
  · obtain ⟨t, ht, hb⟩ := issueEach_bundle hl (sleepStep i) (fun f => f.passes s) (fun u n f _ _ _ hfu => by
      rw [sleepStep, if_pos hi]
      exact ⟨rfl, hfu, fun _ _ => rfl⟩)
    exact ⟨t, ht, by simpa only [hi, ne_eq, not_true_eq_false, and_false, if_false, ite_self] using hb⟩
  · obtain ⟨t, ht, hb⟩ := issueEach_modFib hl (fun f => { f.settleFixed with wait := .sleep (s.ticks + 16 * i.toNat) }) (fun f => f.fid_settleFixed) (F := sleepStep i)
      (fun u id f hu => by rw [sleepStep, if_neg hi, bare_field (·.ticks) (fun _ => rfl) hu])
    exact ⟨t, ht, by simpa only [ne_eq, hi, not_false_eq_true, and_true] using hb⟩

/-! ## Cells of device memory -/

theorem HomeWork.cur {s t : State} (h : HomeWork s t) : t.cur = s.cur := by
  obtain ⟨_, _, _, _, _, _, _, _, _, _, _, _, rfl⟩ := h
  rfl

theorem HomeWork.asidOf {s t : State} (h : HomeWork s t) (l : Nat) : t.asidOf l = s.asidOf l := by
  unfold State.asidOf State.launch
  rw [h.launches]

theorem pairOf_eq (f : Fibre) (n : Nat) : (f.pair n).toNat = pairOf f n := by rw [pair_toNat, pairOf, Nat.add_comm]

/-- The conditions of WAITM compare numbers. -/
theorem cellCond_iff (k : BitVec 2) (v t : DWord) : cellCond k v t = true ↔ cellHolds k v.toNat t.toNat := by
  unfold cellCond cellHolds
  by_cases h0 : k = 0
  · simp [h0, BitVec.le_def]
  · by_cases h1 : k = 1
    · simp [h1, BitVec.toNat_eq]
    · rw [if_neg (show ¬ k = 0#2 from h0), if_neg (show ¬ k = 1#2 from h1)]
      simp only [ne_eq, h0, h1, false_and, false_or, not_false_eq_true, true_and, beq_iff_eq, BitVec.toNat_inj]

/-- A sector that is free is reached at the home slice after the write-back of the core's bytes. -/
theorem homeReady_free {s : State} {p n : Nat} (h : free s p n) (id : FibId) (c : Cap) (o : Nat) :
    s.homeReady id c o n p = (s.l1Sync (s.coreOf id) (s.asidOf id.launch) c.obj.toNat o, .ok p) := by
  obtain ⟨hl, -, hb⟩ := h
  unfold State.homeReady
  simp [hl, hb]

theorem free_of_bare {s u : State} (hb : u.bare = s.bare) {p n : Nat} (h : free s p n) : free u p n := by
  unfold free
  have hl : u.latched p = s.latched p := bare_field (·.latched p) (fun _ => rfl) hb
  have hx : u.latchedX p = s.latchedX p := bare_field (·.latchedX p) (fun _ => rfl) hb
  have hd : u.isBad p n = s.isBad p n := bare_field (·.isBad p n) (fun _ => rfl) hb
  rwa [hl, hx, hd]

/-- WAITM at the home slice, for a fibre whose instruction stands in no chain. -/
theorem cellStep_spec {u : State} {id : FibId} {p : Nat} {k : BitVec 2} {e : BitVec 2} (off : Int) (nt : Bool) (t : DWord) (hc : u.cur.inChain = false) :
    (cellHolds k (littleEndian (u.rd (u.keyOf (u.asidOf id.launch)) p 8)) t.toNat → u.cellStep id off p nt k t (scopeOf e) = u.acquire (u.coreOf id)) ∧
    (¬ cellHolds k (littleEndian (u.rd (u.keyOf (u.asidOf id.launch)) p 8)) t.toNat →
      u.cellStep id off p nt k t (scopeOf e) = u.raise id ⟨0x003#12, low32 off, true, u.cur.first, none, .cell p nt, none⟩) := by
  have hv : (BitVec.ofNat 64 (bytesNat (u.rd (u.keyOf (u.asidOf id.launch)) p 8))).toNat = littleEndian (u.rd (u.keyOf (u.asidOf id.launch)) p 8) := by
    have hlt := littleEndian_lt (u.rd (u.keyOf (u.asidOf id.launch)) p 8)
    rw [State.rd_length] at hlt
    rw [BitVec.toNat_ofNat, bytesNat_eq]
    exact Nat.mod_eq_of_lt hlt
  have hscope : scopeOf e ≠ 0 := Nat.succ_ne_zero _
  unfold State.cellStep
  rw [← hv, ← cellCond_iff]
  refine ⟨fun h => ?_, fun h => ?_⟩
  · rw [if_pos h, State.acquireAt, if_neg hscope]
  · rw [if_neg h, State.effAtW_raise hc]

theorem exec_waitm {s : State} {f : Fibre} {k : BitVec 2} {c : BitVec 4} {x r : BitVec 6} {e : BitVec 2} {p : Nat} {nt : Bool} (h : s.alone (.waitm k c x r e) f = true)
    (hp : permits (f.cap c.toNat) [0, 4] [4] (offsetOf f x 0) 8 8) (hh : s.isHeap (me s f) (f.cap c.toNat) = false)
    (hat : s.gone.atPort (me s f) (f.cap c.toNat) (objectOffset (f.cap c.toNat) (offsetOf f x 0)) 8 false = (s.gone, .ok (.pa p nt))) (hfree : free s p 8) :
    exec (.waitm k c x r e) s = .next ((s.gone.l1Sync (myCore s f) (myAsid s) (f.cap c.toNat).obj.toNat (objectOffset (f.cap c.toNat) (offsetOf f x 0))).cellStep (me s f)
      (offsetOf f x 0) p nt k (f.pair r.toNat) (scopeOf e)) := by
  obtain ⟨hl, hx, hb⟩ := free_of_bare (alone_gone h) hfree
  refine (issueEach_alone h _).trans (congrArg _ ?_)
  have hcheck : capCheck (f.cap c.toNat) kCell [rA] (offsetOf f x 0) 8 8 = none := capCheck_of_permits hp
  have hat : s.gone.atPort (me s f) (f.cap c.toNat) (objOff (f.cap c.toNat) (offsetOf f x 0)) 8 false = (s.gone, .ok (.pa p nt)) := hat
  simp only [effOff_passes, cap_passes, pair_passes, hcheck, alone_isHeap h, hh, hat, hl, hx, hb, Bool.false_eq_true, if_false, Bool.false_and, Bool.or_self,
    alone_coreOf h, alone_asidOf h]
  rfl

theorem exec_notify {s v : State} {f : Fibre} {t : BitVec 6} {c : BitVec 4} {x : BitVec 6} {i : BitVec 8} {p : Nat} {nt : Bool} (h : s.alone (.notify t c x i) f = true)
    (hp : permits (f.cap c.toNat) [0, 4] [4, 6] (offsetOf f x (i.toInt * 8)) 8 8) (hh : s.isHeap (me s f) (f.cap c.toNat) = false)
    (hat : s.gone.atPort (me s f) (f.cap c.toNat) (objectOffset (f.cap c.toNat) (offsetOf f x (i.toInt * 8))) 8 true = (s.gone, .ok (.pa p nt))) (hfree : free s p 8)
    (hr : (s.gone.l1Sync (myCore s f) (myAsid s) (f.cap c.toNat).obj.toNat (objectOffset (f.cap c.toNat) (offsetOf f x (i.toInt * 8)))).releaseFor (me s f) 5 = (v, .ok ())) :
    exec (.notify t c x i) s = .next ((v.homeStore (v.keyOf (myAsid s)) p ((List.range 8).map (byteOf (pairOf f t.toNat)))).l1Drop (v.coreOf (me s f)) (myAsid s)
      (f.cap c.toNat).obj.toNat (objectOffset (f.cap c.toNat) (offsetOf f x (i.toInt * 8)))) := by
  refine (issueEach_alone h _).trans (congrArg _ ?_)
  have hcheck : capCheck (f.cap c.toNat) kCell [rA, rW] (offsetOf f x (disp8 i 8)) 8 8 = none := capCheck_of_permits hp
  have hat : s.gone.atPort (me s f) (f.cap c.toNat) (objOff (f.cap c.toNat) (offsetOf f x (disp8 i 8))) 8 true = (s.gone, .ok (.pa p nt)) := hat
  have hr : (s.gone.l1Sync (myCore s f) (myAsid s) (f.cap c.toNat).obj.toNat (objOff (f.cap c.toNat) (offsetOf f x (disp8 i 8)))).releaseFor (me s f) 5 = (v, .ok ()) := hr
  simp only [effOff_passes, cap_passes, pair_passes, hcheck, alone_isHeap h, hh, hat, homeReady_free (free_of_bare (alone_gone h) hfree), alone_coreOf h, alone_asidOf h,
    State.releasing, hr, natBytes_eq, pairOf_eq, Bool.false_eq_true, if_false]
  rfl

/-- Settles O31: each instruction's own rule, WAITM's by the conditions as comparisons of numbers. -/
theorem waits : Obligations.waits := by
  refine ⟨⟨fun s f k c x r e p nt h => ?_, fun s f t c x i p nt v h => ?_⟩, fun s d a => exec_waitt_done, fun s f d a => exec_waitt_pending, fun s d a => exec_tokq, fun s i => exec_sleep⟩
  · intro y off o hp hh hat hfree u v
    have hu : HomeWork s.gone u := homeWork_writeBack ..
    have hcur : u.cur = s.cur := hu.cur.trans (cur_of_bare (alone_gone h))
    have hkey : u.asidOf (me s f).launch = s.asidOf s.cur.launch := (hu.asidOf _).trans (alone_asidOf h)
    have hstep := cellStep_spec (u := u) (id := me s f) (p := p) (k := k) (e := e) off nt (f.pair r.toNat) (hcur ▸ (lone_launch (alone_lone h).1).1)
    rw [hkey, pairOf_eq, hcur] at hstep
    rw [exec_waitm h hp hh hat hfree]
    exact ⟨fun hc => congrArg _ (hstep.1 hc), fun hc => congrArg _ (hstep.2 hc)⟩
  · intro y off o hp hh hat hfree hr
    exact exec_notify h hp hh hat hfree hr

end Sys2Proof.Machine
end

section
/-! PROOFS. What caches complete by themselves (R178, R180, R212, R221), and fetches and decodes that fail (R285, R289, R292). -/

namespace Sys2Proof.Machine

open Claims

/-! ## Walks (R212) -/

theorem State.objRoom_spec (s : State) (die asid obj : Nat) : ∃ fc oc, s.objRoom die asid obj = { s with freeCount := fc, objCache := oc } := by
  unfold State.objRoom
  dsimp only [State.choice]
  split
  · exact ⟨s.freeCount, s.objCache, rfl⟩
  · split
    · exact ⟨_, s.objCache, rfl⟩
    · exact ⟨_, _, rfl⟩

theorem State.regRoom_spec (s : State) (die : Nat) : ∃ fc rc, s.regRoom die = { s with freeCount := fc, regCache := rc } := by
  unfold State.regRoom
  dsimp only [State.choice]
  split
  · exact ⟨s.freeCount, s.regCache, rfl⟩
  · split
    · exact ⟨_, s.regCache, rfl⟩
    · exact ⟨_, _, rfl⟩

/-- An object's entry that is there and sound enters the die's object cache, a page word the region cache, and nothing else changes. -/
theorem State.fillWalk_spec (s : State) (die asid obj : Nat) (page : Option Nat) :
    ∃ fc oc rc, s.fillWalk die asid obj page = { s with freeCount := fc, objCache := oc, regCache := rc } ∧
      (∀ e, page = none → s.entry asid obj = some e → s.wordLost (s.entryAt asid obj) 32 = false → ⟨die, asid, obj, e⟩ ∈ oc) ∧
      ∀ p e, page = some p → s.entry asid obj = some e → e.paged = true → s.wordLost (e.wordPA p) 8 = false →
        ⟨die, asid, obj, p, BitVec.ofNat 64 (s.mem.num (e.wordPA p) 8), e.gen⟩ ∈ rc := by
  unfold State.fillWalk
  cases he : s.entry asid obj with
  | none => exact ⟨s.freeCount, s.objCache, s.regCache, rfl, fun _ _ h => (by cases h), fun _ _ _ h => (by cases h)⟩
  | some e =>
    cases page with
    | none =>
      dsimp only
      by_cases hl : s.wordLost (s.entryAt asid obj) 32 = true
      · rw [if_pos hl]
        exact ⟨s.freeCount, s.objCache, s.regCache, rfl, fun _ _ _ h => (by rw [hl] at h; cases h), fun _ _ h => (by cases h)⟩
      · rw [if_neg hl]
        obtain ⟨fc, oc, hr⟩ := State.objRoom_spec { s with objCache := s.objCache.filter (fun c => !(c.die == die && c.asid == asid && c.obj == obj)) } die asid obj
        rw [hr]
        refine ⟨fc, _, s.regCache, rfl, fun x _ hx _ => ?_, fun _ _ h => (by cases h)⟩
        cases hx
        exact List.mem_cons_self
    | some p =>
      dsimp only
      by_cases hl : (!e.paged || s.wordLost (e.wordPA p) 8) = true
      · rw [if_pos hl]
        refine ⟨s.freeCount, s.objCache, s.regCache, rfl, fun _ h => (by cases h), fun q x hq hx hp hw => ?_⟩
        cases hq
        cases hx
        simp [hp, hw] at hl
      · rw [if_neg hl]
        obtain ⟨fc, rc, hr⟩ := State.regRoom_spec { s with regCache := s.regCache.filter (fun c => !(c.die == die && c.asid == asid && c.obj == obj && c.page == p)) } die
        rw [hr]
        refine ⟨fc, s.objCache, _, rfl, fun _ h => (by cases h), fun q x hq hx _ _ => ?_⟩
        cases hq
        cases hx
        exact List.mem_cons_self

theorem exec_translationWalk {s : State} {die asid obj : Nat} {page : Option Nat} (hw : ⟨die, asid, obj, page⟩ ∈ s.walks) :
    ∃ t, exec (.translationWalk die asid obj page) s = .next t ∧ ⟨die, asid, obj, page⟩ ∉ t.walks ∧ t.mem = s.mem ∧
      (∀ e, page = none → s.entry asid obj = some e → s.wordLost (s.entryAt asid obj) 32 = false → ⟨die, asid, obj, e⟩ ∈ t.objCache) ∧
      (∀ p e, page = some p → s.entry asid obj = some e → e.paged = true → s.wordLost (e.wordPA p) 8 = false → ⟨die, asid, obj, p, BitVec.ofNat 64 (s.mem.num (e.wordPA p) 8), e.gen⟩ ∈ t.regCache) ∧
      ∀ id f, s.fib id = some f → t.fib id = some (if f.wait = .walk die asid obj page then { f with wait := .none } else f) := by
  obtain ⟨fc, oc, rc, he, hobj, hreg⟩ := State.fillWalk_spec { s with walks := s.walks.filter (fun w => w != ⟨die, asid, obj, page⟩) } die asid obj page
  let u : State := State.endWaits { s with walks := s.walks.filter (fun w => w != ⟨die, asid, obj, page⟩), freeCount := fc, objCache := oc, regCache := rc } (fun w => w == .walk die asid obj page)
  have hexec : ∃ a, exec (.translationWalk die asid obj page) s = .next { u with agenda := a } := by
    show ∃ a, execTranslationWalk die asid obj page s = _
    unfold execTranslationWalk
    rw [if_neg (by simp [hw]), he]
    dsimp only
    split
    · exact ⟨u.agenda, rfl⟩
    · exact ⟨_, rfl⟩
  obtain ⟨a, hexec⟩ := hexec
  refine ⟨_, hexec, by simp [u, State.endWaits, State.mapFibres], rfl, hobj, hreg, fun id f hf => ?_⟩
  have hfib : ({ u with agenda := a } : State).fib id = u.fib id := rfl
  rw [hfib]
  have hu : u.fib id = (s.fib id).map (fun f => if (f.wait == .walk die asid obj page) = true then { f with wait := .none } else f) :=
    State.fib_mapFibres _ _ (fun _ f => by split <;> rfl) id
  rw [hu, hf]
  simp

/-! ## Cores -/

theorem State.core_id (s : State) (n : Nat) : (s.core n).id = n := by
  unfold State.core
  cases h : s.cores.find? (fun c => c.id == n) with
  | none => rfl
  | some c => simpa using List.find?_some h

theorem State.core_setCore_same (s : State) (c : Core) : (s.setCore c).core c.id = c := by
  unfold State.setCore State.core
  split
  next h =>
    obtain ⟨x, hx, he⟩ := List.any_eq_true.mp h
    have hfind : ((s.cores.map (fun x => if x.id == c.id then c else x)).find? (fun y => y.id == c.id)) = some c := by
      rw [List.find?_map]
      have hsome : (s.cores.find? ((fun y : Core => y.id == c.id) ∘ fun x => if (x.id == c.id) = true then c else x)).isSome := by
        rw [List.find?_isSome]
        exact ⟨x, hx, by simp only [Function.comp, he, if_true, beq_self_eq_true]⟩
      obtain ⟨y, hy⟩ := Option.isSome_iff_exists.mp hsome
      rw [hy]
      have := List.find?_some hy
      by_cases hyc : y.id = c.id
      · simp [hyc]
      · simp [hyc] at this
    rw [hfind]
    rfl
  · simp

theorem State.core_setCore_other (s : State) (c : Core) {n : Nat} (h : n ≠ c.id) : (s.setCore c).core n = s.core n := by
  unfold State.setCore State.core
  split
  · rw [List.find?_map]
    have hc : (fun y : Core => y.id == n) ∘ (fun x => if (x.id == c.id) = true then c else x) = fun y => y.id == n := by
      funext x
      by_cases hx : x.id = c.id
      · simp [hx]
      · simp [hx]
    rw [hc]
    cases hf : s.cores.find? (fun y => y.id == n) with
    | none => rfl
    | some x =>
      have hx : x.id = n := by simpa using List.find?_some hf
      have : ¬ x.id = c.id := fun e => h (hx.symm.trans e)
      simp [this]
  · rw [List.find?_cons_of_neg (by simpa using Ne.symm h)]

theorem State.core_modCore_same (s : State) (n : Nat) (f : Core → Core) (hf : ∀ c, (f c).id = c.id) : (s.modCore n f).core n = f (s.core n) := by
  have h := s.core_setCore_same (f (s.core n))
  rwa [hf, s.core_id] at h

theorem State.core_modCore_other (s : State) {n m : Nat} (f : Core → Core) (hf : ∀ c, (f c).id = c.id) (h : m ≠ n) : (s.modCore n f).core m = s.core m :=
  s.core_setCore_other _ (by rwa [hf, s.core_id])

/-! ## Write-back (R221) -/

/-- From s to t no dirty FIFO has changed, and no sector has become uncorrectable where none was. -/
def FifosKept (s t : State) : Prop := (∀ n, (t.core n).fifo = (s.core n).fifo) ∧ (s.hurts = [] → t.hurts = [])

theorem FifosKept.trans {s t u : State} (h : FifosKept s t) (h' : FifosKept t u) : FifosKept s u :=
  ⟨fun n => (h'.1 n).trans (h.1 n), fun hs => h'.2 (h.2 hs)⟩

theorem FifosKept.of_eq {s t : State} (hc : t.cores = s.cores) (hh : s.hurts = [] → t.hurts = []) : FifosKept s t :=
  ⟨fun n => by rw [State.core, hc, State.core], hh⟩

theorem FifosKept.refl (s : State) : FifosKept s s := .of_eq rfl id

theorem FifosKept.over {α : Type} {f : State → α → State} (h : ∀ s x, FifosKept s (f s x)) (xs : List α) (s : State) : FifosKept s (s.over xs f) := by
  induction xs generalizing s with
  | nil => exact .refl s
  | cons x xs ih => exact (h s x).trans (ih _)

theorem fifosKept_acquire (s : State) (n : Nat) : FifosKept s (s.acquire n) := by
  refine ⟨fun m => ?_, id⟩
  by_cases h : m = n
  · rw [h, State.acquire, State.core_modCore_same s n Core.acquire (fun _ => rfl)]
    rfl
  · rw [State.acquire, State.core_modCore_other s Core.acquire (fun _ => rfl) h]

theorem fifosKept_wake (s : State) (id : FibId) : FifosKept s (s.wake id) := by
  have hgang (u : State) : FifosKept u (u.wakeGang id) := by
    unfold State.wakeGang
    split
    · exact .refl u
    · exact .of_eq rfl (fun h => h)
  have hready : FifosKept s ((s.modFib id (fun f => { f with wait := .none })).wakeGang id) := .trans (.of_eq rfl (fun h => h)) (hgang _)
  unfold State.wake
  dsimp only
  split
  · exact hready
  · split
    · exact hready.trans (fifosKept_acquire ..)
    · exact hready

theorem homeGone_hurts {s : State} (h : s.hurts = []) (x : HomeLine) : (s.homeGone x).hurts = [] := by
  unfold State.homeGone
  simp [h, State.over]

theorem homeRoom_hurts {s : State} (h : s.hurts = []) (slice set : Nat) : (s.homeRoom slice set).hurts = [] := by
  unfold State.homeRoom
  dsimp only [State.choice]
  split
  · exact h
  · split
    · exact homeGone_hurts (by exact h) _
    · split <;> exact h

theorem fifosKept_homeTouch (s : State) (pa : Nat) (dirty : Bool) : FifosKept s (s.homeTouch pa dirty) := by
  obtain ⟨_, _, _, _, _, _, _, ht⟩ := homeTouched_homeTouch s pa dirty
  refine .of_eq (by rw [ht]) (fun h => ?_)
  unfold State.homeTouch
  dsimp only
  split
  · exact h
  · exact homeRoom_hurts h _ _

theorem fifosKept_homeWrite (s : State) (key : Nat) (ps : List (Nat × Byte)) : FifosKept s (s.homeWrite key ps) := by
  unfold State.homeWrite State.wakeAll
  refine .trans ?_ (.over fifosKept_wake _ _)
  refine .trans ?_ (.over (fun u k => fifosKept_homeTouch u _ _) _ _)
  exact .of_eq rfl (fun h => by simp [State.put, h])

/-- What a line of 256 bytes writes back: its masked bytes, at their addresses. -/
def L1Line.dirtyBytes (l : L1Line) (pa : Nat) : List (Nat × Byte) :=
  ((List.range 256).filter (fun j => l.mask.getLsbD j)).map (fun j => (pa + j, l.byte j))

theorem L1Line.dirtyBytes_eq (l : L1Line) (pa : Nat) :
    l.dirtyBytes pa = [0, 1, 2, 3].flatMap (fun k => (l.masked k).map (fun p => (pa + p.1, p.2))) := by
  have hrange : List.range 256 = [0, 1, 2, 3].flatMap (fun k => (List.range 64).map (64 * k + ·)) := by
    rw [show 256 = 64 + 64 + 64 + 64 from rfl, List.range_add, List.range_add, List.range_add]
    simp
  unfold L1Line.dirtyBytes L1Line.masked
  rw [hrange]
  simp [List.filter_map, Function.comp_def]

theorem L1Line.dirtyBytes_nodup (l : L1Line) (pa : Nat) : ((l.dirtyBytes pa).map (·.1)).Nodup := by
  unfold L1Line.dirtyBytes
  rw [List.map_map]
  exact (List.nodup_range.filter _).map (fun i j h => Nat.add_left_cancel h)

/-- What the write-back of a sound line leaves in memory, where no queue is bound. -/
theorem Mem.get_dirtyBytes {m : Mem} (hm : m.wf = true) (l : L1Line) (pa : Nat) :
    (∀ j, j < 256 → (m.writeAt (l.dirtyBytes pa)).get (pa + j) = if l.mask.getLsbD j then l.byte j else m.get (pa + j)) ∧
      ∀ q, q < pa ∨ pa + 256 ≤ q → (m.writeAt (l.dirtyBytes pa)).get q = m.get q := by
  have hmem {x : Nat × Byte} (hx : x ∈ l.dirtyBytes pa) : ∃ j, j < 256 ∧ l.mask.getLsbD j = true ∧ x = (pa + j, l.byte j) := by
    obtain ⟨j, hj, rfl⟩ := List.mem_map.mp hx
    obtain ⟨hr, hb⟩ := List.mem_filter.mp hj
    exact ⟨j, List.mem_range.mp hr, hb, rfl⟩
  refine ⟨fun j hj => ?_, fun q hq => Mem.get_writeAt_other hm _ (fun x hx => ?_)⟩
  · by_cases hb : l.mask.getLsbD j = true
    · rw [if_pos hb]
      exact Mem.get_writeAt_mem hm (l.dirtyBytes_nodup pa) (List.mem_map.mpr ⟨j, List.mem_filter.mpr ⟨List.mem_range.mpr hj, hb⟩, rfl⟩)
    · rw [if_neg hb]
      refine Mem.get_writeAt_other hm _ (fun x hx he => ?_)
      obtain ⟨i, _, hi, rfl⟩ := hmem hx
      exact hb (Nat.add_left_cancel he ▸ hi)
  · obtain ⟨j, hj, _, rfl⟩ := hmem hx
    dsimp only
    omega

/-- The write of one sector of a line. -/
def State.sectorBack (s : State) (core asid obj line pa : Nat) (l : L1Line) (k : Nat) : State :=
  if l.masked k = [] then s
  else if s.l1Hurt core asid obj (4 * line + k) then s.sectorLost core asid obj (4 * line + k) pa
  else s.homeWrite (s.keyOf asid) ((l.masked k).map (fun p => (pa + p.1, p.2)))

theorem sectorsBack_spec {s : State} (hq : s.queues = []) (hh : s.hurts = []) (core asid obj line pa : Nat) (l : L1Line) (ks : List Nat) :
    FifosKept s (s.over ks (fun u k => u.sectorBack core asid obj line pa l k)) ∧
      (s.over ks (fun u k => u.sectorBack core asid obj line pa l k)).mem = s.mem.writeAt (ks.flatMap (fun k => (l.masked k).map (fun p => (pa + p.1, p.2)))) := by
  induction ks generalizing s with
  | nil => exact ⟨.refl s, rfl⟩
  | cons k ks ih =>
    have hone : FifosKept s (s.sectorBack core asid obj line pa l k) ∧ (s.sectorBack core asid obj line pa l k).queues = [] ∧
        (s.sectorBack core asid obj line pa l k).mem = s.mem.writeAt ((l.masked k).map (fun p => (pa + p.1, p.2))) := by
      unfold State.sectorBack
      by_cases hk : l.masked k = []
      · rw [if_pos hk, hk]
        exact ⟨.refl s, hq, rfl⟩
      · rw [if_neg hk, if_neg (by simp [State.l1Hurt, hh])]
        exact ⟨fifosKept_homeWrite .., (homeWork_homeWrite ..).queues.trans hq, State.homeWrite_mem hq ..⟩
    obtain ⟨hf, hqs, hmem⟩ := hone
    obtain ⟨hfs, hmems⟩ := ih hqs (hf.2 hh)
    refine ⟨hf.trans hfs, hmems.trans ?_⟩
    rw [hmem, List.flatMap_cons]
    exact (List.foldl_append ..).symm

theorem exec_l1WriteBack {s : State} {core a o n pa : Nat} {rest : List (Nat × Nat × Nat)} {l : L1Line} (hm : s.mem.wf = true) (hq : s.queues = []) (hh : intact s)
    (hf : (s.core core).fifo = (a, o, n) :: rest) (hl : (s.core core).line a o n = some l) (hpa : s.paOf a o (256 * n) = some pa) (hlatch : s.latched pa = false) :
    ∃ t, exec (.l1WriteBack core) s = .next t ∧ (a, o, n) ∉ (t.core core).fifo ∧
      (∀ j, j < 256 → t.mem.get (pa + j) = if l.mask.getLsbD j then l.byte j else s.mem.get (pa + j)) ∧ ∀ q, q < pa ∨ pa + 256 ≤ q → t.mem.get q = s.mem.get q := by
  let g (c : Core) : Core :=
    { (if l.leaving then { c with l1 := c.l1.filter (fun x => !x.is a o n) } else c.modLine a o n (fun l => { l with mask := 0 })) with fifo := c.fifo.filter (fun x => x != (a, o, n)) }
  have hback : s.writeBack core a o n = (s.modCore core g).over [0, 1, 2, 3] (fun u k => u.sectorBack core a o n pa l k) := by
    have hpa' : (s.modCore core g).paOf a o (256 * n) = some pa := hpa
    unfold State.writeBack
    rw [hl]
    dsimp only
    rw [hpa']
    rfl
  obtain ⟨hfifos, hmem⟩ := sectorsBack_spec (s := s.modCore core g) hq hh core a o n pa l [0, 1, 2, 3]
  rw [← hback, ← L1Line.dirtyBytes_eq] at hmem
  rw [← hback] at hfifos
  obtain ⟨ag, hretry⟩ := State.retry_spec (s.writeBack core a o n)
  have hexec : exec (.l1WriteBack core) s = .next { s.writeBack core a o n with agenda := ag } := by
    show execL1WriteBack core s = _
    unfold execL1WriteBack
    rw [hf]
    dsimp only
    rw [if_neg (by simp [State.lineLatched, hpa, hlatch]), hretry]
  refine ⟨_, hexec, ?_, ?_⟩
  · show _ ∉ ((s.writeBack core a o n).core core).fifo
    rw [hfifos.1, State.core_modCore_same]
    · simp [g]
    · intro c
      simp only [g]
      split <;> rfl
  · show _ ∧ ∀ q, _ → (s.writeBack core a o n).mem.get q = _
    rw [show ({ s.writeBack core a o n with agenda := ag } : State).mem = (s.writeBack core a o n).mem from rfl, hmem]
    exact Mem.get_dirtyBytes hm l pa

/-! ## Instruction caches (R180) -/

/-- A line given to a core. -/
def State.withLine (s : State) (n : Nat) (l : ILine) : State := s.modCore n (fun c => c.addLine l)

theorem State.withLine_same (s : State) (n : Nat) (l : ILine) : l ∈ ((s.withLine n l).core n).icache := by
  have h : (s.withLine n l).core n = (s.core n).addLine l := s.core_modCore_same n (fun c => c.addLine l) (fun _ => rfl)
  simp [h, Core.addLine]

theorem State.withLine_other (s : State) {n m : Nat} (l : ILine) (h : m ≠ n) : (s.withLine n l).core m = s.core m :=
  s.core_modCore_other (fun c => c.addLine l) (fun _ => rfl) h

/-- A line of code as memory has it. -/
def State.codeLine (s : State) (asid obj line : Nat) : ILine := ⟨asid, obj, line, s.lineBytesOf asid obj line⟩

/-- A line that can be read is given to a core. -/
theorem State.iFill_read {s : State} {asid obj line : Nat} (hb : s.lineBytesOf asid obj line ≠ []) (hl : s.lineLost asid obj line = false) (n : Nat) :
    s.iFill n asid obj line = s.withLine n (s.codeLine asid obj line) := by
  unfold State.iFill
  simp only [hb, hl, Bool.false_eq_true, or_self, if_false]
  rfl

/-- Each of the cores holds the line afterwards, and only cores have changed. -/
theorem State.over_iFill {s : State} {asid obj line : Nat} (hb : s.lineBytesOf asid obj line ≠ []) (hl : s.lineLost asid obj line = false) (ns : List Nat) :
    ∃ cs, s.over ns (fun u n => u.iFill n asid obj line) = { s with cores := cs } ∧
      ∀ n, n ∈ ns → s.codeLine asid obj line ∈ (({ s with cores := cs } : State).core n).icache := by
  induction ns using List.reverseRecOn with
  | nil => exact ⟨s.cores, rfl, fun n hn => by cases hn⟩
  | append_singleton ns m ih =>
    obtain ⟨cs, he, hin⟩ := ih
    let u : State := { s with cores := cs }
    have happ : s.over (ns ++ [m]) (fun u n => u.iFill n asid obj line) = (s.over ns (fun u n => u.iFill n asid obj line)).iFill m asid obj line := List.foldl_append ..
    have hm : u.iFill m asid obj line = u.withLine m (s.codeLine asid obj line) := State.iFill_read (s := u) hb hl m
    refine ⟨(u.withLine m (s.codeLine asid obj line)).cores, ?_, fun n hn => ?_⟩
    · rw [happ, he, hm]
      rfl
    · show _ ∈ ((u.withLine m (s.codeLine asid obj line)).core n).icache
      by_cases hnm : n = m
      · rw [hnm]
        exact u.withLine_same ..
      · rw [u.withLine_other _ hnm]
        exact hin n (by simpa [hnm] using hn)

theorem exec_icacheFill_alone {s : State} {core asid obj line : Nat} (hb : s.lineBytesOf asid obj line ≠ []) (hl : s.lineLost asid obj line = false)
    (hh : s.lineHeld asid obj line = false) (hw : s.joined core asid obj line = []) :
    ∃ t, exec (.icacheFill core asid obj line) s = .next t ∧ s.codeLine asid obj line ∈ (t.core core).icache ∧ t.mem = s.mem ∧ t.wgs = s.wgs := by
  refine ⟨s.iFill core asid obj line, ?_, ?_⟩
  · show execIcacheFill core asid obj line s = _
    unfold execIcacheFill
    simp only [hw, hh, Bool.false_eq_true, if_false, if_true]
  · rw [State.iFill_read hb hl]
    exact ⟨s.withLine_same .., rfl, rfl⟩

/-- The cores of a filled line fetch the next one ahead of use: nothing but the agenda changes. -/
theorem State.over_ahead (s : State) (asid obj line : Nat) (ns : List Nat) : ∃ a, s.over ns (fun s n =>
    if s.agenda.any (fun t => t.ev == Instr.icacheFill n asid obj (line + 1)) || (s.core n).icache.any (fun l => l.asid == asid && l.obj == obj && l.line == line + 1) then s
    else s.later 1 (Instr.icacheFill n asid obj (line + 1))) = { s with agenda := a } := by
  induction ns generalizing s with
  | nil => exact ⟨s.agenda, rfl⟩
  | cons n ns ih =>
    unfold State.over
    rw [List.foldl_cons]
    split
    · exact ih s
    · exact ih _

theorem exec_icacheFill_joined {s : State} {core asid obj line : Nat} {id : FibId} {f : Fibre} (hb : s.lineBytesOf asid obj line ≠ []) (hl : s.lineLost asid obj line = false)
    (hh : s.lineHeld asid obj line = false) (hw : s.joined core asid obj line = [(id, f)]) (hf : s.fib id = some f) (hpc : s.fetchFault asid obj line f.pc = none) :
    ∃ t, exec (.icacheFill core asid obj line) s = .next t ∧ s.codeLine asid obj line ∈ (t.core (s.coreOf id)).icache ∧
      fibreChange s t id { f with wait := .none } ∧ t.mem = s.mem := by
  have hn : s.coreOf id ∈ (core :: [(id, f)].map (fun x => s.coreOf x.1)).dedup := by simp
  obtain ⟨cs, he, hin⟩ := State.over_iFill hb hl (core :: [(id, f)].map (fun x => s.coreOf x.1)).dedup
  let u : State := State.modFib { s with cores := cs } id (fun f => { f with wait := .none })
  have hu : u.fetchFault asid obj line f.pc = none := hpc
  obtain ⟨a, ha⟩ := u.over_ahead asid obj line (core :: [(id, f)].map (fun x => s.coreOf x.1)).dedup
  have hexec : exec (.icacheFill core asid obj line) s = .next { u with agenda := a } := by
    show execIcacheFill core asid obj line s = _
    unfold execIcacheFill
    simp only [hw, hh, Bool.false_eq_true, if_false, List.cons_ne_nil, he]
    rw [show State.over { s with cores := cs } [(id, f)] _ = u from ?_]
    · exact congrArg _ ha
    · show (match u.fetchFault asid obj line f.pc with | none => u | some (t, k) => u.raise id (Eff.fault t f.pc f.pc k)) = u
      rw [hu]
  refine ⟨_, hexec, hin _ hn, ⟨?_, fun j hj => ?_⟩, rfl⟩
  · exact (fib_modFib_same s id (fun f => { f with wait := .none }) (fun _ => rfl)).trans (congrArg _ hf)
  · exact fib_modFib_other s id j (fun f => { f with wait := .none }) (fun _ => rfl) hj

/-! ## Cupboards (R178) -/

/-- No Cupboard holds the segment. -/
def State.withoutSeg (s : State) (asid seg : Nat) : State :=
  { s with cores := s.cores.map (fun (c : Core) => { c with cupboard := c.cupboard.filter (fun x => !(x.asid == asid && x.seg == seg)) }) }

/-- The Cupboard takes the segment as the last one. -/
def Core.takeSeg (c : Core) (asid seg : Nat) (d : Bool) : Core := { c with cupboard := (if 256 ≤ c.cupboard.length then c.cupboard.drop 1 else c.cupboard) ++ [⟨asid, seg, d⟩] }

theorem State.inCupboard_withoutSeg (s : State) (n asid seg : Nat) : (s.withoutSeg asid seg).inCupboard n asid seg = false := by
  unfold State.inCupboard State.core
  cases hc : (s.withoutSeg asid seg).cores.find? (fun c => c.id == n) with
  | none => rfl
  | some c =>
    obtain ⟨d, -, rfl⟩ := List.mem_map.mp (List.mem_of_find?_eq_some hc)
    simp [imp_iff_not_or]

/-- No other core's Cupboard holds the segment that a core has taken. -/
theorem State.inCupboard_take (s : State) (core asid seg : Nat) (dirty : Bool) :
    (s.cupboardTake core asid seg dirty).inCupboard core asid seg = true ∧ ∀ n, n ≠ core → (s.cupboardTake core asid seg dirty).inCupboard n asid seg = false := by
  obtain ⟨d, htake⟩ : ∃ d, s.cupboardTake core asid seg dirty = (s.withoutSeg asid seg).modCore core (fun c => c.takeSeg asid seg d) := ⟨_, rfl⟩
  rw [htake]
  refine ⟨?_, fun n hn => ?_⟩
  · rw [State.inCupboard, State.core_modCore_same _ core (fun c => c.takeSeg asid seg d) (fun _ => rfl)]
    simp [Core.takeSeg]
  · rw [State.inCupboard, State.core_modCore_other _ (fun c => c.takeSeg asid seg d) (fun _ => rfl) hn]
    exact s.inCupboard_withoutSeg n asid seg

theorem exec_cupboardFill {s : State} {core asid seg : Nat} (hp : (s.segPA asid seg).isSome = true) :
    ∃ t, exec (.cupboardFill core asid seg) s = .next t ∧ t.inCupboard core asid seg = true ∧ t.mem = s.mem ∧
      (∀ n, n ≠ core → t.inCupboard n asid seg = false) ∧
      ∀ id f, s.fib id = some f → t.fib id = some (if f.wait = .cupboard asid seg ∧ s.coreOf id = core then { f with wait := .none } else f) := by
  obtain ⟨hown, hother⟩ := s.inCupboard_take core asid seg false
  refine ⟨_, congrArg Host.Outcome.next (if_neg (by simpa [← Option.isSome_iff_ne_none] using hp)), hown, rfl, hother, fun id f hf => ?_⟩
  rw [State.fib_mapFibres _ _ (fun j x => by split <;> rfl)]
  have hfib : (s.cupboardTake core asid seg false).fib id = some f := hf
  rw [hfib]
  rfl

/-! ## Fetches and decodes that fail (R195, R285) -/

theorem each_only {s : State} {f : Fibre} (h : onlyFibre s f) (F : State → FibId → Fibre → State) : s.each s.cur.fids F = F s (me s f) f := by
  obtain ⟨-, hfids, hf⟩ := h
  rw [hfids, each_cons, show s.curId f.fid = me s f from rfl, hf]
  rfl

theorem effAt_only {s : State} {f : Fibre} (h : onlyFibre s f) (tag : BitVec 12) (arg : Word) : s.effAt (me s f) tag arg = faultAt s s f tag arg := by
  rw [State.effAt, State.effAtW_raise h.1]
  rfl

theorem fetchTag_eq (c : Cap) (pc : Word) : fetchTag c pc = fetchRefusal c (packetAt pc) := by
  unfold fetchTag fetchRefusal Cap.has
  have hk : (!c.tag) = true ↔ c.tag = false := by simp
  have hx : (!([rX].all (fun b => c.rights.getLsbD b))) = true ↔ c.rights.getLsbD 5 = false := by simp [rX]
  have hkind : (c.kind != 1#4) = true ↔ c.kind ≠ 1 := by simp
  simp only [hk, hkind, hx]
  rfl

theorem exec_illegalInstruction {s : State} {f : Fibre} (h : onlyFibre s f) : exec .illegalInstruction s = .next (faultAt s s f 0x0E7 0) :=
  congrArg Host.Outcome.next ((each_only h _).trans (effAt_only h _ _))

theorem exec_instructionFetchFault {s : State} {f : Fibre} (h : onlyFibre s f) :
    exec .instructionFetchFault s = .next (faultAt s s f (fetchFault f).1 (fetchFault f).2) :=
  congrArg Host.Outcome.next ((each_only h _).trans (effAt_only h _ _))

/-- Settles O37, event by event. -/
theorem cacheEventsAndFetchFaults : Obligations.cache_events_and_fetch_faults := by
  refine ⟨⟨fun s die asid obj page => exec_translationWalk, fun s core a o n pa rest l => exec_l1WriteBack, fun s core asid obj line hb hl hh => ?_, fun s core asid seg => exec_cupboardFill⟩,
    fun s f h => ⟨exec_illegalInstruction h, fun h0 => ?_, fun t hn hr => ?_⟩⟩
  · exact ⟨exec_icacheFill_alone hb hl hh, fun id f hw hf hpc => exec_icacheFill_joined hb hl hh hw hf hpc⟩
  · rw [exec_instructionFetchFault h, fetchFault, if_pos h0]
    rfl
  · rw [exec_instructionFetchFault h, fetchFault, if_neg hn, fetchTag_eq, hr]

end Sys2Proof.Machine
end

section
/-! PROOFS. The covered results of a fibre (R165). -/

namespace Sys2Proof.Machine

open Claims

theorem WB.same_comm (a b : WB) : a.same b = b.same a := by
  cases a <;> cases b <;> simp [WB.same, eq_comm]

/-- A register after one write. -/
theorem Fibre.reg_apply (f : Fibre) (w : WB) {n : Nat} (hn : n < f.v.length) : (f.apply w).reg n = (writeTo n w).getD (f.reg n) := by
  cases w with
  | v m x =>
    unfold Fibre.reg Fibre.apply writeTo
    by_cases h : m = n
    · simp [h, hn]
    · simp [h, List.getElem?_set_ne h]
  | p _ _ => rfl
  | c _ _ => rfl
  | cmask _ => rfl

theorem Fibre.length_apply (f : Fibre) (w : WB) : (f.apply w).v.length = f.v.length := by
  cases w <;> simp [Fibre.apply]

/-- What the taking up of results leaves as it was. -/
theorem settleGo_frame (k : Nat) (ws kept : List OutWrite) (f : Fibre) :
    (settleGo k f kept ws).pc = f.pc ∧ (settleGo k f kept ws).k = f.k ∧ (settleGo k f kept ws).infl = f.infl ∧ (settleGo k f kept ws).fflags = f.fflags ∧
      (settleGo k f kept ws).v.length = f.v.length := by
  induction ws generalizing kept f with
  | nil => exact ⟨rfl, rfl, rfl, rfl, rfl⟩
  | cons w ws ih =>
    unfold settleGo
    split
    · obtain ⟨hpc, hk, hinfl, hflags, hlen⟩ := ih (kept.filter (fun x => !x.wb.same w.wb)) (f.apply w.wb)
      have happly : (f.apply w.wb).pc = f.pc ∧ (f.apply w.wb).k = f.k ∧ (f.apply w.wb).infl = f.infl ∧ (f.apply w.wb).fflags = f.fflags := by
        cases w.wb <;> exact ⟨rfl, rfl, rfl, rfl⟩
      obtain ⟨hpc', hk', hinfl', hflags'⟩ := happly
      exact ⟨hpc.trans hpc', hk.trans hk', hinfl.trans hinfl', hflags.trans hflags', hlen.trans (f.length_apply _)⟩
    · exact ih ..

/-- The covered writes of a register, in program order. -/
def coveredTo (n k : Nat) (ws : List OutWrite) : List Word := (ws.filter (fun w => decide (w.due ≤ k))).filterMap (fun w => writeTo n w.wb)

/-- A register holds its latest covered write, or what it held. -/
theorem settleGo_reg (k n : Nat) (ws kept : List OutWrite) (f : Fibre) (hn : n < f.v.length) :
    (settleGo k f kept ws).reg n = ((coveredTo n k ws).getLast?).getD (f.reg n) := by
  induction ws generalizing kept f with
  | nil => rfl
  | cons w ws ih =>
    unfold settleGo coveredTo
    by_cases hd : w.due ≤ k
    · rw [if_pos hd, ih _ _ (by rwa [f.length_apply]), f.reg_apply _ hn, List.filter_cons_of_pos (by simpa using hd), List.filterMap_cons]
      cases writeTo n w.wb with
      | none => rfl
      | some x => rw [List.getLast?_cons]; rfl
    · rw [if_neg hd, ih _ _ hn, List.filter_cons_of_neg (by simpa using hd)]
      rfl

/-- What is still outstanding was so, and is not covered. -/
theorem settleGo_out (k : Nat) (ws kept : List OutWrite) (f : Fibre) {w : OutWrite} (h : w ∈ (settleGo k f kept ws).out) : w ∈ kept ∨ w ∈ ws ∧ k < w.due := by
  induction ws generalizing kept f with
  | nil => exact .inl h
  | cons y ws ih =>
    unfold settleGo at h
    split at h
    · rcases ih _ _ h with hk | ⟨hw, hd⟩
      · exact .inl (List.mem_filter.mp hk).1
      · exact .inr ⟨List.mem_cons_of_mem _ hw, hd⟩
    next hy =>
      rcases ih _ _ h with hk | ⟨hw, hd⟩
      · rcases List.mem_append.mp hk with hk | hk
        · exact .inl hk
        · rw [List.mem_singleton.mp hk]
          exact .inr ⟨List.mem_cons_self, Nat.lt_of_not_le hy⟩
      · exact .inr ⟨List.mem_cons_of_mem _ hw, hd⟩

/-- An uncovered write that is the only one of its register stays outstanding. -/
theorem settleGo_keeps (k : Nat) (ws kept : List OutWrite) (f : Fibre) {w : OutWrite} (hw : w ∈ kept ∨ w ∈ ws) (hd : k < w.due)
    (honly : ∀ x ∈ ws, x.wb.same w.wb = true → x = w) : w ∈ (settleGo k f kept ws).out := by
  induction ws generalizing kept f with
  | nil => exact hw.resolve_right (by simp)
  | cons y ws ih =>
    have honly' : ∀ x ∈ ws, x.wb.same w.wb = true → x = w := fun x hx => honly x (List.mem_cons_of_mem _ hx)
    unfold settleGo
    split
    next hy =>
      have hne : y ≠ w := fun e => absurd (e ▸ hy) (Nat.not_le.mpr hd)
      have hsame : w.wb.same y.wb = false := by
        rw [WB.same_comm]
        exact Bool.eq_false_iff.mpr (fun hs => hne (honly y List.mem_cons_self hs))
      refine ih _ _ (hw.imp (fun hk => List.mem_filter.mpr ⟨hk, by simp [hsame]⟩) (fun hk => ?_)) honly'
      exact (List.mem_cons.mp hk).resolve_left (fun e => hne e.symm)
    · refine ih _ _ ?_ honly'
      rcases hw with hk | hk
      · exact .inl (List.mem_append_left _ hk)
      · rcases List.mem_cons.mp hk with rfl | hk
        · exact .inl (List.mem_append_right _ (List.mem_singleton.mpr rfl))
        · exact .inr hk

/-- A fibre whose covered results have been taken up. -/
theorem Fibre.settle_spec (f : Fibre) :
    (∀ n, n < f.v.length → f.settle.reg n = (((f.out.filter (fun w => decide (w.due ≤ f.k))).filterMap (fun w => writeTo n w.wb)).getLast?).getD (f.reg n)) ∧
    (∀ w ∈ f.settle.out, w ∈ f.out ∧ f.k < w.due) ∧
    (∀ w ∈ f.out, f.k < w.due → (∀ x ∈ f.out, x.wb.same w.wb = true → x = w) → w ∈ f.settle.out) ∧
    f.settle.pc = f.pc ∧ f.settle.k = f.k ∧ f.settle.infl = f.infl ∧ f.settle.fflags = f.fflags ∧ f.settle.v.length = f.v.length :=
  ⟨fun n hn => settleGo_reg f.k n f.out [] f hn, fun _ hw => (settleGo_out f.k f.out [] f hw).resolve_left (by simp), fun _ hw hd honly => settleGo_keeps f.k f.out [] f (.inr hw) hd honly,
    settleGo_frame f.k f.out [] f⟩

end Sys2Proof.Machine
end

section
/-! PROOFS. What ends a fibre's wait (R160, R165, R229, R377, R397), and the completion of a token (R157, R239). -/

namespace Sys2Proof.Machine

open Claims

/-! ## Scoreboarded results (R160) -/

theorem Fibre.fid_applyScored (f : Fibre) (ws : List WB) : (f.applyScored ws).fid = f.fid := by
  unfold Fibre.applyScored
  induction ws generalizing f with
  | nil => rfl
  | cons w ws ih => exact (ih _).trans (f.fid_apply w)

/-- A fibre whose oldest scoreboarded result has been written. -/
def Fibre.written (f : Fibre) : Fibre :=
  match f.infl with
  | [] => f
  | ws :: rest => { f.applyScored ws with infl := rest }

theorem exec_resultWriteback {s : State} {id : FibId} {f : Fibre} {ws : List WB} {rest : List (List WB)} (hf : s.fib id = some f) (hi : f.infl = ws :: rest) :
    ∃ t, exec (.resultWriteback id) s = .next t ∧ fibreChange s t id { f.applyScored ws with infl := rest } ∧ t.bare = s.bare ∧
      ∀ r x, ws = [.v r x] → r < f.v.length → (t.fib id).map (fun g => g.v.getD r 0) = some x := by
  have hexec : exec (.resultWriteback id) s = .next (s.modFib id Fibre.written) := rfl
  have hw : f.written = { f.applyScored ws with infl := rest } := by rw [Fibre.written, hi]
  have hfid (x : Fibre) : x.written.fid = x.fid := by
    unfold Fibre.written
    split
    · rfl
    · exact x.fid_applyScored _
  have hfib : (s.modFib id Fibre.written).fib id = some { f.applyScored ws with infl := rest } := by
    rw [fib_modFib_same _ _ _ hfid, hf, Option.map_some, hw]
  refine ⟨_, hexec, ⟨hfib, fun j hj => fib_modFib_other _ _ _ _ hfid hj⟩, bare_modFib .., fun r x hws hr => ?_⟩
  rw [hfib, hws]
  simp [Fibre.applyScored, Fibre.apply, hr]

/-! ## Releases (R229) -/

theorem exec_releaseComplete_unacked {s : State} {id : FibId} {f : Fibre} (hf : s.fib id = some f) (hp : f.pend = none) (hc : f.copy = none) (hw : f.wait = .unacked) :
    ∃ t, exec (.releaseComplete id) s = .next t ∧ fibreChange s t id { f with wait := .none } ∧ t.bare = s.bare := by
  refine ⟨s.modFib id (fun y => { y with wait := .none }), ?_, ⟨?_, fun j hj => fib_modFib_other _ _ _ _ (fun _ => rfl) hj⟩, bare_modFib ..⟩
  · show execReleaseComplete id s = _
    unfold execReleaseComplete
    rw [hf]
    simp [hp, hc, hw]
  · rw [fib_modFib_same s id (fun y => { y with wait := .none }) (fun _ => rfl), hf]
    rfl

theorem exec_releaseComplete_capture {s : State} {id : FibId} {f : Fibre} {e : Eff} (hf : s.fib id = some f) (hp : f.pend = some e) (hw : f.wait = .capture) (ho : s.onCores id = true) :
    exec (.releaseComplete id) s = .next (((s.modFib id (fun g => { g with wait := .none, pend := none })).performGo id e).settle id.launch id.wgid) := by
  show execReleaseComplete id s = _
  unfold execReleaseComplete
  rw [hf]
  simp only [hp, hw, ho, and_self, if_true]

/-! ## Sleepers and service calls (R377, R397) -/

theorem exec_sleepExpiry (s : State) : ∃ t, exec .sleepExpiry s = .next t ∧ t.bare = s.bare ∧ ∀ id f, s.fib id = some f →
    (∀ til, f.wait = .sleep til → til ≤ s.ticks → s.sleeps id = true → t.fib id = some { f with wait := .none }) ∧
    ((∀ til, f.wait = .sleep til → s.ticks < til) → t.fib id = some f) := by
  refine ⟨_, rfl, bare_mapFibres .., fun id f hf => ?_⟩
  rw [State.fib_mapFibres s _ (fun j x => by split <;> [split <;> rfl; rfl]), hf, Option.map_some]
  refine ⟨fun til hw ht hs => ?_, fun h => ?_⟩
  · simp only [hw, ht, hs, and_self, if_true]
  · split
    next til hw => rw [if_neg (fun hc => absurd (h til hw) (Nat.not_lt.mpr hc.1))]
    · rfl

/-- A fibre that the device supervisor has answered, if it waited for that. -/
def State.answeredCall (s : State) (id : FibId) (f : Fibre) : Fibre :=
  match f.wait with
  | .supervisor imm => { f.apply (.v 0 (s.serviceValue (s.asidOf id.launch) imm)) with wait := .none }
  | _ => f

theorem State.fid_answeredCall (s : State) (id : FibId) (f : Fibre) : (s.answeredCall id f).fid = f.fid := by
  unfold State.answeredCall
  split
  · exact f.fid_apply _
  · rfl

/-- The answers of the device supervisor. -/
theorem State.serviceValue_spec (s : State) (asid : Nat) (imm : Word) : (imm = 0 → s.serviceValue asid imm = 0) ∧
    (∀ d, imm = 1 → s.asid asid = some d → (s.serviceValue asid imm).toNat = min d.free.length 0xFFFFFFFF) ∧ (imm ≠ 0 → imm ≠ 1 → s.serviceValue asid imm = 0xFFFFFFFF) := by
  unfold State.serviceValue
  refine ⟨fun h => if_pos h, fun d h hd => ?_, fun h0 h1 => ?_⟩
  · have h0 : imm ≠ 0 := fun e => absurd (h.symm.trans e) (by decide)
    rw [if_neg h0, if_pos h, hd]
    exact Nat.mod_eq_of_lt (by omega)
  · rw [if_neg h0, if_neg h1]
    rfl

theorem exec_serviceCallReply {s : State} (hs : s.supervised = true) : ∃ t, exec .serviceCallReply s = .next t ∧ t.bare = s.bare ∧ ∀ id f, s.fib id = some f →
    (∀ imm, f.wait = .supervisor imm → ∃ x : Word, t.fib id = some { f.apply (.v 0 x) with wait := .none } ∧ (imm = 0 → x = 0) ∧
      (∀ d, imm = 1 → s.asid (s.asidOf id.launch) = some d → x.toNat = min d.free.length 0xFFFFFFFF) ∧ (imm ≠ 0 → imm ≠ 1 → x = 0xFFFFFFFF)) ∧
    ((∀ imm, f.wait ≠ .supervisor imm) → t.fib id = some f) := by
  have hexec : exec .serviceCallReply s = .next (s.mapFibres s.answeredCall) := congrArg Host.Outcome.next (if_neg (by simp [hs]))
  refine ⟨_, hexec, bare_mapFibres .., fun id f hf => ?_⟩
  rw [State.fib_mapFibres s _ s.fid_answeredCall, hf, Option.map_some]
  refine ⟨fun imm hw => ⟨s.serviceValue (s.asidOf id.launch) imm, ?_, s.serviceValue_spec _ imm⟩, fun h => ?_⟩
  · rw [State.answeredCall, hw]
  · unfold State.answeredCall
    split
    next imm hw => exact absurd hw (h imm)
    · rfl

/-! ## Engines that serve their queues, where no command waits for a release (R237, R268) -/

/-- No command waits for a release. -/
def Unmarked (cs : List Command) : Prop := ∀ d ∈ cs, d.mark = none

/-- From s to t commands have started or left: no other command has come, and none waits for a release. -/
def Served (s t : State) : Prop :=
  ∃ cs a co, t = { s with cmds := cs, agenda := a, cores := co } ∧ (Unmarked s.cmds → Unmarked cs) ∧ ∀ d ∈ cs, ∃ c ∈ s.cmds, c.id = d.id

theorem Served.refl (s : State) : Served s s := ⟨s.cmds, s.agenda, s.cores, rfl, id, fun d hd => ⟨d, hd, rfl⟩⟩

theorem Served.trans {s t u : State} (h : Served s t) (h' : Served t u) : Served s u := by
  obtain ⟨_, _, _, rfl, hm, hids⟩ := h
  obtain ⟨cs, a, co, rfl, hm', hids'⟩ := h'
  refine ⟨cs, a, co, rfl, fun hs => hm' (hm hs), fun d hd => ?_⟩
  obtain ⟨c, hc, he⟩ := hids' d hd
  obtain ⟨b, hb, he'⟩ := hids c hc
  exact ⟨b, hb, he'.trans he⟩

theorem Served.unmarked {s t : State} (h : Served s t) (hs : Unmarked s.cmds) : Unmarked t.cmds := by
  obtain ⟨_, _, _, rfl, hm, _⟩ := h
  exact hm hs

theorem served_filter (s : State) (p : Command → Bool) : Served s { s with cmds := s.cmds.filter p } :=
  ⟨_, s.agenda, s.cores, rfl, fun hs d hd => hs d (List.mem_filter.mp hd).1, fun d hd => ⟨d, (List.mem_filter.mp hd).1, rfl⟩⟩

theorem served_modCore (s : State) (n : Nat) (f : Core → Core) : Served s (s.modCore n f) := ⟨s.cmds, s.agenda, _, rfl, id, fun d hd => ⟨d, hd, rfl⟩⟩

theorem served_poke (s : State) (ns id : Nat) : Served s (s.poke ns id) := by
  obtain ⟨a, he⟩ := s.poke_spec ns id
  exact ⟨s.cmds, a, s.cores, he, fun h => h, fun d hd => ⟨d, hd, rfl⟩⟩

theorem served_startCmd (s : State) (id : Nat) : Served s (s.startCmd id) := by
  refine .trans ⟨_, s.agenda, s.cores, rfl, fun hs d hd => ?_, fun d hd => ?_⟩ (served_poke ..)
  · obtain ⟨c, hc, rfl⟩ := List.mem_map.mp hd
    split
    · rfl
    · exact hs c hc
  · obtain ⟨c, hc, rfl⟩ := List.mem_map.mp hd
    exact ⟨c, hc, by split <;> rfl⟩

/-- A command that waits for no release starts at once. -/
theorem served_startReleased (s : State) {c : Command} (hc : c.mark = none) : Served s (s.startReleased c) := by
  unfold State.startReleased
  rw [hc]
  exact served_startCmd ..

theorem served_over {s : State} (hs : Unmarked s.cmds) {α : Type} (xs : List α) {F : State → α → State} (hF : ∀ u x, Unmarked u.cmds → Served u (F u x)) : Served s (s.over xs F) := by
  induction xs generalizing s with
  | nil => exact .refl s
  | cons x xs ih => exact (hF s x hs).trans (ih ((hF s x hs).unmarked hs))

theorem unmarked_queueOf {s : State} (hs : Unmarked s.cmds) (e : Eng) (q : Nat) : Unmarked (s.queueOf e q) := fun d hd => hs d (List.mem_filter.mp hd).1

theorem served_serveCopy {s : State} (hs : Unmarked s.cmds) (e : Eng) (q : Nat) : Served s (s.serveCopy e q) := by
  have hjoins : Served s (s.dropJoins e q) := served_filter ..
  unfold State.serveCopy
  dsimp only
  split
  next c cs hq =>
    have hc : c.mark = none := unmarked_queueOf (hjoins.unmarked hs) e q c (hq ▸ List.mem_cons_self)
    split
    · exact hjoins.trans (served_startReleased _ hc)
    · exact hjoins
  · exact hjoins

theorem served_servePortGo (e : Eng) (q : Nat) {cs : List Command} (hcs : Unmarked cs) (hold : Bool) (s : State) : Served s (State.servePortGo e q hold cs s) := by
  induction cs generalizing hold s with
  | nil => exact .refl s
  | cons c cs ih =>
    have hrest : Unmarked cs := fun d hd => hcs d (List.mem_cons_of_mem _ hd)
    unfold State.servePortGo
    dsimp only
    split
    · split
      · exact (served_filter ..).trans (ih hrest ..)
      · exact .refl s
    · refine .trans ?_ (ih hrest ..)
      split
      · exact served_startReleased _ (hcs c List.mem_cons_self)
      · exact .refl s

theorem served_serveMangle {s : State} (hs : Unmarked s.cmds) (core : Nat) : Served s (s.serveMangle core) := by
  have hjoins : Served s (s.over (List.range 4) (fun s q => s.dropJoins (.mangle core) q)) := served_over hs _ (fun u q _ => served_filter u _)
  unfold State.serveMangle
  dsimp only
  split
  · exact hjoins
  · split
    · exact hjoins
    next c hfind =>
      obtain ⟨q, -, hq⟩ := List.exists_of_findSome?_eq_some hfind
      split at hq
      next d ds hd =>
        obtain rfl : d = c := by
          split at hq
          · cases hq
          · exact Option.some.inj hq
        have hmem := (List.mem_filter.mp (List.mem_filter.mp (hd ▸ List.mem_cons_self : d ∈ _)).1).1
        exact hjoins.trans ((served_modCore ..).trans (served_startReleased _ (hjoins.unmarked hs d hmem)))
      · cases hq

theorem served_serve {s : State} (hs : Unmarked s.cmds) (e : Eng) : Served s (s.serve e) := by
  unfold State.serve
  split
  · exact served_serveMangle hs _
  · exact served_over hs _ (fun u q hu => served_serveCopy hu _ q)
  · exact served_over hs _ (fun u q hu => served_servePortGo _ q (unmarked_queueOf hu _ q) false u)

/-! ## A finished command (R157, R239) -/

theorem fib_modWg (s : State) (l w : Nat) (f : Wg → Wg) (hl : ∀ g, (f g).launch = g.launch) (hw : ∀ g, (f g).wgid = g.wgid) (hf : ∀ g, (f g).fibres = g.fibres) (id : FibId) :
    (s.modWg l w f).fib id = s.fib id := by
  unfold State.fib
  by_cases h : id.launch = l ∧ id.wgid = w
  · obtain ⟨rfl, rfl⟩ := h
    rw [wg_modWg_same _ _ _ f hl hw]
    cases s.wg id.launch id.wgid with
    | none => rfl
    | some g => simp [Wg.fib, hf]
  · rw [wg_modWg_other _ _ _ _ _ f hl hw (by tauto)]

theorem fib_modG (s : State) (l w n : Nat) (f : GReg → GReg) (id : FibId) : (s.modG l w n f).fib id = s.fib id :=
  fib_modWg s l w (fun g => { g with g := g.g.set n (f (g.g.getD n ⟨0, false, none, false⟩)) }) (fun _ => rfl) (fun _ => rfl) (fun _ => rfl) id

theorem fib_completeToken {s : State} {l w g : Nat} (h : tokenThere s l w g) (scope : Nat) (err : Bool) (code : BitVec 8) (count : Nat) (bad : Bool) (id : FibId) :
    (s.completeToken l w g scope err code count bad).fib id = (s.fib id).map (fun f => if id.launch = l ∧ id.wgid = w ∧ f.wait = .token g then { f with wait := .none } else f) := by
  obtain ⟨x, hx, -⟩ := h
  unfold State.completeToken
  rw [hx]
  dsimp only
  rw [State.fib_mapFibres _ _ (fun j y => by split <;> rfl), State.fib_of_wgs (State.wakeGang_wgs ..), fib_modG]
  have hacq : (if x.placed = true then s.acquireAt x.core scope else s).wgs = s.wgs := by
    split
    · exact s.acquireAt_wgs ..
    · rfl
  rw [State.fib_of_wgs hacq]

/-- A command that is no DPOST leaves its queue, where no command waits for a release: no byte of memory changes, it is there no more, and of the fibres those that wait for a queue go on. -/
theorem dropCmd_spec {s : State} {c : Command} (hk : c.kind ≠ .dpost) (hm : Unmarked s.cmds) :
    (s.dropCmd c).mem = s.mem ∧ (s.dropCmd c).cmd c.id = none ∧ (s.dropCmd c).wgs = (s.endWaits (fun w => w == .queue)).wgs := by
  obtain ⟨a, q, ts, hs, he⟩ := requeued_abandonCmd s c.id
  let u : State := State.endWaits { s with agenda := a, txq := q, txs := ts, htxs := hs, cmds := s.cmds.filter (fun x => x.id != c.id) } (fun w => w == .queue)
  have hdrop : s.dropCmd c = u.serve c.eng := by
    unfold State.dropCmd
    rw [he]
    simp only [hk, if_false]
    rfl
  have hu : Unmarked u.cmds := fun d hd => hm d (List.mem_filter.mp hd).1
  obtain ⟨cs, ag, co, hserve, -, hids⟩ := served_serve hu c.eng
  rw [hdrop, hserve]
  refine ⟨rfl, List.find?_eq_none.mpr (fun d hd => ?_), rfl⟩
  obtain ⟨x, hx, hxd⟩ := hids d hd
  have := (List.mem_filter.mp hx).2
  simpa [hxd] using this

theorem cmd_id {s : State} {n : Nat} {c : Command} (h : s.cmd n = some c) : c.id = n := by simpa using List.find?_some h

theorem exec_tokenCompletion_finished {s : State} {n : Nat} {c : Command} (hc : s.cmd n = some c) (hs : s.cmdStopped c = false) (hf : c.st = .finished) (hk : c.kind ≠ .dpost)
    (hm : ∀ d ∈ s.cmds, d.mark = none) (ht : tokenThere s c.launch c.wgid c.g) :
    ∃ t, exec (.tokenCompletion n) s = .next t ∧ t.cmd n = none ∧ t.mem = s.mem ∧
      t.greg c.launch c.wgid c.g = ⟨tokenValue c.err c.code.toNat c.count, false, none, c.kind == .mma && c.code == 1⟩ ∧
      ∀ id f, s.fib id = some f → id.launch = c.launch → id.wgid = c.wgid → f.wait = .token c.g → t.fib id = some { f with wait := .none } := by
  let u : State := s.completeToken c.launch c.wgid c.g c.scope c.err c.code c.count (c.kind == .mma && c.code == 1)
  obtain ⟨ws, gs, cs, hu⟩ : Woken s u := woken_completeToken ..
  have hexec : exec (.tokenCompletion n) s = .next (u.dropCmd c) := by
    show execTokenCompletion n s = _
    unfold execTokenCompletion
    rw [hc]
    simp only [hs, hf, State.closeWith, beq_eq_false_iff_ne.mpr hk, Bool.false_and, Bool.false_eq_true, if_false]
    rfl
  have hcmds : u.cmds = s.cmds := by rw [hu]
  obtain ⟨hmem, hgone, hwgs⟩ := dropCmd_spec (s := u) hk (hcmds ▸ hm)
  refine ⟨_, hexec, cmd_id hc ▸ hgone, hmem.trans (by rw [hu]), ?_, fun id f hid hl hw hwait => ?_⟩
  · rw [State.greg_of_wgs hwgs, State.endWaits, greg_of_bare (bare_mapFibres ..), State.completeToken_greg ht]
    rfl
  · rw [State.fib_of_wgs hwgs, State.endWaits, State.fib_mapFibres _ _ (fun j y => by split <;> rfl), fib_completeToken ht, hid]
    simp [hl, hw, hwait]

/-- Settles O36: each event by its own rule, the covered results by the recursion that takes them up. -/
theorem fibreEvents : Obligations.fibre_events :=
  ⟨⟨fun _ _ _ _ _ => exec_resultWriteback, fun _ _ _ => exec_releaseComplete_unacked, fun _ _ _ _ => exec_releaseComplete_capture, exec_sleepExpiry, fun _ => exec_serviceCallReply⟩,
    fun _ _ _ => exec_tokenCompletion_finished, Fibre.settle_spec⟩

end Sys2Proof.Machine
end

section
/-! PROOFS. Engine instructions at issue: block, checks, queue and token (R156, R158, R383 to R391); QFENCE (R370). -/

namespace Sys2Proof.Machine

open Claims

/-! ## The instructions (R384 to R391) -/

theorem exec_engine {s : State} {i : Instr} {F : CmdForm} {c : BitVec 4} {x : BitVec 6} (h : commandForm s i = some (F, c, x)) : exec i s = s.engineInstr i F c x := by
  unfold commandForm at h
  split at h
  case h_12 => cases h
  all_goals
    cases h
    rfl

/-! ## The block (R269) -/

theorem readBlock_local {u : State} {id : FibId} {k : Cap} {off : Nat} (hh : u.hurts = []) (hk : k.kind = 2) (hp : permits k [0, 2] [7] off 64 64) :
    u.readBlock id k off = (u, .ok (Block.of ((u.scratch id.launch (u.window id k.obj.toNat (objOff k off)).1).read (u.window id k.obj.toNat (objOff k off)).2 64)
      ((List.range 4).map (fun j => (u.scratch id.launch (u.window id k.obj.toNat (objOff k off)).1).tag ((u.window id k.obj.toNat (objOff k off)).2 + 16 * j))) false)) := by
  have hc : capCheck k kData [rR] off 64 64 = none := capCheck_of_permits hp
  have hk : k.kind = 2#4 := hk
  unfold State.readBlock
  simp only [hc, hk, if_true, State.localHurt_nil hh]

section
variable {s : State} {i : Instr} {f : Fibre} (h : s.alone i f = true)
include h

/-- The block that the instruction of one fibre reads from a scratchpad. -/
theorem readBlock_alone {k : Cap} {off : Nat} (hh : intact s) (hk : k.kind = 2) (hp : permits k [0, 2] [7] off 64 64) :
    s.gone.readBlock (me s f) k off = (s.gone, .ok (localBlock s (localPlace s f k off))) := by
  have hg : s.gone.hurts = [] := (bare_field (·.hurts) (fun _ => rfl) (alone_gone h)).trans hh
  rw [readBlock_local hg hk hp, window_of_bare (alone_gone h), scratch_of_bare (alone_gone h)]
  rfl

/-- An engine instruction of one fibre, its block read. -/
theorem engineInstr_alone {F : CmdForm} {c : BitVec 4} {x : BitVec 6} {L : Launch} (hL : s.launch s.cur.launch = some L) {b : Block}
    (hb : s.gone.readBlock (me s f) (f.cap c.toNat) (f.reg x.toNat).toNat = (s.gone, .ok b)) :
    s.engineInstr i F c x = .next (s.gone.issueCmd [f.fid] (me s f) F L (f.cap c.toNat) b (f.reg x.toNat).toNat) := by
  have hlaunch : s.gone.curLaunch = some L := by
    rw [State.curLaunch, launch_of_bare (alone_gone h), cur_of_bare (alone_gone h), hL]
  have huni : s.gone.uniform [f.fid] (fun f => (f.cap c.toNat, f.reg x.toNat)) = (s.gone, true) := by
    unfold State.uniform
    rw [alone_curFibs h]
    rfl
  rw [State.engineInstr, issue_alone h]
  refine congrArg _ ?_
  have hid : s.gone.curId (f.passes s).fid = me s f := (alone_curId h :)
  simp only [huni, alone_curFibs h, hlaunch, hid, cap_passes, reg_passes, hb]
  rfl

theorem stopAll_alone (off : Int) (tag : BitVec 12) :
    s.gone.stopAll [f.fid] off (.eff tag none) = s.gone.raise (me s f) (Eff.fault tag (low32 off) s.cur.first none) := by
  rw [State.stopAll, alone_each h]
  show s.gone.effAtW (me s f) tag (low32 off) none .none = _
  rw [State.effAtW_raise (alone_inChain h), cur_of_bare (alone_gone h)]
  rfl

end

/-! ## Issue (R383) -/

section
variable {u v : State} {exe : List Nat} {id : FibId} {F : CmdForm} {L : Launch} {c : Cap} {b : Block} {off : Nat}

theorem issueCmd_illegal (hb : b.lost = false) (hl : F.legal u L b = false) : u.issueCmd exe id F L c b off = u.stopAll exe 0 (.eff 0x0E7#12 none) := by
  unfold State.issueCmd
  simp only [hb, hl, Bool.not_false, Bool.and_self, if_true]

theorem issueCmd_limited (hb : b.lost = false) (hl : F.legal u L b = true) (hf : (F.limited && u.limitedOnly) = true) :
    u.issueCmd exe id F L c b off = u.completeToken id.launch id.wgid F.g F.scope true 0x3B#8 0 false := by
  unfold State.issueCmd
  simp only [hb, hl, hf, Bool.not_true, Bool.and_false, Bool.false_eq_true, if_false, if_true]

/-- A queue holds no more commands than there are for it. -/
theorem length_queueOf_le (s : State) (e : Eng) (q : Nat) :
    ((s.queueOf e q).filter (fun c => c.kind != .join)).length ≤ (s.cmds.filter (fun d => d.eng == e && d.q == q && d.kind != .join)).length := by
  unfold State.queueOf
  rw [List.filter_filter]
  refine (List.monotone_filter_right s.cmds (fun d hd => ?_)).length_le
  unfold State.inQueue at hd
  simp only [Bool.and_eq_true] at hd ⊢
  obtain ⟨hj, ⟨he, -⟩, hq⟩ := hd
  exact ⟨⟨he, hq⟩, hj⟩

/-- What is reported of a block that is not lost. -/
theorem logBlock_sound (hb : b.lost = false) (code : BitVec 8) :
    v.logBlock id c off b (F.kind == .dpost && code == 0x13#8) = if F.kind = .dpost ∧ code = 0x13 then v.logScratch (v.asidOf id.launch) (v.coreOf id) else v := by
  unfold State.logBlock
  simp only [hb, Bool.not_false, if_true, Bool.and_eq_true, beq_iff_eq]
  rfl

/-- With room in the queue, no close token pending and the release begun, the command is queued or refused by its code. -/
theorem issueCmd_checked {code : BitVec 8} (hb : b.lost = false) (hl : F.legal u L b = true) (hf : (F.limited && u.limitedOnly) = false) (hcode : F.check u id L b = code)
    (hroom : F.namesQueue b = true → ((u.queueOf (F.eng b) F.q).filter (fun c => c.kind != .join)).length < 32)
    (hclose : ∀ n, F.close b = some n → code ≠ 0x36 → (u.greg id.launch id.wgid n).pending = false) {mark : Option Nat} (hr : releaseMark u id F.rel F.scope = (v, .ok mark)) :
    u.issueCmd exe id F L c b off =
      if code = 0 then v.enqueue id F L b mark
      else (if F.kind = .dpost ∧ code = 0x13 then v.logScratch (v.asidOf id.launch) (v.coreOf id) else v).refuse id F b code := by
  have hfull : (F.namesQueue b && decide (32 ≤ ((u.queueOf (F.eng b) F.q).filter (fun c => c.kind != .join)).length)) = false := by
    cases hn : F.namesQueue b with
    | false => rfl
    | true => simpa using hroom hn
  unfold releaseMark at hr
  unfold State.issueCmd
  simp only [hb, hl, hf, hcode, hfull, Bool.not_true, Bool.and_false, Bool.false_eq_true, if_false, Bool.false_or, hr]
  refine (if_neg ?_).trans ?_
  · cases hcl : F.close b with
    | none => simp
    | some k =>
      by_cases h36 : code = 0x36#8
      · simp [h36]
      · simp [hclose k hcl h36]
  · rw [logBlock_sound hb]

end

/-! ## A command in its queue (R156, R158, R383) -/

theorem greg_modG_other {s : State} {l w n m : Nat} (h : m ≠ n) (f : GReg → GReg) : (s.modG l w n f).greg l w m = s.greg l w m := by
  have hwg : (s.modG l w n f).wg l w = (s.wg l w).map (fun g => { g with g := g.g.set n (f (g.g.getD n ⟨0, false, none, false⟩)) }) :=
    wg_modWg_same s l w (fun g => { g with g := g.g.set n (f (g.g.getD n ⟨0, false, none, false⟩)) }) (fun _ => rfl) (fun _ => rfl)
  unfold State.greg
  rw [hwg]
  cases s.wg l w with
  | none => rfl
  | some x => simp [List.getElem?_set_ne (Ne.symm h)]

theorem pend_pending {s : State} {l w n : Nat} (h : tokenThere s l w n) : ((s.pend l w n).greg l w n).pending = true := by
  rw [State.pend, State.greg_modG h]

/-- The close token that a command names is marked pending. -/
def State.pendClose (s : State) (id : FibId) : Option Nat → State
  | none => s
  | some k => s.pend id.launch id.wgid k

theorem pendClose_spec (s : State) (id : FibId) (o : Option Nat) : ∃ ws, s.pendClose id o = { s with wgs := ws } := by
  cases o with
  | none => exact ⟨s.wgs, rfl⟩
  | some k => exact ⟨_, rfl⟩

theorem greg_pendClose (s : State) {id : FibId} {o : Option Nat} {n : Nat} (h : o ≠ some n) : (s.pendClose id o).greg id.launch id.wgid n = s.greg id.launch id.wgid n := by
  cases o with
  | none => rfl
  | some k => exact greg_modG_other (fun e => h (congrArg some e.symm)) _

/-- The state in which a command's engine is served next: its tokens pending, the command last. -/
theorem enqueue_spec {s : State} {id : FibId} {F : CmdForm} (L : Launch) {b : Block} (mark : Option Nat) (ht : tokenThere s id.launch id.wgid F.g) (hc : F.close b ≠ some F.g) :
    ∃ (u : State) (d : Command), s.enqueue id F L b mark = u.serve (F.eng b) ∧ u.cmds = s.cmds ++ [d] ∧ d.id = s.fresh ∧ d.eng = F.eng b ∧ d.q = F.q ∧ d.kind = F.kind ∧ d.g = F.g ∧ d.st = .queued ∧
      d.blk = b.bytes ∧ d.scope = F.scope ∧ d.mark = mark ∧ (u.greg id.launch id.wgid F.g).pending = true ∧ u.mem = s.mem := by
  let v : State := (s.pend id.launch id.wgid F.g).stamp.pendClose id (F.close b)
  obtain ⟨ws, hv⟩ : ∃ ws, v = { (s.pend id.launch id.wgid F.g).stamp with wgs := ws } := pendClose_spec ..
  have hpend : (v.greg id.launch id.wgid F.g).pending = true := by
    rw [greg_pendClose _ hc]
    exact pend_pending ht
  have hcmds : v.cmds = s.cmds := by rw [hv]; rfl
  have hmem : v.mem = s.mem := by rw [hv]; rfl
  obtain ⟨a, d, he, hid, heng, hq, hkind, hg, hst, hblk, hscope, hmark⟩ : ∃ (a : List Timed) (d : Command),
      s.enqueue id F L b mark = State.serve { v with agenda := a, cmds := v.cmds ++ [d] } (F.eng b) ∧
        d.id = s.fresh ∧ d.eng = F.eng b ∧ d.q = F.q ∧ d.kind = F.kind ∧ d.g = F.g ∧ d.st = .queued ∧ d.blk = b.bytes ∧ d.scope = F.scope ∧ d.mark = mark := by
    unfold State.enqueue
    dsimp only
    split
    · exact ⟨_, _, rfl, rfl, rfl, rfl, rfl, rfl, rfl, rfl, rfl, rfl⟩
    · exact ⟨v.agenda, _, rfl, rfl, rfl, rfl, rfl, rfl, rfl, rfl, rfl, rfl⟩
  refine ⟨{ v with agenda := a, cmds := v.cmds ++ [d] }, d, he, congrArg (· ++ [d]) hcmds, hid, heng, hq, hkind, hg, hst, hblk, hscope, hmark, ?_, hmem⟩
  rwa [State.greg_of_wgs (t := { v with agenda := a, cmds := v.cmds ++ [d] }) rfl]

/-! ## QFENCE (R370) -/

theorem fenceEng_eq (core : Nat) : ∀ d, fenceEng core d = namedEngine core d
  | 0 | 1 | 2 | 3 | 4 | 5 | 6 | 7 => rfl
  | n + 8 => by
    unfold fenceEng
    rw [if_neg (by omega), if_neg (by omega), if_neg (by omega)]
    rfl

theorem cmdRuns_of_bare {s u : State} (h : u.bare = s.bare) (c : Command) : u.cmdRuns c = s.cmdRuns c := by
  have heq (v : State) : v.cmdRuns c = match v.launch c.launch with
      | none => false
      | some L => ((v.wg c.launch c.wgid).map (fun g => g.placed && (match v.gang c.launch (L.gangOf c.wgid) with
        | none => false
        | some x => x.st.live))).getD false := by
    unfold State.cmdRuns
    cases v.launch c.launch <;> cases v.wg c.launch c.wgid <;> rfl
  have hgang (l k : Nat) : u.gang l k = s.gang l k := bare_field (·.gang l k) (fun _ => rfl) h
  rw [heq u, heq s, launch_of_bare h]
  cases s.launch c.launch with
  | none => rfl
  | some L =>
    dsimp only
    rw [hgang]
    exact wg_elim_of_bare h _ _ _ _ (fun _ => rfl)

theorem alone_others {s : State} {i : Instr} {f : Fibre} (h : s.alone i f = true) {j : FibId} (hj : j ≠ me s f) : s.gone.fib j = s.fib j := by
  obtain ⟨hlone, hfids, _, _⟩ := alone_lone h
  refine (gone_change hlone).2.1 j (fun ⟨hl, hw, hf⟩ => hj ?_)
  rw [hfids, List.mem_singleton] at hf
  cases j
  simp only at hl hw hf
  subst hl hw hf
  rfl

/-- The join that a QFENCE places in a queue. -/
def State.joinFor (s : State) (id : FibId) (e : Eng) (deps : List Nat) (q : Nat) : Command :=
  { id := s.fresh, eng := e, q := q, kind := .join, launch := id.launch, wgid := id.wgid, g := 0, asid := s.asidOf id.launch,
    core := s.coreOf id, scope := 0, blk := [], caps := [], st := .queued, prog := 0, sent := 0, acked := 0, cuts := [], code := 0,
    err := false, count := 0, deps := deps, exps := [], phase := 0, buf := [], todo := [], win := [], fault := 0, mark := none }

theorem joins_placed (s : State) (id : FibId) (e : Eng) (deps : List Nat) (qs : List Nat) : ∃ (n : Nat) (joins : List Command),
    s.over qs (fun s q => { s.stamp with cmds := s.cmds ++ [s.joinFor id e deps q] }) = { s with fresh := n, cmds := s.cmds ++ joins } ∧
      joins.map (fun j => (j.kind, j.eng, j.q, j.deps)) = qs.map (fun q => (CmdKind.join, e, q, deps)) := by
  induction qs generalizing s with
  | nil => exact ⟨s.fresh, [], by simp [State.over], rfl⟩
  | cons q qs ih =>
    obtain ⟨n, joins, he, hm⟩ := ih { s.stamp with cmds := s.cmds ++ [s.joinFor id e deps q] }
    refine ⟨n, s.joinFor id e deps q :: joins, ?_, congrArg (List.cons _) hm⟩
    refine he.trans ?_
    simp [State.stamp]

theorem exec_qfence {s : State} {f : Fibre} {e : BitVec 6} {m : BitVec 16} (h : s.alone (.qfence e m) f = true) :
    ∃ (w : State) (joins : List Command), exec (.qfence e m) s = .next (w.serve (namedEngine (myCore s f) e.toNat)) ∧ w.cmds = s.cmds ++ joins ∧
      joins.map (fun j => (j.kind, j.eng, j.q, j.deps)) = ((List.range 16).filter (fun q => m.getLsbD q)).map (fun q => (CmdKind.join, namedEngine (myCore s f) e.toNat, q,
        (s.cmds.filter (fun c => s.inQueue (namedEngine (myCore s f) e.toNat) c && m.getLsbD c.q && decide (c.q < 16) && c.kind != .join)).map (·.id))) ∧
      fibreChange s w (me s f) (f.passes s) ∧ w.mem = s.mem := by
  have hb := alone_gone h
  have hcmds : s.gone.cmds = s.cmds := bare_field (·.cmds) (fun _ => rfl) hb
  have hmem : s.gone.mem = s.mem := bare_field (·.mem) (fun _ => rfl) hb
  have hdeps : s.gone.cmds.filter (fun c => s.gone.inQueue (namedEngine (myCore s f) e.toNat) c && ((List.range 16).filter (fun q => m.getLsbD q)).contains c.q && c.kind != .join) =
      s.cmds.filter (fun c => s.inQueue (namedEngine (myCore s f) e.toNat) c && m.getLsbD c.q && decide (c.q < 16) && c.kind != .join) := by
    rw [hcmds]
    refine List.filter_congr (fun c _ => ?_)
    have hq : s.gone.inQueue (namedEngine (myCore s f) e.toNat) c = s.inQueue (namedEngine (myCore s f) e.toNat) c := by
      unfold State.inQueue
      rw [cmdRuns_of_bare hb]
    have hc : ((List.range 16).filter (fun q => m.getLsbD q)).contains c.q = (m.getLsbD c.q && decide (c.q < 16)) := by
      rw [Bool.eq_iff_iff]
      simp [and_comm]
    rw [hq, hc]
    simp only [Bool.and_assoc]
  obtain ⟨n, joins, he, hm⟩ := joins_placed s.gone (me s f) (namedEngine (myCore s f) e.toNat)
    ((s.cmds.filter (fun c => s.inQueue (namedEngine (myCore s f) e.toNat) c && m.getLsbD c.q && decide (c.q < 16) && c.kind != .join)).map (·.id)) ((List.range 16).filter (fun q => m.getLsbD q))
  refine ⟨{ s.gone with fresh := n, cmds := s.gone.cmds ++ joins }, joins, ?_, congrArg (· ++ joins) hcmds, hm, ⟨alone_fib h, fun j hj => ?_⟩, hmem⟩
  · rw [show exec (.qfence e m) s = s.issue (.qfence e m) _ from rfl, issue_alone h]
    refine congrArg _ ?_
    have hid : s.gone.curId (f.passes s).fid = me s f := (alone_curId h :)
    simp only [alone_curFibs h, hid, alone_coreOf h, fenceEng_eq]
    unfold State.fence
    rw [hdeps]
    exact congrArg (fun w => State.serve w _) he
  · exact alone_others h hj

/-- Settles O34: the issue of a command by the checks in their order, its entry into the queue, and the joins of a QFENCE. -/
theorem engineCommands : Obligations.engine_commands := by
  refine ⟨⟨fun s v i f F c x L hform h hh hL => ?_, fun s id F L b mark => enqueue_spec L mark⟩, fun s f e m => exec_qfence⟩
  intro k off b code hk hp
  have hexec : exec i s = .next (s.gone.issueCmd [f.fid] (me s f) F L k b off) :=
    (exec_engine hform).trans (engineInstr_alone h hL (readBlock_alone h hh hk hp))
  have hlost : b.lost = false := rfl
  have hlim : s.gone.limitedOnly = s.limitedOnly := bare_field (·.limitedOnly) (fun _ => rfl) (alone_gone h)
  have hcmds : s.gone.cmds = s.cmds := bare_field (·.cmds) (fun _ => rfl) (alone_gone h)
  refine ⟨fun hl => ?_, fun hl => ⟨fun hF hs => ?_, fun hF hclose mark hr hroom => ?_⟩⟩
  · rw [hexec, issueCmd_illegal hlost hl, stopAll_alone h]
    rfl
  · rw [hexec, issueCmd_limited hlost hl (by rw [hlim, hF, hs]; rfl)]
    rfl
  · have hnames : F.namesQueue b = true → ((s.gone.queueOf (F.eng b) F.q).filter (fun c => c.kind != .join)).length < 32 := by
      intro hn
      refine Nat.lt_of_le_of_lt (length_queueOf_le ..) ?_
      rw [hcmds]
      refine hroom (fun hcopy => ?_)
      unfold CmdForm.namesQueue at hn
      rcases hcopy with hc | hc <;> simpa [hc, hlost] using hn
    have hissue := issueCmd_checked (exe := [f.fid]) (c := k) (off := off) hlost hl (by rwa [hlim]) rfl hnames
      (fun n hn h36 => by rw [greg_of_bare (alone_gone h)]; exact hclose n hn h36) hr
    rw [hexec, hissue]
    exact ⟨fun h0 => congrArg _ (if_pos h0), fun h0 => congrArg _ (if_neg h0)⟩

end Sys2Proof.Machine
end

section
/-! PROOFS. A step that issues: the one awake fibre of a quarter, alone in its bundle, with a slot alone in its chain (R161, R162, R165, R180, R283 to R285). -/

namespace Sys2Proof.Machine

open Claims

/-! ## The next quarter to be served -/

/-- The next visit is to a launch's workgroup, at a quarter in which a fibre is awake. -/
theorem nextVisit_awake {s : State} {L : Launch} {g : Wg} {q : Nat} (h : s.nextVisit = some (L, g, q)) :
    s.launch g.launch = some L ∧ q < 4 ∧ g.fibres.any (fun f => quarterOf f.fid == q && f.awake s.clock.toNat) = true := by
  let Awake (x : Launch × Wg × Nat) : Prop := s.launch x.2.1.launch = some x.1 ∧ x.2.2 < 4 ∧ x.2.1.fibres.any (fun f => quarterOf f.fid == x.2.2 && f.awake s.clock.toNat) = true
  have hfold : ∀ x, s.nextVisit = some x → Awake x := by
    unfold State.nextVisit
    refine List.foldlRecOn s.wgs _ (motive := fun b => ∀ x, b = some x → Awake x) (fun x hx => by cases hx) (fun b hb g _ => ?_)
    split
    · exact hb
    next L hL =>
      split
      · exact hb
      · split
        · exact hb
        next q hq =>
          have hnew : Awake (L, g, q) := by
            have hw := List.find?_some hq
            simp only [Bool.and_eq_true] at hw
            exact ⟨hL, List.mem_range.mp (List.mem_of_find?_eq_some hq), hw.2⟩
          split
          · intro x hx
            cases hx
            exact hnew
          · split
            · intro x hx
              cases hx
              exact hnew
            · exact hb
  exact hfold _ h

theorem launch_id {s : State} {l : Nat} {L : Launch} (h : s.launch l = some L) : L.id = l := by
  simpa using List.find?_some h

/-! ## Fetch and decode -/

section
variable {c : Core} {asid : Nat} {f : Fibre} {bs : List Byte}

theorem fetch_packet (h4 : f.pc.toNat % 4 = 0) (h16 : 4 ≤ f.pc.toNat % 16) (hr : fetchRefusal f.code (packetAt f.pc) = none)
    (hp : c.packet asid f.code.obj.toNat (packetAt f.pc) = some bs) (hlen : bs.length = 16) (he : (packetOf bs).isExt (slotAt f.pc) = false) :
    c.fetch asid f = .packet (packetOf bs) := by
  have hslot : slotAt f.pc ≠ 0 := by
    unfold slotAt
    rw [if_pos h4]
    omega
  unfold Core.fetch
  rw [if_neg hslot, fetchTag_eq, hr]
  dsimp only
  rw [hp]
  simp [hlen, he]

theorem skipEmpty_full {p : CodePacket} (hf : c.fetch asid f = .packet p) (he : p.isEmpty (slotAt f.pc) = false) (n : Nat) : c.skipEmpty asid n f = f := by
  cases n with
  | zero => rfl
  | succ n =>
    unfold Core.skipEmpty
    rw [hf]
    simp [he]

end

theorem slotsOf_one {p : CodePacket} {k : Nat} {i : Instr} (h : p.decode k = .ok i) : slotsOf p [k] = some [(i, BitVec.ofNat 8 (p.ctlByte k))] := by
  simp [slotsOf, h]

theorem unblocked_of_bare {s u : State} (h : u.bare = s.bare) (L : Launch) (w : Nat) (f : Fibre) (sl : List (Instr × BitVec 8)) : u.unblocked L w f sl = s.unblocked L w f sl := by
  have hclock : u.clock = s.clock := bare_field (·.clock) (fun _ => rfl) h
  unfold State.unblocked
  simp only [greg_of_bare h, hclock]

/-! ## Before the choice -/

/-- A quarter without fibres has nothing to prepare. -/
theorem prepare_none (s : State) (L : Launch) {g : Wg} {f : Fibre} (hg : g.fibres = [f]) {x : Nat} (hx : quarterOf f.fid ≠ x) : prepare s L g x = s := by
  unfold prepare
  rw [hg, List.filter_cons_of_neg (by simp [hx])]
  rfl

section
variable {s : State} {L : Launch} {g : Wg} {q : Nat} {f : Fibre} {p : CodePacket} {sl : List (Instr × BitVec 8)}

/-- The one fibre of a quarter, with its packet at hand and nothing in its way, stays as it is. -/
theorem prepare_only (hg : g.fibres = [f]) (hq : quarterOf f.fid = q) (hawake : f.awake s.clock.toNat = true) (hfetch : (s.core g.core).fetch L.asid f = .packet p)
    (he : p.isEmpty (slotAt f.pc) = false) (hi : p.illegal = false) (hs : slotsOf p (chainOf p (slotAt f.pc)) = some sl) (hu : s.unblocked L g.wgid f.settle sl = true) :
    prepare s L g q = s.modFib ⟨L.id, g.wgid, f.fid⟩ (fun x => { x with pc := f.pc }) := by
  have hfilter : g.fibres.filter (fun f => quarterOf f.fid == q && f.awake s.clock.toNat) = [f] := by
    rw [hg, List.filter_cons_of_pos (by simp [hq, hawake])]
    rfl
  have hun : (s.modFib ⟨L.id, g.wgid, f.fid⟩ (fun x => { x with pc := f.pc })).unblocked L g.wgid f.settle sl = true := by
    rw [unblocked_of_bare (bare_modFib ..), hu]
  unfold prepare
  rw [hfilter]
  simp only [List.foldl_cons, List.foldl_nil, skipEmpty_full hfetch he, hfetch, hs, hi, hun, Bool.or_true, if_true]

/-- The workgroup of a fibre that stands where it stood is as it was. -/
theorem wg_modFib_pc (hL : L.id = g.launch) (hw : s.wg g.launch g.wgid = some g) (hg : g.fibres = [f]) :
    (s.modFib ⟨L.id, g.wgid, f.fid⟩ (fun x => { x with pc := f.pc })).wg g.launch g.wgid = some g := by
  unfold State.modFib
  dsimp only
  rw [hL, wg_modWg_same s g.launch g.wgid (fun y => y.modFib f.fid (fun x => { x with pc := f.pc })) (fun _ => rfl) (fun _ => rfl), hw, Option.map_some]
  congr 1
  cases g
  simp only at hg
  subst hg
  simp [Wg.modFib]

/-- The fibre of a quarter is ready. -/
theorem ready_packet (hawake : f.awake s.clock.toNat = true) (hfetch : (s.core g.core).fetch L.asid f = .packet p) (hi : p.illegal = false)
    (hs : slotsOf p (chainOf p (slotAt f.pc)) = some sl) (hu : s.unblocked L g.wgid f.settle sl = true) :
    s.ready L g.wgid (s.core g.core) f = some ⟨f, some p, (chainOf p (slotAt f.pc)).filterMap (fun k => pipeOf (p.op k))⟩ := by
  unfold Fibre.awake at hawake
  simp only [Bool.and_eq_true, beq_iff_eq, decide_eq_true_eq] at hawake
  obtain ⟨⟨hwait, hcopy⟩, hready⟩ := hawake
  unfold State.ready
  rw [if_neg (by simp [hwait, Option.isNone_iff_eq_none.mp hcopy, hready])]
  simp only [hfetch, hi, hs, hu, Bool.false_eq_true, if_false, if_true]

end

/-- One ready fibre is the bundle. -/
theorem choose_one (r : Ready) : choose [r] = [r] := by
  have hsort : sortOld [r] = [r] := rfl
  unfold choose
  simp only [hsort, List.foldl_nil, ite_self, List.filter_cons, beq_self_eq_true, if_true, List.filter_nil]
  rfl

/-! ## The turn of the quarter -/

/-- One quarter of a workgroup is prepared. -/
def prepareStep (L : Launch) (g : Wg) (s : State) (x : Nat) : State :=
  match s.wg g.launch g.wgid with
  | none => s
  | some g => prepare s L g x

/-- The issue of a quarter that has been prepared. -/
def issuePrepared (ex : Exec) (L : Launch) (g : Wg) (q : Nat) (s : State) : Res :=
  match s.wg g.launch g.wgid with
  | none => .next s
  | some g =>
    if wantsEng (s.bundle L g q) && !s.engServes L g q then .next (ageOthers s L.id g.wgid (s.readyIn L g q) [])
    else issueChosen ex L g q (s.bundle L g q) (ageOthers s L.id g.wgid (s.readyIn L g q) (s.bundle L g q))

theorem visit_eq (ex : Exec) (L : Launch) (g : Wg) (q : Nat) (s : State) :
    visit ex L g q s = issuePrepared ex L g q (((List.range 4).filter (fun x => decide (q ≤ x))).foldl (prepareStep L g) s) := rfl

section
variable {s : State} {L : Launch} {g : Wg} {q : Nat} {f : Fibre}

theorem prepareStep_none (hg : g.fibres = [f]) (hw : s.wg g.launch g.wgid = some g) {x : Nat} (hx : quarterOf f.fid ≠ x) : prepareStep L g s x = s := by
  rw [prepareStep, hw]
  exact prepare_none s L hg hx

theorem foldl_prepareStep_none (hg : g.fibres = [f]) (hw : s.wg g.launch g.wgid = some g) {xs : List Nat} (hx : ∀ x ∈ xs, quarterOf f.fid ≠ x) : xs.foldl (prepareStep L g) s = s := by
  induction xs with
  | nil => rfl
  | cons x xs ih =>
    rw [List.foldl_cons, prepareStep_none hg hw (hx x List.mem_cons_self)]
    exact ih (fun y hy => hx y (List.mem_cons_of_mem _ hy))

/-- Only the quarter of the one fibre has something to prepare. -/
theorem foldl_prepareStep (hg : g.fibres = [f]) (hq : quarterOf f.fid = q) (hq4 : q < 4) (hw : s.wg g.launch g.wgid = some g) (hv : (prepare s L g q).wg g.launch g.wgid = some g) :
    ((List.range 4).filter (fun x => decide (q ≤ x))).foldl (prepareStep L g) s = prepare s L g q := by
  obtain ⟨xs, hxs, hlater⟩ : ∃ xs, (List.range 4).filter (fun x => decide (q ≤ x)) = q :: xs ∧ ∀ x ∈ xs, q < x := by
    interval_cases q
    · exact ⟨[1, 2, 3], by decide, by decide⟩
    · exact ⟨[2, 3], by decide, by decide⟩
    · exact ⟨[3], by decide, by decide⟩
    · exact ⟨[], by decide, by decide⟩
  have hone : prepareStep L g s q = prepare s L g q := by rw [prepareStep, hw]
  rw [hxs, List.foldl_cons, hone]
  exact foldl_prepareStep_none hg hv (fun x hx => hq ▸ Nat.ne_of_lt (hlater x hx))

/-- No ready fibre is left out: none grows older. -/
theorem ageOthers_none (s : State) (l w : Nat) (r : Ready) : ageOthers s l w [r] [r] = s := by
  simp [ageOthers]

/-- One ready fibre whose pipes are free is issued, unless the ENG pipe serves another quarter. -/
theorem issuePrepared_one (ex : Exec) {r : Ready} (hw : s.wg g.launch g.wgid = some g) (hr : s.readyIn L g q = [r]) (hfree : (s.core g.core).pipesFree q s.clock.toNat r.pipes = true)
    (heng : r.pipes.contains .eng = true → s.engServes L g q = true) : issuePrepared ex L g q s = issueChosen ex L g q [r] s := by
  have hb : s.bundle L g q = [r] := by
    unfold State.bundle
    simp only [hr, List.filter_cons, hfree, if_true, List.filter_nil, choose_one]
  have hgo : (wantsEng [r] && !s.engServes L g q) = false := by
    cases hc : r.pipes.contains .eng with
    | false => simp only [wantsEng, List.any_cons, hc, List.any_nil, Bool.or_self, Bool.false_and]
    | true => rw [heng hc, Bool.not_true, Bool.and_false]
  unfold issuePrepared
  rw [hw]
  dsimp only
  rw [hb, hr, hgo, ageOthers_none]
  rfl

/-- The issue of one fibre that has its packet. -/
theorem issueChosen_one (ex : Exec) {p : CodePacket} (ps : List Pipe) :
    issueChosen ex L g q [⟨f, some p, ps⟩] s =
      andThen (issueAt ex L g.wgid [f.fid] f.pc (some p) (preIssue (takePipes s g.core q ps) L.id g.wgid [f.fid] (hasWaitm p (slotAt f.pc))))
        (fun t => .next { postIssue t L.id g.wgid [f] (stallOf p (slotAt f.pc)) with cur := Cur.reset }) := by
  let u : State := preIssue (takePipes s g.core q ps) L.id g.wgid [f.fid] (hasWaitm p (slotAt f.pc))
  show andThen (andThen (issueAt ex L g.wgid [f.fid] f.pc (some p) u) (fun t => .next { postIssue t L.id g.wgid [f] (stallOf p (slotAt f.pc)) with cur := Cur.reset })) (fun t => .next t) = _
  cases issueAt ex L g.wgid [f.fid] f.pc (some p) u <;> rfl

/-- What stands in a slot alone in its chain. -/
theorem issueAt_one (ex : Exec) {p : CodePacket} {i : Instr} {w : Nat} {fids : List Nat} {pc : Word} (hi : p.illegal = false) (hc : chainOf p (slotAt pc) = [slotAt pc]) (hd : p.decode (slotAt pc) = .ok i) :
    issueAt ex L w fids pc (some p) s = ex i (withCur s ⟨L.id, w, fids, BitVec.ofNat 32 (packetAt pc), slotAt pc, BitVec.ofNat 8 (p.ctlByte (slotAt pc)),
      BitVec.ofNat 32 (successor p (packetAt pc) (slotAt pc + 1)), pc, false, [], [], fids⟩) := by
  unfold issueAt
  simp only [hi, hc, slotsOf_one hd, Bool.false_eq_true, if_false]
  rfl

end

/-! ## The fibre before and after the issue -/

theorem Fibre.fid_settle (f : Fibre) : f.settle.fid = f.fid := by
  have hgo (k : Nat) (ws kept : List OutWrite) (f : Fibre) : (settleGo k f kept ws).fid = f.fid := by
    induction ws generalizing kept f with
    | nil => rfl
    | cons w ws ih =>
      unfold settleGo
      split
      · exact (ih ..).trans (f.fid_apply _)
      · exact ih ..
  exact hgo f.k f.out [] f

theorem takePipes_wgs (s : State) (core q : Nat) (ps : List Pipe) : (takePipes s core q ps).wgs = s.wgs := by
  unfold takePipes
  split <;> rfl

theorem fib_preIssue_one {s : State} {l w : Nat} {f : Fibre} (hf : s.fib ⟨l, w, f.fid⟩ = some f) (waitm : Bool) :
    (preIssue s l w [f.fid] waitm).fib ⟨l, w, f.fid⟩ = some { f.settle with age := 0, parked := if waitm then f.parked else none } := by
  have hone : preIssue s l w [f.fid] waitm = s.modFib ⟨l, w, f.fid⟩ (fun f => { f.settle with age := 0, parked := if waitm then f.parked else none }) := rfl
  rw [hone, fib_modFib_same s _ (fun f => { f.settle with age := 0, parked := if waitm then f.parked else none }) Fibre.fid_settle, hf]
  rfl

/-- What a fibre is after its issue, held or gone on. -/
def issued (t : State) (o : Fibre) (stall : Nat) (f : Fibre) : Fibre :=
  if t.cur.held.any (fun h => h.1 == o.fid) then { f with age := o.age, parked := o.parked }
  else { f with k := f.k + max 1 stall, readyAt := t.clock.toNat + max 1 stall, resp := none, parked := if f.wait = .none then none else f.parked }

theorem fid_issued (t : State) (o : Fibre) (stall : Nat) (f : Fibre) : (issued t o stall f).fid = f.fid := by
  unfold issued
  split <;> rfl

theorem stallOf_one {p : CodePacket} {k : Nat} (h : chainOf p k = [k]) : stallOf p k = p.ctlByte k / 16 := by
  simp [stallOf, h]

/-! ## The step -/

/-- The issue in progress of one fibre, whose slot stands alone in its chain. -/
def loneCur (L : Launch) (g : Wg) (f : Fibre) (p : CodePacket) : Cur :=
  ⟨L.id, g.wgid, [f.fid], BitVec.ofNat 32 (packetAt f.pc), slotAt f.pc, BitVec.ofNat 8 (p.ctlByte (slotAt f.pc)), BitVec.ofNat 32 (successor p (packetAt f.pc) (slotAt f.pc + 1)), f.pc, false, [], [], [f.fid]⟩

/-- The state in which the instruction of one fibre acts. -/
def State.atIssue (s : State) (L : Launch) (g : Wg) (q : Nat) (f : Fibre) (p : CodePacket) : State :=
  withCur (preIssue (takePipes (prepare s L g q) g.core q (pipeOf (p.op (slotAt f.pc))).toList) L.id g.wgid [f.fid] (hasWaitm p (slotAt f.pc))) (loneCur L g f p)

section
variable {s : State} {L : Launch} {g : Wg} {q : Nat} {f : Fibre} {p : CodePacket} {i : Instr}
  (hvisit : s.nextVisit = some (L, g, q)) (hw : s.wg g.launch g.wgid = some g) (hg : g.fibres = [f])
  (hfetch : (s.core g.core).fetch L.asid f = .packet p) (hempty : p.isEmpty (slotAt f.pc) = false) (hlegal : p.illegal = false) (hchain : chainOf p (slotAt f.pc) = [slotAt f.pc])
  (hdecode : p.decode (slotAt f.pc) = .ok i) (hun : s.unblocked L g.wgid f.settle [(i, BitVec.ofNat 8 (p.ctlByte (slotAt f.pc)))] = true)
include hvisit hw hg hfetch hempty hlegal hchain hdecode hun

omit hw in
/-- The one fibre is awake, and what is prepared is its program counter, which stands. -/
theorem prepare_visited : q < 4 ∧ quarterOf f.fid = q ∧ f.awake s.clock.toNat = true ∧ L.id = g.launch ∧ prepare s L g q = s.modFib ⟨L.id, g.wgid, f.fid⟩ (fun x => { x with pc := f.pc }) := by
  obtain ⟨hL, hq4, hany⟩ := nextVisit_awake hvisit
  rw [hg] at hany
  simp only [List.any_cons, List.any_nil, Bool.or_false, Bool.and_eq_true, beq_iff_eq] at hany
  obtain ⟨hq, hawake⟩ := hany
  exact ⟨hq4, hq, hawake, launch_id hL, prepare_only hg hq hawake hfetch hempty hlegal (hchain.symm ▸ slotsOf_one hdecode) hun⟩

theorem fib_atIssue : (s.atIssue L g q f p).fib ⟨L.id, g.wgid, f.fid⟩ = some { f.settle with age := 0, parked := if hasWaitm p (slotAt f.pc) then f.parked else none } := by
  obtain ⟨-, -, -, hid, hprep⟩ := prepare_visited hvisit hg hfetch hempty hlegal hchain hdecode hun
  have hf : s.fib ⟨L.id, g.wgid, f.fid⟩ = some f := by
    rw [State.fib, hid, hw]
    simp [Wg.fib, hg]
  have hv : (prepare s L g q).fib ⟨L.id, g.wgid, f.fid⟩ = some f := by
    rw [hprep, fib_modFib_same s _ (fun x => { x with pc := f.pc }) (fun _ => rfl), hf]
    rfl
  refine fib_preIssue_one ?_ _
  rw [State.fib_of_wgs (takePipes_wgs ..), hv]

/-- A visit of the quarter executes the decoded instruction, then counts the issue. -/
theorem visit_one (ex : Exec) (hpipes : ∀ x, pipeOf (p.op (slotAt f.pc)) = some x → (s.core g.core).pipesFree q s.clock.toNat [x] = true)
    (heng : pipeOf (p.op (slotAt f.pc)) = some .eng → (prepare s L g q).engServes L g q = true) :
    visit ex L g q s = andThen (ex i (s.atIssue L g q f p)) (fun t => .next { postIssue t L.id g.wgid [f] (p.ctlByte (slotAt f.pc) / 16) with cur := Cur.reset }) := by
  obtain ⟨hq4, hq, hawake, hid, hprep⟩ := prepare_visited hvisit hg hfetch hempty hlegal hchain hdecode hun
  have hwv : (prepare s L g q).wg g.launch g.wgid = some g := hprep ▸ wg_modFib_pc hid hw hg
  have hbare : (prepare s L g q).bare = s.bare := hprep ▸ bare_modFib ..
  have hcore : (prepare s L g q).core g.core = s.core g.core := core_of_bare hbare _
  have hclock : (prepare s L g q).clock = s.clock := bare_field (·.clock) (fun _ => rfl) hbare
  have hps : [slotAt f.pc].filterMap (fun k => pipeOf (p.op k)) = (pipeOf (p.op (slotAt f.pc))).toList := by
    cases h : pipeOf (p.op (slotAt f.pc)) <;> simp [h]
  have hready : (prepare s L g q).readyIn L g q = [⟨f, some p, (pipeOf (p.op (slotAt f.pc))).toList⟩] := by
    have hone := ready_packet (s := prepare s L g q) (hclock.symm ▸ hawake) (hcore.symm ▸ hfetch) hlegal (hchain.symm ▸ slotsOf_one hdecode) ((unblocked_of_bare hbare ..).trans hun)
    rw [hchain, hps] at hone
    unfold State.readyIn
    simp [hg, hq, hone]
  rw [visit_eq, foldl_prepareStep hg hq hq4 hw hwv, issuePrepared_one ex hwv hready ?free ?serves, issueChosen_one, issueAt_one ex hlegal hchain hdecode, stallOf_one hchain]
  case free =>
    rw [hcore, hclock]
    cases h : pipeOf (p.op (slotAt f.pc)) with
    | none => rfl
    | some x => exact hpipes x h
  case serves =>
    intro hc
    refine heng ?_
    cases h : pipeOf (p.op (slotAt f.pc)) with
    | none => simp [h] at hc
    | some x => simpa [h, eq_comm] using hc
  rfl

/-- A step is the visit, then the turn passes on. -/
theorem step_one (hev : s.nextEvent = none) (hrun : s.power.stopped = false) (hpipes : ∀ x, pipeOf (p.op (slotAt f.pc)) = some x → (s.core g.core).pipesFree q s.clock.toNat [x] = true)
    (heng : pipeOf (p.op (slotAt f.pc)) = some .eng → (prepare s L g q).engServes L g q = true) :
    step s = andThen (exec i (s.atIssue L g q f p))
      (fun t => .next { postIssue t L.id g.wgid [f] (p.ctlByte (slotAt f.pc) / 16) with cur := Cur.reset, turn := 4 * g.core + q + 1 }) := by
  rw [step_of_no_event hev hrun, turnOf, hvisit]
  dsimp only
  rw [visit_one hvisit hw hg hfetch hempty hlegal hchain hdecode hun exec hpipes heng]
  cases exec i (s.atIssue L g q f p) <;> rfl

end

/-- The state after the issue of one fibre. -/
def afterIssue (t : State) (id : FibId) (o : Fibre) (stall turn : Nat) : State := { t.modFib id (issued t o stall) with cur := Cur.reset, turn := turn }

theorem fib_afterIssue (t : State) (id : FibId) (o : Fibre) (stall turn : Nat) : (afterIssue t id o stall turn).fib id = (t.fib id).map (issued t o stall) :=
  fib_modFib_same t id (issued t o stall) (fid_issued t o stall)

/-- Settles O58: the fibre is the only one that is ready, its bundle holds it alone, and the issue is that of its slot. -/
theorem stepRunsInstruction : Obligations.step_runs_instruction := by
  intro s L g q f bs i hev hrun hvisit hw hg k p ctl h4 h16 hr hp hlen hext hempty hlegal hchain hdecode hun hpipes heng cur u stall
  have hfetch : (s.core g.core).fetch L.asid f = .packet p := fetch_packet h4 h16 hr hp hlen hext
  have hstep := step_one hvisit hw hg hfetch hempty hlegal hchain hdecode hun hev hrun hpipes heng
  have hu : s.atIssue L g q f p = u := rfl
  rw [hu] at hstep
  refine ⟨fib_atIssue hvisit hw hg hfetch hempty hlegal hchain hdecode hun, fun t ht => ?_, fun ⟨r, hx⟩ => ⟨r, by rw [hstep, hx]; rfl⟩, fun ⟨r, hx⟩ => ⟨r, by rw [hstep, hx]; rfl⟩⟩
  rw [ht] at hstep
  refine ⟨afterIssue t ⟨L.id, g.wgid, f.fid⟩ f (p.ctlByte k / 16) (4 * g.core + q + 1), hstep, rfl, rfl, rfl, fun h hf hheld => ?_,
    fun id hid => fib_modFib_other t _ id (issued t f (p.ctlByte k / 16)) (fid_issued t f _) hid⟩
  rw [fib_afterIssue, hf, Option.map_some, issued, hheld]
  rfl

end Sys2Proof.Machine
end
